-- ==== Sys2Proof/Word.lean ====
section
/-!
DEFINITION. Words of the STV4 package: the widths the specification gives registers, addresses and bytes
(spec/00_scope.md R7 to R15), and the plainest reading of a field of a word.
-/
namespace Sys2Proof

/-- A byte (R9: memory, frames and records are byte sequences, least significant byte first). -/
abbrev Byte := BitVec 8
/-- A 32-bit word; every F32 is held as its 32 bits. -/
abbrev Word32 := BitVec 32
/-- A 64-bit word: s registers, instruction words and 64-bit registers. -/
abbrev Word64 := BitVec 64

/-- A cell of the package, 0 to 63 (R4). -/
abbrev CellId := Fin 64
/-- A context slot of a cell: 0 the foreground slot, 1 the bubble slot (R170). -/
abbrev SlotId := Fin 2
/-- A partition, 0 to 3 (R268). -/
abbrev PartId := Fin 4
/-- A memory stack, 0 to 15 (R5). -/
abbrev StackId := Fin 16
/-- A channel of a stack, 0 to 31 (R278). -/
abbrev ChanId := Fin 32
/-- A relal port of the package, 0 to 11 (Table 1-3). -/
abbrev PortId := Fin 12
/-- A die-to-die join, 0 to 7 (chapter 10). -/
abbrev JoinId := Fin 8
/-- A die: 0 to 3 are CD0 to CD3, 4 is FD0 and 5 is FD1 (R1 to R3). -/
abbrev DieId := Fin 6
/-- A fabric die: 0 is FD0, 1 is FD1. -/
abbrev FabId := Fin 2

end Sys2Proof
end

