-- ==== Sys2Proof/Machine/Bits.lean ====
section
/-!
DEFINITION. Fields of words (the notation word[hi:lo] of R7) and byte order (R9).
-/
namespace Sys2Proof.Machine

/-- Bits [lo + len - 1 : lo] of a word, as a number. -/
def fld {n : Nat} (w : BitVec n) (lo len : Nat) : Nat := (w.toNat >>> lo) % 2 ^ len

/-- The same field as a word of its width. -/
def bfld {n : Nat} (w : BitVec n) (lo len : Nat) : BitVec len := w.extractLsb' lo len

/-- One bit of a word. -/
def bit {n : Nat} (w : BitVec n) (i : Nat) : Bool := w.getLsbD i

/-- The mask of a field. -/
def mask (n lo len : Nat) : BitVec n := BitVec.ofNat n ((2 ^ len - 1) <<< lo)

/-- A word with one field replaced. -/
def setFld {n : Nat} (w : BitVec n) (lo len v : Nat) : BitVec n :=
  (w &&& ~~~(mask n lo len)) ||| BitVec.ofNat n ((v % 2 ^ len) <<< lo)

/-- A word with one bit replaced. -/
def setBit {n : Nat} (w : BitVec n) (i : Nat) (b : Bool) : BitVec n := setFld w i 1 b.toNat

/-- The bytes of a number, least significant first (R9). -/
def leBytes : Nat → Nat → List Byte
  | 0, _ => []
  | n + 1, v => BitVec.ofNat 8 v :: leBytes n (v / 256)

/-- The number a byte list spells, least significant first (R9). -/
def ofLe : List Byte → Nat
  | [] => 0
  | b :: rest => b.toNat + 256 * ofLe rest

/-- Add to a field, stopping at its largest value (R590, saturating fields). -/
def satAdd {n : Nat} (w : BitVec n) (lo len k : Nat) : BitVec n :=
  setFld w lo len (min (fld w lo len + k) (2 ^ len - 1))

/-- The number of a Boolean list, first bit least significant. -/
def ofBits : List Bool → Nat
  | [] => 0
  | b :: rest => (if b then 1 else 0) + 2 * ofBits rest

/-- A number as a signed field of `len` bits. -/
def toSigned (len v : Nat) : Int := if v < 2 ^ (len - 1) then (v : Int) else (v : Int) - 2 ^ len

/-- `n` bytes of a list from offset `off`, missing bytes reading zero. -/
def slice (l : List Byte) (off n : Nat) : List Byte :=
  let t := (l.drop off).take n
  t ++ List.replicate (n - t.length) 0

/-- The number in `n` bytes of a list from offset `off`. -/
def field (l : List Byte) (off n : Nat) : Nat := ofLe (slice l off n)

/-- The number of ones of a word. -/
def popCount {n : Nat} (w : BitVec n) : Nat := (List.range n).foldl (fun c i => if bit w i then c + 1 else c) 0

/-- Indices of the ones of a word, ascending. -/
def ones {n : Nat} (w : BitVec n) : List Nat := (List.range n).filter (bit w ·)

/-- Comparison of 32-bit sequence numbers (R15): `a` is not later than `b`, where a − b as a signed number is not above
zero. -/
def notLater (a b : Word32) : Bool := decide ((a - b).toInt ≤ 0)

/-- A word register's number, with `true` counted as 1. -/
def bnat (b : Bool) : Nat := if b then 1 else 0

end Sys2Proof.Machine
end

