-- ==== Sys2Proof/Syntax.lean ====
section
/-!
DEFINITION. The commands of the STV4 package: one constructor of `Instr` per row of the opcode table, with the
row's operands. A row of the instruction set carries the cell and slot that execute it and the decoded fields of
its word (Table 6-2, Table 6-4), reserved fields included, so that the checks of R179 and R217 can be made. A row
that is an event carries what the outside world supplies with it: which block it happens at, a value written,
a frame received, a reading taken. A row with nothing to supply has no operand.
-/
namespace Sys2Proof

/-- Where an instruction runs: the cell and the context slot (R170). -/
structure At where
  cell : CellId
  slot : SlotId
  deriving DecidableEq, Repr

/-- The predicate field of an instruction word (R177): NEG, bit 51, and PREG, bits 50 to 48. -/
structure Pred where
  neg  : Bool
  preg : BitVec 3
  deriving DecidableEq, Repr

/-- What the connections do to one attempt to move a burst (R302): the data and check bits that arrive changed, by word
of the burst, and the bits of the burst CRC that do. -/
structure WireTry where
  words : List (Fin 64 × BitVec 39)
  crc   : BitVec 16
  deriving DecidableEq, Repr

/-- An item of periodic self-test (Table 18-1): a receive lane of a port; a wire of a group of a join's direction, or
its primary (0x7C) or alternate (0x7D) forwarded clock; a connection of a channel of a stack. -/
inductive TestItem where
  | lane (k : PortId) (l : Fin 10)
  | wire (j : JoinId) (dir : Fin 2) (group : BitVec 6) (w : BitVec 7)
  | conn (n : StackId) (ch : ChanId) (i : Fin 318)
  deriving DecidableEq, Repr

/-- Format S, sc register forms (Table 6-4). -/
structure FmtS where
  sd  : BitVec 5
  sa  : BitVec 5
  sb  : BitVec 5
  sc  : BitVec 5
  pd  : BitVec 3
  rsv : BitVec 9
  fn  : BitVec 16
  deriving DecidableEq, Repr

/-- Format SI, sc immediate forms (Table 6-4). -/
structure FmtSI where
  sd  : BitVec 5
  sa  : BitVec 5
  pd  : BitVec 3
  fn  : BitVec 3
  imm : Word32
  deriving DecidableEq, Repr

/-- Format SB, sc branches (Table 6-4). -/
structure FmtSB where
  sa     : BitVec 5
  rsv    : BitVec 11
  offset : Word32
  deriving DecidableEq, Repr

/-- Format V, vx register and stream forms (Table 6-4). -/
structure FmtV where
  d   : BitVec 7
  a   : BitVec 7
  b   : BitVec 7
  c   : BitVec 7
  rm  : BitVec 2
  fmt : BitVec 4
  fn  : BitVec 14
  deriving DecidableEq, Repr

/-- Format VI, vx immediate forms (Table 6-4). -/
structure FmtVI where
  d   : BitVec 7
  a   : BitVec 7
  rm  : BitVec 2
  imm : Word32
  deriving DecidableEq, Repr

/-- Format M, mx (Table 6-4). -/
structure FmtM where
  ta    : BitVec 4
  tb    : BitVec 4
  base  : BitVec 12
  count : BitVec 13
  epiv  : BitVec 1
  epi   : BitVec 2
  rm    : BitVec 2
  flags : BitVec 10
  deriving DecidableEq, Repr

/-- Format Q, dm and cl (Table 6-4). -/
structure FmtQ where
  q     : BitVec 3
  t     : BitVec 4
  latch : BitVec 6
  len   : BitVec 1
  so    : BitVec 5
  sov   : BitVec 1
  fn    : BitVec 28
  deriving DecidableEq, Repr

/-- Format Y, sy, st and tr (Table 6-4). -/
structure FmtY where
  latch : BitVec 6
  sa    : BitVec 5
  sd    : BitVec 5
  imm   : Word32
  deriving DecidableEq, Repr

/-- Who makes a register access: the host through the HCP (R523), the management path, or a context through
sc.rdreg and sc.wrreg (R222, R585). -/
inductive Requester where
  | host
  | mgmt
  | ctx (c : CellId) (s : SlotId)
  deriving DecidableEq, Repr

/-- A register read of a context (R222): its form, and whether the word read arrives with an uncorrectable error (`bad`,
Table 6-12). -/
structure RingRead where
  form : FmtSI
  bad  : Bool
  deriving DecidableEq, Repr

/-- What a register access does: a write of a value, or a read, which for a context is into scalar register `sd` (R222). -/
inductive RegOp where
  | write (v : Word64)
  | read (sd : BitVec 5)
  deriving DecidableEq, Repr

/-- A register access under way on the register ring (R25): who sent it, its offset, width and what it does. -/
structure RegFlight where
  by_    : Requester
  offset : BitVec 28
  bytes8 : Bool
  op     : RegOp
  deriving DecidableEq, Repr

/-- A join of the register ring that fails (R25), and the access in flight on the ring then, if any. -/
structure RingFail where
  join     : Fin 6
  inFlight : Option RegFlight
  deriving DecidableEq, Repr

/-- A burst of a stack (its 256-byte line) and the stored bits of its words found changed (R299). -/
structure BurstErrs where
  line  : BitVec 29
  flips : List (Fin 64 × BitVec 39)
  deriving DecidableEq, Repr

/-- A connection of a stack (R279): its channel, and its number in the order of Table 9-1. -/
structure StackWire where
  ch : ChanId
  i  : Fin 318
  deriving DecidableEq, Repr

/-- The symbol errors of each lane in a window (R344): of the port's own receiver, or (`out`) of the receiver at the far
end, for the direction the port sends. -/
structure LaneErrs where
  out   : Bool
  count : Vector (BitVec 16) 10
  deriving DecidableEq, Repr

/-- The eye a LANE slice measures (R556): height in mV, width in 1/100 UI. -/
structure LaneEye where
  height : Nat
  width  : Nat
  deriving DecidableEq, Repr

/-- What the continuous land check reads (R556): a signal land's driven level and its pad; or, of a land group (of the
12 V lands, or of ground), its share of the current of its kind in 1/100,000, and the package's input power in watts. -/
inductive PinReading where
  | land (driven pad : Bool)
  | group (ground : Bool) (i : Fin 16) (share load : Nat)
  deriving DecidableEq, Repr

/-- A word written to a routing slot (R390), and whether the write has reached the copies of both fabric dies (`whole`). -/
structure SlotWord where
  v     : Word64
  whole : Bool
  deriving DecidableEq, Repr

/-- Why a port sends its unacknowledged frames again: an LNAK asked for it (R345), or the partner's island took over its
side and the link layer starts again (R372). -/
inductive Replay where
  | asked (k : PortId)
  | takeover (k : PortId)
  deriving DecidableEq, Repr

/-- A frame of Relal Link (R350): 256 header bits and 256 payload bytes. -/
structure Frame where
  header  : BitVec 256
  payload : List Byte
  deriving DecidableEq, Repr

/-- A beat of a crossing (R319, R322) as it arrives: the 128 data words with their check bits (39 bits each) and
the control field. Of an idle beat (VALID = 0), whose data is the sender's fill (R321), `words` are the bits that the
wires change. -/
structure Beat where
  words   : List (BitVec 39)
  control : Word64
  deriving DecidableEq, Repr

/-- The three registers of R389. -/
inductive FabricCfgReg where
  | ageCfg
  | nodeId
  | timeCtl
  deriving DecidableEq, Repr

/-- What of a routing slot a write names (R386): its CFG, or an entry of its MAP. -/
inductive RouteTarget where
  | cfg
  | map (i : Fin 8192)
  deriving DecidableEq, Repr

/-- What a port meets in training (R342, R378 to R382): the lanes the test finds failed in the direction it receives and
in the one it sends; its partner's position, port, generation and features; whether the partner requires
authentication, the challenge it sends and its answer, a signature and a certificate chain; and the correction that the
lane asymmetry found in CAL gives the time offset, in 1/16 ns. -/
structure PortPartner where
  node      : BitVec 16
  port      : BitVec 4
  genMax    : BitVec 8
  features  : Word32
  authReq   : Bool
  lanesBad  : BitVec 10
  outBad    : BitVec 10
  challenge : BitVec 256
  signature : List Byte
  chain     : List Byte
  asym      : Int
  deriving DecidableEq, Repr

/-- What a request of the host addresses (Table 17-2). -/
inductive HostSpace where
  | bar0
  | bar2
  | config
  deriving DecidableEq, Repr

/-- A request of the host: whether it is made to the HSP, what it addresses, and whether it writes. -/
structure HostReq where
  hsp   : Bool
  space : HostSpace
  write : Bool
  deriving DecidableEq, Repr

/-- How an SMBus write begins (R545): the target's address, the offset, and the PEC where the controller sends one. -/
structure SmbusWrite where
  target : BitVec 7
  offset : BitVec 16
  pec    : Option (BitVec 8)
  deriving DecidableEq, Repr

/-- An SMBus read (R545): the target's address, the bytes the controller clocks, and whether it clocks a PEC. -/
structure SmbusRead where
  target : BitVec 7
  count  : Nat
  pec    : Bool
  deriving DecidableEq, Repr

/-- How a restore ends (R460): whether the twin's node answered, and the bytes of its active mordant tables, whose place
on the twin the specification does not give. -/
structure RestoreData where
  present  : Bool
  tables   : List Byte
  deriving DecidableEq, Repr

/-- The commands of the package, one per row of the opcode table. -/
inductive Instr where
  /-- SC_ADD (R219): Scalar integer add: SD := SA + SB, modulo 2^64. -/
  | scAdd (at_ : At) (p : Pred) (f : FmtS)
  /-- SC_SUB (R219): Scalar integer subtract: SD := SA - SB. -/
  | scSub (at_ : At) (p : Pred) (f : FmtS)
  /-- SC_MUL (R219): Low 64 bits of the scalar product. -/
  | scMul (at_ : At) (p : Pred) (f : FmtS)
  /-- SC_MULHU (R219): High 64 bits of the unsigned scalar product. -/
  | scMulhu (at_ : At) (p : Pred) (f : FmtS)
  /-- SC_DIV (R219): Signed quotient rounded toward zero; division by zero gives all ones and does not fault. -/
  | scDiv (at_ : At) (p : Pred) (f : FmtS)
  /-- SC_DIVU (R219): Unsigned quotient. -/
  | scDivu (at_ : At) (p : Pred) (f : FmtS)
  /-- SC_REM (R219): Signed remainder, with the sign of the dividend. -/
  | scRem (at_ : At) (p : Pred) (f : FmtS)
  /-- SC_REMU (R219): Unsigned remainder. -/
  | scRemu (at_ : At) (p : Pred) (f : FmtS)
  /-- SC_AND (R219): Bitwise AND of two s registers. -/
  | scAnd (at_ : At) (p : Pred) (f : FmtS)
  /-- SC_OR (R219): Bitwise OR of two s registers. -/
  | scOr (at_ : At) (p : Pred) (f : FmtS)
  /-- SC_XOR (R219): Bitwise XOR of two s registers. -/
  | scXor (at_ : At) (p : Pred) (f : FmtS)
  /-- SC_SHL (R219): Left shift by SB mod 64. -/
  | scShl (at_ : At) (p : Pred) (f : FmtS)
  /-- SC_SHR (R219): Logical right shift. -/
  | scShr (at_ : At) (p : Pred) (f : FmtS)
  /-- SC_SAR (R219): Arithmetic right shift. -/
  | scSar (at_ : At) (p : Pred) (f : FmtS)
  /-- SC_CMP (R218): Integer compare of two s registers into a predicate, relation taken from FN. -/
  | scCmp (at_ : At) (p : Pred) (f : FmtS)
  /-- SC_POP (R219): Combines two predicates with and, or, xor or andn into PD. -/
  | scPop (at_ : At) (p : Pred) (f : FmtS)
  /-- SC_ADDI (R219): SD := SA + sext(IMM). -/
  | scAddi (at_ : At) (p : Pred) (f : FmtSI)
  /-- SC_ANDI (R219): SD := SA and zext(IMM). -/
  | scAndi (at_ : At) (p : Pred) (f : FmtSI)
  /-- SC_ORI (R219): SD := SA or zext(IMM). -/
  | scOri (at_ : At) (p : Pred) (f : FmtSI)
  /-- SC_XORI (R219): SD := SA xor zext(IMM). -/
  | scXori (at_ : At) (p : Pred) (f : FmtSI)
  /-- SC_CMPI (R218): Integer compare of SA with sext(IMM) into a predicate. -/
  | scCmpi (at_ : At) (p : Pred) (f : FmtSI)
  /-- SC_MOVI (R219): SD := sext(IMM). -/
  | scMovi (at_ : At) (p : Pred) (f : FmtSI)
  /-- SC_LDHI (R219): Loads IMM into the upper 32 bits and keeps the low 32 bits of SA. -/
  | scLdhi (at_ : At) (p : Pred) (f : FmtSI)
  /-- SC_SHI (R219): Shift by immediate amount, kind selected by FN. -/
  | scShi (at_ : At) (p : Pred) (f : FmtSI)
  /-- SC_FADD (R220): Scalar F32 add. -/
  | scFadd (at_ : At) (p : Pred) (f : FmtS)
  /-- SC_FSUB (R220): Scalar F32 subtract. -/
  | scFsub (at_ : At) (p : Pred) (f : FmtS)
  /-- SC_FMUL (R220): Scalar F32 multiply. -/
  | scFmul (at_ : At) (p : Pred) (f : FmtS)
  /-- SC_FFMA (R220): Scalar F32 fused multiply-add, rounded once. -/
  | scFfma (at_ : At) (p : Pred) (f : FmtS)
  /-- SC_FDIV (R220): Scalar F32 divide. -/
  | scFdiv (at_ : At) (p : Pred) (f : FmtS)
  /-- SC_FSQRT (R220): Scalar F32 square root. -/
  | scFsqrt (at_ : At) (p : Pred) (f : FmtS)
  /-- SC_FRCP (R220): Scalar F32 reciprocal or reciprocal square root, selected by FN[0]. -/
  | scFrcp (at_ : At) (p : Pred) (f : FmtS)
  /-- SC_FTR (R220): Scalar F32 transcendental function selected by FN. -/
  | scFtr (at_ : At) (p : Pred) (f : FmtS)
  /-- SC_FCMP (R218): F32 compare into a predicate. -/
  | scFcmp (at_ : At) (p : Pred) (f : FmtS)
  /-- SC_FCVT (R220): Scalar conversion between F32, signed 64-bit and W16, kind selected by FN. -/
  | scFcvt (at_ : At) (p : Pred) (f : FmtS)
  /-- SC_LD (R221): Loads 8 bytes from the slot's cell store part into SD. -/
  | scLd (at_ : At) (p : Pred) (f : FmtSI)
  /-- SC_ST (R221): Stores SD as 8 bytes into the slot's cell store part. -/
  | scSt (at_ : At) (p : Pred) (f : FmtSI)
  /-- SC_RDREG (R222): Reads a register over the register ring into SD, subject to context access rights. -/
  | scRdreg (at_ : At) (p : Pred) (f : RingRead)
  /-- SC_WRREG (R222): Writes SD to a register over the register ring, subject to context access rights. -/
  | scWrreg (at_ : At) (p : Pred) (f : FmtSI)
  /-- SC_TLD (R221): Loads a tile descriptor from the cell store. -/
  | scTld (at_ : At) (p : Pred) (f : FmtS)
  /-- SC_TST (R221): Stores a tile descriptor to the cell store. -/
  | scTst (at_ : At) (p : Pred) (f : FmtS)
  /-- SC_TSET (R221): Builds a tile descriptor from three s registers. -/
  | scTset (at_ : At) (p : Pred) (f : FmtS)
  /-- SC_TBASE (R221): Replaces EBASE and MBASE of a tile descriptor. -/
  | scTbase (at_ : At) (p : Pred) (f : FmtS)
  /-- SC_QLD (R221): Loads a queue descriptor from the cell store. -/
  | scQld (at_ : At) (p : Pred) (f : FmtS)
  /-- SC_QST (R221): Stores a queue descriptor to the cell store. -/
  | scQst (at_ : At) (p : Pred) (f : FmtS)
  /-- SC_QSET (R221): Builds a queue descriptor from s registers, DEADLINE zero. -/
  | scQset (at_ : At) (p : Pred) (f : FmtS)
  /-- SC_QADDR (R221): Replaces ADDR and DEADLINE of a queue descriptor. -/
  | scQaddr (at_ : At) (p : Pred) (f : FmtS)
  /-- SC_BR (R184): PC-relative branch. -/
  | scBr (at_ : At) (p : Pred) (f : FmtSB)
  /-- SC_BRI (R184): Indirect branch to the byte offset in SA. -/
  | scBri (at_ : At) (p : Pred) (f : FmtSB)
  /-- SC_CALL (R223): Writes the return offset to s31 and branches. -/
  | scCall (at_ : At) (p : Pred) (f : FmtSB)
  /-- SC_NOP (R223): No operation. -/
  | scNop (at_ : At) (p : Pred) (f : FmtS)
  /-- SC_EXIT (R223): Ends the context once every queue is empty, unless a vat row is live. -/
  | scExit (at_ : At) (p : Pred) (f : FmtS)
  /-- SC_TIME (R223): Reads global time into SD. -/
  | scTime (at_ : At) (p : Pred) (f : FmtS)
  /-- SC_ID (R223): Writes node, partition, slot and cell of the context into SD. -/
  | scId (at_ : At) (p : Pred) (f : FmtS)
  /-- FAULT_STOP_COMPLETE (R207): The last started instruction of a fault-stopped context completes; STOPPED is set and a forced switch follows. -/
  | faultStopComplete (at_ : At)
  /-- MX_MMA (R103): Dispatches a matrix multiply-accumulate into vat rows to the plate queue. -/
  | mxMma (at_ : At) (p : Pred) (f : FmtM)
  /-- MX_DRAIN (R120): Dispatches a drain of vat rows to the cell store with conversion and optional epilogue. -/
  | mxDrain (at_ : At) (p : Pred) (f : FmtM)
  /-- MX_VSAVE (R124): Dispatches a bit-exact save of vat rows to the cell store. -/
  | mxVsave (at_ : At) (p : Pred) (f : FmtM)
  /-- MX_VLOAD (R124): Dispatches a bit-exact load of rows into the vat. -/
  | mxVload (at_ : At) (p : Pred) (f : FmtM)
  /-- MX_VFREE (R225): Dispatches the release of vat rows, clearing their live bits. -/
  | mxVfree (at_ : At) (p : Pred) (f : FmtM)
  /-- PLATE_ISSUE (R125): The plate queue starts its oldest instruction once its holds clear, checking issue faults. -/
  | plateIssue (c : CellId)
  /-- STATIONARY_TILE_LOADED (R105): A stationary B tile finishes loading and its slice may stream. -/
  | stationaryTileLoaded (c : CellId)
  /-- PLATE_ROW_CYCLE (R104): One A row streams through the array for one slice and hands group sums to the promotion pipe. -/
  | plateRowCycle (c : CellId)
  /-- VAT_PROMOTION (R116): Group sums leave the in-flight window and are written into vat entries, setting live bits. -/
  | vatPromotion (c : CellId)
  /-- VAT_ROW_TRANSFER (R125): A drain, vsave or vload moves one vat row, possibly releasing held row-cycles. -/
  | vatRowTransfer (c : CellId)
  /-- VAT_CLEAR_DONE (R118): The vat clear ends and the plate accepts instructions again. -/
  | vatClearDone (c : CellId)
  /-- VAT_APERTURE_ACCESS (R131): An access to a cell's vat debug aperture, served in debug mode or refused with VAT_HIDDEN. -/
  | vatApertureAccess (by_ : Requester) (c : CellId) (isWrite : Bool) (offset : BitVec 21) (data : Word32)
  /-- VX_ADD (R233): Vector add, also into G16 under the mordant table. -/
  | vxAdd (at_ : At) (p : Pred) (f : FmtV)
  /-- VX_SUB (R233): Vector subtract, also into G16. -/
  | vxSub (at_ : At) (p : Pred) (f : FmtV)
  /-- VX_MUL (R233): Vector multiply. -/
  | vxMul (at_ : At) (p : Pred) (f : FmtV)
  /-- VX_FMA (R233): Vector fused multiply-add. -/
  | vxFma (at_ : At) (p : Pred) (f : FmtV)
  /-- VX_NEG (R233): Vector negate. -/
  | vxNeg (at_ : At) (p : Pred) (f : FmtV)
  /-- VX_ABS (R233): Vector absolute value. -/
  | vxAbs (at_ : At) (p : Pred) (f : FmtV)
  /-- VX_MIN (R233): Vector minimum. -/
  | vxMin (at_ : At) (p : Pred) (f : FmtV)
  /-- VX_MAX (R233): Vector maximum. -/
  | vxMax (at_ : At) (p : Pred) (f : FmtV)
  /-- VX_SEL (R230): Selects A or B per element by the raw bits of the mask. -/
  | vxSel (at_ : At) (p : Pred) (f : FmtV)
  /-- VX_CMP (R230): Writes an all-ones or all-zeros mask per element from a comparison. -/
  | vxCmp (at_ : At) (p : Pred) (f : FmtV)
  /-- VX_CVT (R228): Converts elements between formats under RM, or copies bits for equal formats. -/
  | vxCvt (at_ : At) (p : Pred) (f : FmtV)
  /-- VX_DIV (R233): Vector divide. -/
  | vxDiv (at_ : At) (p : Pred) (f : FmtV)
  /-- VX_SQRT (R233): Vector square root. -/
  | vxSqrt (at_ : At) (p : Pred) (f : FmtV)
  /-- VX_RECIP (R233): Vector reciprocal. -/
  | vxRecip (at_ : At) (p : Pred) (f : FmtV)
  /-- VX_RSQRT (R233): Vector reciprocal square root. -/
  | vxRsqrt (at_ : At) (p : Pred) (f : FmtV)
  /-- VX_EXP (R233): Vector exp. -/
  | vxExp (at_ : At) (p : Pred) (f : FmtV)
  /-- VX_EXP2 (R233): Vector exp2. -/
  | vxExp2 (at_ : At) (p : Pred) (f : FmtV)
  /-- VX_LOG (R233): Vector natural log. -/
  | vxLog (at_ : At) (p : Pred) (f : FmtV)
  /-- VX_LOG2 (R233): Vector log2. -/
  | vxLog2 (at_ : At) (p : Pred) (f : FmtV)
  /-- VX_TANH (R233): Vector tanh. -/
  | vxTanh (at_ : At) (p : Pred) (f : FmtV)
  /-- VX_SIGMOID (R233): Vector sigmoid. -/
  | vxSigmoid (at_ : At) (p : Pred) (f : FmtV)
  /-- VX_ERF (R233): Vector erf. -/
  | vxErf (at_ : At) (p : Pred) (f : FmtV)
  /-- VX_SEGRED (R141): Segmented sum or max over segments of 2^n lanes of one register. -/
  | vxSegred (at_ : At) (p : Pred) (f : FmtV)
  /-- VX_BCAST (R233): Broadcasts lane k of a register to every lane. -/
  | vxBcast (at_ : At) (p : Pred) (f : FmtV)
  /-- VX_GRAIN (R231): Writes one grain word per element, drawing reserved counters. -/
  | vxGrain (at_ : At) (p : Pred) (f : FmtV)
  /-- VX_GSKIP (R231): Advances the draw counters of a range of lanes at dispatch without drawing. -/
  | vxGskip (at_ : At) (p : Pred) (f : FmtV)
  /-- VX_SUMM (R146): Reduces a vector to a scalar summary in an s register, optionally setting stop bits. -/
  | vxSumm (at_ : At) (p : Pred) (f : FmtV)
  /-- VX_CRC64 (R232): Updates a CRC-64 held in an s register over a byte stream. -/
  | vxCrc64 (at_ : At) (p : Pred) (f : FmtV)
  /-- VX_SHA256 (R232): Updates a SHA-256 state in a v register over 64-byte blocks. -/
  | vxSha256 (at_ : At) (p : Pred) (f : FmtV)
  /-- VX_OPTSTEP (R158): Fused optimizer step over a descriptor's range, or SKIPPED under a skip verdict. -/
  | vxOptstep (at_ : At) (p : Pred) (f : FmtVI)
  /-- VX_RMODE_ENTER (R144): Enters restore mode in CLOSED once the plate queue is empty and no vat row is live. -/
  | vxRmodeEnter (at_ : At) (p : Pred) (f : FmtVI)
  /-- VX_RMODE_LEAVE (R144): Leaves restore mode after in-flight beats complete, then clears the vat. -/
  | vxRmodeLeave (at_ : At) (p : Pred) (f : FmtVI)
  /-- VX_ADDI (R233): Vector add of an F32 immediate. -/
  | vxAddi (at_ : At) (p : Pred) (f : FmtVI)
  /-- VX_SUBI (R233): Vector subtract of an F32 immediate. -/
  | vxSubi (at_ : At) (p : Pred) (f : FmtVI)
  /-- VX_MULI (R233): Vector multiply by an F32 immediate. -/
  | vxMuli (at_ : At) (p : Pred) (f : FmtVI)
  /-- VX_FMAI (R233): Vector fused multiply-add with immediate, D as third source. -/
  | vxFmai (at_ : At) (p : Pred) (f : FmtVI)
  /-- VX_MINI (R233): Vector minimum with an immediate. -/
  | vxMini (at_ : At) (p : Pred) (f : FmtVI)
  /-- VX_MAXI (R233): Vector maximum with an immediate. -/
  | vxMaxi (at_ : At) (p : Pred) (f : FmtVI)
  /-- VECTOR_ISSUE (R163): The vector queue issues its oldest instruction, checking issue faults. -/
  | vectorIssue (c : CellId)
  /-- VX_BEAT_RETIRE (R143): A vector beat completes and its result becomes usable or is written. -/
  | vxBeatRetire (c : CellId)
  /-- SUMMARY_RESULT (R149): A summary's result is written to its s register, releasing held readers. -/
  | summaryResult (c : CellId)
  /-- OPTSTEP_BLOCK (R159): vx.optstep updates or withholds one block of 64 parameters. -/
  | optstepBlock (c : CellId)
  /-- DM_GET (R235): Moves far-side rows into a tile's element plane. -/
  | dmGet (at_ : At) (p : Pred) (f : FmtQ)
  /-- DM_PUT (R235): Moves a tile's element plane to far-side rows. -/
  | dmPut (at_ : At) (p : Pred) (f : FmtQ)
  /-- DM_COPY (R234): Copies one queue-descriptor range to another of equal length. -/
  | dmCopy (at_ : At) (p : Pred) (f : FmtQ)
  /-- MOVER_ISSUE (R237): The mover starts a queued transfer, earliest DEADLINE first. -/
  | moverIssue (c : CellId)
  /-- DM_TRANSFER_COMPLETE (R199): A transfer completes, signalling its latch; DM_LATE advances if past DEADLINE. -/
  | dmTransferComplete (c : CellId) (i : Fin 8)
  /-- CL_AG (R402): Issues an all-gather arrival, optionally tagged or checked. -/
  | clAg (at_ : At) (p : Pred) (f : FmtQ)
  /-- CL_RS (R401): Issues a reduce-scatter arrival, optionally as the verdict collective. -/
  | clRs (at_ : At) (p : Pred) (f : FmtQ)
  /-- CL_AR (R402): Issues an all-reduce arrival. -/
  | clAr (at_ : At) (p : Pred) (f : FmtQ)
  /-- CL_A2A (R403): Issues an all-to-all arrival. -/
  | clA2a (at_ : At) (p : Pred) (f : FmtQ)
  /-- CL_BCAST (R402): Issues a broadcast arrival. -/
  | clBcast (at_ : At) (p : Pred) (f : FmtQ)
  /-- CL_BAR (R404): Issues a barrier arrival. -/
  | clBar (at_ : At) (p : Pred) (f : FmtQ)
  /-- CL_UNTAG (R412): Retires the outstanding gather tag of a collective descriptor. -/
  | clUntag (at_ : At) (p : Pred) (f : FmtQ)
  /-- COLLECTIVE_QUEUE_ISSUE (R241): The collective queue issues a cl instruction toward its column's engine, checking issue faults. -/
  | collectiveQueueIssue (c : CellId)
  /-- SY_INIT (R242): Sets a latch count and makes the context its owner. -/
  | syInit (at_ : At) (p : Pred) (f : FmtY)
  /-- SY_SIGNAL (R243): Adds IMM to a local latch after earlier cell-store writes complete. -/
  | sySignal (at_ : At) (p : Pred) (f : FmtY)
  /-- SY_WAIT (R242): Waits until a latch count reaches IMM, spinning. -/
  | syWait (at_ : At) (p : Pred) (f : FmtY)
  /-- SY_POLL (R243): Reads a latch count without waiting. -/
  | syPoll (at_ : At) (p : Pred) (f : FmtY)
  /-- SY_FENCE (R202): Holds issue until earlier instructions of named queues complete. -/
  | syFence (at_ : At) (p : Pred) (f : FmtY)
  /-- SY_YIELD (R260): Held until the context's queues settle, then faults VAT_LIVE or retires into a switch. -/
  | syYield (at_ : At) (p : Pred) (f : FmtY)
  /-- SY_RSIGNAL (R243): Adds IMM to a latch of another cell of the partition. -/
  | syRsignal (at_ : At) (p : Pred) (f : FmtY)
  /-- LATCH_SIGNAL_ARRIVE (R255): A signal reaches a latch: counts it, or drops it with LATCH_LOST on an unowned latch. -/
  | latchSignalArrive (c : CellId)
  /-- LATCH_WAIT_RETURN (R242): A waiting sy.wait completes, subtracting IMM, or is released ABANDONED. -/
  | latchWaitReturn (at_ : At)
  /-- ST_OPEN (R37): Lead cell opens the step: clears verdict, unseeds grain, sets EXPOSE and signals latch 60. -/
  | stOpen (at_ : At) (p : Pred) (f : FmtY)
  /-- ST_OPEN_RELEASE (R37): A non-lead cell's held st.open is released by latch 60 for the step. -/
  | stOpenRelease (c : CellId)
  /-- ST_STOP (R37): Freezes the cell's stop bits and arrives on the lead cell's latch 61. -/
  | stStop (at_ : At) (p : Pred) (f : FmtY)
  /-- STOP_BARRIER_COMPLETE (R37): Last arrival at st.stop: ORs stop bits, sets STOP and hands them to the verdict collective. -/
  | stopBarrierComplete (p : PartId)
  /-- ST_FIX (R37): Faults outside FIX; otherwise arrives on the lead cell's latch 63. -/
  | stFix (at_ : At) (p : Pred) (f : FmtY)
  /-- FIX_BARRIER_COMPLETE (R48): Last arrival at st.fix starts the commit or skip boundary procedure. -/
  | fixBarrierComplete (p : PartId)
  /-- FIX_COMMIT_ADVANCE (R48): With the negative complete, advances update count, write-protects pages and seals the record. -/
  | fixCommitAdvance (p : PartId)
  /-- STEP_BOUNDARY (R48): After the seal is acknowledged, performs the boundary apply, advances step index and input position, sets CLOSED. -/
  | stepBoundary (p : PartId)
  /-- ST_SEED (R56): Computes the grain keys of the slot's lanes for a sequence slot and zeroes draw counters. -/
  | stSeed (at_ : At) (p : Pred) (f : FmtY)
  /-- TR_MARK (R247): Writes a trace record with zero value. -/
  | trMark (at_ : At) (p : Pred) (f : FmtY)
  /-- TR_VAL (R247): Writes a trace record with the value of SA. -/
  | trVal (at_ : At) (p : Pred) (f : FmtY)
  /-- TR_CTR (R247): Writes a trace record with a performance counter value. -/
  | trCtr (at_ : At) (p : Pred) (f : FmtY)
  /-- TRACE_RECORD_WRITE (R249): The trace queue writes a record into the DRAM ring, or drops it. -/
  | traceRecordWrite (c : CellId)
  /-- VERDICT_ARRIVAL (R450): The reduced verdict, with BODY_ACK in, is written to STEP VERDICT, phase FIX is entered and latch 62 is signalled. -/
  | verdictArrival (p : PartId) (tag : Word32) (reduced : BitVec 16)
  /-- VERDICT_TIMEOUT (R59): No verdict within VERDICT_TIMEOUT_MS: the partition moves to ABORTED. -/
  | verdictTimeout (p : PartId)
  /-- TWIN_ACK_TIMEOUT (R60): A Fix wait on the twin exceeds TWIN_ACK_TIMEOUT_MS: the partition moves to ABORTED. -/
  | twinAckTimeout (p : PartId)
  /-- CTX_START (R258): A CTX_START write starts a context in an empty slot, or is refused. -/
  | ctxStart (by_ : Requester) (c : CellId) (i : SlotId) (v : Word64)
  /-- CONTEXT_SWITCH (R260): A yield clears the context's state, abandons latches, clears the vat and chooses the next context. -/
  | contextSwitch (c : CellId)
  /-- CONTEXT_WAKE (R261): A dormant context's wake condition becomes true and the slot becomes READY. -/
  | contextWake (c : CellId) (i : SlotId)
  /-- CONTEXT_RUN_START (R262): A READY slot is chosen to run while no context runs and issues its first instruction. -/
  | contextRunStart (c : CellId)
  /-- GRACE_EXPIRY (R264): The bubble context has not yielded within GRACE_US and is reset as BUBBLE_OVERRUN. -/
  | graceExpiry (c : CellId)
  /-- PART_APPLY (R271): PART_CTL.APPLY makes pending partition masks and ranges active, or is refused. -/
  | partApply (by_ : Requester)
  /-- SLOT_CFG_WRITE (R259): Writes the cell-store split and grace; ignored while a slot is occupied. -/
  | slotCfgWrite (by_ : Requester) (c : CellId) (v : Word32)
  /-- ISA_CTL_WRITE (R213): Sets a slot's ISA level and features; accepted only while the slot is empty. -/
  | isaCtlWrite (by_ : Requester) (c : CellId) (i : SlotId) (v : Word64)
  /-- PLATE_CFG_WRITE (R133): Sets K_p for later mx instructions; accepted from the active context or with no context. -/
  | plateCfgWrite (by_ : Requester) (c : CellId) (v : Word32)
  /-- PLATE_DBG_EN_WRITE (R132): Enters debug mode if unlocked and the plate queue is empty, else DEBUG_LOCKED. -/
  | plateDbgEnWrite (by_ : Requester) (c : CellId) (v : Word32)
  /-- GRAIN_LANE_BASE_WRITE (R165): Writes a slot's LANE_BASE; accepted from the slot's context or with the slot empty. -/
  | grainLaneBaseWrite (by_ : Requester) (c : CellId) (i : SlotId) (v : Word32)
  /-- CTX_CTL_WRITE (R274): Writes wake and return controls of a slot under its access rule. -/
  | ctxCtlWrite (by_ : Requester) (c : CellId) (i : SlotId) (wakeTime : Bool) (v : Word64)
  /-- STEP_REG_WRITE (R62): Writes a STEP counter or seed register; accepted only in CLOSED. -/
  | stepRegWrite (by_ : Requester) (p : PartId) (r : Fin 5) (v : Word64)
  /-- CFG_APPLY (R535): Requests the explicit apply of a partition's SH group, held for the boundary outside CLOSED. -/
  | cfgApply (by_ : Requester) (p : PartId)
  /-- REGISTER_WRITE (R11): A write to a register with no row of its own, performed by its access types. -/
  | registerWrite (by_ : Requester) (offset : BitVec 28) (bytes8 : Bool) (v : Word64)
  /-- BAR0_ACCESS (R523): A host memory request to BAR0 reaches a register, or is ignored or unsupported. -/
  | bar0Access (req : HostReq) (offset : BitVec 28) (len : Nat) (v : Word64)
  /-- DRAM_BURST_SERVE (R280): The stack controller serves an admitted burst read or write, with ECC and CRC. -/
  | dramBurstServe (n : StackId) (b : BurstErrs) (tries : List WireTry)
  /-- ECC_WRITEBACK (R301): A queued write-back of a corrected burst is issued, unless dropped. -/
  | eccWriteback (n : StackId) (ch : ChanId)
  /-- REGULATOR_TICK (R294): Every 16 ns tick refills each bucket and admits waiting requests. -/
  | regulatorTick
  /-- PATROL_SCRUB (R305): The scrubber reads the next burst of a channel, writing back or poison-marking. -/
  | patrolScrub (n : StackId) (ch : ChanId) (flips : List (Fin 64 × BitVec 39)) (tries : List WireTry)
  /-- ECC_WINDOW_END (R304): A 24-hour correctable-error window of a channel ends. -/
  | eccWindowEnd (n : StackId) (ch : ChanId)
  /-- STACK_TEMP_READING (R307): Every 100 µs the stack's sensors are read and its thermal level updated. -/
  | stackTempReading (n : StackId) (sensors : Vector (BitVec 16) 4)
  /-- STACK_CONNECTION_FAIL (R279): A failed stack connection is replaced by a spare, or the channel is requested for map-out. -/
  | stackConnectionFail (n : StackId) (w : StackWire)
  /-- MAPOUT_REQ_WRITE (R285): Sets a channel's map-out request, applied at the next chip reset. -/
  | mapoutReqWrite (by_ : Requester) (n : StackId) (v : Word32)
  /-- PAGE_MARK (R289): MEM_PAGE_CMD mark sets PERSIST on a range of pages for a partition. -/
  | pageMark (by_ : Requester) (v : Word64)
  /-- PAGE_UNMARK (R289): MEM_PAGE_CMD unmark clears PERSIST on a range of pages. -/
  | pageUnmark (by_ : Requester) (v : Word64)
  /-- PAGE_CMD_DONE (R289): A page command completes and RESULT is set. -/
  | pageCmdDone
  /-- MEM_BRINGUP_WRITE (R311): Sets or clears BRINGUP; clearing returns every margin to zero. -/
  | memBringupWrite (by_ : Requester) (v : Word32)
  /-- MEM_MARGIN_WRITE (R311): Applies a strobe and reference margin to one channel while BRINGUP is 1. -/
  | memMarginWrite (by_ : Requester) (n : StackId) (v : Word32)
  /-- ST_PAT_GO (R565): Starts the pattern engine: save rows, write and read PRBS31, restore. -/
  | stPatGo (by_ : Requester) (v : Word64)
  /-- ST_PAT_DONE (R565): The pattern run ends and RESULT is set. -/
  | stPatDone
  /-- XD_BEAT_RECEIVE (R326): A crossing beat arrives: ECC decode, control field, credit return. -/
  | xdBeatReceive (j : JoinId) (dir : Fin 2) (beat : Beat)
  /-- XD_ERROR_WINDOW (R327): A 1,024 ns window of per-wire corrected counts ends; wires at FAIL_COUNT are declared failed. -/
  | xdErrorWindow (j : JoinId) (dir : Fin 2)
  /-- XD_CLOCK_LOSS (R327): An interposer group loses lock on its forwarded clock, declaring it failed. -/
  | xdClockLoss (j : JoinId) (dir : Fin 2) (group : BitVec 6) (alternate : Bool)
  /-- XD_STEER (R329): A received steer command schedules a wire or clock steer at time T. -/
  | xdSteer (j : JoinId) (dir : Fin 2) (group : BitVec 6) (wire : BitVec 7) (swt : BitVec 3)
  /-- XD_HALF (R330): A received half command schedules half width on one half at time T. -/
  | xdHalf (j : JoinId) (dir : Fin 2) (half : Fin 2) (swt : BitVec 3)
  /-- XD_DISABLE (R336): A received disable command schedules the join's disable in both directions. -/
  | xdDisable (j : JoinId) (swt : BitVec 3)
  /-- XD_SWITCH (R328): At switch time T the direction pauses and takes its new steering, clock or width. -/
  | xdSwitch (j : JoinId) (dir : Fin 2)
  /-- XD_FORCE_WRITE (R337): Forces a join into a degraded state, or is rejected if it would isolate a die. -/
  | xdForceWrite (by_ : Requester) (j : JoinId) (v : Word32)
  /-- FRAME_RECEIVE (R345): A frame arrives on a port: CRC, LSEQ and LACK checked, passed to routing or discarded. -/
  | frameReceive (k : PortId) (f : Frame)
  /-- LINK_REPLAY (R345): On LNAK the sender reserves hold entries and resends from LACK + 1; so it does from
  LSEQ 0 where its partner's island takes over (R372). -/
  | linkReplay (r : Replay)
  /-- LANE_ERROR_WINDOW (R344): A 1,024 ns symbol error window ends; lanes at LANE_FAIL are declared failed. -/
  | laneErrorWindow (k : PortId) (errors : LaneErrs)
  /-- ROUTER_SLOT (R357): Each slot a fabric die routes arrivals and hold-store frames, then injections. -/
  | routerSlot (d : FabId)
  /-- FRAME_INJECT (R359): A frame holding a source slot and credit enters the injection queue, stamped AGE_T. -/
  | frameInject (d : FabId)
  /-- STARVE_HOLDOFF_END (R360): 256 slots after the last STARVE received, the die may inject again. -/
  | starveHoldoffEnd (d : FabId)
  /-- STREAM_DELIVER (R354): Ejected frames of a stream are delivered in SEQ order, duplicates discarded. -/
  | streamDeliver (d : FabId) (i : Nat)
  /-- ROB_GAP (R354): A missing frame unseen AGE_MAX after a later one is skipped, with a LOST credit entry. -/
  | robGap (d : FabId) (i : Nat)
  /-- REQ_READ (R351): A REQ READ at its destination is checked and answered with an RSP DATA frame. -/
  | reqRead (d : FabId)
  /-- RSP_DATA (R365): Read data arrives in its reserved reply entry, releasing the REQ's slot. -/
  | rspData (d : FabId)
  /-- RSP_CREDIT (R364): Credit entries return credits, release source slots and complete transfers with status. -/
  | rspCredit (d : FabId)
  /-- PUT_WRITE (R351): A PUT WRITE at its destination is checked and written to memory. -/
  | putWrite (d : FabId)
  /-- DEAD_END_RETURN (R364): A frame returned DEAD_END releases its source slot and completes its transfer DEAD_END. -/
  | deadEndReturn (d : FabId)
  /-- SOURCE_SLOT_TIMEOUT (R364): A source slot held for 2 x AGE_MAX is released and its transfer completes POISON. -/
  | sourceSlotTimeout (d : FabId) (i : Nat)
  /-- CREDIT_FLUSH (R364): Queued credit entries are sent once 8 frames are covered or 1 µs has passed. -/
  | creditFlush (d : FabId)
  /-- MNT_MREQ (R366): A management request frame reaches the management core. -/
  | mntMreq
  /-- MNT_MRSP (R366): A management response frame arrives in its reserved entry. -/
  | mntMrsp
  /-- MNT_MPOST (R366): A posted management message reaches the management core. -/
  | mntMpost
  /-- GRANT_WRITE (R363): Writes a TX or RX grant; clearing VALID is refused with GRANT_BUSY while in use. -/
  | grantWrite (by_ : Requester) (d : FabId) (tx : Bool) (i : Fin 4096) (v : Word64)
  /-- FABRIC_CFG_WRITE (R389): Writes AGE_CFG, NODE_ID or TIME_CTL; accepted only while every port is down. -/
  | fabricCfgWrite (by_ : Requester) (r : FabricCfgReg) (v : Word32)
  /-- ROUTE_SLOT_WRITE (R390): Writes routing slot contents to both fabric dies, refused unless RETIRED. -/
  | routeSlotWrite (by_ : Requester) (i : Fin 2) (target : RouteTarget) (w : SlotWord)
  /-- ROUTE_SEAL (R369): Seals a RETIRED slot, making it VALID. -/
  | routeSeal (by_ : Requester) (i : Fin 2)
  /-- ROUTE_RETIRE (R369): Retires a DRAINED slot. -/
  | routeRetire (by_ : Requester) (i : Fin 2)
  /-- ROUTE_APPLY (R369): Makes the VALID slot ACTIVE and the former ACTIVE slot DRAINING. -/
  | routeApply (by_ : Requester) (i : Fin 2)
  /-- ROUTE_DRAIN_TIMER (R369): A DRAINING slot's timer of 2 x AGE_MAX expires and it becomes DRAINED. -/
  | routeDrainTimer (i : Fin 2)
  /-- DARKSLIDE_CLOSE (R372): On reset, unpowered core or no ACTIVE slot, the AUX islands take the ports and forward. -/
  | darkslideClose
  /-- DARKSLIDE_FORWARD (R373): A closed pair forwards an arriving frame out of its opposite port. -/
  | darkslideForward (k : PortId) (f : Frame)
  /-- DARKSLIDE_OPEN (R375): Each pair hands link state back to the core once reset ends and ports train. -/
  | darkslideOpen (pair : Fin 6)
  /-- BYPASS_FAIL (R377): A darkslide bypass fails its self-test and DARKSLIDE_REQ_N is driven low. -/
  | bypassFail (island : Fin 2)
  /-- PORT_TRAIN_STAGE (R378): A port completes a training stage and moves to the next, or is refused. -/
  | portTrainStage (k : PortId) (partner : PortPartner)
  /-- TIME_WORD (R382): A time word arrives in an IDLE slot and the offset to the partner is computed. -/
  | timeWord (k : PortId) (t1 t2 t3 t4 : Word64) (depth : BitVec 7) (partnerLocked : Bool)
  /-- TIME_WORD_INSERT (R382): A port with no IDLE slot for 1 µs inserts one to carry a time word. -/
  | timeWordInsert (k : PortId)
  /-- TIME_SLEW (R383): The counter adds or omits a tick to steer toward the parent. -/
  | timeSlew
  /-- TIME_PARENT_SELECT (R381): A package loses its parent and chooses another within 10 µs. -/
  | timeParentSelect
  /-- COLL_ARM (R395): COLL_CMD arm checks a descriptor and reserves credits and contexts. -/
  | collArm (by_ : Requester) (i : Fin 4096)
  /-- COLL_DISARM (R395): COLL_CMD disarm returns a descriptor to IDLE, refused while ACTIVE. -/
  | collDisarm (by_ : Requester) (i : Fin 4096)
  /-- COLL_ARRIVAL (R398): A cl instruction reaches the engine and is counted; the instance starts at ARRIVE_N. -/
  | collArrival (d : FabId)
  /-- COLL_READY (R399): A READY frame is received and checked; data may flow toward its sender. -/
  | collReady (d : FabId)
  /-- COLL_DATA_FRAME (R401): A collective data frame is reduced with the local contribution and forwarded or written. -/
  | collDataFrame (d : FabId)
  /-- COLL_TAG_FRAME (R412): A gather TAG frame is relayed and compared, raising STALE_SHARD on mismatch. -/
  | collTagFrame (d : FabId)
  /-- COLL_ARRIVE_RECORD (R404): A barrier ARRIVE record is received from a member. -/
  | collArriveRecord
  /-- COLL_INSTANCE_END (R400): An instance ends at a member, signalling every arrival's completion latch. -/
  | collInstanceEnd (i : Fin 4096)
  /-- SIDE_RECORD_SEND (R409): After the data phase and stop handover, a member builds and sends its side record. -/
  | sideRecordSend (p : PartId)
  /-- SIDE_RECORD_RECEIVE (R409): A side record is received; when all N are in, the Y-leg result is reduced. -/
  | sideRecordReceive
  /-- TABLE_BUILD_COMPLETE (R410): Every covered group's inactive version is built and BUILT is set. -/
  | tableBuildComplete (p : PartId)
  /-- XLEG_RECORD (R411): An X-leg record is received; when all are in, the verdict is delivered. -/
  | xlegRecord
  /-- COLL_PROGRESS_TIMEOUT (R414): An instance without progress for PROGRESS_TIMEOUT_MS ends with CL_TIMEOUT. -/
  | collProgressTimeout (i : Fin 4096)
  /-- COLLD_TAG_OUT_CLEAR (R412): Writing 1 to COLLD_STATUS TAG_OUT retires an outstanding gather tag. -/
  | colldTagOutClear (by_ : Requester) (i : Fin 4096)
  /-- TWIN_ARM (R438): TWIN CTL ARM checks the page list and exchanges HELLO with the twin. -/
  | twinArm (by_ : Requester) (p : PartId)
  /-- TWIN_RESTART (R457): Empties negatives and records, clears STREAMED and UNPROTECTED, state OFF. -/
  | twinRestart (by_ : Requester) (p : PartId)
  /-- TWIN_REFIX (R462): Marks the next step a refix of a held record, or refuses with TWIN_REFIX_BAD. -/
  | twinRefix (by_ : Requester) (p : PartId)
  /-- HELLO (R438): A HELLO message is received and pairing is checked. -/
  | hello (p : PartId)
  /-- PAGE_ACK (R443): The holder acknowledges verified slots; the owner marks pages ACKED and frees staging. -/
  | pageAck (p : PartId)
  /-- RESEND (R443): The holder asks for a page again after a digest mismatch or poison. -/
  | resend (p : PartId)
  /-- MANIFEST (R444): The holder checks the manifest digest and makes the negative COMPLETE. -/
  | manifest (p : PartId)
  /-- NEG_DONE (R444): The owner records the completed negative count, releasing R48 step 2. -/
  | negDone (p : PartId)
  /-- BODY_ACK (R450): The holder has verified the fixing-record body; the verdict may arrive. -/
  | bodyAck (p : PartId)
  /-- SEAL (R451): The holder writes the verdict into the record and seals it. -/
  | seal (p : PartId)
  /-- SEAL_ACK (R451): The owner receives the seal acknowledgement of R48 step 6. -/
  | sealAck (p : PartId)
  /-- PROBE (R456): A PROBE message is received from the twin. -/
  | probe (p : PartId)
  /-- PROBE_TIMER (R456): Every 100 µs while waiting on the twin, the owner sends PROBE. -/
  | probeTimer (p : PartId)
  /-- TWIN_PAGE_SEND (R442): The owner sends the next negative page and its claim under the link priorities. -/
  | twinPageSend (p : PartId)
  /-- TWIN_CLAIM (R443): A page claim arrives at the holder and is compared with the page's CRC-64. -/
  | twinClaim (p : PartId)
  /-- FIRST_TOUCH_COPY (R448): A page is copied into a free staging slot, becomes STAGED and the held write proceeds. -/
  | firstTouchCopy (p : PartId) (slot : Nat)
  /-- RESTORE_PAGES (R460): RESTORE_CMD pages copies and verifies a COMPLETE negative into the own listed pages. -/
  | restorePages (by_ : Requester) (p : PartId) (sel : Fin 2)
  /-- RESTORE_RECORD (R460): RESTORE_CMD record copies a fixing record to RESTORE_DEST. -/
  | restoreRecord (by_ : Requester) (p : PartId) (sel : Fin 2)
  /-- RESTORE_TABLES (R465): RESTORE_CMD tables copies the active mordant tables of every enabled group. -/
  | restoreTables (by_ : Requester) (p : PartId)
  /-- RESTORE_DONE (R460): A restore completes and RESULT is set. -/
  | restoreDone (p : PartId) (data : RestoreData)
  /-- SHEET_ARM (R429): Checks a sheet's page list and arms it, or fails it. -/
  | sheetArm (by_ : Requester) (p : PartId)
  /-- SHEET_CANCEL (R436): Ends an ARMED or STREAMING sheet with SHEET_ABORT. -/
  | sheetCancel (by_ : Requester) (p : PartId)
  /-- HSP_PIECE (R427): The HSP scheduler chooses and issues the next 4 KiB piece of a direction. -/
  | hspPiece (toHost : Bool)
  /-- HSP_READ_COMPLETION (R532): A host read completion arrives, or a failed one delivers poisoned words. -/
  | hspReadCompletion (ok : Bool) (data : List Byte)
  /-- HOST_REGION_WRITE (R531): Writes a host region; EN = 0 takes effect before the next piece. -/
  | hostRegionWrite (by_ : Requester) (i : Fin 4096) (cfg : Bool) (v : Word64)
  /-- DOORBELL (R526): A doorbell write signals its configured latch. -/
  | doorbell (i : Fin 256) (v : Word64)
  /-- DOORBELL_CFG_WRITE (R553): Writes a doorbell target, accepted only while disabled. -/
  | doorbellCfgWrite (by_ : Requester) (i : Fin 256) (v : Word32)
  /-- MBOX_GO (R527): The host posts a mailbox request. -/
  | mboxGo (request : List Byte)
  /-- MBOX_TAKE (R527): The management core takes the request, sets BUSY and clears GO. -/
  | mboxTake
  /-- GET_INFO (R528): Returns firmware versions, SVN_MIN, bank and SPDM readiness. -/
  | getInfo
  /-- LOG_READ (R528): Returns records of the AUX log from a SEQ. -/
  | logRead
  /-- FRU_READ (R528): Returns bytes of the FRU store. -/
  | fruRead
  /-- FRU_WRITE (R528): Writes the owner area of the FRU store, DENIED elsewhere. -/
  | fruWrite
  /-- FW_WRITE (R537): Writes image bytes into the inactive firmware bank. -/
  | fwWrite
  /-- FW_ACTIVATE (R537): Verifies the inactive bank and makes it active, optionally now and raising SVN_MIN. -/
  | fwActivate
  /-- ANCHOR_SET (R528): Sets or disables a trust anchor when every partition is CLOSED and every port down. -/
  | anchorSet
  /-- GET_NONCE (R566): DEBUG_TOKEN GET_NONCE returns a fresh nonce. -/
  | getNonce
  /-- DEBUG_UNLOCK (R566): DEBUG_TOKEN UNLOCK verifies a signed token and grants debug levels. -/
  | debugUnlock
  /-- DEBUG_LOCK (R566): DEBUG_TOKEN LOCK ends any unlock. -/
  | debugLock
  /-- DEBUG_UNLOCK_END (R567): Global time reaches ST_DEBUG_END and the unlock ends. -/
  | debugUnlockEnd
  /-- MBOX_REPLY (R527): The management core writes the reply, sets DONE and raises vector 1. -/
  | mboxReply
  /-- ERROR_RECORD_DELIVER (R529): FD1 assigns SEQ and writes a record to the host error ring and AUX log. -/
  | errorRecordDeliver
  /-- HCP_NOTIFY (R530): A context write raises MSI-X vector 8 + p. -/
  | hcpNotify (by_ : Requester) (p : PartId)
  /-- PCIE_PORT_RESET (R525): PERST_N, hot reset or link down resets one host port. -/
  | pciePortReset (hsp : Bool)
  /-- FUNCTION_LEVEL_RESET (R525): An FLR resets one host port without retraining. -/
  | functionLevelReset (hsp : Bool)
  /-- SPDM_GET_VERSION (R548): SPDM GET_VERSION request answered. -/
  | spdmGetVersion (req : List Byte)
  /-- SPDM_GET_CAPABILITIES (R548): SPDM GET_CAPABILITIES request answered. -/
  | spdmGetCapabilities (req : List Byte)
  /-- SPDM_NEGOTIATE_ALGORITHMS (R548): SPDM NEGOTIATE_ALGORITHMS request answered. -/
  | spdmNegotiateAlgorithms (req : List Byte)
  /-- SPDM_GET_DIGESTS (R548): SPDM GET_DIGESTS request answered. -/
  | spdmGetDigests (req : List Byte)
  /-- SPDM_GET_CERTIFICATE (R548): SPDM GET_CERTIFICATE returns the slot-0 chain. -/
  | spdmGetCertificate (req : List Byte)
  /-- SPDM_CHALLENGE (R548): SPDM CHALLENGE answered with an identity-key signature. -/
  | spdmChallenge (req : List Byte)
  /-- SPDM_GET_MEASUREMENTS (R549): SPDM GET_MEASUREMENTS returns the measurement blocks. -/
  | spdmGetMeasurements (req : List Byte)
  /-- TSB_READ (R539): A TSB read cycle is answered from the shadow words. -/
  | tsbRead (word : BitVec 10)
  /-- TSB_WRITE (R540): A TSB write cycle is captured and acted on, or ignored with TSB_ERRS. -/
  | tsbWrite (word : BitVec 10) (v : BitVec 16)
  /-- EMERG_W_WRITE (R544): A TSB write of EMERG_W sets the emergency power cap. -/
  | emergWWrite (v : BitVec 16)
  /-- TSB_SHADOW_REFRESH (R541): Every 100 µs the management core refreshes core-sourced TSB words. -/
  | tsbShadowRefresh
  /-- SMBUS_OFFSET_WRITE (R545): An SMBus write sets the FRU address, with optional data. -/
  | smbusOffsetWrite (w : SmbusWrite) (data : List Byte)
  /-- SMBUS_READ (R545): An SMBus read returns FRU bytes from the address. -/
  | smbusRead (r : SmbusRead)
  /-- FRU_STORE_COMMIT (R545): A write to the owner area is stored within 5 ms, NACKing meanwhile. -/
  | fruStoreCommit
  /-- MGMT_HEARTBEAT_MISS (R485): No heartbeat for 250 ms: the management core restarts, or a power cycle is requested. -/
  | mgmtHeartbeatMiss
  /-- MGMT_RESTART (R485): The management core restarts from ROM without touching core domains. -/
  | mgmtRestart
  /-- COLD_POWER_ON (R595): AUX and 12 V enter their limits and the cold start sequence begins. -/
  | coldPowerOn
  /-- STARTUP_PHASE_END (R551): A start-up phase completes and PHASE advances. -/
  | startupPhaseEnd
  /-- STACK_TRAINED (R552): Memory training finishes a stack, writing it zero if needed, and sets its bit. -/
  | stackTrained (n : StackId) (temp : BitVec 16)
  /-- INPUT_12V_FAULT (R593): 12 V out of range for over 2 µs removes core rails and starts a chip reset. -/
  | input12vFault
  /-- AUX_LOSS (R594): AUX below 2.9 V for over 1 µs resets everything. -/
  | auxLoss
  /-- WATCHDOG_SAMPLE (R475): Every 500 µs the watchdog declares engines without progress hung. -/
  | watchdogSample
  /-- WAIT_LIMIT (R476): An sy.wait lasting WAIT_LIMIT_MS resets its context. -/
  | waitLimit (at_ : At)
  /-- STOP_HOLD_EXPIRY (R480): STOP_HOLD_US after a fault stop, the management core starts a context reset. -/
  | stopHoldExpiry (at_ : At)
  /-- ABORT_HOLD_EXPIRY (R480): ABORT_HOLD_US after ABORTED, the management core starts a partition reset. -/
  | abortHoldExpiry (p : PartId)
  /-- RESET_CMD_CONTEXT (R491): Host starts a context reset of one slot. -/
  | resetCmdContext (by_ : Requester) (at_ : At)
  /-- RESET_CMD_ENGINE (R491): Host starts an engine reset of one cell engine. -/
  | resetCmdEngine (by_ : Requester) (c : CellId) (e : BitVec 4)
  /-- RESET_CMD_PARTITION (R491): Host starts a partition reset. -/
  | resetCmdPartition (by_ : Requester) (p : PartId)
  /-- RESET_CMD_CHIP (R491): Host starts a chip reset. -/
  | resetCmdChip (by_ : Requester)
  /-- RESET_CMD_POWER_CYCLE (R491): Host requests a power cycle. -/
  | resetCmdPowerCycle (by_ : Requester)
  /-- CONTEXT_RESET (R479): Cancels a context's work, abandons its latches and empties its slot. -/
  | contextReset (at_ : At)
  /-- ENGINE_RESET (R478): Resets one cell engine and both slots of its cell. -/
  | engineReset (c : CellId) (e : BitVec 4)
  /-- PARTITION_RESET (R270): Resets every cell, latch, STEP phase, regulator and descriptor of a partition. -/
  | partitionReset (p : PartId)
  /-- CHIP_RESET (R481): Resets every core domain through its phases to host-visible. -/
  | chipReset
  /-- CHIP_RESET_PHASE_END (R481): A chip reset phase completes and the next begins. -/
  | chipResetPhaseEnd
  /-- POWER_CYCLE_REQ (R482): The package asks the tray for a power cycle through ALERT bit 0. -/
  | powerCycleReq
  /-- RESET_DONE (R478): A reset completes within its bound and writes RESET_DONE. -/
  | resetDone (i : Nat)
  /-- RESET_ESCALATION (R483): A reset not complete at its bound starts the next level. -/
  | resetEscalation (i : Nat)
  /-- METER_ACTIVITY_REPORT (R496): Every 1 µs activity counters are reported and each die's power estimated. -/
  | meterActivityReport (d : DieId)
  /-- METER_CALIBRATION (R497): Every 10 ms estimates are compared with measured power and gains updated. -/
  | meterCalibration (inputMv : BitVec 16) (railMa : Vector (BitVec 32) 6)
  /-- METER_SIGNATURE_WINDOW (R499): Every 100 µs the signature is formed and the phase table updated. -/
  | meterSignatureWindow
  /-- CAP_LOOP (R503): Every 100 µs budgets are divided and operating points and stretches set. -/
  | capLoop (inputMv : BitVec 16)
  /-- POINT_CHANGE_DONE (R495): An operating-point change finishes its slew and clock switch. -/
  | pointChangeDone (d : DieId)
  /-- PWR_APPLY (R502): PWR_CTL APPLY makes pending cap and die settings active. -/
  | pwrApply (by_ : Requester)
  /-- PWR_EMERG_WRITE (R544): An HCP or management write sets the emergency cap. -/
  | pwrEmergWrite (by_ : Requester) (v : Word32)
  /-- DROOP_DETECT (R507): A supply monitor crosses DROOP_MV and the die's clocks stretch. -/
  | droopDetect (d : DieId) (mv : BitVec 8)
  /-- DROOP_RELEASE (R507): Monitors in range for 1 µs; the stretch releases in sixteenths. -/
  | droopRelease (d : DieId)
  /-- JUNCTION_READING (R508): Every 100 µs die junction sensors are read against TJ_LIMIT_C. -/
  | junctionReading (d : DieId) (tempC8 : Vector (BitVec 16) 16)
  /-- AGEING_READING (R511): Every 10 ms the ageing monitors' slack is read. -/
  | ageingReading (d : DieId) (slackPs : Vector (BitVec 16) 64)
  /-- AGEING_REPLAN (R512): Every 24 hours or at chip reset the point offsets are re-planned. -/
  | ageingReplan (d : DieId)
  /-- AGE_CFG_WRITE (R520): Writes the ageing slack target, only with every partition CLOSED. -/
  | ageCfgWrite (by_ : Requester) (v : Word32)
  /-- SELFTEST_SLICE_START (R562): A die starts a self-test slice in its window if power allows. -/
  | selftestSliceStart (item : TestItem)
  /-- SELFTEST_SLICE_END (R561): A slice ends and judges its item. -/
  | selftestSliceEnd (d : DieId) (errors : Nat) (eye : LaneEye)
  /-- SELFTEST_ROTATION (R558): A spare takes an item's traffic for testing, and returns it after a pass. -/
  | selftestRotation (item : TestItem)
  /-- SELFTEST_PASS_END (R563): A class pass ends and ST_LAST takes the time. -/
  | selftestPassEnd (k : Fin 4)
  /-- PIN_CHECK (R556): Continuous land check finds a signal land or land group failed. -/
  | pinCheck (r : PinReading) (row col : Byte)
  /-- SL_CTL_WRITE (R569): Enables the safelight if the SAFELIGHT level is unlocked. -/
  | slCtlWrite (by_ : Requester) (v : Word32)
  /-- TAP_IDCODE (R570): TAP instruction IDCODE. -/
  | tapIdcode
  /-- TAP_SAMPLE_PRELOAD (R570): TAP instruction SAMPLE/PRELOAD. -/
  | tapSamplePreload (data : List Bool)
  /-- TAP_EXTEST (R570): TAP instruction EXTEST, only with 12 V absent. -/
  | tapExtest
  /-- TAP_CLAMP (R570): TAP instruction CLAMP, only with 12 V absent. -/
  | tapClamp
  /-- TAP_HIGHZ (R570): TAP instruction HIGHZ, only with 12 V absent. -/
  | tapHighz
  /-- TAP_IJTAG (R571): TAP instruction IJTAG opens the IEEE 1687 network if unlocked. -/
  | tapIjtag
  /-- TAP_BYPASS (R570): TAP instruction BYPASS. -/
  | tapBypass
  /-- TAP_RESET (R570): TRST_N or AUX power-on resets the TAP to IDCODE. -/
  | tapReset
  /-- ILLEGAL_OPCODE (R176): A fetched word whose CLASS or OPCODE is not allocated at the context's ISA level, such as all zeros or all ones, takes ILLEGAL_OPCODE at Decode and starts a fault stop. -/
  | illegalOpcode (at_ : At) (word : Word64)
  /-- LANE_LOCK_LOSS (R345): A port loses lane lock, for example when its cable is pulled or its partner stops driving, and retrains from stored parameters with a PORT_RETRAIN record while its replay buffer re-enters arbitration. -/
  | laneLockLoss (k : PortId)
  /-- PCIE_LINK_UP (R529): After PERST_N deassertion or the end of a reset, a host port finishes link training and comes up, and error records made while the HCP was down are delivered from the AUX log. -/
  | pcieLinkUp (hsp : Bool)
  /-- HELLO_TIMEOUT (R438): A HELLO of TWIN ARM that is not answered within TWIN_ACK_TIMEOUT_MS ends the ARM in MISPAIRED with a TWIN_MISPAIRED record. -/
  | helloTimeout (p : PartId)
  /-- BYPASS_SELF_TEST_PASS (R605): Once AUX is within its limits, both darkslide bypasses pass their self-test and the package drives DARKSLIDE_REQ_N high, after which the tray may open its relay. -/
  | bypassSelfTestPass
  /-- REGISTER_RING_JOIN_FAIL (R25): A join of the register ring is disabled when two of its register wires fail, and register traffic to the dies beyond it takes the other direction of the ring. -/
  | registerRingJoinFail (x : RingFail)
  deriving DecidableEq, Repr

end Sys2Proof
end

