-- ==== Sys2Proof/Decode.lean ====
section
/-!
DEFINITION. The command a word spells by the bits of the opcode table, which gives no row any bits; and the instruction
word of the control cores (R175 to R178): its layout, the operand formats of Table 6-4, the instruction a word spells and
the word of an instruction.
-/
namespace Sys2Proof
open Sys2Proof.Machine

/-- No word of any length spells a command. -/
def decodeTableWord (_nbits _w : Nat) : Option Instr := none

/-! ### Operand formats (Table 6-4) -/

/-- Format S. -/
def FmtS.ofWord (w : Word64) : FmtS :=
  { sd := bfld w 43 5, sa := bfld w 38 5, sb := bfld w 33 5, sc := bfld w 28 5, pd := bfld w 25 3,
    rsv := bfld w 16 9, fn := bfld w 0 16 }
/-- Its operand bits. -/
def FmtS.bits (f : FmtS) : BitVec 48 := f.sd ++ f.sa ++ f.sb ++ f.sc ++ f.pd ++ f.rsv ++ f.fn

/-- Format SI. -/
def FmtSI.ofWord (w : Word64) : FmtSI :=
  { sd := bfld w 43 5, sa := bfld w 38 5, pd := bfld w 35 3, fn := bfld w 32 3, imm := bfld w 0 32 }
/-- Its operand bits. -/
def FmtSI.bits (f : FmtSI) : BitVec 48 := f.sd ++ f.sa ++ f.pd ++ f.fn ++ f.imm

/-- Format SB. -/
def FmtSB.ofWord (w : Word64) : FmtSB :=
  { sa := bfld w 43 5, rsv := bfld w 32 11, offset := bfld w 0 32 }
/-- Its operand bits. -/
def FmtSB.bits (f : FmtSB) : BitVec 48 := f.sa ++ f.rsv ++ f.offset

/-- Format V. -/
def FmtV.ofWord (w : Word64) : FmtV :=
  { d := bfld w 41 7, a := bfld w 34 7, b := bfld w 27 7, c := bfld w 20 7, rm := bfld w 18 2,
    fmt := bfld w 14 4, fn := bfld w 0 14 }
/-- Its operand bits. -/
def FmtV.bits (f : FmtV) : BitVec 48 := f.d ++ f.a ++ f.b ++ f.c ++ f.rm ++ f.fmt ++ f.fn

/-- Format VI. -/
def FmtVI.ofWord (w : Word64) : FmtVI :=
  { d := bfld w 41 7, a := bfld w 34 7, rm := bfld w 32 2, imm := bfld w 0 32 }
/-- Its operand bits. -/
def FmtVI.bits (f : FmtVI) : BitVec 48 := f.d ++ f.a ++ f.rm ++ f.imm

/-- Format M. -/
def FmtM.ofWord (w : Word64) : FmtM :=
  { ta := bfld w 44 4, tb := bfld w 40 4, base := bfld w 28 12, count := bfld w 15 13, epiv := bfld w 14 1,
    epi := bfld w 12 2, rm := bfld w 10 2, flags := bfld w 0 10 }
/-- Its operand bits. -/
def FmtM.bits (f : FmtM) : BitVec 48 := f.ta ++ f.tb ++ f.base ++ f.count ++ f.epiv ++ f.epi ++ f.rm ++ f.flags

/-- Format Q. -/
def FmtQ.ofWord (w : Word64) : FmtQ :=
  { q := bfld w 45 3, t := bfld w 41 4, latch := bfld w 35 6, len := bfld w 34 1, so := bfld w 29 5,
    sov := bfld w 28 1, fn := bfld w 0 28 }
/-- Its operand bits. -/
def FmtQ.bits (f : FmtQ) : BitVec 48 := f.q ++ f.t ++ f.latch ++ f.len ++ f.so ++ f.sov ++ f.fn

/-- Format Y. -/
def FmtY.ofWord (w : Word64) : FmtY :=
  { latch := bfld w 42 6, sa := bfld w 37 5, sd := bfld w 32 5, imm := bfld w 0 32 }
/-- Its operand bits. -/
def FmtY.bits (f : FmtY) : BitVec 48 := f.latch ++ f.sa ++ f.sd ++ f.imm

/-! ### The instruction word (Table 6-2) -/

/-- Where an instruction word of a format's operands and header goes. -/
def wordOf (p : Pred) (cls : BitVec 4) (op : Byte) (bits : BitVec 48) : Word64 :=
  cls ++ op ++ BitVec.ofBool p.neg ++ p.preg ++ bits

/-- CLASS. -/
def wordClass (w : Word64) : BitVec 4 := bfld w 60 4
/-- OPCODE. -/
def wordOp (w : Word64) : Byte := bfld w 52 8
/-- NEG and PREG. -/
def wordPred (w : Word64) : Pred := ⟨bit w 51, bfld w 48 3⟩

/-- The sc instruction of an opcode (chapter 7). -/
def decodeSc (a : At) (w : Word64) : Option Instr :=
  let p := wordPred w
  match (wordOp w).toNat with
  | 0x01 => some (.scAdd a p (.ofWord w))
  | 0x02 => some (.scSub a p (.ofWord w))
  | 0x03 => some (.scMul a p (.ofWord w))
  | 0x04 => some (.scMulhu a p (.ofWord w))
  | 0x05 => some (.scDiv a p (.ofWord w))
  | 0x06 => some (.scDivu a p (.ofWord w))
  | 0x07 => some (.scRem a p (.ofWord w))
  | 0x08 => some (.scRemu a p (.ofWord w))
  | 0x09 => some (.scAnd a p (.ofWord w))
  | 0x0A => some (.scOr a p (.ofWord w))
  | 0x0B => some (.scXor a p (.ofWord w))
  | 0x0C => some (.scShl a p (.ofWord w))
  | 0x0D => some (.scShr a p (.ofWord w))
  | 0x0E => some (.scSar a p (.ofWord w))
  | 0x0F => some (.scCmp a p (.ofWord w))
  | 0x10 => some (.scPop a p (.ofWord w))
  | 0x20 => some (.scAddi a p (.ofWord w))
  | 0x21 => some (.scAndi a p (.ofWord w))
  | 0x22 => some (.scOri a p (.ofWord w))
  | 0x23 => some (.scXori a p (.ofWord w))
  | 0x24 => some (.scCmpi a p (.ofWord w))
  | 0x25 => some (.scMovi a p (.ofWord w))
  | 0x26 => some (.scLdhi a p (.ofWord w))
  | 0x27 => some (.scShi a p (.ofWord w))
  | 0x30 => some (.scFadd a p (.ofWord w))
  | 0x31 => some (.scFsub a p (.ofWord w))
  | 0x32 => some (.scFmul a p (.ofWord w))
  | 0x33 => some (.scFfma a p (.ofWord w))
  | 0x34 => some (.scFdiv a p (.ofWord w))
  | 0x35 => some (.scFsqrt a p (.ofWord w))
  | 0x36 => some (.scFrcp a p (.ofWord w))
  | 0x37 => some (.scFtr a p (.ofWord w))
  | 0x38 => some (.scFcmp a p (.ofWord w))
  | 0x39 => some (.scFcvt a p (.ofWord w))
  | 0x40 => some (.scLd a p (.ofWord w))
  | 0x41 => some (.scSt a p (.ofWord w))
  | 0x42 => some (.scRdreg a p ⟨.ofWord w, false⟩)
  | 0x43 => some (.scWrreg a p (.ofWord w))
  | 0x50 => some (.scTld a p (.ofWord w))
  | 0x51 => some (.scTst a p (.ofWord w))
  | 0x52 => some (.scTset a p (.ofWord w))
  | 0x53 => some (.scTbase a p (.ofWord w))
  | 0x54 => some (.scQld a p (.ofWord w))
  | 0x55 => some (.scQst a p (.ofWord w))
  | 0x56 => some (.scQset a p (.ofWord w))
  | 0x57 => some (.scQaddr a p (.ofWord w))
  | 0x60 => some (.scBr a p (.ofWord w))
  | 0x61 => some (.scBri a p (.ofWord w))
  | 0x62 => some (.scCall a p (.ofWord w))
  | 0x70 => some (.scNop a p (.ofWord w))
  | 0x71 => some (.scExit a p (.ofWord w))
  | 0x72 => some (.scTime a p (.ofWord w))
  | 0x73 => some (.scId a p (.ofWord w))
  | _ => none

/-- The mx instruction of an opcode (chapter 7). -/
def decodeMx (a : At) (w : Word64) : Option Instr :=
  let p := wordPred w
  match (wordOp w).toNat with
  | 0x01 => some (.mxMma a p (.ofWord w))
  | 0x02 => some (.mxDrain a p (.ofWord w))
  | 0x03 => some (.mxVsave a p (.ofWord w))
  | 0x04 => some (.mxVload a p (.ofWord w))
  | 0x05 => some (.mxVfree a p (.ofWord w))
  | _ => none

/-- The vx instruction of an opcode (chapter 7). -/
def decodeVx (a : At) (w : Word64) : Option Instr :=
  let p := wordPred w
  match (wordOp w).toNat with
  | 0x01 => some (.vxAdd a p (.ofWord w))
  | 0x02 => some (.vxSub a p (.ofWord w))
  | 0x03 => some (.vxMul a p (.ofWord w))
  | 0x04 => some (.vxFma a p (.ofWord w))
  | 0x05 => some (.vxNeg a p (.ofWord w))
  | 0x06 => some (.vxAbs a p (.ofWord w))
  | 0x07 => some (.vxMin a p (.ofWord w))
  | 0x08 => some (.vxMax a p (.ofWord w))
  | 0x09 => some (.vxSel a p (.ofWord w))
  | 0x0A => some (.vxCmp a p (.ofWord w))
  | 0x0B => some (.vxCvt a p (.ofWord w))
  | 0x10 => some (.vxDiv a p (.ofWord w))
  | 0x11 => some (.vxSqrt a p (.ofWord w))
  | 0x12 => some (.vxRecip a p (.ofWord w))
  | 0x13 => some (.vxRsqrt a p (.ofWord w))
  | 0x18 => some (.vxExp a p (.ofWord w))
  | 0x19 => some (.vxExp2 a p (.ofWord w))
  | 0x1A => some (.vxLog a p (.ofWord w))
  | 0x1B => some (.vxLog2 a p (.ofWord w))
  | 0x1C => some (.vxTanh a p (.ofWord w))
  | 0x1D => some (.vxSigmoid a p (.ofWord w))
  | 0x1E => some (.vxErf a p (.ofWord w))
  | 0x20 => some (.vxSegred a p (.ofWord w))
  | 0x21 => some (.vxBcast a p (.ofWord w))
  | 0x28 => some (.vxGrain a p (.ofWord w))
  | 0x29 => some (.vxGskip a p (.ofWord w))
  | 0x30 => some (.vxSumm a p (.ofWord w))
  | 0x38 => some (.vxCrc64 a p (.ofWord w))
  | 0x39 => some (.vxSha256 a p (.ofWord w))
  | 0x40 => some (.vxOptstep a p (.ofWord w))
  | 0x41 => some (if bit w 0 then .vxRmodeEnter a p (.ofWord w) else .vxRmodeLeave a p (.ofWord w))
  | 0x81 => some (.vxAddi a p (.ofWord w))
  | 0x82 => some (.vxSubi a p (.ofWord w))
  | 0x83 => some (.vxMuli a p (.ofWord w))
  | 0x84 => some (.vxFmai a p (.ofWord w))
  | 0x87 => some (.vxMini a p (.ofWord w))
  | 0x88 => some (.vxMaxi a p (.ofWord w))
  | _ => none

/-- The dm instruction of an opcode (chapter 7). -/
def decodeDm (a : At) (w : Word64) : Option Instr :=
  let p := wordPred w
  match (wordOp w).toNat with
  | 0x01 => some (.dmGet a p (.ofWord w))
  | 0x02 => some (.dmPut a p (.ofWord w))
  | 0x03 => some (.dmCopy a p (.ofWord w))
  | _ => none

/-- The sy instruction of an opcode (chapter 7). -/
def decodeSy (a : At) (w : Word64) : Option Instr :=
  let p := wordPred w
  match (wordOp w).toNat with
  | 0x01 => some (.syInit a p (.ofWord w))
  | 0x02 => some (.sySignal a p (.ofWord w))
  | 0x03 => some (.syWait a p (.ofWord w))
  | 0x04 => some (.syPoll a p (.ofWord w))
  | 0x05 => some (.syFence a p (.ofWord w))
  | 0x06 => some (.syYield a p (.ofWord w))
  | 0x07 => some (.syRsignal a p (.ofWord w))
  | _ => none

/-- The cl instruction of an opcode (chapter 7). -/
def decodeCl (a : At) (w : Word64) : Option Instr :=
  let p := wordPred w
  match (wordOp w).toNat with
  | 0x01 => some (.clAg a p (.ofWord w))
  | 0x02 => some (.clRs a p (.ofWord w))
  | 0x03 => some (.clAr a p (.ofWord w))
  | 0x04 => some (.clA2a a p (.ofWord w))
  | 0x05 => some (.clBcast a p (.ofWord w))
  | 0x06 => some (.clBar a p (.ofWord w))
  | 0x07 => some (.clUntag a p (.ofWord w))
  | _ => none

/-- The st instruction of an opcode (chapter 7). -/
def decodeSt (a : At) (w : Word64) : Option Instr :=
  let p := wordPred w
  match (wordOp w).toNat with
  | 0x01 => some (.stOpen a p (.ofWord w))
  | 0x02 => some (.stStop a p (.ofWord w))
  | 0x03 => some (.stFix a p (.ofWord w))
  | 0x04 => some (.stSeed a p (.ofWord w))
  | _ => none

/-- The tr instruction of an opcode (chapter 7). -/
def decodeTr (a : At) (w : Word64) : Option Instr :=
  let p := wordPred w
  match (wordOp w).toNat with
  | 0x01 => some (.trMark a p (.ofWord w))
  | 0x02 => some (.trVal a p (.ofWord w))
  | 0x03 => some (.trCtr a p (.ofWord w))
  | _ => none

/-- The instruction a word spells for a context (R176); none where its class or opcode is not allocated. A register read
arrives whole. -/
def decodeWord (a : At) (w : Word64) : Option Instr :=
  match (wordClass w).toNat with
  | 1 => decodeSc a w
  | 2 => decodeMx a w
  | 3 => decodeVx a w
  | 4 => decodeDm a w
  | 5 => decodeSy a w
  | 6 => decodeCl a w
  | 7 => decodeSt a w
  | 8 => decodeTr a w
  | _ => none

/-- The word of an instruction; none for a command that is no instruction, or whose operand names the other vx.rmode. -/
def encodeWord : Instr → Option Word64
  | .scAdd _ p f => some (wordOf p 1 0x01 f.bits)
  | .scSub _ p f => some (wordOf p 1 0x02 f.bits)
  | .scMul _ p f => some (wordOf p 1 0x03 f.bits)
  | .scMulhu _ p f => some (wordOf p 1 0x04 f.bits)
  | .scDiv _ p f => some (wordOf p 1 0x05 f.bits)
  | .scDivu _ p f => some (wordOf p 1 0x06 f.bits)
  | .scRem _ p f => some (wordOf p 1 0x07 f.bits)
  | .scRemu _ p f => some (wordOf p 1 0x08 f.bits)
  | .scAnd _ p f => some (wordOf p 1 0x09 f.bits)
  | .scOr _ p f => some (wordOf p 1 0x0A f.bits)
  | .scXor _ p f => some (wordOf p 1 0x0B f.bits)
  | .scShl _ p f => some (wordOf p 1 0x0C f.bits)
  | .scShr _ p f => some (wordOf p 1 0x0D f.bits)
  | .scSar _ p f => some (wordOf p 1 0x0E f.bits)
  | .scCmp _ p f => some (wordOf p 1 0x0F f.bits)
  | .scPop _ p f => some (wordOf p 1 0x10 f.bits)
  | .scAddi _ p f => some (wordOf p 1 0x20 f.bits)
  | .scAndi _ p f => some (wordOf p 1 0x21 f.bits)
  | .scOri _ p f => some (wordOf p 1 0x22 f.bits)
  | .scXori _ p f => some (wordOf p 1 0x23 f.bits)
  | .scCmpi _ p f => some (wordOf p 1 0x24 f.bits)
  | .scMovi _ p f => some (wordOf p 1 0x25 f.bits)
  | .scLdhi _ p f => some (wordOf p 1 0x26 f.bits)
  | .scShi _ p f => some (wordOf p 1 0x27 f.bits)
  | .scFadd _ p f => some (wordOf p 1 0x30 f.bits)
  | .scFsub _ p f => some (wordOf p 1 0x31 f.bits)
  | .scFmul _ p f => some (wordOf p 1 0x32 f.bits)
  | .scFfma _ p f => some (wordOf p 1 0x33 f.bits)
  | .scFdiv _ p f => some (wordOf p 1 0x34 f.bits)
  | .scFsqrt _ p f => some (wordOf p 1 0x35 f.bits)
  | .scFrcp _ p f => some (wordOf p 1 0x36 f.bits)
  | .scFtr _ p f => some (wordOf p 1 0x37 f.bits)
  | .scFcmp _ p f => some (wordOf p 1 0x38 f.bits)
  | .scFcvt _ p f => some (wordOf p 1 0x39 f.bits)
  | .scLd _ p f => some (wordOf p 1 0x40 f.bits)
  | .scSt _ p f => some (wordOf p 1 0x41 f.bits)
  | .scRdreg _ p f => some (wordOf p 1 0x42 f.form.bits)
  | .scWrreg _ p f => some (wordOf p 1 0x43 f.bits)
  | .scTld _ p f => some (wordOf p 1 0x50 f.bits)
  | .scTst _ p f => some (wordOf p 1 0x51 f.bits)
  | .scTset _ p f => some (wordOf p 1 0x52 f.bits)
  | .scTbase _ p f => some (wordOf p 1 0x53 f.bits)
  | .scQld _ p f => some (wordOf p 1 0x54 f.bits)
  | .scQst _ p f => some (wordOf p 1 0x55 f.bits)
  | .scQset _ p f => some (wordOf p 1 0x56 f.bits)
  | .scQaddr _ p f => some (wordOf p 1 0x57 f.bits)
  | .scBr _ p f => some (wordOf p 1 0x60 f.bits)
  | .scBri _ p f => some (wordOf p 1 0x61 f.bits)
  | .scCall _ p f => some (wordOf p 1 0x62 f.bits)
  | .scNop _ p f => some (wordOf p 1 0x70 f.bits)
  | .scExit _ p f => some (wordOf p 1 0x71 f.bits)
  | .scTime _ p f => some (wordOf p 1 0x72 f.bits)
  | .scId _ p f => some (wordOf p 1 0x73 f.bits)
  | .mxMma _ p f => some (wordOf p 2 0x01 f.bits)
  | .mxDrain _ p f => some (wordOf p 2 0x02 f.bits)
  | .mxVsave _ p f => some (wordOf p 2 0x03 f.bits)
  | .mxVload _ p f => some (wordOf p 2 0x04 f.bits)
  | .mxVfree _ p f => some (wordOf p 2 0x05 f.bits)
  | .vxAdd _ p f => some (wordOf p 3 0x01 f.bits)
  | .vxSub _ p f => some (wordOf p 3 0x02 f.bits)
  | .vxMul _ p f => some (wordOf p 3 0x03 f.bits)
  | .vxFma _ p f => some (wordOf p 3 0x04 f.bits)
  | .vxNeg _ p f => some (wordOf p 3 0x05 f.bits)
  | .vxAbs _ p f => some (wordOf p 3 0x06 f.bits)
  | .vxMin _ p f => some (wordOf p 3 0x07 f.bits)
  | .vxMax _ p f => some (wordOf p 3 0x08 f.bits)
  | .vxSel _ p f => some (wordOf p 3 0x09 f.bits)
  | .vxCmp _ p f => some (wordOf p 3 0x0A f.bits)
  | .vxCvt _ p f => some (wordOf p 3 0x0B f.bits)
  | .vxDiv _ p f => some (wordOf p 3 0x10 f.bits)
  | .vxSqrt _ p f => some (wordOf p 3 0x11 f.bits)
  | .vxRecip _ p f => some (wordOf p 3 0x12 f.bits)
  | .vxRsqrt _ p f => some (wordOf p 3 0x13 f.bits)
  | .vxExp _ p f => some (wordOf p 3 0x18 f.bits)
  | .vxExp2 _ p f => some (wordOf p 3 0x19 f.bits)
  | .vxLog _ p f => some (wordOf p 3 0x1A f.bits)
  | .vxLog2 _ p f => some (wordOf p 3 0x1B f.bits)
  | .vxTanh _ p f => some (wordOf p 3 0x1C f.bits)
  | .vxSigmoid _ p f => some (wordOf p 3 0x1D f.bits)
  | .vxErf _ p f => some (wordOf p 3 0x1E f.bits)
  | .vxSegred _ p f => some (wordOf p 3 0x20 f.bits)
  | .vxBcast _ p f => some (wordOf p 3 0x21 f.bits)
  | .vxGrain _ p f => some (wordOf p 3 0x28 f.bits)
  | .vxGskip _ p f => some (wordOf p 3 0x29 f.bits)
  | .vxSumm _ p f => some (wordOf p 3 0x30 f.bits)
  | .vxCrc64 _ p f => some (wordOf p 3 0x38 f.bits)
  | .vxSha256 _ p f => some (wordOf p 3 0x39 f.bits)
  | .vxOptstep _ p f => some (wordOf p 3 0x40 f.bits)
  | .vxRmodeEnter _ p f => if bit f.imm 0 then some (wordOf p 3 0x41 f.bits) else none
  | .vxRmodeLeave _ p f => if bit f.imm 0 then none else some (wordOf p 3 0x41 f.bits)
  | .vxAddi _ p f => some (wordOf p 3 0x81 f.bits)
  | .vxSubi _ p f => some (wordOf p 3 0x82 f.bits)
  | .vxMuli _ p f => some (wordOf p 3 0x83 f.bits)
  | .vxFmai _ p f => some (wordOf p 3 0x84 f.bits)
  | .vxMini _ p f => some (wordOf p 3 0x87 f.bits)
  | .vxMaxi _ p f => some (wordOf p 3 0x88 f.bits)
  | .dmGet _ p f => some (wordOf p 4 0x01 f.bits)
  | .dmPut _ p f => some (wordOf p 4 0x02 f.bits)
  | .dmCopy _ p f => some (wordOf p 4 0x03 f.bits)
  | .clAg _ p f => some (wordOf p 6 0x01 f.bits)
  | .clRs _ p f => some (wordOf p 6 0x02 f.bits)
  | .clAr _ p f => some (wordOf p 6 0x03 f.bits)
  | .clA2a _ p f => some (wordOf p 6 0x04 f.bits)
  | .clBcast _ p f => some (wordOf p 6 0x05 f.bits)
  | .clBar _ p f => some (wordOf p 6 0x06 f.bits)
  | .clUntag _ p f => some (wordOf p 6 0x07 f.bits)
  | .syInit _ p f => some (wordOf p 5 0x01 f.bits)
  | .sySignal _ p f => some (wordOf p 5 0x02 f.bits)
  | .syWait _ p f => some (wordOf p 5 0x03 f.bits)
  | .syPoll _ p f => some (wordOf p 5 0x04 f.bits)
  | .syFence _ p f => some (wordOf p 5 0x05 f.bits)
  | .syYield _ p f => some (wordOf p 5 0x06 f.bits)
  | .syRsignal _ p f => some (wordOf p 5 0x07 f.bits)
  | .stOpen _ p f => some (wordOf p 7 0x01 f.bits)
  | .stStop _ p f => some (wordOf p 7 0x02 f.bits)
  | .stFix _ p f => some (wordOf p 7 0x03 f.bits)
  | .stSeed _ p f => some (wordOf p 7 0x04 f.bits)
  | .trMark _ p f => some (wordOf p 8 0x01 f.bits)
  | .trVal _ p f => some (wordOf p 8 0x02 f.bits)
  | .trCtr _ p f => some (wordOf p 8 0x03 f.bits)
  | _ => none

end Sys2Proof
end

