-- ==== Sys2Proof/Machine/Digest.lean ====
section
/-!
DEFINITION. The digests of the package: the burst CRC of R302, the CRC-32 of frames and records (R346), CRC-64 and
SHA-256 (R453, R454).
-/
namespace Sys2Proof.Machine

/-- One bit of a CRC taken most significant bit first. -/
def crcMsbBit {n : Nat} (poly : BitVec n) (crc : BitVec n) (b : Bool) : BitVec n :=
  let top := crc.getLsbD (n - 1)
  if top != b then (crc <<< 1) ^^^ poly else crc <<< 1

/-- The bits of a byte, most significant first. -/
def msbBits (b : Byte) : List Bool := [7, 6, 5, 4, 3, 2, 1, 0].map (bit b ·)

/-- CRC-16 of R302 over a bit stream. -/
def crc16 (bits : List Bool) : BitVec 16 := bits.foldl (crcMsbBit 0x1021) 0xFFFF

/-- CRC-64/ECMA-182 (R453), continued from a value: polynomial 0x42F0_E1EB_A9EA_3693, most significant bit first. -/
def crc64From (init : Word64) (bytes : List Byte) : Word64 :=
  bytes.foldl (fun c b => (msbBits b).foldl (crcMsbBit 0x42F0E1EBA9EA3693) c) init

/-- CRC-64 of a byte string (R453: initial value zero). -/
def crc64 (bytes : List Byte) : Word64 := crc64From 0 bytes

/-- One bit of the reflected CRC-32. -/
def crc32Bit (c : Word32) : Word32 := if bit c 0 then (c >>> 1) ^^^ 0xEDB88320 else c >>> 1

/-- CRC-32 of IEEE 802.3 (R346). -/
def crc32 (bytes : List Byte) : Word32 :=
  ~~~(bytes.foldl
    (fun c b => crc32Bit (crc32Bit (crc32Bit (crc32Bit (crc32Bit (crc32Bit (crc32Bit (crc32Bit
      (c ^^^ b.zeroExtend 32))))))))) 0xFFFFFFFF)

/-! ### SHA-256 (FIPS 180-4) -/

/-- Round constants. -/
def shaK : List Word32 :=
  [0x428a2f98, 0x71374491, 0xb5c0fbcf, 0xe9b5dba5, 0x3956c25b, 0x59f111f1, 0x923f82a4, 0xab1c5ed5] ++
  [0xd807aa98, 0x12835b01, 0x243185be, 0x550c7dc3, 0x72be5d74, 0x80deb1fe, 0x9bdc06a7, 0xc19bf174] ++
  [0xe49b69c1, 0xefbe4786, 0x0fc19dc6, 0x240ca1cc, 0x2de92c6f, 0x4a7484aa, 0x5cb0a9dc, 0x76f988da] ++
  [0x983e5152, 0xa831c66d, 0xb00327c8, 0xbf597fc7, 0xc6e00bf3, 0xd5a79147, 0x06ca6351, 0x14292967] ++
  [0x27b70a85, 0x2e1b2138, 0x4d2c6dfc, 0x53380d13, 0x650a7354, 0x766a0abb, 0x81c2c92e, 0x92722c85] ++
  [0xa2bfe8a1, 0xa81a664b, 0xc24b8b70, 0xc76c51a3, 0xd192e819, 0xd6990624, 0xf40e3585, 0x106aa070] ++
  [0x19a4c116, 0x1e376c08, 0x2748774c, 0x34b0bcb5, 0x391c0cb3, 0x4ed8aa4a, 0x5b9cca4f, 0x682e6ff3] ++
  [0x748f82ee, 0x78a5636f, 0x84c87814, 0x8cc70208, 0x90befffa, 0xa4506ceb, 0xbef9a3f7, 0xc67178f2]

/-- The initial hash. -/
def shaInit : List Word32 :=
  [0x6a09e667, 0xbb67ae85, 0x3c6ef372, 0xa54ff53a, 0x510e527f, 0x9b05688c, 0x1f83d9ab, 0x5be0cd19]

/-- A big-endian word from four bytes. -/
def beWord (a b c d : Byte) : Word32 := a ++ b ++ c ++ d

/-- The big-endian words of a byte list. -/
def beWords : List Byte → List Word32
  | a :: b :: c :: d :: rest => beWord a b c d :: beWords rest
  | _ => []

/-- The big-endian bytes of a word. -/
def beBytes (w : Word32) : List Byte := [bfld w 24 8, bfld w 16 8, bfld w 8 8, bfld w 0 8]

/-- Extend the schedule, newest word first. -/
def shaExtend : Nat → List Word32 → List Word32
  | 0, w => w
  | n + 1, w =>
    let g := fun i => w.getD i 0
    let s0 := (g 14).rotateRight 7 ^^^ (g 14).rotateRight 18 ^^^ (g 14) >>> 3
    let s1 := (g 1).rotateRight 17 ^^^ (g 1).rotateRight 19 ^^^ (g 1) >>> 10
    shaExtend n ((g 15 + s0 + g 6 + s1) :: w)

/-- One round on (a, b, c, d, e, f, g, h). -/
def shaRound (v : List Word32) (kw : Word32) : List Word32 :=
  match v with
  | [a, b, c, d, e, f, g, h] =>
    let s1 := e.rotateRight 6 ^^^ e.rotateRight 11 ^^^ e.rotateRight 25
    let ch := (e &&& f) ^^^ (~~~e &&& g)
    let t1 := h + s1 + ch + kw
    let s0 := a.rotateRight 2 ^^^ a.rotateRight 13 ^^^ a.rotateRight 22
    let maj := (a &&& b) ^^^ (a &&& c) ^^^ (b &&& c)
    [t1 + (s0 + maj), a, b, c, d + t1, e, f, g]
  | l => l

/-- One 64-byte block. -/
def shaBlock (h : List Word32) (block : List Byte) : List Word32 :=
  let w := (shaExtend 48 (beWords block).reverse).reverse
  let r := (List.zipWith (· + ·) shaK w).foldl shaRound h
  List.zipWith (· + ·) h r

/-- Successive blocks; `n` blocks are taken. -/
def shaBlocks : Nat → List Word32 → List Byte → List Word32
  | 0, h, _ => h
  | n + 1, h, bytes => shaBlocks n (shaBlock h (bytes.take 64)) (bytes.drop 64)

/-- The standard padding for a message of `len` bytes. -/
def shaPad (len : Nat) : List Byte :=
  let z := (119 - len % 64) % 64
  (0x80 : Byte) :: (List.replicate z 0 ++ (leBytes 8 (8 * len)).reverse)

/-- SHA-256 of a byte string, in the standard's byte order (R454). -/
def sha256 (bytes : List Byte) : List Byte :=
  let m := bytes ++ shaPad bytes.length
  (shaBlocks (m.length / 64) shaInit m).flatMap beBytes

end Sys2Proof.Machine
end

