-- ==== Sys2Proof/Machine/Numeric.lean ====
section
/-!
DEFINITION. The numeric formats of chapter 3 and their arithmetic. A value is held exactly, as a signed multiple of
a power of two, an infinity or a NaN; every operation forms the exact result and a rounding narrows it once
(R67 to R86). Quotients and roots carry a sticky last bit that marks a discarded nonzero part.
-/
namespace Sys2Proof.Machine

/-- An exact value: NaN, a signed infinity, or (−1)^neg · m · 2^e; a zero keeps its sign. -/
inductive FpNum where
  | nan
  | inf (neg : Bool)
  | fin (neg : Bool) (m : Nat) (e : Int)
  deriving DecidableEq, Repr

/-- A binary format of the IEEE 754 kind (R67): exponent and fraction widths. -/
structure Flt where
  eb : Nat
  fb : Nat
  deriving DecidableEq, Repr

/-- F32. -/
def F32 : Flt := ⟨8, 23⟩
/-- H16. -/
def H16 : Flt := ⟨5, 10⟩
/-- W16. -/
def W16 : Flt := ⟨8, 7⟩
/-- A22, the nodes of the in-plate tree. -/
def A22 : Flt := ⟨8, 13⟩
/-- M40, with its two planes taken as one 40-bit code (R81). -/
def M40 : Flt := ⟨8, 31⟩

/-- A rounding mode (Table 3-3); SR carries its grain bits (R85). -/
inductive Round where
  | rne
  | rtz
  | sr (g : BitVec 16)
  deriving DecidableEq, Repr

/-- Exponent bias. -/
def Flt.bias (f : Flt) : Int := 2 ^ (f.eb - 1) - 1

/-- Whether the discarded `rem` of `2^shift` moves the magnitude one unit up. -/
def roundsUp (rm : Round) (odd : Bool) (rem shift : Nat) : Bool :=
  match rm with
  | .rne => decide (2 ^ shift < 2 * rem) || (decide (2 * rem = 2 ^ shift) && odd)
  | .rtz => false
  | .sr g => decide (g.toNat < (rem * 65536) >>> shift)

/-- A nonnegative `m · 2^e` as a multiple of `2^q`, rounded. -/
def roundAt (rm : Round) (m : Nat) (e q : Int) : Nat :=
  if q ≤ e then m <<< (e - q).toNat
  else
    let sh := (q - e).toNat
    let sig := m >>> sh
    if roundsUp rm (sig % 2 == 1) (m % 2 ^ sh) sh then sig + 1 else sig

/-- The magnitude code of a nonzero `m · 2^e` in a format with `fb` fraction bits and least exponent `emin`, with no
upper limit: exponent steps above it continue the code. -/
def magCode (rm : Round) (fb : Nat) (emin : Int) (m : Nat) (e : Int) : Nat :=
  let top := max ((m.log2 : Int) + e) emin
  (top - emin).toNat * 2 ^ fb + roundAt rm m e (top - fb)

/-- The code of infinity in a format. -/
def Flt.infCode (f : Flt) : Nat := (2 ^ f.eb - 1) * 2 ^ f.fb

/-- The canonical NaN (Table 3-2). -/
def Flt.nanCode (f : Flt) : Nat := f.infCode + 2 ^ (f.fb - 1)

/-- A sign bit above the magnitude code. -/
def Flt.signed (f : Flt) (neg : Bool) (mag : Nat) : Nat := bnat neg * 2 ^ (f.eb + f.fb) + mag

/-- Encode a value in a format, rounding once (R84, R85; overflow by Table 3-4). The M40 canonical NaN has extension
0x00, which `nanCode` gives. -/
def Flt.enc (f : Flt) (rm : Round) : FpNum → Nat
  | .nan => f.nanCode
  | .inf neg => f.signed neg f.infCode
  | .fin neg m e =>
    if m = 0 then f.signed neg 0
    else
      let c := magCode rm f.fb (1 - f.bias) m e
      if c < f.infCode then f.signed neg c
      else f.signed neg (match rm with | .rtz => f.infCode - 1 | _ => f.infCode)

/-- Decode a code of a format. -/
def Flt.dec (f : Flt) (code : Nat) : FpNum :=
  let neg := (code >>> (f.eb + f.fb)) % 2 == 1
  let ex := (code >>> f.fb) % 2 ^ f.eb
  let fr := code % 2 ^ f.fb
  if ex = 2 ^ f.eb - 1 then (if fr = 0 then .inf neg else .nan)
  else if ex = 0 then .fin neg fr (1 - f.bias - f.fb)
  else .fin neg (2 ^ f.fb + fr) ((ex : Int) - f.bias - f.fb)

/-- Round to a format and keep the value. -/
def Flt.rnd (f : Flt) (x : FpNum) : FpNum := f.dec (f.enc .rne x)

/-- The signed integer `±m`. -/
def sgn (neg : Bool) (m : Nat) : Int := if neg then -(m : Int) else (m : Int)

namespace FpNum

/-- Positive zero. -/
def zero : FpNum := .fin false 0 0

/-- Negation; a NaN stays. -/
def neg : FpNum → FpNum
  | .nan => .nan
  | .inf n => .inf (!n)
  | .fin n m e => .fin (!n) m e

/-- Absolute value. -/
def abs : FpNum → FpNum
  | .nan => .nan
  | .inf _ => .inf false
  | .fin _ m e => .fin false m e

/-- The exact sum; an exact zero sum is +0 unless both terms are −0 (IEEE 754, RNE). -/
def add : FpNum → FpNum → FpNum
  | .nan, _ => .nan
  | _, .nan => .nan
  | .inf a, .inf b => if a = b then .inf a else .nan
  | .inf a, .fin .. => .inf a
  | .fin .., .inf b => .inf b
  | .fin na ma ea, .fin nb mb eb =>
    let e := min ea eb
    let t := sgn na (ma <<< (ea - e).toNat) + sgn nb (mb <<< (eb - e).toNat)
    if t = 0 then .fin (na && nb) 0 0 else .fin (decide (t < 0)) t.natAbs e

/-- The exact product. -/
def mul : FpNum → FpNum → FpNum
  | .nan, _ => .nan
  | _, .nan => .nan
  | .inf a, .inf b => .inf (a != b)
  | .inf a, .fin b m _ => if m = 0 then .nan else .inf (a != b)
  | .fin a m _, .inf b => if m = 0 then .nan else .inf (a != b)
  | .fin na ma ea, .fin nb mb eb => .fin (na != nb) (ma * mb) (ea + eb)

/-- Multiply by a power of two. -/
def scale (k : Int) : FpNum → FpNum
  | .fin n m e => .fin n m (e + k)
  | x => x

/-- A quotient of naturals times 2^e with a sticky last bit; 64 quotient bits at least. -/
def ratio (neg : Bool) (num den : Nat) (e : Int) : FpNum :=
  let sh := den.log2 + 66 - num.log2
  let n := num <<< sh
  .fin neg (2 * (n / den) + bnat (n % den != 0)) (e - sh - 1)

/-- The quotient. -/
def div : FpNum → FpNum → FpNum
  | .nan, _ => .nan
  | _, .nan => .nan
  | .inf _, .inf _ => .nan
  | .inf a, .fin b _ _ => .inf (a != b)
  | .fin a _ _, .inf b => .fin (a != b) 0 0
  | .fin na ma ea, .fin nb mb eb =>
    if mb = 0 then (if ma = 0 then .nan else .inf (na != nb))
    else if ma = 0 then .fin (na != nb) 0 0
    else ratio (na != nb) ma mb (ea - eb)

end FpNum

/-- The integer square root, bit by bit from bit `k`. -/
def isqrtFrom : Nat → Nat → Nat → Nat
  | 0, n, r => if (r + 1) * (r + 1) ≤ n then r + 1 else r
  | k + 1, n, r =>
    let r' := r + 2 ^ (k + 1)
    isqrtFrom k n (if r' * r' ≤ n then r' else r)

/-- The integer square root. -/
def isqrt (n : Nat) : Nat := isqrtFrom (n.log2 / 2 + 1) n 0

namespace FpNum

/-- The square root: of −0 is −0, of a negative number NaN (R142). -/
def sqrt : FpNum → FpNum
  | .nan => .nan
  | .inf n => if n then .nan else .inf false
  | .fin n m e =>
    if m = 0 then .fin n 0 0
    else if n then .nan
    else
      let odd := (e % 2).toNat
      let w := m <<< (128 + odd)
      let r := isqrt w
      .fin false (2 * r + bnat (r * r != w)) ((e - odd) / 2 - 64 - 1)

/-- The reciprocal square root (R142). -/
def rsqrt : FpNum → FpNum
  | .nan => .nan
  | .inf n => if n then .nan else .fin false 0 0
  | .fin n m e =>
    if m = 0 then .inf n
    else if n then .nan
    else
      let odd := (e % 2).toNat
      let w := m <<< odd
      let k := w.log2 / 2 + 66
      let big := 2 ^ (2 * k)
      let r := isqrt (big / w)
      .fin false (2 * r + bnat (r * r * w != big)) (-((e - odd) / 2) - k - 1)

/-- Whether a value is an infinity or a NaN. -/
def nonFinite : FpNum → Bool
  | .fin .. => false
  | _ => true

/-- Whether a value is a zero. -/
def isZero : FpNum → Bool
  | .fin _ 0 _ => true
  | _ => false

/-- Order of two values that are not NaN. -/
def lt : FpNum → FpNum → Bool
  | .nan, _ => false
  | _, .nan => false
  | .inf a, .inf b => a && !b
  | .inf a, .fin .. => a
  | .fin .., .inf b => !b
  | .fin na ma ea, .fin nb mb eb =>
    let e := min ea eb
    decide (sgn na (ma <<< (ea - e).toNat) < sgn nb (mb <<< (eb - e).toNat))

/-- Equality of values: +0 equals −0, NaN equals nothing (Table 5-1). -/
def eq : FpNum → FpNum → Bool
  | .nan, _ => false
  | _, .nan => false
  | a, b => !(lt a b) && !(lt b a)

/-- Whether the sign is negative. -/
def isNeg : FpNum → Bool
  | .nan => false
  | .inf n => n
  | .fin n _ _ => n

/-- The larger value; NaN with a NaN, +0 of two zeros of unlike sign (R100). -/
def max (a b : FpNum) : FpNum :=
  match a, b with
  | .nan, _ => .nan
  | _, .nan => .nan
  | _, _ => if lt a b then b else if lt b a then a else if isNeg a then b else a

/-- The smaller value; NaN with a NaN, min(+0, −0) = −0 (Table 5-1). -/
def min (a b : FpNum) : FpNum :=
  match a, b with
  | .nan, _ => .nan
  | _, .nan => .nan
  | _, _ => if lt a b then a else if lt b a then b else if isNeg a then a else b

/-- A value rounded to an integer under a mode; an infinity or NaN has none. -/
def toInt (rm : Round) : FpNum → Option Int
  | .fin n m e => some (sgn n (roundAt rm m e 0))
  | _ => none

/-- An integer as a value. -/
def ofInt (i : Int) : FpNum := .fin (decide (i < 0)) i.natAbs 0

end FpNum

/-! ### Formats by code -/

/-- The element formats of Table 6-7. -/
inductive Elem where
  | f32 | w16 | h16 | e8m | e8w | e4 | ac8 | g16 | m40 | u32 | u8
  deriving DecidableEq, Repr

/-- The format of a code (Table 6-7). -/
def Elem.ofCode (c : BitVec 4) : Option Elem :=
  match c.toNat with
  | 0 => some .f32 | 1 => some .w16 | 2 => some .h16 | 3 => some .e8m | 4 => some .e8w | 5 => some .e4
  | 6 => some .ac8 | 7 => some .g16 | 8 => some .m40 | 9 => some .u32 | 10 => some .u8 | _ => none

/-- Bits of an element in the element plane (Table 6-7). -/
def Elem.bits : Elem → Nat
  | .f32 | .m40 | .u32 => 32
  | .w16 | .h16 | .g16 => 16
  | .e4 => 4
  | .e8m | .e8w | .ac8 | .u8 => 8

/-- Elements of a block along BAXIS; 0 for formats without blocks (Table 6-7). -/
def Elem.block : Elem → Nat
  | .e8m | .e8w | .e4 | .ac8 => 32
  | .g16 => 64
  | _ => 0

/-- Whether the format has a second plane (Table 6-7). -/
def Elem.planes : Elem → Bool
  | .e8m | .e8w | .e4 | .ac8 | .g16 | .m40 => true
  | _ => false

/-- Exponent width, fraction width and emax of the scaled element formats (R72, R75). -/
def Elem.efmt : Elem → Option (Nat × Nat × Int)
  | .e8m | .ac8 => some (4, 3, 8)
  | .e8w => some (5, 2, 16)
  | .e4 => some (2, 1, 2)
  | _ => none

/-- Decode an E-format element before its mordant (R72): every code is finite. -/
def decE (eb fb code : Nat) : FpNum :=
  let neg := (code >>> (eb + fb)) % 2 == 1
  let ex := (code >>> fb) % 2 ^ eb
  let fr := code % 2 ^ fb
  let bias : Int := 2 ^ (eb - 1) - 1
  if ex = 0 then .fin neg fr (1 - bias - fb) else .fin neg (2 ^ fb + fr) ((ex : Int) - bias - fb)

/-- Encode an E-format element, saturating (R75). -/
def encE (eb fb : Nat) (rm : Round) : FpNum → Nat
  | .fin neg m e =>
    let bias : Int := 2 ^ (eb - 1) - 1
    let c := if m = 0 then 0 else magCode rm fb (1 - bias) m e
    bnat neg * 2 ^ (eb + fb) + Nat.min c (2 ^ (eb + fb) - 1)
  | _ => 0

/-- The code of SAT (R77). -/
def satCode : Nat := 0x8000

/-- Decode a G16 element under its mordant (R71, R80): SAT reads +0; a 0xFF mordant reads NaN (R70). A SAT element
under a 0xFF mordant reads NaN, not +0 (DESIGN CHOICE, log entry 64). -/
def decG16 (code m : Nat) : FpNum :=
  if m = 0xFF then .nan
  else if code = satCode then FpNum.zero
  else
    let q := toSigned 16 code
    .fin (decide (q < 0)) q.natAbs ((m : Int) - 142)

/-- Decode an element of a format with its mordant or extension byte (R70, R71, R81). -/
def Elem.dec (f : Elem) (code second : Nat) : FpNum :=
  match f with
  | .f32 => F32.dec code
  | .w16 => W16.dec code
  | .h16 => H16.dec code
  | .m40 => if (F32.dec code).nonFinite then F32.dec code else M40.dec (code * 256 + second)
  | .g16 => decG16 code second
  | .u32 | .u8 => .fin false code 0
  | .e8m | .ac8 => if second = 0xFF then .nan else (decE 4 3 code).scale ((second : Int) - 127)
  | .e8w => if second = 0xFF then .nan else (decE 5 2 code).scale ((second : Int) - 127)
  | .e4 => if second = 0xFF then .nan else (decE 2 1 code).scale ((second : Int) - 127)

/-- The mordant R75 selects for a block of F32 values. -/
def selectMordant (emax : Int) (xs : List FpNum) : Nat :=
  if xs.any FpNum.nonFinite then 0xFF
  else
    match xs.foldl (fun a x => FpNum.max a x.abs) FpNum.zero with
    | .fin _ m e =>
      if m = 0 then 0 else (Min.min (Max.max ((m.log2 : Int) + e - emax + 127) 0) 0xFE).toNat
    | _ => 0xFF

/-- The element code of a value under a block's mordant (R75): zero bits under mordant 0xFF. -/
def encScaled (eb fb m : Nat) (rm : Round) (x : FpNum) : Nat :=
  if m = 0xFF then 0 else encE eb fb rm (x.scale (127 - (m : Int)))

/-- What a conversion into G16 found (R78). -/
inductive G16Flag where
  | ok | bleed | nonfinite
  deriving DecidableEq, Repr

/-- Convert a value into G16 under a mordant (R78; R87 for a 0xFF mordant). -/
def encG16 (rm : Round) (m : Nat) (x : FpNum) : Nat × G16Flag :=
  if m = 0xFF then (satCode, .nonfinite)
  else
    match (x.scale (142 - (m : Int))).toInt rm with
    | none => (satCode, .nonfinite)
    | some q => if 32767 < q.natAbs then (satCode, .bleed) else ((q % 65536).toNat, .ok)

/-- Add two G16 codes of one block (R79): the sum and whether it left the range. -/
def addG16 (a b : Nat) : Nat × Bool :=
  if a = satCode ∨ b = satCode then (satCode, false)
  else
    let q := toSigned 16 a + toSigned 16 b
    if 32767 < q.natAbs then (satCode, true) else ((q % 65536).toNat, false)

/-! ### F32 operations on words -/

/-- The value of an F32 word. -/
def f32 (w : Word32) : FpNum := F32.dec w.toNat

/-- A value rounded to F32 by RNE. -/
def toF32 (x : FpNum) : Word32 := BitVec.ofNat 32 (F32.enc .rne x)

/-- F32 add. -/
def fadd (a b : Word32) : Word32 := toF32 ((f32 a).add (f32 b))
/-- F32 subtract. -/
def fsub (a b : Word32) : Word32 := toF32 ((f32 a).add (f32 b).neg)
/-- F32 multiply. -/
def fmul (a b : Word32) : Word32 := toF32 ((f32 a).mul (f32 b))
/-- Exact a × b + c. -/
def fmaNum (a b c : FpNum) : FpNum := (a.mul b).add c
/-- F32 fused multiply-add, one rounding. -/
def ffma (a b c : Word32) : Word32 := toF32 (fmaNum (f32 a) (f32 b) (f32 c))
/-- F32 divide. -/
def fdiv (a b : Word32) : Word32 := toF32 ((f32 a).div (f32 b))
/-- F32 square root. -/
def fsqrt (a : Word32) : Word32 := toF32 (f32 a).sqrt
/-- F32 reciprocal. -/
def frecip (a : Word32) : Word32 := toF32 ((FpNum.fin false 1 0).div (f32 a))
/-- F32 reciprocal square root. -/
def frsqrt (a : Word32) : Word32 := toF32 (f32 a).rsqrt

/-! ### Trees -/

/-- One level of a tree: adjacent pairs combined, each node rounded once (R97, R100). -/
def pairUp (f : Flt) : List FpNum → List FpNum
  | a :: b :: rest => f.rnd (a.add b) :: pairUp f rest
  | l => l

/-- The complete binary tree over a list of 2^levels leaves. -/
def tree (f : Flt) : Nat → List FpNum → List FpNum
  | 0, l => l
  | k + 1, l => tree f k (pairUp f l)

/-- The tree's root; a single leaf is rounded once (R100). -/
def treeSum (f : Flt) (levels : Nat) (l : List FpNum) : FpNum :=
  match tree f levels l with
  | [] => FpNum.zero
  | x :: _ => f.rnd x

end Sys2Proof.Machine
end

