-- ==== Sys2Proof/Machine/MathFn.lean ====
section
/-!
DEFINITION. The transcendental functions of Table 5-1 with the special values of R142, and the power of R158. Each is
evaluated in fixed point of 256 fraction bits, exact cases apart, with a last bit that marks a nonzero rest; the one
rounding of R141 is made by the caller. Log entry 4 states the precision relied on.
-/
namespace Sys2Proof.Machine

/-- One in fixed point. -/
def fxOne : Nat := 2 ^ 256

/-- ln 2 in fixed point, rounded down. -/
def fxLn2 : Nat := 80260960185991308862233904206310070533990667611589946606122867505419956976171

/-- 2/√π in fixed point, rounded down. -/
def fxErfC : Nat := 130657381209852114387528029350014196574164286124850014242073919076264802271585

/-- A fixed-point product. -/
def fxMul (a b : Nat) : Nat := (a * b) >>> 256

/-- The exponential series by Horner's rule: 1 + r/k · (1 + r/(k+1) · …), `n` terms ending at index `n`. -/
def expTerms (r : Nat) : Nat → Nat → Nat
  | 0, _ => fxOne
  | n + 1, k => fxOne + fxMul r (expTerms r n (k + 1)) / k

/-- e^r for 0 ≤ r < ln 2. -/
def fxExp (r : Nat) : Nat := expTerms r 64 1

/-- A finite value as a signed fixed-point number, its part below 2⁻²⁵⁶ dropped. -/
def toFx (neg : Bool) (m : Nat) (e : Int) : Int :=
  sgn neg (if 0 ≤ e + 256 then m <<< (e + 256).toNat else m >>> (-(e + 256)).toNat)

/-- A positive fixed-point number times 2^k, with a nonzero rest below its last bit. -/
def fxNum (neg : Bool) (v : Nat) (k : Int) : FpNum := .fin neg (2 * v + 1) (k - 257)

/-- Whether a magnitude reaches 2^k. -/
def atLeastPow (m : Nat) (e k : Int) : Bool := m != 0 && decide (k ≤ (m.log2 : Int) + e)

/-- A value above every finite F32. -/
def hugeNum (neg : Bool) : FpNum := .fin neg 1 300

/-- A value below every F32 subnormal. -/
def tinyNum (neg : Bool) : FpNum := .fin neg 1 (-300)

/-- A value just below 1 in magnitude. -/
def nearOne (neg : Bool) : FpNum := .fin neg (2 ^ 200 - 1) (-200)

/-- e^x for x given in fixed point, as mantissa in fixed point and exponent of two. -/
def expFx (x : Int) : Nat × Int :=
  let k := x.fdiv fxLn2
  (fxExp (x - k * fxLn2).toNat, k)

/-- exp (R142). -/
def expNum : FpNum → FpNum
  | .nan => .nan
  | .inf n => if n then FpNum.zero else .inf false
  | .fin n m e =>
    if m = 0 then .fin false 1 0
    else if atLeastPow m e 8 then (if n then tinyNum false else hugeNum false)
    else
      let r := expFx (toFx n m e)
      fxNum false r.1 r.2

/-- exp2 (R142). -/
def exp2Num : FpNum → FpNum
  | .nan => .nan
  | .inf n => if n then FpNum.zero else .inf false
  | .fin n m e =>
    if m = 0 then .fin false 1 0
    else if atLeastPow m e 8 then (if n then tinyNum false else hugeNum false)
    else
      let x := toFx n m e
      let k := x.fdiv fxOne
      let f := (x - k * fxOne).toNat
      if f = 0 then .fin false 1 k else fxNum false (fxExp (fxMul f fxLn2)) k

/-- 1 + t²/3 + t⁴/5 + …, `n` terms from index `k`. -/
def atanhTerms (t2 : Nat) : Nat → Nat → Nat
  | 0, _ => 0
  | n + 1, k => fxOne / (2 * k + 1) + fxMul t2 (atanhTerms t2 n (k + 1))

/-- ln of M, 1 ≤ M < 2 in fixed point. -/
def fxLnM (mm : Nat) : Nat :=
  let t := ((mm - fxOne) * fxOne) / (mm + fxOne)
  2 * fxMul t (atanhTerms (fxMul t t) 90 0)

/-- ln of a positive m · 2^e in fixed point. -/
def fxLn (m : Nat) (e : Int) : Int :=
  let ex := (m.log2 : Int) + e
  let mm := if m.log2 ≤ 256 then m <<< (256 - m.log2) else m >>> (m.log2 - 256)
  ex * fxLn2 + fxLnM mm

/-- Whether a natural is a power of two. -/
def isPow2 (m : Nat) : Bool := m == 2 ^ m.log2

/-- Natural log (R142). -/
def logNum : FpNum → FpNum
  | .nan => .nan
  | .inf n => if n then .nan else .inf false
  | .fin n m e =>
    if m = 0 then .inf true
    else if n then .nan
    else if isPow2 m && decide ((m.log2 : Int) + e = 0) then FpNum.zero
    else
      let l := fxLn m e
      fxNum (decide (l < 0)) l.natAbs 0

/-- log2 (R142). -/
def log2Num : FpNum → FpNum
  | .nan => .nan
  | .inf n => if n then .nan else .inf false
  | .fin n m e =>
    if m = 0 then .inf true
    else if n then .nan
    else if isPow2 m then FpNum.ofInt ((m.log2 : Int) + e)
    else
      let l := fxLn m e
      FpNum.ratio (decide (l < 0)) l.natAbs fxLn2 0

/-- tanh (R142). -/
def tanhNum : FpNum → FpNum
  | .nan => .nan
  | .inf n => .fin n 1 0
  | .fin n m e =>
    if m = 0 then .fin n 0 0
    else if atLeastPow m e 6 then nearOne n
    else if !(atLeastPow m e (-60)) then .fin n ((m <<< 200) - 1) (e - 200)
    else
      let r := expFx (2 * (toFx false m e))
      let big := r.1 <<< r.2.toNat
      FpNum.ratio n (big - fxOne) (big + fxOne) 0

/-- sigmoid x = 1 / (1 + e^(−x)) (R142). -/
def sigmoidNum : FpNum → FpNum
  | .nan => .nan
  | .inf n => if n then FpNum.zero else .fin false 1 0
  | .fin n m e =>
    if m = 0 then .fin false 1 (-1)
    else if atLeastPow m e 8 then (if n then tinyNum false else nearOne false)
    else
      let r := expFx (toFx false m e)
      let big := r.1 <<< r.2.toNat
      if n then FpNum.ratio false fxOne (big + fxOne) 0 else FpNum.ratio false big (big + fxOne) 0

/-- 1 + 2x²/3 · (1 + 2x²/5 · …), `n` terms from divisor `k`. -/
def erfTerms (x2 : Nat) : Nat → Nat → Nat
  | 0, _ => fxOne
  | n + 1, k => fxOne + fxMul (2 * x2) (erfTerms x2 n (k + 2)) / k

/-- erf (R142). -/
def erfNum : FpNum → FpNum
  | .nan => .nan
  | .inf n => .fin n 1 0
  | .fin n m e =>
    if m = 0 then .fin n 0 0
    else
      let x := (toFx false m e).toNat
      if atLeastPow m e 3 || decide (9 * fxOne ≤ 2 * x) then nearOne n
      else
        let x2 := fxMul x x
        let r := expFx (-(x2 : Int))
        let g := fxMul (fxMul fxErfC (r.1 >>> (-r.2).toNat)) (erfTerms x2 200 3)
        .fin n (2 * (m * g) + 1) (e - 257)

/-- The seven transcendental functions (Table 5-1). -/
inductive Trans where
  | exp | exp2 | log | log2 | tanh | sigmoid | erf
  deriving DecidableEq, Repr

/-- The value of a transcendental function, to be rounded once. -/
def Trans.eval : Trans → FpNum → FpNum
  | .exp => expNum | .exp2 => exp2Num | .log => logNum | .log2 => log2Num
  | .tanh => tanhNum | .sigmoid => sigmoidNum | .erf => erfNum

/-! ### The power of R158 -/

/-- A finite magnitude cut to 320 bits, the last marking a nonzero rest. -/
def cutNum : FpNum → FpNum
  | .fin n m e =>
    let sh := m.log2 - 320
    if sh = 0 then .fin n m e
    else
      let q := m >>> sh
      .fin n (if m % 2 ^ sh = 0 then q else q ||| 1) (e + sh)
  | x => x

/-- x^t by squaring over the bits of t. -/
def powFrom (x : FpNum) : Nat → Nat → FpNum
  | 0, _ => .fin false 1 0
  | fuel + 1, t =>
    if t = 0 then .fin false 1 0
    else
      let h := powFrom x fuel (t / 2)
      let h2 := cutNum (h.mul h)
      if t % 2 = 1 then cutNum (h2.mul x) else h2

/-- An out-of-range magnitude brought to one that rounds alike. -/
def clampNum : FpNum → FpNum
  | .fin n m e =>
    if m = 0 then .fin n m e
    else if 400 < (m.log2 : Int) + e then hugeNum n
    else if (m.log2 : Int) + e < -400 then tinyNum n
    else .fin n m e
  | x => x

/-- b^t for t below 2^65, to be rounded once. -/
def powNum (b : FpNum) (t : Nat) : FpNum := clampNum (powFrom b 66 t)

/-- A scalar transcendental rounded once to F32. -/
def ftrans (f : Trans) (a : Word32) : Word32 := toF32 (f.eval (f32 a))

end Sys2Proof.Machine
end

