-- ==== Sys2Proof/Config.lean ====
section
/-!
DEFINITION. What one package fixes at manufacture and the specification leaves to it, and the source of values the
specification does not state. Each is a constant with no body, so that nothing can be proved of its value; each is
named in notes/assumptions.
-/
namespace Sys2Proof.Config

/-- A fresh unstated value: `freeWord n` for the n-th value drawn (log entry 3). -/
opaque freeWord : Nat → BitVec 64

/-- The mordant of a block whose table word lies in the tables of more than one group (R95: undefined), by the values
drawn and the word's address. -/
opaque sharedMordant : Nat → Nat → BitVec 8

/-- The fused serial number, of which the remainder by 2⁶⁴ − 2, plus 1, is ID_SERIAL (Table 17-1). -/
opaque serial : BitVec 64
/-- The rest of the Azonatis area of the FRU store (R545: written at manufacture), by offset. -/
opaque fruByte : Nat → BitVec 8
/-- The names in its board and product areas. -/
opaque fruName : List (BitVec 8)
/-- The date in its board area. -/
opaque fruDate : BitVec 24
/-- The type of its MultiRecord. -/
opaque fruRecord : BitVec 8
/-- The maker's number that begins the record. -/
opaque fruMaker : BitVec 24
/-- The strap lands FRU_A[2:0] (R545). -/
opaque fruStraps : BitVec 3
/-- Where the HCP's MSI-X capability lies in its configuration space, in double words; the specification does not say. -/
opaque msixCap : Nat
/-- Whether the firmware image in a bank has an ECDSA P-384 signature that verifies against the fused Azonatis key (R537):
what the bank held at manufacture, changed by the bytes written since. The image format is not in the specification. -/
opaque fwSigGood : Nat → List (Nat × BitVec 8) → Bool
/-- The version that image carries. -/
opaque fwVersion : Nat → List (Nat × BitVec 8) → BitVec 32
/-- The security version that image carries. -/
opaque fwSvn : Nat → List (Nat × BitVec 8) → BitVec 32
/-- The SHA-384 of that image (Table 17-12). -/
opaque fwDigest : Nat → List (Nat × BitVec 8) → BitVec 384
/-- SVN_MIN as fused at manufacture (R537). -/
opaque svnMin : BitVec 32
/-- A random 32-byte nonce (R566), by draw. -/
opaque nonce : Nat → BitVec 256
/-- SHA-384 of a byte string (R549, R550, R566): the standard's function, which the specification names only. -/
opaque sha384 : List (BitVec 8) → BitVec 384
/-- Whether an ECDSA P-384 signature (r then s, 96 bytes) over a SHA-384 digest verifies under a DER key (R566). -/
opaque ecdsaGood : List (BitVec 8) → BitVec 384 → List (BitVec 8) → Bool
/-- A signature by the identity key over a digest (R546, R548). -/
opaque identitySign : BitVec 384 → List (BitVec 8)
/-- The Azonatis root certificate (R547). -/
opaque rootCert : List (BitVec 8)
/-- The Relal device CA's certificate (R547). -/
opaque caCert : List (BitVec 8)
/-- The identity certificate whose subject carries a serial number and a part number (R547). -/
opaque identityCert : BitVec 64 → List (BitVec 8) → List (BitVec 8)
/-- A die's certificate but for its signature (R547). -/
opaque dieCert : Nat → List (BitVec 8)
/-- The SubjectPublicKeyInfo of a certificate. -/
opaque certKey : List (BitVec 8) → List (BitVec 8)
/-- A die's report of its boot image and fuse configuration (R546), by die and draw. -/
opaque dieReport : Nat → Nat → List (BitVec 8)
/-- A signature by a die's key over a digest (R546). -/
opaque dieSign : Nat → BitVec 384 → List (BitVec 8)
/-- Whether a die passes logic self-test (R481), by die and draw. -/
opaque logicGood : Nat → Nat → Bool
/-- The key a DER certificate chain certifies and the digest of its root's SubjectPublicKeyInfo, where every signature of
the chain verifies (R380, R547). -/
opaque chainOf : List (BitVec 8) → Option (List (BitVec 8) × BitVec 384)
/-- Measurement blocks 1 and 3: digests of the boot ROM with the fuses, and of the six boot images (Table 17-12). -/
opaque measurement : Nat → BitVec 384
/-- How far a die's copy of global time is off at a time, of which the remainder by 5, less 2, counts (R28). -/
opaque copyError : Nat → Nat → Nat

/-- The context whose access a beat of a memory channel carries, by the routing word in its first 16 bytes, whose layout the
specification does not give (R326, R472): cell in bits 6 to 1, slot in bit 0. -/
opaque beatAccess : List (BitVec 32) → Option (BitVec 7)

/-- Fused weight of an activity counter of a die in microwatt-microseconds per count (R496), by its place in the report. -/
opaque weight : Nat → Nat → Nat
/-- Leakage of a die in milliwatts by its rail voltages (units of 0.25 mV) and temperature (R496: the fused model). -/
opaque leak : Nat → List Nat → Nat → Nat
/-- The fused VDD_PLATE voltage of an operating point (R494), by die and point, in units of 0.25 mV. -/
opaque fusedPlate : Nat → Nat → Nat
/-- The fused voltage of another rail of Table 16-1, by rail (its row, VDD_CELL 1) and instance, in units of 0.25 mV. -/
opaque fusedRail : Nat → Nat → Nat
/-- How far VDD_PLATE has slewed since a change of point began (R495), by die and time, in units of 0.25 mV. -/
opaque slewed : Nat → Nat → Nat
/-- Power of a stack in milliwatts from its bursts and refresh rate (R496). -/
opaque stackPower : Nat → Nat → Nat
/-- The largest change of an activity over a 100 µs window, by field of the signature (R498). -/
opaque activityMax : Nat → Nat
/-- Slack in ps at another point (15: VDD_CELL), by the die's fused sensitivity (R512): die, from point, to point, slack. -/
opaque scaleSlack : Nat → Nat → Nat → Nat → Nat
/-- Guard band of a die's fused table in mV (Table 16-10). -/
opaque guardMv : Nat → BitVec 8
/-- Slack in ps of a die at a point (15: VDD_CELL) with an offset, from the slack measured with another (R512): die, point,
slack, offset in force, offset; both in units of 0.25 mV. -/
opaque slackAt : Nat → Nat → Nat → Int → Int → Nat
/-- Slack in ps of a die at an operating point (15: VDD_CELL), as a chip-reset sweep measures it (R512): die, point, draw. -/
opaque sweepSlack : Nat → Nat → Nat → Nat
/-- A land group's fused share of the current of its kind in 1/100,000 (R556), by kind (0 12 V, 1 ground) and group; Table
20-4 bounds it. -/
opaque landShare : Nat → Nat → Nat
/-- The signal-to-land latency of a safelight configuration (R569), by SL_CTL. -/
opaque slLatency : BitVec 32 → BitVec 16
/-- Channels mapped out by fuse at test, by stack (R285). -/
opaque fusedMapOut : Nat → BitVec 32
/-- The wire repairs fused at test, by join and direction: groups with a committed spare (R325). -/
opaque fusedRepairs : Nat → Nat → BitVec 64
/-- The wire such a repair leaves out, by join, direction and group (R325). -/
opaque fusedWire : Nat → Nat → Nat → BitVec 7
/-- Whether full training finds a wire or clock of a group failed (R325), by join, direction, 128 times the group plus the
wire, and draw. -/
opaque trainedFailed : Nat → Nat → Nat → Nat → Bool

end Sys2Proof.Config
end

