-- ==== Sys2Proof/Machine/Store.lean ====
section
/-!
DEFINITION. Sparse stores in one canonical form. A store is a list of (key, value) pairs with strictly rising keys
and no entry equal to what an unlisted key reads as, so that equal stores are equal lists. Byte memories
(`Host.Cell` lists), check-bit error marks and the large register arrays of the package are stores.
-/
namespace Sys2Proof.Machine

/-- A sparse store of values by key. -/
abbrev Sparse (β : Type) := List (Nat × β)

/-- What key `k` reads as; an unlisted key reads as `d`. -/
def Sparse.get {β : Type} (d : β) : Sparse β → Nat → β
  | [], _ => d
  | (a, v) :: rest, k => if k = a then v else if k < a then d else Sparse.get d rest k

/-- Write `v` at key `k`, keeping the canonical form: writing `d` removes the entry. -/
def Sparse.set {β : Type} [DecidableEq β] (d : β) : Sparse β → Nat → β → Sparse β
  | [], k, v => if v = d then [] else [(k, v)]
  | (a, w) :: rest, k, v =>
    if k < a then (if v = d then (a, w) :: rest else (k, v) :: (a, w) :: rest)
    else if k = a then (if v = d then rest else (k, v) :: rest)
    else (a, w) :: Sparse.set d rest k v

/-- The canonical form above a bound: every key is above `lo`, keys rise strictly, no value is the default. -/
def Sparse.wfFrom {β : Type} [DecidableEq β] (d : β) : Nat → Sparse β → Bool
  | _, [] => true
  | lo, (a, v) :: rest => decide (lo ≤ a) && decide (v ≠ d) && Sparse.wfFrom d (a + 1) rest

/-- The canonical form. -/
def Sparse.wf {β : Type} [DecidableEq β] (d : β) (m : Sparse β) : Bool := Sparse.wfFrom d 0 m

/-- Entry `i` of an array. -/
def vget {α : Type} {n : Nat} (v : Vector α n) (i : Fin n) : α := v[i.val]

/-- An array with entry `i` replaced. -/
def vset {α : Type} {n : Nat} (v : Vector α n) (i : Fin n) (x : α) : Vector α n := v.set i.val x i.isLt

/-- An array with entry `i` changed. -/
def vmod {α : Type} {n : Nat} (v : Vector α n) (i : Fin n) (f : α → α) : Vector α n := vset v i (f (vget v i))

/-- Entry `i` of an array by number, `d` beyond its end. -/
def vgetD {α : Type} {n : Nat} (d : α) (v : Vector α n) (i : Nat) : α := v.toList.getD i d

/-- Every number below `n`. -/
def allFin (n : Nat) : List (Fin n) := List.finRange n

/-- The place in a queue of the first entry that passes a test among those that are the first of their slot; `seen` are
the slots met so far. -/
def firstHead {α : Type} (slot : α → Fin 2) (ok : α → Bool) : List (Fin 2) → List α → Option Nat
  | _, [] => none
  | seen, x :: rest =>
    if !(seen.contains (slot x)) && ok x then some 0
    else (firstHead slot ok (slot x :: seen) rest).map (· + 1)

/-- A list with entry `i` changed. -/
def lmod {α : Type} (l : List α) (i : Nat) (f : α → α) : List α := l.modify i f

end Sys2Proof.Machine
end

