-- ==== Sys2Proof/Machine/State.lean ====
section
/-!
DEFINITION. The state of the package: every register, buffer, queue, counter and mode the specification names, as
plain data, with the queue of waiting commands; the reasons a command can stop; and the state after reset, which is
the moment of cold power-on, phase 0x1 (R551; log entry 16; values with no stated reset, log entry 15). Registers the
specification numbers are words of their width (R577); state it only describes is an inductive type, a list or a
number.
-/
namespace Sys2Proof.Machine

/-- A memory of protected words (R298): its bytes, and for each 32-bit word whose stored bits differ from the code
of its data the difference, 39 bits (a poison mark is the difference 0x7F in the check bits, R300). Bytes not
listed read 0 (R259, R286: written zero before use), words not listed hold their code. -/
structure ProtMem where
  bytes : List Host.Cell
  marks : Sparse (BitVec 39)
  deriving DecidableEq, Repr

/-- A memory in which nothing is listed. -/
def ProtMem.empty : ProtMem := ⟨[], []⟩

/-! ### Instructions waiting and running in a cell -/

/-- What is recorded of an instruction when the control core dispatches it: its slot, its place in program order
(R208), CLASS, OPCODE and PC for its error record (R472), the job, and whether the phase at dispatch refuses it
(R36). -/
structure Tag where
  slot     : SlotId
  seq      : Nat
  cls      : BitVec 4
  opcode   : Byte
  pc       : BitVec 20
  job      : BitVec 16
  phaseBad : Bool
  deriving DecidableEq, Repr

/-- The draw counters and keys an instruction captures at dispatch (R154, R246). -/
structure Draw where
  seeded    : Bool
  exhausted : Bool
  jobSeed   : Word64
  stepIndex : Word64
  seqSlot   : Word32
  laneBase  : Word32
  start     : Sparse (BitVec 49)
  deriving DecidableEq, Repr

/-- No draw. -/
def Draw.none : Draw := ⟨true, false, 0, 0, 0, 0, []⟩

/-- The five plate instructions (Table 7-6). -/
inductive MxKind where
  | mma | drain | vsave | vload | vfree
  deriving DecidableEq, Repr

/-- An mx instruction in the plate queue, with what it captured at dispatch (R195). -/
structure MxInstr where
  tag  : Tag
  kind : MxKind
  f    : FmtM
  ta   : BitVec 256
  tb   : BitVec 256
  draw : Draw
  deriving DecidableEq, Repr

/-- What one element of a tile is read as: its code, its mordant or extension byte, and whether a word it lies in is
poisoned (R299). -/
structure Read where
  code   : Nat
  second : Nat
  poison : Bool
  deriving DecidableEq, Repr

/-- A stationary tile the plate holds (R104, R105): the mx.mma it was loaded for (slot and place in program order), the
slice, and by column the elements B[k][j] of the slice as they were read. -/
structure StatTile where
  slot  : SlotId
  seq   : Nat
  slice : Nat
  cols  : List (List Read)
  deriving DecidableEq, Repr

/-- A started mx instruction: its place in the plate queue's order, K_p at the time it left the queue (R114), the
epilogue read then (R156), the slices whose stationary tiles were loaded and the next slice and row (R104, R105), the
next row of a transfer, the rows a vat release has still to free (R125), and whether a poisoned word has been reported
(R119). -/
structure MxRun where
  ins      : MxInstr
  order    : Nat
  kp       : Nat
  epi      : Option Word64
  bias     : List (Word32 × Bool)
  resid    : BitVec 256
  tiles    : Nat
  slice    : Nat
  row      : Nat
  frees    : List Nat
  poisoned : Bool
  deriving DecidableEq, Repr

/-- The group sums of one row-cycle in the in-flight window (R104, R112): the vat row, whether the first of them
overwrites (R115), the sums of each group by column, and which row or columns operands poison; its tag names the
instruction and `order` its place in the plate queue's order. -/
structure InFlight where
  slot    : SlotId
  tag     : Tag
  order   : Nat
  row     : Nat
  first   : Bool
  groups  : List (List Word32)
  poison  : Bool
  badCols : List Nat
  deriving DecidableEq, Repr

/-- A vx instruction in the vector queue: opcode and operand fields of either format, and the descriptors and s
registers captured at dispatch (R195). -/
structure VxInstr where
  tag   : Tag
  op    : Byte
  vi    : Bool
  d     : BitVec 7
  a     : BitVec 7
  b     : BitVec 7
  c     : BitVec 7
  rm    : BitVec 2
  fmt   : BitVec 4
  fn    : BitVec 14
  imm   : Word32
  descs : Vector (BitVec 256) 4
  svals : Vector Word64 4
  draw  : Draw
  deriving DecidableEq, Repr

/-- A started vx instruction: element count, lane count (R138), the next beat, the v-register sources read at issue
(R195; words with a poison flag), and the running value of a reduction or digest. -/
structure VxRun where
  ins   : VxInstr
  elems : Nat
  lanes : Nat
  beat  : Nat
  regs  : Vector (List (Word32 × Bool)) 3
  acc   : List Word64
  flags : BitVec 8
  deriving DecidableEq, Repr

/-- A running vx.optstep: its descriptor's 128 bytes, the next block, c₁ and c₂ (R158), and whether a refused block
has written its record (R159). -/
structure OptRun where
  ins      : VxInstr
  desc     : List Byte
  block    : Nat
  c1       : Word32
  c2       : Word32
  recorded : Bool
  poisoned : Bool
  waits    : List Nat
  deriving DecidableEq, Repr

/-- A result waiting to be written to an s register (R149). -/
structure SResult where
  slot  : SlotId
  seq   : Nat
  reg   : BitVec 5
  value : Word64
  deriving DecidableEq, Repr

/-- A dm instruction in the mover queue, with its captured descriptors and offset. -/
structure DmInstr where
  tag   : Tag
  op    : Byte
  f     : FmtQ
  qd    : BitVec 256
  qd2   : BitVec 256
  td    : BitVec 256
  soVal : Word64
  deriving DecidableEq, Repr

/-- A transfer in progress: how many bytes have been asked of the stacks and how many have moved, bytes from outside the
package that wait for their turn to the host (offset and bytes, R427), how many frames and reads are outstanding (R364),
its status so far (mover code of Table 7-9, 0 none) with the address concerned, whether every piece has moved, and whether
its context was reset (R479: its completion signal is then discarded). -/
structure DmRun where
  ins         : DmInstr
  next        : Nat
  moved       : Nat
  held        : List (Nat × List Byte)
  outstanding : Nat
  status      : Byte
  addr        : Word64
  finished    : Bool
  discarded   : Bool
  deriving DecidableEq, Repr

/-- A cl instruction in the collective queue. -/
structure ClInstr where
  tag : Tag
  op  : Byte
  f   : FmtQ
  qd  : BitVec 256
  deriving DecidableEq, Repr

/-- A trace record (Table 7-16). -/
structure TraceRec where
  time   : Word64
  value  : Word64
  imm    : Word32
  origin : Word32
  step   : Word64
  deriving DecidableEq, Repr

/-! ### A cell -/

/-- Architectural state of a context (Table 6-1). -/
structure Ctx where
  s  : Vector Word64 32
  v  : ProtMem
  p  : BitVec 8
  t  : Vector (BitVec 256) 16
  q  : Vector (BitVec 256) 8
  pc : BitVec 20
  deriving DecidableEq, Repr

/-- The initial values of Table 6-1; p0 is true. -/
def Ctx.initial : Ctx :=
  { s := Vector.replicate 32 0, v := ProtMem.empty, p := 1, t := Vector.replicate 16 0,
    q := Vector.replicate 8 0, pc := 0 }

/-- Slot states (Table 8-3). -/
inductive SlotState where
  | empty | running | ready | dormant | stopped
  deriving DecidableEq, Repr

/-- What the running instruction of a slot waits for: nothing; a latch count (sy.wait, R242); an abandoned wait
about to return 1 (R253); latch 60 in st.open; the arrivals of st.stop or st.fix on a lead cell (Table 2-2). -/
inductive Wait where
  | none
  | latch (l : BitVec 6) (need : Word32) (sd : BitVec 5)
  | abandoned (sd : BitVec 5)
  | stOpen
  | stStop
  | stFix
  deriving DecidableEq, Repr

/-- A wake condition captured at sy.yield (R261). -/
inductive WakeCond where
  | none | latch (l : BitVec 6) | verdict | time
  deriving DecidableEq, Repr

/-- Grain state of a slot (Table 5-12, R151, R152): the register fields, what st.seed captured for the keys, and the
draw counters of the 512 local lanes. -/
structure Grain where
  laneBase  : Word32
  seeded    : Bool
  seqSlot   : Word32
  jobSeed   : Word64
  stepIndex : Word64
  keyBase   : Word32
  counters  : Sparse (BitVec 49)
  deriving DecidableEq, Repr

/-- A context slot (R257) with its registers of Tables 6-13, 6-14, 8-6 and 8-7. -/
structure Slot where
  ctx       : Ctx
  job       : BitVec 16
  state     : SlotState
  endCause  : BitVec 4
  isaCtl    : Word64
  ctxFault  : Word64
  ctxCtl    : Word32
  wakeTime  : Word64
  wake      : WakeCond
  grain     : Grain
  wait      : Wait
  seqNext   : Nat
  stopping  : Bool
  faultSeq  : Nat
  openDone  : Bool
  deriving DecidableEq, Repr

/-- A latch (R250): count and owner; the owner of a general latch is a slot and its job. -/
structure Latch where
  count : Word32
  owner : Option (SlotId × BitVec 16)
  deriving DecidableEq, Repr

/-- A signal on its way to a latch (R255); a step signal is one only hardware makes (R38). -/
structure Signal where
  latch  : BitVec 6
  amount : Word32
  step   : Bool
  owner  : Option SlotId
  deriving DecidableEq, Repr

/-- Whether a yield has retired and the switch it starts has still to take place (R260). -/
inductive Switch where
  | none
  | yield (s : SlotId)
  deriving DecidableEq, Repr

/-- Registers of a cell that are stored words (Table 19-3), with the row-cycles and MAC of each operand class of Table 4-1,
which the meter weighs (R496); the other registers of the table are views. -/
structure CellRegs where
  plateCfg   : Word32
  plateFault : Word32
  plateDbg   : Word32
  plateRow   : Word64
  plateMac   : Word64
  classRow   : Vector Word64 4
  classMac   : Vector Word64 4
  plateHold  : Word64
  plateIdle  : Word64
  optStatus  : Word64
  vecFault   : Word32
  vecBeat    : Word64
  vecOptElem : Word64
  coreFault  : Word32
  coreIssue  : Word64
  coreStall  : Word64
  stall      : BitVec 4
  dmFault    : Word32
  dmLate     : Word64
  clFault    : Word32
  latchSpin  : Word64
  ctxSwitch  : Word64
  slotCfg    : Word32
  epi        : Vector Word64 4
  traceCtl   : Word32
  traceBase  : Word64
  traceHead  : Word64
  deriving DecidableEq, Repr

/-- The engines of a cell: queues, started instructions and modes; the number the next instruction that leaves the
plate queue takes, and the stationary tiles the plate holds, oldest first (R105). -/
structure Engines where
  plateQ     : List MxInstr
  plateNext  : Nat
  plateRun   : List MxRun
  tiles      : List StatTile
  inflight   : List InFlight
  vatClear   : Bool
  vecQ       : List VxInstr
  vecRun     : Option VxRun
  optRun     : Option OptRun
  results    : List SResult
  restore    : Bool
  moverQ     : List DmInstr
  xfers      : Vector (Option DmRun) 8
  clQ        : List ClInstr
  clPending  : List (SlotId × Nat × Bool)
  traceQ     : List TraceRec
  traceErr   : Bool
  deriving DecidableEq, Repr

/-- A cell (R4, R20, R21). -/
structure Cell where
  regs     : CellRegs
  store    : ProtMem
  vat      : ProtMem
  vatLive  : BitVec 4096
  eng      : Engines
  slots    : Vector Slot 2
  latches  : Vector Latch 64
  signals  : List Signal
  running  : Option SlotId
  switch   : Switch
  grace    : Bool
  stopBits : BitVec 16
  frozen   : Bool
  deriving DecidableEq, Repr

/-! ### Partitions and the step -/

/-- Where the boundary procedure of R48 and R49 stands. -/
inductive FixStage where
  | idle | waitNegative | sealWait | boundary
  deriving DecidableEq, Repr

/-- STEP[p] (Tables 2-5 to 2-8) and what the step logic holds beside it. -/
structure Step where
  index        : Word64
  updateCount  : Word64
  skipCount    : Word64
  inputPos     : Word64
  jobSeed      : Word64
  status       : Word32
  verdict      : Word64
  ctl          : Word32
  ctlShadow    : Word32
  armed        : Bool
  stage        : FixStage
  stopWord     : Option (BitVec 16)
  delivered    : Option (Word32 × BitVec 16)
  fade         : Bool
  poisonFound  : Bool
  refix        : Bool
  deriving DecidableEq, Repr

/-- PART[p] (Table 8-10), REG[p] (Table 9-12) with its buckets' tokens (negative while one access larger than
BURST is being paid off), whether a request has waited for tokens in the present tick, HCP_NOTIFY and CFG_APPLY[p] (Table 17-16),
and COLL_SIDE[p] (Table 12-11). -/
structure Part where
  cells        : Word64
  cellsPending : Word64
  range        : Vector Word64 4
  rangePending : Vector Word64 4
  stack        : Vector Word64 16
  stackShadow  : Vector Word64 16
  tokens       : Vector Int 16
  waited       : Bool
  epoch        : Word64
  held         : Word64
  borrowed     : Word64
  cfgApply     : Word64
  collSide     : Word32
  verdictSeen  : Bool
  deriving DecidableEq, Repr

/-- GRAD_GROUP[g] (Tables 3-8 to 3-10), active and shadow, and what the build of the current step leaves for its commit
boundary: blocks of the own shard flagged BLEED (WITHHELD), blocks whose FADE_COUNT reached the threshold (R93), and FADED
of the built version. -/
structure GradGroup where
  cfg        : Word32
  cfgShadow  : Word32
  base       : Word64
  baseShadow : Word64
  blocks     : Word32
  blocksSh   : Word32
  status     : Word64
  bleeds     : Nat
  newFades   : Nat
  faded      : Nat
  deriving DecidableEq, Repr

/-! ### Stacked memory -/

/-- A burst request at a stack controller (R294): the partition charged, whether it is collective traffic, whether it
is admitted, whether its partition's bucket has admitted it and the thermal bucket has not yet (R308), the
transfer it serves (cell and mover entry; none for a read of the step logic or a twin or sheet engine, whose bytes were
taken as it arrived), the direct address, the length, and for a write the data. `off` is its place in the transfer and
`view` its address in the view used. -/
structure MemReq where
  part     : PartId
  coll     : Bool
  admitted : Bool
  bucketed : Bool
  own      : Bool
  cell     : CellId
  xfer     : Fin 8
  write    : Bool
  off      : Nat
  view     : Nat
  addr     : Nat
  len      : Nat
  data     : List Byte
  deriving DecidableEq, Repr

/-- One physical channel of a stack: correctable errors of the present window and whether the limit was reported
(R304), CRC retries (R302), the spare connections committed, the connections withdrawn as failed and the failed ones no spare
replaces (R279), when a burst was last on the channel (R561), the write-back queue (R301,
direct burst addresses), the bursts scrubbed since chip reset (R305), and its trained interface parameters, kept in the
AUX island (R312). -/
structure Channel where
  windowCe  : Nat
  reported  : Bool
  crcCount  : Nat
  committed : List (Fin 318)
  failed    : List (Fin 318)
  broken    : List (Fin 318)
  carried   : Option Word64
  writeBack : List Nat
  scrub     : Nat
  params    : Option Word64
  deriving DecidableEq, Repr

/-- MEM[n] (Tables 9-10, 9-13, 9-14), the page attributes of its granules (R288), its channels, its requests,
whether it has been trained, whether training finds its contents lost (R286), the bursts it has served (R496), and the
burst whose next access the connections disturb, with the attempts they do it to (R302). -/
structure Stack where
  mappedOut : Word32
  relocated : Bool
  mapoutReq : Word32
  eccCnt    : Word64
  therm     : Word32
  cooler    : Nat
  thermTok  : Int
  margin    : Word32
  marginErr : Word64
  pages     : Sparse (BitVec 4)
  channels  : Vector Channel 32
  requests  : List MemReq
  trained   : Bool
  lost      : Bool
  bursts    : Nat
  wire      : Option (Nat × List WireTry)
  deriving DecidableEq, Repr

/-- The memory control block (Tables 9-11, 9-13, 9-14), what DRAM holds, and the bursts that the present command has
moves outside the request queues, to be charged as it ends (R295): partition (none: not charged), whether collective
traffic, direct address; with the bursts of commands that wait which have been admitted so far (R294), each with whether
the thermal bucket has passed it too (R308). -/
structure MemCtl where
  memCtl     : Word32
  eccCfg     : Word32
  thermCfg   : Word32
  scrubCtl   : Word32
  pageStatus : Word32
  pageCmd    : Option Word64
  dram       : ProtMem
  moved      : List (Option PartId × Bool × Nat)
  prepaid    : List (PartId × Bool × Nat × Bool)
  deriving DecidableEq, Repr

/-! ### Crossings -/

/-- A command of a direction awaiting its switch time (R328). -/
inductive XdOp where
  | steer (group : BitVec 6) (wire : BitVec 7)
  | half (keep : Fin 2)
  | disable
  | forceState
  deriving DecidableEq, Repr

/-- A declaration waiting to be handled (R331, R332): a failed wire of a group, or a failed clock, and the syndrome of the
word that triggered it (R340; zero if none). -/
structure XdDecl where
  group : BitVec 6
  wire  : BitVec 7
  syn   : BitVec 7
  deriving DecidableEq, Repr

/-- One direction of a join: registers of Tables 10-8 to 10-10, width, alternate clocks in use and failed clocks by
group, wires steered out by group (0x7F none), the window counted (its number), its corrected errors by group and wire and the
wires declared in it (R327), credits of the three channels, beats held in their buffers and those passed on to the die
whose words no consumer has had yet (R323, R326), the state of the fill sequence (R321), the pending command with T, the
time the last switch lets beats go again (R328), the declarations waiting, the forced state in effect (R337), and the
trained parameters of the AUX island (R325). -/
structure XdDir where
  spareUsed : Word64
  failed    : Word64
  lastEvent : Word64
  errCnt    : Word64
  beats     : Word64
  width     : BitVec 2
  altClk    : Word64
  primBad   : Word64
  altBad    : Word64
  steered   : Sparse (BitVec 7)
  window    : Nat
  windowCe  : Sparse Nat
  told      : List Nat
  credits   : Vector Nat 3
  pending   : Option (XdOp × Word64)
  resume    : Word64
  waiting   : List XdDecl
  buffers   : Vector (List (List (Word32 × Bool))) 3
  passed    : Vector (List (List (Word32 × Bool))) 3
  fill      : BitVec 31
  forced    : BitVec 2
  params    : Option Word64
  carried   : Option Word64
  deriving DecidableEq, Repr

/-- XD[j] (Table 10-7). `disabled` is the failure-produced state. -/
structure Xd where
  ctl      : Word32
  disabled : Bool
  trained  : Bool
  dirs     : Vector XdDir 2
  deriving DecidableEq, Repr

/-! ### Torus fabric -/

/-- PORT[k] (Table 11-12), its counters and its link layer (R344, R345): LSEQ last sent, the frames kept for replay,
the LSEQ of the last frame received in order, LNAK for the next slot, the count of LNAKs for one LSEQ, the slots the
output stays busy, the frames it has still to send again, the hold-store entries it has reserved and the frames that
entered the store in its busy interval (R358), a replay asked for; the physical lane of each active lane of the direction
it receives and of the one it sends, the failed lanes of the latter and those whose replacement awaits hold-store room;
the frame put on the link in the last slot, the turn-back queue of its island (R374) and the frames its island has still to
forward by it; the width SELECT chose, the trained
parameters of the AUX island (R378), the challenge sent, the IDENT records received and sent in stage IDENT (R550) and the
answer given in AUTH (R380); the asymmetry CAL found, the
offset and the DEPTH its time words gave (R382; 0xFF none), and the receive stamp and own time of the last word. -/
structure Port where
  status    : Word32
  ctl       : Word32
  peer      : Word64
  txFrames  : Word64
  rxFrames  : Word64
  replays   : Word64
  lseq      : Byte
  lack      : Byte
  replay    : List Frame
  lnak      : Bool
  lnakRun   : Nat
  busy      : Nat
  resend    : List Frame
  reserved  : Nat
  waits     : List Frame
  replayAsk : Bool
  lanes     : List Nat
  outLanes  : List Nat
  outFailed : BitVec 10
  lateLanes : List Nat
  sent      : Option Frame
  turnBack  : List Frame
  onward    : List Frame
  chosen    : BitVec 2
  params    : Option Word64
  challenge : BitVec 256
  idents    : List Byte × List Byte
  answer    : List Byte
  asym      : Int
  offset    : Word32
  depthSeen : BitVec 8
  rxStamp   : Word64
  rxTime    : Word64
  deriving DecidableEq, Repr

/-- What a source slot's frame belongs to: a mover transfer, a collective instance (with the direction of the ports a ring
has it leave by, R393: 0 Y+, 1 Y-, 2 X+, 3 X-), the twin engine, a read of a sheet
(byte of its pages), a read of a restore (address in the twin's holding area), nothing. -/
inductive FrameUse where
  | mover (c : CellId) (x : Fin 8) (off : Nat) (len : Nat)
  | coll (i : Fin 4096) (way : Option Nat)
  | twin (p : PartId) (slot : Nat)
  | sheet (p : PartId) (off : Nat)
  | restore (p : PartId) (a : Nat)
  | mgmt
  | none
  deriving DecidableEq, Repr

/-- A frame waiting for a source slot and a credit (R359, R364); `node` is the logical node a frame without a grant is
translated from at injection (R348), and for one with a grant the node its transfer goes to. -/
structure OutFrame where
  frame : Frame
  use   : FrameUse
  grant : Option (Fin 4096)
  node  : Option (BitVec 16)
  deriving DecidableEq, Repr

/-- A held source slot (R364). -/
structure SrcSlot where
  frame   : Frame
  use     : FrameUse
  grant   : Option (Fin 4096)
  waitRsp : Bool
  deriving DecidableEq, Repr

/-- A stream context at a destination (R353, R354): class, channel, source node and endpoint, the expected SEQ once
known, held frames, and the frames its consumer has taken and not yet reported (R364). -/
structure Stream where
  cls       : BitVec 4
  chan      : BitVec 4
  src       : BitVec 16
  sep       : BitVec 3
  dep       : BitVec 3
  expected  : Option Word32
  held      : List Frame
  unreported : Nat
  lastTaken : Word32
  status    : BitVec 4
  deriving DecidableEq, Repr

/-- A queued credit entry (Table 11-5) for a source node and endpoint. -/
structure Credit where
  dst    : BitVec 16
  dep    : BitVec 3
  ep     : BitVec 3
  entry  : Word64
  frames : Nat
  deriving DecidableEq, Repr

/-- A fabric die: FAB[f] (Tables 11-14, 11-15), routing state of R356 to R360, source slots, the reorder buffer's
streams, frames taken by no consumer yet, frames delivered, and queued credits. -/
structure Fab where
  grantTx  : Sparse Word64
  grantRx  : Sparse Word64
  robCfg   : Word32
  deflect  : Word64
  expired  : Word64
  stale    : Word64
  dup      : Word64
  gap      : Word64
  holdIn   : Word64
  arrivals : List (Nat × Frame)
  hold     : List Frame
  inject   : List Frame
  outbox   : List OutFrame
  slots    : List SrcSlot
  streams  : List Stream
  delivered : List Frame
  credits  : List Credit
  seqNext  : Sparse Word32
  sosDone  : Sparse Bool
  holdoff  : Bool
  starve   : Bool
  reentry  : List Frame
  history  : List (BitVec 14)
  rotate   : Nat
  rspUsed  : Nat
  rtagNext : BitVec 16
  collFrames : Word64
  collInst : Word64
  collWait : Word64
  collTime : Word64
  deriving DecidableEq, Repr

/-- Routing slot states (Table 11-8). -/
inductive RouteState where
  | retired | valid | active | draining | drained
  deriving DecidableEq, Repr

/-- A routing slot (R368): CFG and MAP of Table 11-13, the writes that have reached one fabric die's copy only (R390), and
its state. -/
structure RouteSlot where
  cfg   : Word64
  map   : Sparse Word32
  begun : List (RouteTarget × Word64)
  state : RouteState
  deriving DecidableEq, Repr

/-- The routing and time registers (Tables 11-13, 11-16), the darkslide's closed pairs and request pin, whether the
counter has locked, omits its next tick, and when it slewed last (R383), whether a step was opened since cold power-on,
and the joins of the register ring in use (R25). -/
structure Routing where
  routeCtl   : Word32
  epoch      : Word32
  slots      : Vector RouteSlot 2
  applyHeld  : Bool
  ageCfg     : Word32
  timeStatus : Word64
  nodeId     : Word32
  timeCtl    : Word32
  darkClosed : BitVec 6
  darkReq    : Bool
  reqHigh    : Bool
  darkCnt    : Word64
  firstLock  : Bool
  omitTick   : Bool
  slewAt     : Option Word64
  anyOpen    : Bool
  ringJoins  : BitVec 6
  fullTrained : Bool
  deriving DecidableEq, Repr

/-! ### Collectives -/

/-- An arrival of a cl instruction at the engines (R398). -/
structure ClArrival where
  cell : CellId
  ins  : ClInstr
  deriving DecidableEq, Repr

/-- Descriptor states (R395). -/
inductive CollState where
  | idle | armed | active | failed
  deriving DecidableEq, Repr

/-- What an ACTIVE instance has done (R398 to R413): the arrivals it ends for, its start time, FN of its cl
instruction, buffer, length vectors, the stamp read at its start, the ring indices whose READY or ARRIVE has come,
frames it owes that wait for their receiver's READY (ring index, frame), data frames received, those of them that
bring a reduced frame of the own chunk, TAG frames received, owners whose
tag differed, its recorded events (code, detail), whether it is the verdict instance,
and LOCAL of R406 by group. -/
structure Instance where
  arrivals  : List ClArrival
  startTime : Word64
  fn        : BitVec 28
  base      : Nat
  len       : Nat
  lens      : List Nat
  recvLens  : List Nat
  stamp     : Word64
  readies   : List Nat
  arrives   : List Nat
  queued    : List (Nat × OutFrame)
  got       : Nat
  own       : Nat
  tags      : Nat
  stale     : List Nat
  events    : List (Byte × Nat)
  verdict   : Bool
  localSsq  : List Word32
  seen      : List (Nat × Nat)
  differ    : List Nat
  deriving DecidableEq, Repr

/-- The verdict collective of a step after its data phase (R409 to R411): start time, length vector, the own chunk's
flags, BLEED blocks, the sums of R406 by group, whether the own side record was sent, the Y-leg result, frames of the
flag plane received (chunk, frame, bytes), whether the tables are built, whether the X leg was entered and whether the
verdict is known. -/
structure SideRun where
  startTime : Word64
  lens      : List Nat
  flags     : List (BitVec 2)
  bleed     : Nat
  localSsq  : List Word32
  reducedSsq : List Word32
  sent      : Bool
  yResult   : Option (BitVec 16)
  plane     : List (Nat × Nat × List Byte)
  built     : Bool
  inXleg    : Bool
  known     : Option (BitVec 16)
  deriving DecidableEq, Repr

/-- A READY or ARRIVE held for an instance not yet started: KIND, ring index and payload. -/
structure EarlyMsg where
  ready   : Bool
  index   : Nat
  payload : List Byte
  deriving DecidableEq, Repr

/-- Collective descriptor i (Table 12-1, Table 12-10): its 128 bytes, state, gather tag, last status, number of the
current or next instance; the status new arrivals take in FAILED (R415); the running instance; arrivals counted for
the instance to start and arrivals beyond (R398); messages held for it; the verdict collective's exchange; and side or
X-leg records by ring index, whole and in part. -/
structure Colld where
  words   : Vector Word64 16
  state   : CollState
  tagOut  : Bool
  last    : Byte
  tag     : Word64
  inst    : Word64
  failed  : Byte
  now     : Option Instance
  arrived : List ClArrival
  next    : List ClArrival
  early   : List EarlyMsg
  side    : Option SideRun
  records : List (Nat × List Byte)
  parts   : List (Nat × List Byte)
  deriving DecidableEq, Repr

/-- Collective control (Table 12-9), the arrivals on their way to each engine (R240), and the stopping faults of buffer
accesses in the present command (R206): descriptor, code of Table 7-9, address. -/
structure Coll where
  cfg       : Word32
  cmdStatus : Word32
  descs     : Sparse Colld
  inbox     : Vector (List ClArrival) 2
  stopped   : List (Nat × Byte × Nat)
  deriving DecidableEq, Repr

/-! ### Sheets and the host stream port -/

/-- SHEET[p] (Table 13-8) and its engine (R429 to R434): page bases, next piece, update count taken, take time and time
of the last page write, slots of the twin's negative of its count that are complete there though its stream is over,
poisoned pages, page digests, the CRC of the page being shipped, the token bucket (tenths of
a byte) with the time it was last filled, and for a piece of the negative whether its reads were sent and what has come
back. -/
structure Sheet where
  ctl      : Word32
  atCount  : Word64
  list     : Word64
  listN    : Word32
  host     : Word64
  status   : Word32
  shipped  : Word64
  taken    : Word64
  pages    : List Nat
  piece    : Nat
  count    : Word64
  takeTime : Word64
  kept     : List Nat
  poisoned : List Nat
  digests  : List Word64
  crc      : Word64
  writeTime : Word64
  bucket   : Nat
  filled   : Word64
  asked    : Bool
  buffer   : List (Nat × List Byte × Bool)
  deriving DecidableEq, Repr

/-- A host transfer in an HSP queue (R427): the cell's mover entry, the deadline, the partition and region, bytes
moved, whether it was counted at risk (R428), and its place in the order of arrival at FD0. -/
structure HspXfer where
  cell   : CellId
  xfer   : Fin 8
  part   : PartId
  region : Nat
  bus    : Word64
  len    : Nat
  moved  : Nat
  dead   : Word64
  risk   : Bool
  order  : Nat
  deriving DecidableEq, Repr

/-- A piece read from host memory whose completion has not arrived (R532). -/
structure HspRead where
  cell : CellId
  xfer : Fin 8
  off  : Nat
  len  : Nat
  order : Nat
  deriving DecidableEq, Repr

/-- The HSP engine (R427, R435): registers, the two queues, reads outstanding, sheet pieces of the last 16, and the
writes to host memory the last HSP command issued, in order (bus address and bytes), and the number of transfers that have arrived. -/
structure Hsp where
  cfg     : Word32
  late    : Word64
  atRisk  : Word64
  toHost  : List HspXfer
  toPkg   : List HspXfer
  reads   : List HspRead
  recent  : List Bool
  out     : List (Word64 × List Byte)
  next    : Nat
  deriving DecidableEq, Repr

/-! ### Twins -/

/-- Owner's state of a listed page (Table 14-3). -/
inductive PageState where
  | unsent | inFlight | staged (slot : Nat) | acked
  deriving DecidableEq, Repr

/-- A negative buffer the package holds for its twin (R441): its state, count, pages, valid slots with their
digests. -/
structure Negative where
  state   : BitVec 2
  count   : Word64
  pages   : Nat
  valid   : Sparse (Option Word64)
  deriving DecidableEq, Repr

/-- A record slot (R449, R451). -/
structure RecSlot where
  used   : Bool
  step   : Word64
  count  : Word64
  sealed_ : Bool
  commit : Bool
  deriving DecidableEq, Repr

/-- A twin message in the mailbox (R452), its bytes. -/
abbrev TwinMsg := List Byte

/-- A restore in progress (R460). -/
inductive Restore where
  | none | pages (sel : Fin 2) | record (sel : Fin 2) | tables
  deriving DecidableEq, Repr

/-- TWIN[p] (Tables 14-11 to 14-14) and its engine. As owner: the pages by slot, their states and digests, whether the
holder that ARM paired has reported a negative complete, the count being streamed, the count the page states are of, the next background slot, pages to send again and how often each was, whether MANIFEST was sent, the
step whose body is with the twin, whether its seal is acknowledged, whether a HELLO is awaited, whether TWIN_LOST was
written (R438), pages asked for by held writes (R448), whether a partition reset paused the stream (R442), the twin's
HOLD_BASE, H and J and its record slots in use, the verdict of the record to refix (R462), the token bucket of background
pages in tenths of a byte and when it was filled (R446), what the twin's record slots hold (R451), the step that made an
update count (count and step, R455), pages that writes of the management path wait for (R447), and of a restore whether it
awaits HELLO and what it has read: address, bytes, poisoned (R460). As holder: messages and claims (slot, count, digest) not
yet handled, the parts of a MANIFEST received, both negatives and record slots. -/
structure Twin where
  ctl        : Word32
  peer       : Word32
  holdBase   : Word64
  ftBase     : Word64
  holdCfg    : Word32
  param      : Word64
  refixRec   : Word64
  list       : Word64
  listN      : Word32
  restoreDest : Word64
  restoreStat : Word32
  status     : Word32
  negDone    : Word64
  batch      : Vector Word64 4
  pagesSent  : Word64
  firstTouch : Word64
  resends    : Word64
  holdNs     : Word64
  slots      : List Nat
  pageState  : Sparse PageState
  digests    : Sparse Word64
  negHeld    : Bool
  streaming  : Option Word64
  streamCount : Word64
  nextSlot   : Nat
  resendQ    : List Nat
  manifestSent : Bool
  bodyStep   : Option Word64
  sealAck    : Bool
  helloWait  : Bool
  lostRecorded : Bool
  inbox      : List TwinMsg
  claims     : List (Nat × Nat × Word64)
  buffers    : Vector Negative 2
  records    : Vector RecSlot 2
  restore    : Restore
  held       : List Nat
  resent     : Sparse Nat
  paused     : Bool
  peerBase   : Nat
  peerPages  : Nat
  peerRecs   : Nat
  peerUsed   : BitVec 2
  refixWord  : BitVec 16
  bucket     : Nat
  filled     : Word64
  sentRecs   : Vector RecSlot 2
  manIn      : List Byte
  madeBy     : Word64 × Word64
  mgmtWaits  : List Nat
  restoreAsk : Bool
  restoreGot : List (Nat × List Byte × Bool)
  deriving DecidableEq, Repr

/-! ### Faults and resets -/

/-- An error record (Table 15-2) before its SEQ and CRC are assigned. -/
structure ErrRec where
  time     : Word64
  step     : Word64
  addr     : Word64
  syndrome : Word32
  detail   : Word32
  status   : BitVec 16
  job      : BitVec 16
  die      : Byte
  cell     : Byte
  ctx      : Byte
  engine   : Byte
  severity : Byte
  action   : Byte
  origin   : Word32
  deriving DecidableEq, Repr

/-- Reset levels (Table 15-6). -/
inductive ResetLevel where
  | context | engine | partition | chip | powerCycle
  deriving DecidableEq, Repr

/-- A reset in progress (R478 to R484): level, scope, cause code of Table 15-12, start time, whether it has been carried out,
and how many resets have merged into it or were taken over by it (R492). -/
structure Reset where
  level : ResetLevel
  cell  : CellId
  slot  : SlotId
  eng   : BitVec 4
  part  : PartId
  cause : BitVec 4
  start : Word64
  done  : Bool
  merged : Nat
  deriving DecidableEq, Repr

/-- Fault and reset registers (Tables 15-10, 15-12), record queues of the six dies (R474), the AUX log with SEQ,
resets in progress, the phase of a chip reset, and the watchdog's stamps of engines seen without progress (key
engine number, value the progress count last seen). -/
structure Faults where
  faultCfg  : Word64
  resetStat : Word64
  errSeq    : Word64
  errStatus : Word32
  resetCnt  : Vector Word64 5
  queues    : Vector (List ErrRec) 6
  overflow  : Vector Nat 6
  log       : List (Word64 × List Byte)
  resets    : List Reset
  chipPhase : Option (Fin 8)
  progress  : Sparse Nat
  sampled   : Sparse Nat
  lastCode  : BitVec 16
  deriving DecidableEq, Repr

/-! ### Power -/

/-- PWR_DIE[d] (Tables 16-7, 16-8) and the meter's state of a compute die: stretch by the cap and by droop in sixteenths
and since when it is counted, the point being changed to and since when (R495), held under a hot stack, held by the
junction limit, the point down to which a hot stack accounts for the window's operation and whether the window began below
it (R505), and how far its MCLK and CCLK are into a cycle (in 1/16000 of a nanosecond's cycle at 1 MHz). -/
structure PwrDie where
  cfg        : Word32
  cfgShadow  : Word32
  status     : Word32
  throttleNs : Word64
  thermNs    : Word64
  stretchNs  : Word64
  droops     : Word64
  capStretch : Nat
  droopStretch : Nat
  since      : Word64
  target     : Option (BitVec 4)
  moved      : Word64
  hotHold    : Bool
  overTemp   : Bool
  hotBound   : Nat
  below      : Bool
  mclkAt     : Nat
  cclkAt     : Nat
  deriving DecidableEq, Repr

/-- The meter's estimate of one of the six dies, in milliwatts: gain (units of 2⁻¹⁶), latest estimate, sum over the 10 ms
window with the stacks charged to the die, sums over the 100 µs window of the die and of its stacks, their counts, the
averages of the last 100 µs window, drift windows, counters last reported, the junction sensors (eighths of a degree). -/
structure MeterDie where
  gain     : Nat
  lastEst  : Nat
  sumEst   : Nat
  numEst   : Nat
  winEst   : Nat
  winStk   : Nat
  winNum   : Nat
  avg      : Nat
  avgStk   : Nat
  drift    : Nat
  counters : List Nat
  sensors  : Vector (BitVec 16) 16
  deriving DecidableEq, Repr

/-- A phase table entry (R499): the register of Table 16-9, learned power per die (milliwatts, of a compute
die at point 14), windows since it last matched, and how often each entry followed it. -/
structure Phase where
  sig     : Word64
  power   : Vector Nat 6
  age     : Nat
  follows : Vector Nat 16
  deriving DecidableEq, Repr

/-- AGE[d] (Table 16-10): status, offsets of the 15 points, slack at the last reading, withdrawn points, the offset of
VDD_CELL, and HOURS at the last re-plan (R512). -/
structure Age where
  status   : Word32
  offsetLo : Word64
  offsetHi : Word64
  slack    : BitVec 16
  lost     : BitVec 15
  cell     : BitVec 8
  planned  : Word64
  deriving DecidableEq, Repr

/-- The rails of Table 16-1 in units of 0.25 mV; 0 while they are removed. VDD_PLATE of a die that changes its point is
the voltage the change began at. -/
structure Rails where
  plate  : Vector Nat 4
  cell   : Vector Nat 4
  sram   : Vector Nat 4
  xio    : Vector Nat 4
  stk    : Vector Nat 16
  stkq   : Vector Nat 16
  fab    : Vector Nat 2
  serdes : Vector Nat 2
  deriving DecidableEq, Repr

/-- The meter (Tables 16-5 to 16-10). -/
structure Power where
  cap       : Word32
  capShadow : Word32
  emerg     : Word32
  ctl       : Word32
  status    : Word64
  therm     : Word32
  energy    : Word64
  dies      : Vector PwrDie 4
  meter     : Vector MeterDie 6
  phases    : Vector Phase 16
  current   : Option (Fin 16)
  runLen    : Nat
  applyHeld : Bool
  ages      : Vector Age 6
  ageCfg    : Word32
  sigCounts : List Nat
  rails     : Rails
  deriving DecidableEq, Repr

/-! ### Host, management, tray -/

/-- A firmware bank (R537): its image bytes and security version. -/
structure Bank where
  image : List Host.Cell
  svn   : Word32
  version : Word32
  deriving DecidableEq, Repr

/-- What the model holds of a port's configuration space (Table 17-2): the command register, BAR0 and BAR2, and of the
HCP's MSI-X capability the enable (bit 1) and the function mask (bit 0). -/
structure PciePort where
  command : BitVec 16
  bar0    : Word64
  bar2    : Word64
  msixCtl : BitVec 2
  deriving DecidableEq, Repr

/-- Host interface registers (Tables 17-14, 17-15), mailbox buffers, the next SEQ for the ring, how many messages of each MSI-X
vector were sent, when vector 0 last was raised and whether it is due (R529), the reply computed and not yet written (R527),
the last record written to the ring (bus address and bytes), the ports' link state, what the host's last read
returned (none where it completed with Unsupported Request) and whether it got Request Retry Status, the configuration
spaces, and the MSI-X table (address, data, vector control) with its pending bits (Table 17-4). -/
structure HostIf where
  region     : Sparse (Word64 × Word64)
  doorbell   : Sparse Word32
  mboxCtl    : BitVec 3
  request    : List Byte
  reply      : List Byte
  ringBase   : Word64
  ringCtl    : Word32
  ringHead   : Word64
  ringTail   : Word64
  ringDrop   : Word64
  ringNext   : Word64
  msix       : Vector Nat 16
  vec0At     : Option Word64
  vec0Due    : Bool
  answer     : Option (List Byte)
  ringOut    : Option (Word64 × List Byte)
  hcpUp      : Bool
  hspUp      : Bool
  lastRead   : Option Word64
  retried    : Bool
  hcp        : PciePort
  hsp        : PciePort
  vectors    : Vector (Word64 × Word32 × Word32) 16
  pend       : BitVec 16
  deriving DecidableEq, Repr

/-- The management core (R485, R536, R537) and identity (Table 17-1): running, the time of the last missed heartbeat,
firmware banks, active bank and the bank the next restart runs, SVN_MIN, trust anchors (enable and digest), the debug
nonce, SPDM state: version and algorithms negotiated, the messages a signature covers, the last response, and a request
that waits for a management restart with its code (R548); management
frames received, the nodes an MREQ of its own is in flight to, each with its reserved MRSP entry, those an MPOST is in flight to
with the time it left (R366), and the register accesses that the register ring had to repeat (R25). -/
structure Mgmt where
  running   : Bool
  missedAt  : Option Word64
  banks     : Vector Bank 2
  active    : Fin 2
  nextBank  : Option (Fin 2)
  svnMin    : Word32
  azonatis  : Bool
  anchors   : Vector (Option (BitVec 384)) 4
  nonce     : Option (BitVec 256)
  spdmVer   : Nat
  spdmAlg   : Bool
  spdmLog   : List Byte
  spdmReply : List Byte
  spdmWait  : Option (Byte × List Byte)
  mntIn     : List Frame
  pool      : List (BitVec 16)
  posts     : List (BitVec 16 × Word64)
  regRetries : Nat
  deriving DecidableEq, Repr

/-- The tray's side (R539 to R545): the shadow words, the hold of R542, ALERT, ALERT_EN, TSB_ERRS, EMERG_W and its
source, TSB_D where the package drives it (R538), the owner area of the FRU store, the SMBus address, a write being stored (R545), whether the
last transaction was NACKed and the bytes the last read returned. -/
structure Tray where
  words    : Sparse (BitVec 16)
  hold     : Vector (BitVec 16) 3
  refresh  : BitVec 16
  valid    : Bool
  alert    : BitVec 6
  alertEn  : BitVec 6
  errs     : BitVec 16
  emergW   : BitVec 16
  emergSrc : BitVec 2
  data     : Option (BitVec 16)
  fru      : List Host.Cell
  smAddr   : BitVec 13
  smStore  : Option (Nat × List Byte)
  smNack   : Bool
  smData   : List Byte
  deriving DecidableEq, Repr

/-- A slice of self-test in progress: its item, whether its rotation has ended without result (R560), whether the item
carries nothing, in rotation or in place, when it started, and in yield mode the test intervals used (R561). -/
structure Slice where
  item  : TestItem
  void  : Bool
  full  : Bool
  start : Word64
  used  : Nat
  deriving DecidableEq, Repr

/-- Self-test, debug and test-access state (Tables 18-5 to 18-8, R558 to R571): for each die the slice in progress; the
rotations with the spare each holds; the nanoseconds of test each item has had in its class's pass, with whether they were
in rotation or in place; since when the share of each land group is out, and whether it has been found failed (R556); and the
test access port: its instruction, the data register it captured, the boundary register, whether the IEEE 1687 network is open. -/
structure SelfTest where
  ctl      : Word32
  cls      : Vector Word64 4
  limit    : Word32
  pinFault : Word32
  patStat  : Word32
  pat      : Option Word64
  last     : Vector Word64 4
  slices   : Vector Word64 4
  yields   : Vector Word64 4
  found    : Vector Word64 4
  running  : Vector (Option Slice) 6
  rotation : List (TestItem × Nat)
  tested   : List (TestItem × Nat × Bool)
  pinOut   : Vector (Option (Word64 × Bool)) 32
  stDebug  : Word64
  debugEnd : Word64
  slCtl    : Word32
  slSel    : Vector Word32 32
  slLat    : BitVec 16
  tapIr    : Byte
  tapDr    : List Bool
  boundary : List Bool
  ijtag    : Bool
  deriving DecidableEq, Repr

/-- The supplies and STARTUP_STATUS (R551, R555, R593 to R595), the nanoseconds the core rails have been on
(R512: AGE[d].HOURS), and the dies held in reset (R481, R546). -/
structure Startup where
  status   : Word64
  aux      : Bool
  v12      : Bool
  coreOn   : Bool
  onNs     : Nat
  held     : BitVec 6
  deriving DecidableEq, Repr

/-- The package. `pending` is the queue of commands, first in, first out; `freeCtr` counts the free values drawn. -/
structure State where
  pending : List Instr
  freeCtr : Nat
  time    : Word64
  copies  : Vector Word64 6
  cells   : Vector Cell 64
  steps   : Vector Step 4
  parts   : Vector Part 4
  partCtl : Word64
  groups  : Vector GradGroup 256
  stackSet : Vector Stack 16
  mem     : MemCtl
  xds     : Vector Xd 8
  ports   : Vector Port 12
  fabs    : Vector Fab 2
  route   : Routing
  coll    : Coll
  hsp     : Hsp
  sheets  : Vector Sheet 4
  twins   : Vector Twin 4
  faults  : Faults
  power   : Power
  host    : HostIf
  mgmt    : Mgmt
  tray    : Tray
  test    : SelfTest
  start   : Startup
  deriving DecidableEq, Repr

/-! ### Why a command can stop -/

/-- Faults of a command. -/
inductive Fault where
  /-- Raised by a command whose operand does not have the size its row gives it (a frame without 256 payload bytes, a
  beat without 128 words): no such event exists, so the model stops. Safe. -/
  | illFormed
  deriving DecidableEq, Repr

/-- Refusals of a command. -/
inductive Refusal where
  /-- Raised by the dispatch arm of a command that has no meaning yet. Safe. -/
  | notModelled (mnemonic : String)
  deriving DecidableEq, Repr

/-! ### Reset values -/

/-- Grain at reset (Table 5-12). -/
def Grain.reset : Grain := ⟨0, false, 0, 0, 0, 0, []⟩

/-- An EMPTY slot at reset (Tables 6-13, 6-14, 8-6, 8-7). -/
def Slot.reset : Slot :=
  { ctx := Ctx.initial, job := 0, state := .empty, endCause := 0, isaCtl := 1, ctxFault := 0, ctxCtl := 0,
    wakeTime := 0, wake := .none, grain := Grain.reset, wait := .none, seqNext := 0, stopping := false,
    faultSeq := 0, openDone := false }

/-- A latch without owner and at count 0 (R250). -/
def Latch.reset : Latch := ⟨0, none⟩

/-- Cell registers at reset (Tables 4-9 to 4-13, 5-13 to 5-16, 7-10, 7-17, 8-8, 8-9). -/
def CellRegs.reset : CellRegs :=
  { plateCfg := 5, plateFault := 0, plateDbg := 0, plateRow := 0, plateMac := 0, classRow := Vector.replicate 4 0,
    classMac := Vector.replicate 4 0, plateHold := 0, plateIdle := 0,
    optStatus := 0, vecFault := 0, vecBeat := 0, vecOptElem := 0, coreFault := 0, coreIssue := 0, coreStall := 0,
    stall := 0, dmFault := 0, dmLate := 0, clFault := 0, latchSpin := 0, ctxSwitch := 0, slotCfg := 0x00003260,
    epi := Vector.replicate 4 0x0FE0000000000000, traceCtl := 0x000C0000, traceBase := 0, traceHead := 0 }

/-- Idle engines with empty queues. -/
def Engines.reset : Engines :=
  { plateQ := [], plateNext := 0, plateRun := [], tiles := [], inflight := [], vatClear := false, vecQ := [], vecRun := none, optRun := none,
    results := [], restore := false, moverQ := [], xfers := Vector.replicate 8 none, clQ := [],
    clPending := [], traceQ := [], traceErr := false }

/-- A cell at reset: both slots EMPTY, cell store and vat zero (R259). -/
def Cell.reset : Cell :=
  { regs := CellRegs.reset, store := ProtMem.empty, vat := ProtMem.empty, vatLive := 0, eng := Engines.reset,
    slots := Vector.replicate 2 Slot.reset, latches := Vector.replicate 64 Latch.reset, signals := [],
    running := none, switch := .none, grace := false, stopBits := 0, frozen := false }

/-- STEP[p] at reset (Tables 2-5 to 2-8), its step latches armed (R254). -/
def Step.reset : Step :=
  { index := 0, updateCount := 0, skipCount := 0, inputPos := 0, jobSeed := 0, status := 0, verdict := 0,
    ctl := 0x13886402, ctlShadow := 0x13886402, armed := true, stage := .idle, stopWord := none,
    delivered := none, fade := false, poisonFound := false, refix := false }

/-- A range register value of R277: EN, VIEW, LAST_G and FIRST_G. -/
def rangeWord (en view : Bool) (last first : BitVec 11) : Word64 :=
  BitVec.ofBool en ++ (BitVec.ofBool view ++ ((0 : BitVec 19) ++ (last ++ ((0 : BitVec 21) ++ first))))

/-- PART[p] after chip reset (R272): partition 0 has every cell and both views whole, the others nothing; buckets
disabled with BURST 0x010 (Table 9-12). -/
def Part.reset (p : Nat) : Part :=
  let ranges : Vector Word64 4 :=
    if p = 0 then #v[rangeWord true false 2047 0, rangeWord true true 2047 0, 0, 0] else Vector.replicate 4 0
  let cells : Word64 := if p = 0 then BitVec.allOnes 64 else 0
  { cells := cells, cellsPending := cells, range := ranges, rangePending := ranges,
    stack := Vector.replicate 16 0x0000100000000000, stackShadow := Vector.replicate 16 0x0000100000000000,
    tokens := Vector.replicate 16 0, waited := false, epoch := 0, held := 0, borrowed := 0, cfgApply := 0, collSide := 0,
    verdictSeen := false }

/-- GRAD_GROUP[g] at reset (Tables 3-8 to 3-10). -/
def GradGroup.reset : GradGroup :=
  { cfg := 0x01001000, cfgShadow := 0x01001000, base := 0, baseShadow := 0, blocks := 0, blocksSh := 0, status := 0,
    bleeds := 0, newFades := 0, faded := 0 }

/-- A channel with nothing counted. -/
def Channel.reset : Channel :=
  { windowCe := 0, reported := false, crcCount := 0, committed := [], failed := [], broken := [], carried := none, writeBack := [],
    scrub := 0, params := none }

/-- MEM[n] at reset (Tables 9-10, 9-13, 9-14); not trained yet (R552). -/
def Stack.reset : Stack :=
  { mappedOut := 0, relocated := false, mapoutReq := 0, eccCnt := 0, therm := 0, cooler := 0, thermTok := 0,
    margin := 0, marginErr := 0, pages := [], channels := Vector.replicate 32 Channel.reset, requests := [],
    trained := false, lost := true, bursts := 0, wire := none }

/-- Memory control at reset (Tables 9-11, 9-13, 9-14). -/
def MemCtl.reset : MemCtl :=
  { memCtl := 0, eccCfg := 0x0100, thermCfg := 0x3126, scrubCtl := 0x80000018, pageStatus := 0,
    pageCmd := none, dram := ProtMem.empty, moved := [], prepaid := [] }

/-- A direction at full width with every credit (R323), before training. -/
def XdDir.reset : XdDir :=
  { spareUsed := 0, failed := 0, lastEvent := 0, errCnt := 0, beats := 0, width := 0, altClk := 0, primBad := 0,
    altBad := 0, steered := [], window := 0, windowCe := [], told := [], credits := Vector.replicate 3 64, pending := none,
    resume := 0, waiting := [], buffers := Vector.replicate 3 [], passed := Vector.replicate 3 [], fill := 0x7FFFFFFF,
    forced := 0, params := none, carried := none }

/-- XD[j] at reset (Table 10-7). -/
def Xd.reset : Xd := ⟨0x10, false, false, Vector.replicate 2 XdDir.reset⟩

/-- PORT[k] at reset (Table 11-12), WIDTH down. -/
def Port.reset : Port :=
  { status := 0x60000000, ctl := 0x80000040, peer := 0, txFrames := 0, rxFrames := 0, replays := 0, lseq := 0xFF,
    lack := 0xFF, replay := [], lnak := false, lnakRun := 0, busy := 0, resend := [], reserved := 0, waits := [],
    replayAsk := false, lanes := List.range 8, outLanes := List.range 8, outFailed := 0, lateLanes := [], sent := none,
    turnBack := [], onward := [], chosen := 3, params := none, challenge := 0, idents := ([], []), answer := [], asym := 0, offset := 0, depthSeen := 0xFF,
    rxStamp := 0, rxTime := 0 }

/-- FAB[f] at reset (Tables 11-14, 11-15). -/
def Fab.reset : Fab :=
  { grantTx := [], grantRx := [], robCfg := 0x0400, deflect := 0, expired := 0, stale := 0, dup := 0, gap := 0,
    holdIn := 0, arrivals := [], hold := [], inject := [], outbox := [], slots := [], streams := [],
    delivered := [], credits := [], seqNext := [], sosDone := [], holdoff := false, starve := false,
    reentry := [], history := [], rotate := 0, rspUsed := 0, rtagNext := 0, collFrames := 0, collInst := 0,
    collWait := 0, collTime := 0 }

/-- A RETIRED routing slot (Tables 11-8, 11-13). -/
def RouteSlot.reset : RouteSlot := ⟨0x8FFF0000, [], [], .retired⟩

/-- Routing and time at cold power-on (Tables 11-13, 11-16): every darkslide pair closed. -/
def Routing.reset : Routing :=
  { routeCtl := 0, epoch := 0, slots := Vector.replicate 2 RouteSlot.reset, applyHeld := false,
    ageCfg := 0x20020400, timeStatus := 0, nodeId := 0, timeCtl := 0, darkClosed := 0x3F, darkReq := false,
    reqHigh := false, darkCnt := 0, firstLock := false, omitTick := false, slewAt := none, anyOpen := false, ringJoins := 0x3F,
    fullTrained := false }

/-- An IDLE descriptor of zeros (Table 12-10). -/
def Colld.reset : Colld :=
  { words := Vector.replicate 16 0, state := .idle, tagOut := false, last := 0, tag := 0, inst := 0, failed := 0,
    now := none, arrived := [], next := [], early := [], side := none, records := [], parts := [] }

/-- Collective control at reset (Table 12-9). -/
def Coll.reset : Coll := ⟨0x006403E8, 0, [], Vector.replicate 2 [], []⟩

/-- The HSP at reset (Table 13-7). -/
def Hsp.reset : Hsp := ⟨0x20000000, 0, 0, [], [], [], [], [], 0⟩

/-- SHEET[p] at reset (Table 13-8). -/
def Sheet.reset : Sheet :=
  { ctl := 0, atCount := 0, list := 0, listN := 0, host := 0, status := 0, shipped := 0, taken := 0, pages := [],
    piece := 0, count := 0, takeTime := 0, poisoned := [], kept := [], digests := [], crc := 0, writeTime := 0, bucket := 0,
    filled := 0, asked := false, buffer := [] }

/-- An EMPTY negative buffer (Table 14-2). -/
def Negative.reset : Negative := ⟨0, 0, 0, []⟩

/-- A free record slot. -/
def RecSlot.reset : RecSlot := ⟨false, 0, 0, false, false⟩

/-- TWIN[p] at reset (Tables 14-11 to 14-14). -/
def Twin.reset : Twin :=
  { ctl := 0x07D0, peer := 0, holdBase := 0, ftBase := 0, holdCfg := 0, param := 0, refixRec := 0, list := 0,
    listN := 0, restoreDest := 0, restoreStat := 0, status := 0, negDone := 0, negHeld := false, batch := Vector.replicate 4 0,
    pagesSent := 0, firstTouch := 0, resends := 0, holdNs := 0, slots := [], pageState := [], digests := [],
    streaming := none, streamCount := 0, nextSlot := 0, resendQ := [], manifestSent := false, bodyStep := none, sealAck := false,
    helloWait := false, lostRecorded := false, inbox := [], claims := [],
    buffers := Vector.replicate 2 Negative.reset, records := Vector.replicate 2 RecSlot.reset, restore := .none,
    held := [], resent := [], paused := false, peerBase := 0, peerPages := 0, peerRecs := 0,
    peerUsed := 0, refixWord := 0, bucket := 10 * 2 ^ 22, filled := 0, sentRecs := Vector.replicate 2 RecSlot.reset, manIn := [],
    madeBy := (0, 0), mgmtWaits := [], restoreAsk := false, restoreGot := [] }

/-- Fault registers at reset (Tables 15-10, 15-12). -/
def Faults.reset : Faults :=
  { faultCfg := 0x271003E800647D00, resetStat := 0, errSeq := 0, errStatus := 0, resetCnt := Vector.replicate 5 0,
    queues := Vector.replicate 6 [], overflow := Vector.replicate 6 0, log := [], resets := [], chipPhase := none,
    progress := [], sampled := [], lastCode := 0 }

/-- PWR_DIE[d] at reset (Table 16-7). -/
def PwrDie.reset : PwrDie :=
  { cfg := 0x001E100E, cfgShadow := 0x001E100E, status := 0x0E000000, throttleNs := 0, thermNs := 0,
    stretchNs := 0, droops := 0, capStretch := 0, droopStretch := 0, since := 0, target := none, moved := 0,
    hotHold := false, overTemp := false, hotBound := 14, below := false, mclkAt := 0, cclkAt := 0 }

/-- A die's estimate with gain 1. -/
def MeterDie.reset : MeterDie :=
  { gain := 65536, lastEst := 0, sumEst := 0, numEst := 0, winEst := 0, winStk := 0, winNum := 0, avg := 0, avgStk := 0,
    drift := 0, counters := [], sensors := Vector.replicate 16 0 }

/-- A phase entry never filled (R519). -/
def Phase.reset : Phase := ⟨0, Vector.replicate 6 0, 0, Vector.replicate 16 0⟩

/-- AGE[d] on a new package. -/
def Age.reset : Age := ⟨0, 0, 0, 0, 0, 0, 0⟩

/-- No rail is up. -/
def Rails.off : Rails :=
  { plate := Vector.replicate 4 0, cell := Vector.replicate 4 0, sram := Vector.replicate 4 0, xio := Vector.replicate 4 0,
    stk := Vector.replicate 16 0, stkq := Vector.replicate 16 0, fab := Vector.replicate 2 0,
    serdes := Vector.replicate 2 0 }

/-- The meter at reset (Tables 16-5 to 16-10). -/
def Power.reset : Power :=
  { cap := 0x0ED8, capShadow := 0x0ED8, emerg := 0, ctl := 0x18040028, status := 0x00000ED800000000,
    therm := 0x0000640A, energy := 0, dies := Vector.replicate 4 PwrDie.reset,
    meter := Vector.replicate 6 MeterDie.reset, phases := Vector.replicate 16 Phase.reset, current := none,
    runLen := 0, applyHeld := false, ages := Vector.replicate 6 Age.reset, ageCfg := 0x14,
    sigCounts := [], rails := Rails.off }

/-- A configuration space at reset. -/
def PciePort.reset : PciePort := ⟨0, 0, 0, 0⟩

/-- Host interface at reset (Tables 17-14, 17-15), links down; every MSI-X vector is masked (PRESUMED, log entry 56). -/
def HostIf.reset : HostIf :=
  { region := [], doorbell := [], mboxCtl := 0, request := [], reply := [], ringBase := 0, ringCtl := 0x0008000A,
    ringHead := 0, ringTail := 0, ringDrop := 0, ringNext := 0, msix := Vector.replicate 16 0, vec0At := none,
    vec0Due := false, answer := none, ringOut := none, hcpUp := false, hspUp := false, lastRead := none,
    retried := false, hcp := PciePort.reset, hsp := PciePort.reset, vectors := Vector.replicate 16 (0, 0, 1), pend := 0 }

/-- The management core as manufactured: both banks as programmed then, bank 0 active (DESIGN CHOICE, log entry 16). -/
def Mgmt.reset : Mgmt :=
  { running := true, missedAt := none,
    banks := #v[⟨[], Config.fwSvn 0 [], Config.fwVersion 0 []⟩, ⟨[], Config.fwSvn 1 [], Config.fwVersion 1 []⟩],
    active := 0, nextBank := none, svnMin := Config.svnMin, azonatis := true,
    anchors := Vector.replicate 4 none, nonce := none, spdmVer := 0, spdmAlg := false, spdmLog := [], spdmReply := [], spdmWait := none,
    mntIn := [], pool := [], posts := [], regRetries := 0 }

/-- The tray's side at AUX power-on: ALERT_EN bit 0 reads 1 (Table 17-10). -/
def Tray.reset : Tray :=
  { words := [], hold := Vector.replicate 3 0, refresh := 0, valid := false, alert := 0, alertEn := 1, errs := 0,
    emergW := 0, emergSrc := 0, data := none, fru := [], smAddr := 0, smStore := none, smNack := false, smData := [] }

/-- Self-test at reset (Tables 18-1, 18-5 to 18-8), IDCODE selected (R570). -/
def SelfTest.reset : SelfTest :=
  { ctl := 0x8F000000,
    cls := #v[0x00000384003204B0, 0x00000E100014012C, 0x00015180002807D0, 0x0000003C00000000],
    limit := 0x00040C14, pinFault := 0, patStat := 0, pat := none, last := Vector.replicate 4 0,
    slices := Vector.replicate 4 0, yields := Vector.replicate 4 0, found := Vector.replicate 4 0,
    running := Vector.replicate 6 none, rotation := [], tested := [],
    pinOut := Vector.replicate 32 none,
    stDebug := 0, debugEnd := 0, slCtl := 0x00140000, slSel := Vector.replicate 32 0, slLat := 0, tapIr := 0x01, tapDr := [],
    boundary := [], ijtag := false }

/-- Cold power-on: both supplies in their limits, cores not yet powered, COLD 1 and PHASE 0x1 (Table 17-16). -/
def Startup.reset : Startup := ⟨0x201, true, true, false, 0, 0⟩

/-- The package right after cold power-on (R551 phase 0x1): every register at its reset value, nothing queued. -/
def State.reset : State :=
  { pending := [], freeCtr := 0, time := 0, copies := Vector.replicate 6 0, cells := Vector.replicate 64 Cell.reset,
    steps := Vector.replicate 4 Step.reset,
    parts := #v[Part.reset 0, Part.reset 1, Part.reset 2, Part.reset 3], partCtl := 0,
    groups := Vector.replicate 256 GradGroup.reset, stackSet := Vector.replicate 16 Stack.reset, mem := MemCtl.reset,
    xds := Vector.replicate 8 Xd.reset, ports := Vector.replicate 12 Port.reset,
    fabs := Vector.replicate 2 Fab.reset, route := Routing.reset, coll := Coll.reset, hsp := Hsp.reset,
    sheets := Vector.replicate 4 Sheet.reset, twins := Vector.replicate 4 Twin.reset, faults := Faults.reset,
    power := Power.reset, host := HostIf.reset, mgmt := Mgmt.reset, tray := Tray.reset, test := SelfTest.reset,
    start := Startup.reset }

end Sys2Proof.Machine
end

