-- ==== Sys2Proof/Machine/Ecc.lean ====
section
/-!
DEFINITION. The SEC-DED code of R298 to R300 and protected memories. A protected memory holds the data of every word
and the difference between its stored bits and the code of that data; a read decodes by the syndrome of the
difference (the code is linear), and a write of a whole word stores its code.
-/
namespace Sys2Proof.Machine

/-- The columns of Table 9-6: data bits 0 to 31, then check bits 0 to 6. -/
def eccColumns : List (BitVec 7) :=
  [0x07, 0x0B, 0x0D, 0x0E, 0x13, 0x15, 0x16, 0x19, 0x1A, 0x1C, 0x23, 0x25, 0x26, 0x29, 0x2A, 0x2C] ++
  [0x31, 0x32, 0x34, 0x38, 0x43, 0x45, 0x46, 0x49, 0x4A, 0x4C, 0x51, 0x52, 0x54, 0x58, 0x61, 0x62] ++
  [0x01, 0x02, 0x04, 0x08, 0x10, 0x20, 0x40]

/-- The syndrome of 39 bits: the XOR of the columns of every bit that is 1. -/
def syndrome (w : BitVec 39) : BitVec 7 :=
  (ones w).foldl (fun c i => c ^^^ eccColumns.getD i 0) 0

/-- The check field of a data word. -/
def eccCheck (d : Word32) : BitVec 7 := syndrome (d.zeroExtend 39)

/-- The stored word of a data word. -/
def eccCode (d : Word32) : BitVec 39 := eccCheck d ++ d

/-- What reading a word finds (Table 9-7). -/
inductive WordRead where
  | good | fixedData (bit : Nat) | fixedCheck (bit : Nat) | mark | bad
  deriving DecidableEq, Repr

/-- Table 9-7. -/
def classify (syn : BitVec 7) : WordRead :=
  if syn = 0 then .good
  else if syn = 0x7F then .mark
  else
    match eccColumns.idxOf? syn with
    | some i => if i < 32 then .fixedData i else .fixedCheck i
    | none => .bad

/-- Whether a word is delivered poisoned. -/
def WordRead.poisoned : WordRead → Bool
  | .mark | .bad => true
  | _ => false

/-- Decode 39 received bits: the data delivered and what was found. -/
def eccDecode (w : BitVec 39) : Word32 × WordRead :=
  let r := classify (syndrome w)
  match r with
  | .fixedData i => (bfld (w ^^^ ((1 : BitVec 39) <<< i)) 0 32, r)
  | _ => (bfld w 0 32, r)

/-- The difference that makes a poison mark (R300). -/
def poisonDiff : BitVec 39 := 0x7F00000000

namespace ProtMem

/-- The data byte held at an address. -/
def byte (m : ProtMem) (a : Nat) : Byte := Sparse.get 0 m.bytes a

/-- The difference of the word of index `w` (byte address / 4). -/
def diff (m : ProtMem) (w : Nat) : BitVec 39 := Sparse.get 0 m.marks w

/-- `n` held bytes from an address. -/
def rawBytes (m : ProtMem) (a : Nat) : Nat → List Byte
  | 0 => []
  | n + 1 => m.byte a :: rawBytes m (a + 1) n

/-- The data word of an index. -/
def dataWord (m : ProtMem) (w : Nat) : Word32 := BitVec.ofNat 32 (ofLe (m.rawBytes (4 * w) 4))

/-- Read a word: data delivered and what was found. -/
def readWord (m : ProtMem) (w : Nat) : Word32 × WordRead :=
  if m.diff w = 0 then (m.dataWord w, .good)
  else eccDecode (eccCode (m.dataWord w) ^^^ m.diff w)

/-- Whether the word of an index is delivered poisoned. -/
def poisonedWord (m : ProtMem) (w : Nat) : Bool :=
  if m.diff w = 0 then false else (classify (syndrome (m.diff w))).poisoned

/-- The byte delivered at an address. -/
def readByte (m : ProtMem) (a : Nat) : Byte :=
  if m.diff (a / 4) = 0 then m.byte a else bfld (m.readWord (a / 4)).1 (8 * (a % 4)) 8

/-- `n` delivered bytes from an address. -/
def read (m : ProtMem) (a : Nat) : Nat → List Byte
  | 0 => []
  | n + 1 => m.readByte a :: read m (a + 1) n

/-- The delivered number of `n` bytes at an address. -/
def num (m : ProtMem) (a n : Nat) : Nat := ofLe (m.read a n)

/-- Indices of words overlapping a range whose stored bits differ from a code word. -/
def marked (m : ProtMem) (a n : Nat) : List (Nat × BitVec 39) :=
  m.marks.filter (fun p => decide (a < 4 * p.1 + 4) && decide (4 * p.1 < a + n))

/-- Indices of words overlapping a range that are delivered poisoned. -/
def poisonIn (m : ProtMem) (a n : Nat) : List Nat :=
  ((m.marked a n).filter (fun p => (classify (syndrome p.2)).poisoned)).map (·.1)

/-- Whether any word overlapping a range is delivered poisoned. -/
def anyPoison (m : ProtMem) (a n : Nat) : Bool := !(m.poisonIn a n).isEmpty

/-- Set the difference of a word. -/
def setDiff (m : ProtMem) (w : Nat) (d : BitVec 39) : ProtMem := { m with marks := Sparse.set 0 m.marks w d }

/-- Store bytes, the words' differences unchanged. -/
def putBytes (m : ProtMem) : Nat → List Byte → ProtMem
  | _, [] => m
  | a, b :: rest => putBytes { m with bytes := Sparse.set 0 m.bytes a b } (a + 1) rest

/-- Bring a word that is to be written in part to a code word holding what a read of it delivers (R301). A poisoned
word keeps its data and becomes a poison mark. -/
def mergeWord (m : ProtMem) (w : Nat) : ProtMem :=
  if m.diff w = 0 then m
  else
    let r := m.readWord w
    ((m.putBytes (4 * w) (leBytes 4 r.1.toNat)).setDiff w (if r.2.poisoned then poisonDiff else 0))

/-- Clear the differences of `n` words from index `w`. -/
def clearDiffs (m : ProtMem) (w n : Nat) : ProtMem :=
  { m with marks := m.marks.filter (fun p => !(decide (w ≤ p.1) && decide (p.1 < w + n))) }

/-- Write bytes: whole words cleanly, words written in part by read and merge (R301). -/
def write (m : ProtMem) (a : Nat) (bs : List Byte) : ProtMem :=
  let lo := (a + 3) / 4
  let hi := (a + bs.length) / 4
  let m1 := if a % 4 = 0 then m else m.mergeWord (a / 4)
  let m2 := if (a + bs.length) % 4 = 0 then m1 else m1.mergeWord ((a + bs.length) / 4)
  (m2.clearDiffs lo (hi - lo)).putBytes a bs

/-- Write a poison mark over a word, its data kept (R300). -/
def poison (m : ProtMem) (w : Nat) : ProtMem := m.setDiff w poisonDiff

/-- Write poison marks over words. -/
def poisonAll (m : ProtMem) (ws : List Nat) : ProtMem := ws.foldl poison m

/-- Set every byte and word of a range to zero with its check bits. -/
def zeroRange (m : ProtMem) (a n : Nat) : ProtMem :=
  { bytes := m.bytes.filter (fun p => !(decide (a ≤ p.1) && decide (p.1 < a + n))),
    marks := m.marks.filter (fun p => !(decide (a ≤ 4 * p.1) && decide (4 * p.1 < a + n))) }

/-- The canonical form of both lists. -/
def wf (m : ProtMem) : Bool := Sparse.wf (0 : Byte) m.bytes && Sparse.wf (0 : BitVec 39) m.marks

end ProtMem

end Sys2Proof.Machine
end

