-- ==== Sys2Proof/Machine/Ops.lean ====
section
/-!
DEFINITION. Named operations over the state: cells, slots and latches; partitions and their step; error records;
aborts, reset requests and the choice of the running context. Meanings are written over these.
-/
namespace Sys2Proof.Machine

/-- The outcome of a command. -/
abbrev Res := Host.Outcome State Fault Refusal

/-! ### Cells and slots -/

/-- Cell `c`. -/
def State.cell (s : State) (c : CellId) : Cell := vget s.cells c
/-- Replace cell `c`. -/
def State.setCell (s : State) (c : CellId) (x : Cell) : State := { s with cells := vset s.cells c x }
/-- Change cell `c`. -/
def State.modCell (s : State) (c : CellId) (f : Cell → Cell) : State := s.setCell c (f (s.cell c))
/-- Slot `i` of a cell. -/
def Cell.slot (x : Cell) (i : SlotId) : Slot := vget x.slots i
/-- Change slot `i` of a cell. -/
def Cell.modSlot (x : Cell) (i : SlotId) (f : Slot → Slot) : Cell := { x with slots := vmod x.slots i f }
/-- Change the registers of a cell. -/
def Cell.modRegs (x : Cell) (f : CellRegs → CellRegs) : Cell := { x with regs := f x.regs }
/-- Change the engines of a cell. -/
def Cell.modEng (x : Cell) (f : Engines → Engines) : Cell := { x with eng := f x.eng }
/-- The slot an instruction runs in. -/
def State.slot (s : State) (a : At) : Slot := (s.cell a.cell).slot a.slot
/-- Change that slot. -/
def State.modSlot (s : State) (a : At) (f : Slot → Slot) : State := s.modCell a.cell (fun x => x.modSlot a.slot f)
/-- Change the architectural state of that slot. -/
def State.modCtx (s : State) (a : At) (f : Ctx → Ctx) : State :=
  s.modSlot a (fun x => { x with ctx := f x.ctx })
/-- Latch `l` of a cell. -/
def Cell.latch (x : Cell) (l : BitVec 6) : Latch := vget x.latches l.toFin
/-- Replace latch `l`. -/
def Cell.setLatch (x : Cell) (l : BitVec 6) (v : Latch) : Cell := { x with latches := vset x.latches l.toFin v }

/-- The compute die of a cell (R4). -/
def dieOf (c : CellId) : DieId := ⟨c.val / 16, by omega⟩

/-- Global time as a die's copy reads (R28). -/
def State.timeOn (s : State) (d : DieId) : Word64 := vget s.copies d

/-- Each die's copy follows the counter of FD1 (R28): off by at most 2 ns, by a free value, and never going back (R15);
FD1's is the counter itself. -/
def State.keepCopies (s : State) : State :=
  { s with copies := Vector.ofFn (fun (d : Fin 6) =>
      let near := s.time.toNat + (Config.copyError d.val s.time.toNat % 5) - 2
      if d.val = 5 then s.time else BitVec.ofNat 64 (max (vget s.copies d).toNat near)) }

/-- The counter moves forward, and the copies with it. -/
def State.stepTime (s : State) (n : Nat) : State := ({ s with time := s.time + BitVec.ofNat 64 n }).keepCopies

/-! ### Nodes (R194, R348) -/

/-- Whether this package is the time master. -/
def Routing.master (r : Routing) : Bool := bit r.timeCtl 31

/-- The time master is LOCKED at DEPTH 0; any other package is not LOCKED until it has a parent (R381). -/
def Routing.root (r : Routing) : Routing :=
  { r with timeStatus := setFld (setBit r.timeStatus 43 r.master) 36 7 0 }

/-- The ACTIVE routing slot. -/
def Routing.active (r : Routing) : Option (Fin 2) := (allFin 2).find? (fun i => (vget r.slots i).state == .active)

/-- The physical node of a logical node in a routing slot's NODE_MAP (R348, R368). -/
def RouteSlot.physical (r : RouteSlot) (n : BitVec 16) : Option (BitVec 16) :=
  let x := fld n 8 8
  let y := fld n 0 8
  if x < 64 ∧ y < 128 then
    let w := Sparse.get 0 r.map (x * 128 + y)
    if bit w 31 then some (bfld w 0 16) else none
  else none

/-- The physical node of a logical node under the ACTIVE slot. -/
def State.physical (s : State) (n : BitVec 16) : Option (BitVec 16) :=
  match s.route.active with
  | none => none
  | some i => (vget s.route.slots i).physical n

/-- NODE_ID of the package. -/
def State.nodeId (s : State) : BitVec 16 := bfld s.route.nodeId 0 16

/-- Whether a node number is local: 0xFFFF, or one that maps to the package itself (R348). -/
def State.isLocal (s : State) (n : BitVec 16) : Bool := n == 0xFFFF || s.physical n == some s.nodeId

/-! ### Partitions -/

/-- Step p. -/
def State.stepOf (s : State) (p : PartId) : Step := vget s.steps p
/-- Change step p. -/
def State.modStep (s : State) (p : PartId) (f : Step → Step) : State := { s with steps := vmod s.steps p f }
/-- Partition p. -/
def State.part (s : State) (p : PartId) : Part := vget s.parts p
/-- Change partition p. -/
def State.modPart (s : State) (p : PartId) (f : Part → Part) : State := { s with parts := vmod s.parts p f }

/-- The partition that holds a cell (R268). -/
def State.partOf (s : State) (c : CellId) : Option PartId :=
  (allFin 4).find? (fun p => bit (s.part p).cells c.val)

/-- The cells of a partition, ascending. -/
def State.cellsOf (s : State) (p : PartId) : List CellId :=
  (allFin 64).filter (fun c => bit (s.part p).cells c.val)

/-- The lead cell of a partition (R32). -/
def State.leadOf (s : State) (p : PartId) : Option CellId := (s.cellsOf p).head?

/-- Whether a cell is the lead cell of its partition. -/
def State.isLead (s : State) (c : CellId) : Bool :=
  match s.partOf c with
  | none => false
  | some p => s.leadOf p == some c

/-- The phases of Table 2-1 (codes of Table 2-5). -/
inductive StepPhase where
  | closed | expose | stop | fix | aborted
  deriving DecidableEq, Repr

/-- Code of a phase. -/
def StepPhase.code : StepPhase → Nat
  | .closed => 0 | .expose => 1 | .stop => 2 | .fix => 3 | .aborted => 4

/-- Phase of a code; codes above 4 never stand in the register. -/
def StepPhase.ofCode (n : Nat) : StepPhase :=
  match n with
  | 0 => .closed | 1 => .expose | 2 => .stop | 3 => .fix | _ => .aborted

/-- The phase of a step. -/
def Step.phase (t : Step) : StepPhase := StepPhase.ofCode (fld t.status 0 3)
/-- Set the phase. -/
def Step.setPhase (t : Step) (ph : StepPhase) : Step := { t with status := setFld t.status 0 3 ph.code }
/-- COMMIT. -/
def Step.commit (t : Step) : Bool := bit t.status 4
/-- VERDICT_VALID. -/
def Step.valid (t : Step) : Bool := bit t.status 3
/-- The phase of partition p. -/
def State.phase (s : State) (p : PartId) : StepPhase := (s.stepOf p).phase
/-- The update count an instruction reads: during FIX, the one from before the increment of R48 step 3 (R51). -/
def State.countAtFix (s : State) (p : PartId) : Word64 :=
  let t := s.stepOf p
  if t.phase = .fix ∧ t.stage = .sealWait ∧ t.commit = true then t.updateCount - 1 else t.updateCount
/-- Whether a partition's phase is CLOSED. -/
def State.closed (s : State) (p : PartId) : Bool := s.phase p == .closed

/-- Whether every partition is CLOSED. -/
def State.allClosed (s : State) : Bool := (allFin 4).all (fun p => s.closed p)

/-- The phase that governs a slot: the foreground slot's partition's; none for the bubble slot or a cell in no
partition (R35, R267). -/
def State.phaseFor (s : State) (a : At) : Option StepPhase :=
  if a.slot = 0 then (s.partOf a.cell).map (fun p => s.phase p) else none

/-! ### Error records (R471 to R474) -/

/-- Severities of Table 15-3. -/
inductive Sev where
  | advisory | corrected | event | context | engine | partition | chip | power
  deriving DecidableEq, Repr

/-- Code of a severity. -/
def Sev.code : Sev → Byte
  | .advisory => 0 | .corrected => 1 | .event => 2 | .context => 3 | .engine => 4 | .partition => 5
  | .chip => 6 | .power => 7

/-- A record of a die with every field that may not apply at the value R471 gives it. -/
def State.errRec (s : State) (die : DieId) (status : BitVec 16) (sev : Sev) : ErrRec :=
  { time := s.timeOn die, step := BitVec.allOnes 64, addr := 0, syndrome := 0, detail := 0, status := status, job := 0,
    die := BitVec.ofNat 8 die.val, cell := 0xFF, ctx := 0, engine := 0xFF, severity := sev.code, action := 0,
    origin := 0 }

/-- Name a partition in a record. -/
def ErrRec.withPart (r : ErrRec) (s : State) (p : PartId) : ErrRec :=
  { r with step := (s.stepOf p).index, ctx := (r.ctx &&& 0xC7) ||| BitVec.ofNat 8 (p.val * 16 + 8) }

/-- Name a cell in a record. -/
def ErrRec.withCell (r : ErrRec) (s : State) (c : CellId) : ErrRec :=
  let r1 := { r with cell := BitVec.ofNat 8 c.val }
  match s.partOf c with
  | none => r1
  | some p => r1.withPart s p

/-- Name a context in a record (R472). -/
def ErrRec.withCtx (r : ErrRec) (s : State) (a : At) : ErrRec :=
  let r1 := r.withCell s a.cell
  { r1 with job := (s.slot a).job, ctx := r1.ctx ||| BitVec.ofNat 8 (128 + 64 * a.slot.val) }

/-- Queue a record at its die (R474). -/
def Faults.push (f : Faults) (r : ErrRec) : Faults :=
  let d : Fin 6 := ⟨r.die.toNat % 6, by omega⟩
  let q := vget f.queues d
  if q.length < 112 || decide (5 ≤ r.severity.toNat) then { f with queues := vset f.queues d (q ++ [r]) }
  else { f with overflow := vmod f.overflow d (· + 1), errStatus := satAdd f.errStatus 16 16 1 }

/-- Write an error record. -/
def State.report (s : State) (r : ErrRec) : State :=
  { s with faults := s.faults.push r }

/-- Status of a system event (Table 15-4). -/
def sysStatus (code : Byte) : BitVec 16 := (0 : BitVec 8) ++ code

/-- Status of a code of a table (Table 15-3). -/
def tblStatus (table code : Byte) : BitVec 16 := table ++ code

/-- A refused register write on FD1's side with no context named: its status and the register's die. -/
def State.sysEvent (s : State) (die : DieId) (code : Byte) (sev : Sev) (eng : Byte) : State :=
  s.report { s.errRec die (sysStatus code) sev with engine := eng }

/-- REG_WRITE_IGNORED (Table 15-4), with the die that serves the register. -/
def State.regIgnored (s : State) (die : DieId) : State := s.sysEvent die 0x0F .event 0x10

/-- Whether the holder paired by the last ARM has reported the negative of a count complete (R442, R444). -/
def Twin.hasNegative (t : Twin) (c : Word64) : Bool := t.negHeld && t.negDone == c

/-! ### Signals and latches -/

/-- Send a signal to a latch of a cell (R255). -/
def State.signal (s : State) (c : CellId) (l : BitVec 6) (n : Word32) (hw : Bool) : State :=
  s.modCell c (fun x => { x with signals := x.signals ++ [⟨l, n, hw, none⟩] })

/-- Send a step signal to a latch of every cell of a partition. -/
def State.signalAll (s : State) (p : PartId) (l : BitVec 6) : State :=
  (s.cellsOf p).foldl (fun t c => t.signal c l 1 true) s

/-- Whether a latch number is a step latch (R250). -/
def isStepLatch (l : BitVec 6) : Bool := decide (60 ≤ l.toNat)

/-- Whether a latch is owned, or a step latch that is armed (R252, R254). -/
def State.latchOwned (s : State) (c : CellId) (l : BitVec 6) : Bool :=
  if isStepLatch l then
    match s.partOf c with
    | none => false
    | some p => (s.stepOf p).armed
  else ((s.cell c).latch l).owner.isSome

/-- Whether a slot waits on a latch. -/
def Slot.waitsOn (x : Slot) (l : BitVec 6) : Bool :=
  match x.wait with
  | .latch k _ _ => k == l
  | _ => false

/-- Release a waiter on latch `l` ABANDONED (R253). -/
def Slot.release (x : Slot) (l : BitVec 6) : Slot :=
  match x.wait with
  | .latch k _ sd => if k = l then { x with wait := .abandoned sd } else x
  | _ => x

/-- LATCH_ABANDONED of a latch that releases a waiting context (R253). -/
def State.latchAbandoned (s : State) (a : At) : State :=
  s.report { (s.errRec (dieOf a.cell) (sysStatus 0x0D) .event).withCtx s a with engine := 0x0F }

/-- Write LATCH_ABANDONED where a latch releases a waiter, and release it (R253). -/
def State.releaseWaiters (s : State) (c : CellId) (l : BitVec 6) : State :=
  (allFin 2).foldl (fun t i =>
    if ((t.cell c).slot i).waitsOn l then (t.latchAbandoned ⟨c, i⟩).modSlot ⟨c, i⟩ (·.release l) else t) s

/-- Abandon one general latch (R251, R253). -/
def State.abandonLatch (s : State) (c : CellId) (l : BitVec 6) : State :=
  (s.modCell c (fun x => x.setLatch l Latch.reset)).releaseWaiters c l

/-- The general latches a slot owns. -/
def Cell.ownedBy (x : Cell) (i : SlotId) : List (BitVec 6) :=
  ((List.range 60).map (BitVec.ofNat 6)).filter (fun l =>
    match (x.latch l).owner with
    | some (j, _) => j == i
    | none => false)

/-- Abandon the general latches a slot owns, but one kept (R251, R260). -/
def State.abandonLatches (s : State) (a : At) (keep : Option (BitVec 6)) : State :=
  (((s.cell a.cell).ownedBy a.slot).filter (fun l => keep != some l)).foldl (fun t l => t.abandonLatch a.cell l) s

/-! ### Resets and aborts -/

/-- Code of a reset level in RESET_CMD and RESET_STATUS (Table 15-11). -/
def ResetLevel.code : ResetLevel → Nat
  | .context => 1 | .engine => 2 | .partition => 3 | .chip => 4 | .powerCycle => 5

/-- Whether an unfinished reset covers a cell at a level or above (R484). -/
def State.coveredBy (s : State) (r : Reset) (lvl : ResetLevel) (c : CellId) (slot : SlotId) (e : BitVec 4)
    (p : PartId) : Bool :=
  decide (lvl.code ≤ r.level.code) &&
  (match r.level with
   | .context => r.cell == c && r.slot == slot
   | .engine => r.cell == c && (lvl != .engine || r.eng == e)
   | .partition => if lvl = .partition then r.part == p else s.partOf c == some r.part
   | .chip | .powerCycle => true)

/-- Whether a reset's scope lies inside that of a new reset of a higher level, which takes it over (R484). -/
def State.takenOver (s : State) (r : Reset) (lvl : ResetLevel) (c : CellId) (p : PartId) : Bool :=
  decide (r.level.code < lvl.code) &&
  (match lvl with
   | .context => false
   | .engine => r.cell == c
   | .partition => s.partOf r.cell == some p
   | .chip | .powerCycle => true)

/-- Count a merged reset at the first of some that satisfies a test. -/
def mergeInto (f : Reset → Bool) : List Reset → List Reset
  | [] => []
  | r :: l => if f r then { r with merged := r.merged + 1 } :: l else r :: mergeInto f l

/-- Start a reset (R478, R484): merged into one in progress that covers its scope; it takes over lower ones. RESET_STATUS
keeps the START of an event through its escalations (R483, R492). -/
def State.startReset (s : State) (lvl : ResetLevel) (c : CellId) (slot : SlotId) (e : BitVec 4) (p : PartId)
    (cause : BitVec 4) : State :=
  let covers := fun (r : Reset) => s.coveredBy r lvl c slot e p
  if s.faults.resets.any covers then
    { s with faults := { s.faults with resets := mergeInto covers s.faults.resets } }
  else
    let taken := s.faults.resets.filter (fun r => s.takenOver r lvl c p)
    let kept := s.faults.resets.filter (fun r => !(s.takenOver r lvl c p))
    let began := if cause = 8 then s.faults.resetStat else setFld s.faults.resetStat 32 32 (s.time.toNat >>> 10)
    let st := setFld (setFld began 29 3 lvl.code) 25 4 cause.toNat
    { s with faults := { s.faults with
        resets := kept ++ [⟨lvl, c, slot, e, p, cause, s.time, false, (taken.map (fun r => r.merged + 1)).sum⟩], resetStat := st } }

/-- Whether a vector's messages are held back: by the function mask or its own (PRESUMED, log entry 56). -/
def HostIf.maskedVector (h : HostIf) (v : Fin 16) : Bool := bit h.hcp.msixCtl 0 || bit (vget h.vectors v).2.2 0

/-- Raise an MSI-X vector of the HCP (R530): its message is sent, or pends while it is masked. With the port down or MSI-X
not enabled nothing is sent. -/
def State.raiseVector (s : State) (v : Fin 16) : State :=
  if !(s.host.hcpUp && bit s.host.hcp.msixCtl 1) then s
  else if s.host.maskedVector v then { s with host := { s.host with pend := setBit s.host.pend v.val true } }
  else { s with host := { s.host with msix := vmod s.host.msix v (· + 1) } }

/-- Messages that pend and are masked no longer are sent. -/
def State.sendPending (s : State) : State :=
  (allFin 16).foldl (fun t v =>
    if bit t.host.pend v.val && bit t.host.hcp.msixCtl 1 && !(t.host.maskedVector v) then
      ({ t with host := { t.host with pend := setBit t.host.pend v.val false } }).raiseVector v
    else t) s

/-- Set an ALERT bit (R543); vector 3 is raised where it was 0. -/
def State.alertSet (s : State) (i : Fin 6) : State :=
  if bit s.tray.alert i.val then s
  else ({ s with tray := { s.tray with alert := setBit s.tray.alert i.val true } }).raiseVector 3

/-- A chip-level fault starts a chip reset at once (R480) and sets its ALERT bit. -/
def State.chipFault (s : State) : State := (s.alertSet 1).startReset .chip 0 0 0 0 0x9

/-! ### Values the specification leaves open -/

/-- `n` bytes the specification leaves open (log entry 3). -/
def State.freeBytes (s : State) (n : Nat) : List Byte :=
  (List.range n).map (fun i => bfld (Config.freeWord (s.freeCtr + i)) 0 8)

/-- Bytes of DRAM take values the specification leaves open. -/
def State.undefineDram (s : State) (a n : Nat) : State :=
  { s with mem := { s.mem with dram := s.mem.dram.write a (s.freeBytes n) }, freeCtr := s.freeCtr + n }

/-- The direct addresses of the granules marked PERSIST with OWNER p (Table 9-4). -/
def State.persistGranules (s : State) (p : PartId) : List Nat :=
  (allFin 16).flatMap (fun n => (vget s.stackSet n).pages.filterMap (fun e =>
    if bit e.2 0 && decide (fld e.2 1 2 = p.val) then some (n.val * 2 ^ 37 + e.1 * 2 ^ 17) else none))

/-- The persistent pages of a partition that leaves FIX under a commit verdict without its boundary are undefined (R61,
R486). -/
def State.undefinePages (s : State) (p : PartId) : State :=
  if s.phase p = .fix ∧ (s.stepOf p).commit then
    (s.persistGranules p).foldl (fun t a => t.undefineDram a (2 ^ 17)) s
  else s

/-- Move a partition to ABORTED with a cause (R59 to R61, R473); nothing where it is ABORTED or CLOSED. -/
def State.abort (s : State) (p : PartId) (cause : Nat) : State :=
  match s.phase p with
  | .closed | .aborted => s
  | _ =>
    let s1 := (s.undefinePages p).modStep p (fun t => { (t.setPhase .aborted) with
      status := setFld (setFld t.status 0 3 4) 16 4 cause, stage := .idle })
    s1.report { (s1.errRec 4 (sysStatus 0x45) .partition).withPart s1 p with
      engine := 0x0F, detail := BitVec.ofNat 32 cause }

/-! ### Rotations of self-test (R558, R560) -/

/-- End the rotations an item test picks out, without result: what their items have had of test no longer counts. -/
def State.endRotations (s : State) (f : TestItem → Bool) : State :=
  let ends := fun (x : TestItem) => f x && s.test.rotation.any (fun q => q.1 == x)
  { s with test := { s.test with
      rotation := s.test.rotation.filter (fun r => !(f r.1))
      tested := s.test.tested.filter (fun e => !(ends e.1))
      running := s.test.running.map (fun (r : Option Slice) => r.map (fun z => { z with void := z.void || ends z.item })) } }

/-! ### Yielding to service (R561) -/

/-- Whether a test interval that begins at a time is used by a slice in yield mode: the item carried nothing in the open
interval before it. -/
def Slice.uses (z : Slice) (carried : Option Word64) (at_ : Nat) : Bool :=
  !z.full && decide (z.start.toNat ≤ at_) && carried.all (fun t => decide (t.toNat + 32 < at_))

/-- Whether a sender holds back now what would disturb a slice of an item `f` picks out: until the next open interval. -/
def State.yields (s : State) (f : TestItem → Bool) (carried : Option Word64) : Bool :=
  let now := s.time.toNat
  decide (now / 32 % 2 = 0) &&
  s.test.running.toList.any (fun r => r.any (fun z => f z.item && z.uses carried (now / 32 * 32)))

/-! ### Faults of instructions (R206 to R211) -/

/-- The counters of a fault register of Table 4-12 after a fault of a code. -/
def faultReg (r : Word32) (code : Byte) : Word32 :=
  setFld (satAdd (setBit r 31 true) 16 8 1) 0 8 code.toNat

/-- The detectors of Table 6-14. -/
inductive Src where
  | core | plate | vector | mover | coll | trace
  deriving DecidableEq, Repr

/-- Code of a detector; its status table is one higher (Table 15-3). -/
def Src.code : Src → Nat
  | .core => 0 | .plate => 1 | .vector => 2 | .mover => 3 | .coll => 4 | .trace => 5

/-- Record a code in the fault register of a detector (R210). -/
def CellRegs.noteFault (r : CellRegs) (src : Src) (code : Byte) : CellRegs :=
  match src with
  | .core => { r with coreFault := faultReg r.coreFault code }
  | .plate => { r with plateFault := faultReg r.plateFault code }
  | .vector => { r with vecFault := faultReg r.vecFault code }
  | .mover => { r with dmFault := faultReg r.dmFault code }
  | .coll => { r with clFault := faultReg r.clFault code }
  | .trace => r

/-- ORIGIN of an instruction (Table 15-2). -/
def Tag.origin (t : Tag) : Word32 := t.cls ++ (t.opcode ++ t.pc)

/-- The record of a fault or event of an instruction (R472). -/
def State.instrRec (s : State) (c : CellId) (t : Tag) (src : Src) (code : Byte) (sev : Sev) (addr : Word64)
    (syn : Word32) : ErrRec :=
  { (s.errRec (dieOf c) (tblStatus (BitVec.ofNat 8 (src.code + 1)) code) sev).withCtx s ⟨c, t.slot⟩ with
    job := t.job, engine := BitVec.ofNat 8 src.code, addr := addr, syndrome := syn, origin := t.origin }

/-- A recorded event of an instruction (R206): its record and its detector's fault register. -/
def State.instrEvent (s : State) (c : CellId) (t : Tag) (src : Src) (code : Byte) (addr : Word64) (syn : Word32) :
    State :=
  (s.report (s.instrRec c t src code .event addr syn)).modCell c
    (fun x => x.modRegs (·.noteFault src code))

/-- Remove the instructions of a slot that have not started (R207 step 3). -/
def Engines.dropQueued (e : Engines) (i : SlotId) : Engines :=
  { e with plateQ := e.plateQ.filter (fun m => m.tag.slot != i), vecQ := e.vecQ.filter (fun m => m.tag.slot != i),
           moverQ := e.moverQ.filter (fun m => m.tag.slot != i), clQ := e.clQ.filter (fun m => m.tag.slot != i),
           tiles := e.tiles.filter (fun t => t.slot != i ||
             e.plateRun.any (fun r => r.ins.tag.slot == i && r.ins.tag.seq == t.seq)),
           traceQ := e.traceQ.filter (fun r => bit r.origin 27 != (i == 1)) }

/-- CTX_FAULT with a fault as the primary one (Table 6-14), OTHERS kept. -/
def ctxFaultWord (w : Word64) (src : Src) (code : Byte) (t : Tag) : Word64 :=
  setFld (setFld (setFld (setFld (setFld w 52 4 src.code) 44 8 code.toNat) 40 4 t.cls.toNat) 32 8 t.opcode.toNat)
    0 20 t.pc.toNat

/-- What a stopping fault leaves in its slot (R207, R208). -/
def Slot.faulted (x : Slot) (src : Src) (code : Byte) (t : Tag) : Slot :=
  if x.stopping then
    let w := satAdd x.ctxFault 24 8 1
    if t.seq < x.faultSeq then { x with ctxFault := ctxFaultWord w src code t, faultSeq := t.seq }
    else { x with ctxFault := w }
  else { x with ctxFault := ctxFaultWord x.ctxFault src code t, faultSeq := t.seq, stopping := true, wait := .none }

/-- Whether a slot is occupied. -/
def Slot.live (x : Slot) : Bool := x.state != .empty

/-- Whether a fault of a slot's context starts a fault stop: the slot holds one, and no reset in progress covers it, over
which a fault writes its record and starts nothing further (R484). -/
def State.stops (s : State) (a : At) : Bool :=
  (s.slot a).live && !(s.faults.resets.any (fun r => s.coveredBy r .context a.cell a.slot 0 0))

/-- A stopping fault of an instruction (R206, R207, R210): its record, its detector's fault register, and the start
of the fault stop. -/
def State.instrFaultSyn (s : State) (c : CellId) (t : Tag) (src : Src) (code : Byte) (addr : Word64)
    (syn : Word32) : State :=
  let s1 := (s.report { s.instrRec c t src code .context addr syn with
      action := if s.stops ⟨c, t.slot⟩ then 1 else 0 }).modCell c (fun x => x.modRegs (·.noteFault src code))
  if s.stops ⟨c, t.slot⟩ then
    s1.modCell c (fun x => (x.modSlot t.slot (·.faulted src code t)).modEng (·.dropQueued t.slot))
  else s1

/-- A stopping fault whose record carries no syndrome word. -/
def State.instrFault (s : State) (c : CellId) (t : Tag) (src : Src) (code : Byte) (addr : Word64) : State :=
  s.instrFaultSyn c t src code addr 0

/-! ### Outstanding work of a context -/

/-- Whether a slot has an instruction in the plate queue or running on the plate. -/
def Engines.plateBusy (e : Engines) (i : SlotId) : Bool :=
  e.plateQ.any (fun m => m.tag.slot == i) || e.plateRun.any (fun m => m.ins.tag.slot == i) ||
  e.inflight.any (fun m => m.slot == i)

/-- Whether a slot has a vx instruction queued, running or with a result to write. -/
def Engines.vecBusy (e : Engines) (i : SlotId) : Bool :=
  e.vecQ.any (fun m => m.tag.slot == i) ||
  (match e.vecRun with | some r => r.ins.tag.slot == i | none => false) ||
  (match e.optRun with | some r => r.ins.tag.slot == i | none => false) ||
  e.results.any (fun r => r.slot == i)

/-- Whether a slot has a dm instruction queued or in progress. -/
def Engines.moverBusy (e : Engines) (i : SlotId) : Bool :=
  e.moverQ.any (fun m => m.tag.slot == i) ||
  e.xfers.toList.any (fun r => match r with | some x => x.ins.tag.slot == i && !x.discarded | none => false)

/-- Whether a slot has a cl instruction queued or not complete. -/
def Engines.collBusy (e : Engines) (i : SlotId) : Bool :=
  e.clQ.any (fun m => m.tag.slot == i) || e.clPending.any (fun m => m.1 == i && !m.2.2)

/-- Whether a slot has a trace record queued. -/
def Engines.traceBusy (e : Engines) (i : SlotId) : Bool := e.traceQ.any (fun r => bit r.origin 27 == (i == 1))

/-- Whether a slot has a started instruction that has not completed (R207). -/
def Engines.startedBusy (e : Engines) (i : SlotId) : Bool :=
  e.plateRun.any (fun m => m.ins.tag.slot == i) || e.inflight.any (fun m => m.slot == i) ||
  (match e.vecRun with | some r => r.ins.tag.slot == i | none => false) ||
  (match e.optRun with | some r => r.ins.tag.slot == i | none => false) ||
  e.results.any (fun r => r.slot == i) ||
  e.xfers.toList.any (fun r => match r with | some x => x.ins.tag.slot == i && !x.discarded | none => false) ||
  e.clPending.any (fun m => m.1 == i && !m.2.2)

/-- Whether any vat row is live. -/
def Cell.vatAnyLive (x : Cell) : Bool := x.vatLive != 0

/-- Clear the vat: every entry +0, no row live; the plate accepts nothing until the clear is done (R118). -/
def Cell.clearVat (x : Cell) : Cell :=
  { x with vat := ProtMem.empty, vatLive := 0, eng := { x.eng with vatClear := true } }

/-- Return PLATE_CFG, EPI and debug mode to reset (R132, R133, R166). -/
def CellRegs.resetActive (r : CellRegs) : CellRegs :=
  { r with plateCfg := CellRegs.reset.plateCfg, epi := CellRegs.reset.epi, plateDbg := 0 }

/-! ### Slots and the running context (R257 to R266) -/

/-- The first byte and the end of a slot's part of the cell store (R259). -/
def Cell.partBounds (x : Cell) (i : SlotId) : Nat × Nat :=
  let sp := min (fld x.regs.slotCfg 0 7) 96 * 0x10000
  if i = 0 then (0, sp) else (sp, 0x600000)

/-- Whether a byte range lies in a slot's part. -/
def Cell.inPart (x : Cell) (i : SlotId) (a n : Nat) : Bool :=
  let b := x.partBounds i
  decide (b.1 ≤ a) && decide (a + n ≤ b.2)

/-- Whether a slot's context may be chosen to run: READY, and not in a fault stop (R207). -/
def Slot.ready (x : Slot) : Bool := x.state == .ready && !x.stopping

/-- GRACE started: slot 0 became READY while slot 1 runs (R264). -/
def State.requestReturn (s : State) (c : CellId) : State :=
  let x := s.cell c
  if x.running = some 1 ∧ (x.slot 0).ready ∧ x.grace = false then
    let ctl := (x.slot 1).ctxCtl
    let s1 := s.modCell c (fun y => { y with grace := true })
    if bit ctl 15 && decide (fld ctl 9 6 < 60) then s1.signal c (bfld ctl 9 6) 1 false else s1
  else s

/-- Choose the next running context after a switch (Table 8-4). -/
def Cell.choose (x : Cell) : Cell :=
  if (x.slot 0).ready then
    { (x.modSlot 0 (fun y => { y with state := .running })) with running := some 0, switch := .none, grace := false }
  else if (x.slot 1).ready then
    { (x.modSlot 1 (fun y => { y with state := .running })) with running := some 1, switch := .none, grace := false }
  else { x with running := none, switch := .none, grace := false }

/-- Whether a wake condition holds (R261). -/
def State.wakeHolds (s : State) (c : CellId) (x : Slot) : Bool :=
  match x.wake with
  | .none => true
  | .latch l => decide (1 ≤ ((s.cell c).latch l).count.toNat)
  | .verdict => decide (1 ≤ ((s.cell c).latch 62).count.toNat)
  | .time => decide (x.wakeTime.toNat ≤ s.time.toNat)

/-- The context goes on at the next instruction, waiting for nothing. -/
def Slot.retire (x : Slot) : Slot :=
  { x with ctx := { x.ctx with pc := x.ctx.pc + 1 }, seqNext := x.seqNext + 1, wait := .none }

/-- Abandon the step latches of a partition (R253, R254): armed no more, their counts lost, waiters on latch 62 released,
a st.open held on latch 60 released with PHASE_FAULT (R38), a lead cell held at a barrier released. The partition moves to
ABORTED where a held st.open or a held lead cell is released and it is not CLOSED. -/
def State.abandonStep (s : State) (p : PartId) : State :=
  if (s.stepOf p).armed = false then s
  else
    let s1 := s.modStep p (fun t => { t with armed := false })
    (s.cellsOf p).foldl (fun t c =>
      let t := (t.releaseWaiters c 62).modCell c (fun x =>
        { x with latches := Vector.ofFn (fun (l : Fin 64) =>
            if 60 ≤ l.val then { vget x.latches l with count := 0 } else vget x.latches l) })
      match ((t.cell c).slot 0).wait with
      | .stOpen =>
        let pc := ((t.cell c).slot 0).ctx.pc
        let tag : Tag := ⟨0, ((t.cell c).slot 0).seqNext, 0x7, 0x01, pc, ((t.cell c).slot 0).job, false⟩
        ((t.latchAbandoned ⟨c, 0⟩).instrFault c tag .core 0x0A 0).abort p 3
      | .stStop | .stFix =>
        if s.leadOf p = some c then
          ((t.latchAbandoned ⟨c, 0⟩).modCell c
              (fun y => { (y.modSlot 0 Slot.retire) with regs := { y.regs with stall := 0 } })).abort p 3
        else t
      | _ => t) s1

/-- What an ended or reset context leaves in its slot. JOB and the PC stay what they were (DESIGN CHOICE, log entry
64). -/
def Slot.emptied (x : Slot) (cause : BitVec 4) : Slot :=
  { x with ctx := { Ctx.initial with pc := x.ctx.pc }, state := .empty, endCause := cause, wait := .none,
           stopping := false, wake := .none, openDone := false }

end Sys2Proof.Machine
end

