-- ==== Sys2Proof/Machine/Joins.lean ====
section
/-!
DEFINITION. The joins between dies (R318 to R320, R331, R337), the paths transfers take over them (R19, R334, R335) and
when a direction pauses (R328).
-/
namespace Sys2Proof.Machine

/-- Join j. -/
def State.xd (s : State) (j : JoinId) : Xd := vget s.xds j
/-- Change join j. -/
def State.modXd (s : State) (j : JoinId) (f : Xd → Xd) : State := { s with xds := vmod s.xds j f }
/-- Direction d of a join. -/
def Xd.dir (x : Xd) (d : Fin 2) : XdDir := vget x.dirs d
/-- Change direction d. -/
def Xd.modDir (x : Xd) (d : Fin 2) (f : XdDir → XdDir) : Xd := { x with dirs := vmod x.dirs d f }
/-- Change direction d of join j. -/
def State.modXdDir (s : State) (j : JoinId) (d : Fin 2) (f : XdDir → XdDir) : State := s.modXd j (fun x => x.modDir d f)
/-- The other direction. -/
def otherDir (d : Fin 2) : Fin 2 := if d = 0 then 1 else 0

/-- A fabric die as a die of the package. -/
def fabDie (d : FabId) : DieId := if d = 0 then 4 else 5

/-- Whether a join is a bridge (Table 10-1). -/
def isBridge (j : JoinId) : Bool := decide (j.val < 4)
/-- Groups per direction. -/
def groupsOfJoin (j : JoinId) : Nat := if isBridge j then 64 else 32

/-- Dies u and v of a join (Table 10-1). -/
def joinDies (j : JoinId) : DieId × DieId :=
  match j.val with
  | 0 => (0, 1) | 1 => (1, 3) | 2 => (3, 2) | 3 => (2, 0) | 4 => (4, 0) | 5 => (4, 2) | 6 => (5, 1) | _ => (5, 3)

/-- The die that receives a direction. -/
def receiverOf (j : JoinId) (d : Fin 2) : DieId := if d = 0 then (joinDies j).2 else (joinDies j).1

/-- The die at the other end of a join from a die. -/
def across (j : JoinId) (a : DieId) : Option DieId :=
  let e := joinDies j
  if e.1 = a then some e.2 else if e.2 = a then some e.1 else none

/-! ### State in effect (R331, R337) -/

/-- Width of a direction in effect, none for a disabled join: the more degraded of the failures' and the forced one. -/
def Xd.effect (x : Xd) (d : Fin 2) : Option (BitVec 2) :=
  let w := (x.dir d).width
  let f := (x.dir d).forced
  if x.disabled || f == 3 then none
  else if f = 0 ∨ f = w then some w
  else if w = 0 then some f else none

/-- Whether a join is DISABLED in effect. -/
def Xd.off (x : Xd) : Bool := (x.effect 0).isNone || (x.effect 1).isNone

/-- The joins that would be enabled with join j given a state. -/
def State.enabledJoins (s : State) (j : JoinId) (x : Xd) : List JoinId :=
  (allFin 8).filter (fun k => !((if k = j then x else s.xd k).off))

/-- The joins that are enabled. -/
def State.joinsOn (s : State) : List JoinId := s.enabledJoins 0 (s.xd 0)

/-- A direction once what awaits its switch time, and the force `f` written, are in effect. -/
def XdDir.coming (x : XdDir) (f : BitVec 2) : XdDir :=
  { x with
    forced := f
    width := match x.pending with | some (.half k, _) => if k = 0 then 1 else 2 | _ => x.width }

/-- A join once what awaits its switch time and the force written are in effect (R337). -/
def Xd.coming (x : Xd) : Xd :=
  { x with
    disabled := x.disabled || x.dirs.toList.any (fun d => d.pending.map (·.1) == some .disable)
    dirs := x.dirs.map (fun (d : XdDir) => d.coming (bfld x.ctl 30 2)) }

/-- The joins that stay enabled once every write of FORCE made so far, and that of join j in `x`, is in effect. -/
def State.joinsComing (s : State) (j : JoinId) (x : Xd) : List JoinId :=
  (allFin 8).filter (fun k => !((if k = j then x else s.xd k).coming.off))

/-! ### Paths (R19, R334, R335) -/

/-- The simple paths from a die to another over some joins, of at most `fuel` joins, in ascending order of their joins. -/
def pathsFrom (js : List JoinId) (dst : DieId) : Nat → DieId → List DieId → List (List JoinId)
  | 0, _, _ => []
  | fuel + 1, a, seen =>
    (js.map (fun k =>
      match across k a with
      | none => []
      | some b =>
        if b = dst then [[k]]
        else if seen.contains b then []
        else (pathsFrom js dst fuel b (b :: seen)).map (k :: ·))).flatten

/-- Fabric dies a path from a die passes through. -/
def relays (dst : DieId) : DieId → List JoinId → Nat
  | _, [] => 0
  | a, k :: rest =>
    match across k a with
    | none => 0
    | some b => (if b ≠ dst ∧ 4 ≤ b.val then 1 else 0) + relays dst b rest

/-- The shortest paths of a list. -/
def fewest (l : List (List JoinId)) : List (List JoinId) :=
  l.filter (fun p => l.all (fun q => decide (p.length ≤ q.length)))

/-- The candidates of R334: the shortest paths through compute dies alone, or else through one fabric die. -/
def pathsOf (js : List JoinId) (a b : DieId) : List (List JoinId) :=
  let all := pathsFrom js b 5 a [a]
  let pure_ := fewest (all.filter (fun p => relays b a p == 0))
  if pure_.isEmpty then fewest (all.filter (fun p => relays b a p == 1)) else pure_

/-- The path of the k-th 4 KiB of a transfer between two dies over some joins: candidates that tie take turns, that with the
lower first join first (R19, R334). -/
def pathOver (js : List JoinId) (a b : DieId) (k : Nat) : Option (List JoinId) :=
  if a = b then some []
  else
    let l := pathsOf js a b
    l[k % l.length]?

/-- The same over the joins now enabled. -/
def State.diePath (s : State) (a b : DieId) (k : Nat) : Option (List JoinId) := pathOver s.joinsOn a b k

/-- Whether every die reaches every other (R334). -/
def connected (js : List JoinId) : Bool :=
  (allFin 6).all (fun a => (allFin 6).all (fun b => a == b || !((pathsOf js a b).isEmpty)))

/-- The path on which a fabric die delivers a frame to a compute die of its column: its own interposer join, or through
the column partner (R335). -/
def State.deliverPath (s : State) (f c : DieId) : Option (List JoinId) := s.diePath f c 0

/-! ### Switch times (R328) -/

/-- Whether a direction carries nothing at a time: in [T - 8 ns, T + 24 ns) of a switch. -/
def XdDir.paused (x : XdDir) (now : Word64) : Bool :=
  (match x.pending with
   | some (_, t) => decide (t.toNat ≤ now.toNat + 8)
   | none => false) || decide (now.toNat < x.resume.toNat)

/-- Whether an item is a wire or clock of a direction. -/
def dirItem (j : JoinId) (d : Fin 2) (x : TestItem) : Bool :=
  match x with
  | .wire i e _ _ => i == j && e == d
  | _ => false

/-- Whether a direction carries nothing now: it pauses for a switch, or yields to self-test (R328, R561). -/
def State.dirHolds (s : State) (j : JoinId) (d : Fin 2) : Bool :=
  let x := (s.xd j).dir d
  x.paused s.time || s.yields (dirItem j d) x.carried

/-- The direction of a join that leads away from a die. -/
def wayOf (j : JoinId) (a : DieId) : Fin 2 := if (joinDies j).1 = a then 0 else 1

/-- Whether beats leave on every join of a path from a die. -/
def State.pathGoes (s : State) : DieId → List JoinId → Bool
  | _, [] => true
  | a, k :: rest =>
    !(s.dirHolds k (wayOf k a)) &&
    (match across k a with
     | some b => s.pathGoes b rest
     | none => false)

/-- The joins enabled, with those disabled whose directions still pause: a transfer that one of these carried takes its new
path from T + 24 ns (R336). -/
def State.joinsLate (s : State) : List JoinId :=
  (allFin 8).filter (fun k => !((s.xd k).off) || (s.xd k).dirs.toList.any (·.paused s.time))

/-- Whether the k-th 4 KiB of a transfer passes from a die to another now (R328, R334, R336): its path, over the joins now
enabled, has no direction that pauses, and is no detour that is still to begin. -/
def State.pathOpen (s : State) (a b : DieId) (k : Nat) : Bool :=
  match s.diePath a b k with
  | some l => s.pathGoes a l && pathOver s.joinsLate a b k == some l
  | none => false

/-- Whether accesses from a die to another and their answers pass now. -/
def State.pathBoth (s : State) (a b : DieId) (k : Nat) : Bool := s.pathOpen a b k && s.pathOpen b a k

/-! ### Poison over a crossing (R326) -/

/-- Poisoned words of the beats of a channel that what goes over a path from a die has taken, and the state without those
beats: over each join the oldest beat passed on that no consumer has had. The first four words of a beat of the memory
channels are its routing word. -/
def State.carry (c : Fin 3) : DieId → List JoinId → State → List Nat × State
  | _, [], s => ([], s)
  | a, j :: rest, s =>
    let d := wayOf j a
    let head := if c.val < 2 then 4 else 0
    let r := match across j a with
      | some b => State.carry c b rest (s.modXdDir j d (fun x => { x with passed := vmod x.passed c (·.drop 1) }))
      | none => ([], s)
    match vget ((s.xd j).dir d).passed c with
    | [] => r
    | beat :: _ => (((beat.drop head).zipIdx.filter (fun w => w.1.2)).map (·.2) ++ r.1, r.2)

/-- What the k-th 4 KiB of a transfer from a die to another takes over its crossings. -/
def State.carryTo (s : State) (c : Fin 3) (a b : DieId) (k : Nat) : List Nat × State :=
  match s.diePath a b k with
  | some l => State.carry c a l s
  | none => ([], s)

end Sys2Proof.Machine
end

