-- ==== Sys2Proof/Machine/Dram.lean ====
section
/-!
DEFINITION. Stacked memory: the local address map (R281 to R287), the checks on an access (R269, R290, R293), reads
with their error accounting (R299 to R304) and writes.
-/
namespace Sys2Proof.Machine

/-- Base of the striped view (Table 9-2). -/
def stripedBase : Nat := 0x200000000000

/-- Base of the cell windows (R21). -/
def windowBase : Nat := 0x400000000000

/-- Stack n. -/
def State.stack (s : State) (n : StackId) : Stack := vget s.stackSet n
/-- Change stack n. -/
def State.modStack (s : State) (n : StackId) (f : Stack → Stack) : State := { s with stackSet := vmod s.stackSet n f }
/-- Change a channel of a stack. -/
def Stack.modCh (x : Stack) (ch : ChanId) (f : Channel → Channel) : Stack := { x with channels := vmod x.channels ch f }

/-- Channels in use (R285). -/
def Stack.active (x : Stack) : Nat := 32 - popCount x.mappedOut
/-- LENGTH of a stack (R285). -/
def Stack.length (x : Stack) : Nat := x.active * 2 ^ 32
/-- Whether a stack is fenced (R309). -/
def Stack.fenced (x : Stack) : Bool := bit x.therm 31
/-- Whether reads are delivered poisoned and writes discarded without a record: fenced (R309) or not yet trained
(R552). -/
def Stack.silent (x : Stack) : Bool := x.fenced || !x.trained
/-- MEM_STRIPE.LEN (R287). -/
def State.stripeLen (s : State) : Nat := 16 * (s.stackSet.toList.foldl (fun a x => min a x.length) (2 ^ 37))

/-- The stack of a direct address (R282). -/
def stackOf (d : Nat) : StackId := ⟨d / 2 ^ 37 % 16, by omega⟩

/-- The direct alias of a striped offset (R283). -/
def unstripe (x : Nat) : Nat := (x / 2 ^ 12 % 16) * 2 ^ 37 + (x / 2 ^ 16) * 2 ^ 12 + x % 2 ^ 12

/-- The striped alias of a direct address (R283). -/
def restripe (d : Nat) : Nat :=
  stripedBase + (d % 2 ^ 37 / 2 ^ 12) * 2 ^ 16 + (d / 2 ^ 37) * 2 ^ 12 + d % 2 ^ 12

/-- The direct address of a DRAM local address, none where it takes UNMAPPED (R281 to R283, R287). -/
def State.direct (s : State) (a : Nat) : Option Nat :=
  let d? := if a < 2 ^ 41 then some a
    else if stripedBase ≤ a ∧ a < stripedBase + 2 ^ 41 then some (unstripe (a - stripedBase)) else none
  match d? with
  | none => none
  | some d => if d % 2 ^ 37 < (s.stack (stackOf d)).length then some d else none

/-- Physical channels not mapped out, ascending. -/
def Stack.inUse (x : Stack) : List ChanId := (allFin 32).filter (fun k => !(bit x.mappedOut k.val))

/-- The physical channel of a stack offset and the byte within it (R282). -/
def Stack.channelOf (x : Stack) (off : Nat) : ChanId × Nat :=
  let line := off / 256
  let act := max x.active 1
  (x.inUse.getD (line % act) 0, line / act * 256 + off % 256)

/-- The stack offset of a byte of a physical channel, none for a channel mapped out. -/
def Stack.offsetOf (x : Stack) (ch : ChanId) (b : Nat) : Option Nat :=
  match x.inUse.idxOf? ch with
  | none => none
  | some lch => some ((b / 256 * x.active + lch) * 256 + b % 256)

/-- Cut a range at 256-byte lines: local address and length of each part, `fuel` parts at most. -/
def piecesFrom : Nat → Nat → Nat → List (Nat × Nat)
  | 0, _, _ => []
  | fuel + 1, a, len =>
    if len = 0 then []
    else
      let n := min len (256 - a % 256)
      (a, n) :: piecesFrom fuel (a + n) (len - n)

/-- The bursts of a range. -/
def pieces (a len : Nat) : List (Nat × Nat) := piecesFrom (len / 256 + 2) a len

/-- Whether every byte of a range is mapped DRAM. -/
def State.mapped (s : State) (a len : Nat) : Bool := (pieces a len).all (fun p => (s.direct p.1).isSome)

/-- Whether a 1 GiB granule of a view lies in an enabled range of a partition (R269, R277). -/
def Part.holds (x : Part) (striped : Bool) (g : Nat) : Bool :=
  x.range.toList.any (fun r => bit r 63 && (bit r 62 == striped) && decide (fld r 0 11 ≤ g) &&
    decide (g ≤ fld r 32 11))

/-- Whether every byte of a DRAM range lies in a partition's ranges in the view it uses (R269). -/
def State.inRanges (s : State) (p : PartId) (a len : Nat) : Bool :=
  let striped := decide (stripedBase ≤ a)
  let off := if striped then a - stripedBase else a
  let g0 := off / 2 ^ 30
  let g1 := (off + len - 1) / 2 ^ 30
  (List.range (g1 - g0 + 1)).all (fun i => (s.part p).holds striped (g0 + i))

/-- The page attribute entry of a direct address (Table 9-4). -/
def State.pageAttr (s : State) (d : Nat) : BitVec 4 :=
  Sparse.get 0 (s.stack (stackOf d)).pages (d % 2 ^ 37 / 2 ^ 17)

/-- Who writes DRAM (R290, R293). -/
inductive Writer where
  | optstep (p : PartId)
  | mgmt
  | build
  | twin (p : PartId)
  | other
  deriving DecidableEq, Repr

/-- Whether a group is enabled: EN, BLOCKS nonzero and its table good (R94, R95). -/
def GradGroup.enabled (g : GradGroup) : Bool := bit g.cfg 31 && g.blocks != 0 && !(bit g.status 3)

/-- Partition of a group. -/
def GradGroup.part (g : GradGroup) : PartId := ⟨fld g.cfg 26 2, by unfold fld; omega⟩

/-- Local address of a version of a group's table (R87). -/
def GradGroup.version (g : GradGroup) (b : Bool) : Nat :=
  fld g.base 12 36 * 4096 + (if b then 4 * g.blocks.toNat else 0)

/-- Whether a range of one view overlaps another range given by its base and length. -/
def overlaps (a n b m : Nat) : Bool := decide (a < b + m) && decide (b < a + n)

/-- Whether a burst, by its direct address, touches the active version of an enabled group's table (R293). -/
def State.inActiveTable (s : State) (d n : Nat) : Option PartId :=
  (s.groups.toList.find? (fun g =>
    g.enabled && (let b := g.version (bit g.status 2)
                  overlaps d n b (4 * g.blocks.toNat) || overlaps (restripe d) n b (4 * g.blocks.toNat)))).map (·.part)

/-- The partition whose holding area or staging area a burst touches (R440, R448), in either view. A base of 0 names no area
while the engine is OFF: it is the register's reset value (DESIGN CHOICE, log entry 60). -/
def State.inHolding (s : State) (d n : Nat) : Option PartId :=
  (allFin 4).find? (fun p =>
    let t := vget s.twins p
    let hit := fun (b m : Nat) => overlaps d n b m || overlaps (restripe d) n b m
    let area := fun (reg : Word64) (m : Nat) =>
      (fld t.status 29 3 != 0 || reg != 0) && hit (fld reg 21 27 * 2 ^ 21) m
    area t.holdBase ((2 * (fld t.holdCfg 0 16 + 1) + 2 * fld t.holdCfg 16 16 + 2) * 2 ^ 21) || area t.ftBase (64 * 2 ^ 21))

/-- Whether the pages written since verdict arrival are not yet write-protected again (R48 step 4). -/
def Step.openPages (t : Step) : Bool := t.stage == .idle || t.stage == .waitNegative

/-- Whether a write of a burst is refused (R290, R293, R440). -/
def State.writeRefused (s : State) (w : Writer) (d n : Nat) : Bool :=
  let at_ := s.pageAttr d
  let own : PartId := ⟨fld at_ 1 2, by unfold fld; omega⟩
  (bit at_ 0 &&
    !(match w with
      | .optstep p => p == own && s.phase own == .fix && (s.stepOf own).commit && (s.stepOf own).openPages
      | .mgmt => s.closed own
      | _ => false)) ||
  (match s.inActiveTable d n with
   | none => false
   | some p => !(w == .mgmt && s.closed p)) ||
  (match s.inHolding d n with
   | none => false
   | some p => !(w == .twin p))

/-- Where an access went. -/
inductive Acc where
  | ok | unmapped | refused
  deriving DecidableEq, Repr

/-- Check a write: unmapped first, then refused; the first address that fails. -/
def State.checkWrite (s : State) (w : Writer) (a len : Nat) : Acc × Nat :=
  (pieces a len).foldl (fun r p =>
    match r.1 with
    | .ok =>
      match s.direct p.1 with
      | none => (.unmapped, p.1)
      | some d => if s.writeRefused w d p.2 then (.refused, p.1) else (.ok, a)
    | _ => r) (.ok, a)

/-! ### Error accounting -/

/-- The memory syndrome word (Table 9-8). -/
def synWord (kind : Nat) (n : StackId) (ch : ChanId) (off : Nat) (b : Nat) (syn : BitVec 7) : Word32 :=
  BitVec.ofNat 32 (kind * 2 ^ 28 + n.val * 2 ^ 24 + ch.val * 2 ^ 19 + (off % 256 / 32) * 2 ^ 16 +
    (off % 32 / 4) * 2 ^ 13 + (b % 64) * 2 ^ 7 + syn.toNat)

/-- KIND, BIT of what was found (Table 9-8). -/
def WordRead.kind : WordRead → Nat × Nat
  | .fixedData i => (0, i)
  | .fixedCheck i => (1, i)
  | .mark => (3, 63)
  | _ => (2, 63)

/-- Whether a margin is applied to a channel (R311). -/
def State.margined (s : State) (n : StackId) (ch : ChanId) : Bool :=
  bit s.mem.memCtl 0 && bit (s.stack n).margin 31 && decide (fld (s.stack n).margin 16 5 = ch.val)

/-- A page of a view holds a direct address. -/
def pageHolds (page d : Nat) : Bool :=
  let a := if stripedBase ≤ page then restripe d else d
  decide (page ≤ a) && decide (a < page + 2 ^ 21)

/-- The partition whose persistent state an address belongs to: a listed page, or an active table (R486). -/
def State.persistOwner (s : State) (d : Nat) : Option PartId :=
  match (allFin 4).find? (fun p => (vget s.twins p).slots.any (fun pg => pageHolds pg d)) with
  | some p => some p
  | none => s.inActiveTable d 4

/-- Poison found in persistent state (R486): PERSIST_POISON, and a partition reset at once in CLOSED or FIX; before
the verdict it is remembered for verdict arrival. The optimizer's own finding is handled as it retires. ACTION names the
reset where one starts with the record (R471). -/
def State.persistPoison (s : State) (p : PartId) (addr : Nat) (who : Option At) (atRetire : Bool) : State :=
  let r0 := { (s.errRec (if addr < 2 ^ 41 then ⟨(stackOf addr).val / 4, by omega⟩ else 0) (sysStatus 0x44)
    .partition).withPart s p with
      addr := BitVec.ofNat 64 addr, engine := 0x06
      action := if !atRetire && (s.phase p == .closed || s.phase p == .fix) &&
        !(s.faults.resets.any (fun r => s.coveredBy r .partition 0 0 0 p)) then 4 else 0 }
  let s1 := s.report (match who with | some a => r0.withCtx s a | none => r0)
  if atRetire then s1
  else
    match s.phase p with
    | .closed | .fix => s1.startReset .partition 0 0 0 p 0x7
    | .expose | .stop => s1.modStep p (fun t => { t with poisonFound := true })
    | .aborted => s1

/-- Whom a memory record names. -/
def State.memRec (s : State) (n : StackId) (kind : Byte) (sev : Sev) (addr : Nat) (syn : Word32) (who : Option At) :
    ErrRec :=
  let r := { s.errRec ⟨n.val / 4, by omega⟩ (tblStatus 0x06 kind) sev with
    engine := 0x06, addr := BitVec.ofNat 64 addr, syndrome := syn }
  match who with
  | some a => r.withCtx s a
  | none => r

/-- Count a correctable error of a channel; at CE_LIMIT one advisory per window (R304). -/
def State.countCe (s : State) (n : StackId) (ch : ChanId) (addr : Nat) (syn : Word32) : State :=
  let s1 := s.modStack n (fun x => { x.modCh ch (fun y => { y with windowCe := y.windowCe + 1 }) with
    eccCnt := satAdd x.eccCnt 32 32 1 })
  let y := vget (s1.stack n).channels ch
  if y.reported = false ∧ max (fld s.mem.eccCfg 0 16) 1 ≤ y.windowCe then
    (s1.report { s1.errRec ⟨n.val / 4, by omega⟩ (sysStatus 0x10) .advisory with
      engine := 0x06, addr := BitVec.ofNat 64 addr, syndrome := syn }).modStack n
      (fun x => x.modCh ch (fun z => { z with reported := true }))
  else s1

/-! ### Connections and burst CRC (R279, R302) -/

/-- Bits of the stored words of a burst, given by word of the burst, change (R298). -/
def ProtMem.flipBits (m : ProtMem) (line : Nat) (fs : List (Fin 64 × BitVec 39)) : ProtMem :=
  fs.foldl (fun m f => m.setDiff (line * 64 + f.1.val) (m.diff (line * 64 + f.1.val) ^^^ f.2)) m

/-- Bits of the stored words of the burst at a direct address change. -/
def State.flipBits (s : State) (d : Nat) (fs : List (Fin 64 × BitVec 39)) : State :=
  { s with mem := { s.mem with dram := s.mem.dram.flipBits (d / 256) fs } }

/-- The bit of each beat a connection carries: word of the beat and stored bit (Table 9-1: 256 data connections, then
56 check connections); the CRC and spare connections carry none. -/
def connBit (i : Fin 318) : Option (Nat × BitVec 39) :=
  if i.val < 256 then some (i.val / 32, (1 : BitVec 39) <<< (i.val % 32))
  else if i.val < 312 then some ((i.val - 256) / 7, (1 : BitVec 39) <<< (32 + (i.val - 256) % 7))
  else none

/-- What the failed connections of a channel change in the words of a burst (R279): one bit in each beat. -/
def brokenBits (l : List (Fin 318)) : List (Fin 64 × BitVec 39) :=
  l.flatMap (fun i =>
    match connBit i with
    | none => []
    | some (w, b) => (allFin 64).filterMap (fun k => if k.val % 8 = w then some (k, b) else none))

/-- The stored bits of word k of a burst, data and check. -/
def ProtMem.stored (m : ProtMem) (line k : Nat) : BitVec 39 :=
  eccCode (m.dataWord (line * 64 + k)) ^^^ m.diff (line * 64 + k)

/-- The 8 × 312 bits of a burst that the CRC covers, in beat order and in connection order within a beat (R302). -/
def ProtMem.burstBits (m : ProtMem) (line : Nat) : List Bool :=
  (List.range 8).flatMap (fun beat =>
    let ws := (List.range 8).map (fun w => m.stored line (8 * beat + w))
    ws.flatMap (fun w => (List.range 32).map (bit w ·)) ++ ws.flatMap (fun w => (List.range 7).map (fun j => bit w (32 + j))))

/-- Whether an attempt fails the burst's CRC: the CRC of the bits that arrive is not the CRC that arrives. -/
def ProtMem.crcFails (m : ProtMem) (line : Nat) (t : WireTry) : Bool :=
  if t.words.isEmpty && t.crc == 0 then false
  else crc16 ((m.flipBits line t.words).burstBits line) != crc16 (m.burstBits line) ^^^ t.crc

/-- The attempts that fail, four at most (R302), and what the attempt that passes leaves changed. -/
def ProtMem.attempts (m : ProtMem) (line : Nat) (ts : List WireTry) : Nat × List (Fin 64 × BitVec 39) :=
  let n := ((ts.take 4).takeWhile (m.crcFails line)).length
  (n, if n = 4 then [] else match ts[n]? with | some t => t.words | none => [])

/-- The attempts the connections disturb when the burst of a direct address is moved next. -/
def State.wireTries (s : State) (d : Nat) : List WireTry :=
  match (s.stack (stackOf d)).wire with
  | some (line, ts) => if line = d / 256 then ts else []
  | none => []

/-- The attempts to move the burst of a direct address out of a memory. -/
def State.wire (s : State) (m : ProtMem) (d : Nat) : Nat × List (Fin 64 × BitVec 39) :=
  match s.wireTries d with
  | [] => (0, [])
  | ts => m.attempts (d / 256) ts

/-- Request a channel for map-out (R279, R285, R302). -/
def State.requestMapout (s : State) (n : StackId) (ch : ChanId) : State :=
  s.modStack n (fun x => { x with mapoutReq := setBit x.mapoutReq ch.val true })

/-- Count a burst moved on a channel under a margin (Table 9-14). -/
def State.marginBurst (s : State) (n : StackId) (ch : ChanId) : State :=
  if s.margined n ch then s.modStack n (fun x => { x with marginErr := satAdd x.marginErr 32 32 1 }) else s

/-- The CRC of a burst failed `fails` times (R302): retries counted, CRC_RETRY where one succeeded, else CRC_FAIL with the
map-out request, counted in UE (Table 9-13); a failed write is a chip-level fault. Under a margin the failures are counted
in MARGIN_ERR and unreported (R311). -/
def State.burstCrc (s : State) (n : StackId) (ch : ChanId) (view d : Nat) (who : Option At) (wr : Bool) (fails : Nat) :
    State :=
  if fails = 0 then s
  else
    let m := s.margined n ch
    let s1 := s.modStack n (fun x => { x.modCh ch (fun y => { y with crcCount := y.crcCount + min fails 3 }) with
      marginErr := if m then satAdd x.marginErr 0 32 fails else x.marginErr })
    let note := fun (t : State) (kind : Byte) (sev : Sev) (act : Byte) =>
      if m then t
      else t.report { t.memRec n kind sev view (synWord kind.toNat n ch (d % 2 ^ 37) 63 0) who with action := act }
    if fails < 4 then note s1 4 .corrected 0
    else
      let s2 := (s1.requestMapout n ch).modStack n (fun x =>
        if m then x else { x with eccCnt := satAdd x.eccCnt 16 16 1 })
      if wr then (note s2 5 .chip 5).chipFault else note s2 5 .event 0

/-- The physical channel of a direct address. -/
def State.chanOf (s : State) (d : Nat) : ChanId := ((s.stack (stackOf d)).channelOf (d % 2 ^ 37)).1

/-- A burst has been moved: it is counted under a margin, its CRC failures are accounted for, what passed undetected
stays changed, and what disturbed it is over. -/
def State.crossed (s : State) (who : Option At) (wr : Bool) (view d : Nat) (w : Nat × List (Fin 64 × BitVec 39)) : State :=
  let n := stackOf d
  let ch := s.chanOf d
  let s1 := (s.marginBurst n ch).burstCrc n ch view d who wr w.1
  match s.wireTries d with
  | [] => s1
  | _ => (s1.flipBits d w.2).modStack n (fun x => { x with wire := none })

/-- DRAM as the controller receives the burst of a direct address (R279): with the bits that failed connections of its
channel corrupt. -/
def State.seen (s : State) (d : Nat) : ProtMem :=
  match (vget (s.stack (stackOf d)).channels (s.chanOf d)).broken with
  | [] => s.mem.dram
  | l => s.mem.dram.flipBits (d / 256) (brokenBits l)

/-! ### Reads -/

/-- Account for one word read (R299 to R301, R303, R304, R486): `view` is its address in the view used, `pend` whether
its burst's write-back was pending before the read. A word found uncorrectable becomes a poison mark (R300). -/
def State.noteWord (s : State) (who : Option At) (opt : Bool) (pend : Bool) (view d : Nat) (m : BitVec 39) : State :=
  let n := stackOf d
  let off := d % 2 ^ 37
  let ch := s.chanOf d
  let syn := syndrome m
  let r := classify syn
  let w := synWord r.kind.1 n ch off r.kind.2 syn
  let owner := s.persistOwner d
  let bad := fun (t : State) =>
    match owner with
    | some p => t.persistPoison p view who opt
    | none => t
  let mark := fun (t : State) => { t with mem := { t.mem with dram := t.mem.dram.poison (d / 4) } }
  if s.margined n ch then
    let s1 := s.modStack n (fun x => { x with marginErr := satAdd x.marginErr 0 32 1 })
    if r = .bad then mark s1 else s1
  else
    match r with
    | .good => s
    | .mark => bad (s.modStack n (fun x => { x with eccCnt := satAdd x.eccCnt 0 16 1 }))
    | .bad =>
      bad (mark ((s.report (s.memRec n 0x2 .event view w who)).modStack n
        (fun x => { x with eccCnt := satAdd x.eccCnt 16 16 1 })))
    | _ =>
      if pend then s
      else
        let s1 := s.countCe n ch view w
        s1.modStack n (fun x => x.modCh ch (fun y =>
          if y.writeBack.length < 16 && !(y.writeBack.contains (d / 256)) then
            { y with writeBack := y.writeBack ++ [d / 256] } else y))

/-- Whether the write-back of a burst is pending. -/
def State.pendingBack (s : State) (d : Nat) : Bool :=
  (vget (s.stack (stackOf d)).channels (s.chanOf d)).writeBack.contains (d / 256)

/-- A burst is read (R280: whole): its CRC is checked, and every word of it that is not a code word is accounted for. A
burst that failed four times delivers no word to judge. -/
def State.noteBurst (s : State) (who : Option At) (opt : Bool) (view d : Nat) : State :=
  let w := s.wire (s.seen d) d
  let s1 := s.crossed who false view d w
  if w.1 = 4 then s1
  else
    ((s1.seen d).marked (d / 256 * 256) 256).foldl (fun t p =>
      t.noteWord who opt (s.pendingBack d) (view - view % 256 + 4 * p.1 % 256) (4 * p.1) p.2) s1

/-- The bytes of a part of a burst and the offsets (from `base`) of its poisoned words; a fenced stack, and a burst whose
CRC fails four times, deliver every word poisoned (R302, R309). -/
def State.burstBytes (s : State) (base view d n : Nat) : List Byte × List Nat :=
  let every := (List.range ((d % 4 + n + 3) / 4)).map (fun i => view - d % 4 - base + 4 * i)
  if (s.stack (stackOf d)).silent then (List.replicate n 0, every)
  else
    let m := s.seen d
    let w := s.wire m d
    let m := if w.2.isEmpty then m else m.flipBits (d / 256) w.2
    if w.1 = 4 then (m.read d n, every)
    else (m.read d n, (m.poisonIn d n).map (fun w => view - base + (4 * w - d)))

/-- Read mapped DRAM: the bytes and the offsets of poisoned words. -/
def State.dramBytes (s : State) (a len : Nat) : List Byte × List Nat :=
  (pieces a len).foldl (fun r p =>
    match s.direct p.1 with
    | none => (r.1 ++ List.replicate p.2 0, r.2)
    | some d => let b := s.burstBytes a p.1 d p.2; (r.1 ++ b.1, r.2 ++ b.2)) ([], [])

/-- The state after a read of DRAM has accounted for its errors. -/
def State.dramNote (s : State) (who : Option At) (opt : Bool) (a len : Nat) : State :=
  (pieces a len).foldl (fun t p =>
    match t.direct p.1 with
    | none => t
    | some d => if (t.stack (stackOf d)).silent then t else t.noteBurst who opt p.1 d) s

/-- A write that covers part of a word is a read and a merge (R301). -/
def partWord (d n : Nat) : Bool := d % 4 != 0 || (d + n) % 4 != 0

/-- The read a write makes of a burst where it covers part of a word (R301): it takes its attempts from those the
connections disturb, and leaves the others to the write. -/
def State.mergeRead (s : State) (view d n : Nat) : State :=
  if partWord d n = false then s
  else
    let ts := (s.wireTries d).drop (min 4 ((s.wire (s.seen d) d).1 + 1))
    (s.noteBurst none false view d).modStack (stackOf d) (fun x => { x with
      wire := if ts.isEmpty then none else some (d / 256, ts) })

/-- The words a write covers in part. -/
def partWords (d n : Nat) : List Nat :=
  ((if d % 4 = 0 then [] else [d / 4]) ++ (if (d + n) % 4 = 0 then [] else [(d + n) / 4])).eraseDups

/-- What a write to a burst leaves in DRAM after its merge read: a word it covers in part is a poison mark where that read
failed four times (R301). -/
def State.merged (s : State) (view d : Nat) (bs : List Byte) : ProtMem :=
  let m := (s.mergeRead view d bs.length).mem.dram.write d bs
  if partWord d bs.length && (s.wire (s.seen d) d).1 == 4 then (partWords d bs.length).foldl ProtMem.poison m else m

/-- Write one burst, dropping a pending write-back of it (R301); a fenced stack discards it (R309). Where it covers part
of a word the burst is read first. A write whose CRC fails four times changes nothing (R302). -/
def State.writeBurst (s : State) (view d : Nat) (bs : List Byte) : State :=
  let n := stackOf d
  if (s.stack n).silent then s
  else
    let s0 := s.mergeRead view d bs.length
    let ch := s0.chanOf d
    let s1 := s0.modStack n (fun x => x.modCh ch (fun y => { y with writeBack := y.writeBack.filter (· != d / 256) }))
    let m := s.merged view d bs
    let w := s1.wire m d
    if w.1 = 4 then s1.crossed none true view d w
    else ({ s1 with mem := { s1.mem with dram := m } }).crossed none true view d w

/-- Write DRAM: every burst that is mapped and not refused. -/
def State.dramWrite (s : State) (w : Writer) (a : Nat) (bs : List Byte) : State :=
  (pieces a bs.length).foldl (fun t p =>
    match t.direct p.1 with
    | none => t
    | some d => if t.writeRefused w d p.2 then t else t.writeBurst p.1 d ((bs.drop (p.1 - a)).take p.2)) s

/-- Write poison marks over the words at offsets of a range just written. -/
def State.dramPoison (s : State) (a : Nat) (offs : List Nat) : State :=
  offs.foldl (fun t o =>
    match t.direct (a + o) with
    | none => t
    | some d => { t with mem := { t.mem with dram := t.mem.dram.poison (d / 4) } }) s

/-- The number of `n` bytes of DRAM at a local address, its errors aside. -/
def State.dramNum (s : State) (a n : Nat) : Nat := ofLe (s.dramBytes a n).1

/-- The compute die of a stack (R278). -/
def stackDie (n : StackId) : DieId := ⟨n.val / 4, by omega⟩

/-! ### Regulators (R294, R295, R308) -/

/-- Bucket depth in bytes (Table 9-12). -/
def bucketDepth (w : Word64) : Nat := max (fld w 40 12) 1 * 4096

/-- Whether a channel has no admitted request. -/
def Stack.channelIdle (x : Stack) (d : Nat) : Bool :=
  !(x.requests.any (fun r => r.admitted && (x.channelOf (r.addr % 2 ^ 37)).1 == (x.channelOf (d % 2 ^ 37)).1))

/-- Whether an item is a connection of a channel. -/
def connOf (n : StackId) (ch : ChanId) (x : TestItem) : Bool :=
  match x with
  | .conn m c _ => m == n && c == ch
  | _ => false

/-- Whether the controller holds a burst to a direct address: its channel yields to self-test (R561). -/
def State.burstHolds (s : State) (d : Nat) : Bool :=
  let n := stackOf d
  let x := vget s.stackSet n
  let ch := (x.channelOf (d % 2 ^ 37)).1
  s.yields (connOf n ch) (vget x.channels ch).carried

/-- Whether a stack is at hot level. -/
def Stack.hot (x : Stack) : Bool := decide (fld x.therm 16 2 = 2)

/-- One burst at its partition's bucket (R294): the state once it is admitted, none where it waits for the next tick. -/
def State.bucket (s : State) (p : PartId) (d : Nat) : Option State :=
  let n := stackOf d
  let w := vget (s.part p).stack n
  if !(bit w 63) then some s
  else if 256 ≤ vget (s.part p).tokens n then
    some (s.modPart p (fun x => { x with tokens := vmod x.tokens n (fun k => k - 256) }))
  else if bit w 62 && (s.stack n).channelIdle d then some (s.modPart p (fun x => { x with borrowed := x.borrowed + 256 }))
  else none

/-- One burst at the thermal bucket of a hot stack, which collective traffic passes (R308). -/
def State.thermal (s : State) (coll : Bool) (d : Nat) : Option State :=
  let n := stackOf d
  if !((s.stack n).hot) || coll then some s
  else if 256 ≤ (s.stack n).thermTok then some (s.modStack n (fun x => { x with thermTok := x.thermTok - 256 }))
  else none

/-- Request i of a stack at its partition's bucket. -/
def State.bucketAdmit (s : State) (n : StackId) (i : Nat) : State :=
  match (s.stack n).requests[i]? with
  | none => s
  | some r =>
    if r.bucketed || r.admitted then s
    else
      match s.bucket r.part r.addr with
      | none => s.modPart r.part (fun x => { x with waited := true })
      | some t => t.modStack n (fun x => { x with requests := lmod x.requests i (fun q => { q with bucketed := true }) })

/-- Request i at the thermal bucket. -/
def State.thermAdmit (s : State) (n : StackId) (i : Nat) : State :=
  match (s.stack n).requests[i]? with
  | none => s
  | some r =>
    if r.admitted || !r.bucketed then s
    else
      match s.thermal r.coll r.addr with
      | none => s
      | some t => t.modStack n (fun x => { x with requests := lmod x.requests i (fun q => { q with admitted := true }) })

/-- A burst joins the queue of its stack and is admitted in the tick it arrives in where the buckets allow (R294). -/
def State.enqueue (s : State) (r : MemReq) : State :=
  let n := stackOf r.addr
  let k := (s.stack n).requests.length
  ((s.modStack n (fun x => { x with requests := x.requests ++ [r] })).bucketAdmit n k).thermAdmit n k

/-- The present command moves every burst of a range, on behalf of a partition where it is charged to one (R295). -/
def State.moves (s : State) (p : Option PartId) (coll : Bool) (a len : Nat) : State :=
  (pieces a len).foldl (fun t q =>
    match t.direct q.1 with
    | some d => { t with mem := { t.mem with moved := t.mem.moved ++ [(p, coll, d)] } }
    | none => t) s

/-- The present command moves every burst of a range on behalf of a partition (R295). -/
def State.charge (s : State) (p : PartId) (coll : Bool) (a len : Nat) : State := s.moves (some p) coll a len

/-- Every range of a list is charged. -/
def State.chargeAll (s : State) (p : PartId) (coll : Bool) (l : List (Nat × Nat)) : State :=
  l.foldl (fun t x => t.charge p coll x.1 x.2) s

/-- The present command reads a range on behalf of a partition: its errors are accounted for, its bursts charged. -/
def State.sees (s : State) (p : PartId) (coll : Bool) (who : Option At) (a len : Nat) : State :=
  (s.dramNote who false a len).charge p coll a len

/-- Whether an earlier request to the burst of a direct address waits in its stack controller. -/
def State.queuedAt (s : State) (d : Nat) : Bool := (s.stack (stackOf d)).requests.any (fun r => r.addr / 256 == d / 256)

/-- A charged burst of a waiting command at the buckets: those it still has to pass; the state, and whether it is now
admitted. -/
def State.payBurst (s : State) (p : PartId) (coll : Bool) (d : Nat) (bucketed : Bool) : State × Bool × Bool :=
  match if bucketed then some s else s.bucket p d with
  | none => (s.modPart p (fun x => { x with waited := true }), false, false)
  | some t =>
    match t.thermal coll d with
    | none => (t.modPart p (fun x => { x with waited := true }), true, false)
    | some u => (u, true, true)

/-- The bursts of a command at the regulators, in order (R294, R308): one that an earlier attempt paid for has passed.
`kept` is what was paid for before, `paid` what this command has paid for by now. -/
def State.admitBursts : List (Option PartId × Bool × Nat) → State → List (PartId × Bool × Nat × Bool) →
    List (PartId × Bool × Nat × Bool) → Bool → State × Bool
  | [], t, kept, paid, ok =>
    ({ t with mem := { t.mem with moved := [], prepaid := if ok then kept else kept ++ paid } }, ok)
  | (none, _, _) :: rest, t, kept, paid, ok => State.admitBursts rest t kept paid ok
  | (some p, coll, d) :: rest, t, kept, paid, ok =>
    if kept.contains (p, coll, d, true) then
      State.admitBursts rest t (kept.erase (p, coll, d, true)) (paid ++ [(p, coll, d, true)]) ok
    else
      let half := kept.contains (p, coll, d, false)
      let r := t.payBurst p coll d half
      State.admitBursts rest r.1 (if half then kept.erase (p, coll, d, false) else kept)
        (if r.2.1 then paid ++ [(p, coll, d, r.2.2)] else paid) (ok && r.2.2)

/-- The regulators at the bursts a command moves: the state with what they charge, and whether every burst is admitted. -/
def State.letBursts (t : State) (l : List (Option PartId × Bool × Nat)) : State × Bool :=
  State.admitBursts l t t.mem.prepaid [] true

/-- Whether bursts moved for a die can be: no earlier access to one waits in a controller (R280), no channel yields to
self-test (R561), and the path of each, in
both directions, passes now (R19, R328, R334). -/
def State.movable (s : State) (a : DieId) (l : List (Option PartId × Bool × Nat)) : Bool :=
  l.zipIdx.all (fun b => !(s.queuedAt b.1.2.2) && !(s.burstHolds b.1.2.2) && s.pathBoth a (stackDie (stackOf b.1.2.2)) (b.2 / 16))

/-- A command of a die that moves bursts outside the request queues (R280, R294, R295, R308): `f` is its effect, made only
once its bursts can be moved and every one is admitted; until then it waits and nothing of it has happened but the admission
of bursts. -/
def State.gated (s : State) (a : DieId) (f : State → Res) : Res :=
  match f s with
  | .next t =>
    if !(s.movable a t.mem.moved) then .next s
    else
      let r := t.letBursts t.mem.moved
      if r.2 then .next r.1 else .next (s.letBursts t.mem.moved).1
  | r => r

/-! ### Reads that no command waits for -/

/-- DRAM as a read arriving now finds it: with the queued writes to its bursts made (R280). -/
def State.forwarded (s : State) (a len : Nat) : State :=
  (pieces a len).foldl (fun t q =>
    match t.direct q.1 with
    | none => t
    | some d =>
      ((s.stack (stackOf d)).requests.filter (fun r => r.write && r.addr / 256 == d / 256)).foldl (fun u r =>
        { u with mem := { u.mem with dram := u.mem.dram.write r.addr r.data } }) t) s

/-- The bytes of a range, and its poisoned offsets, for a read arriving now. -/
def State.readNow (s : State) (a len : Nat) : List Byte × List Nat := (s.forwarded a len).dramBytes a len

/-- A read by the step logic or a twin or sheet engine, whose bytes are taken as it arrives: its errors are accounted
for, and its bursts join the queues, where the buckets admit them (R294, R295, R299). -/
def State.looks (s : State) (p : PartId) (a len : Nat) : State :=
  (pieces a len).foldl (fun t q =>
    match t.direct q.1 with
    | none => t
    | some d =>
      t.enqueue { part := p, coll := false, admitted := false, bucketed := false, own := true, cell := 0, xfer := 0
                  write := false, off := 0, view := q.1, addr := d, len := q.2, data := [] }) (s.dramNote none false a len)

/-! ### Mordant tables (R87) -/

/-- Group g. -/
def State.group (s : State) (g : Fin 256) : GradGroup := vget s.groups g

/-- Whether a local address lies in the tables of more than one enabled group (R95). -/
def State.tableShared (s : State) (a : Nat) : Bool :=
  decide (2 ≤ ((allFin 256).filter (fun h =>
    let x := s.group h
    x.enabled && decide (x.version false ≤ a) && decide (a < x.version false + 8 * x.blocks.toNat))).length)

/-- The block state word of block j in a version of a group; where the tables of groups overlap its mordant is undefined
(R95), a free value. -/
def State.blockWord (s : State) (g : GradGroup) (ver : Bool) (j : Nat) : Word32 :=
  let a := g.version ver + 4 * j
  let w : Word32 := BitVec.ofNat 32 (s.dramNum a 4)
  if s.tableShared a then setFld w 0 8 (Config.sharedMordant s.freeCtr a).toNat else w

/-- The mordant of block j in the active version. -/
def State.activeMordant (s : State) (g : GradGroup) (j : Nat) : Nat := fld (s.blockWord g (bit g.status 2) j) 0 8

end Sys2Proof.Machine
end

