-- ==== Sys2Proof/Machine/Operands.lean ====
section
/-!
DEFINITION. Operand forms: tile and queue descriptors (R185 to R194), the elements of a tile in a cell store (R188 to
R190), vector operand specifiers (Table 6-5), and the byte ranges an instruction names for the ordering of R198.
-/
namespace Sys2Proof.Machine

/-! ### Tile descriptors -/

/-- A tile descriptor's fields (Table 6-6). -/
structure Tile where
  ebase   : Nat
  mbase   : Nat
  rstride : Nat
  cols    : Nat
  rows    : Nat
  mstride : Nat
  trans   : Bool
  baxis   : Bool
  fmt     : BitVec 4
  deriving DecidableEq, Repr

/-- The fields of a descriptor. -/
def tileOf (t : BitVec 256) : Tile :=
  { ebase := fld t 0 23, mbase := fld t 24 23, rstride := fld t 96 24, cols := fld t 80 16 + 1,
    rows := fld t 64 16 + 1, mstride := fld t 160 16, trans := bit t 135, baxis := bit t 134, fmt := bfld t 128 4 }

/-- The reserved bits of a descriptor (Table 6-6). -/
def tileReserved (t : BitVec 256) : Bool :=
  fld t 47 17 != 0 || bit t 23 || fld t 120 8 != 0 || fld t 176 16 != 0 || fld t 136 23 != 0 || fld t 132 2 != 0 ||
  fld t 192 64 != 0

/-- The check of R187. -/
def tileGood (t : BitVec 256) : Bool :=
  bit t 159 && !(tileReserved t) && (Elem.ofCode (bfld t 128 4)).isSome && decide (fld t 0 23 < 0x600000) &&
  decide (fld t 24 23 < 0x600000) && decide (fld t 0 23 % 32 = 0) && decide (fld t 96 24 % 32 = 0)

namespace Tile

/-- The format; F32 for a reserved code, which no checked descriptor has. -/
def elem (t : Tile) : Elem := (Elem.ofCode t.fmt).getD .f32
/-- Logical rows (R190). -/
def lrows (t : Tile) : Nat := if t.trans then t.cols else t.rows
/-- Logical columns (R190). -/
def lcols (t : Tile) : Nat := if t.trans then t.rows else t.cols
/-- Elements of the stream (R190). -/
def length (t : Tile) : Nat := t.lrows * t.lcols

/-- Bytes of one stored row of the element plane (R188). -/
def rowBytes (t : Tile) : Nat :=
  let b := t.elem.block
  let n := if b ≠ 0 ∧ t.baxis = false then (t.cols + b - 1) / b * b else t.cols
  (n * t.elem.bits + 7) / 8

/-- Stored rows of the element plane (R188). -/
def planeRows (t : Tile) : Nat :=
  let b := t.elem.block
  if b ≠ 0 ∧ t.baxis = true then (t.rows + b - 1) / b * b else t.rows

/-- First byte and length of the element plane (R198). -/
def elemRange (t : Tile) : Nat × Nat := (t.ebase, (t.planeRows - 1) * t.rstride + t.rowBytes)

/-- Rows of the second plane (R189). -/
def secondRows (t : Tile) : Nat :=
  let b := t.elem.block
  if b ≠ 0 ∧ t.baxis = true then (t.rows + b - 1) / b else t.rows

/-- Bytes of one row of the second plane (R189). -/
def secondRowBytes (t : Tile) : Nat :=
  let b := t.elem.block
  if b ≠ 0 ∧ t.baxis = false then (t.cols + b - 1) / b else t.cols

/-- First byte and length of the second plane. -/
def secondRange (t : Tile) : Nat × Nat := (t.mbase, (t.secondRows - 1) * t.mstride + t.secondRowBytes)

/-- The byte ranges of the planes (R198). -/
def ranges (t : Tile) : List (Nat × Nat) := if t.elem.planes then [t.elemRange, t.secondRange] else [t.elemRange]

/-- Stored position of a logical element (R190). -/
def stored (t : Tile) (i j : Nat) : Nat × Nat := if t.trans then (j, i) else (i, j)

/-- Byte address of a stored element (R188). -/
def elemAddr (t : Tile) (r c : Nat) : Nat := t.ebase + r * t.rstride + c * t.elem.bits / 8

/-- Byte address of its mordant or extension byte (R189). -/
def secondAddr (t : Tile) (r c : Nat) : Nat :=
  let b := t.elem.block
  if b = 0 then t.mbase + r * t.mstride + c
  else if t.baxis then t.mbase + r / b * t.mstride + c
  else t.mbase + r * t.mstride + c / b

/-- Whether blocks run along the logical rows of the tile (R228). -/
def blocksAlongRows (t : Tile) : Bool := t.baxis == t.trans

/-- Whether a destination's rows and planes do not overlap (R191). -/
def destOk (t : Tile) : Bool :=
  (decide (t.rowBytes ≤ t.rstride)) &&
  (if t.elem.planes then
     (decide (t.secondRowBytes ≤ t.mstride) || decide (t.secondRows = 1)) &&
     !(overlaps t.elemRange.1 t.elemRange.2 t.secondRange.1 t.secondRange.2)
   else true)

end Tile

/-- Read a stored element. -/
def readElem (m : ProtMem) (t : Tile) (r c : Nat) : Read :=
  let a := t.elemAddr r c
  let n := t.elem.bits / 8
  let raw := m.num a (max n 1)
  let code := if t.elem.bits = 4 then (if c % 2 = 0 then raw % 16 else raw / 16) else raw
  let p := m.poisonedWord (a / 4)
  if t.elem.planes then
    let b := t.secondAddr r c
    ⟨code, (m.readByte b).toNat, p || m.poisonedWord (b / 4)⟩
  else ⟨code, 0, p⟩

/-- Read element e of the stream of a tile (R190). -/
def readStream (m : ProtMem) (t : Tile) (e : Nat) : Read :=
  let p := t.stored (e / t.lcols) (e % t.lcols)
  readElem m t p.1 p.2

/-- The value of an element, a poisoned one as NaN (Table 5-11). -/
def Read.value (x : Read) (f : Elem) : FpNum := if x.poison then .nan else f.dec x.code x.second

/-- Write the code of a stored element. -/
def writeElem (m : ProtMem) (t : Tile) (r c code : Nat) : ProtMem :=
  let a := t.elemAddr r c
  if t.elem.bits = 4 then
    let old := (m.readByte a).toNat
    let v := if c % 2 = 0 then old / 16 * 16 + code % 16 else old % 16 + code % 16 * 16
    m.write a [BitVec.ofNat 8 v]
  else m.write a (leBytes (t.elem.bits / 8) code)

/-- Write the mordant or extension byte of a stored element. -/
def writeSecond (m : ProtMem) (t : Tile) (r c v : Nat) : ProtMem := m.write (t.secondAddr r c) [BitVec.ofNat 8 v]

/-- The memory syndrome word of a word outside DRAM: its KIND, BIT and SYN (Table 9-8). -/
def localSyn (d : BitVec 39) : Word32 :=
  let syn := syndrome d
  let r := classify syn
  synWord r.kind.1 0 0 0 r.kind.2 syn

/-- The words a stored element is read from. -/
def Tile.wordsOf (t : Tile) (p : Nat × Nat) : List Nat :=
  (t.elemAddr p.1 p.2 / 4) :: (if t.elem.planes then [t.secondAddr p.1 p.2 / 4] else [])

/-- The first poisoned word of a list: its byte address and its error. -/
def ProtMem.firstPoison (m : ProtMem) (ws : List Nat) : Option (Nat × BitVec 39) :=
  (ws.find? m.poisonedWord).map (fun w => (4 * w, m.diff w))

/-- POISON recorded for the first poisoned word an instruction reads (R206, R299, R471): its address and syndrome; a
word that no address names has ADDR 0, and where the word is not known the syndrome is a mark's. -/
def State.poisonEvent (s : State) (c : CellId) (t : Tag) (src : Src) (code : Byte) (w : Option (Nat × BitVec 39)) :
    State :=
  let x := w.getD (0, poisonDiff)
  s.instrEvent c t src code (BitVec.ofNat 64 x.1) (localSyn x.2)

/-! ### Queue descriptors -/

/-- A queue descriptor's fields (Table 6-8). -/
structure QDesc where
  addr     : Word64
  kind     : Nat
  length   : Nat
  deadline : Word64
  handle   : Nat
  deriving DecidableEq, Repr

/-- The fields of a descriptor. -/
def qdescOf (q : BitVec 256) : QDesc :=
  { addr := bfld q 0 64, kind := fld q 124 4, length := fld q 64 41 + 1, deadline := bfld q 128 64,
    handle := fld q 192 24 }

/-- The check of R193. A nonzero HANDLE beside KIND DRAM or CELLSTORE is not judged, and the node of a COLL address is not
used (log entry 62). -/
def qdescGood (q : BitVec 256) : Bool :=
  bit q 223 && decide (1 ≤ fld q 124 4) && decide (fld q 124 4 ≤ 4) && decide (fld q 105 19 = 0) &&
  decide (fld q 224 32 = 0) && decide (fld q 216 7 = 0)

/-- Node of a global address (R194). -/
def nodeOf (a : Word64) : BitVec 16 := bfld a 48 16
/-- Local address of a global address (R194). -/
def localOf (a : Word64) : Nat := fld a 0 48

/-! ### Vector operand specifiers (Table 6-5) -/

/-- A decoded specifier. -/
inductive Spec where
  | reg (v : Fin 64)
  | scalar (s : BitVec 5)
  | stream (t : BitVec 4)
  | imm
  | none
  | reserved
  deriving DecidableEq, Repr

/-- Table 6-5; the immediate is a specifier of format VI only. -/
def specOf (vi : Bool) (x : BitVec 7) : Spec :=
  if h : x.toNat < 64 then .reg ⟨x.toNat, h⟩
  else if x.toNat < 96 then .scalar (bfld x 0 5)
  else if x.toNat < 112 then .stream (bfld x 0 4)
  else if x.toNat = 0x70 ∧ vi then .imm
  else if x.toNat = 0x7F then .none
  else .reserved

/-- The s registers a specifier names. -/
def Spec.sregs : Spec → List (BitVec 5)
  | .scalar r => [r]
  | _ => []

/-- The tile descriptors a specifier names. -/
def Spec.tiles : Spec → List (BitVec 4)
  | .stream t => [t]
  | _ => []

/-! ### Ordering of cell store accesses (R198, R126) -/

/-- A byte range of a cell store: start, length, whether it is written. -/
abbrev Rng := Nat × Nat × Bool

/-- Two accesses that must keep program order: the ranges overlap and one writes. -/
def clash (a b : Rng) : Bool := overlaps a.1 a.2.1 b.1 b.2.1 && (a.2.2 || b.2.2)

/-- The ranges of a tile. -/
def tileRngs (t : BitVec 256) (w : Bool) : List Rng := (tileOf t).ranges.map (fun r => (r.1, r.2, w))

/-- Slices of 128 k of an mx.mma (R104). -/
def MxInstr.slices (m : MxInstr) : Nat := ((tileOf m.ta).lcols + 127) / 128

/-- The ranges of an mx instruction (R126); of an mx.mma the tiles are read, B until `loaded` slices are all of them; of
a drain or save the tile is written. -/
def MxInstr.rngs (m : MxInstr) (loaded : Nat) : List Rng :=
  match m.kind with
  | .mma => tileRngs m.ta false ++ (if m.slices ≤ loaded then [] else tileRngs m.tb false)
  | .drain | .vsave => tileRngs m.ta true
  | .vload => tileRngs m.ta false
  | .vfree => []

/-- Stage codes of an EPI register, stage 0 first (Table 5-13). -/
def epiStages (e : Word64) : List Nat := [fld e 0 5, fld e 5 5, fld e 10 5, fld e 15 5]

/-- Whether a captured epilogue has a stage that adds a RESID tile (R156). -/
def epiResid (e : Option Word64) : Bool :=
  match e with
  | some w => (epiStages w).contains 3
  | none => false

/-- The RESID stream a queued drain would read: a read range of it (R156). -/
def Cell.residRngs (x : Cell) (m : MxInstr) : List Rng :=
  let e := vget x.regs.epi m.f.epi.toFin
  if m.kind = .drain ∧ m.f.epiv = 1 ∧ epiResid (some e) then
    tileRngs (vget (x.slot m.tag.slot).ctx.t ((bfld e 26 4).toFin)) false
  else []

/-- Stationary tiles held for an instruction of a slot (R105). -/
def Engines.tilesOf (e : Engines) (m : MxInstr) : List StatTile :=
  e.tiles.filter (fun t => t.slot == m.tag.slot && t.seq == m.tag.seq)

/-- The ranges of a queued mx instruction, its RESID stream among them; the first tile of an mx.mma may be loaded. -/
def Cell.queuedRngs (x : Cell) (m : MxInstr) : List Rng := m.rngs (x.eng.tilesOf m).length ++ x.residRngs m

/-- The ranges of a started mx instruction, its RESID stream among them (R156). -/
def MxRun.rngs (r : MxRun) : List Rng := r.ins.rngs r.tiles ++ (if epiResid r.epi then tileRngs r.resid false else [])

/-- The ranges of a vx instruction's streams: D is written, the others read. -/
def VxInstr.rngs (m : VxInstr) : List Rng :=
  let f := fun (k : Fin 4) (x : BitVec 7) (w : Bool) =>
    match specOf m.vi x with
    | .stream _ => tileRngs (vget m.descs k) w
    | _ => []
  (f 0 m.d true) ++ (if m.vi then f 0 m.d false else []) ++ f 1 m.a false ++ f 2 m.b false ++ f 3 m.c false

/-- The offset range in a cell's own store that a queue descriptor names, where it names that cell's window; `loc` says
which node numbers are local (R348). -/
def ownRange (c : CellId) (loc : BitVec 16 → Bool) (q : QDesc) (w : Bool) : List Rng :=
  let a := localOf q.addr
  if q.kind = 2 ∧ loc (nodeOf q.addr) ∧ windowBase + c.val * 0x800000 ≤ a ∧
      a < windowBase + (c.val + 1) * 0x800000 then
    [(a - windowBase - c.val * 0x800000, q.length, w)]
  else []

/-- The ranges of a dm instruction in its cell's store. -/
def DmInstr.rngs (c : CellId) (loc : BitVec 16 → Bool) (m : DmInstr) : List Rng :=
  let e := (tileOf m.td).elemRange
  match m.op.toNat with
  | 1 => (e.1, e.2, true) :: ownRange c loc (qdescOf m.qd) false
  | 2 => (e.1, e.2, false) :: ownRange c loc (qdescOf m.qd) true
  | _ => ownRange c loc (qdescOf m.qd) false ++ ownRange c loc (qdescOf m.qd2) true

/-- The ranges of a running vx.optstep: its descriptor and its staging window. -/
def OptRun.rngs (r : OptRun) : List Rng :=
  [(r.ins.imm.toNat % 2 ^ 23, 128, false), (field r.desc 0x48 8, 2 ^ 20, true)]

/-- Ranges of every outstanding instruction of a slot, with its place in program order; `opt` gives those of a queued
vx.optstep. -/
def Cell.outstandingBy (x : Cell) (c : CellId) (loc : BitVec 16 → Bool) (i : SlotId) (opt : VxInstr → List Rng) :
    List (Nat × List Rng) :=
  let e := x.eng
  ((e.plateQ.filter (fun m => m.tag.slot == i)).map (fun m => (m.tag.seq, x.queuedRngs m))) ++
  ((e.plateRun.filter (fun m => m.ins.tag.slot == i)).map (fun m => (m.ins.tag.seq, m.rngs))) ++
  ((e.vecQ.filter (fun m => m.tag.slot == i)).map (fun m => (m.tag.seq, if m.op = 0x40 then opt m else m.rngs))) ++
  (match e.vecRun with
   | some r => if r.ins.tag.slot == i then [(r.ins.tag.seq, r.ins.rngs)] else []
   | none => []) ++
  (match e.optRun with
   | some r => if r.ins.tag.slot == i then [(r.ins.tag.seq, r.rngs)] else []
   | none => []) ++
  ((e.moverQ.filter (fun m => m.tag.slot == i)).map (fun m => (m.tag.seq, m.rngs c loc))) ++
  (e.xfers.toList.filterMap (fun r =>
    match r with
    | some t => if t.ins.tag.slot == i && !t.discarded then some (t.ins.tag.seq, t.ins.rngs c loc) else none
    | none => none))

/-- The ranges of a queued vx.optstep: its descriptor, and the staging window the descriptor names (R157, R198). While
an earlier instruction has the descriptor still to write, the window is not known yet and any byte of the store may lie
in it. -/
def Cell.optRngs (x : Cell) (c : CellId) (loc : BitVec 16 → Bool) (m : VxInstr) : List Rng :=
  let off := fld m.imm 0 23
  let named := (off, 128, false)
  let window := fun (n : VxInstr) => (field (x.store.read (fld n.imm 0 23) 128) 0x48 8, 2 ^ 20, true)
  let unknown := (x.outstandingBy c loc m.tag.slot (fun n => [window n])).any (fun o =>
    decide (o.1 < m.tag.seq) && o.2.any (fun r => r.2.2 && clash r named))
  [named, if unknown then (0, 0x600000, true) else window m]

/-- Ranges of every outstanding instruction of a slot, with its place in program order. -/
def Cell.outstanding (x : Cell) (c : CellId) (loc : BitVec 16 → Bool) (i : SlotId) : List (Nat × List Rng) :=
  x.outstandingBy c loc i (x.optRngs c loc)

/-- Whether an earlier instruction of the slot still holds a range that an access needs (R198). -/
def Cell.rangesHeld (x : Cell) (c : CellId) (loc : BitVec 16 → Bool) (i : SlotId) (seq : Nat) (rs : List Rng) : Bool :=
  (x.outstanding c loc i).any (fun o => decide (o.1 < seq) && o.2.any (fun a => rs.any (fun b => clash a b)))

end Sys2Proof.Machine
end

