-- ==== Sys2Proof/Machine/Flags.lean ====
section
/-!
DEFINITION. Flags: predicates and relations (R177, R218, R219), pending s registers (R149, R196), and the stop bits of
a cell (R42, R44).
-/
namespace Sys2Proof.Machine

/-- Whether an instruction's predicate lets it act (R177); p0 reads true (R172). -/
def predTrue (p : Pred) (ps : BitVec 8) : Bool :=
  if p.preg = 0 then true else (bit ps p.preg.toNat) != p.neg

/-- The reserved predicate field (R177). -/
def predReserved (p : Pred) : Bool := p.neg && p.preg == 0

/-- The value of predicate k; p0 is true (R172). -/
def predVal (ps : BitVec 8) (k : BitVec 3) : Bool := if k = 0 then true else bit ps k.toNat

/-- Whether an integer relation code is allocated (Table 7-1). -/
def intRelOk (code : BitVec 3) : Bool := decide (code.toNat ≤ 5)

/-- Integer relations (Table 7-1). -/
def intRel (code : BitVec 3) (a b : Word64) : Bool :=
  match code.toNat with
  | 0 => a == b
  | 1 => a != b
  | 2 => a.slt b
  | 3 => a.ult b
  | 4 => !(b.slt a)
  | _ => !(b.ult a)

/-- Whether an F32 relation code is allocated (Table 7-1). -/
def fltRelOk (code : BitVec 3) : Bool := code == 0 || code == 1 || code == 2 || code == 4

/-- F32 relations: a NaN makes every one false but ne (Table 5-1, R218). -/
def numRel (code : Nat) (a b : FpNum) : Bool :=
  match code with
  | 0 => a.eq b
  | 1 => !(a.eq b)
  | 2 => a.lt b
  | _ => a.lt b || a.eq b

/-- F32 relations on words, by the codes of Table 7-1. -/
def fltRel (code : BitVec 3) (a b : Word32) : Bool :=
  numRel (if code = 4 then 3 else code.toNat) (f32 a) (f32 b)

/-- Predicate combination of sc.pop: and, or, xor, andn (R219). -/
def popOp (k : BitVec 2) (a b : Bool) : Bool :=
  match k.toNat with
  | 0 => a && b
  | 1 => a || b
  | 2 => a != b
  | _ => a && !b

/-- The s register a queued or running vx instruction will write, with the slot (R149). -/
def VxInstr.destS (m : VxInstr) : Option (BitVec 5) :=
  if m.op = 0x30 ∨ m.op = 0x38 then
    match specOf m.vi m.d with
    | .scalar r => some r
    | _ => none
  else none

/-- Whether an s register of a slot is pending (R149). -/
def Cell.pendingS (x : Cell) (i : SlotId) (r : BitVec 5) : Bool :=
  x.eng.vecQ.any (fun m => m.tag.slot == i && m.destS == some r) ||
  (match x.eng.vecRun with | some k => k.ins.tag.slot == i && k.ins.destS == some r | none => false) ||
  x.eng.results.any (fun k => k.slot == i && k.reg == r)

/-- The stop bits of Table 2-3. -/
inductive StopBit where
  | nonfinite | stale | abort | bleed | fade | throttled | straggler
  deriving DecidableEq, Repr

/-- Bit number of a stop bit. -/
def StopBit.index : StopBit → Nat
  | .nonfinite => 0 | .stale => 1 | .abort => 2 | .bleed => 3 | .fade => 4 | .throttled => 5 | .straggler => 6

/-- A source sets a stop bit of a cell; frozen bits do not change and STOP_BIT_LATE is written (R44). The bubble slot
sets none (R267). -/
def State.setStop (s : State) (a : At) (b : StopBit) : State :=
  if a.slot ≠ 0 then s
  else if (s.cell a.cell).frozen then
    s.report { (s.errRec (dieOf a.cell) (sysStatus 0x01) .event).withCtx s a with engine := 0x0F }
  else s.modCell a.cell (fun x => { x with stopBits := setBit x.stopBits b.index true })

/-- Set a stop bit where a condition holds. -/
def State.setStopIf (s : State) (a : At) (cond : Bool) (b : StopBit) : State := if cond then s.setStop a b else s

/-- Whether a cell's word skips the step: bits 2 to 0 (R43). -/
def skips (w : BitVec 16) : Bool := decide (fld w 0 3 ≠ 0)

end Sys2Proof.Machine
end

