-- ==== Sys2Proof/Machine/Issue.lean ====
section
/-!
DEFINITION. How the control core takes an instruction (Table 5-8): fetch checks, decode checks, predicate, holds at
Read, then its work; and the dispatch of mx, vx, dm and cl instructions to their queues (R163, R195).
A held instruction changes nothing but CORE_STATUS.STALL; the command that carries it is sent again (log entry 5).
-/
namespace Sys2Proof.Machine

/-- In restore mode the cell issues nothing from the bubble slot (R144). -/
def Cell.bubbleHeld (x : Cell) (i : SlotId) : Bool := x.eng.restore && i == 1

/-- Whether a slot's context issues from the control core: it runs, is not stopping or waiting, and its cell is not
between contexts; in restore mode the bubble slot issues nothing (R144, R207, R257). -/
def Cell.issues (x : Cell) (i : SlotId) : Bool :=
  x.running == some i && (x.slot i).state == .running && !(x.slot i).stopping && (x.slot i).wait == .none &&
  x.switch == .none && !(x.bubbleHeld i)

/-- What an instruction captures of its context (R472, R36). -/
def Slot.tag (x : Slot) (i : SlotId) (cls : BitVec 4) (op : Byte) (bad : Bool) : Tag :=
  ⟨i, x.seqNext, cls, op, x.ctx.pc, x.job, bad⟩

/-- A fault of the control core (Table 6-12). -/
def State.coreFault (s : State) (a : At) (cls : BitVec 4) (op : Byte) (code : Byte) (addr : Word64) : State :=
  s.instrFault a.cell ((s.slot a).tag a.slot cls op false) .core code addr

/-- POISON in `n` bytes of the cell store that the core reads at `ad`: ADDR is the access's address, SYNDROME that of
its first poisoned word (Table 6-12, R299, R471). -/
def State.corePoison (s : State) (a : At) (cls : BitVec 4) (op : Byte) (ad n : Nat) : State :=
  let m := (s.cell a.cell).store
  let w := (m.poisonIn ad n).head?
  s.instrFaultSyn a.cell ((s.slot a).tag a.slot cls op false) .core 0x08 (BitVec.ofNat 64 ad)
    (localSyn (match w with | some i => m.diff i | none => poisonDiff))

/-- The byte offset of the next instruction (R182). -/
def Slot.fetchAddr (x : Slot) : Nat := 8 * x.ctx.pc.toNat

/-- The fetch faults of Table 6-12 (R182): SLOT_BOUNDS, POISON. -/
def State.fetchFault (s : State) (a : At) : Option Byte :=
  let x := s.cell a.cell
  let pc := (x.slot a.slot).fetchAddr
  if !(x.inPart a.slot pc 8) then some 0x04
  else if x.store.anyPoison pc 8 then some 0x08
  else none

/-- Count an instruction issued; the core issues (Table 5-15). -/
def State.countIssue (s : State) (a : At) : State :=
  s.modCell a.cell (fun x => x.modRegs (fun r => { r with coreIssue := r.coreIssue + 1, stall := 0 }))

/-- CORE_STATUS.STALL (Table 5-15). -/
def State.stall (s : State) (a : At) (code : BitVec 4) : State :=
  s.modCell a.cell (fun x => x.modRegs (fun r => { r with stall := code }))

/-- The instruction retires: the PC moves to the next one. -/
def State.retire (s : State) (a : At) : State := s.modSlot a Slot.retire

/-- Hold an instruction: nothing but STALL changes. Holds that Table 5-15 gives no code show 0x0 in STALL (DESIGN
CHOICE, log entry 54). -/
def State.hold (s : State) (a : At) (code : BitVec 4) : Res := .next (s.stall a code)

/-- The outcome of the decode checks of an instruction word: whether its format-level reserved fields are zero (R177,
R179), and whether its other fields hold allocated values and those its opcode does not use are zero (R172, R180, R217),
which a false predicate leaves unchecked (R197). -/
structure Checks where
  fmt  : Bool
  code : Bool
  deriving DecidableEq, Repr

/-- Take an instruction (Table 5-8): `ok` is the outcome of the decode checks, `names` the s registers it names,
`body` its work from Read on. -/
def State.issue (s : State) (a : At) (p : Pred) (cls : BitVec 4) (op : Byte) (ok : Checks) (names : List (BitVec 5))
    (body : State → Res) : Res :=
  if (s.cell a.cell).issues a.slot = false then .next s
  else
    match s.fetchFault a with
    | some code =>
      if code = 0x08 then .next (s.corePoison a cls op (s.slot a).fetchAddr 8)
      else .next (s.coreFault a cls op code (BitVec.ofNat 64 (s.slot a).fetchAddr))
    | none =>
      if ok.fmt = false ∨ predReserved p then .next (s.coreFault a cls op 0x02 0)
      else if predTrue p (s.slot a).ctx.p = false then .next ((s.countIssue a).retire a)
      else if ok.code = false then .next (s.coreFault a cls op 0x02 0)
      else if names.any (fun r => (s.cell a.cell).pendingS a.slot r) then s.hold a 0x5
      else body s

/-- s register r. -/
def State.sreg (s : State) (a : At) (r : BitVec 5) : Word64 := vget (s.slot a).ctx.s r.toFin

/-- Write s register r. -/
def Ctx.setS (x : Ctx) (r : BitVec 5) (v : Word64) : Ctx := { x with s := vset x.s r.toFin v }

/-- Write predicate k. -/
def Ctx.setP (x : Ctx) (k : BitVec 3) (v : Bool) : Ctx := { x with p := setBit x.p k.toNat v }

/-- Tile descriptor t. -/
def State.treg (s : State) (a : At) (t : BitVec 4) : BitVec 256 := vget (s.slot a).ctx.t t.toFin

/-- Queue descriptor q. -/
def State.qreg (s : State) (a : At) (q : BitVec 3) : BitVec 256 := vget (s.slot a).ctx.q q.toFin

/-- An instruction that changes its context and retires. -/
def State.finish (s : State) (a : At) (f : Ctx → Ctx) : Res := .next (((s.countIssue a).modCtx a f).retire a)

/-- An instruction that takes a control core fault from Read on; it has issued. -/
def State.trap (s : State) (a : At) (cls : BitVec 4) (op : Byte) (code : Byte) (addr : Word64) : Res :=
  .next ((s.countIssue a).coreFault a cls op code addr)

/-! ### Dispatch -/

/-- What the phase at dispatch refuses a foreground mx, vx, dm or cl instruction (Table 2-1, R36, R40, R144), and the
bubble slot its vx.optstep (R267). -/
def State.phaseRefuses (s : State) (a : At) (cls : BitVec 4) (op : Byte) : Bool :=
  if a.slot ≠ 0 then cls == 3 && op == 0x40
  else
    match s.phaseFor a with
    | some .closed => !((cls == 4 && op == 1) || (cls == 3 && op == 0x41))
    | some .expose => cls == 3 && op == 0x40
    | some .fix => !(cls == 3 && op == 0x40)
    | some _ => true
    | none => cls == 3 && op == 0x40

/-- The tag of an instruction dispatched now. -/
def State.dispatchTag (s : State) (a : At) (cls : BitVec 4) (op : Byte) : Tag :=
  (s.slot a).tag a.slot cls op (s.phaseRefuses a cls op)

/-- Dispatch: change the engines of the cell, count the issue and go on. -/
def State.dispatch (s : State) (a : At) (f : Engines → Engines) : Res :=
  .next (((s.countIssue a).modCell a.cell (fun x => x.modEng f)).retire a)

/-! ### Grain (R150 to R154) -/

/-- mix of R151. -/
def mix (x : Word64) : Word64 :=
  let x := x ^^^ (x >>> 31)
  let x := x * 0x7FB5D329728EA185
  let x := x ^^^ (x >>> 27)
  let x := x * 0x81DADEF4BC2DD44D
  x ^^^ (x >>> 33)

/-- The key of a logical lane (R151). -/
def grainKey (jobSeed stepIndex : Word64) (slot lane : Word32) : Word64 :=
  mix (jobSeed ^^^ mix (stepIndex ^^^ mix (slot ++ lane)))

/-- Grain word n of a key (R151). -/
def grainWord (key : Word64) (n : Nat) : Word32 :=
  bfld (mix (key + BitVec.ofNat 64 (n + 1) * 0x9E3779B97F4A7C15)) 0 32

/-- The grain word an instruction that captured `d` uses on a local lane, `k` words into its reservation (R246). -/
def Draw.word (d : Draw) (lane k : Nat) : Word32 :=
  grainWord (grainKey d.jobSeed d.stepIndex d.seqSlot (d.laneBase + BitVec.ofNat 32 lane))
    ((Sparse.get 0 d.start lane).toNat + k)

/-- Draws of an instruction by lane: how many words each local lane needs (R154). -/
def drawsPerLane (elems lanes lane : Nat) : Nat := if lane < elems then (elems - lane - 1) / lanes + 1 else 0

/-- Add counts to the draw counters of lanes 0 to n − 1. -/
def addCounters (c : Sparse (BitVec 49)) (n : Nat) (need : Nat → Nat) : Sparse (BitVec 49) :=
  (List.range n).foldl (fun m l => Sparse.set 0 m l (Sparse.get 0 m l + BitVec.ofNat 49 (need l))) c

/-- Reserve draw counters (R152, R154): what the instruction captures, and the grain state after it. A lane count of
zero reserves nothing. -/
def Grain.reserve (g : Grain) (lanes : Nat) (need : Nat → Nat) : Draw × Grain :=
  let spent := (List.range lanes).any (fun l =>
    decide (0 < need l) && decide (2 ^ 48 < (Sparse.get 0 g.counters l).toNat + need l))
  let d : Draw := ⟨g.seeded, spent, g.jobSeed, g.stepIndex, g.seqSlot, g.keyBase, g.counters⟩
  if g.seeded && !spent then (d, { g with counters := addCounters g.counters lanes need }) else (d, g)

/-- A plain draw record of a slot, nothing reserved. -/
def Grain.plain (g : Grain) : Draw := ⟨g.seeded, false, g.jobSeed, g.stepIndex, g.seqSlot, g.keyBase, g.counters⟩

/-- The kind of instruction an s-register-free dispatch needs: set the grain of a slot. -/
def State.setGrain (s : State) (a : At) (g : Grain) : State := s.modSlot a (fun x => { x with grain := g })

end Sys2Proof.Machine
end

