-- ==== Sys2Proof/Machine/Plate.lean ====
section
/-!
DEFINITION. The plate and the vat (chapter 4) and the plate class (mx, Table 7-6): dispatch, the plate queue, row-cycles,
promotions and vat row transfers with the drain epilogue (Table 5-5).
-/
namespace Sys2Proof.Machine

/-! ### The vat -/

/-- Byte offset of entry j of vat row r. -/
def vatAddr (r j : Nat) : Nat := r * 512 + 4 * j

/-- Vat entry: its F32 word, and whether it is read poisoned. -/
def vatEntry (v : ProtMem) (r j : Nat) : Word32 × Bool :=
  let w := v.readWord (r * 128 + j)
  (w.1, w.2.poisoned)

/-- Write vat entries of a row from column j on. -/
def vatPut (v : ProtMem) (r j : Nat) (ws : List Word32) : ProtMem :=
  v.write (vatAddr r j) (ws.flatMap (fun w => leBytes 4 w.toNat))

/-- The canonical NaN of F32 (Table 3-2). -/
def nanF32 : Word32 := 0x7FC00000

/-- The first poisoned entry of `n` entries of a vat row, at its address in the debug aperture (R131). -/
def vatPoison (v : ProtMem) (r n : Nat) : Option (Nat × BitVec 39) :=
  (v.firstPoison ((List.range n).map (r * 128 + ·))).map (fun x => (0x600000 + x.1, x.2))

/-- K_p of a PLATE_CFG (Table 4-9). -/
def kpOf (cfg : Word32) : Nat := 2 ^ (max (fld cfg 0 3) 3)

/-! ### Dispatch -/

/-- Scoreboard entries of an mx instruction (R126), one a range: A of an mx.mma and B until its last stationary tile is
loaded, the tile of a transfer, the RESID stream of a drain (R156). -/
def MxInstr.entries (m : MxInstr) (loaded : Nat) (resid : Bool) : Nat :=
  match m.kind with
  | .mma => if m.slices ≤ loaded then 1 else 2
  | .drain => 1 + bnat resid
  | .vsave | .vload => 1
  | .vfree => 0

/-- Entries in use of a context's scoreboard (R126). -/
def Cell.scoreboard (x : Cell) (i : SlotId) : Nat :=
  ((x.eng.plateQ.filter (fun m => m.tag.slot == i)).map (fun m =>
    m.entries (x.eng.tilesOf m).length (!(x.residRngs m).isEmpty))).sum +
  ((x.eng.plateRun.filter (fun r => r.ins.tag.slot == i)).map (fun r => r.ins.entries r.tiles (epiResid r.epi))).sum

/-- Whether a drain reserves grain: under SR, whatever the destination (R122, R154). -/
def drainDraws (f : FmtM) : Bool := f.rm == 2

/-- The mx instruction an instruction word is dispatched as, with nothing drawn: `useA` and `useB` say which of TA and
TB it names. -/
def State.mxInstr (s : State) (a : At) (f : FmtM) (kind : MxKind) (op : Byte) (useA useB : Bool) : MxInstr :=
  ⟨s.dispatchTag a 2 op, kind, f, if useA then s.treg a f.ta else 0, if useB then s.treg a f.tb else 0,
    (s.slot a).grain.plain⟩

/-- Dispatch an mx instruction (R163, R187, R126, R154). -/
def State.mxDispatch (s : State) (a : At) (p : Pred) (f : FmtM) (kind : MxKind) (op : Byte) (useA useB : Bool) :
    Res :=
  s.issue a p 2 op ⟨true, true⟩ [] (fun s =>
    let x := s.cell a.cell
    let m := s.mxInstr a f kind op useA useB
    let n := x.scoreboard a.slot
    if (useA && !(tileGood m.ta)) || (useB && !(tileGood m.tb)) then s.trap a 2 op 0x03 0
    else if 64 ≤ x.eng.plateQ.length then s.hold a 0x1
    else if 16 ≤ n ∨ 16 < n + m.entries 0 (!(x.residRngs m).isEmpty) then s.hold a 0xA
    else
      let g := (s.slot a).grain
      let t := tileOf m.ta
      let dg := if kind = .drain ∧ drainDraws f ∧ m.tag.phaseBad = false then
          g.reserve 128 (fun l => if l < t.lcols then t.lrows else 0)
        else (g.plain, g)
      (s.setGrain a dg.2).dispatch a (fun e => { e with plateQ := e.plateQ ++ [{ m with draw := dg.1 }] }))

/-- mx.mma (R103). -/
def execMxMma (a : At) (p : Pred) (f : FmtM) (s : State) : Res := s.mxDispatch a p f .mma 0x01 true true
/-- mx.drain (R120). -/
def execMxDrain (a : At) (p : Pred) (f : FmtM) (s : State) : Res := s.mxDispatch a p f .drain 0x02 true false
/-- mx.vsave (R124). -/
def execMxVsave (a : At) (p : Pred) (f : FmtM) (s : State) : Res := s.mxDispatch a p f .vsave 0x03 true false
/-- mx.vload (R124). -/
def execMxVload (a : At) (p : Pred) (f : FmtM) (s : State) : Res := s.mxDispatch a p f .vload 0x04 true false
/-- mx.vfree (R225). -/
def execMxVfree (a : At) (p : Pred) (f : FmtM) (s : State) : Res := s.mxDispatch a p f .vfree 0x05 false false

/-! ### Issue checks (Table 4-8) -/

/-- Operand classes of Table 4-1: 0 W16, 1 E8, 2 E4, 3 F32; none for formats the plate does not take. -/
def plateClass : Elem → Option Nat
  | .w16 | .h16 => some 0
  | .e8m | .e8w | .ac8 => some 1
  | .e4 => some 2
  | .f32 => some 3
  | _ => none

/-- The class at whose rate an mx.mma runs (R106, R107): that of fewer MAC per cycle of its operands; W16 where the blocks
of one lie across k. F32 pairs with itself. -/
def rateClass (ta tb : Tile) : Fin 4 :=
  let across := (ta.elem.block != 0 && !ta.blocksAlongRows) || (tb.elem.block != 0 && tb.blocksAlongRows)
  match plateClass ta.elem, plateClass tb.elem with
  | some 3, _ => 3
  | some a, some b => if across then 0 else Fin.ofNat 4 (min a b)
  | _, _ => 0

/-- Destination formats of mx.drain (R120). -/
def drainFmt : Elem → Bool
  | .f32 | .w16 | .h16 | .e8m | .e8w | .e4 | .ac8 => true
  | _ => false

/-- Whether the fields an mx opcode does not name are zero (R224, R225). EPI of a drain whose EPIV is 0 is not checked
(DESIGN CHOICE, log entry 62: no rule names it reserved). -/
def MxInstr.fieldsOk (m : MxInstr) : Bool :=
  let f := m.f
  let z := f.count == 0
  let noEpi := f.epiv == 0 && f.epi == 0 && f.rm == 0
  match m.kind with
  | .mma => z && noEpi && fld f.flags 1 9 == 0
  | .drain => z && f.tb == 0 && f.rm != 3 && fld f.flags 1 9 == 0
  | .vsave => z && f.tb == 0 && noEpi && fld f.flags 1 9 == 0
  | .vload => z && f.tb == 0 && noEpi && f.flags == 0
  | .vfree => f.ta == 0 && f.tb == 0 && noEpi && f.flags == 0

/-- Rows of the vat an instruction names: M (R103, R192, R225). -/
def MxInstr.rows (m : MxInstr) : Nat := if m.kind = .vfree then m.f.count.toNat else (tileOf m.ta).lrows

/-- Whether every range of a tile lies in a slot's part (R110). -/
def Cell.tileInPart (x : Cell) (i : SlotId) (t : BitVec 256) : Bool :=
  (tileOf t).ranges.all (fun r => x.inPart i r.1 r.2)

/-- The check of a RESID descriptor (R156). -/
def residCode (x : Cell) (i : SlotId) (t : BitVec 256) (m n : Nat) : Option Byte :=
  if !(tileGood t) then some 0x01
  else if (tileOf t).lrows < m ∨ (tileOf t).lcols < n then some 0x01
  else if (tileOf t).elem ≠ .f32 then some 0x03
  else if !(x.tileInPart i t) then some 0x04
  else none

/-- The issue fault of an mx instruction, if any (Table 4-8): the phase, reserved fields, grain, formats, shape, vat
range, slot bounds, in this order. -/
def MxInstr.fault (m : MxInstr) (x : Cell) (epi : Option Word64) (resid : BitVec 256) : Option Byte :=
  let ta := tileOf m.ta
  let tb := tileOf m.tb
  let i := m.tag.slot
  let base := m.f.base.toNat
  let stages := match epi with | some e => epiStages e | none => []
  if m.tag.phaseBad then some 0x07
  else if !m.fieldsOk || stages.any (fun k => decide (6 < k)) then some 0x05
  else if m.kind = .drain ∧ drainDraws m.f ∧ m.draw.seeded = false then some 0x06
  else if m.kind = .drain ∧ drainDraws m.f ∧ m.draw.exhausted then some 0x0A
  else
    match m.kind with
    | .mma =>
      match plateClass ta.elem, plateClass tb.elem with
      | some ca, some cb =>
        if (ca == 3) != (cb == 3) then some 0x03
        else if ta.lcols ≠ tb.lrows ∨ 4096 < ta.lrows ∨ 128 < tb.lcols ∨ 65536 < ta.lcols then some 0x01
        else if 4096 < base + ta.lrows then some 0x02
        else if !(x.tileInPart i m.ta && x.tileInPart i m.tb) then some 0x04
        else none
      | _, _ => some 0x03
    | .drain =>
      if !(drainFmt ta.elem) then some 0x03
      else if ta.trans ∨ (ta.elem.block ≠ 0 ∧ (ta.baxis ∨ ta.mstride ≠ 4)) ∨ !ta.destOk ∨ 4096 < ta.lrows ∨
          128 < ta.lcols then some 0x01
      else if 4096 < base + ta.lrows then some 0x02
      else if !(x.tileInPart i m.ta) then some 0x04
      else if stages.contains 3 then residCode x i resid ta.lrows ta.lcols
      else none
    | .vsave | .vload =>
      if ta.elem ≠ .f32 ∧ ta.elem ≠ .u32 then some 0x03
      else if ta.trans ∨ ta.lcols ≠ 128 ∨ 4096 < ta.lrows ∨ (m.kind = .vsave ∧ ta.rstride < 512) then some 0x01
      else if 4096 < base + ta.lrows then some 0x02
      else if !(x.tileInPart i m.ta) then some 0x04
      else none
    | .vfree =>
      if m.f.count.toNat = 0 ∨ 4096 < m.f.count.toNat then some 0x01
      else if 4096 < base + m.f.count.toNat then some 0x02
      else none

/-! ### Holds (Table 4-4) -/

/-- Slices of a started mx.mma (R104). -/
def MxRun.slices (r : MxRun) : Nat := r.ins.slices

/-- Rows a started instruction has still to stream, read or write: of an mx.mma those with a row-cycle to come, of a
transfer the rest; a vat release holds no one (Table 4-4). -/
def MxRun.pendingRow (r : MxRun) (row : Nat) : Bool :=
  let base := r.ins.f.base.toNat
  let lo := if r.ins.kind = .mma ∧ r.slice + 1 < r.slices then base else base + r.row
  r.ins.kind != .vfree && decide (lo ≤ row) && decide (row < base + r.ins.rows)

/-- Whether an mx.mma's next row-cycle on a row is held by earlier instructions: a transfer that has not yet reached
the row (R125). -/
def rowHeldForMma (earlier : List MxRun) (row : Nat) : Bool :=
  earlier.any (fun r => r.ins.kind != .mma && r.pendingRow row)

/-- Whether a row awaits promotions of earlier instructions: row-cycles to come, or in the in-flight window. -/
def awaitsPromotion (earlier : List MxRun) (infl : List InFlight) (order row : Nat) : Bool :=
  infl.any (fun f => f.row == row && decide (f.order < order)) ||
  earlier.any (fun q => q.ins.kind == .mma && q.pendingRow row)

/-- Whether a drain or save is held: a row it has not read awaits promotions, or an earlier load has not written one
(R125). -/
def drainHeld (earlier : List MxRun) (infl : List InFlight) (r : MxRun) : Bool :=
  let base := r.ins.f.base.toNat
  let rows := (List.range (r.ins.rows - r.row)).map (· + base + r.row)
  rows.any (fun row => awaitsPromotion earlier infl r.order row ||
    earlier.any (fun q => q.ins.kind == .vload && q.pendingRow row))

/-- Whether a row a load writes or a release frees is held: promotions to it come first, or an earlier transfer is not
past it (R125). -/
def rowHeld (earlier : List MxRun) (infl : List InFlight) (order row : Nat) : Bool :=
  awaitsPromotion earlier infl order row || earlier.any (fun q => q.pendingRow row)

/-- Whether a load's next row is held. -/
def vloadHeld (earlier : List MxRun) (infl : List InFlight) (r : MxRun) : Bool :=
  rowHeld earlier infl r.order (r.ins.f.base.toNat + r.row)

/-- The first started instruction that satisfies a test of the ones before it. -/
def firstRun (test : List MxRun → MxRun → Bool) : List MxRun → List MxRun → Option Nat
  | _, [] => none
  | before, r :: rest => if test before r then some before.length else firstRun test (before ++ [r]) rest

/-- Started vat releases free the rows that no hold keeps any longer (R125, R225): the rows freed, and the started
instructions left. -/
def settleFrees (infl : List InFlight) : List MxRun → List MxRun → List Nat × List MxRun
  | _, [] => ([], [])
  | before, r :: rest =>
    let q := settleFrees infl (before ++ [r]) rest
    if r.ins.kind = .vfree then
      let p := r.frees.partition (fun row => rowHeld before infl r.order row)
      (p.2 ++ q.1, if p.1.isEmpty then q.2 else { r with frees := p.1 } :: q.2)
    else (q.1, r :: q.2)

/-- The cell once its started vat releases have taken every effect they can. -/
def Cell.freed (x : Cell) : Cell :=
  let p := settleFrees x.eng.inflight [] x.eng.plateRun
  { x with vatLive := p.1.foldl (fun w row => setBit w row false) x.vatLive, eng := { x.eng with plateRun := p.2 } }

/-- Vector passes an epilogue takes per entry (Table 5-5). -/
def epiPasses (e : Option Word64) : Nat :=
  match e with
  | none => 0
  | some w => ((epiStages w).map (fun k => if k = 0 then 0 else if k = 5 then 7 else if k = 6 then 5 else 1)).sum

/-- Whether a drain's epilogue runs: the drain is released and its epilogue takes vector passes (R123). -/
def Cell.epilogueRuns (x : Cell) : Bool :=
  (firstRun (fun before r => r.ins.kind == .drain && decide (0 < epiPasses r.epi) && !(drainHeld before x.eng.inflight r))
    [] x.eng.plateRun).isSome

/-! ### The plate queue -/

/-- The epilogue registers a drain reads as it leaves the queue (R156): EPI, the 128 words of VREG for a BIAS stage,
and the RESID descriptor. -/
def State.epilogue (s : State) (c : CellId) (m : MxInstr) : Option Word64 × List (Word32 × Bool) × BitVec 256 :=
  if m.kind = .drain ∧ m.f.epiv = 1 then
    let e := vget (s.cell c).regs.epi m.f.epi.toFin
    let y := (s.cell c).slot m.tag.slot
    let v := fld e 20 6
    (some e, (List.range 128).map (fun j => let w := y.ctx.v.readWord (v * 256 + j); (w.1, w.2.poisoned)),
      vget y.ctx.t ((bfld e 26 4).toFin))
  else (none, [], 0)

/-- The started instruction an mx instruction becomes as it leaves the plate queue. -/
def Cell.mxRun (x : Cell) (m : MxInstr) (ep : Option Word64 × List (Word32 × Bool) × BitVec 256) : MxRun :=
  let held := x.eng.tilesOf m
  { ins := m, order := x.eng.plateNext, kp := kpOf x.regs.plateCfg, epi := ep.1, bias := ep.2.1, resid := ep.2.2,
    tiles := held.length, slice := 0, row := 0,
    frees := if m.kind = .vfree then (List.range m.rows).map (· + m.f.base.toNat) else [],
    poisoned := held.any (fun t => t.cols.any (fun l => l.any (·.poison))) }

/-- The plate queue starts its oldest instruction once its holds clear (R125 to R127, R130). A vat release takes effect
row by row as the instructions before it are done with the row, and holds none after it. -/
def execPlateIssue (c : CellId) (s : State) : Res :=
  let x := s.cell c
  match x.eng.plateQ with
  | [] => .next s
  | m :: rest =>
    let ep := s.epilogue c m
    if x.eng.vatClear ∨ x.eng.restore ∨ x.rangesHeld c s.isLocal m.tag.slot m.tag.seq (x.queuedRngs m) then .next s
    else
      match m.fault x ep.1 ep.2.2 with
      | some code =>
        .next ((s.modCell c (fun y => y.modEng (fun e => { e with
          plateQ := rest, tiles := e.tiles.filter (fun t => !((x.eng.tilesOf m).contains t)) }))).instrFault c m.tag
            .plate code 0)
      | none =>
        .next (s.modCell c (fun y => (y.modEng (fun e => { e with
          plateQ := rest, plateNext := e.plateNext + 1, plateRun := e.plateRun ++ [x.mxRun m ep] })).freed))

/-- Logical element (i, j) of a tile. -/
def readLogical (m : ProtMem) (t : Tile) (i j : Nat) : Read :=
  let p := t.stored i j
  readElem m t p.1 p.2

/-- The last k of a slice, exclusive (R104): the last slice holds the remainder. -/
def MxInstr.sliceEnd (m : MxInstr) (slice : Nat) : Nat := min (tileOf m.ta).lcols (slice * 128 + 128)

/-- The stationary tile of a slice as the cell store holds it (R104). -/
def MxInstr.statTile (m : MxInstr) (store : ProtMem) (slice : Nat) : StatTile :=
  let tb := tileOf m.tb
  ⟨m.tag.slot, m.tag.seq, slice, (List.range tb.lcols).map (fun j =>
    (List.range (m.sliceEnd slice - slice * 128)).map (fun k => readLogical store tb (slice * 128 + k) j))⟩

/-- The words of the cell store a stationary tile is read from. -/
def MxInstr.tileWords (m : MxInstr) (slice : Nat) : List Nat :=
  let tb := tileOf m.tb
  (List.range tb.lcols).flatMap (fun j =>
    (List.range (m.sliceEnd slice - slice * 128)).flatMap (fun k => tb.wordsOf (tb.stored (slice * 128 + k) j)))

/-- What the B streamer loads next (R105): the next slice of the first started mx.mma that has tiles to load (its place
among the started instructions), or the first slice of the next mx.mma in the queue, once its B range is not held
(R126) and it is to run. -/
def Cell.nextTile (x : Cell) (c : CellId) (loc : BitVec 16 → Bool) : Option (MxInstr × Nat × Option Nat) :=
  match x.eng.plateRun.findIdx? (fun r => r.ins.kind == .mma && decide (r.tiles < r.slices)) with
  | some i => (x.eng.plateRun[i]?).map (fun r => (r.ins, r.tiles, some i))
  | none =>
    match x.eng.plateQ.find? (fun m => m.kind == .mma) with
    | none => none
    | some m =>
      if !(x.eng.tilesOf m).isEmpty ∨ x.eng.restore ∨ (m.fault x none 0).isSome ∨
          x.rangesHeld c loc m.tag.slot m.tag.seq (tileRngs m.tb false) then none
      else some (m, 0, none)

/-- A stationary tile finishes loading: the plate holds two at most (R105). Poisoned words read are reported (R119). -/
def execStationaryTileLoaded (c : CellId) (s : State) : Res :=
  let x := s.cell c
  if 2 ≤ x.eng.tiles.length then .next s
  else
    match x.nextTile c s.isLocal with
    | none => .next s
    | some (m, slice, place) =>
      let t := m.statTile x.store slice
      let bad := t.cols.any (fun l => l.any (·.poison))
      let told := match place with
        | some i => ((x.eng.plateRun[i]?).map (·.poisoned)).getD false
        | none => false
      let s1 := s.modCell c (fun y => y.modEng (fun e => { e with
        tiles := e.tiles ++ [t],
        plateRun := match place with
          | some i => lmod e.plateRun i (fun r => { r with tiles := r.tiles + 1, poisoned := r.poisoned || bad })
          | none => e.plateRun }))
      .next (if bad && !told then s1.poisonEvent c m.tag .plate 0x08 (x.store.firstPoison (m.tileWords slice)) else s1)

/-! ### Row-cycles and promotions -/

/-- The group sums of one output column (R97 level 1, R98, R114): the leaves of `n` groups of `kp` from k0, +0 beyond
K, each combined in its tree. -/
def groupSums (node : Flt) (kp k0 kEnd : Nat) (leaf : Nat → FpNum) : Nat → List Word32
  | 0 => []
  | n + 1 =>
    if kEnd ≤ k0 then []
    else
      let ls := (List.range kp).map (fun i => if k0 + i < kEnd then leaf (k0 + i) else FpNum.zero)
      let root := match tree node kp.log2 ls with | x :: _ => x | [] => FpNum.zero
      toF32 root :: groupSums node kp (k0 + kp) kEnd leaf n

/-- The row-cycle of an A row and a stationary tile (R104, R114): the group sums of its columns. -/
def MxRun.rowSums (r : MxRun) (av : List Read) (t : StatTile) : List (List Word32) :=
  let ta := tileOf r.ins.ta
  let tb := tileOf r.ins.tb
  let node := if ta.elem = .f32 then F32 else A22
  let k0 := r.slice * 128
  let leafOf := fun (col : List Read) (k : Nat) =>
    match av[k - k0]?, col[k - k0]? with
    | some p, some q => (ta.elem.dec p.code p.second).mul (tb.elem.dec q.code q.second)
    | _, _ => FpNum.zero
  let sums := t.cols.map (fun col => groupSums node r.kp k0 (r.ins.sliceEnd r.slice) (leafOf col) (128 / r.kp))
  (List.range (128 / r.kp)).filterMap (fun g =>
    let row := sums.filterMap (fun l => l[g]?)
    if row.isEmpty then none else some row)

/-- A started mx.mma after a row-cycle. -/
def MxRun.nextRow (r : MxRun) (bad : Bool) : MxRun :=
  if r.row + 1 < (tileOf r.ins.ta).lrows then { r with row := r.row + 1, poisoned := r.poisoned || bad }
  else { r with row := 0, slice := r.slice + 1, poisoned := r.poisoned || bad }

/-- One A row streams through the array for one slice (R104): the oldest mx.mma takes its next row once its stationary
tile is loaded and the row is not held; the in-flight window takes at most 184 (Table 4-10). Poisoned operand words
poison the row or their columns (R119). -/
def execPlateRowCycle (c : CellId) (s : State) : Res :=
  let x := s.cell c
  match x.eng.plateRun.findIdx? (fun r => r.ins.kind == .mma) with
  | none => .next s
  | some i =>
    match x.eng.plateRun[i]? with
    | none => .next s
    | some r =>
      match (x.eng.tilesOf r.ins).find? (fun t => t.slice == r.slice) with
      | none => .next s
      | some t =>
        let ta := tileOf r.ins.ta
        let vrow := r.ins.f.base.toNat + r.row
        if rowHeldForMma (x.eng.plateRun.take i) vrow ∨ x.eng.vatClear ∨ 184 ≤ x.eng.inflight.length then .next s
        else
          let k0 := r.slice * 128
          let ks := List.range (r.ins.sliceEnd r.slice - k0)
          let k := rateClass ta (tileOf r.ins.tb)
          let av := ks.map (fun k => readLogical x.store ta r.row (k0 + k))
          let badRow := av.any (·.poison)
          let badCols := (List.range t.cols.length).filter (fun j => ((t.cols[j]?).getD []).any (·.poison))
          let fl : InFlight := ⟨r.ins.tag.slot, r.ins.tag, r.order, vrow, r.slice == 0 && !(bit r.ins.f.flags 0),
            r.rowSums av t, badRow, badCols⟩
          let r' := r.nextRow badRow
          let s1 := s.modCell c (fun y => ({ y with
            eng := { y.eng with
              inflight := y.eng.inflight ++ [fl],
              tiles := if r'.slice = r.slice then y.eng.tiles else y.eng.tiles.filter (fun q => q != t),
              plateRun := if r'.slices ≤ r'.slice then y.eng.plateRun.eraseIdx i
                else lmod y.eng.plateRun i (fun _ => r') },
            regs := { y.regs with
              plateRow := y.regs.plateRow + 1,
              classRow := vmod y.regs.classRow k (· + 1),
              classMac := vmod y.regs.classMac k (· + BitVec.ofNat 64 (ks.length * t.cols.length)),
              plateMac := y.regs.plateMac + BitVec.ofNat 64 (ks.length * t.cols.length) } } : Cell).freed)
          let ws := ks.flatMap (fun k => ta.wordsOf (ta.stored r.row (k0 + k)))
          .next (if badRow && !r.poisoned then s1.poisonEvent c r.ins.tag .plate 0x08 (x.store.firstPoison ws) else s1)

/-- Add one group of sums into entries (R115, R116): the first overwrites where it is to. -/
def promoteGroup (fresh : Bool) (cur sums : List Word32) : List Word32 :=
  if fresh then sums else List.zipWith fadd cur sums

/-- Promote the groups of a row-cycle in ascending order (R97 level 2). -/
def promoteGroups : Bool → List Word32 → List (List Word32) → List Word32
  | _, cur, [] => cur
  | fresh, cur, g :: rest => promoteGroups false (promoteGroup fresh cur g) rest

/-- Group sums leave the in-flight window and are written, setting the row's live bit (R115 to R117). A poisoned word
read poisons the whole row (R119). A poisoned A word makes the entries 0 to N − 1 the promotion writes NaN, for an
mx.mma writes no other (R129; DEDUCED, log entry 58: R119 says every entry of the row its row-cycle promotes into). -/
def execVatPromotion (c : CellId) (s : State) : Res :=
  let x := s.cell c
  match x.eng.inflight with
  | [] => .next s
  | fl :: rest =>
    let n := match fl.groups with | g :: _ => g.length | [] => 0
    let cur := (List.range n).map (vatEntry x.vat fl.row)
    let vatBad := !fl.first && cur.any (·.2)
    let sums := promoteGroups fl.first (cur.map (·.1)) fl.groups
    let out := (List.range n).map (fun j =>
      if vatBad || fl.poison || fl.badCols.contains j then nanF32 else (sums[j]?).getD 0)
    let vat1 := vatPut x.vat fl.row 0 out
    let vat2 := if vatBad then vat1.poisonAll ((List.range (128 - n)).map (fun j => fl.row * 128 + n + j)) else vat1
    let s1 := s.modCell c (fun y => ({ y with
      vat := vat2, vatLive := setBit y.vatLive fl.row true, eng := { y.eng with inflight := rest } } : Cell).freed)
    .next (if vatBad then s1.poisonEvent c fl.tag .plate 0x08 (vatPoison x.vat fl.row n) else s1)

/-! ### Row transfers -/

/-- One epilogue stage on an entry (Table 5-5): the bias lane and the residual element as F32 words. -/
def epiStage (imm : Word32) (bias resid : Word32) (code : Nat) (v : Word32) : Word32 :=
  match code with
  | 1 => fmul v imm
  | 2 => fadd v bias
  | 3 => fadd v resid
  | 4 => toF32 (FpNum.max (f32 v) FpNum.zero)
  | 5 => fmul v (ffma 0x3F000000 (ftrans .erf (fmul v 0x3F3504F3)) 0x3F000000)
  | 6 => fmul v (ftrans .sigmoid v)
  | _ => v

/-- The rounding mode of a converting entry under RM (Table 3-3): SR takes the entry's grain word (R85). -/
def rmOf (rm : BitVec 2) (w : Word32) : Round :=
  match rm.toNat with
  | 0 => .rne
  | 1 => .rtz
  | _ => .sr (bfld w 0 16)

/-- The number of `n`-element blocks that hold `k` elements. -/
def blockCount (k n : Nat) : Nat := (k + n - 1) / n

/-- Convert a row of values into a scaled format by blocks of 32 (R75, R121): block mordants and element codes, the
last block filled with zero elements. -/
def rowToBlocks (eb fb : Nat) (emax : Int) (rm : BitVec 2) (word : Nat → Word32) (vs : List FpNum) :
    List Nat × List Nat :=
  let nb := blockCount vs.length 32
  let ms := (List.range nb).map (fun i => selectMordant emax ((vs.drop (32 * i)).take 32))
  let codes := (List.range (32 * nb)).map (fun j =>
    match vs[j]? with
    | some v => encScaled eb fb (ms.getD (j / 32) 0) (rmOf rm (word j)) v
    | none => 0)
  (ms, codes)

/-- Pack element codes of a row into bytes (R73). -/
def packCodes (bits : Nat) : List Nat → List Byte
  | [] => []
  | c0 :: rest =>
    if bits = 4 then
      match rest with
      | c1 :: more => BitVec.ofNat 8 (c0 % 16 + c1 % 16 * 16) :: packCodes bits more
      | [] => [BitVec.ofNat 8 (c0 % 16)]
    else leBytes (bits / 8) c0 ++ packCodes bits rest

/-- Write one drained row to its tile (R120, R121): the store, and whether a mordant 0xFF was written. -/
def drainRow (m : ProtMem) (t : Tile) (row : Nat) (rm : BitVec 2) (word : Nat → Word32) (vs : List Word32) :
    ProtMem × Bool :=
  let at_ := t.ebase + row * t.rstride
  match t.elem.efmt with
  | some (eb, fb, emax) =>
    let b := rowToBlocks eb fb emax rm word (vs.map f32)
    let m1 := m.write at_ (packCodes t.elem.bits b.2)
    (m1.write (t.mbase + row * 4) (b.1.map (BitVec.ofNat 8)), b.1.contains 0xFF)
  | none =>
    let enc := fun (p : Nat × Word32) =>
      match t.elem with
      | .w16 => W16.enc (rmOf rm (word p.1)) (f32 p.2)
      | .h16 => H16.enc (rmOf rm (word p.1)) (f32 p.2)
      | _ => p.2.toNat
    (m.write at_ (packCodes t.elem.bits (vs.zipIdx.map (fun p => enc (p.2, p.1)))), false)

/-- The drained entries of a row after the epilogue (R155): poisoned words read as NaN, and any of them poisons the
row; a poisoned bias or residual word makes its own entry NaN. -/
def drainedEntries (x : Cell) (r : MxRun) (n : Nat) : List Word32 × Bool :=
  let row := r.ins.f.base.toNat + r.row
  let es := (List.range n).map (vatEntry x.vat row)
  let bad := es.any (·.2)
  let rt := tileOf r.resid
  let stages := match r.epi with | some e => epiStages e | none => []
  let imm := match r.epi with | some e => bfld e 30 32 | none => 0
  let vals := (List.range n).map (fun j =>
    let v0 := if bad then nanF32 else ((es[j]?).getD (0, false)).1
    let b := (r.bias[j]?).getD (0, false)
    let rd := if stages.contains 3 then readLogical x.store rt r.row j else ⟨0, 0, false⟩
    let bw := if b.2 then nanF32 else b.1
    let rw := if rd.poison then nanF32 else BitVec.ofNat 32 rd.code
    (stages.foldl (fun v k => epiStage imm bw rw k v) v0,
      (stages.contains 2 && b.2) || (stages.contains 3 && rd.poison)))
  (vals.map (·.1), bad || vals.any (·.2))

/-- The first poisoned word a drained row reads: of the vat, then of the bias (a v register), then of the residual. -/
def drainPoison (x : Cell) (r : MxRun) (n : Nat) : Option (Nat × BitVec 39) :=
  let rt := tileOf r.resid
  match vatPoison x.vat (r.ins.f.base.toNat + r.row) n with
  | some w => some w
  | none =>
    if (r.bias.take n).any (·.2) then none
    else x.store.firstPoison ((List.range n).flatMap (fun j => rt.wordsOf (rt.stored r.row j)))

/-- A started transfer moves one row (R117, R120, R124, R125): the oldest whose hold has ended; a drain with an epilogue
waits for the vector instruction in flight to leave its issue slots (R123). A poisoned vat word read poisons its whole
row (R119). The passes of an epilogue are not counted in VEC_BEAT (DESIGN CHOICE, log entry 62). -/
def execVatRowTransfer (c : CellId) (s : State) : Res :=
  let x := s.cell c
  let test := fun (before : List MxRun) (r : MxRun) =>
    match r.ins.kind with
    | .drain => !(drainHeld before x.eng.inflight r) && (epiPasses r.epi == 0 || x.eng.vecRun.isNone)
    | .vsave => !(drainHeld before x.eng.inflight r)
    | .vload => !(vloadHeld before x.eng.inflight r)
    | _ => false
  match firstRun test [] x.eng.plateRun with
  | none => .next s
  | some i =>
    match x.eng.plateRun[i]? with
    | none => .next s
    | some r =>
      let t := tileOf r.ins.ta
      let row := r.ins.f.base.toNat + r.row
      let free := r.ins.kind != .vload && bit r.ins.f.flags 0
      let done := decide (r.ins.rows ≤ r.row + 1)
      let step := fun (bad : Bool) (y : Cell) => (y.modEng (fun e => { e with
        plateRun := if done then e.plateRun.eraseIdx i
          else lmod e.plateRun i (fun q => { q with row := q.row + 1, poisoned := q.poisoned || bad }) })).freed
      let vat := fun (bad : Bool) (v : ProtMem) =>
        if bad then v.poisonAll ((List.range 128).map (row * 128 + ·)) else v
      let note := fun (bad : Bool) (w : Option (Nat × BitVec 39)) (u : State) =>
        if bad && !r.poisoned then u.poisonEvent c r.ins.tag .plate 0x08 w else u
      match r.ins.kind with
      | .drain =>
        let ev := drainedEntries x r t.lcols
        let out := drainRow x.store t r.row r.ins.f.rm (fun j => r.ins.draw.word j r.row) ev.1
        let s1 := s.modCell c (fun y => step ev.2 { y with
          store := out.1, vat := vat ((List.range t.lcols).any (fun j => (vatEntry x.vat row j).2)) y.vat,
          vatLive := if free then setBit y.vatLive row false else y.vatLive })
        .next (note ev.2 (drainPoison x r t.lcols) (s1.setStopIf ⟨c, r.ins.tag.slot⟩ (t.elem == .ac8 && out.2) .nonfinite))
      | .vsave =>
        let es := (List.range 128).map (vatEntry x.vat row)
        let bad := es.any (·.2)
        let ws := es.map (fun e => if bad then nanF32 else e.1)
        let s1 := s.modCell c (fun y => step bad { y with
          store := y.store.write (t.ebase + r.row * t.rstride) (ws.flatMap (fun w => leBytes 4 w.toNat)),
          vat := vat bad y.vat,
          vatLive := if free then setBit y.vatLive row false else y.vatLive })
        .next (note bad (vatPoison x.vat row 128) s1)
      | _ =>
        let ad := t.ebase + r.row * t.rstride
        let rd := (List.range 128).map (fun j => x.store.readWord (ad / 4 + j))
        let bad := rd.any (·.2.poisoned)
        let marks := (List.range 128).filter (fun j => ((rd[j]?).map (·.2.poisoned)).getD false)
        let s1 := s.modCell c (fun y => step bad { y with
          vat := (vatPut y.vat row 0 (rd.map (·.1))).poisonAll (marks.map (· + row * 128)),
          vatLive := setBit y.vatLive row true })
        .next (note bad (x.store.firstPoison ((List.range 128).map (ad / 4 + ·))) s1)

/-- The vat clear ends and the plate accepts instructions again (R118). -/
def execVatClearDone (c : CellId) (s : State) : Res :=
  .next (s.modCell c (fun x => x.modEng (fun e => { e with vatClear := false })))

/-- An access to the vat's debug aperture (R21, R131): served in debug mode, else VAT_HIDDEN with a record, zero data on
a read and nothing changed on a write. The value read is what the requester is answered. -/
def execVatApertureAccess (by_ : Requester) (c : CellId) (isWrite : Bool) (offset : BitVec 21) (data : Word32)
    (s : State) : Res :=
  let x := s.cell c
  let answer := fun (u : State) (v : Word64) =>
    match by_ with
    | .host => { u with host := { u.host with lastRead := v } }
    | _ => u
  if bit x.regs.plateDbg 0 then
    if isWrite then
      .next (s.modCell c (fun y => { y with vat := vatPut y.vat (offset.toNat / 512) (offset.toNat % 512 / 4) [data] }))
    else .next (answer s ((vatEntry x.vat (offset.toNat / 512) (offset.toNat % 512 / 4)).1.zeroExtend 64))
  else
    let r := { (s.errRec (dieOf c) (tblStatus 0x02 0x09) .event).withCell s c with
      engine := 0x01, addr := BitVec.ofNat 64 (windowBase + c.val * 0x800000 + 0x600000 + offset.toNat) }
    let s1 := (s.report r).modCell c (fun y => y.modRegs (·.noteFault .plate 0x09))
    .next (if isWrite then s1 else answer s1 0)

end Sys2Proof.Machine
end

