-- ==== Sys2Proof/Machine/Scalar.lean ====
section
/-!
DEFINITION. The scalar class (sc): Tables 7-2 to 7-5, but for the register accesses; and the end of a fault stop.
-/
namespace Sys2Proof.Machine

/-- The fields of format S that an opcode does not name are zero (R179, R217): which of SD, SA, SB, SC and PD it
names. -/
def fmtSOk (f : FmtS) (sd sa sb sc pd : Bool) : Bool :=
  (sd || f.sd == 0) && (sa || f.sa == 0) && (sb || f.sb == 0) && (sc || f.sc == 0) && (pd || f.pd == 0)

/-- The same of format SI: SD, SA and PD. -/
def fmtSIOk (f : FmtSI) (sd sa pd : Bool) : Bool :=
  (sd || f.sd == 0) && (sa || f.sa == 0) && (pd || f.pd == 0)

/-- Bits of FN outside those an opcode uses are zero (R217). -/
def fnOk {n : Nat} (fn used : BitVec n) : Bool := (fn &&& ~~~used) == 0

/-- High half of the unsigned product. -/
def mulHigh (x y : Word64) : Word64 := bfld (x.zeroExtend 128 * y.zeroExtend 128) 64 64

/-- Signed quotient (R174, R219). -/
def sdivSpec (x y : Word64) : Word64 := if y = 0 then BitVec.allOnes 64 else x.sdiv y
/-- Unsigned quotient. -/
def udivSpec (x y : Word64) : Word64 := if y = 0 then BitVec.allOnes 64 else x / y
/-- Signed remainder. -/
def sremSpec (x y : Word64) : Word64 := if y = 0 then x else x.srem y
/-- Unsigned remainder. -/
def uremSpec (x y : Word64) : Word64 := if y = 0 then x else x % y

/-- An integer instruction of two s registers (Table 7-2). -/
def State.intOp (s : State) (a : At) (p : Pred) (f : FmtS) (op : Byte) (g : Word64 → Word64 → Word64) : Res :=
  s.issue a p 1 op ⟨f.rsv == 0, fmtSOk f true true true false false && fnOk f.fn 0⟩ [f.sd, f.sa, f.sb]
    (fun s => s.finish a (·.setS f.sd (g (s.sreg a f.sa) (s.sreg a f.sb))))

/-- An integer instruction of an s register and IMM (Table 7-2). -/
def State.immOp (s : State) (a : At) (p : Pred) (f : FmtSI) (op : Byte) (ok : Checks) (names : List (BitVec 5))
    (g : Word64 → Word32 → Word64) : Res :=
  s.issue a p 1 op ok names (fun s => s.finish a (·.setS f.sd (g (s.sreg a f.sa) f.imm)))

/-- Bits [31:0] of an s register (R174). -/
def State.freg (s : State) (a : At) (r : BitVec 5) : Word32 := bfld (s.sreg a r) 0 32

/-- A scalar F32 instruction: its result in [31:0], [63:32] zero (R174, R220). -/
def State.fltOp (s : State) (a : At) (p : Pred) (f : FmtS) (op : Byte) (ok : Checks) (names : List (BitVec 5))
    (g : State → Word32) : Res :=
  s.issue a p 1 op ok names (fun s => s.finish a (·.setS f.sd ((g s).zeroExtend 64)))

/-- The function of a code of sc.ftr (Table 7-3). -/
def transOf (k : Nat) : Trans :=
  match k with
  | 0 => .exp | 1 => .exp2 | 2 => .log | 3 => .log2 | 4 => .tanh | 5 => .sigmoid | _ => .erf

/-- sc.fcvt (Table 7-3): F32 to signed 64-bit toward zero, saturating, NaN to 0; signed 64-bit to F32; F32 to W16;
W16 to F32. -/
def fcvt (k : Nat) (x : Word64) : Word64 :=
  match k with
  | 0 =>
    match f32 (bfld x 0 32) with
    | .nan => 0
    | .inf n => if n then 0x8000000000000000 else 0x7FFFFFFFFFFFFFFF
    | v => BitVec.ofInt 64 (max (-(2 ^ 63)) (min (2 ^ 63 - 1) ((v.toInt .rtz).getD 0)))
  | 1 => (toF32 (FpNum.ofInt x.toInt)).zeroExtend 64
  | 2 => BitVec.ofNat 64 (W16.enc .rne (f32 (bfld x 0 32)))
  | _ => (toF32 (W16.dec (fld x 0 16))).zeroExtend 64

/-- A descriptor from its four words. -/
def desc (w0 w1 w2 w3 : Word64) : BitVec 256 := w3 ++ (w2 ++ (w1 ++ w0))

/-- Write tile descriptor t. -/
def Ctx.setT (x : Ctx) (t : BitVec 4) (v : BitVec 256) : Ctx := { x with t := vset x.t t.toFin v }
/-- Write queue descriptor q. -/
def Ctx.setQ (x : Ctx) (q : BitVec 3) (v : BitVec 256) : Ctx := { x with q := vset x.q q.toFin v }

/-- A cell store access of the control core (R221): held behind overlapping accesses (R198), SLOT_BOUNDS outside the
slot's part, MISALIGNED where its address is not a multiple of its size, else its work at the offset. -/
def State.memOp (s : State) (a : At) (p : Pred) (op : Byte) (ok : Checks) (names : List (BitVec 5)) (n : Nat)
    (addr : State → Word64) (wr : Bool) (body : State → Nat → Res) : Res :=
  s.issue a p 1 op ok names (fun s =>
    let x := s.cell a.cell
    let ad := (addr s).toNat
    if x.rangesHeld a.cell s.isLocal a.slot (x.slot a.slot).seqNext [(ad, n, wr)] then s.hold a 0x5
    else if !(x.inPart a.slot ad n) then s.trap a 1 op 0x04 (addr s)
    else if ad % n ≠ 0 then s.trap a 1 op 0x05 (addr s)
    else body s ad)

/-- Load `n` bytes at an offset; a poisoned word faults (Table 6-12). -/
def State.loadOp (s : State) (a : At) (op : Byte) (ad n : Nat) (f : Nat → Ctx → Ctx) : Res :=
  if (s.cell a.cell).store.anyPoison ad n then .next ((s.countIssue a).corePoison a 1 op ad n)
  else s.finish a (f ((s.cell a.cell).store.num ad n))

/-- Store bytes at an offset. -/
def State.storeOp (s : State) (a : At) (ad : Nat) (bs : List Byte) : Res :=
  .next (((s.countIssue a).modCell a.cell (fun x => { x with store := x.store.write ad bs })).retire a)

/-- The target of a relative branch, in instruction words (R184). -/
def relTarget (x : Slot) (off : Word32) : Int := (x.ctx.pc.toNat : Int) + off.toInt

/-- A taken branch (R184): BRANCH_RANGE outside the slot's part, else the PC moves; `f` is what else it writes. -/
def State.branchTo (s : State) (a : At) (op : Byte) (t : Int) (f : Ctx → Ctx) : Res :=
  if t < 0 ∨ !((s.cell a.cell).inPart a.slot (8 * t.toNat) 8) then s.trap a 1 op 0x06 0
  else .next ((s.countIssue a).modSlot a (fun x =>
    { x with ctx := { f x.ctx with pc := BitVec.ofNat 20 t.toNat }, seqNext := x.seqNext + 1 }))

/-- Whether any instruction of a slot in any queue has not completed (R223). -/
def Cell.allBusy (x : Cell) (i : SlotId) : Bool :=
  x.eng.plateBusy i || x.eng.vecBusy i || x.eng.moverBusy i || x.eng.collBusy i || x.eng.traceBusy i

/-- The end of a context (R266): its slot is EMPTY, its latches abandoned, the partition's step latches too where it is
foreground and the phase is not CLOSED (R254), the vat cleared, and the next context chosen. -/
def State.endContext (s : State) (a : At) (cause : BitVec 4) : State :=
  let s1 := s.abandonLatches a none
  let s2 := match s1.phaseFor a, s1.partOf a.cell with
    | some .closed, _ => s1
    | some _, some q => s1.abandonStep q
    | _, _ => s1
  s2.modCell a.cell (fun x =>
    (((x.modSlot a.slot (·.emptied cause)).clearVat).modRegs (·.resetActive)).choose)

/-- The identity sc.id writes (R223). -/
def State.identity (s : State) (a : At) : Word64 :=
  BitVec.ofNat 64 (fld s.route.nodeId 0 16 * 2 ^ 48 + ((s.partOf a.cell).getD 0).val * 2 ^ 8 + a.slot.val * 2 ^ 6 +
    a.cell.val)

/-- SD := SA + SB modulo 2^64 (R174, R219). -/
def execScAdd (a : At) (p : Pred) (f : FmtS) (s : State) : Res :=
  s.intOp a p f 0x01 (fun x y => x + y)

/-- SD := SA − SB (R174, R219). -/
def execScSub (a : At) (p : Pred) (f : FmtS) (s : State) : Res :=
  s.intOp a p f 0x02 (fun x y => x - y)

/-- SD := bits [63:0] of SA × SB (R174, R219). -/
def execScMul (a : At) (p : Pred) (f : FmtS) (s : State) : Res :=
  s.intOp a p f 0x03 (fun x y => x * y)

/-- SD := bits [127:64] of the unsigned product (R174, R219). -/
def execScMulhu (a : At) (p : Pred) (f : FmtS) (s : State) : Res :=
  s.intOp a p f 0x04 (mulHigh)

/-- signed quotient, all ones for a zero divisor (R174, R219). -/
def execScDiv (a : At) (p : Pred) (f : FmtS) (s : State) : Res :=
  s.intOp a p f 0x05 (sdivSpec)

/-- unsigned quotient, all ones for a zero divisor (R174, R219). -/
def execScDivu (a : At) (p : Pred) (f : FmtS) (s : State) : Res :=
  s.intOp a p f 0x06 (udivSpec)

/-- signed remainder, the dividend for a zero divisor (R174, R219). -/
def execScRem (a : At) (p : Pred) (f : FmtS) (s : State) : Res :=
  s.intOp a p f 0x07 (sremSpec)

/-- unsigned remainder, the dividend for a zero divisor (R174, R219). -/
def execScRemu (a : At) (p : Pred) (f : FmtS) (s : State) : Res :=
  s.intOp a p f 0x08 (uremSpec)

/-- SD := SA and SB (R174, R219). -/
def execScAnd (a : At) (p : Pred) (f : FmtS) (s : State) : Res :=
  s.intOp a p f 0x09 (fun x y => x &&& y)

/-- SD := SA or SB (R174, R219). -/
def execScOr (a : At) (p : Pred) (f : FmtS) (s : State) : Res :=
  s.intOp a p f 0x0A (fun x y => x ||| y)

/-- SD := SA xor SB (R174, R219). -/
def execScXor (a : At) (p : Pred) (f : FmtS) (s : State) : Res :=
  s.intOp a p f 0x0B (fun x y => x ^^^ y)

/-- SD := SA shifted left by SB mod 64 (R174, R219). -/
def execScShl (a : At) (p : Pred) (f : FmtS) (s : State) : Res :=
  s.intOp a p f 0x0C (fun x y => x <<< (y.toNat % 64))

/-- logical right shift by SB mod 64 (R174, R219). -/
def execScShr (a : At) (p : Pred) (f : FmtS) (s : State) : Res :=
  s.intOp a p f 0x0D (fun x y => x >>> (y.toNat % 64))

/-- arithmetic right shift by SB mod 64 (R174, R219). -/
def execScSar (a : At) (p : Pred) (f : FmtS) (s : State) : Res :=
  s.intOp a p f 0x0E (fun x y => x.sshiftRight (y.toNat % 64))

/-- PD := SA rel SB, relation in FN[2:0] (R218). -/
def execScCmp (a : At) (p : Pred) (f : FmtS) (s : State) : Res :=
  s.issue a p 1 0x0F ⟨f.rsv == 0, fmtSOk f false true true false true && fnOk f.fn 0x0007 && f.pd != 0 && intRelOk (bfld f.fn 0 3)⟩ [f.sa, f.sb]
    (fun s => s.finish a (·.setP f.pd (intRel (bfld f.fn 0 3) (s.sreg a f.sa) (s.sreg a f.sb))))

/-- PD := pa op pb, FN[2:0] naming pa, FN[5:3] pb, FN[7:6] the operation (R219). -/
def execScPop (a : At) (p : Pred) (f : FmtS) (s : State) : Res :=
  s.issue a p 1 0x10 ⟨f.rsv == 0, fmtSOk f false false false false true && fnOk f.fn 0x00FF && f.pd != 0⟩ []
    (fun s =>
      let ps := (s.slot a).ctx.p
      s.finish a (·.setP f.pd (popOp (bfld f.fn 6 2) (predVal ps (bfld f.fn 0 3)) (predVal ps (bfld f.fn 3 3)))))

/-- SD := SA + sext(IMM) (R219). -/
def execScAddi (a : At) (p : Pred) (f : FmtSI) (s : State) : Res :=
  s.immOp a p f 0x20 ⟨true, fmtSIOk f true true false && fnOk f.fn 0⟩ [f.sd, f.sa] (fun x i => x + i.signExtend 64)

/-- SD := SA and zext(IMM) (R219). -/
def execScAndi (a : At) (p : Pred) (f : FmtSI) (s : State) : Res :=
  s.immOp a p f 0x21 ⟨true, fmtSIOk f true true false && fnOk f.fn 0⟩ [f.sd, f.sa] (fun x i => x &&& i.zeroExtend 64)

/-- SD := SA or zext(IMM) (R219). -/
def execScOri (a : At) (p : Pred) (f : FmtSI) (s : State) : Res :=
  s.immOp a p f 0x22 ⟨true, fmtSIOk f true true false && fnOk f.fn 0⟩ [f.sd, f.sa] (fun x i => x ||| i.zeroExtend 64)

/-- SD := SA xor zext(IMM) (R219). -/
def execScXori (a : At) (p : Pred) (f : FmtSI) (s : State) : Res :=
  s.immOp a p f 0x23 ⟨true, fmtSIOk f true true false && fnOk f.fn 0⟩ [f.sd, f.sa] (fun x i => x ^^^ i.zeroExtend 64)

/-- PD := SA rel sext(IMM) (R218). -/
def execScCmpi (a : At) (p : Pred) (f : FmtSI) (s : State) : Res :=
  s.issue a p 1 0x24 ⟨true, fmtSIOk f false true true && fnOk f.fn 7 && f.pd != 0 && intRelOk f.fn⟩ [f.sa]
    (fun s => s.finish a (·.setP f.pd (intRel f.fn (s.sreg a f.sa) (f.imm.signExtend 64))))

/-- SD := sext(IMM); SA is reserved (R219). -/
def execScMovi (a : At) (p : Pred) (f : FmtSI) (s : State) : Res :=
  s.immOp a p f 0x25 ⟨true, fmtSIOk f true false false && fnOk f.fn 0⟩ [f.sd] (fun _ i => i.signExtend 64)

/-- SD := IMM shifted to [63:32], with the low half of SA (R219). -/
def execScLdhi (a : At) (p : Pred) (f : FmtSI) (s : State) : Res :=
  s.immOp a p f 0x26 ⟨true, fmtSIOk f true true false && fnOk f.fn 0⟩ [f.sd, f.sa] (fun x i => i ++ bfld x 0 32)

/-- SD := SA shifted by IMM[5:0], kind in FN[1:0]; IMM[31:6] is reserved (R219). -/
def execScShi (a : At) (p : Pred) (f : FmtSI) (s : State) : Res :=
  s.immOp a p f 0x27 ⟨true, fmtSIOk f true true false && fnOk f.fn 3 && fld f.fn 0 2 != 3 && fld f.imm 6 26 == 0⟩ [f.sd, f.sa]
    (fun x i =>
      let n := fld i 0 6
      match fld f.fn 0 2 with
      | 0 => x <<< n
      | 1 => x >>> n
      | _ => x.sshiftRight n)

/-- F32 SD := SA + SB (R220). -/
def execScFadd (a : At) (p : Pred) (f : FmtS) (s : State) : Res :=
  s.fltOp a p f 0x30 ⟨f.rsv == 0, fmtSOk f true true true false false && fnOk f.fn 0⟩ [f.sd, f.sa, f.sb]
    (fun s => fadd (s.freg a f.sa) (s.freg a f.sb))

/-- F32 SD := SA − SB (R220). -/
def execScFsub (a : At) (p : Pred) (f : FmtS) (s : State) : Res :=
  s.fltOp a p f 0x31 ⟨f.rsv == 0, fmtSOk f true true true false false && fnOk f.fn 0⟩ [f.sd, f.sa, f.sb]
    (fun s => fsub (s.freg a f.sa) (s.freg a f.sb))

/-- F32 SD := SA × SB (R220). -/
def execScFmul (a : At) (p : Pred) (f : FmtS) (s : State) : Res :=
  s.fltOp a p f 0x32 ⟨f.rsv == 0, fmtSOk f true true true false false && fnOk f.fn 0⟩ [f.sd, f.sa, f.sb]
    (fun s => fmul (s.freg a f.sa) (s.freg a f.sb))

/-- F32 SD := SA / SB (R220). -/
def execScFdiv (a : At) (p : Pred) (f : FmtS) (s : State) : Res :=
  s.fltOp a p f 0x34 ⟨f.rsv == 0, fmtSOk f true true true false false && fnOk f.fn 0⟩ [f.sd, f.sa, f.sb]
    (fun s => fdiv (s.freg a f.sa) (s.freg a f.sb))

/-- F32 SD := SA × SB + SC, one rounding (R220). -/
def execScFfma (a : At) (p : Pred) (f : FmtS) (s : State) : Res :=
  s.fltOp a p f 0x33 ⟨f.rsv == 0, fmtSOk f true true true true false && fnOk f.fn 0⟩ [f.sd, f.sa, f.sb, f.sc]
    (fun s => ffma (s.freg a f.sa) (s.freg a f.sb) (s.freg a f.sc))

/-- F32 square root (R220). -/
def execScFsqrt (a : At) (p : Pred) (f : FmtS) (s : State) : Res :=
  s.fltOp a p f 0x35 ⟨f.rsv == 0, fmtSOk f true true false false false && fnOk f.fn 0⟩ [f.sd, f.sa] (fun s => fsqrt (s.freg a f.sa))

/-- F32 reciprocal, or reciprocal square root where FN[0] is 1 (R220). -/
def execScFrcp (a : At) (p : Pred) (f : FmtS) (s : State) : Res :=
  s.fltOp a p f 0x36 ⟨f.rsv == 0, fmtSOk f true true false false false && fnOk f.fn 1⟩ [f.sd, f.sa]
    (fun s => if bit f.fn 0 then frsqrt (s.freg a f.sa) else frecip (s.freg a f.sa))

/-- F32 transcendental of FN[2:0] (R220). -/
def execScFtr (a : At) (p : Pred) (f : FmtS) (s : State) : Res :=
  s.fltOp a p f 0x37 ⟨f.rsv == 0, fmtSOk f true true false false false && fnOk f.fn 7 && fld f.fn 0 3 != 7⟩ [f.sd, f.sa]
    (fun s => ftrans (transOf (fld f.fn 0 3)) (s.freg a f.sa))

/-- PD := SA rel SB in F32 (R218). -/
def execScFcmp (a : At) (p : Pred) (f : FmtS) (s : State) : Res :=
  s.issue a p 1 0x38 ⟨f.rsv == 0, fmtSOk f false true true false true && fnOk f.fn 0x0007 && f.pd != 0 && fltRelOk (bfld f.fn 0 3)⟩ [f.sa, f.sb]
    (fun s => s.finish a (·.setP f.pd (fltRel (bfld f.fn 0 3) (s.freg a f.sa) (s.freg a f.sb))))

/-- Scalar conversion of FN[1:0] (R220). -/
def execScFcvt (a : At) (p : Pred) (f : FmtS) (s : State) : Res :=
  s.issue a p 1 0x39 ⟨f.rsv == 0, fmtSOk f true true false false false && fnOk f.fn 3⟩ [f.sd, f.sa]
    (fun s => s.finish a (·.setS f.sd (fcvt (fld f.fn 0 2) (s.sreg a f.sa))))

/-- SD := 8 bytes at SA + sext(IMM) (R221). -/
def execScLd (a : At) (p : Pred) (f : FmtSI) (s : State) : Res :=
  s.memOp a p 0x40 ⟨true, fmtSIOk f true true false && fnOk f.fn 0⟩ [f.sd, f.sa] 8 (fun s => s.sreg a f.sa + f.imm.signExtend 64) false
    (fun s n => s.loadOp a 0x40 n 8 (fun v x => x.setS f.sd (BitVec.ofNat 64 v)))

/-- 8 bytes at SA + sext(IMM) := SD (R221). -/
def execScSt (a : At) (p : Pred) (f : FmtSI) (s : State) : Res :=
  s.memOp a p 0x41 ⟨true, fmtSIOk f true true false && fnOk f.fn 0⟩ [f.sd, f.sa] 8 (fun s => s.sreg a f.sa + f.imm.signExtend 64) true
    (fun s n => s.storeOp a n (leBytes 8 (s.sreg a f.sd).toNat))

/-- t[SD] := 32 bytes at SA (R221). -/
def execScTld (a : At) (p : Pred) (f : FmtS) (s : State) : Res :=
  s.memOp a p 0x50 ⟨f.rsv == 0, fmtSOk f true true false false false && fnOk f.fn 0 && decide (f.sd.toNat < 16)⟩ [f.sa] 32 (fun s => s.sreg a f.sa) false
    (fun s n => s.loadOp a 0x50 n 32 (fun v x => x.setT (bfld f.sd 0 4) (BitVec.ofNat 256 v)))

/-- q[SD] := 32 bytes at SA (R221). -/
def execScQld (a : At) (p : Pred) (f : FmtS) (s : State) : Res :=
  s.memOp a p 0x54 ⟨f.rsv == 0, fmtSOk f true true false false false && fnOk f.fn 0 && decide (f.sd.toNat < 8)⟩ [f.sa] 32 (fun s => s.sreg a f.sa) false
    (fun s n => s.loadOp a 0x54 n 32 (fun v x => x.setQ (bfld f.sd 0 3) (BitVec.ofNat 256 v)))

/-- 32 bytes at SA := t[SD] (R221). The descriptor is not checked (DESIGN CHOICE, log entry 64). -/
def execScTst (a : At) (p : Pred) (f : FmtS) (s : State) : Res :=
  s.memOp a p 0x51 ⟨f.rsv == 0, fmtSOk f true true false false false && fnOk f.fn 0 && decide (f.sd.toNat < 16)⟩ [f.sa] 32 (fun s => s.sreg a f.sa) true
    (fun s n => s.storeOp a n (leBytes 32 (s.treg a (bfld f.sd 0 4)).toNat))

/-- 32 bytes at SA := q[SD] (R221). The descriptor is not checked (DESIGN CHOICE, log entry 64). -/
def execScQst (a : At) (p : Pred) (f : FmtS) (s : State) : Res :=
  s.memOp a p 0x55 ⟨f.rsv == 0, fmtSOk f true true false false false && fnOk f.fn 0 && decide (f.sd.toNat < 8)⟩ [f.sa] 32 (fun s => s.sreg a f.sa) true
    (fun s n => s.storeOp a n (leBytes 32 (s.qreg a (bfld f.sd 0 3)).toNat))

/-- t[SD] words 0, 1, 2 := SA, SB, SC; word 3 := 0 (R221). -/
def execScTset (a : At) (p : Pred) (f : FmtS) (s : State) : Res :=
  s.issue a p 1 0x52 ⟨f.rsv == 0, fmtSOk f true true true true false && fnOk f.fn 0 && decide (f.sd.toNat < 16)⟩ [f.sa, f.sb, f.sc]
    (fun s => s.finish a (·.setT (bfld f.sd 0 4) (desc (s.sreg a f.sa) (s.sreg a f.sb) (s.sreg a f.sc) 0)))

/-- t[SD].EBASE := SA[22:0], t[SD].MBASE := SB[22:0] (R221). The descriptor is not checked (DESIGN CHOICE, log entry
64). -/
def execScTbase (a : At) (p : Pred) (f : FmtS) (s : State) : Res :=
  s.issue a p 1 0x53 ⟨f.rsv == 0, fmtSOk f true true true false false && fnOk f.fn 0 && decide (f.sd.toNat < 16)⟩ [f.sa, f.sb]
    (fun s =>
      let t := s.treg a (bfld f.sd 0 4)
      s.finish a (·.setT (bfld f.sd 0 4) (setFld (setFld t 0 23 (s.sreg a f.sa).toNat) 24 23 (s.sreg a f.sb).toNat)))

/-- q[SD] words 0, 1, 3 := SA, SB, SC; DEADLINE := 0 (R221). -/
def execScQset (a : At) (p : Pred) (f : FmtS) (s : State) : Res :=
  s.issue a p 1 0x56 ⟨f.rsv == 0, fmtSOk f true true true true false && fnOk f.fn 0 && decide (f.sd.toNat < 8)⟩ [f.sa, f.sb, f.sc]
    (fun s => s.finish a (·.setQ (bfld f.sd 0 3) (desc (s.sreg a f.sa) (s.sreg a f.sb) 0 (s.sreg a f.sc))))

/-- q[SD].ADDR := SA; q[SD].DEADLINE := SB (R221). The descriptor is not checked (DESIGN CHOICE, log entry 64). -/
def execScQaddr (a : At) (p : Pred) (f : FmtS) (s : State) : Res :=
  s.issue a p 1 0x57 ⟨f.rsv == 0, fmtSOk f true true true false false && fnOk f.fn 0 && decide (f.sd.toNat < 8)⟩ [f.sa, f.sb]
    (fun s =>
      let q := s.qreg a (bfld f.sd 0 3)
      s.finish a (·.setQ (bfld f.sd 0 3) (desc (s.sreg a f.sa) (bfld q 64 64) (s.sreg a f.sb) (bfld q 192 64))))

/-- PC := PC + OFFSET; SA is reserved (R184, R223). -/
def execScBr (a : At) (p : Pred) (f : FmtSB) (s : State) : Res :=
  s.issue a p 1 0x60 ⟨f.rsv == 0, f.sa == 0⟩ []
    (fun s => s.branchTo a 0x60 (relTarget (s.slot a) f.offset) id)

/-- PC := SA / 8; OFFSET is reserved (R184, R223). -/
def execScBri (a : At) (p : Pred) (f : FmtSB) (s : State) : Res :=
  s.issue a p 1 0x61 ⟨f.rsv == 0, f.offset == 0⟩ [f.sa]
    (fun s =>
      let v := (s.sreg a f.sa).toNat
      if v % 8 ≠ 0 then s.trap a 1 0x61 0x05 (s.sreg a f.sa) else s.branchTo a 0x61 (v / 8 : Nat) id)

/-- s31 := byte offset of the next instruction, then as sc.br (R223). -/
def execScCall (a : At) (p : Pred) (f : FmtSB) (s : State) : Res :=
  s.issue a p 1 0x62 ⟨f.rsv == 0, f.sa == 0⟩ [31]
    (fun s => s.branchTo a 0x62 (relTarget (s.slot a) f.offset)
      (·.setS 31 (BitVec.ofNat 64 ((s.slot a).fetchAddr + 8))))

/-- No operation (R223). -/
def execScNop (a : At) (p : Pred) (f : FmtS) (s : State) : Res :=
  s.issue a p 1 0x70 ⟨f.rsv == 0, fmtSOk f false false false false false && fnOk f.fn 0⟩ [] (fun s => s.finish a id)

/-- Ends the context once every instruction of it in every queue has completed, unless a vat row is live (R223, R266). -/
def execScExit (a : At) (p : Pred) (f : FmtS) (s : State) : Res :=
  s.issue a p 1 0x71 ⟨f.rsv == 0, fmtSOk f false false false false false && fnOk f.fn 0⟩ []
    (fun s =>
      let x := s.cell a.cell
      if x.allBusy a.slot then s.hold a 0
      else if x.vatAnyLive then s.trap a 1 0x71 0x0C 0
      else .next ((s.countIssue a).endContext a 0x1))

/-- SD := global time (R28, R223). -/
def execScTime (a : At) (p : Pred) (f : FmtS) (s : State) : Res :=
  s.issue a p 1 0x72 ⟨f.rsv == 0, fmtSOk f true false false false false && fnOk f.fn 0⟩ [f.sd] (fun s => s.finish a (·.setS f.sd (s.timeOn (dieOf a.cell))))

/-- SD := node, partition, slot and cell of the context (R223). -/
def execScId (a : At) (p : Pred) (f : FmtS) (s : State) : Res :=
  s.issue a p 1 0x73 ⟨f.rsv == 0, fmtSOk f true false false false false && fnOk f.fn 0⟩ [f.sd] (fun s => s.finish a (·.setS f.sd (s.identity a)))

/-- The last started instruction of a fault-stopped context completes: STOPPED is set, a foreground stop in FIX moves
its partition to ABORTED (R209), and a forced switch follows where the context was running (R207, R265). -/
def execFaultStopComplete (a : At) (s : State) : Res :=
  let x := s.cell a.cell
  let y := x.slot a.slot
  if y.stopping = false ∨ y.state = .stopped ∨ y.state = .empty ∨ x.eng.startedBusy a.slot then .next s
  else
    let s1 := match s.phaseFor a, s.partOf a.cell with
      | some .fix, some q => s.abort q 4
      | _, _ => s
    let mark := fun (z : Slot) => { z with
      ctxFault := setBit z.ctxFault 63 true, state := .stopped, ctx := { Ctx.initial with pc := z.ctx.pc } }
    if x.running = some a.slot then
      .next (s1.modCell a.cell (fun c =>
        (((c.modSlot a.slot mark).clearVat).modRegs (fun r => { r.resetActive with
          ctxSwitch := r.ctxSwitch + 1, stall := 0 })).choose))
    else .next (s1.modSlot a mark)

end Sys2Proof.Machine
end

