-- ==== Sys2Proof/Machine/Vector.lean ====
section
/-!
DEFINITION. The vector engine (R138 to R149, R226 to R233) and the vector class (vx, Table 7-7): dispatch, the checks
at issue, beats, summaries and digests, restore mode, and the fused optimizer step (R157 to R160).
-/
namespace Sys2Proof.Machine

/-! ### Functions (Table 7-7) -/

/-- The functions of the vector class. -/
inductive VxFn where
  | add | sub | mul | fma | neg | abs | min | max | sel | cmp | cvt | div | sqrt | recip | rsqrt
  | trans (t : Trans)
  | segred | bcast | grain | gskip | summ | crc64 | sha256 | optstep | rmode
  deriving DecidableEq, Repr

/-- The function of an opcode (Table 7-7); the VI forms of R233 have bit 7 set. -/
def vxFnOf (op : Byte) : VxFn :=
  match op.toNat % 128 with
  | 0x01 => .add | 0x02 => .sub | 0x03 => .mul | 0x04 => .fma | 0x05 => .neg | 0x06 => .abs | 0x07 => .min
  | 0x08 => .max | 0x09 => .sel | 0x0A => .cmp | 0x0B => .cvt | 0x10 => .div | 0x11 => .sqrt | 0x12 => .recip
  | 0x13 => .rsqrt | 0x18 => .trans .exp | 0x19 => .trans .exp2 | 0x1A => .trans .log | 0x1B => .trans .log2
  | 0x1C => .trans .tanh | 0x1D => .trans .sigmoid | 0x1E => .trans .erf | 0x20 => .segred | 0x21 => .bcast
  | 0x28 => .grain | 0x29 => .gskip | 0x30 => .summ | 0x38 => .crc64 | 0x39 => .sha256 | 0x40 => .optstep
  | _ => .rmode

/-- How many of the sources A, B, C a function reads. -/
def VxFn.sources : VxFn → Nat
  | .fma | .sel => 3
  | .add | .sub | .mul | .min | .max | .cmp | .div => 2
  | .grain | .optstep | .rmode => 0
  | _ => 1

/-- Whether a function takes a rounding mode: one whose result may be narrowed (R84, R141). -/
def VxFn.rounds : VxFn → Bool
  | .cmp | .grain | .gskip | .summ | .crc64 | .sha256 | .optstep | .rmode => false
  | _ => true

/-- Whether a function writes elements of a stream or register, not an s register or a hash state. -/
def VxFn.elementwise : VxFn → Bool
  | .gskip | .summ | .crc64 | .sha256 | .optstep | .rmode => false
  | _ => true

/-- The 16-bit capable functions of Table 5-1. -/
def VxFn.wide : VxFn → Bool
  | .add | .sub | .mul | .fma | .neg | .abs | .min | .max | .sel | .cmp | .cvt | .grain => true
  | _ => false

/-- Passes of a beat (Table 5-1). A beat of CRC-64, SHA-256 or vx.summ counts 1 in VEC_BEAT and vx.optstep none
(DESIGN CHOICE, log entry 62). -/
def VxFn.passes : VxFn → Nat
  | .div | .sqrt | .recip | .rsqrt => 2
  | .trans _ => 4
  | _ => 1

/-! ### Operands -/

/-- The function of an instruction. -/
def VxInstr.fun_ (m : VxInstr) : VxFn := vxFnOf m.op

/-- The destination specifier. -/
def VxInstr.dst (m : VxInstr) : Spec := specOf m.vi m.d

/-- Source k of an instruction: its specifier, captured descriptor and captured s register. In format VI the
immediate is B and D the third source (R181). -/
def VxInstr.src (m : VxInstr) (k : Fin 3) : Spec × BitVec 256 × Word64 :=
  match k.val with
  | 0 => (specOf m.vi m.a, vget m.descs 1, vget m.svals 1)
  | 1 => if m.vi then (.imm, 0, m.imm.zeroExtend 64) else (specOf m.vi m.b, vget m.descs 2, vget m.svals 2)
  | _ => if m.vi then (m.dst, vget m.descs 0, vget m.svals 0) else (specOf m.vi m.c, vget m.descs 3, vget m.svals 3)

/-- A narrow FMT, under which a broadcast is of that format (R226). -/
def narrowFmt (f : Elem) : Bool := f == .w16 || f == .h16

/-- FMT of an instruction; F32 in the VI forms. -/
def VxInstr.elemFmt (m : VxInstr) : Elem := if m.vi then .f32 else (Elem.ofCode m.fmt).getD .f32

/-- Format of source k (R226). -/
def VxInstr.srcFmt (m : VxInstr) (k : Fin 3) : Elem :=
  match (m.src k).1 with
  | .stream _ => (tileOf (m.src k).2.1).elem
  | .reg _ => if m.fun_ = .cvt then (Elem.ofCode (bfld m.fn 0 4)).getD .f32 else m.elemFmt
  | .scalar _ => if narrowFmt m.elemFmt then m.elemFmt else .f32
  | _ => .f32

/-- Format of the destination (R226). -/
def VxInstr.dstFmt (m : VxInstr) : Elem :=
  match m.dst with
  | .stream _ => (tileOf (vget m.descs 0)).elem
  | _ => m.elemFmt

/-- Whether an instruction is a conversion between equal formats, which copies bits (R228). -/
def VxInstr.copies (m : VxInstr) : Bool := m.fun_ == .cvt && m.srcFmt 0 == m.dstFmt

/-- Whether an instruction reads the mordant table (R229): a G16 stream destination it does not copy into. -/
def VxInstr.tabled (m : VxInstr) : Bool :=
  (m.fun_ == .add || m.fun_ == .sub || m.fun_ == .cvt) && !m.vi && m.dstFmt == .g16 && !m.copies

/-- The lane count (R138, R230). -/
def VxInstr.lanes (m : VxInstr) : Nat :=
  if m.fun_.wide && !m.vi && narrowFmt m.dstFmt then 512 else 256

/-- The streams an instruction names: destination first, then its sources. -/
def VxInstr.streams (m : VxInstr) : List Tile :=
  (match m.dst with | .stream _ => [tileOf (vget m.descs 0)] | _ => []) ++
  ((allFin 3).filter (fun k => decide (k.val < m.fun_.sources))).filterMap (fun k =>
    match (m.src k).1 with
    | .stream _ => some (tileOf (m.src k).2.1)
    | _ => none)

/-- The element count (R227). -/
def VxInstr.elems (m : VxInstr) : Nat :=
  match m.streams with
  | t :: _ => t.length
  | [] => m.lanes

/-- Formats a numeric source may have (R228). -/
def numericFmt (f : Elem) : Bool := f != .u32 && f != .u8

/-- Formats of raw data (R228, R230). -/
def rawFmt (f : Elem) : Bool := f == .f32 || narrowFmt f || f == .u32 || f == .u8

/-- Whether data source k of vx.sel is written as its raw bits (R230): it has the destination's format, which is
without blocks, or is a broadcast into U32 or U8. Another numeric source is decoded (R228) and converted as the other
functions convert (DESIGN CHOICE, log entry 62). -/
def VxInstr.selRaw (m : VxInstr) (k : Fin 3) : Bool :=
  (m.srcFmt k == m.dstFmt && m.dstFmt.block == 0) ||
  (match (m.src k).1 with | .scalar _ => m.dstFmt == .u32 || m.dstFmt == .u8 | _ => false)

/-- Whether an instruction takes a rounding mode (R84): a vx.sel only where it converts. -/
def VxInstr.rounds (m : VxInstr) : Bool := m.fun_.rounds && (m.fun_ != .sel || !(m.selRaw 0 && m.selRaw 1))

/-- Whether an instruction draws grain: vx.grain, and a conversion that narrows under SR (R84, R85, R154). -/
def VxInstr.draws (m : VxInstr) : Bool :=
  m.fun_ == .grain ||
  (m.rm == 2 && m.rounds && m.fun_.elementwise && !m.copies &&
    (match m.dstFmt with
     | .f32 => m.fun_ == .cvt && m.srcFmt 0 == .m40
     | .m40 | .u32 | .u8 => false
     | _ => true))

/-! ### Dispatch -/

/-- The captured descriptor of a specifier. -/
def State.specDesc (s : State) (a : At) (x : Spec) : BitVec 256 :=
  match x with
  | .stream t => s.treg a t
  | _ => 0

/-- The captured s register of a specifier. -/
def State.specReg (s : State) (a : At) (x : Spec) : Word64 :=
  match x with
  | .scalar r => s.sreg a r
  | _ => 0

/-- Whether a specifier is a stream whose descriptor fails R187. -/
def State.specBad (s : State) (a : At) (x : Spec) : Bool :=
  match x with
  | .stream t => !(tileGood (s.treg a t))
  | _ => false

/-- What a vx instruction reserves of the grain at dispatch (R154, R231): the record it captures, and the grain after
it. An instruction the phase refuses reserves nothing. -/
def VxInstr.reserve (m : VxInstr) (g : Grain) : Draw × Grain :=
  if m.tag.phaseBad then (g.plain, g)
  else if m.fun_ = .gskip then
    (match (m.src 0).1 with
     | .scalar _ => g.reserve 512 (fun l => if l ≤ fld m.fn 0 9 then fld (vget m.svals 1) 0 48 else 0)
     | _ => (g.plain, g))
  else if m.draws then g.reserve m.lanes (drawsPerLane m.elems m.lanes)
  else (g.plain, g)

/-- Dispatch a vx instruction (R163, R187, R195). -/
def State.vxDispatch (s : State) (a : At) (p : Pred) (op : Byte) (m0 : VxInstr) : Res :=
  let sp := [m0.d, m0.a, m0.b, m0.c].map (specOf m0.vi)
  s.issue a p 3 op ⟨true, !(sp.contains .reserved)⟩ (sp.flatMap Spec.sregs) (fun s =>
    let x := s.cell a.cell
    let at_ := fun (b : BitVec 7) => specOf m0.vi b
    if sp.any (s.specBad a) then s.trap a 3 op 0x03 0
    else if 32 ≤ x.eng.vecQ.length then s.hold a 0x2
    else
      let t0 := s.dispatchTag a 3 op
      let enter := m0.op == 0x41 && bit m0.imm 0
      let outside := match s.phaseFor a with | some ph => ph != .closed | none => false
      let m1 : VxInstr := { m0 with
        tag := { t0 with phaseBad := t0.phaseBad || (enter && outside) },
        descs := #v[s.specDesc a (at_ m0.d), s.specDesc a (at_ m0.a), s.specDesc a (at_ m0.b), s.specDesc a (at_ m0.c)],
        svals := #v[s.specReg a (at_ m0.d), s.specReg a (at_ m0.a), s.specReg a (at_ m0.b), s.specReg a (at_ m0.c)] }
      let dg := m1.reserve (s.slot a).grain
      let m2 : VxInstr := { m1 with draw := dg.1 }
      let s1 := s.setGrain a dg.2
      let s2 := if op = 0x40 then s1.modCell a.cell (fun y => y.modRegs (fun r => { r with optStatus := 0 })) else s1
      s2.dispatch a (fun e => { e with vecQ := e.vecQ ++ [m2] }))

/-- An instruction of format V before its operands are captured. -/
def vInstr (op : Byte) (f : FmtV) : VxInstr :=
  { tag := ⟨0, 0, 3, op, 0, 0, false⟩, op := op, vi := false, d := f.d, a := f.a, b := f.b, c := f.c, rm := f.rm,
    fmt := f.fmt, fn := f.fn, imm := 0, descs := Vector.replicate 4 0, svals := Vector.replicate 4 0,
    draw := Draw.none }

/-- An instruction of format VI. -/
def viInstr (op : Byte) (f : FmtVI) : VxInstr :=
  { tag := ⟨0, 0, 3, op, 0, 0, false⟩, op := op, vi := true, d := f.d, a := f.a, b := 0x7F, c := 0x7F, rm := f.rm,
    fmt := 0, fn := 0, imm := f.imm, descs := Vector.replicate 4 0, svals := Vector.replicate 4 0,
    draw := Draw.none }

/-- Dispatch of format V. -/
def State.vDispatch (s : State) (a : At) (p : Pred) (op : Byte) (f : FmtV) : Res := s.vxDispatch a p op (vInstr op f)
/-- Dispatch of format VI. -/
def State.viDispatch (s : State) (a : At) (p : Pred) (op : Byte) (f : FmtVI) : Res :=
  s.vxDispatch a p op (viInstr op f)

/-- vx.add (R233): dispatch to the vector queue. -/
def execVxAdd (a : At) (p : Pred) (f : FmtV) (s : State) : Res := s.vDispatch a p 0x01 f
/-- vx.sub (R233): dispatch to the vector queue. -/
def execVxSub (a : At) (p : Pred) (f : FmtV) (s : State) : Res := s.vDispatch a p 0x02 f
/-- vx.mul (R233): dispatch to the vector queue. -/
def execVxMul (a : At) (p : Pred) (f : FmtV) (s : State) : Res := s.vDispatch a p 0x03 f
/-- vx.fma (R233): dispatch to the vector queue. -/
def execVxFma (a : At) (p : Pred) (f : FmtV) (s : State) : Res := s.vDispatch a p 0x04 f
/-- vx.neg (R233): dispatch to the vector queue. -/
def execVxNeg (a : At) (p : Pred) (f : FmtV) (s : State) : Res := s.vDispatch a p 0x05 f
/-- vx.abs (R233): dispatch to the vector queue. -/
def execVxAbs (a : At) (p : Pred) (f : FmtV) (s : State) : Res := s.vDispatch a p 0x06 f
/-- vx.min (R233): dispatch to the vector queue. -/
def execVxMin (a : At) (p : Pred) (f : FmtV) (s : State) : Res := s.vDispatch a p 0x07 f
/-- vx.max (R233): dispatch to the vector queue. -/
def execVxMax (a : At) (p : Pred) (f : FmtV) (s : State) : Res := s.vDispatch a p 0x08 f
/-- vx.sel (R233): dispatch to the vector queue. -/
def execVxSel (a : At) (p : Pred) (f : FmtV) (s : State) : Res := s.vDispatch a p 0x09 f
/-- vx.cmp (R233): dispatch to the vector queue. -/
def execVxCmp (a : At) (p : Pred) (f : FmtV) (s : State) : Res := s.vDispatch a p 0x0A f
/-- vx.cvt (R233): dispatch to the vector queue. -/
def execVxCvt (a : At) (p : Pred) (f : FmtV) (s : State) : Res := s.vDispatch a p 0x0B f
/-- vx.div (R233): dispatch to the vector queue. -/
def execVxDiv (a : At) (p : Pred) (f : FmtV) (s : State) : Res := s.vDispatch a p 0x10 f
/-- vx.sqrt (R233): dispatch to the vector queue. -/
def execVxSqrt (a : At) (p : Pred) (f : FmtV) (s : State) : Res := s.vDispatch a p 0x11 f
/-- vx.recip (R233): dispatch to the vector queue. -/
def execVxRecip (a : At) (p : Pred) (f : FmtV) (s : State) : Res := s.vDispatch a p 0x12 f
/-- vx.rsqrt (R233): dispatch to the vector queue. -/
def execVxRsqrt (a : At) (p : Pred) (f : FmtV) (s : State) : Res := s.vDispatch a p 0x13 f
/-- vx.exp (R233): dispatch to the vector queue. -/
def execVxExp (a : At) (p : Pred) (f : FmtV) (s : State) : Res := s.vDispatch a p 0x18 f
/-- vx.exp2 (R233): dispatch to the vector queue. -/
def execVxExp2 (a : At) (p : Pred) (f : FmtV) (s : State) : Res := s.vDispatch a p 0x19 f
/-- vx.log (R233): dispatch to the vector queue. -/
def execVxLog (a : At) (p : Pred) (f : FmtV) (s : State) : Res := s.vDispatch a p 0x1A f
/-- vx.log2 (R233): dispatch to the vector queue. -/
def execVxLog2 (a : At) (p : Pred) (f : FmtV) (s : State) : Res := s.vDispatch a p 0x1B f
/-- vx.tanh (R233): dispatch to the vector queue. -/
def execVxTanh (a : At) (p : Pred) (f : FmtV) (s : State) : Res := s.vDispatch a p 0x1C f
/-- vx.sigmoid (R233): dispatch to the vector queue. -/
def execVxSigmoid (a : At) (p : Pred) (f : FmtV) (s : State) : Res := s.vDispatch a p 0x1D f
/-- vx.erf (R233): dispatch to the vector queue. -/
def execVxErf (a : At) (p : Pred) (f : FmtV) (s : State) : Res := s.vDispatch a p 0x1E f
/-- vx.segred (R233): dispatch to the vector queue. -/
def execVxSegred (a : At) (p : Pred) (f : FmtV) (s : State) : Res := s.vDispatch a p 0x20 f
/-- vx.bcast (R233): dispatch to the vector queue. -/
def execVxBcast (a : At) (p : Pred) (f : FmtV) (s : State) : Res := s.vDispatch a p 0x21 f
/-- vx.grain (R233): dispatch to the vector queue. -/
def execVxGrain (a : At) (p : Pred) (f : FmtV) (s : State) : Res := s.vDispatch a p 0x28 f
/-- vx.gskip (R233): dispatch to the vector queue. -/
def execVxGskip (a : At) (p : Pred) (f : FmtV) (s : State) : Res := s.vDispatch a p 0x29 f
/-- vx.summ (R233): dispatch to the vector queue. -/
def execVxSumm (a : At) (p : Pred) (f : FmtV) (s : State) : Res := s.vDispatch a p 0x30 f
/-- vx.crc64 (R233): dispatch to the vector queue. -/
def execVxCrc64 (a : At) (p : Pred) (f : FmtV) (s : State) : Res := s.vDispatch a p 0x38 f
/-- vx.sha256 (R233): dispatch to the vector queue. -/
def execVxSha256 (a : At) (p : Pred) (f : FmtV) (s : State) : Res := s.vDispatch a p 0x39 f
/-- vx.optstep (R233): dispatch to the vector queue. -/
def execVxOptstep (a : At) (p : Pred) (f : FmtVI) (s : State) : Res := s.viDispatch a p 0x40 f
/-- vx.rmode 1 (R233): dispatch to the vector queue. -/
def execVxRmodeEnter (a : At) (p : Pred) (f : FmtVI) (s : State) : Res := s.viDispatch a p 0x41 f
/-- vx.rmode 0 (R233): dispatch to the vector queue. -/
def execVxRmodeLeave (a : At) (p : Pred) (f : FmtVI) (s : State) : Res := s.viDispatch a p 0x41 f
/-- vx.addi (R233): dispatch to the vector queue. -/
def execVxAddi (a : At) (p : Pred) (f : FmtVI) (s : State) : Res := s.viDispatch a p 0x81 f
/-- vx.subi (R233): dispatch to the vector queue. -/
def execVxSubi (a : At) (p : Pred) (f : FmtVI) (s : State) : Res := s.viDispatch a p 0x82 f
/-- vx.muli (R233): dispatch to the vector queue. -/
def execVxMuli (a : At) (p : Pred) (f : FmtVI) (s : State) : Res := s.viDispatch a p 0x83 f
/-- vx.fmai (R233): dispatch to the vector queue. -/
def execVxFmai (a : At) (p : Pred) (f : FmtVI) (s : State) : Res := s.viDispatch a p 0x84 f
/-- vx.mini (R233): dispatch to the vector queue. -/
def execVxMini (a : At) (p : Pred) (f : FmtVI) (s : State) : Res := s.viDispatch a p 0x87 f
/-- vx.maxi (R233): dispatch to the vector queue. -/
def execVxMaxi (a : At) (p : Pred) (f : FmtVI) (s : State) : Res := s.viDispatch a p 0x88 f

/-! ### Checks at issue (Table 5-11) -/

/-- Whether the fields an opcode does not use hold what R180 and R217 ask, and RM, FMT and FN hold allocated codes. -/
def VxInstr.fieldsOk (m : VxInstr) : Bool :=
  let f := m.fun_
  let n := f.sources
  if m.op = 0x40 then m.d == 0x7F && m.a == 0x7F && m.rm == 0 && fld m.imm 23 9 == 0
  else if m.op = 0x41 then m.d == 0x7F && m.a == 0x7F && m.rm == 0 && fld m.imm 1 31 == 0
  else if m.vi then m.rm != 3
  else
    let useD := f != .gskip
    let useC := decide (3 ≤ n) || m.tabled
    let useFmt := f != .gskip && f != .crc64 && f != .sha256
    let group : BitVec 14 := if m.tabled then 0x0FF0 else 0
    let fnMask : BitVec 14 :=
      match f with
      | .add | .sub => group
      | .cvt => 0x000F ||| group
      | .cmp => 0x0003
      | .segred => 0x001F
      | .bcast => 0x00FF
      | .gskip => 0x01FF
      | .summ => 0x2007
      | _ => 0
    (useD || m.d == 0x7F) && (decide (1 ≤ n) || m.a == 0x7F) && (decide (2 ≤ n) || m.b == 0x7F) &&
    (useC || m.c == 0x7F) && (if m.rounds then m.rm != 3 else m.rm == 0) &&
    (if useFmt then (Elem.ofCode m.fmt).isSome else m.fmt == 0) && (m.fn &&& ~~~fnMask) == 0 &&
    (f != .cvt || (Elem.ofCode (bfld m.fn 0 4)).isSome) && (f != .summ || decide (fld m.fn 0 3 ≤ 4))

/-- Whether a source is of a kind and format a numeric function takes (R180, R228). -/
def VxInstr.numericSrc (m : VxInstr) (k : Fin 3) : Bool :=
  match (m.src k).1 with
  | .stream _ => numericFmt (m.srcFmt k)
  | .reg _ => m.srcFmt k == .f32 || narrowFmt (m.srcFmt k)
  | .scalar _ => true
  | .imm => k == 1
  | _ => false

/-- Whether a source may be the mask of vx.sel: a stream of any format, a v register of a raw format but U8, a
broadcast (R228, R230). -/
def VxInstr.maskSrc (m : VxInstr) (k : Fin 3) : Bool :=
  match (m.src k).1 with
  | .stream _ => true
  | .reg _ => rawFmt (m.srcFmt k) && m.srcFmt k != .u8
  | .scalar _ => true
  | _ => false

/-- Whether a source is of a kind and format whose raw bits are read; a v register does not hold U8 (R228, R230). -/
def VxInstr.rawSrc (m : VxInstr) (k : Fin 3) : Bool :=
  match (m.src k).1 with
  | .stream _ => rawFmt (m.srcFmt k)
  | .reg _ => rawFmt (m.srcFmt k) && m.srcFmt k != .u8
  | .scalar _ => true
  | _ => false

/-- Whether a destination is of a kind and format a numeric result may have (R228, R229). -/
def VxInstr.numericDst (m : VxInstr) : Bool :=
  match m.dst with
  | .reg _ => m.dstFmt == .f32 || narrowFmt m.dstFmt
  | .stream _ =>
    (match m.dstFmt with
     | .g16 => m.tabled
     | .m40 => m.fun_ == .cvt && m.srcFmt 0 == .f32
     | f => numericFmt f)
  | _ => false

/-- The conversions of Table 3-4 between unequal formats. -/
def cvtPair (s d : Elem) : Bool :=
  (s == .f32 && numericFmt d) || (d == .f32 && numericFmt s) || (s == .m40 && d == .w16)

/-- The formats of an instruction are allowed (FORMAT_PAIR, R86, R180, R226 to R232). vx.cvt from M40 to M40 is
accepted, as a copy between equal formats (DESIGN CHOICE, log entry 64). -/
def VxInstr.formatsOk (m : VxInstr) : Bool :=
  let nums := ((allFin 3).filter (fun k => decide (k.val < m.fun_.sources))).all m.numericSrc
  let isReg := fun (x : Spec) => match x with | .reg _ => true | _ => false
  let isScalar := fun (x : Spec) => match x with | .scalar _ => true | _ => false
  let isStream := fun (x : Spec) => match x with | .stream _ => true | _ => false
  let groupOk := !m.tabled || isScalar (specOf m.vi m.c)
  match m.fun_ with
  | .gskip => isScalar (m.src 0).1
  | .summ => isScalar m.dst && m.numericSrc 0
  | .crc64 => isScalar m.dst && isStream (m.src 0).1 && (m.srcFmt 0 == .u8 || m.srcFmt 0 == .u32)
  | .sha256 => isReg m.dst && isStream (m.src 0).1 && (m.srcFmt 0 == .u8 || m.srcFmt 0 == .u32)
  | .grain =>
    (isReg m.dst || isStream m.dst) && (m.dstFmt == .u32 || m.dstFmt == .f32 || narrowFmt m.dstFmt)
  | .cmp => (isReg m.dst || isStream m.dst) && (m.dstFmt == .u32 || narrowFmt m.dstFmt) && nums
  | .sel =>
    let data := fun (k : Fin 3) => (m.selRaw k && m.rawSrc k) || (m.numericSrc k && m.numericDst)
    (isReg m.dst || isStream m.dst) && !(isReg m.dst && m.dstFmt == .u8) && m.maskSrc 2 && data 0 && data 1
  | .segred | .bcast => isReg (m.src 0).1 && nums && m.numericDst
  | .cvt =>
    if m.copies then
      (match m.dst with
       | .stream _ => (isStream (m.src 0).1) || m.rawSrc 0
       | .reg _ => (m.dstFmt == .f32 || narrowFmt m.dstFmt || m.dstFmt == .u32) && (isStream (m.src 0).1 || m.rawSrc 0)
       | _ => false)
    else nums && m.numericDst && cvtPair (m.srcFmt 0) m.dstFmt && groupOk
  | _ => nums && m.numericDst && groupOk

/-- First block index of a G16 destination (R229). -/
def VxInstr.firstBlock (m : VxInstr) : Nat := (vget m.svals 3).toNat

/-- Group of a G16 destination. -/
def VxInstr.groupIx (m : VxInstr) : Fin 256 := ⟨fld m.fn 4 8, by unfold fld; omega⟩

/-- The shape of an instruction is allowed (VX_SHAPE, R191, R227 to R229, R232). -/
def VxInstr.shapeOk (m : VxInstr) (s : State) : Bool :=
  let lens := m.streams.map Tile.length
  let e := m.elems
  let dt := tileOf (vget m.descs 0)
  let isReg := match m.dst with | .reg _ => true | _ => false
  let isStream := match m.dst with | .stream _ => true | _ => false
  let g := s.group m.groupIx
  lens.all (fun n => n == e) && decide (e ≤ 2 ^ 24) &&
  (!(isReg && m.fun_.elementwise) || decide (e ≤ m.lanes)) &&
  (!isStream || (dt.destOk && (dt.elem.block == 0 || (!dt.baxis && !dt.trans)))) &&
  (!m.tabled || (dt.lcols % 64 == 0 && g.enabled && decide (m.firstBlock + e / 64 ≤ g.blocks.toNat))) &&
  (!(m.copies && m.dstFmt.block != 0) || (tileOf (vget m.descs 1)).blocksAlongRows) &&
  (m.fun_ != .segred || (decide (1 ≤ fld m.fn 0 4) && decide (fld m.fn 0 4 ≤ 8))) &&
  (m.fun_ != .sha256 || (e * (m.srcFmt 0).bits / 8) % 64 == 0)

/-- The issue fault of a vx instruction, if any: phase, reserved fields, grain, formats, shape, slot bounds, in this
order. vx.optstep and vx.rmode have their own further checks. -/
def VxInstr.fault (m : VxInstr) (s : State) (c : CellId) : Option Byte :=
  let draws := m.draws || m.fun_ == .gskip
  if m.tag.phaseBad then some 0x06
  else if !m.fieldsOk then some 0x04
  else if draws && !m.draw.seeded then some 0x05
  else if draws && m.draw.exhausted then some 0x0A
  else if m.fun_ = .optstep ∨ m.fun_ = .rmode then none
  else if !m.formatsOk then some 0x02
  else if !(m.shapeOk s) then some 0x01
  else if !(m.streams.all (fun t => t.ranges.all (fun r => (s.cell c).inPart m.tag.slot r.1 r.2))) then some 0x03
  else none

/-! ### Sources of a started instruction -/

/-- Element i of a v register in a format, with its poison. -/
def regElem (v : ProtMem) (r : Fin 64) (f : Elem) (i : Nat) : Word32 × Bool :=
  let n := max (f.bits / 8) 1
  let a := r.val * 1024 + i * n
  (BitVec.ofNat 32 (v.num a n), v.poisonedWord (a / 4))

/-- The words of a v-register source for one beat (R227). Where the lane count is 512 and the register holds 256
elements, what the other lanes read is a free value (log entry 3). -/
def regBeat (v : ProtMem) (r : Fin 64) (f : Elem) (lanes ctr : Nat) : List (Word32 × Bool) :=
  let held := 1024 / max (f.bits / 8) 1
  (List.range lanes).map (fun i =>
    if i < held then regElem v r f i else (bfld (Config.freeWord (ctr + i)) 0 32, false))

/-- The v-register sources of an instruction as it issues (R195). -/
def VxInstr.regSrcs (m : VxInstr) (v : ProtMem) (ctr : Nat) : Vector (List (Word32 × Bool)) 3 :=
  let one := fun (k : Fin 3) =>
    if k.val < m.fun_.sources then
      (match (m.src k).1 with
       | .reg r => regBeat v r (m.srcFmt k) m.lanes (ctr + 512 * k.val)
       | _ => [])
    else []
  #v[one 0, one 1, one 2]

/-- Element e of source k: its code, mordant or extension, and poison. -/
def VxRun.read (r : VxRun) (m : ProtMem) (k : Fin 3) (e : Nat) : Read :=
  let x := r.ins.src k
  match x.1 with
  | .reg _ => let w := ((vget r.regs k)[e % r.lanes]?).getD (0, false); ⟨w.1.toNat, 0, w.2⟩
  | .stream _ => readStream m (tileOf x.2.1) e
  | .scalar _ | .imm => ⟨x.2.2.toNat % 2 ^ (r.ins.srcFmt k).bits, 0, false⟩
  | _ => ⟨0, 0, false⟩

/-- The value of element e of source k; NaN where poisoned (Table 5-11). -/
def VxRun.value (r : VxRun) (m : ProtMem) (k : Fin 3) (e : Nat) : FpNum := (r.read m k e).value (r.ins.srcFmt k)

/-- Whether element e reads a poisoned word. -/
def VxRun.poisoned (r : VxRun) (m : ProtMem) (e : Nat) : Bool :=
  ((allFin 3).filter (fun k => decide (k.val < r.ins.fun_.sources))).any (fun k => (r.read m k e).poison)

/-- The exact result of a numeric function on one element (Table 5-1). -/
def VxFn.exact (f : VxFn) (a b c : FpNum) : FpNum :=
  match f with
  | .add => a.add b
  | .sub => a.add b.neg
  | .mul => a.mul b
  | .fma => fmaNum a b c
  | .neg => a.neg
  | .abs => a.abs
  | .min => FpNum.min a b
  | .max => FpNum.max a b
  | .div => a.div b
  | .sqrt => a.sqrt
  | .recip => (FpNum.fin false 1 0).div a
  | .rsqrt => a.rsqrt
  | .trans t => t.eval a
  | _ => a

/-- Segmented reduction and broadcast: the value every lane of one beat takes (Table 5-1). -/
def VxRun.laneValue (r : VxRun) (m : ProtMem) (e : Nat) : FpNum :=
  let l := e % r.lanes
  if r.ins.fun_ = .bcast then r.value m 0 (fld r.ins.fn 0 8)
  else
    let n := fld r.ins.fn 0 4
    let seg := (List.range (2 ^ n)).map (fun i => r.value m 0 (l / 2 ^ n * 2 ^ n + i))
    if bit r.ins.fn 4 then (match seg with | x :: rest => rest.foldl FpNum.max x | [] => FpNum.zero)
    else treeSum F32 n seg

/-- The data source vx.sel writes for element e: A where a bit of the mask element is set (of both planes of an M40
element), else B (R230). -/
def VxRun.chosen (r : VxRun) (m : ProtMem) (e : Nat) : Fin 3 :=
  let c := r.read m 2 e
  if c.code = 0 ∧ (r.ins.srcFmt 2 ≠ .m40 ∨ c.second = 0) then 1 else 0

/-- The exact result of element e. -/
def VxRun.exact (r : VxRun) (m : ProtMem) (e : Nat) : FpNum :=
  match r.ins.fun_ with
  | .segred | .bcast => r.laneValue m e
  | .sel => r.value m (r.chosen m e) e
  | f => f.exact (r.value m 0 e) (r.value m 1 e) (r.value m 2 e)

/-- The rounding of element e: SR takes the grain word of its lane (R85, R154). -/
def VxRun.round (r : VxRun) (e : Nat) : Round := rmOf r.ins.rm (r.ins.draw.word (e % r.lanes) (e / r.lanes))

/-- The F32 result of element e, before any narrower conversion (R141). -/
def VxRun.f32Result (r : VxRun) (m : ProtMem) (e : Nat) : FpNum := F32.rnd (r.exact m e)

/-- The code of element e in a format without blocks, rounded as R141 states. A block-format value beyond F32's range
(the largest elements under the largest mordants; Table 3-4 calls the conversion exact and states no overflow) takes
F32's own overflow: infinity, under RTZ the largest finite value (DESIGN CHOICE, log entry 62). -/
def VxRun.plainCode (r : VxRun) (m : ProtMem) (e : Nat) : Nat :=
  let f := r.ins.fun_
  let narrow := fun (t : Flt) => t.enc (r.round e) (if f.wide && !r.ins.vi then r.exact m e else r.f32Result m e)
  match r.ins.dstFmt with
  | .w16 => narrow W16
  | .h16 => narrow H16
  | .f32 => F32.enc (if f = .cvt then r.round e else .rne) (r.exact m e)
  | _ => F32.enc .rne (r.exact m e)

/-- Relation codes of vx.cmp (Table 7-7). -/
def VxRun.cmpBits (r : VxRun) (m : ProtMem) (e : Nat) : Nat :=
  if numRel (fld r.ins.fn 0 2) (r.value m 0 e) (r.value m 1 e) then 2 ^ r.ins.dstFmt.bits - 1 else 0

/-- The code vx.grain writes (R231). -/
def grainCode (f : Elem) (w : Word32) : Nat :=
  match f with
  | .f32 => F32.enc .rne (.fin false (w.toNat / 2 ^ 8) (-24))
  | .w16 => W16.enc .rne (.fin false (w.toNat / 2 ^ 24) (-8))
  | .h16 => H16.enc .rne (.fin false (w.toNat / 2 ^ 24) (-8))
  | _ => w.toNat

/-- Which words of the first source's element are poisoned: that of its element plane, and of its second plane. -/
def VxRun.wordsBad (r : VxRun) (m : ProtMem) (e : Nat) : Bool × Bool :=
  match (r.ins.src 0).1 with
  | .stream _ =>
    let t := tileOf (r.ins.src 0).2.1
    let p := t.stored (e / t.lcols) (e % t.lcols)
    (m.poisonedWord (t.elemAddr p.1 p.2 / 4), t.elem.planes && m.poisonedWord (t.secondAddr p.1 p.2 / 4))
  | _ => ((r.read m 0 e).poison, false)

/-- What one element of a destination without blocks is written as: code, extension byte, and whether the word of its
element and that of its extension byte become poison marks: each where it takes bits of a poisoned word (R164). A mask of vx.cmp in W16 or H16 is a numeric result, which a poisoned source makes NaN. Of vx.sel
the words that take bits of a poisoned data word are marked; a poisoned mask word gives none of its bits, so its stored
bits choose and the result is not marked (DEDUCED, log entry 58). -/
def VxRun.plain (r : VxRun) (m : ProtMem) (e : Nat) : Nat × Nat × Bool × Bool :=
  match r.ins.fun_ with
  | .grain => (grainCode r.ins.dstFmt (r.ins.draw.word (e % r.lanes) (e / r.lanes)), 0, false, false)
  | .cmp =>
    if r.poisoned m e then
      (match r.ins.dstFmt with
       | .w16 => (W16.enc .rne .nan, 0, false, false)
       | .h16 => (H16.enc .rne .nan, 0, false, false)
       | _ => (r.cmpBits m e, 0, true, false))
    else (r.cmpBits m e, 0, false, false)
  | .sel =>
    let k := r.chosen m e
    let x := r.read m k e
    (if r.ins.selRaw k then x.code else r.plainCode m e, 0, x.poison, false)
  | _ =>
    if r.ins.copies then ((r.read m 0 e).code, (r.read m 0 e).second, r.wordsBad m e)
    else (r.plainCode m e, 0, false, false)

/-! ### Block destinations -/

/-- The mordant of block j of a group, 0xFF where its word is poisoned. -/
def State.tableMordant (s : State) (g : GradGroup) (j : Nat) : Nat :=
  if (s.dramBytes (g.version (bit g.status 2) + 4 * j) 4).2.isEmpty then s.activeMordant g j else 0xFF

/-- The element of a G16 destination by R79 where every G16 source has the destination's mordants, else by R78. -/
def VxRun.g16 (r : VxRun) (m : ProtMem) (mord e : Nat) : Nat × G16Flag :=
  let bad := r.poisoned m e
  let dir := bit r.flags 7
  let b := (r.read m 1 e).code
  let b' := if r.ins.fun_ = .sub ∧ b ≠ satCode then (65536 - b) % 65536 else b
  if dir && !bad && mord != 0xFF then
    let q := addG16 (r.read m 0 e).code b'
    (q.1, if q.2 then .bleed else .ok)
  else encG16 (r.round e) mord (r.f32Result m e)

/-- What a block of a destination is written as: element codes, the mordant, what its elements found, and the element
words that become poison marks with whether the mordant's does. A same-format copy takes the mordant of the block its
first element lies in, where rows of another length make it span two (DESIGN CHOICE, log entry 62). -/
def VxRun.block (r : VxRun) (s : State) (m : ProtMem) (t : Tile) (row k : Nat) :
    List Nat × Nat × List G16Flag × List Nat × Bool :=
  let bs := t.elem.block
  let n := min bs (t.lcols - k * bs)
  let es := (List.range n).map (fun i => row * t.lcols + k * bs + i)
  let pad := fun (l : List Nat) => l ++ List.replicate (bs - n) 0
  if r.ins.copies then
    let st := tileOf (vget r.ins.descs 1)
    let rd := es.map (readStream m st)
    let pos := es.map (fun e => st.stored (e / st.lcols) (e % st.lcols))
    let bads := (pos.zipIdx.filter (fun p => m.poisonedWord (st.elemAddr p.1.1 p.1.2 / 4))).map (·.2)
    let mbad := pos.any (fun p => m.poisonedWord (st.secondAddr p.1 p.2 / 4))
    (pad (rd.map (·.code)), (match rd with | x :: _ => x.second | [] => 0), [], bads, mbad)
  else
    match t.elem.efmt with
    | some (eb, fb, emax) =>
      let xs := es.map (r.f32Result m)
      let md := selectMordant emax xs
      let codes := (xs.zip es).map (fun p => encScaled eb fb md (r.round p.2) p.1)
      let bads := if r.ins.fun_ = .sel then (List.range n).filter (fun i =>
        let e := row * t.lcols + k * bs + i
        (r.read m (r.chosen m e) e).poison) else []
      (pad codes, md, if t.elem = .ac8 ∧ md = 0xFF then [.nonfinite] else [], bads, false)
    | none =>
      let j := r.ins.firstBlock + (row * t.lcols + k * bs) / 64
      let md := s.tableMordant (s.group r.ins.groupIx) j
      let out := es.map (r.g16 m md)
      (pad (out.map (·.1)), md, out.map (·.2), [], false)

/-- Blocks of a destination row whose last element lies in a range of the stream. -/
def blocksIn (t : Tile) (lo hi : Nat) : List (Nat × Nat) :=
  let bs := max t.elem.block 1
  let per := blockCount t.lcols bs
  let r0 := lo / t.lcols
  let r1 := hi / t.lcols
  (List.range (r1 - r0 + 1)).flatMap (fun i =>
    ((List.range per).filter (fun k =>
      let last := (r0 + i) * t.lcols + min ((k + 1) * bs) t.lcols - 1
      decide (lo ≤ last) && decide (last < hi))).map (fun k => (r0 + i, k)))

/-- Write one block. -/
def writeBlock (m : ProtMem) (t : Tile) (row k : Nat) (codes : List Nat) (md : Nat) (bads : List Nat) (mbad : Bool) :
    ProtMem :=
  let at_ := t.elemAddr row (k * t.elem.block)
  let at2 := t.secondAddr row (k * t.elem.block)
  let m1 := (m.write at_ (packCodes t.elem.bits codes)).write at2 [BitVec.ofNat 8 md]
  let m2 := m1.poisonAll (bads.map (fun i => t.elemAddr row (k * t.elem.block + i) / 4))
  if mbad then m2.poison (at2 / 4) else m2

/-- Write a run of elements of one stored row in a format without blocks. -/
def writeRun (m : ProtMem) (t : Tile) (row col : Nat) (xs : List (Nat × Nat × Bool × Bool)) : ProtMem :=
  let m1 := m.write (t.elemAddr row col) (xs.flatMap (fun x => leBytes (t.elem.bits / 8) x.1))
  let m2 := if t.elem.planes then m1.write (t.secondAddr row col) (xs.map (fun x => BitVec.ofNat 8 x.2.1)) else m1
  xs.zipIdx.foldl (fun w x =>
    let w1 := if x.1.2.2.1 then w.poison (t.elemAddr row (col + x.2) / 4) else w
    if x.1.2.2.2 then w1.poison (t.secondAddr row (col + x.2) / 4) else w1) m2

/-- The runs of a range of the stream: logical row, first column, first element and count. -/
def runsOf (t : Tile) (lo hi : Nat) : List (Nat × Nat × Nat × Nat) :=
  let r0 := lo / t.lcols
  let r1 := (hi - 1) / t.lcols
  (List.range (r1 - r0 + 1)).map (fun i =>
    let a := max lo ((r0 + i) * t.lcols)
    let b := min hi ((r0 + i + 1) * t.lcols)
    (r0 + i, a - (r0 + i) * t.lcols, a, b - a))

/-! ### Starting an instruction -/

/-- Whether both sources of a G16 addition are G16 streams whose mordants are the destination's (R79, R229). -/
def VxInstr.direct (m : VxInstr) (s : State) (store : ProtMem) : Bool :=
  let isStream := fun (k : Fin 3) => match (m.src k).1 with | .stream _ => true | _ => false
  m.tabled && m.fun_ != .cvt && isStream 0 && isStream 1 && m.srcFmt 0 == .g16 && m.srcFmt 1 == .g16 &&
  (List.range (m.elems / 64)).all (fun j =>
    let md := s.tableMordant (s.group m.groupIx) (m.firstBlock + j)
    (List.range 64).all (fun i =>
      (readStream store (tileOf (m.src 0).2.1) (64 * j + i)).second == md &&
      (readStream store (tileOf (m.src 1).2.1) (64 * j + i)).second == md))

/-- The hash state held in bytes 0 to 31 of a v register, in the standard's byte order. -/
def shaState (v : ProtMem) (r : Fin 64) : List Word32 := beWords (v.read (r.val * 1024) 32)

/-- A started instruction. -/
def VxInstr.start (m : VxInstr) (s : State) (c : CellId) : VxRun :=
  let x := s.cell c
  let v := (x.slot m.tag.slot).ctx.v
  let acc : List Word64 :=
    match m.fun_, m.dst with
    | .crc64, _ => [vget m.svals 0]
    | .sha256, .reg r => (shaState v r).map (·.zeroExtend 64)
    | _, _ => []
  let shaBad := match m.fun_, m.dst with
    | .sha256, .reg r => v.anyPoison (r.val * 1024) 32
    | _, _ => false
  { ins := m, elems := m.elems, lanes := m.lanes, beat := 0, regs := m.regSrcs v s.freeCtr, acc := acc,
    flags := setBit (setBit 0 7 (m.direct s x.store)) 2 shaBad }

/-! ### The optimizer descriptor (Table 5-6) -/

/-- A field of the descriptor as a word. -/
def OptRun.word (r : OptRun) (off : Nat) : Word32 := BitVec.ofNat 32 (field r.desc off 4)
/-- A base of the descriptor. -/
def OptRun.base (r : OptRun) (off : Nat) : Nat := field r.desc off 8
/-- Mode bit 0: single moment. -/
def OptRun.single (r : OptRun) : Bool := bit ((r.desc[0x70]?).getD 0) 0

/-- The check of R157: SLOT_BOUNDS, then OPT_DESC. -/
def optDescFault (x : Cell) (i : SlotId) (off : Nat) : Option Byte :=
  let d := x.store.read off 128
  let mode := (d[0x70]?).getD 0
  if !(x.inPart i off 128) then some 0x03
  else if !(x.inPart i (field d 0x48 8) (2 ^ 20)) then some 0x03
  else if off % 128 ≠ 0 ∨ x.store.anyPoison off 128 ∨
      [0x00, 0x08, 0x10, 0x18, 0x20, 0x28, 0x30, 0x38].any (fun o => field d o 8 % 256 != 0) ∨
      field d 0x40 8 = 0 ∨ field d 0x40 8 % 64 ≠ 0 ∨ field d 0x48 8 % 4096 ≠ 0 ∨ fld mode 2 6 ≠ 0 ∨
      (slice d 0x71 15).any (· != 0) then some 0x08
  else none

/-- c₁ or c₂ of R158 from a β and the update count this Fix creates. -/
def biasCorr (b : Word32) (t : Nat) : Word32 :=
  frecip (toF32 ((FpNum.fin false 1 0).add (F32.rnd (powNum (f32 b) t)).neg))

/-- Fill a range of a cell store with bytes the specification leaves open. -/
def State.freeStore (s : State) (c : CellId) (a n : Nat) : State :=
  { (s.modCell c (fun x => { x with store := (x.store.zeroRange a n).putBytes a (s.freeBytes n) })) with
    freeCtr := s.freeCtr + n }

/-- vx.optstep leaves the queue (R40, R157, R159): it starts under a commit verdict, retires SKIPPED under a skip
verdict, and STOPPED where its partition is ABORTED. What the staging window holds from then on is open. In restore
mode, where Table 5-2 calls it not available and states no fault, it runs as in normal service (DESIGN CHOICE, log
entry 64). -/
def State.startOpt (s : State) (c : CellId) (m : VxInstr) : State :=
  let x := s.cell c
  let off := fld m.imm 0 23
  match optDescFault x m.tag.slot off with
  | some code => s.instrFault c m.tag .vector code 0
  | none =>
    let st := match s.partOf c with | some p => s.stepOf p | none => Step.reset
    let opt := fun (b : Nat) => s.modCell c (fun y => y.modRegs (fun r => { r with
      optStatus := setBit (setBit r.optStatus 0 true) b true }))
    if st.phase = .aborted then opt 2
    else if st.commit = false then opt 1
    else
      let d := x.store.read off 128
      let mode := (d[0x70]?).getD 0
      let t := ((match s.partOf c with | some p => s.countAtFix p | none => 0) + 1).toNat
      let corr := fun (o : Nat) =>
        if bit mode 1 && !(bit mode 0) then biasCorr (BitVec.ofNat 32 (field d o 4)) t else 0x3F800000
      let run : OptRun := ⟨m, d, 0, corr 0x54, corr 0x5C, false, false, []⟩
      (s.modCell c (fun y => y.modEng (fun e => { e with optRun := some run }))).freeStore c (field d 0x48 8) (2 ^ 20)

/-- vx.rmode leaves the queue (R144): entry faults while a vat row is live; leaving clears the vat. -/
def State.startRmode (s : State) (c : CellId) (m : VxInstr) : State :=
  let x := s.cell c
  if bit m.imm 0 then
    if x.vatAnyLive then s.instrFault c m.tag .vector 0x09 0
    else s.modCell c (fun y => y.modEng (fun e => { e with restore := true }))
  else if x.eng.restore then
    s.modCell c (fun y => (y.modEng (fun e => { e with restore := false })).clearVat)
  else s

/-- Whether a vector instruction is held: another instruction is in flight (the bubble slot may use the cycles a
vx.optstep leaves, R160), a drain's epilogue has the issue slots (R123), an earlier instruction holds a range (R198), vx.rmode 1
awaits the plate queue, or the cell issues nothing from the bubble slot (R144). -/
def Cell.vecHeld (x : Cell) (c : CellId) (loc : BitVec 16 → Bool) (m : VxInstr) : Bool :=
  let opt := match x.eng.optRun with
    | some r => !(m.tag.slot == 1 && r.ins.tag.slot == 0 && m.op != 0x40)
    | none => false
  let rngs := if m.op = 0x40 then x.optRngs c loc m else m.rngs
  x.eng.vecRun.isSome || opt || x.epilogueRuns || x.bubbleHeld m.tag.slot || x.rangesHeld c loc m.tag.slot m.tag.seq rngs ||
  (m.op == 0x41 && bit m.imm 0 && !x.eng.plateQ.isEmpty && !m.tag.phaseBad)

/-- The place in the vector queue of the instruction it issues next: the oldest of each slot is next in line, and the
slots do not hold one another (R205). -/
def Cell.vecNext (x : Cell) (c : CellId) (loc : BitVec 16 → Bool) : Option Nat :=
  firstHead (fun (m : VxInstr) => m.tag.slot) (fun m => !(x.vecHeld c loc m)) [] x.eng.vecQ

/-- The vector queue issues its oldest instruction that is not held (R143, R164, R195, R205). -/
def execVectorIssue (c : CellId) (s : State) : Res :=
  let x := s.cell c
  match x.vecNext c s.isLocal with
  | none => .next s
  | some n =>
    match x.eng.vecQ[n]? with
    | none => .next s
    | some m =>
      let s1 := s.modCell c (fun y => y.modEng (fun e => { e with vecQ := e.vecQ.eraseIdx n }))
      match m.fault s c with
      | some code => .next (s1.instrFault c m.tag .vector code 0)
      | none =>
        match m.fun_ with
        | .optstep => .next (s1.startOpt c m)
        | .rmode => .next (s1.startRmode c m)
        | .gskip => .next s1
        | _ =>
          let run := m.start s c
          .next { (s1.modCell c (fun y => y.modEng (fun e => { e with vecRun := some run }))) with
            freeCtr := s1.freeCtr + 1536 }

/-! ### Beats -/

/-- Elements of the present beat. -/
def VxRun.span (r : VxRun) : Nat × Nat := (r.beat * r.lanes, min r.elems ((r.beat + 1) * r.lanes))

/-- The running value of a summary after a beat (R146); empty before the first. -/
def summStep (kind : Nat) (acc : List Word64) (xs : List FpNum) : List Word64 :=
  let word := fun (v : Word32) => (v.zeroExtend 64 : Word64)
  let prev := fun (d : Word64) => match acc with | a :: _ => a | [] => d
  match kind with
  | 0 =>
    let m := xs.foldl (fun a x => FpNum.max a x.abs) FpNum.zero
    [word (toF32 (FpNum.max (f32 (bfld (prev 0) 0 32)) m))]
  | 1 | 2 =>
    let leaves := if kind = 1 then xs else xs.map (fun x => F32.rnd (x.mul x))
    let t := toF32 (treeSum F32 8 (leaves ++ List.replicate (256 - xs.length) FpNum.zero))
    (match acc with
     | a :: _ => [word (fadd (bfld a 0 32) t)]
     | [] => [word t])
  | 3 => [BitVec.ofNat 64 (((prev 0).toNat + (xs.filter (fun x => !x.isZero)).length) % 2 ^ 63)]
  | _ => [if xs.any FpNum.nonFinite then 1 else prev 0]

/-- The bytes of a range of elements of a U8 or U32 stream, lowest address first (R232). -/
def digestBytes (m : ProtMem) (t : Tile) (lo hi : Nat) : List Byte :=
  (List.range (hi - lo)).flatMap (fun i => leBytes (t.elem.bits / 8) (readStream m t (lo + i)).code)

/-- The digest value after a beat. An uncorrectable word is digested as its stored data; POISON is raised and the result
is not marked (DESIGN CHOICE, log entry 62: R164 names no effect on a digest). -/
def VxRun.digest (r : VxRun) (m : ProtMem) : List Word64 :=
  let sp := r.span
  let bs := digestBytes m (tileOf (vget r.ins.descs 1)) sp.1 sp.2
  match r.ins.fun_ with
  | .crc64 => r.acc.map (fun a => crc64From a bs)
  | _ => (shaBlocks (bs.length / 64) (r.acc.map (bfld · 0 32)) bs).map (·.zeroExtend 64)

/-- The accumulated value after a beat. -/
def VxRun.accumulate (r : VxRun) (m : ProtMem) : List Word64 :=
  match r.ins.fun_ with
  | .summ =>
    let sp := r.span
    summStep (fld r.ins.fn 0 3) r.acc ((List.range (sp.2 - sp.1)).map (fun i => r.value m 0 (sp.1 + i)))
  | .crc64 | .sha256 => r.digest m
  | _ => r.acc

/-- Whether a G16 element of the beat is SAT (Table 5-3). -/
def VxRun.satSeen (r : VxRun) (m : ProtMem) : Bool :=
  let sp := r.span
  r.ins.fun_ == .summ && r.ins.srcFmt 0 == .g16 &&
  (List.range (sp.2 - sp.1)).any (fun i => (r.read m 0 (sp.1 + i)).code == satCode)

/-- Whether an element of the beat is infinite or NaN. -/
def VxRun.nonfiniteSeen (r : VxRun) (m : ProtMem) : Bool :=
  let sp := r.span
  (List.range (sp.2 - sp.1)).any (fun i => (r.value m 0 (sp.1 + i)).nonFinite)

/-- Whether the beat reads a poisoned word. -/
def VxRun.beatPoison (r : VxRun) (m : ProtMem) : Bool :=
  let sp := r.span
  match r.ins.fun_ with
  | .bcast => (r.read m 0 (fld r.ins.fn 0 8)).poison
  | .segred => (List.range r.lanes).any (fun i => (r.read m 0 i).poison)
  | _ => (List.range (sp.2 - sp.1)).any (fun i => r.poisoned m (sp.1 + i))

/-- The first poisoned cell-store word the beat reads; none where only v registers hold one. -/
def VxRun.poisonAt (r : VxRun) (m : ProtMem) : Option (Nat × BitVec 39) :=
  let sp := r.span
  let els : List Nat :=
    match r.ins.fun_ with
    | .bcast => [fld r.ins.fn 0 8]
    | .segred => List.range r.lanes
    | _ => (List.range (sp.2 - sp.1)).map (sp.1 + ·)
  m.firstPoison (((allFin 3).filter (fun k => decide (k.val < r.ins.fun_.sources))).flatMap (fun k =>
    match (r.ins.src k).1 with
    | .stream _ =>
      let t := tileOf (r.ins.src k).2.1
      els.flatMap (fun e => t.wordsOf (t.stored (e / t.lcols) (e % t.lcols)))
    | _ => []))

/-- Write a beat to a v register: elements beyond it keep their values (R227). -/
def VxRun.toReg (r : VxRun) (m : ProtMem) (v : ProtMem) (d : Fin 64) : ProtMem :=
  let sp := r.span
  let n := r.ins.dstFmt.bits / 8
  let xs := (List.range (sp.2 - sp.1)).map (fun i => r.plain m (sp.1 + i))
  let base := d.val * 1024
  let v1 := v.write base (xs.flatMap (fun x => leBytes n x.1))
  v1.poisonAll ((xs.zipIdx.filter (fun x => x.1.2.2.1)).map (fun x => (base + x.2 * n) / 4))

/-- Write a beat to a stream: the store, and what its blocks found. -/
def VxRun.toStream (r : VxRun) (s : State) (m : ProtMem) (t : Tile) : ProtMem × List G16Flag :=
  let sp := r.span
  if t.elem.block ≠ 0 then
    (blocksIn t sp.1 sp.2).foldl (fun w b =>
      let o := r.block s m t b.1 b.2
      (writeBlock w.1 t b.1 b.2 o.1 o.2.1 o.2.2.2.1 o.2.2.2.2, w.2 ++ o.2.2.1)) (m, [])
  else
    ((runsOf t sp.1 sp.2).foldl (fun w q =>
      let xs := (List.range q.2.2.2).map (fun i => r.plain m (q.2.2.1 + i))
      if t.trans then
        xs.zipIdx.foldl (fun u x => writeRun u t (q.2.1 + x.2) q.1 [x.1]) w
      else writeRun w t q.1 q.2.1 xs) m, [])

/-- Account for the mordant table words the beat reads, charged to the cell's partition (R295, R486). -/
def VxRun.noteTable (r : VxRun) (s : State) (c : CellId) : State :=
  if r.ins.tabled = false then s
  else
    let g := s.group r.ins.groupIx
    let sp := r.span
    let j0 := r.ins.firstBlock + sp.1 / 64
    let a := g.version (bit g.status 2) + 4 * j0
    let n := 4 * blockCount (sp.2 - sp.1) 64
    match s.partOf c with
    | some p => s.sees p false (some ⟨c, r.ins.tag.slot⟩) a n
    | none => s.dramNote (some ⟨c, r.ins.tag.slot⟩) false a n

/-- A beat of the running vx instruction is executed and its result written (R138, R143, R164). -/
def State.vxBeat (c : CellId) (s : State) : Res :=
  let x := s.cell c
  match x.eng.vecRun with
  | none => .next s
  | some r =>
    let m := x.store
    let at_ : At := ⟨c, r.ins.tag.slot⟩
    let last := decide (r.elems ≤ (r.beat + 1) * r.lanes)
    let bad := r.beatPoison m || bit r.flags 2
    let sat := r.satSeen m
    let acc := r.accumulate m
    let verdict := r.ins.fun_ == .summ && bit r.ins.fn 13
    let allSat := bit r.flags 1 || sat
    let r' : VxRun := { r with
      beat := r.beat + 1, acc := acc,
      flags := setBit (setBit (setBit r.flags 0 (bit r.flags 0 || bad)) 1 allSat) 2 false }
    let wr : Cell × List G16Flag :=
      match r.ins.fun_.elementwise, r.ins.dst with
      | true, .reg d => (x.modSlot r.ins.tag.slot (fun y => { y with ctx := { y.ctx with v := r.toReg m y.ctx.v d } }), [])
      | true, .stream _ =>
        let o := r.toStream s m (tileOf (vget r.ins.descs 0))
        ({ x with store := o.1 }, o.2)
      | false, .reg d =>
        if last then
          (x.modSlot r.ins.tag.slot (fun y => { y with ctx := { y.ctx with
            v := y.ctx.v.write (d.val * 1024) (acc.flatMap (fun w => beBytes (bfld w 0 32))) } }), [])
        else (x, [])
      | _, _ => (x, [])
    let res : List SResult :=
      match r.ins.destS with
      | some d =>
        if last then
          let v := match acc with | a :: _ => a | [] => 0
          [⟨r.ins.tag.slot, r.ins.tag.seq, d, if r.ins.fun_ = .summ then setBit v 63 allSat else v⟩]
        else []
      | none => []
    let s1 := s.setCell c { wr.1 with
      eng := { wr.1.eng with vecRun := if last then none else some r', results := wr.1.eng.results ++ res },
      regs := { wr.1.regs with vecBeat := wr.1.regs.vecBeat + BitVec.ofNat 64 r.ins.fun_.passes } }
    let s2 := r.noteTable s1 c
    let s3 := if bad && !(bit r.flags 0) then s2.poisonEvent c r.ins.tag .vector 0x07 (r.poisonAt m) else s2
    let s4 := s3.setStopIf at_ (wr.2.contains .nonfinite || (verdict && r.nonfiniteSeen m)) .nonfinite
    .next (s4.setStopIf at_ (wr.2.contains .bleed || (verdict && sat)) .bleed)

/-- VX_BEAT_RETIRE: a beat that reads a mordant table waits until the regulators admit its bursts. -/
def execVxBeatRetire (c : CellId) (s : State) : Res :=
  match (s.cell c).eng.vecRun with
  | some r => if r.ins.tabled then s.gated (dieOf c) (State.vxBeat c) else State.vxBeat c s
  | none => .next s

/-- A summary or CRC-64 result is written to its s register, oldest first (R149). -/
def execSummaryResult (c : CellId) (s : State) : Res :=
  match (s.cell c).eng.results with
  | [] => .next s
  | r :: rest =>
    .next ((s.modCell c (fun x => x.modEng (fun e => { e with results := rest }))).modCtx ⟨c, r.slot⟩
      (·.setS r.reg r.value))

/-! ### The fused optimizer step (R157 to R160) -/

/-- Planes of the descriptor a block reads: offset of the base, bytes a block. -/
def OptRun.reads (r : OptRun) : List (Nat × Nat) :=
  [(0x38, 1), (0x30, 1), (0x28, 128), (0x00, 256), (0x08, 64), (0x10, 256)] ++ (if r.single then [] else [(0x18, 256)])

/-- Planes a block writes. -/
def OptRun.writes (r : OptRun) : List (Nat × Nat) :=
  [(0x00, 256), (0x08, 64), (0x10, 256)] ++ (if r.single then [] else [(0x18, 256)]) ++ [(0x20, 128)]

/-- Local address of the present block in a plane. -/
def OptRun.at_ (r : OptRun) (x : Nat × Nat) : Nat := r.base x.1 + r.block * x.2

/-- The first refused address of the present block and its code (R159). -/
def OptRun.refused (r : OptRun) (s : State) (p : PartId) : Option (Byte × Nat) :=
  let reach := fun (x : Nat × Nat) => s.inRanges p (r.at_ x) x.2 && s.mapped (r.at_ x) x.2
  match (r.reads ++ r.writes).find? (fun x => !(reach x)) with
  | some x => some (0x0C, r.at_ x)
  | none =>
    match r.writes.find? (fun x => (s.checkWrite (.optstep p) (r.at_ x) x.2).1 != .ok) with
    | some x => some (0x0B, (s.checkWrite (.optstep p) (r.at_ x) x.2).2)
    | none => none

/-- What R158 computes for one element: master, first moment, second moment, working copy. -/
structure OptElem where
  master : FpNum
  mom1   : Word32
  mom2   : Word32
  work   : FpNum
  deriving DecidableEq, Repr

/-- R158. -/
def OptRun.elem (r : OptRun) (q mord : Nat) (w32 : Word32) (ext : Nat) (m1 m2 : Word32) : OptElem :=
  let g := fmul (toF32 (decG16 q mord)) (r.word 0x6C)
  let m := if r.single then ffma (r.word 0x54) m1 g else ffma (r.word 0x54) m1 (fmul (r.word 0x58) g)
  let v := ffma (r.word 0x5C) m2 (fmul (r.word 0x60) (fmul g g))
  let u := if r.single then m
    else fdiv (fmul m r.c1) (fadd (fsqrt (fmul v r.c2)) (r.word 0x64))
  let upd := fmul (r.word 0x50) (ffma (r.word 0x68) w32 u)
  let master := M40.rnd ((Elem.m40.dec w32.toNat ext).add (f32 upd))
  ⟨master, m, if r.single then 0 else v, W16.rnd master⟩

/-- The number of a little-endian element of a plane. -/
def planeNum (bs : List Byte) (i n : Nat) : Nat := field bs (i * n) n

/-- What becomes of a block (R159). -/
inductive OptBlock where
  | refused (code : Byte) (addr : Nat)
  | poisoned (persist : Bool)
  | withheld
  | nonfinite
  | write (es : List OptElem)
  deriving DecidableEq, Repr

/-- Decide a block in the order of R159. -/
def OptRun.decide_ (r : OptRun) (s : State) (p : PartId) : OptBlock :=
  match r.refused s p with
  | some x => .refused x.1 x.2
  | none =>
    let rd := fun (o n : Nat) => s.dramBytes (r.at_ (o, n)) n
    let bad := r.reads.filter (fun x => !(rd x.1 x.2).2.isEmpty)
    if !bad.isEmpty then
      .poisoned (bad.any (fun x =>
        match s.direct (r.at_ x) with
        | some d => (s.persistOwner d).isSome
        | none => false))
    else
      let flag := (rd 0x38 1).1
      let mord := planeNum (rd 0x30 1).1 0 1
      let qs := (List.range 64).map (planeNum (rd 0x28 128).1 · 2)
      if planeNum flag 0 1 % 4 = 3 ∨ qs.contains satCode then .withheld
      else
        let ms := (rd 0x00 256).1
        let ex := (rd 0x08 64).1
        let m1 := (rd 0x10 256).1
        let m2 := if r.single then [] else (rd 0x18 256).1
        let es := qs.zipIdx.map (fun q =>
          r.elem q.1 mord (BitVec.ofNat 32 (planeNum ms q.2 4)) (planeNum ex q.2 1)
            (BitVec.ofNat 32 (planeNum m1 q.2 4)) (BitVec.ofNat 32 (planeNum m2 q.2 4)))
        if es.any (fun e => e.master.nonFinite || (f32 e.mom1).nonFinite || (f32 e.mom2).nonFinite ||
            e.work.nonFinite) then .nonfinite
        else .write es

/-- The first poisoned word the present block reads: its address and its memory syndrome word (R303), CRC_FAIL where the
burst failed its CRC; a fenced or untrained stack's has no error pattern and reads as a mark. -/
def OptRun.firstBad (r : OptRun) (s : State) : Nat × Word32 :=
  let offs := r.reads.flatMap (fun x => (s.dramBytes (r.at_ x) x.2).2.map (r.at_ x + ·))
  match offs with
  | [] => (0, 0)
  | a :: _ =>
    match s.direct a with
    | none => (a, 0)
    | some d =>
      if !((s.stack (stackOf d)).silent) && (s.wire (s.seen d) d).1 == 4 then
        (a, synWord 5 (stackOf d) (s.chanOf d) (d % 2 ^ 37) 63 0)
      else
        let m := if (s.stack (stackOf d)).silent then poisonDiff else (s.seen d).diff (d / 4)
        let syn := syndrome m
        let k := (classify syn).kind
        (a, synWord k.1 (stackOf d) (s.chanOf d) (d % 2 ^ 37) k.2 syn)

/-- The listed page of a direct address: its slot in the partition's list (R439). -/
def State.listedSlot (s : State) (p : PartId) (d : Nat) : Option Nat :=
  (vget s.twins p).slots.findIdx? (fun pg => pageHolds pg d)

/-- Whether writes to listed pages wait for the twin (R442, R447): TWIN_EN is 1, the engine is ARMED and the current
count's negative is not reported complete. -/
def State.firstTouch (s : State) (p : PartId) : Bool :=
  let t := vget s.twins p
  bit (s.stepOf p).ctl 1 && fld t.status 29 3 == 1 && !(t.hasNegative (s.stepOf p).updateCount)

/-- The slots whose state holds a write of the present block, with whether a copy must be asked for (Table 14-3). -/
def OptRun.heldSlots (r : OptRun) (s : State) (p : PartId) : List (Nat × Bool) :=
  if s.firstTouch p then
    r.writes.filterMap (fun x =>
      match s.direct (r.at_ x) with
      | none => none
      | some d =>
        match s.listedSlot p d with
        | none => none
        | some i =>
          match Sparse.get PageState.unsent (vget s.twins p).pageState i with
          | .unsent => some (i, true)
          | .inFlight => some (i, false)
          | .staged _ | .acked => none)
  else []

/-- Write the planes of a block (R83, R158). -/
def OptRun.store (r : OptRun) (s : State) (p : PartId) (es : List OptElem) : State :=
  let m40 := es.map (fun e => M40.enc .rne e.master)
  let w := fun (t : State) (o : Nat × Nat) (bs : List Byte) => t.dramWrite (.optstep p) (r.at_ o) bs
  let s1 := w s (0x00, 256) (m40.flatMap (fun c => leBytes 4 (c / 256)))
  let s2 := w s1 (0x08, 64) (m40.map (fun c => BitVec.ofNat 8 c))
  let s3 := w s2 (0x10, 256) (es.flatMap (fun e => leBytes 4 e.mom1.toNat))
  let s4 := if r.single then s3 else w s3 (0x18, 256) (es.flatMap (fun e => leBytes 4 e.mom2.toNat))
  w s4 (0x20, 128) (es.flatMap (fun e => leBytes 2 (W16.enc .rne e.work)))

/-- Count a block in OPT_STATUS (Table 5-14). -/
def optCount (w : Word64) : OptBlock → Word64
  | .refused .. => satAdd w 3 5 1
  | .poisoned _ => satAdd w 8 8 1
  | .withheld => satAdd w 32 32 1
  | .nonfinite => satAdd w 16 16 1
  | .write _ => w

/-- vx.optstep retires: DONE, and the partition reset of R486 where it found poisoned persistent state. -/
def State.retireOpt (s : State) (c : CellId) (p : PartId) (stopped persist : Bool) : State :=
  let s1 := s.modCell c (fun y => { y with
    eng := { y.eng with optRun := none },
    regs := { y.regs with optStatus := setBit (setBit y.regs.optStatus 0 true) 2 stopped } })
  if persist then s1.startReset .partition c 0 0 p 0x7 else s1

/-- What one block of 64 parameters does (R158, R159). A held write leaves the block for later, asking for the first-touch
copies it needs (R447, R448). -/
def State.optstepBlock (c : CellId) (s : State) : Res :=
  match (s.cell c).eng.optRun, s.partOf c with
  | some r, some p =>
    if s.phase p = .aborted then .next (s.retireOpt c p true r.poisoned)
    else
      let what := r.decide_ s p
      let held := match what with | .write _ => r.heldSlots s p | _ => []
      if !held.isEmpty then
        let asks := ((held.filter (·.2)).map (·.1)).filter (fun i => !((vget s.twins p).held.contains i))
        .next ({ s with twins := vmod s.twins p (fun t => { t with held := t.held ++ asks.eraseDups }) }.modCell c (fun y =>
          y.modEng (fun e => { e with optRun := some { r with waits := held.map Prod.fst } })))
      else
        let at_ : At := ⟨c, r.ins.tag.slot⟩
        let touched := match what with | .refused .. => [] | _ => r.reads
        let s0 := touched.foldl (fun t x => t.dramNote (some at_) true (r.at_ x) x.2) s
        let s1 :=
          match what with
          | .refused code addr =>
            if r.recorded then s0 else s0.instrEvent c r.ins.tag .vector code (BitVec.ofNat 64 addr) 0
          | .poisoned _ =>
            let w := r.firstBad s
            s0.instrEvent c r.ins.tag .vector 0x07 (BitVec.ofNat 64 w.1) w.2
          | .nonfinite =>
            s0.report { (s0.errRec (dieOf c) (sysStatus 0x07) .event).withCtx s0 at_ with
              engine := 0x02, addr := BitVec.ofNat 64 (r.at_ (0, 256)), origin := r.ins.tag.origin }
          | .withheld => s0
          | .write es => r.store s0 p es
        let moved := touched ++ (match what with | .write _ => r.writes | _ => [])
        let s1 := s1.chargeAll p false (moved.map (fun x => (r.at_ x, x.2)))
        let isRef := match what with | .refused .. => true | _ => false
        let persist := r.poisoned || (match what with | .poisoned b => b | _ => false)
        let r' : OptRun := { r with waits := [], block := r.block + 1, recorded := r.recorded || isRef, poisoned := persist }
        let s2 := s1.modCell c (fun y => { y with
          eng := { y.eng with optRun := some r' },
          regs := { y.regs with
            vecOptElem := y.regs.vecOptElem + 64, optStatus := optCount y.regs.optStatus what } })
        .next (if r'.base 0x40 ≤ 64 * r'.block then s2.retireOpt c p false persist else s2)
  | _, _ => .next s

/-- VX_OPTSTEP_BLOCK: the next block, once the regulators admit its bursts. -/
def execOptstepBlock (c : CellId) (s : State) : Res := s.gated (dieOf c) (State.optstepBlock c)

end Sys2Proof.Machine
end

