-- ==== Sys2Proof/Machine/Mover.lean ====
section
/-!
DEFINITION. The data mover and its class (dm, Tables 7-8 and 7-9; R199, R234 to R239): dispatch, issue, the movement of
a transfer's bytes between cell stores, stacked memory, remote nodes and host memory, and completion.
-/
namespace Sys2Proof.Machine

/-! ### Dispatch -/

/-- Dispatch a dm instruction (R163, R187, R193, R195): `useT` says whether it names a tile, `copy` whether a second
queue descriptor. -/
def State.dmDispatch (s : State) (a : At) (p : Pred) (f : FmtQ) (op : Byte) (useT copy : Bool) : Res :=
  s.issue a p 4 op ⟨true, true⟩ (if f.sov = 1 then [f.so] else []) (fun s =>
    let x := s.cell a.cell
    let qd := s.qreg a f.q
    let qd2 := if copy then s.qreg a (bfld f.fn 24 3) else 0
    let td := if useT then s.treg a f.t else 0
    if !(qdescGood qd) || (copy && !(qdescGood qd2)) || (useT && !(tileGood td)) then s.trap a 4 op 0x03 0
    else if 32 ≤ x.eng.moverQ.length then s.hold a 0x3
    else
      let m : DmInstr := ⟨s.dispatchTag a 4 op, op, f, qd, qd2, td, if f.sov = 1 then s.sreg a f.so else 0⟩
      s.dispatch a (fun e => { e with moverQ := e.moverQ ++ [m] }))

/-- dm.get (R234). -/
def execDmGet (a : At) (p : Pred) (f : FmtQ) (s : State) : Res := s.dmDispatch a p f 0x01 true false
/-- dm.put (R234). -/
def execDmPut (a : At) (p : Pred) (f : FmtQ) (s : State) : Res := s.dmDispatch a p f 0x02 true false
/-- dm.copy (R234). -/
def execDmCopy (a : At) (p : Pred) (f : FmtQ) (s : State) : Res := s.dmDispatch a p f 0x03 false true

/-! ### The two sides of a transfer -/

/-- Where a byte of a transfer lies: a cell store, stacked memory, a remote node (logical), host memory. -/
inductive Side where
  | store (c : CellId) (off : Nat)
  | dram (a : Nat)
  | remote (n : BitVec 16) (a : Nat)
  | host (a : Nat)
  deriving DecidableEq, Repr

/-- The place `k` bytes on. -/
def Side.add (x : Side) (k : Nat) : Side :=
  match x with
  | .store c off => .store c (off + k)
  | .dram a => .dram (a + k)
  | .remote n a => .remote n (a + k)
  | .host a => .host (a + k)

/-- The address an error record gives for a place. -/
def Side.address (x : Side) : Word64 :=
  match x with
  | .store c off => BitVec.ofNat 64 (windowBase + c.val * 0x800000 + off)
  | .dram a => BitVec.ofNat 64 a
  | .remote n a => n ++ BitVec.ofNat 48 a
  | .host a => BitVec.ofNat 64 a

/-- Bytes up to the next place a transfer is cut: 256-byte lines of memory, and what one frame holds. -/
def Side.room (x : Side) : Nat :=
  match x with
  | .store _ _ => 256
  | .dram a | .remote _ a | .host a => 256 - a % 256

/-- Whether a place is on a remote node. -/
def Side.isRemote : Side → Bool
  | .remote .. => true
  | _ => false

/-- Whether a place is in host memory. -/
def Side.isHost : Side → Bool
  | .host _ => true
  | _ => false

/-- The cell and offset of a local address in the cell windows. -/
def windowOf (a : Nat) : CellId × Nat := (⟨(a - windowBase) / 0x800000 % 64, by omega⟩, (a - windowBase) % 0x800000)

/-- The place at byte `off` of a queue descriptor's range (R194). -/
def State.farSide (s : State) (q : QDesc) (off : Nat) : Side :=
  let n := nodeOf q.addr
  let a := localOf q.addr + off
  if q.kind = 3 then .host (q.addr.toNat + off)
  else if !(s.isLocal n) then .remote n a
  else if q.kind = 2 then .store (windowOf a).1 (windowOf a).2
  else .dram a

/-- Row distance on the far side of a get or put (R235). -/
def DmInstr.farStride (m : DmInstr) : Nat :=
  let st := fld m.f.fn 0 24 * 32
  if st = 0 then (tileOf m.td).rowBytes else st

/-- Bytes a transfer moves. -/
def DmInstr.total (m : DmInstr) : Nat :=
  if m.op = 0x03 then (qdescOf m.qd).length else (tileOf m.td).planeRows * (tileOf m.td).rowBytes

/-- Source and destination of byte `k` of a transfer. -/
def DmInstr.sides (s : State) (c : CellId) (m : DmInstr) (k : Nat) : Side × Side :=
  if m.op = 0x03 then (s.farSide (qdescOf m.qd) k, s.farSide (qdescOf m.qd2) k)
  else
    let t := tileOf m.td
    let rb := max t.rowBytes 1
    let near := Side.store c (t.ebase + k / rb * t.rstride + k % rb)
    let far := s.farSide (qdescOf m.qd) (m.soVal.toNat + k / rb * m.farStride + k % rb)
    if m.op = 0x01 then (far, near) else (near, far)

/-- Length of the piece of a transfer that starts at byte `k`: within a row, a line of each side, and the whole. -/
def DmInstr.piece (s : State) (c : CellId) (m : DmInstr) (k : Nat) : Nat :=
  let sd := m.sides s c k
  let row := if m.op = 0x03 then m.total - k else
    let rb := max (tileOf m.td).rowBytes 1
    rb - k % rb
  min (min (m.total - k) row) (min sd.1.room sd.2.room)

/-- Cut the rest of a transfer into pieces: offset and length. -/
def DmInstr.piecesFrom (s : State) (c : CellId) (m : DmInstr) : Nat → Nat → List (Nat × Nat)
  | 0, _ => []
  | fuel + 1, k =>
    if m.total ≤ k then []
    else
      let n := max (m.piece s c k) 1
      (k, n) :: DmInstr.piecesFrom s c m fuel (k + n)

/-- Every piece of a transfer. -/
def DmInstr.pieces (s : State) (c : CellId) (m : DmInstr) : List (Nat × Nat) := m.piecesFrom s c (m.total + 1) 0

/-- The pieces of bytes [k, k + n) of a transfer, `fuel` at most. -/
def DmInstr.partFrom (s : State) (c : CellId) (m : DmInstr) : Nat → Nat → Nat → List (Nat × Nat)
  | 0, _, _ => []
  | fuel + 1, k, n =>
    if n = 0 then []
    else
      let l := min (max (m.piece s c k) 1) n
      (k, l) :: DmInstr.partFrom s c m fuel (k + l) (n - l)

/-- The pieces of `n` bytes of a transfer from byte k. -/
def DmInstr.part (s : State) (c : CellId) (m : DmInstr) (k n : Nat) : List (Nat × Nat) := m.partFrom s c n k n

/-! ### Issue checks (Table 7-9) -/

/-- Opcode-level reserved fields (R179, R234). LATCH is not checked where LEN is 0 (log entry 62). -/
def DmInstr.fieldsOk (m : DmInstr) : Bool :=
  let f := m.f
  if m.op = 0x03 then f.t == 0 && f.so == 0 && f.sov == 0 && fld f.fn 0 24 == 0 && fld f.fn 27 1 == 0
  else fld f.fn 24 4 == 0 && (f.sov == 1 || f.so == 0)

/-- Whether `n` bytes of a local address lie wholly in the cell-store offsets of one window (R235). -/
def inWindow (a n : Nat) : Bool :=
  decide (windowBase ≤ a) && decide (a < windowBase + 64 * 0x800000) && decide ((a - windowBase) % 0x800000 + n ≤ 0x600000)

/-- The fault of one descriptor's range (R234, R235): its kind, then the bounds of a local cell store. -/
def State.rangeFault (s : State) (c : CellId) (slot : SlotId) (q : QDesc) : Option Byte :=
  if q.kind ≠ 1 ∧ q.kind ≠ 2 ∧ q.kind ≠ 3 then some 0x06
  else if q.kind = 2 ∧ inWindow (localOf q.addr) q.length = false then some 0x06
  else
    match s.farSide q 0 with
    | .store t o =>
      if s.partOf t = s.partOf c ∧ (s.cell t).inPart slot o q.length then none else some 0x03
    | _ => none

/-- The issue fault of a dm instruction, if any: phase, reserved fields, shape, range, then kind and bounds. -/
def DmInstr.fault (m : DmInstr) (s : State) (c : CellId) : Option Byte :=
  let q := qdescOf m.qd
  let slot := m.tag.slot
  if m.tag.phaseBad then some 0x05
  else if !m.fieldsOk then some 0x04
  else if m.op = 0x03 then
    let q2 := qdescOf m.qd2
    if q.length ≠ q2.length then some 0x02
    else
      match s.rangeFault c slot q with
      | some e => some e
      | none => s.rangeFault c slot q2
  else
    let t := tileOf m.td
    let st := m.farStride
    let span := (t.planeRows - 1) * st + t.rowBytes
    let off := m.soVal.toNat
    if t.trans ∨ st < t.rowBytes ∨ (m.op = 0x01 ∧ t.destOk = false) then some 0x01
    else if q.length < off + span then some 0x02
    else if !((s.cell c).inPart slot t.elemRange.1 t.elemRange.2) then some 0x03
    else s.rangeFault c slot q

/-! ### Grants and frames -/

/-- The endpoint of a compute die (Table 11-2). -/
def cellEndpoint (c : CellId) : BitVec 3 := BitVec.ofNat 3 (c.val / 16)

/-- The fabric die that serves an endpoint (R357). -/
def fabOf (ep : BitVec 3) : FabId := if ep = 0 ∨ ep = 2 ∨ ep = 4 then 0 else 1

/-- Fabric die f. -/
def State.fab (s : State) (f : FabId) : Fab := vget s.fabs f
/-- Change fabric die f. -/
def State.modFab (s : State) (f : FabId) (g : Fab → Fab) : State := { s with fabs := vmod s.fabs f g }

/-- The endpoint at a node that holds a local address: the compute die of the cell window or of the stack. -/
def homeEndpoint (a : Nat) : BitVec 3 :=
  if windowBase ≤ a then BitVec.ofNat 3 ((a - windowBase) / 0x800000 / 16 % 4)
  else if stripedBase ≤ a then BitVec.ofNat 3 ((stackOf (unstripe (a - stripedBase))).val / 4)
  else BitVec.ofNat 3 ((stackOf a).val / 4)

/-- A valid TX grant of a fabric die for a class, local endpoint, peer endpoint and logical node (R349, R363). -/
def Fab.txGrant (x : Fab) (cls : Nat) (lep pep : BitVec 3) (n : BitVec 16) : Option (Fin 4096) :=
  match x.grantTx.find? (fun g =>
    bit g.2 63 && decide (fld g.2 60 3 = cls) && bfld g.2 57 3 == lep && bfld g.2 54 3 == pep &&
    bfld g.2 38 16 == n) with
  | some g => some ⟨g.1 % 4096, by omega⟩
  | none => none

/-- Header fields of a frame (Table 11-2), the link fields and CRC zero until it is sent. -/
def mkHeader (cls kind : Nat) (chan status : BitVec 4) (part : Nat) (dep sep : BitVec 3) (len : Nat)
    (src dst rtag : BitVec 16) (addr : Nat) : BitVec 256 :=
  let w : BitVec 256 := 0
  let w := setFld (setFld (setFld w 0 4 cls) 4 4 chan.toNat) 10 2 part
  let w := setFld (setFld (setFld w 12 4 status.toNat) 16 4 kind) 20 3 dep.toNat
  let w := setFld (setFld (setFld w 23 3 sep.toNat) 26 4 ((len + 15) / 16 - 1)) 32 16 src.toNat
  setFld (setFld (setFld w 48 16 dst.toNat) 128 48 addr) 176 16 rtag.toNat

/-- A payload padded to 256 bytes. -/
def padPayload (bs : List Byte) : List Byte := slice bs 0 256

/-- The OutFrame of one piece of a remote transfer: a REQ READ or a PUT WRITE (R351). Its address is rounded down and
its end up to a multiple of 16; bytes a write does not name are free values. -/
def State.dmFrame (s : State) (c : CellId) (x : Fin 8) (n : BitVec 16) (a k len : Nat) (data : Option (List Byte)) :
    OutFrame :=
  let lo := a / 16 * 16
  let hi := (a + len + 15) / 16 * 16
  let sep := cellEndpoint c
  let dep := homeEndpoint a
  let cls := if data.isSome then 3 else 1
  let part := ((s.partOf c).getD 0).val
  let free := fun (j : Nat) => (bfld (Config.freeWord (s.freeCtr + j)) 0 8 : Byte)
  let body :=
    match data with
    | some bs => (List.range (a - lo)).map free ++ bs ++ (List.range (hi - a - len)).map (fun j => free (16 + j))
    | none => []
  { frame := ⟨mkHeader cls 0 (BitVec.ofNat 4 (c.val % 16)) 0 part dep sep (hi - lo) s.nodeId
      ((s.physical n).getD 0) 0 lo, padPayload body⟩,
    use := .mover c x k len, grant := (s.fab (fabOf sep)).txGrant cls sep dep n, node := some n }

/-- Put frames in the outbox of a die. -/
def State.sendOut (s : State) (f : FabId) (xs : List OutFrame) : State :=
  s.modFab f (fun y => { y with outbox := y.outbox ++ xs })

/-! ### Running transfers -/

/-- Entry i of a cell's mover. -/
def State.xfer (s : State) (c : CellId) (i : Fin 8) : Option DmRun := vget (s.cell c).eng.xfers i

/-- Replace entry i. -/
def State.setXfer (s : State) (c : CellId) (i : Fin 8) (r : Option DmRun) : State :=
  s.modCell c (fun x => x.modEng (fun e => { e with xfers := vset e.xfers i r }))

/-- Change a running transfer. -/
def State.modXfer (s : State) (c : CellId) (i : Fin 8) (f : DmRun → DmRun) : State :=
  match s.xfer c i with
  | none => s
  | some r => s.setXfer c i (some (f r))

/-- Mark a transfer finished once nothing of it is outstanding and it has moved every byte or failed. -/
def DmRun.settle (r : DmRun) : DmRun :=
  if r.outstanding = 0 ∧ (r.status ≠ 0 ∨ r.ins.total ≤ r.moved) then { r with finished := true } else r

/-- Whether a frame use belongs to a transfer. -/
def FrameUse.ofXfer (u : FrameUse) (c : CellId) (i : Fin 8) : Bool :=
  match u with
  | .mover d j _ _ => d == c && j == i
  | _ => false

/-- Frames of a transfer not yet injected. -/
def State.unsent (s : State) (c : CellId) (i : Fin 8) : Nat :=
  (s.fabs.toList.map (fun f => (f.outbox.filter (fun o => o.use.ofXfer c i)).length)).sum

/-- Remove from the queues what a transfer still has waiting there. -/
def State.dropXfer (s : State) (c : CellId) (i : Fin 8) : State :=
  { s with
    fabs := s.fabs.map (fun f => { f with outbox := f.outbox.filter (fun o => !(o.use.ofXfer c i)) }),
    stackSet := s.stackSet.map (fun n => { n with requests := n.requests.filter (fun r => r.own || !(r.cell == c && r.xfer == i)) }),
    hsp := { s.hsp with toHost := s.hsp.toHost.filter (fun h => !(h.cell == c && h.xfer == i)),
                        toPkg := s.hsp.toPkg.filter (fun h => !(h.cell == c && h.xfer == i)) } }

/-- A fault detected while a transfer runs (R238): its first status and address are kept, and nothing more of it is
started. -/
def State.dmFail (s : State) (c : CellId) (i : Fin 8) (code : Byte) (addr : Word64) : State :=
  let n := s.unsent c i
  (s.dropXfer c i).modXfer c i (fun r =>
    let r1 := if r.status = 0 then { r with status := code, addr := addr } else r
    { r1 with outstanding := r1.outstanding - n }.settle)

/-- Bytes of a transfer have reached their destination. -/
def State.dmMoved (s : State) (c : CellId) (i : Fin 8) (n : Nat) : State :=
  s.modXfer c i (fun r => { r with moved := r.moved + n }.settle)

/-- A frame of a transfer is outstanding no more. -/
def State.dmReturned (s : State) (c : CellId) (i : Fin 8) : State :=
  s.modXfer c i (fun r => { r with outstanding := r.outstanding - 1 }.settle)

/-- The partition charged for a cell's transfers. -/
def State.partD (s : State) (c : CellId) : PartId := (s.partOf c).getD 0

/-- Whether a DRAM range may be reached by a partition: its ranges and the map (R269, R281). -/
def State.reaches (s : State) (p : PartId) (a n : Nat) : Bool := s.inRanges p a n && s.mapped a n

/-- A host region open to a transfer (R531): partition, direction and range. -/
def State.regionOpen (s : State) (p : PartId) (region : Nat) (write : Bool) (bus n : Nat) : Bool :=
  let r := Sparse.get (0, 0) s.host.region region
  let base := fld r.1 12 52 * 4096
  decide (region ≤ 4095) && bit r.2 63 && decide (fld r.2 59 2 = p.val) && bit r.2 (if write then 61 else 62) &&
  decide (base ≤ bus) && decide (bus + n ≤ base + (fld r.2 0 40 + 1) * 4096)

/-- A transfer asks a stack for one burst of it (R236): a read of byte k of its source, or a write of bytes to its
destination. -/
def State.dmAsk (s : State) (c : CellId) (i : Fin 8) (k a n : Nat) (write : Bool) (bs : List Byte) : State :=
  let p := s.partD c
  let err := (Side.dram a).address
  match s.direct a, s.reaches p a n with
  | some d, true =>
    if write && s.writeRefused .other d n then s.dmFail c i 0x08 err
    else s.enqueue ⟨p, false, false, false, false, c, i, write, k, a, d, n, bs⟩
  | _, _ => s.dmFail c i 0x07 err

/-- One piece of a transfer reaches its destination: written to a cell store, on its way to stacked memory, sent on as a
PUT, or written to host memory. A poisoned piece is delivered poisoned and fails the transfer (R238, R299). -/
def State.dmPut (s : State) (c : CellId) (i : Fin 8) (k : Nat) (bs : List Byte) (bad : Bool) : State :=
  match s.xfer c i with
  | none => s
  | some r =>
    let sd := r.ins.sides s c k
    let p := s.partD c
    if r.status ≠ 0 then s
    else if bad then
      let marked := fun (m : ProtMem) (o : Nat) => (m.write o bs).poisonAll ((List.range ((o % 4 + bs.length + 3) / 4)).map (o / 4 + ·))
      (match sd.2 with
      | .store t o => s.modCell t (fun x => { x with store := marked x.store o })
      | _ => s).dmFail c i 0x0A sd.1.address
    else
      match sd.2 with
      | .store t o => (s.modCell t (fun x => { x with store := x.store.write o bs })).dmMoved c i bs.length
      | .dram a => s.dmAsk c i k a bs.length true bs
      | .remote n a =>
        let o := s.dmFrame c i n a k bs.length (some bs)
        if o.grant.isNone then s.dmFail c i 0x09 sd.2.address
        else
          ({ (s.sendOut (fabOf (cellEndpoint c)) [o]) with freeCtr := s.freeCtr + 32 }).modXfer c i
            (fun r => { r with outstanding := r.outstanding + 1 })
      | .host a =>
        if s.regionOpen p (qdescOf (if r.ins.op = 0x03 then r.ins.qd2 else r.ins.qd)).handle true a bs.length then
          ({ s with hsp := { s.hsp with out := s.hsp.out ++ [(BitVec.ofNat 64 a, bs)] } }).dmMoved c i bs.length
        else s.dmFail c i 0x0B sd.2.address

/-- Bytes of a transfer from byte k reach their destination, piece by piece. -/
def State.dmDeliver (s : State) (c : CellId) (i : Fin 8) (k : Nat) (bs : List Byte) (bad : Bool) : State :=
  match s.xfer c i with
  | none => s
  | some r =>
    (r.ins.part s c k bs.length).foldl (fun t p => t.dmPut c i p.1 ((bs.drop (p.1 - k)).take p.2) bad) s

/-- Bytes of a transfer arrive from outside the package: those for host memory wait for their turn there (R427). -/
def State.dmArrive (s : State) (c : CellId) (i : Fin 8) (k : Nat) (bs : List Byte) (bad : Bool) : State :=
  match s.xfer c i with
  | none => s
  | some r =>
    if (r.ins.sides s c k).2.isHost && !bad && r.status == 0 then
      s.modXfer c i (fun r => { r with held := r.held ++ [(k, bs)] })
    else s.dmDeliver c i k bs bad

/-- Bytes [k, k + n) that wait for the host; none where one of them has not arrived. -/
def DmRun.waiting (r : DmRun) (k n : Nat) : Option (List Byte) :=
  (List.range n).mapM (fun j => r.held.findSome? (fun e => if e.1 ≤ k + j then e.2[k + j - e.1]? else none))

/-- Read a piece from a local source: bytes, whether a word is poisoned, and the state after its errors are accounted
for; none where the address is outside the ranges or the map. -/
def State.dmRead (s : State) (c : CellId) (slot : SlotId) (x : Side) (n : Nat) : Option (List Byte × Bool × State) :=
  match x with
  | .store t o =>
    let m := (s.cell t).store
    some (m.read o n, m.anyPoison o n, s)
  | .dram a =>
    if s.reaches (s.partD c) a n then
      let b := s.dramBytes a n
      some (b.1, !b.2.isEmpty, s.sees (s.partD c) false (some ⟨c, slot⟩) a n)
    else none
  | _ => none

/-- Read `n` bytes of a local source from byte k of a transfer. -/
def State.dmReadPart (s : State) (c : CellId) (m : DmInstr) (k n : Nat) : Option (List Byte × Bool × State) :=
  (m.part s c k n).foldl (fun o p =>
    o.bind (fun b => (b.2.2.dmRead c m.tag.slot (m.sides b.2.2 c p.1).1 p.2).map (fun d =>
      (b.1 ++ d.1, b.2.1 || d.2.1, d.2.2)))) (some ([], false, s))

/-- Ask for the next burst of a transfer whose source is local (R236): a read of a DRAM source, or the write of a
cell-store source into DRAM. Between cell stores the bytes move as the transfer completes. -/
def State.dmNext (s : State) (c : CellId) (i : Fin 8) : State :=
  match s.xfer c i with
  | none => s
  | some r =>
    let k := r.next
    if r.status ≠ 0 ∨ r.ins.total ≤ k then s.modXfer c i DmRun.settle
    else
      let sd := r.ins.sides s c k
      let n := max (r.ins.piece s c k) 1
      let s1 := s.modXfer c i (fun r => { r with next := k + n })
      match sd.1, sd.2 with
      | .dram a, _ => s1.dmAsk c i k a n false []
      | .store t o, .dram a =>
        let m := (s.cell t).store
        if m.anyPoison o n then s.dmFail c i 0x0A sd.1.address else s1.dmAsk c i k a n true (m.read o n)
      | _, _ => s

/-- Every piece of a transfer from a cell store to a remote node, read as it starts. -/
def State.dmPushAll (s : State) (c : CellId) (i : Fin 8) (m : DmInstr) : State :=
  (m.pieces s c).foldl (fun t kn =>
    match t.dmRead c m.tag.slot (m.sides t c kn.1).1 kn.2 with
    | none => t.dmFail c i 0x07 (m.sides t c kn.1).1.address
    | some b => b.2.2.dmPut c i kn.1 b.1 b.2.1) s

/-- The REQ frames of a transfer from a remote node; DEAD_END where a piece has no grant or its node no entry
(R349). -/
def State.dmPullAll (s : State) (c : CellId) (i : Fin 8) (m : DmInstr) : State :=
  let fs := (m.pieces s c).filterMap (fun kn =>
    match (m.sides s c kn.1).1 with
    | .remote n a => some (s.dmFrame c i n a kn.1 kn.2 none)
    | _ => none)
  if fs.any (fun o => o.grant.isNone) then s.dmFail c i 0x09 (m.sides s c 0).1.address
  else (s.sendOut (fabOf (cellEndpoint c)) fs).modXfer c i (fun r => { r with outstanding := r.outstanding + fs.length })

/-- A host transfer joins the queue of a direction (R427). -/
def State.dmHost (s : State) (c : CellId) (i : Fin 8) (m : DmInstr) (toHost : Bool) : State :=
  let sd := m.sides s c 0
  let q := if toHost && m.op == 0x03 then qdescOf m.qd2 else qdescOf m.qd
  let bus := match (if toHost then sd.2 else sd.1) with | .host a => a | _ => 0
  let h : HspXfer := ⟨c, i, s.partD c, q.handle, BitVec.ofNat 64 bus, m.total, 0, (qdescOf m.qd).deadline, false, s.hsp.next⟩
  { s with hsp :=
      if toHost then { s.hsp with toHost := s.hsp.toHost ++ [h], next := s.hsp.next + 1 }
      else { s.hsp with toPkg := s.hsp.toPkg ++ [h], next := s.hsp.next + 1 } }

/-- Whether a transfer to remote nodes holds the TX grants of all its pieces. -/
def State.dmGranted (s : State) (c : CellId) (m : DmInstr) : Bool :=
  (m.pieces s c).all (fun kn =>
    match (m.sides s c kn.1).2 with
    | .remote n a => ((s.fab (fabOf (cellEndpoint c))).txGrant 3 (cellEndpoint c) (homeEndpoint a) n).isSome
    | _ => true)

/-- Start a transfer. A node without a NODE_MAP entry, or a piece of its writes without a TX grant, is absent, found before
any frame leaves (R349). -/
def State.dmStart (s : State) (c : CellId) (i : Fin 8) (m : DmInstr) : State :=
  let sd := m.sides s c 0
  let absent := fun (x : Side) =>
    match x with
    | .remote n _ => (s.physical n).isNone || s.route.active.isNone
    | _ => false
  let out := fun (t : State) => if sd.2.isHost then t.dmHost c i m true else t
  if absent sd.1 then s.dmFail c i 0x09 sd.1.address
  else if absent sd.2 || (sd.2.isRemote && !(s.dmGranted c m)) then s.dmFail c i 0x09 sd.2.address
  else if sd.1.isRemote then (out s).dmPullAll c i m
  else if sd.1.isHost then out (s.dmHost c i m false)
  else if sd.2.isHost then out s
  else
    match sd.1, sd.2 with
    | .store _ _, .remote _ _ => s.dmPushAll c i m
    | _, _ => s.dmNext c i

/-! ### The mover queue -/

/-- Bytes of stack n below an offset of a view (R282, R283): stack n's bytes lie in a view in ascending stack offset, so a
range of the view covers one interval of each stack. -/
def stackFill (striped : Bool) (n : StackId) (y : Nat) : Nat :=
  if striped then y / 2 ^ 16 * 2 ^ 12 + min (2 ^ 12) (y % 2 ^ 16 - n.val * 2 ^ 12) else min (2 ^ 37) (y - n.val * 2 ^ 37)

/-- A range of local addresses of one node, by places whose keys start at `key`: DRAM by the intervals of its stacks,
so that the two views of a byte are one place, all else as it stands. -/
def localSpans (key a len : Nat) (w : Bool) : List (Nat × Rng) :=
  let dram := fun (striped : Bool) (y : Nat) =>
    (allFin 16).filterMap (fun n =>
      let lo := stackFill striped n y
      let hi := stackFill striped n (y + len)
      if lo < hi then some (key + 1 + n.val, (lo, hi - lo, w)) else none)
  if a < 2 ^ 41 then dram false a
  else if stripedBase ≤ a ∧ a < stripedBase + 2 ^ 41 then dram true (a - stripedBase)
  else [(key, (a, len, w))]

/-- The places `len` bytes from a side touch: the package itself, host memory, and each remote node have their own
keys. -/
def Side.spans (x : Side) (len : Nat) (w : Bool) : List (Nat × Rng) :=
  match x with
  | .store t o => localSpans 0 (windowBase + t.val * 0x800000 + o) len w
  | .dram a => localSpans 0 a len w
  | .host a => [(32, (a, len, w))]
  | .remote n a => localSpans (32 * (n.toNat + 2)) a len w

/-- The places a transfer touches, to keep overlapping transfers in order (R237, R427). -/
def DmInstr.spans (s : State) (c : CellId) (m : DmInstr) : List (Nat × Rng) :=
  let sd := m.sides s c 0
  if m.op = 0x03 then sd.1.spans m.total false ++ sd.2.spans m.total true
  else
    let t := tileOf m.td
    let far := (t.planeRows - 1) * m.farStride + t.rowBytes
    let near := (t.planeRows - 1) * t.rstride + t.rowBytes
    if m.op = 0x01 then sd.1.spans far false ++ sd.2.spans near true else sd.1.spans near false ++ sd.2.spans far true

/-- Whether ranges of two transfers overlap. -/
def spansOverlap (a b : List (Nat × Rng)) : Bool :=
  a.any (fun x => b.any (fun y => x.1 == y.1 && overlaps x.2.1 x.2.2.1 y.2.1 y.2.2.1))

/-- Start order of R237: earliest DEADLINE first, DEADLINE 0 last. A KIND HOST transfer has its order from R427. -/
def DmInstr.rank (m : DmInstr) : Nat :=
  let q := qdescOf m.qd
  if q.kind = 3 ∨ q.deadline = 0 then 2 ^ 64 else q.deadline.toNat

/-- The queue entries that may start: no earlier queue entry of their slot overlaps (R205, R237), and no earlier
instruction of the context holds a range of the cell store (R198); none of the bubble slot in restore mode (R144). -/
def Cell.dmReady (x : Cell) (s : State) (c : CellId) : List (Nat × DmInstr) :=
  (x.eng.moverQ.zipIdx.filter (fun p => !(x.bubbleHeld p.1.tag.slot) &&
    !((x.eng.moverQ.take p.2).any (fun e => e.tag.slot == p.1.tag.slot && spansOverlap (e.spans s c) (p.1.spans s c))) &&
    !(x.rangesHeld c s.isLocal p.1.tag.slot p.1.tag.seq (p.1.rngs c s.isLocal)))).map (fun p => (p.2, p.1))

/-- The best entry by rank, ties to the earlier. -/
def bestRank : List (Nat × DmInstr) → Option (Nat × DmInstr)
  | [] => none
  | p :: rest =>
    match bestRank rest with
    | none => some p
    | some q => if q.2.rank < p.2.rank then some q else some p

/-- The mover starts a queued transfer into a free entry of its eight (R236, R237), checking issue faults. -/
def execMoverIssue (c : CellId) (s : State) : Res :=
  let x := s.cell c
  match (allFin 8).find? (fun i => (vget x.eng.xfers i).isNone), bestRank (x.dmReady s c) with
  | some i, some (j, m) =>
    let s1 := s.modCell c (fun y => y.modEng (fun e => { e with moverQ := e.moverQ.eraseIdx j }))
    match m.fault s c with
    | some code => .next (s1.instrFault c m.tag .mover code 0)
    | none => .next ((s1.setXfer c i (some ⟨m, 0, 0, [], 0, 0, 0, false, false⟩)).dmStart c i m)
  | _, _ => .next s

/-- Fill the destination of a faulted transfer with bytes the specification leaves open (R238); a write that is refused
or outside the map stays suppressed. -/
def State.dmUndefine (s : State) (c : CellId) (m : DmInstr) : State :=
  (m.pieces s c).foldl (fun t kn =>
    match (m.sides t c kn.1).2 with
    | .store d o => t.freeStore d o kn.2
    | .dram a =>
      if t.reaches (t.partD c) a kn.2 then
        { (t.dramWrite .other a (t.freeBytes kn.2)) with freeCtr := t.freeCtr + kn.2 }
      else t
    | _ => t) s

/-- Whether every 4 KiB of a transfer between cell stores passes over its path between their dies now (R19, R328, R334). -/
def State.storesOpen (s : State) (c : CellId) (m : DmInstr) : Bool :=
  match m.sides s c 0 with
  | (.store a _, .store b _) => (List.range ((m.total + 4095) / 4096)).all (fun k => s.pathOpen (dieOf a) (dieOf b) k)
  | _ => true

/-- Move the bytes of a transfer between cell stores. A piece whose beats a crossing found uncorrectable arrives poisoned
(R326). -/
def State.dmStores (s : State) (c : CellId) (i : Fin 8) (m : DmInstr) : State :=
  (m.pieces s c).foldl (fun t kn =>
    match m.sides t c kn.1 with
    | (.store d o, .store e _) =>
      let w := (t.cell d).store
      let r := t.carryTo 0 (dieOf d) (dieOf e) (kn.1 / 4096)
      r.2.dmPut c i kn.1 (w.read o kn.2) (w.anyPoison o kn.2 || !r.1.isEmpty)
    | _ => t) s

/-- The completion signal of a dm or cl instruction (R199). It is neither a step instruction's nor the verdict's, so one
that names a step latch leaves that latch as it is (R38, Table 8-1). It carries the slot whose instruction it completes, for
a reset of its context discards it (R479). -/
def State.completion (s : State) (c : CellId) (i : SlotId) (f : FmtQ) : State :=
  if f.len = 1 then s.modCell c (fun x => { x with signals := x.signals ++ [⟨f.latch, 1, false, some i⟩] }) else s

/-- A transfer ends: late transfers are counted (R237, R428; one that ends with a fault too, log entry 62), a fault is
taken, or the completion latch is signalled. -/
def State.dmEnd (s : State) (c : CellId) (i : Fin 8) (r : DmRun) : State :=
  let s1 := s.setXfer c i none
  if r.discarded then s1
  else
    let q := qdescOf r.ins.qd
    let late := q.deadline != 0 && decide (q.deadline.toNat < s.time.toNat)
    let sd := r.ins.sides s c 0
    let s2 := if late then
        let t := s1.modCell c (fun x => x.modRegs (fun g => { g with dmLate := g.dmLate + 1 }))
        if sd.1.isHost || sd.2.isHost then { t with hsp := { t.hsp with late := t.hsp.late + 1 } } else t
      else s1
    if r.status = 0 then s2.completion c r.ins.tag.slot r.ins.f
    else (s2.dmUndefine c r.ins).instrFault c r.ins.tag .mover r.status r.addr

/-- A transfer completes (R199, R236, R238). -/
def execDmTransferComplete (c : CellId) (i : Fin 8) (s : State) : Res :=
  match s.xfer c i with
  | none => .next s
  | some r =>
    let s1 :=
      match r.ins.sides s c 0 with
      | (.store _ _, .store _ _) => if r.finished || !(s.storesOpen c r.ins) then s else s.dmStores c i r.ins
      | _ => s
    match s1.xfer c i with
    | none => .next s1
    | some r1 => if r1.finished then .next (s1.dmEnd c i r1) else .next s

end Sys2Proof.Machine
end

