-- ==== Sys2Proof/Machine/StepOps.lean ====
section
/-!
DEFINITION. What the step logic does for a partition: page lists, contact sheets as far as a verdict and a boundary
touch them, the arrival of the verdict (R45, R431, R450, R486), apply points (R31, R52, R95 to R97, R297, R369, R502,
R535) and the step boundary (R48, R49, R53, R90, R93).
-/
namespace Sys2Proof.Machine

/-! ### Pages and page lists -/

/-- Twin engine p. -/
def State.twin (s : State) (p : PartId) : Twin := vget s.twins p
/-- Change twin engine p. -/
def State.modTwin (s : State) (p : PartId) (f : Twin → Twin) : State := { s with twins := vmod s.twins p f }
/-- Sheet p. -/
def State.sheet (s : State) (p : PartId) : Sheet := vget s.sheets p
/-- Change sheet p. -/
def State.modSheet (s : State) (p : PartId) (f : Sheet → Sheet) : State := { s with sheets := vmod s.sheets p f }

/-- The 16 granules of a persistent page, by its address in either view (R289). -/
def pageGranules (page : Nat) : List (StackId × Nat) :=
  if stripedBase ≤ page then (allFin 16).map (fun n => (n, (page - stripedBase) / 2 ^ 21))
  else (List.range 16).map (fun i => (stackOf page, page % 2 ^ 37 / 2 ^ 17 + i))

/-- Attribute of a granule (Table 9-4). -/
def State.attrOf (s : State) (g : StackId × Nat) : BitVec 4 := Sparse.get 0 (s.stack g.1).pages g.2

/-- Change the attribute of a granule. -/
def State.setAttr (s : State) (g : StackId × Nat) (v : BitVec 4) : State :=
  s.modStack g.1 (fun x => { x with pages := Sparse.set 0 x.pages g.2 v })

/-- Set or clear STREAMED in every granule of a page (R445). -/
def State.setStreamed (s : State) (page : Nat) (b : Bool) : State :=
  (pageGranules page).foldl (fun t g => t.setAttr g (setBit (t.attrOf g) 3 b)) s

/-- Whether a page is marked PERSIST with OWNER p. -/
def State.pageMarked (s : State) (p : PartId) (page : Nat) : Bool :=
  (pageGranules page).all (fun g => bit (s.attrOf g) 0 && decide (fld (s.attrOf g) 1 2 = p.val))

/-- Whether a page is 2 MiB aligned and lies within LENGTH or MEM_STRIPE.LEN (R287, R429). -/
def State.pageInside (s : State) (page : Nat) : Bool :=
  decide (page % 2 ^ 21 = 0) &&
  (if stripedBase ≤ page then decide (page - stripedBase + 2 ^ 21 ≤ s.stripeLen)
   else decide (page < 2 ^ 41) && decide (page % 2 ^ 37 + 2 ^ 21 ≤ (s.stack (stackOf page)).length))

/-- The pages of a list in DRAM (Table 13-3); none where ENTRIES is out of range, the list cannot be read, or an entry
has no page. -/
def State.listPages (s : State) (list : Word64) (listN : Word32) : Option (List Nat) :=
  let n := fld listN 0 13
  let a := fld list 4 44 * 16
  if n = 0 ∨ 4096 < n ∨ s.mapped a (16 * n) = false then none
  else
    let b := s.readNow a (16 * n)
    let entries := (List.range n).map (fun i => (field b.1 (16 * i) 8, field b.1 (16 * i + 8) 4))
    if !b.2.isEmpty || entries.any (fun e => e.2 == 0) then none
    else some ((entries.map (fun e => (List.range e.2).map (fun i => e.1 + i * 2 ^ 21))).flatten)

/-- The step logic, or the twin or sheet engine, reads a list on behalf of a partition (R295, R299). -/
def State.listLooks (s : State) (p : PartId) (list : Word64) (listN : Word32) : State :=
  let n := fld listN 0 13
  let a := fld list 4 44 * 16
  if n = 0 ∨ 4096 < n ∨ s.mapped a (16 * n) = false then s else s.looks p a (16 * n)

/-- The check of R429. -/
def State.sheetPages (s : State) (p : PartId) : Option (List Nat) :=
  match s.listPages (s.sheet p).list (s.sheet p).listN with
  | none => none
  | some l => if l.all (fun a => s.pageInside a && s.pageMarked p a) then some l else none

/-! ### Sheets met by a verdict or a boundary -/

/-- State codes of SHEET[p].STATUS (Table 13-8). -/
def Sheet.stateCode (x : Sheet) : Nat := fld x.status 29 3

/-- Bus address of a byte of a sheet's host region. -/
def State.sheetBus (s : State) (x : Sheet) (off : Nat) : Nat :=
  fld (Sparse.get (0, 0) s.host.region (fld x.host 40 24)).1 12 52 * 4096 + fld x.host 0 40 + off

/-- Pages wholly shipped: 512 pieces of 4 KiB each. -/
def Sheet.shippedPages (x : Sheet) : Nat := x.piece / 512

/-- The trailer of a sheet (Table 13-4). -/
def State.sheetTrailer (s : State) (p : PartId) (result : Nat) : List Byte :=
  let x := s.sheet p
  let ds := (x.digests.map (fun d => leBytes 8 d.toNat)).flatten
  leBytes 2 1 ++ leBytes 2 s.nodeId.toNat ++ leBytes 1 p.val ++ leBytes 1 result ++ leBytes 2 0 ++
  leBytes 8 x.count.toNat ++ leBytes 8 x.taken.toNat ++ leBytes 4 x.shippedPages ++ leBytes 4 x.poisoned.length ++
  leBytes 8 x.takeTime.toNat ++ leBytes 8 x.writeTime.toNat ++ sha256 ds ++ List.replicate 48 0 ++ ds

/-- Write the trailer to host memory, where its region is open (R433). -/
def State.sheetWriteTrailer (s : State) (p : PartId) (result : Nat) : State :=
  let x := s.sheet p
  let t := s.sheetTrailer p result
  let bus := s.sheetBus x (x.pages.length * 2 ^ 21)
  if s.regionOpen p (fld x.host 40 24) true bus t.length then
    { s with hsp := { s.hsp with out := s.hsp.out ++ [(BitVec.ofNat 64 bus, t)] } }
  else s

/-- End a sheet in a state with a result. -/
def State.sheetEnd (s : State) (p : PartId) (code result : Nat) : State :=
  let s1 := if result = 6 then s else s.sheetWriteTrailer p result
  s1.modSheet p (fun x => { x with status := setFld (setFld x.status 29 3 code) 24 4 result })

/-- A sheet becomes FAILED (Table 13-5). -/
def State.sheetFail (s : State) (p : PartId) (result : Nat) : State := s.sheetEnd p 4 result

/-- A commit verdict meets a sheet on its own pages (R431, Table 13-5). -/
def State.sheetSwitch (s : State) (p : PartId) : State :=
  let x := s.sheet p
  if x.stateCode = 2 ∧ bit x.status 28 = false then
    if bit (s.stepOf p).ctl 1 then s.modSheet p (fun y => { y with status := setBit y.status 28 true })
    else s.sheetFail p 4
  else s

/-- Whether a sheet's host region holds the pages and the trailer (R433). -/
def State.sheetFits (s : State) (p : PartId) (pages : Nat) : Bool :=
  let x := s.sheet p
  s.regionOpen p (fld x.host 40 24) true (s.sheetBus x 0) (pages * 2 ^ 21 + 0x80 + 8 * pages)

/-- The depth of a sheet's token bucket, 4 MiB in tenths of a byte (R434). -/
def sheetBucket : Nat := 10 * 2 ^ 22

/-- A write of the management path to a page not yet read, or an unmark of a listed page, ends a sheet (Table 13-5). -/
def State.sheetsTouched (s : State) (unmark : Bool) (a n : Nat) : State :=
  (allFin 4).foldl (fun t p =>
    let x := t.sheet p
    let live := x.stateCode = 2 ∨ x.stateCode = 1
    let pages := if unmark || x.stateCode == 1 then x.pages else x.pages.drop (x.piece / 512)
    let gs := (pages.map pageGranules).flatten
    let hit := (pieces a n).any (fun q =>
      match t.direct q.1 with
      | some d => gs.contains (stackOf d, d % 2 ^ 37 / 2 ^ 17)
      | none => false)
    if live ∧ hit = true then t.sheetFail p 5 else t) s

/-- A commit boundary takes an ARMED sheet (R430). -/
def State.sheetTake (s : State) (p : PartId) : State :=
  let x := s.sheet p
  if x.stateCode = 1 ∧ (x.atCount = 0 ∨ x.atCount = (s.stepOf p).updateCount) then
    let s1 := (s.listLooks p x.list x.listN).modSheet p (fun y => { y with
      taken := (s.stepOf p).index, count := (s.stepOf p).updateCount, takeTime := s.time, shipped := 0, piece := 0
      poisoned := [], kept := [], digests := [], crc := 0, writeTime := 0, bucket := sheetBucket, filled := s.time, asked := false
      buffer := [] })
    match s.sheetPages p with
    | none => s1.sheetFail p 2
    | some l =>
      if s.sheetFits p l.length then
        s1.modSheet p (fun y => { y with pages := l, status := setBit (setFld y.status 29 3 2) 28 false })
      else s1.sheetFail p 6
  else s

/-! ### The verdict (R45, R450) -/

/-- Whether the partition's twin engine protects it: TWIN_EN and ARMED (R438, R456). -/
def State.twinOn (s : State) (p : PartId) : Bool := bit (s.stepOf p).ctl 1 && decide (fld (s.twin p).status 29 3 = 1)

/-- A record that names a partition, of an engine on FD0. -/
def State.partEvent (s : State) (p : PartId) (code : Byte) (sev : Sev) (eng : Byte) (detail : Nat) : State :=
  s.report { (s.errRec 4 (sysStatus code) sev).withPart s p with engine := eng, detail := BitVec.ofNat 32 detail }

/-- VERDICT_MISMATCH (R45, R409). -/
def State.verdictMismatch (s : State) (p : PartId) : State := s.partEvent p 0x02 .event 0x09 0

/-- The verdict arrives: STEP[p].VERDICT, STATUS, the phase and latch 62 (R38, R48); with poisoned persistent state a
partition reset starts instead (R486). -/
def State.verdictWrite (s : State) (p : PartId) (tag : Word32) (red : BitVec 16) : State :=
  if (s.stepOf p).poisonFound then
    (s.modStep p (fun t => { t with delivered := none })).startReset .partition 0 0 0 p 0x7
  else
    let s1 := s.modStep p (fun t =>
      { t.setPhase .fix with
        verdict := setFld (setFld t.verdict 32 32 tag.toNat) 0 16 red.toNat
        status := setBit (setBit (setFld t.status 0 3 3) 3 true) 4 (!(skips red))
        delivered := none })
    (if skips red then s1 else s1.sheetSwitch p).signalAll p 62

/-- Whether the verdict waits for BODY_ACK (R450). -/
def State.bodyWaits (s : State) (p : PartId) : Bool :=
  s.twinOn p && decide (fld (s.twin p).status 26 2 ≠ 2) && !(s.stepOf p).refix

/-- A delivered verdict reaches a partition (R45, R450). Before the partition's stop bits have entered the reduction
none can arrive (R46). -/
def State.verdictIn (s : State) (p : PartId) (tag : Word32) (red : BitVec 16) : State :=
  let t := s.stepOf p
  if tag ≠ bfld t.index 0 32 ∨ s.phase p = .aborted ∨ t.valid ∨ t.delivered.isSome then s.verdictMismatch p
  else if s.phase p ≠ .stop then s
  else if s.bodyWaits p then s.modStep p (fun t => { t with delivered := some (tag, red) })
  else s.verdictWrite p tag red

/-- A held verdict arrives once nothing holds it. -/
def State.verdictRelease (s : State) (p : PartId) : State :=
  match (s.stepOf p).delivered with
  | none => s
  | some d => if s.bodyWaits p ∨ s.phase p ≠ .stop then s else s.verdictWrite p d.1 d.2

/-! ### Groups (R87, R90, R93, R95, R96) -/

/-- Change group g. -/
def State.modGroup (s : State) (g : Fin 256) (f : GradGroup → GradGroup) : State := { s with groups := vmod s.groups g f }

/-- FADE_THRESHOLD as the register's note bounds it (Table 3-8). -/
def GradGroup.threshold (x : GradGroup) : Nat := min (max (fld x.cfg 16 10) 1) 1000

/-- Blocks of a table whose FADE_COUNT is at or above FADE_THRESHOLD (Table 3-10). -/
def GradGroup.fadedOf (x : GradGroup) (ws : List Word32) : Nat :=
  min 65535 (ws.filter (fun w => decide (x.threshold ≤ fld w 16 16))).length

/-- FADED of the active version (Table 3-10), from what a read of the table arriving now finds. -/
def State.fadedCount (s : State) (x : GradGroup) : Nat :=
  let v := x.version (bit x.status 2)
  let t := s.forwarded v (4 * x.blocks.toNat)
  x.fadedOf ((List.range x.blocks.toNat).map (t.blockWord x (bit x.status 2)))

/-- FADED is recounted from the table, which is read for it (R96, R295, R299). -/
def State.recount (s : State) (g : Fin 256) : State :=
  let x := s.group g
  (s.looks x.part (x.version (bit x.status 2)) (4 * x.blocks.toNat)).modGroup g (fun y => { y with
    status := setFld y.status 16 16 (s.fadedCount x) })

/-- The check of R95. -/
def State.checkGroup (s : State) (g : Fin 256) : State :=
  let x := s.group g
  if bit x.cfg 31 = false ∨ x.blocks = 0 then s
  else
    let base := fld x.base 12 36 * 4096
    let n := 8 * x.blocks.toNat
    if s.inRanges x.part base n && s.mapped base n then
      s.modGroup g (fun y => { y with status := setBit y.status 3 false })
    else
      (s.modGroup g (fun y => { y with status := setBit y.status 3 true })).report
        { (s.errRec 4 (sysStatus 0x12) .event).withPart s x.part with engine := 0x09, addr := BitVec.ofNat 64 g.val }

/-- The pending values of a group become active (R96). -/
def GradGroup.install (x : GradGroup) : GradGroup :=
  let moved := x.base != x.baseShadow || x.blocks != x.blocksSh
  { x with
    cfg := x.cfgShadow, base := x.baseShadow, blocks := x.blocksSh
    status := if moved then setFld x.status 2 1 0 else x.status }

/-- Whether an apply would change a group. -/
def GradGroup.dirty (x : GradGroup) : Bool :=
  x.cfg != x.cfgShadow || x.base != x.baseShadow || x.blocks != x.blocksSh

/-- The groups whose active PARTITION is p. -/
def State.groupsOf (s : State) (p : PartId) : List (Fin 256) :=
  (allFin 256).filter (fun g => decide ((s.group g).part = p))

/-- A commit boundary flips the built groups (R90) and raises what R93 states. -/
def State.flipGroup (s : State) (g : Fin 256) : State :=
  let x := s.group g
  if !x.enabled || !(bit x.status 1) then s
  else
    let s1 := s.modGroup g (fun y => { y with
      status := setFld (setFld (setBit (setBit y.status 1 false) 2 (!(bit y.status 2))) 32 32 y.bleeds) 16 16 y.faded })
    if x.newFades = 0 then s1
    else
      ((s1.modGroup g (fun y => { y with status := setBit y.status 0 true })).report
        { (s1.errRec 4 (sysStatus 0x06) .advisory).withPart s1 x.part with
          engine := 0x09, addr := BitVec.ofNat 64 g.val, detail := BitVec.ofNat 32 x.newFades }).modStep x.part
        (fun t => { t with fade := true })

/-- A skip boundary discards the built versions (R90). -/
def State.unbuildGroup (s : State) (g : Fin 256) : State :=
  s.modGroup g (fun y => { y with status := setBit y.status 1 false })

/-! ### Apply points -/

/-- The apply of partition p's group of Table 17-7 (R297, R535); a bucket whose EN goes from 0 to 1 is filled (R294). -/
def State.applyPart (s : State) (p : PartId) : State :=
  let gs := s.groupsOf p
  let pt := s.part p
  let regDirty := pt.stack != pt.stackShadow
  let dirty := regDirty || (s.stepOf p).ctl != (s.stepOf p).ctlShadow || gs.any (fun g => (s.group g).dirty)
  let s1 := s.modStep p (fun t => { t with ctl := t.ctlShadow })
  let s2 := s1.modPart p (fun x =>
    let e := if dirty then setFld x.cfgApply 32 32 (fld x.cfgApply 32 32 + 1) else x.cfgApply
    { x with
      stack := x.stackShadow
      tokens := Vector.ofFn (fun (i : Fin 16) =>
        let depth := bucketDepth (vget x.stackShadow i)
        if bit (vget x.stackShadow i) 63 && !(bit (vget x.stack i) 63) then depth else min (vget x.tokens i) depth)
      epoch := if regDirty then x.epoch + 1 else x.epoch
      cfgApply := setBit e 1 false })
  gs.foldl (fun t g =>
    let x := s.group g
    let u := (t.modGroup g GradGroup.install).checkGroup g
    if x.dirty && !(bit (u.group g).status 3) then u.recount g else u) s2

/-- ROUTE_REJECTED (R369). -/
def State.routeRejected (s : State) : State := s.sysEvent 5 0x25 .event 0x10

/-- An apply of the routing slots (R369). -/
def State.routeApply (s : State) : State :=
  let v := (allFin 2).filter (fun i => (vget s.route.slots i).state == .valid)
  let pick : Option (Fin 2) :=
    match v with
    | [] => none
    | [i] => some i
    | _ => some (if bit s.route.routeCtl 28 then 1 else 0)
  match pick with
  | none => ({ s with route := { s.route with applyHeld := false } }).routeRejected
  | some i =>
    let old := s.route.slots.map (fun (x : RouteSlot) => if x.state = .active then { x with state := .draining } else x)
    { s with route := { s.route with
        slots := vmod old i (fun x => { x with state := .active })
        epoch := s.route.epoch + 1
        applyHeld := false } }

/-- The apply of the power group (R502). -/
def State.powerApply (s : State) : State :=
  { s with power := { s.power with
      cap := s.power.capShadow
      dies := s.power.dies.map (fun (d : PwrDie) => { d with
        cfg := setFld (setFld d.cfg 8 8 (fld d.cfgShadow 8 8)) 0 4 (fld d.cfgShadow 0 4) })
      applyHeld := false } }

/-- The boundary apply of partition p: its group, and the routing slots and power values it governs (R52, R369). -/
def State.boundaryApply (s : State) (p : PartId) : State :=
  let s1 := s.applyPart p
  let s2 :=
    if decide (fld s1.route.routeCtl 26 2 = p.val) && (s1.route.applyHeld || bit s1.route.routeCtl 25) then
      s1.routeApply
    else s1
  if decide (fld s2.power.ctl 29 2 = p.val) && (s2.power.applyHeld || bit s2.power.ctl 28) then s2.powerApply else s2

/-- Every enabled range check of R95 after an apply of the PART registers (R271). -/
def State.checkGroups (s : State) : State := (allFin 256).foldl (fun t g => t.checkGroup g) s

/-! ### The boundary (R48 steps 7 and 8, R49, R53) -/

/-- The step boundary of partition p. -/
def State.boundary (s : State) (p : PartId) : State :=
  let t := s.stepOf p
  let s1 :=
    if t.refix then s
    else if t.commit then (s.groupsOf p).foldl State.flipGroup s
    else (s.groupsOf p).foldl State.unbuildGroup s
  let s2 := s1.boundaryApply p
  let s3 := if t.commit then s2.sheetTake p else s2
  let s4 := s3.modStep p (fun t => { t.setPhase .closed with
    index := t.index + 1
    inputPos := t.inputPos + 1
    skipCount := if t.commit then t.skipCount else t.skipCount + 1
    stage := .idle
    refix := false
    status := setFld (setFld t.status 0 3 0) 8 7 0 })
  let s5 := s4.modTwin p (fun w => { w with
    ctl := setBit w.ctl 29 false
    status := if (bit (s.stepOf p).ctl 1 && !(s.twinOn p)) || fld w.status 29 3 == 2 then setBit w.status 28 true else w.status })
  (s5.cellsOf p).foldl (fun t c =>
    if ((t.cell c).slot 0).wait = .stFix then
      t.modCell c (fun x => { x.modSlot 0 Slot.retire with regs := { x.regs with stall := 0 } })
    else t) s5

end Sys2Proof.Machine
end

