-- ==== Sys2Proof/Machine/Access.lean ====
section
/-!
DEFINITION. Who may write a register (R585, R587): what happens to a write before the owning chapter's rule acts.
-/
namespace Sys2Proof.Machine

/-- A context's register access that is not open to it takes REG_DENIED (Table 6-12). -/
def State.regDenied (s : State) (a : At) (op : Byte) : State := s.coreFault a 1 op 0x07 0

/-- Whether the core domain's registers can be reached: its dies are powered and not in chip reset (R587). -/
def State.coreUp (s : State) : Bool := s.faults.chipPhase.isNone && s.start.coreOn

/-! ### The register ring (R24, R25, R586) -/

/-- Position of a die on the register ring. -/
def ringPos (d : DieId) : Nat :=
  match d.val with
  | 0 => 1 | 1 => 2 | 2 => 5 | 3 => 4 | 4 => 0 | _ => 3

/-- The die a requester's register traffic enters at. -/
def entryDie (r : Requester) : DieId :=
  match r with
  | .host => 4
  | .mgmt => 5
  | .ctx c _ => dieOf c

/-- The joins from a die to another in ascending ring order: join k lies between positions k and k + 1. -/
def ringHops (a b : DieId) : List (Fin 6) :=
  (List.range ((ringPos b + 6 - ringPos a) % 6)).map (fun k => ⟨(ringPos a + k) % 6, by omega⟩)

/-- The joins an access crosses: the shorter direction whose joins are all enabled, ascending where both are as short;
none where no direction is whole. -/
def Routing.ringWay (r : Routing) (a b : DieId) : Option (List (Fin 6)) :=
  let whole := fun (l : List (Fin 6)) => l.all (fun k => bit r.ringJoins k.val)
  let up := ringHops a b
  let down := ringHops b a
  if whole up && (!(whole down) || decide (up.length ≤ down.length)) then some up
  else if whole down then some down
  else none

/-- Whether a requester's access reaches a die. With no direction whole it does not, which only several failed joins bring
about and the specification does not describe (log entry 59). -/
def State.ringReaches (s : State) (r : Requester) (d : DieId) : Bool := (s.route.ringWay (entryDie r) d).isSome

/-- Whether every die reaches every other: at most one join of the ring is disabled. -/
def State.ringWhole (s : State) : Bool := decide (5 ≤ popCount s.route.ringJoins)

/-- A write of a register in the core domain of a die: `open_` says whether R585 opens it to the requesting context.
Where the core domain cannot be reached it is dropped with REG_WRITE_IGNORED (R587). -/
def State.regWrite (s : State) (by_ : Requester) (die : DieId) (open_ : Bool) (f : State → State) : Res :=
  match by_ with
  | .ctx c i =>
    if open_ = false then .next (s.regDenied ⟨c, i⟩ 0x43)
    else if s.ringReaches by_ die then .next (f s)
    else .next (s.regIgnored die)
  | _ => if s.coreUp && s.ringReaches by_ die then .next (f s) else .next (s.regIgnored die)

/-- A write of a register in the AUX area of FD1, which chip reset does not touch and no context may write (R585,
R589). -/
def State.auxWrite (s : State) (by_ : Requester) (f : State → State) : Res :=
  match by_ with
  | .ctx c i => .next (s.regDenied ⟨c, i⟩ 0x43)
  | _ => if s.ringReaches by_ 5 then .next (f s) else .next (s.regIgnored 5)

/-- Whether a requester is a context. -/
def isCtx (r : Requester) : Bool :=
  match r with
  | .ctx .. => true
  | _ => false

/-- Whether a cell's registers are open to a requester: a context has cells of its own partition (R585). -/
def State.opensCell (s : State) (r : Requester) (c : CellId) : Bool :=
  match r with
  | .ctx d _ => (s.partOf d).isSome && s.partOf d == s.partOf c
  | _ => true

/-- Whether a partition's registers are open to a requester: a context has its own partition's (R585). -/
def State.opensPart (s : State) (r : Requester) (p : PartId) : Bool :=
  match r with
  | .ctx d _ => s.partOf d == some p
  | _ => true

end Sys2Proof.Machine
end

