-- ==== Sys2Proof/Machine/Twin.lean ====
section
/-!
DEFINITION. The twin engines (R437 to R467): frames and messages to the twin, the owner's stream of its negative and
fixing record, the holder's side, first touch, loss, and restore. The layouts that the specification leaves open
(messages, claims, which buffer and record slot a count and step use) are log entry 60.
-/
namespace Sys2Proof.Machine

/-! ### The holding area (Table 14-1) -/

/-- A holding area: base, H and J. -/
structure HoldArea where
  base : Nat
  h    : Nat
  j    : Nat
  deriving DecidableEq, Repr

/-- The area this package holds for its twin. -/
def Twin.own (t : Twin) : HoldArea := ⟨fld t.holdBase 21 27 * 2 ^ 21, fld t.holdCfg 0 16 + 1, fld t.holdCfg 16 16⟩
/-- The area the twin holds for this package, as HELLO gave it. -/
def Twin.peers (t : Twin) : HoldArea := ⟨t.peerBase, t.peerPages, t.peerRecs⟩

/-- Slot i of negative buffer b. -/
def HoldArea.page (x : HoldArea) (b i : Nat) : Nat := x.base + (b * x.h + i) * 2 ^ 21
/-- Record slot r. -/
def HoldArea.record (x : HoldArea) (r : Nat) : Nat := x.base + (2 * x.h + r * x.j) * 2 ^ 21
/-- The index. -/
def HoldArea.index (x : HoldArea) : Nat := x.base + (2 * x.h + 2 * x.j) * 2 ^ 21
/-- Manifest b. -/
def HoldArea.manifest (x : HoldArea) (b : Nat) : Nat := x.index + b * 0x100
/-- The mailbox. -/
def HoldArea.mailbox (x : HoldArea) : Nat := x.index + 0x1000
/-- Claim i. -/
def HoldArea.claim (x : HoldArea) (i : Nat) : Nat := x.index + 0x100000 + 16 * i
/-- Digest i of list b. -/
def HoldArea.digest (x : HoldArea) (b i : Nat) : Nat := x.index + 0x200000 + b * 0x80000 + 8 * i

/-! ### Sending to the twin -/

/-- Marks of twin frames: the slot of a background page, and above them resends, staged pages, and what carries no page: a
message, HELLO, the record body. -/
def markResend (i : Nat) : Nat := 0x20000 + i
/-- A staged page. -/
def markStaged (i : Nat) : Nat := 0x40000 + i
/-- A message. -/
def markMsg : Nat := 0x100000
/-- HELLO. -/
def markHello : Nat := 0x100001
/-- The record body. -/
def markBody : Nat := 0x100002

/-- State code of a twin engine (Table 14-13). -/
def Twin.stateCode (t : Twin) : Nat := fld t.status 29 3

/-- Set the state code. -/
def Twin.setState (t : Twin) (n : Nat) : Twin := { t with status := setFld t.status 29 3 n }

/-- The class of a frame of the twin link (R446), the lower the sooner it is served. -/
def linkClass (mark : Nat) : Nat :=
  if mark = markBody then 2
  else if 0x100000 ≤ mark then 0
  else if 0x40000 ≤ mark then 1
  else if 0x20000 ≤ mark then 3
  else 4

/-- A record of the twin engine. -/
def State.twinEvent (s : State) (p : PartId) (code : Byte) (detail : Nat) : State :=
  s.partEvent p code .event 0x0A detail

/-- Whether a frame use is of partition p's twin engine. -/
def FrameUse.ofTwin (u : FrameUse) (p : PartId) : Bool :=
  match u with
  | .twin q _ => q == p
  | _ => false

/-- The twin becomes LOST (R456): streaming and sealing stop, and a verdict held for BODY_ACK arrives. -/
def State.twinLost (s : State) (p : PartId) : State :=
  if (s.twin p).stateCode ≠ 1 then s
  else
    let s1 := (s.modTwin p (fun t => { t.setState 2 with streaming := none, resendQ := [], held := [] })).twinEvent p 0x35 0
    ({ s1 with fabs := s1.fabs.map (fun (f : Fab) =>
        { f with outbox := f.outbox.filter (fun o => !(o.use.ofTwin p)) }) }).verdictRelease p

/-- Whether a frame use is a read of partition p's restore. -/
def FrameUse.ofRestore (u : FrameUse) (p : PartId) : Bool :=
  match u with
  | .restore q _ => q == p
  | _ => false

/-- End a restore with a result and the pages verified; what it still had to read is not read. -/
def State.restoreEnd (s : State) (p : PartId) (result done : Nat) : State :=
  { s.modTwin p (fun t => { t with
      restore := .none, restoreAsk := false, restoreGot := [], mgmtWaits := []
      restoreStat := setFld (setFld (0 : Word32) 29 2 result) 0 17 done }) with
    fabs := s.fabs.map (fun (f : Fab) => { f with outbox := f.outbox.filter (fun o => !(o.use.ofRestore p)) }) }

/-- An ARM in progress ends in MISPAIRED (R438). -/
def State.mispaired (s : State) (p : PartId) (detail : Nat) : State :=
  (s.modTwin p (fun t => { t.setState 3 with helloWait := false })).twinEvent p 0x30 detail

/-- The twin is absent (R349, R438, R456, R460): an ARM in progress ends in MISPAIRED with DETAIL 1, a restore with RESULT
0b11; an armed engine is LOST. -/
def State.twinAbsent (s : State) (p : PartId) : State :=
  let s1 := if (s.twin p).restore = .none then s else s.restoreEnd p 3 0
  if (s1.twin p).helloWait then s1.mispaired p 1 else s1.twinLost p

/-- A frame to the twin is refused there: an ARM that waits for its HELLO ends in MISPAIRED (R438), a restore that does
ends as one that does not match. -/
def State.twinRefused (s : State) (p : PartId) (mark : Nat) : State :=
  if mark ≠ markHello then s
  else
    let s1 := if (s.twin p).restoreAsk then s.restoreEnd p 2 0 else s
    if (s1.twin p).helloWait then s1.mispaired p 0 else s1

/-- The PUT frames of a range bound for the twin, from fabric die f; a frame with a poisoned word carries POISONED. -/
def State.twinFrames (s : State) (p : PartId) (f : FabId) (a : Nat) (bs : List Byte) (bad : List Nat) (mark : Nat) :
    List OutFrame :=
  let n : BitVec 16 := bfld (s.twin p).peer 0 16
  let ep : BitVec 3 := if f = 0 then 4 else 5
  (pieces a bs.length).map (fun x =>
    let o := x.1 - a
    let st : BitVec 4 := if bad.any (fun b => decide (o ≤ b) && decide (b < o + x.2)) then 5 else 0
    { frame := ⟨mkHeader 3 0 (BitVec.ofNat 4 p.val) st p.val ep ep x.2 s.nodeId ((s.physical n).getD 0) 0 x.1,
        padPayload ((bs.drop o).take x.2)⟩
      use := .twin p mark, grant := (s.fab f).txGrant 3 ep ep n, node := some n })

/-- Frames of the twin link join the outbox ahead of what is served after them (R446). -/
def State.twinOut (s : State) (p : PartId) (f : FabId) (mark : Nat) (fs : List OutFrame) : State :=
  s.modFab f (fun x =>
    let i := x.outbox.findIdx (fun o =>
      match o.use with
      | .twin q m => q == p && decide (linkClass mark < linkClass m)
      | _ => false)
    { x with outbox := x.outbox.take i ++ fs ++ x.outbox.drop i })

/-- Send a range to the twin. -/
def State.twinPut (s : State) (p : PartId) (f : FabId) (a : Nat) (bs : List Byte) (bad : List Nat) (mark : Nat) :
    State :=
  let fs := s.twinFrames p f a bs bad mark
  if (s.physical (bfld (s.twin p).peer 0 16)).isNone || fs.any (fun o => o.grant.isNone) then s.twinAbsent p
  else s.twinOut p f mark fs

/-- Send a message into the twin's mailbox (R452). -/
def State.twinMsg (s : State) (p : PartId) (mark : Nat) (bs : List Byte) : State :=
  s.twinPut p 0 (s.twin p).peers.mailbox bs [] mark

/-- A 16-byte message: type, a 32-bit and a 64-bit value. -/
def msg16 (type : Nat) (v32 : Nat) (v64 : Nat) : List Byte := leBytes 4 type ++ leBytes 4 v32 ++ leBytes 8 v64

/-- The logical node of this package under the ACTIVE slot. -/
def State.ownLogical (s : State) : BitVec 16 :=
  match s.route.active with
  | none => s.nodeId
  | some i =>
    match (vget s.route.slots i).map.find? (fun e => bit e.2 31 && bfld e.2 0 16 == s.nodeId) with
    | some e => BitVec.ofNat 16 (e.1 / 128 * 256 + e.1 % 128)
    | none => s.nodeId

/-- HELLO (Table 14-4): node, partition, list pages, HOLD_BASE, H and J; then whether it is an answer, and which record
slots are in use. -/
def State.helloBytes (s : State) (p : PartId) (answer : Bool) (pages : Nat) : List Byte :=
  let o := (s.twin p).own
  leBytes 1 1 ++ leBytes 1 p.val ++ leBytes 2 s.ownLogical.toNat ++ leBytes 4 pages ++ leBytes 8 o.base ++
  leBytes 4 o.h ++ leBytes 4 o.j ++ leBytes 1 (bnat answer) ++
  leBytes 7 (if answer then bnat (vget (s.twin p).records 0).used + 2 * bnat (vget (s.twin p).records 1).used else 0)

/-- TWIN_BUSY outside CLOSED (R464 and the note above it). -/
def State.twinWrite (s : State) (by_ : Requester) (p : PartId) (f : State → State) : Res :=
  s.regWrite by_ 4 false (fun s => if s.closed p then f s else s.twinEvent p 0x37 0)

/-! ### ARM and pairing (R438, R439) -/

/-- The pages of the protected list, if ARM accepts it: aligned, marked by p, each once, and every persistent page of
p (each page's 16 granules are the p-owned granules). -/
def State.twinList (s : State) (p : PartId) : Option (List Nat) :=
  match s.listPages (s.twin p).list (s.twin p).listN with
  | none => none
  | some l =>
    let owned := (allFin 16).foldl (fun n st => n + ((s.stack st).pages.filter (fun e =>
      bit e.2 0 && decide (fld e.2 1 2 = p.val))).length) 0
    let gs := (l.map pageGranules).flatten
    if l.length ≤ 65536 && l.all (fun a => s.pageInside a && s.pageMarked p a) && decide gs.Nodup &&
        decide (gs.length = owned) then some l else none

/-- TWIN[p].CTL.ARM (R438). -/
def State.twinArmOp (s : State) (p : PartId) : State :=
  let t := s.twin p
  if t.stateCode = 1 ∨ t.stateCode = 2 ∨ t.helloWait then s.regIgnored 4
  else
    let s0 := s.listLooks p t.list t.listN
    match s.twinList p with
    | none => s0.modTwin p (fun t => t.setState 4)
    | some l =>
      let s1 := s0.modTwin p (fun t => { t.setState 0 with slots := l, helloWait := true })
      s1.twinPut p 0 (s1.twin p).own.mailbox (s1.helloBytes p false l.length) [] markHello

/-- TWIN ARM. -/
def execTwinArm (by_ : Requester) (p : PartId) (s : State) : Res := s.twinWrite by_ p (fun s => s.twinArmOp p)

/-- Take the oldest message of a mailbox, where it is of a type (R452: messages are taken in stream order). -/
def State.takeMsg (s : State) (p : PartId) (type : Byte) : Option (TwinMsg × State) :=
  match (s.twin p).inbox with
  | m :: rest => if m.head? = some type then some (m, s.modTwin p (fun t => { t with inbox := rest })) else none
  | [] => none

/-- REQ READ frames of a range of the twin's holding area, from FD0's endpoint. -/
def State.twinReads (s : State) (p : PartId) (a len : Nat) (use : Nat → FrameUse) : List OutFrame :=
  let n : BitVec 16 := bfld (s.twin p).peer 0 16
  (pieces a len).map (fun x =>
    let dep := homeEndpoint x.1
    { frame := ⟨mkHeader 1 0 (BitVec.ofNat 4 p.val) 0 p.val dep 4 x.2 s.nodeId ((s.physical n).getD 0) 0 x.1, padPayload []⟩
      use := use x.1, grant := (s.fab 0).txGrant 1 4 dep n, node := some n })

/-- The ranges of the twin's holding area a restore reads (R460): manifest, digest list and pages of a negative, or a record
slot. -/
def State.restoreRanges (s : State) (p : PartId) : List (Nat × Nat) :=
  let t := s.twin p
  let n := ((s.listPages t.list t.listN).getD []).length
  match t.restore with
  | .pages b => [(t.peers.manifest b.val, 0x100), (t.peers.digest b.val 0, (8 * n + 255) / 256 * 256)] ++
      (List.range n).map (fun i => (t.peers.page b.val i, 2 ^ 21))
  | .record r => [(t.peers.record r.val, t.peerRecs * 2 ^ 21)]
  | _ => []

/-- The restore knows where to read: it sends its reads, where the twin can be reached (R349, R460). A record slot not in
use ends it. -/
def State.restoreReads (s : State) (p : PartId) : State :=
  let s0 := (s.listLooks p (s.twin p).list (s.twin p).listN).modTwin p (fun t => { t with restoreAsk := false })
  match (s.twin p).restore with
  | .record r =>
    if bit (s.twin p).peerUsed r.val then
      let fs := (s.restoreRanges p).flatMap (fun x => s.twinReads p x.1 x.2 (.restore p))
      if fs.any (fun o => o.grant.isNone) then s0.twinAbsent p else s0.sendOut 0 fs
    else s0.restoreEnd p 2 0
  | _ =>
    let fs := (s.restoreRanges p).flatMap (fun x => s.twinReads p x.1 x.2 (.restore p))
    if fs.any (fun o => o.grant.isNone) then s0.twinAbsent p else s0.sendOut 0 fs

/-- A HELLO arrives (R438, R460): one that asks is answered; an answer tells a restore where to read, and decides the ARM
that waits for it. -/
def execHello (p : PartId) (s : State) : Res :=
  match s.takeMsg p 1 with
  | none => .next s
  | some (m, s1) =>
    let t := s1.twin p
    let names := decide (field m 2 2 = fld t.peer 0 16) && decide (field m 1 1 = p.val)
    let learn := fun (t : Twin) => { t with
      peerBase := field m 8 8, peerPages := field m 16 4, peerRecs := field m 20 4, peerUsed := BitVec.ofNat 2 (field m 25 1) }
    let mine := (s1.listPages t.list t.listN).getD []
    if field m 24 1 = 0 then
      .next (((s1.listLooks p t.list t.listN).modTwin p (fun t => if names then learn t else t)).twinPut p 0
        (field m 8 8 + 2 * (field m 16 4 + field m 20 4) * 2 ^ 21 + 0x1000) (s1.helloBytes p true mine.length) [] markMsg)
    else
      let s2 := if t.restoreAsk then
          if names then (s1.modTwin p learn).restoreReads p else s1.restoreEnd p 2 0
        else s1
      if t.helloWait = false then .next s2
      else if names && decide (field m 4 4 = t.slots.length) && decide (t.slots.length ≤ field m 16 4) then
        .next (s2.modTwin p (fun t => { (learn t).setState 1 with
          helloWait := false, lostRecorded := false, negHeld := false, streaming := none, pageState := [], digests := [], resendQ := []
          resent := [], nextSlot := 0, manifestSent := false, sentRecs := Vector.replicate 2 RecSlot.reset
          status := setFld ((learn t).setState 1).status 0 17 0 }))
      else .next (s2.mispaired p 0)

/-- A HELLO of ARM has had no answer (R438). -/
def execHelloTimeout (p : PartId) (s : State) : Res :=
  if (s.twin p).helloWait then .next (s.twinAbsent p) else .next s

/-! ### The owner's stream (R442 to R446) -/

/-- The count whose stream is under way, a pause by a partition reset aside (R442). -/
def State.streamOf (s : State) (p : PartId) : Option Word64 :=
  let t := s.twin p
  if s.twinOn p && !(t.hasNegative (s.stepOf p).updateCount) then t.streaming else none

/-- Whether the partition streams its negative now. -/
def State.streams (s : State) (p : PartId) : Option Word64 :=
  if (s.twin p).paused then none else s.streamOf p

/-- st.open starts the stream of the current count where it is not running (R442). -/
def State.streamOpen (s : State) (p : PartId) : State :=
  let c := (s.stepOf p).updateCount
  let t := s.twin p
  if s.twinOn p && !(t.hasNegative c) && t.streaming != some c then
    s.modTwin p (fun t => { t with
      streaming := some c, streamCount := c, pageState := [], digests := [], resendQ := [], resent := [], nextSlot := 0
      manifestSent := false, paused := false, status := setFld t.status 0 17 0 })
  else s.modTwin p (fun t => { t with paused := false })

/-- State of a slot's page at the owner. -/
def Twin.page (t : Twin) (i : Nat) : PageState := Sparse.get .unsent t.pageState i

/-- Staging slot k. -/
def Twin.staging (t : Twin) (k : Nat) : Nat := fld t.ftBase 21 27 * 2 ^ 21 + k * 2 ^ 21

/-- Claims (R442): digest, slot and count; a count of all ones names the record body in record slot `slot`. -/
def claimBytes (digest : Word64) (slot count : Nat) : List Byte :=
  leBytes 8 digest.toNat ++ leBytes 2 slot ++ leBytes 6 count

/-- The twin engine writes DRAM on behalf of its partition (R442: charged as a dm transfer). -/
def State.twinStore (s : State) (p : PartId) (a : Nat) (bs : List Byte) : State :=
  (s.dramWrite (.twin p) a bs).charge p false a bs.length

/-- Fill the bucket of background pages for the time that has passed: RATE × 100 MB/s is RATE tenths of a byte each
nanosecond, to 4 MiB (R446). -/
def State.twinFill (s : State) (p : PartId) : State :=
  s.modTwin p (fun t => { t with
    bucket := min (10 * 2 ^ 22) (t.bucket + fld t.ctl 0 16 * (s.time.toNat - t.filled.toNat)), filled := s.time })

/-- Whether background pages are not limited: RATE is 0, or a commit verdict has arrived and its boundary not (R446). -/
def State.twinUnlimited (s : State) (p : PartId) : Bool :=
  fld (s.twin p).ctl 0 16 == 0 || (s.phase p == .fix && (s.stepOf p).commit)

/-- A page's worth of the bucket, in tenths of a byte. -/
def pageTokens : Nat := 10 * 2 ^ 21

/-- Send a page and its claim; the page's bytes come from staging where it is STAGED (R448). -/
def State.sendSlot (s : State) (p : PartId) (i : Nat) (count : Word64) (mark : Nat) : State :=
  let t := s.twin p
  let pg := t.slots.getD i 0
  let src := match t.page i with | .staged k => t.staging k | _ => pg
  let b := s.dramBytes src (2 ^ 21)
  let d := crc64 b.1
  let f : FabId := if i % 2 = 0 then 0 else 1
  let s1 := s.sees p false none src (2 ^ 21)
  let s2 := s1.modTwin p (fun t => { t with
    digests := Sparse.set 0 t.digests i d
    held := t.held.filter (· != i)
    pageState := match t.page i with | .unsent => Sparse.set .unsent t.pageState i .inFlight | _ => t.pageState })
  let s3 := s2.twinPut p f (t.peers.page (count.toNat % 2) i) b.1 b.2 mark
  s3.twinPut p f (t.peers.claim i) (claimBytes d i (count.toNat % 2 ^ 48)) [] mark

/-- Whether the outbox still holds frames of partition p's twin with a mark. -/
def State.twinWaiting (s : State) (p : PartId) (mark : Nat → Bool) : Bool :=
  s.fabs.toList.any (fun f => f.outbox.any (fun o =>
    match o.use with
    | .twin q m => q == p && mark m
    | _ => false))

/-- The next background slot that is still UNSENT, as its distance from the next slot. -/
def Twin.background (t : Twin) : Option Nat :=
  (List.range (t.slots.length - t.nextSlot)).find? (fun k => t.page (t.nextSlot + k) == .unsent)

/-- The owner sends its next page by the order of R446, a background page within its rate. -/
def execTwinPageSend (p : PartId) (s : State) : Res := s.gated 4 (fun s =>
  match s.streams p with
  | none => .next s
  | some c =>
    let t := s.twin p
    let isStaged := fun (i : Nat) => match t.page i with | .staged _ => true | _ => false
    let drop := fun (i : Nat) => s.modTwin p (fun t => { t with resendQ := t.resendQ.erase i })
    if s.twinWaiting p (fun m => m == markMsg || m == markHello) then .next s
    else
      match t.resendQ.find? isStaged with
      | some i => .next ((drop i).sendSlot p i c (markStaged i))
      | none =>
        if s.twinWaiting p (· == markBody) then .next s
        else
          match t.resendQ with
          | i :: _ => .next ((drop i).sendSlot p i c (markResend i))
          | [] =>
            match t.background with
            | none => .next s
            | some k =>
              let i := t.nextSlot + k
              let go := fun (u : State) => u.sendSlot p i c i
              if s.twinUnlimited p then .next (go (s.modTwin p (fun t => { t with nextSlot := i + 1 })))
              else
                let f := s.twinFill p
                if pageTokens ≤ (f.twin p).bucket then
                  .next (go (f.modTwin p (fun t => { t with nextSlot := i + 1, bucket := t.bucket - pageTokens })))
                else .next f)

/-- MANIFEST of the stream (R444), sent once every slot is acknowledged: its content takes three PUTs of 32 bytes, each with
the type and its place among them (log entry 60). -/
def State.sendManifest (s : State) (p : PartId) (c : Word64) : State :=
  let t := s.twin p
  let ds := ((List.range t.slots.length).map (fun i => leBytes 8 (Sparse.get 0 t.digests i).toNat)).flatten
  let h := sha256 ds
  let step := if t.madeBy.1 = c then t.madeBy.2 else (s.stepOf p).index - 1
  let part := fun (k : Nat) (bs : List Byte) => leBytes 1 4 ++ leBytes 1 k ++ leBytes 6 0 ++ bs ++ leBytes 8 0
  let s1 := (s.modTwin p (fun t => { t with manifestSent := true })).twinMsg p markMsg
    (leBytes 4 4 ++ leBytes 4 t.slots.length ++ leBytes 8 c.toNat ++ leBytes 8 step.toNat ++ leBytes 8 0)
  (s1.twinMsg p markMsg (part 1 (slice h 0 16))).twinMsg p markMsg (part 2 (slice h 16 16))

/-- PAGE_ACK (R443, R445, R448). -/
def execPageAck (p : PartId) (s : State) : Res :=
  match s.takeMsg p 2 with
  | none => .next s
  | some (m, s1) =>
    match s1.streamOf p with
    | none => .next s1
    | some c =>
      if field m 8 8 ≠ c.toNat then .next s1
      else
        let slots := ((List.range (min (field m 1 1) 6)).map (fun k => field m (16 + 2 * k) 2)).filter (fun i =>
          decide (i < (s1.twin p).slots.length) && (s1.twin p).page i != .acked)
        let s2 := slots.foldl (fun t i => (t.modTwin p (fun w => { w with
          pageState := Sparse.set .unsent w.pageState i .acked
          pagesSent := w.pagesSent + 1
          status := setFld w.status 0 17 (fld w.status 0 17 + 1) })).setStreamed ((t.twin p).slots.getD i 0) true) s1
        let t := s2.twin p
        if t.manifestSent = false ∧ (List.range t.slots.length).all (fun i => t.page i == .acked) = true then
          .next (s2.sendManifest p c)
        else .next s2

/-- RESEND (R443): the page is sent again; after three resends without a match the twin is LOST. A slot of all ones
asks for the whole stream again (R444). -/
def execResend (p : PartId) (s : State) : Res :=
  match s.takeMsg p 3 with
  | none => .next s
  | some (m, s1) =>
    match s1.streamOf p with
    | none => .next s1
    | some c =>
      let i := field m 4 4
      if field m 8 8 ≠ c.toNat then .next s1
      else if i = 0xFFFFFFFF then
        .next (s1.modTwin p (fun t => { t with
          pageState := [], digests := [], resendQ := [], nextSlot := 0, manifestSent := false
          status := setFld t.status 0 17 0 }))
      else if 3 ≤ Sparse.get 0 (s1.twin p).resent i then .next ((s1.twinEvent p 0x31 i).twinLost p)
      else .next (s1.modTwin p (fun t => { t with
        resent := Sparse.set 0 t.resent i (Sparse.get 0 t.resent i + 1), resends := t.resends + 1
        resendQ := if t.resendQ.contains i then t.resendQ else t.resendQ ++ [i] }))

/-- A record slot once the negative of a count is COMPLETE: free where its record made that count (R451). -/
def RecSlot.freedBy (r : RecSlot) (c : Word64) : RecSlot :=
  if r.used && r.sealed_ && r.commit && r.count + 1 == c then RecSlot.reset else r

/-- NEG_DONE (R444): the twin has discarded the negative of the count before, and a sheet that still reads it is lost
(R441, Table 13-5). -/
def execNegDone (p : PartId) (s : State) : Res :=
  match s.takeMsg p 5 with
  | none => .next s
  | some (m, s1) =>
    let c := BitVec.ofNat 64 (field m 8 8)
    let s2 := s1.modTwin p (fun t => { t with
      negDone := c, negHeld := true, streaming := none, sentRecs := t.sentRecs.map (fun (r : RecSlot) => r.freedBy c) })
    let x := s2.sheet p
    .next (if x.stateCode = 2 ∧ bit x.status 28 = true ∧ x.count ≠ c then s2.sheetFail p 4 else s2)

/-- A commit boundary starts a new count (R445). A sheet that reads the negative of the count before keeps which of its
pages are complete there. -/
def State.streamReset (s : State) (p : PartId) : State :=
  let w := s.twin p
  let kept := if w.streamCount = (s.sheet p).count then (List.range w.slots.length).filter (fun i => w.page i == .acked) else []
  let s1 := if (s.sheet p).stateCode = 2 ∧ bit (s.sheet p).status 28 = true then
      s.modSheet p (fun x => { x with kept := x.kept ++ kept })
    else s
  (w.slots.foldl (fun t pg => t.setStreamed pg false) s1).modTwin p (fun t => { t with
    madeBy := ((s.stepOf p).updateCount, (s.stepOf p).index)
    streaming := none, pageState := [], digests := [], resendQ := [], resent := [], nextSlot := 0
    manifestSent := false, held := [], status := setFld t.status 0 17 0 })

/-- A first-touch copy (R448): the page goes into a free staging slot and becomes STAGED. -/
def execFirstTouchCopy (p : PartId) (slot : Nat) (s : State) : Res := s.gated 4 (fun s =>
  let t := s.twin p
  let used := (List.range t.slots.length).filterMap (fun i => match t.page i with | .staged k => some k | _ => none)
  match (List.range 64).find? (fun k => !(used.contains k)) with
  | some k =>
    if t.held.contains slot && (t.page slot == .unsent) && decide (slot < t.slots.length) then
      let pg := t.slots.getD slot 0
      let b := s.dramBytes pg (2 ^ 21)
      let s1 := ((s.sees p false none pg (2 ^ 21)).twinStore p (t.staging k) b.1).dramPoison
        (t.staging k) b.2
      .next ((s1.modTwin p (fun w => { w with
        pageState := Sparse.set .unsent w.pageState slot (.staged k), firstTouch := w.firstTouch + 1
        held := w.held.filter (· != slot), resendQ := w.resendQ ++ [slot] })).setStreamed pg true)
    else .next s
  | none => .next s)

/-! ### The fixing record (R449 to R451) -/

/-- Address and length of the parameters a record holds. -/
def Twin.paramAt (t : Twin) : Nat := fld t.param 12 36 * 4096
def Twin.paramLen (t : Twin) : Nat := fld t.param 48 12 + 1

/-- The body of the fixing record (Table 14-5), without SEALED and VERDICT. -/
def State.recordBytes (s : State) (p : PartId) (blocks : Nat) (grad gmord flags : List Byte) : List Byte :=
  let t := s.twin p
  let st := s.stepOf p
  let plen := t.paramLen
  let params := slice (s.dramBytes t.paramAt plen).1 0 4096
  let body := params ++ grad ++ gmord ++ flags
  leBytes 2 1 ++ leBytes 2 s.ownLogical.toNat ++ leBytes 1 p.val ++ leBytes 1 0 ++ leBytes 2 0 ++
  leBytes 8 st.index.toNat ++ leBytes 8 st.updateCount.toNat ++ leBytes 8 st.jobSeed.toNat ++
  (t.batch.toList.map (fun b => leBytes 8 b.toNat)).flatten ++ leBytes 8 st.inputPos.toNat ++ leBytes 4 blocks ++
  leBytes 4 plen ++ leBytes 8 (crc64 body).toNat ++ List.replicate 4008 0 ++ body

/-- The record slot of the twin for a step's body: the one that holds the step's earlier body, else a free one, by the
step's parity first; none where neither is free (R451). -/
def Twin.recordSlot (t : Twin) (step : Word64) : Option (Fin 2) :=
  let first : Fin 2 := if step.toNat % 2 = 0 then 0 else 1
  let order : List (Fin 2) := [first, 1 - first]
  match order.find? (fun r => (vget t.sentRecs r).used && (vget t.sentRecs r).step == step) with
  | some r => some r
  | none => order.find? (fun r => !(vget t.sentRecs r).used)

/-- The body and its claim leave for the twin (R449); one larger than J pages, or one that finds neither slot free, takes it
to LOST (R451). -/
def State.bodySend (s : State) (p : PartId) (blocks : Nat) (grad gmord flags : List Byte) : State :=
  if s.twinOn p = false then s
  else
    let t := s.twin p
    let st := s.stepOf p
    let bs := s.recordBytes p blocks grad gmord flags
    match t.recordSlot st.index with
    | none => (s.twinEvent p 0x33 0).twinLost p
    | some r =>
      if t.peerRecs * 2 ^ 21 < bs.length then (s.twinEvent p 0x33 0).twinLost p
      else
        let s1 := (s.sees p false none t.paramAt t.paramLen).modTwin p (fun t => { t with
          bodyStep := some st.index, sealAck := false, status := setFld t.status 26 2 1
          sentRecs := vset t.sentRecs r ⟨true, st.index, st.updateCount, false, false⟩ })
        let s2 := s1.twinPut p 0 (t.peers.record r.val) bs [] markBody
        s2.twinPut p 0 (t.peers.claim 0) (claimBytes (BitVec.ofNat 64 (field bs 0x50 8)) r.val (2 ^ 48 - 1)) [] markBody

/-- SEAL of the current step leaves for the twin (R451). -/
def State.sealSend (s : State) (p : PartId) : State :=
  if s.twinOn p then
    (s.modTwin p (fun t => { t with sealAck := false })).twinMsg p markMsg
      (msg16 7 (fld (s.stepOf p).verdict 0 16) (s.stepOf p).index.toNat)
  else s

/-- BODY_ACK (R450). -/
def execBodyAck (p : PartId) (s : State) : Res :=
  match s.takeMsg p 6 with
  | none => .next s
  | some (m, s1) =>
    if field m 8 8 = (s1.stepOf p).index.toNat ∧ (s1.twin p).bodyStep = some (s1.stepOf p).index then
      .next ((s1.modTwin p (fun t => { t with status := setFld t.status 26 2 2 })).verdictRelease p)
    else .next s1

/-- SEAL_ACK (R451): the slot of a record sealed with a skip verdict is free. -/
def execSealAck (p : PartId) (s : State) : Res :=
  match s.takeMsg p 8 with
  | none => .next s
  | some (m, s1) =>
    let step := (s1.stepOf p).index
    let skip := skips (bfld (s1.stepOf p).verdict 0 16)
    if field m 8 8 = step.toNat then
      .next (s1.modTwin p (fun t => { t with
        sealAck := true
        sentRecs := t.sentRecs.map (fun (r : RecSlot) =>
          if r.used && r.step == step then if skip then RecSlot.reset else { r with sealed_ := true, commit := true } else r) }))
    else .next s1

/-! ### The holder -/

/-- Change a negative buffer the package holds, and its state in STATUS and its manifest (R441, Table 14-6). -/
def State.setNegative (s : State) (p : PartId) (b : Fin 2) (x : Negative) (step : Nat) (digest : List Byte) : State :=
  let t := s.twin p
  let m := leBytes 2 1 ++ leBytes 2 (fld t.peer 0 16) ++ leBytes 1 p.val ++ leBytes 1 x.state.toNat ++ leBytes 2 0 ++
    leBytes 8 x.count.toNat ++ leBytes 8 step ++ leBytes 4 x.pages ++ leBytes 4 0 ++ slice digest 0 32 ++
    List.replicate 192 0
  (s.modTwin p (fun t => { t with
    buffers := vset t.buffers b x, status := setFld t.status (22 + 2 * b.val) 2 x.state.toNat })).twinStore p
    (t.own.manifest b.val) m

/-- A buffer without content: the count of what it held last stays (R466). -/
def Negative.emptied (x : Negative) : Negative := { x with state := 0, pages := 0, valid := [] }

/-- Discard a buffer, in its manifest too (R441). -/
def State.discard (s : State) (p : PartId) (b : Fin 2) : State :=
  s.setNegative p b (vget (s.twin p).buffers b).emptied 0 []

/-- Whether the manifest of a buffer reads other than EMPTY (R441). -/
def State.manifestHeld (s : State) (p : PartId) (b : Fin 2) : Bool :=
  let a := (s.twin p).own.manifest b.val + 5
  (s.twin p).holdBase != 0 && s.mapped a 1 && (s.readNow a 1).1 != [0]

/-- TWIN RESTART (R457): a buffer that was not EMPTY becomes so in its manifest too, as does one whose COMPLETE manifest a
chip reset left (R441). -/
def State.twinRestartOp (s : State) (p : PartId) : State :=
  let s1 := (s.twin p).slots.foldl (fun t pg => t.setStreamed pg false) s
  let s2 := (allFin 2).foldl (fun t b =>
    if (vget (t.twin p).buffers b).state ≠ 0 ∨ t.manifestHeld p b = true then t.discard p b else t) s1
  s2.modTwin p (fun t => { t.setState 0 with
    records := Vector.replicate 2 RecSlot.reset, sentRecs := Vector.replicate 2 RecSlot.reset, negHeld := false
    streaming := none, pageState := [], digests := [], resendQ := [], resent := [], nextSlot := 0, manifestSent := false, held := []
    helloWait := false
    status := setFld (setFld (setBit (setFld t.status 29 3 0) 28 false) 22 4 0) 0 17 0 })

/-- TWIN RESTART. -/
def execTwinRestart (by_ : Requester) (p : PartId) (s : State) : Res :=
  s.gated 4 (fun s => s.twinWrite by_ p (fun s => s.twinRestartOp p))

/-- The buffer that holds a count: its parity. -/
def bufOf (c : Nat) : Fin 2 := if c % 2 = 0 then 0 else 1

/-- A claim of the record body (R450, R451): a body that finds its slot held by another step takes the twin to
LOST. -/
def State.bodyClaim (s : State) (p : PartId) (r : Fin 2) (digest : Word64) : State :=
  let t := s.twin p
  let a := t.own.record r.val
  let h := (s.dramBytes a 0x1000).1
  let s := s.sees p false none a 0x1000
  let step := BitVec.ofNat 64 (field h 8 8)
  let slot := vget t.records r
  if slot.used && slot.step != step then (s.twinEvent p 0x33 0).twinLost p
  else
    let n := 0x1000 + 130 * field h 0x48 4
    let b := s.dramBytes (a + 0x1000) n
    let s := s.sees p false none (a + 0x1000) n
    if b.2.isEmpty && crc64 b.1 == digest && decide (field h 0x50 8 = digest.toNat) then
      (s.modTwin p (fun t => { t with
        records := vset t.records r ⟨true, step, BitVec.ofNat 64 (field h 0x10 8), false, false⟩ })).twinMsg p markMsg
        (msg16 6 0 step.toNat)
    else s

/-- A claim arrives (R443): the page's CRC-64 is compared with it. -/
def execTwinClaim (p : PartId) (s : State) : Res := s.gated 4 (fun s =>
  let t := s.twin p
  match t.claims with
  | [] => .next s
  | (i, c, d) :: rest =>
    let s1 := s.modTwin p (fun t => { t with claims := rest })
    if c = 2 ^ 48 - 1 then .next (s1.bodyClaim p (if i = 0 then 0 else 1) d)
    else
      let b := bufOf c
      let x := vget t.buffers b
      let cnt := BitVec.ofNat 64 c
      let s2 := if x.state = 1 ∧ x.count = cnt then s1 else s1.setNegative p b ⟨1, cnt, t.own.h, []⟩ 0 []
      let pg := s2.dramBytes (t.own.page b.val i) (2 ^ 21)
      let s2 := s2.sees p false none (t.own.page b.val i) (2 ^ 21)
      if pg.2.isEmpty && crc64 pg.1 == d then
        let y := vget (s2.twin p).buffers b
        let s3 := (s2.modTwin p (fun t => { t with
          buffers := vset t.buffers b { y with valid := Sparse.set none y.valid i (some d) } })).twinStore p
          (t.own.digest b.val i) (leBytes 8 d.toNat)
        .next (s3.twinMsg p markMsg
          (leBytes 1 2 ++ leBytes 1 1 ++ leBytes 6 0 ++ leBytes 8 c ++ leBytes 2 i ++ leBytes 14 0))
      else .next (s2.twinMsg p markMsg (msg16 3 i c)))

/-- MANIFEST arrives (R444): the negative becomes COMPLETE, the older one is discarded, and the record that made the
count is freed (R441, R451); or the stream restarts. -/
def execManifest (p : PartId) (s : State) : Res := s.gated 4 (fun s =>
  match s.takeMsg p 4 with
  | none => .next s
  | some (m, s1) =>
    let t := s1.twin p
    let c := field m 8 8
    let n := field m 4 4
    let b := bufOf c
    let x := vget t.buffers b
    let cnt := BitVec.ofNat 64 c
    let ds := ((List.range n).map (fun i => Sparse.get none x.valid i))
    let bytes := (ds.map (fun d => leBytes 8 (d.getD 0).toNat)).flatten
    if x.state = 1 ∧ x.count = cnt ∧ ds.all (·.isSome) = true ∧ sha256 bytes = slice m 32 32 then
      let s2 := s1.setNegative p b { x with state := 2, pages := n } (field m 16 8) (slice m 32 32)
      let s3 := s2.discard p (bufOf (c + 1))
      let s4 := s3.modTwin p (fun t => { t with
        records := t.records.map (fun (r : RecSlot) => r.freedBy cnt) })
      .next (s4.twinMsg p markMsg (msg16 5 0 c))
    else
      let s2 := (s1.setNegative p b ⟨1, cnt, t.own.h, []⟩ 0 []).twinEvent p 0x32 0
      .next (s2.twinMsg p markMsg (msg16 3 0xFFFFFFFF c)))

/-- SEAL arrives (R451): VERDICT and SEALED are written into the record's header; a skip frees its slot. -/
def execSeal (p : PartId) (s : State) : Res := s.gated 4 (fun s =>
  match s.takeMsg p 7 with
  | none => .next s
  | some (m, s1) =>
    let step := BitVec.ofNat 64 (field m 8 8)
    let v : BitVec 16 := BitVec.ofNat 16 (field m 4 2)
    match (allFin 2).find? (fun r => (vget (s1.twin p).records r).used && (vget (s1.twin p).records r).step == step) with
    | none => .next s1
    | some r =>
      let s2 := s1.twinStore p ((s1.twin p).own.record r.val + 5) (leBytes 1 1 ++ leBytes 2 v.toNat)
      let s3 := s2.modTwin p (fun t => { t with
        records := vmod t.records r (fun x => if skips v then RecSlot.reset else { x with sealed_ := true, commit := true }) })
      .next (s3.twinMsg p markMsg (msg16 8 0 step.toNat)))

/-- A PROBE arrives (R456): it only shows that the twin answers. -/
def execProbe (p : PartId) (s : State) : Res :=
  match s.takeMsg p 9 with
  | none => .next s
  | some (_, s1) => .next s1

/-- Whether the owner waits on the twin: at R450, or at R48 steps 2 and 6 (R456). -/
def State.waitsOnTwin (s : State) (p : PartId) : Bool :=
  let t := s.stepOf p
  s.twinOn p && !t.refix &&
  (t.delivered.isSome ||
   (t.stage == .waitNegative && !((s.twin p).hasNegative t.updateCount)) ||
   (t.stage == .sealWait && !(s.twin p).sealAck))

/-- The 100 µs timer of a wait on the twin: PROBE is sent (R456). -/
def execProbeTimer (p : PartId) (s : State) : Res :=
  if s.waitsOnTwin p then .next (s.twinMsg p markMsg (msg16 9 0 s.time.toNat)) else .next s

/-! ### Refix and restore (R459 to R465) -/

/-- The address of the record to refix. -/
def Twin.refixAt (t : Twin) : Nat := fld t.refixRec 12 36 * 4096

/-- Whether the record at REFIX_REC names this step, is sealed and verifies (R462). -/
def State.refixGood (s : State) (p : PartId) : Bool :=
  let a := (s.twin p).refixAt
  let h := (s.readNow a 0x1000).1
  let n := 0x1000 + 130 * field h 0x48 4
  s.mapped a (0x1000 + n) && decide (field h 8 8 = (s.stepOf p).index.toNat) &&
  decide (field h 0x10 8 = (s.stepOf p).updateCount.toNat) && decide (field h 5 1 = 1) &&
  (let b := s.readNow (a + 0x1000) n
   b.2.isEmpty && decide ((crc64 b.1).toNat = field h 0x50 8))

/-- What the check of a record reads: its header, and its body where the header is mapped. -/
def State.refixLooks (s : State) (p : PartId) : State :=
  let a := (s.twin p).refixAt
  if s.mapped a 0x1000 = false then s
  else
    let n := 0x1000 + 130 * field (s.readNow a 0x1000).1 0x48 4
    let s1 := s.looks p a 0x1000
    if s.mapped a (0x1000 + n) then s1.looks p (a + 0x1000) n else s1

/-- TWIN CTL.REFIX := 1 (R462): the record's verdict is kept for the step. -/
def State.twinRefixOp (s : State) (p : PartId) : State :=
  if s.refixGood p then
    ((s.refixLooks p).modTwin p (fun t => { t with
      ctl := setBit t.ctl 29 true, refixWord := BitVec.ofNat 16 (field (s.readNow t.refixAt 0x1000).1 6 2) })).modStep p (fun t => { t with refix := true })
  else (s.refixLooks p).twinEvent p 0x36 0

/-- TWIN REFIX. -/
def execTwinRefix (by_ : Requester) (p : PartId) (s : State) : Res := s.twinWrite by_ p (fun s => s.twinRefixOp p)

/-- The verdict of a refix step: that of its record (R462). -/
def State.refixVerdict (s : State) (p : PartId) : BitVec 16 := (s.twin p).refixWord

/-- RESTORE_CMD (R460, R465): BUSY until RESTORE_DONE, and HELLO asks the twin for its holding area; ignored while one is in
progress. -/
def State.restoreCmd (s : State) (p : PartId) (r : Restore) : State :=
  if bit (s.twin p).restoreStat 31 then s.regIgnored 4
  else
    let s1 := s.modTwin p (fun t => { t with
      restore := r, restoreStat := 0x80000000, restoreAsk := true, restoreGot := [] })
    s1.twinPut p 0 (s1.twin p).own.mailbox (s1.helloBytes p false ((s.listPages (s.twin p).list (s.twin p).listN).getD []).length)
      [] markHello

/-- RESTORE_CMD pages. -/
def execRestorePages (by_ : Requester) (p : PartId) (sel : Fin 2) (s : State) : Res :=
  s.twinWrite by_ p (fun s => s.restoreCmd p (.pages sel))
/-- RESTORE_CMD record. -/
def execRestoreRecord (by_ : Requester) (p : PartId) (sel : Fin 2) (s : State) : Res :=
  s.twinWrite by_ p (fun s => s.restoreCmd p (.record sel))
/-- RESTORE_CMD tables. -/
def execRestoreTables (by_ : Requester) (p : PartId) (s : State) : Res :=
  s.twinWrite by_ p (fun s => s.restoreCmd p .tables)

/-- What a restore has read of a range of the twin's holding area; none where a word of it came poisoned. -/
def Twin.gotBytes (t : Twin) (a len : Nat) : Option (List Byte) :=
  (pieces a len).foldl (fun (r : Option (List Byte)) x =>
    match r, t.restoreGot.find? (fun e => e.1 == x.1) with
    | some bs, some e => if e.2.2 then none else some (bs ++ e.2.1.take x.2)
    | _, _ => none) (some [])

/-- Whether reads of a restore are still to come (R460). -/
def State.restoreWaits (s : State) (p : PartId) : Bool :=
  (s.twin p).restoreAsk ||
  s.fabs.toList.any (fun f => f.outbox.any (fun o => o.use.ofRestore p) || f.slots.any (fun z => z.use.ofRestore p))

/-- A write of the management path into one of the partition's listed pages, or to a record's destination or the tables: the
bursts wait behind queued accesses but are not charged (R280, R295), and a sheet that has not read the page ends
(Table 13-5). -/
def State.restoreStore (s : State) (a : Nat) (bs : List Byte) : State :=
  ((s.sheetsTouched false a bs.length).dramWrite .mgmt a bs).moves none false a bs.length

/-- Restore the listed pages from slot i on: each is written once its CRC-64 equals its digest-list entry (R460) and it is
one of the partition's own (R465); gives the pages verified and whether every one was. -/
def State.restorePagesFrom (s : State) (p : PartId) (b : Nat) (ds : List Word64) : List Nat → Nat → State × Nat × Bool
  | [], i => (s, i, true)
  | pg :: rest, i =>
    match (s.twin p).gotBytes ((s.twin p).peers.page b i) (2 ^ 21) with
    | none => (s, i, false)
    | some bs =>
      if ds[i]? = some (crc64 bs) ∧ (s.pageInside pg && s.pageMarked p pg) = true then
        State.restorePagesFrom (s.restoreStore pg bs) p b ds rest (i + 1)
      else (s, i, false)

/-- The restored tables: the bytes of every enabled group's active version in ascending order (R465). -/
def State.restoreGroups (s : State) (p : PartId) : List (Fin 256) → List Byte → State
  | [], _ => s
  | g :: rest, bs =>
    let x := s.group g
    let n := 4 * x.blocks.toNat
    let ws : List Word32 := (List.range x.blocks.toNat).map (fun i => BitVec.ofNat 32 (field bs (4 * i) 4))
    let s1 := s.restoreStore (x.version (bit x.status 2)) (bs.take n)
    State.restoreGroups (s1.modGroup g (fun y => { y with status := setFld y.status 16 16 (x.fadedOf ws) })) p rest (bs.drop n)

/-- Slots of the list whose state holds a write of the management path, each with whether its copy is to be asked for
(R447). -/
def State.mgmtHeld (s : State) (p : PartId) (pages : List Nat) : List (Nat × Bool) :=
  if s.firstTouch p then
    pages.filterMap (fun a =>
      match s.direct a with
      | none => none
      | some d =>
        match s.listedSlot p d with
        | none => none
        | some i =>
          match Sparse.get PageState.unsent (s.twin p).pageState i with
          | .unsent => some (i, true)
          | .inFlight => some (i, false)
          | .staged _ | .acked => none)
  else []

/-- A restore waits for pages its writes may not yet touch, asking for the first-touch copies it needs (R447, R448). -/
def State.mgmtHold (s : State) (p : PartId) (l : List (Nat × Bool)) : State :=
  s.modTwin p (fun t => { t with
    mgmtWaits := l.map (·.1)
    held := t.held ++ (((l.filter (·.2)).map (·.1)).filter (fun i => !(t.held.contains i))).eraseDups })

/-- The pages a range touches. -/
def pagesOf (a n : Nat) : List Nat := (pieces a n).map (·.1)

/-- A restore of pages with everything read (R460, R465). -/
def State.restorePagesEnd (s : State) (p : PartId) (b : Fin 2) : State :=
  let t := s.twin p
  let l := (s.listPages t.list t.listN).getD []
  let m := (t.gotBytes (t.peers.manifest b.val) 0x100).getD []
  let list := slice ((t.gotBytes (t.peers.digest b.val 0) ((8 * l.length + 255) / 256 * 256)).getD []) 0 (8 * l.length)
  let ds : List Word64 := (List.range l.length).map (fun i => BitVec.ofNat 64 (field list (8 * i) 8))
  if field m 5 1 ≠ 2 ∨ field m 0x18 4 ≠ l.length ∨ sha256 list ≠ slice m 0x20 32 then s.restoreEnd p 2 0
  else
    let r := s.restorePagesFrom p b.val ds l 0
    r.1.restoreEnd p (if r.2.2 then 1 else 2) r.2.1

/-- A restore of a record with its slot read: the record's own bytes go to RESTORE_DEST. -/
def State.restoreRecordEnd (s : State) (p : PartId) (r : Fin 2) : State :=
  let t := s.twin p
  match t.gotBytes (t.peers.record r.val) (t.peerRecs * 2 ^ 21) with
  | none => s.restoreEnd p 2 0
  | some bs => (s.restoreStore (fld t.restoreDest 12 36 * 4096) (bs.take (0x2000 + 130 * field bs 0x48 4))).restoreEnd p 1 0

/-- A restore completes (R460), once its reads are answered and its writes are not held. -/
def execRestoreDone (p : PartId) (data : RestoreData) (s : State) : Res := s.gated 4 (fun s =>
  let t := s.twin p
  if t.restore = .none then .next s
  else if data.present = false then .next (s.restoreEnd p 3 0)
  else if s.restoreWaits p then .next s
  else
    let gs := (s.groupsOf p).filter (fun g => (s.group g).enabled)
    let held := match t.restore with
      | .pages _ => s.mgmtHeld p ((s.listPages t.list t.listN).getD [])
      | .record _ => s.mgmtHeld p (pagesOf (fld t.restoreDest 12 36 * 4096) (t.peerRecs * 2 ^ 21))
      | _ => []
    if !held.isEmpty then .next (s.mgmtHold p held)
    else
      match t.restore with
      | .pages b => .next (s.restorePagesEnd p b)
      | .record r => .next (s.restoreRecordEnd p r)
      | _ =>
        if data.tables.length ≠ (gs.map (fun g => 4 * (s.group g).blocks.toNat)).sum then .next (s.restoreEnd p 2 0)
        else .next ((s.restoreGroups p gs data.tables).restoreEnd p 1 0))

end Sys2Proof.Machine
end

