-- ==== Sys2Proof/Machine/Frames.lean ====
section
/-!
DEFINITION. Frames as their consumers see them (Table 11-2), the credit a consumer's taking earns (R364), and the
reservations of a die's reorder buffer (R362, R388).
-/
namespace Sys2Proof.Machine


/-- CLASS. -/
def frCls (f : Frame) : Nat := fld f.header 0 4
/-- CHAN. -/
def frChan (f : Frame) : BitVec 4 := bfld f.header 4 4
/-- EPOCH. -/
def frEpoch (f : Frame) : Nat := fld f.header 8 1
/-- PART. -/
def frPart (f : Frame) : PartId := ⟨fld f.header 10 2, by unfold fld; omega⟩
/-- STATUS. -/
def frStatus (f : Frame) : BitVec 4 := bfld f.header 12 4
/-- KIND. -/
def frKind (f : Frame) : Nat := fld f.header 16 4
/-- DEP. -/
def frDep (f : Frame) : BitVec 3 := bfld f.header 20 3
/-- SEP. -/
def frSep (f : Frame) : BitVec 3 := bfld f.header 23 3
/-- Payload bytes used. -/
def frLen (f : Frame) : Nat := (fld f.header 26 4 + 1) * 16
/-- SOS. -/
def frSos (f : Frame) : Bool := bit f.header 30
/-- SRC. -/
def frSrc (f : Frame) : BitVec 16 := bfld f.header 32 16
/-- DST. -/
def frDst (f : Frame) : BitVec 16 := bfld f.header 48 16
/-- SEQ. -/
def frSeq (f : Frame) : Word32 := bfld f.header 64 32
/-- ADDR. -/
def frAddr (f : Frame) : Nat := fld f.header 128 48
/-- RTAG. -/
def frTag (f : Frame) : BitVec 16 := bfld f.header 176 16
/-- The payload bytes in use. -/
def frData (f : Frame) : List Byte := slice f.payload 0 (frLen f)

/-- Whether a stream context is that of a frame (R353). -/
def Stream.of (x : Stream) (f : Frame) : Bool :=
  decide (x.cls.toNat = frCls f) && x.chan == frChan f && x.src == frSrc f && x.sep == frSep f && x.dep == frDep f

/-- The consumer has taken a frame of a stream that uses credits, with a status (R364). -/
def State.consumed (s : State) (d : FabId) (f : Frame) (st : BitVec 4) : State :=
  s.modFab d (fun x => { x with streams := x.streams.map (fun (y : Stream) =>
    if y.of f then
      { y with unreported := y.unreported + 1, lastTaken := frSeq f, status := if y.status = 0 then st else y.status }
    else y) })

/-- A frame that has gone over a path from a die: where a word of a beat it took was uncorrectable it arrives poisoned, every
word of its payload (R326, Table 11-4). A frame is the first 72 words of its beat. -/
def State.carryFrame (s : State) (a : DieId) (path : List JoinId) (f : Frame) : Frame × State :=
  let r := State.carry 2 a path s
  (if r.1.any (fun k => decide (k < 72)) && frStatus f == 0 then ⟨setFld f.header 12 4 5, f.payload⟩ else f, r.2)

/-- The compute die at which a frame delivered at a fabric die is consumed: a credit is at the fabric die. -/
def consumerDie (f : Frame) : Option DieId :=
  if h : (frDep f).toNat < 4 ∧ ¬(frCls f = 2 ∧ frKind f = 1) then some ⟨(frDep f).toNat, by omega⟩ else none

/-- Take the first delivered frame of a class and kind at a die; none where there is none. One for a compute die crosses to
it, by its interposer join or through the column partner (R335), and waits while that path does not pass (R328). -/
def State.takeFrame (s : State) (d : FabId) (cls kind : Nat) : Option (Frame × State) :=
  match (s.fab d).delivered.find? (fun f => decide (frCls f = cls) && decide (frKind f = kind) &&
    (match consumerDie f with | some c => s.pathOpen (fabDie d) c 0 | none => true)) with
  | none => none
  | some f =>
    let s1 := s.modFab d (fun x => { x with delivered := x.delivered.erase f })
    match consumerDie f with
    | some c => some (s1.carryFrame (fabDie d) ((s.deliverPath (fabDie d) c).getD []) f)
    | none => some (f, s1)

/-! ### Collective descriptors (Table 12-1) -/

/-- The fields of a descriptor. -/
structure CDesc where
  op      : Nat
  axis    : Nat
  dtype   : Nat
  verdict : Bool
  tagOnly : Bool
  xleg    : Bool
  n       : Nat
  me      : Nat
  arriveN : Nat
  part    : PartId
  root    : Nat
  credits : Nat
  lens    : Nat
  recv    : Nat
  flagOut : Nat
  flags   : Nat
  stats   : Nat
  xdesc   : Nat
  gFirst  : Nat
  gCount  : Nat
  inst0   : Word64
  deriving DecidableEq, Repr

/-- The 128 bytes of a descriptor. -/
def Colld.bytes (x : Colld) : List Byte := (x.words.toList.map (fun w => leBytes 8 w.toNat)).flatten

/-- The fields of a descriptor's bytes. -/
def Colld.desc (x : Colld) : CDesc :=
  let b := x.bytes
  let fl := field b 3 1
  { op := field b 0 1, axis := field b 1 1, dtype := field b 2 1, verdict := fl % 2 == 1, tagOnly := fl / 2 % 2 == 1,
    xleg := fl / 4 % 2 == 1, n := field b 4 2, me := field b 6 2, arriveN := field b 8 1,
    part := ⟨field b 9 1 % 4, by omega⟩, root := field b 0x0A 2, credits := field b 0x0C 4, lens := field b 0x10 8,
    recv := field b 0x18 8, flagOut := field b 0x20 8, flags := field b 0x28 8, stats := field b 0x30 8,
    xdesc := field b 0x38 2, gFirst := field b 0x3A 1, gCount := field b 0x3C 2,
    inst0 := BitVec.ofNat 64 (field b 0x40 8) }

/-- The bits of word w of a descriptor that are not reserved (Table 12-1): a reserved field is not stored and reads zero
(R11, R13). -/
def colldMask (w : Fin 16) : Word64 :=
  if w = 0 then 0xFFFFFFFF07FFFFFF
  else if w = 1 then 0xFFFFFFFFFFFF03FF
  else if w = 7 then 0x0000FFFF00FFFFFF
  else if w.val < 9 then 0xFFFFFFFFFFFFFFFF
  else 0

/-- Entries of the vector at LENS_ADDR (R396). -/
def CDesc.entries (d : CDesc) : Nat := if d.op = 6 ∨ d.xleg then 0 else if d.op = 5 then 1 else d.n

/-- The length vectors an instance reads. -/
def CDesc.vectors (d : CDesc) : List (Nat × Nat) :=
  (if d.entries = 0 then [] else [(d.lens, 4 * d.entries)]) ++ (if d.op = 4 then [(d.recv, 4 * d.n)] else [])

/-- The addresses of a descriptor in use, with the bytes that are known to lie there (Table 12-1); of FLAG_OUT and
FLAGS_ALL, whose lengths the vector gives at each start, the first. -/
def CDesc.places (d : CDesc) : List (Nat × Nat) :=
  d.vectors ++ (if d.verdict then [(d.flagOut, 1), (d.flags, 1), (d.stats, 0x40 + 8 * d.gCount)] else [])

/-- The check of ARM on the fields alone (R394, R395); a RAW reduction that is no X leg has no addition and is bad (log
entry 61). -/
def CDesc.fieldsGood (d : CDesc) : Bool :=
  decide (1 ≤ d.op) && decide (d.op ≤ 6) && decide (d.axis ≤ 1) && decide (d.dtype ≤ 2) &&
  (d.dtype == 0 || d.op == 2 || d.op == 3) && decide (2 ≤ d.n) && decide (d.n ≤ 128) && decide (d.me < d.n) &&
  decide (1 ≤ d.arriveN) && decide (d.arriveN ≤ 64) && decide (16 ≤ d.credits) && decide (d.credits ≤ 16384) &&
  (d.op != 5 || decide (d.root < d.n)) && (d.op == 4 || d.recv == 0) &&
  (if d.xleg then d.op == 3 && d.dtype == 0 else d.dtype != 0 || (d.op != 2 && d.op != 3)) &&
  (!d.verdict || (decide (1 ≤ d.gCount) && decide (d.gCount ≤ 256) && decide (d.gFirst + d.gCount ≤ 256) &&
    (decide (d.xdesc < 4096) || d.xdesc == 0xFFFF)))

/-- The check of ARM (R394, R395): the fields, and the addresses, which lie in the partition's ranges. -/
def CDesc.good (d : CDesc) (s : State) : Bool := d.fieldsGood && d.places.all (fun x => s.reaches d.part x.1 x.2)

/-- Whether a descriptor uses the direct exchange: a barrier or an X leg (R393, R404). -/
def CDesc.direct (d : CDesc) : Bool := d.op == 6 || d.xleg

/-- In-streams a descriptor reserves on a die's engine (R395). -/
def CDesc.streams (d : CDesc) (f : FabId) : Nat :=
  if d.direct then (if f = 0 then d.n - 1 else 0) else if d.op = 4 then d.n - 1 else 2

/-- Descriptor i. -/
def State.colld (s : State) (i : Nat) : Colld := Sparse.get Colld.reset s.coll.descs i
/-- Replace descriptor i. -/
def State.setColld (s : State) (i : Nat) (x : Colld) : State :=
  { s with coll := { s.coll with descs := Sparse.set Colld.reset s.coll.descs i x } }
/-- Change descriptor i. -/
def State.modColld (s : State) (i : Nat) (f : Colld → Colld) : State := s.setColld i (f (s.colld i))

/-- Change every descriptor that is listed. -/
def State.mapColld (s : State) (f : Colld → Colld) : State :=
  { s with coll := { s.coll with
    descs := (s.coll.descs.map (fun e => (e.1, f e.2))).filter (fun e => e.2 ≠ Colld.reset) } }

/-! ### Reservations (R362) -/

/-- Whether a grant is in force: VALID with a class it may have (Table 11-14). -/
def grantValid (g : Word64) : Bool := bit g 63 && (fld g 60 3 == 1 || fld g 60 3 == 3)

/-- Reorder entries and stream contexts reserved at a die, with RX grants and a reply pool given. -/
def State.reservedWith (s : State) (d : FabId) (rx : Sparse Word64) (pool : Nat) : Nat × Nat :=
  let gs := (rx.map (·.2)).filter grantValid
  let cs := (s.coll.descs.map (·.2)).filter (fun x => x.state != .idle)
  let add := fun (l : List Nat) => l.foldl (· + ·) 0
  (pool + add (gs.map (fun g => fld g 22 16)) + add (cs.map (fun x => x.desc.streams d * x.desc.credits)),
   add (gs.map (fun g => fld g 18 4 + 1)) + add (cs.map (fun x => x.desc.streams d)))

/-- What a die has reserved now. -/
def State.reserved (s : State) (d : FabId) : Nat × Nat :=
  s.reservedWith d (s.fab d).grantRx (fld (s.fab d).robCfg 0 16)

/-- Whether reservations stay within R362's limits. -/
def withinRob (r : Nat × Nat) : Bool := decide (r.1 ≤ 16384) && decide (r.2 ≤ 4096)

end Sys2Proof.Machine
end

