-- ==== Sys2Proof/Machine/Collective.lean ====
section
/-!
DEFINITION. The collective class and engines (cl, R240, R241; R391 to R417): dispatch and issue of cl instructions,
arming, arrivals, the start of an instance, its data, tags and messages, its end, and the exchange of the verdict
collective (R405 to R411). What the specification leaves to the engines is log entry 61.
-/
namespace Sys2Proof.Machine

/-! ### Dispatch and issue (R240, R241) -/

/-- Dispatch a cl instruction (R163, R187, R195). -/
def State.clDispatch (s : State) (a : At) (p : Pred) (f : FmtQ) (op : Byte) : Res :=
  s.issue a p 6 op ⟨true, true⟩ [] (fun s =>
    let qd := s.qreg a f.q
    if !(qdescGood qd) then s.trap a 6 op 0x03 0
    else if 16 ≤ (s.cell a.cell).eng.clQ.length then s.hold a 0x4
    else
      let m : ClInstr := ⟨s.dispatchTag a 6 op, op, f, qd⟩
      s.dispatch a (fun e => { e with clQ := e.clQ ++ [m] }))

/-- cl.ag (R240): dispatch to the collective queue. -/
def execClAg (a : At) (p : Pred) (f : FmtQ) (s : State) : Res := s.clDispatch a p f 0x01
/-- cl.rs (R240). -/
def execClRs (a : At) (p : Pred) (f : FmtQ) (s : State) : Res := s.clDispatch a p f 0x02
/-- cl.ar (R240). -/
def execClAr (a : At) (p : Pred) (f : FmtQ) (s : State) : Res := s.clDispatch a p f 0x03
/-- cl.a2a (R240). -/
def execClA2a (a : At) (p : Pred) (f : FmtQ) (s : State) : Res := s.clDispatch a p f 0x04
/-- cl.bcast (R240). -/
def execClBcast (a : At) (p : Pred) (f : FmtQ) (s : State) : Res := s.clDispatch a p f 0x05
/-- cl.bar (R240). -/
def execClBar (a : At) (p : Pred) (f : FmtQ) (s : State) : Res := s.clDispatch a p f 0x06
/-- cl.untag (R240). -/
def execClUntag (a : At) (p : Pred) (f : FmtQ) (s : State) : Res := s.clDispatch a p f 0x07

/-- Flags of FN an opcode defines (Table 7-11). -/
def clFlags (op : Byte) : Nat := if op = 0x01 then 2 else if op = 0x02 then 1 else 0

/-- The issue fault of a cl instruction (Table 7-12): phase, reserved fields with VERDICT of slot 1 (R408), kind. A
descriptor whose OP is zero was not written and names no operation to compare (log entry 61). A descriptor with XLEG
set takes CL_KIND (DESIGN CHOICE, log entry 64). -/
def ClInstr.fault (m : ClInstr) (s : State) : Option Byte :=
  let q := qdescOf m.qd
  let x := s.colld q.handle
  if m.tag.phaseBad then some 0x03
  else if m.f.t ≠ 0 ∨ m.f.so ≠ 0 ∨ m.f.sov ≠ 0 ∨ 2 ^ clFlags m.op ≤ m.f.fn.toNat ∨
      (m.op = 0x02 ∧ bit m.f.fn 0 ∧ m.tag.slot ≠ 0) then some 0x01
  else if q.kind ≠ 4 then some 0x02
  else if q.handle < 4096 ∧ x.desc.op ≠ 0 ∧ m.op ≠ 0x07 ∧ (x.desc.op ≠ m.op.toNat ∨ x.desc.xleg) then some 0x02
  else none

/-- The collective queue issues its oldest instruction toward its column's engine (R240, R241); none of the bubble slot in
restore mode (R144). -/
def execCollectiveQueueIssue (c : CellId) (s : State) : Res :=
  match (s.cell c).eng.clQ.find? (fun m => !((s.cell c).bubbleHeld m.tag.slot)) with
  | none => .next s
  | some m =>
    let s1 := s.modCell c (fun x => x.modEng (fun e => { e with clQ := e.clQ.erase m }))
    match m.fault s with
    | some code => .next (s1.instrFault c m.tag .coll code 0)
    | none =>
      let s2 := s1.modCell c (fun x => x.modEng (fun e => { e with
        clPending := e.clPending ++ [(m.tag.slot, m.tag.seq, false)] }))
      .next { s2 with coll := { s2.coll with
        inbox := vmod s2.coll.inbox (fabOf (cellEndpoint c)) (fun l => l ++ [⟨c, m⟩]) } }

/-! ### Completion of an arrival (R199, R400) -/

/-- A recorded event of an instance at one arriving cell; DETAIL as R413 uses it. -/
def State.clEvent (s : State) (a : ClArrival) (code : Byte) (detail : Nat) : State :=
  (s.report { s.instrRec a.cell a.ins.tag .coll code .event 0 0 with detail := BitVec.ofNat 32 detail }).modCell a.cell
    (fun x => x.modRegs (·.noteFault .coll code))

/-- Whether a status of Table 12-5 is a recorded event. -/
def clIsEvent (code : Byte) : Bool := code == 0x15 || code == 0x16 || code == 0x17

/-- An arrival completes with a status, its address and the instance's events; one whose context was reset reports
nothing. -/
def State.clDoneAt (s : State) (a : ClArrival) (status : Byte) (addr : Nat) (events : List (Byte × Nat)) : State :=
  let key := fun (e : SlotId × Nat × Bool) => e.1 == a.ins.tag.slot && e.2.1 == a.ins.tag.seq
  match (s.cell a.cell).eng.clPending.find? key with
  | none => s
  | some e =>
    let s1 := s.modCell a.cell (fun x => x.modEng (fun g => { g with
      clPending := g.clPending.filter (fun y => !(key y)) }))
    if e.2.2 then s1
    else
      let s2 := events.foldl (fun t v => t.clEvent a v.1 v.2) s1
      let s3 := if status = 0 then s2 else s2.instrFault a.cell a.ins.tag .coll status (BitVec.ofNat 64 addr)
      s3.completion a.cell a.ins.tag.slot a.ins.f

/-- The same for a status that names no address. -/
def State.clDone (s : State) (a : ClArrival) (status : Byte) (events : List (Byte × Nat)) : State :=
  s.clDoneAt a status 0 events

/-- The cl instructions of a slot that have reached an engine and not completed. -/
def State.clOutstanding (s : State) (a : At) : List ClInstr :=
  let all := (s.coll.inbox.toList.flatten ++ (s.coll.descs.map (fun e =>
    e.2.arrived ++ e.2.next ++ (match e.2.now with | some r => r.arrivals | none => []))).flatten)
  (all.filter (fun x => decide (x.cell = a.cell ∧ x.ins.tag.slot = a.slot) &&
    (s.cell a.cell).eng.clPending.any (fun e => decide (e.1 = a.slot ∧ e.2.1 = x.ins.tag.seq) && !e.2.2))).map (·.ins)

/-! ### The pending side stop word (R407) -/

/-- The verdict collective of a partition past its data phase, with its descriptor. -/
def State.sideOf (s : State) (p : PartId) : Option (Nat × SideRun) :=
  s.coll.descs.findSome? (fun e =>
    match e.2.side with
    | some r => if e.2.desc.part = p then some (e.1, r) else none
    | none => none)

/-- Whether a side run of a partition has sent its record. -/
def State.sideSent (s : State) (p : PartId) : Bool :=
  match s.sideOf p with
  | some (_, r) => r.sent
  | none => false

/-- Set a bit in COLL_SIDE[p].PENDING; once the side exchange has begun, STOP_BIT_LATE instead (R407). -/
def State.pend (s : State) (p : PartId) (b : StopBit) : State :=
  if s.sideSent p then s.partEvent p 0x01 .event 0x09 0
  else s.modPart p (fun x => { x with collSide := setBit x.collSide b.index true })

/-- The same for an instance: a bubble job's instance sets none. -/
def State.pendFor (s : State) (p : PartId) (r : Instance) (cond : Bool) (b : StopBit) : State :=
  if cond && r.arrivals.any (fun a => a.ins.tag.slot == 0) then s.pend p b else s

/-! ### Members and frames (R392, R393) -/

/-- The logical node of ring index k. -/
def State.logicalOf (s : State) (d : CDesc) (k : Nat) : BitVec 16 := setFld s.ownLogical (if d.axis = 0 then 8 else 0) 8 k

/-- The physical node of ring index k. -/
def State.member (s : State) (d : CDesc) (k : Nat) : Option (BitVec 16) := s.physical (s.logicalOf d k)

/-- The ring index of a physical node. -/
def State.indexOf (s : State) (d : CDesc) (n : BitVec 16) : Option Nat :=
  (List.range d.n).find? (fun k => s.member d k == some n)

/-- The direction of the ports by which a half leaves (R99, R393): successors lie in the positive direction of the axis. -/
def CDesc.wayOut (d : CDesc) (asc : Bool) : Nat := (if d.axis = 0 then 2 else 0) + (if asc then 0 else 1)

/-- A COL frame of descriptor i for ring index `dest`, carried by engine e; `way` is the direction of a ring's frame. -/
def State.colFrame (s : State) (i : Nat) (d : CDesc) (e : FabId) (way : Option Nat) (dest kind tag off : Nat) (bad : Bool)
    (bs : List Byte) : OutFrame :=
  let ep : BitVec 3 := if e = 0 then 4 else 5
  { frame := ⟨mkHeader 4 kind (BitVec.ofNat 4 i) (if bad then 5 else 0) d.part.val ep ep (max bs.length 1) s.nodeId
      ((s.member d dest).getD 0) (BitVec.ofNat 16 tag) (i + off * 2 ^ 24), padPayload bs⟩
    use := .coll ⟨i % 4096, by omega⟩ way, grant := none, node := some (s.logicalOf d dest) }

/-- The engine that carries frame k (R393). -/
def engineOf (k : Nat) : FabId := if k % 2 = 0 then 0 else 1

/-- The fabric die whose engine sends a frame. -/
def OutFrame.engine (o : OutFrame) : FabId := if frSep o.frame = 5 then 1 else 0

/-- Send COL frames from their engines. -/
def State.colSend (s : State) (os : List OutFrame) : State := os.foldl (fun t o => t.sendOut o.engine [o]) s

/-- Ring indices a member of an operation sends data to. -/
def CDesc.targets (d : CDesc) : List Nat :=
  let up := (d.me + 1) % d.n
  let down := (d.me + d.n - 1) % d.n
  if d.op = 4 then (List.range d.n).filter (· != d.me)
  else if d.op = 5 then [up, down].eraseDups.filter (· != d.root)
  else if d.op = 6 then []
  else [up, down].eraseDups

/-- Ring indices that send data to a member. -/
def CDesc.sources (d : CDesc) : List Nat :=
  let up := (d.me + 1) % d.n
  let down := (d.me + d.n - 1) % d.n
  if d.op = 4 then (List.range d.n).filter (· != d.me)
  else if d.op = 5 then (if d.me = d.root then [] else [up, down].eraseDups)
  else if d.op = 6 then []
  else [up, down].eraseDups

/-! ### Chunks, halves and frames (R396, R397) -/

/-- Sum of a list. -/
def sumOf (l : List Nat) : Nat := l.foldl (· + ·) 0

/-- Ceiling division. -/
def ceilDiv (a b : Nat) : Nat := (a + b - 1) / b

/-- Entry j of a length vector; a broadcast has one chunk. -/
def Instance.lenAt (r : Instance) (j : Nat) : Nat := r.lens.getD j 0

/-- Bytes of the element part of a chunk of length L. -/
def CDesc.elemBytes (d : CDesc) (l : Nat) : Nat := if d.dtype = 1 then 128 * l else l

/-- Element frames of half of a chunk: ascending the first ceil(F/2), descending the rest. -/
def CDesc.halfElems (d : CDesc) (l : Nat) (asc : Bool) : Nat :=
  let f := ceilDiv (d.elemBytes l) 256
  if asc then (f + 1) / 2 else f / 2

/-- First element frame of a half. -/
def CDesc.halfFirst (d : CDesc) (l : Nat) (asc : Bool) : Nat := if asc then 0 else d.halfElems l true

/-- G16 blocks of a half. -/
def CDesc.halfBlocks (d : CDesc) (l : Nat) (asc : Bool) : Nat :=
  let a := min l (2 * d.halfElems l true)
  if asc then a else l - a

/-- Frames of a half: its element frames, then for G16 those of its mordants. -/
def CDesc.halfFrames (d : CDesc) (l : Nat) (asc : Bool) : Nat :=
  d.halfElems l asc + (if d.dtype = 1 then ceilDiv (d.halfBlocks l asc) 256 else 0)

/-- Where the bytes of a frame lie in the buffer, whether they are mordants, and the first block they belong to. -/
structure Piece where
  off   : Nat
  len   : Nat
  mord  : Bool
  block : Nat
  deriving DecidableEq, Repr

/-- Frame k of a half of chunk j. -/
def CDesc.piece (d : CDesc) (r : Instance) (j : Nat) (asc : Bool) (k : Nat) : Piece :=
  let l := r.lenAt j
  let c0 := sumOf (r.lens.take j)
  let n := d.halfElems l asc
  let first := d.halfFirst l asc
  let len := min 256 (d.elemBytes l - 256 * (first + k))
  if d.dtype = 1 then
    if k < n then ⟨128 * c0 + 256 * (first + k), len, false, c0 + 2 * (first + k)⟩
    else
      let b := 2 * first + 256 * (k - n)
      ⟨128 * sumOf r.lens + c0 + b, min 256 (d.halfBlocks l asc - 256 * (k - n)), true, c0 + b⟩
  else ⟨c0 + 256 * (first + k), len, false, 0⟩

/-- Data of a part of the buffer: bytes and offsets of poisoned words; outside the map or the ranges every word
reads poisoned. A buffer in a cell window is outside every range: cl holds no cell-store range (DESIGN CHOICE, log
entry 64). -/
def State.bufRead (s : State) (p : PartId) (a n : Nat) : List Byte × List Nat :=
  if n = 0 then ([], [])
  else if s.reaches p a n then s.dramBytes a n
  else (List.replicate n 0, (List.range (ceilDiv n 4)).map (4 * ·))

/-- A buffer access of descriptor i takes a fault of Table 7-9: UNMAPPED (R269) or PROTECTED_WRITE (R39, R290). -/
def State.bufFault (s : State) (i : Nat) (code : Byte) (a : Nat) : State :=
  { s with coll := { s.coll with stopped := s.coll.stopped ++ [(i, code, a)] } }

/-- The engine reads a part of a buffer: its errors are accounted for and its bursts charged (R269, R295, R299). -/
def State.bufSee (s : State) (i : Nat) (p : PartId) (x : Nat × Nat) : State :=
  if x.2 = 0 then s
  else if s.reaches p x.1 x.2 then s.sees p true none x.1 x.2
  else s.bufFault i 0x07 x.1

/-- The same for every part of a list. -/
def State.bufSeeAll (s : State) (i : Nat) (p : PartId) (l : List (Nat × Nat)) : State := l.foldl (fun t x => t.bufSee i p x) s

/-- Write a part of a buffer; outside the map or the ranges nothing is written, and a refused write is suppressed, each
a fault (R39, R269, R290). -/
def State.bufWrite (s : State) (i : Nat) (p : PartId) (a : Nat) (bs : List Byte) (bad : List Nat) : State :=
  if bs.isEmpty then s
  else if s.reaches p a bs.length = false then s.bufFault i 0x07 a
  else
    match s.checkWrite .other a bs.length with
    | (.ok, _) => ((s.dramWrite .other a bs).dramPoison a bad).charge p true a bs.length
    | (_, at_) => s.bufFault i 0x08 at_

/-! ### G16 and F32 reduction (R79, R401, R416) -/

/-- The 16-bit codes of a byte list. -/
def codes16 (bs : List Byte) : List Nat := (List.range (bs.length / 2)).map (fun i => field bs (2 * i) 2)

/-- The bytes of 16-bit codes. -/
def bytes16 (cs : List Nat) : List Byte := (cs.map (leBytes 2)).flatten

/-- Block counts of the covered groups (R405). -/
def State.coveredBlocks (s : State) (d : CDesc) : List Nat :=
  (List.range d.gCount).map (fun i => (vgetD GradGroup.reset s.groups (d.gFirst + i)).blocks.toNat)

/-- The place of a block among runs of the given sizes: the run and the block in it. -/
def runOf : List Nat → Nat → Option (Nat × Nat)
  | [], _ => none
  | n :: rest, b => if b < n then some (0, b) else (runOf rest (b - n)).map (fun x => (x.1 + 1, x.2))

/-- The enabled group and its block that block b of a VERDICT_EN buffer is (R405). -/
def State.groupBlock (s : State) (d : CDesc) (b : Nat) : Option (GradGroup × Nat) :=
  if d.verdict then
    match runOf (s.coveredBlocks d) b with
    | some (i, j) =>
      let g := vgetD GradGroup.reset s.groups (d.gFirst + i)
      if g.enabled then some (g, j) else none
    | none => none
  else none

/-- The member's own mordant of a block: of the group's active version where the block is one of a covered group (R87),
else of the buffer's mordant plane. A poisoned word gives 0xFF. -/
def State.bufMordant (s : State) (d : CDesc) (r : Instance) (b : Nat) : Nat :=
  match s.groupBlock d b with
  | some (g, j) => s.tableMordant g j
  | none =>
    let a := r.base + 128 * sumOf r.lens + b
    let w := s.bufRead d.part (a - a % 4) 4
    if w.2.isEmpty then field w.1 (a % 4) 1 else 0xFF

/-- The bursts of mordant tables that a member reads for the blocks of a frame, each once: accounted for and charged (R295,
R299). -/
def State.tableSee (s : State) (d : CDesc) (x : Piece) : State :=
  if d.dtype ≠ 1 then s
  else
    let n := if x.mord then x.len else x.len / 128
    let words := (List.range n).filterMap (fun i =>
      (s.groupBlock d (x.block + i)).map (fun q => q.1.version (bit q.1.status 2) + 4 * q.2))
    (words.map (· / 256)).eraseDups.foldl (fun t l => t.sees d.part true none (256 * l) 256) s

/-- Local G16 codes of an element frame, poisoned words and blocks of mordant 0xFF as SAT, and whether any was. -/
def State.localCodes (s : State) (d : CDesc) (r : Instance) (x : Piece) : List Nat × Bool :=
  let w := s.bufRead d.part (r.base + x.off) x.len
  let m := (List.range (x.len / 128)).map (fun i => s.bufMordant d r (x.block + i))
  let bad := fun (i : Nat) => w.2.contains (2 * i / 4 * 4) || m.getD (i / 64) 0 == 0xFF
  ((codes16 w.1).zipIdx.map (fun q => if bad q.2 then satCode else q.1),
   (List.range (x.len / 2)).any bad)

/-- Local mordant bytes of a mordant frame. -/
def State.localMordants (s : State) (d : CDesc) (r : Instance) (x : Piece) : List Nat :=
  (List.range x.len).map (fun i => s.bufMordant d r (x.block + i))

/-- Sum of squares of one block (R406): a tree over its 64 elements, SAT as +0. -/
def blockSsq (m : Nat) (cs : List Nat) : Word32 :=
  let leaf := fun (c : Nat) =>
    if c = satCode then FpNum.zero else f32 (toF32 ((decG16 c m).mul (decG16 c m)))
  toF32 (treeSum F32 6 (cs.map leaf))

/-- Codes of block b of the buffer as the member adds them. -/
def State.blockCodes (s : State) (d : CDesc) (r : Instance) (b : Nat) : List Nat :=
  (s.localCodes d r ⟨128 * b, 128, false, b⟩).1

/-- F32 group totals over blocks [lo, hi) of the buffer (R406), block sums in ascending order. -/
def State.groupSsq (s : State) (d : CDesc) (r : Instance) (lo hi : Nat) : List Word32 :=
  let sizes := s.coveredBlocks d
  sizes.zipIdx.map (fun q =>
    let b0 := sumOf (sizes.take q.2)
    ((List.range q.1).filter (fun j => decide (lo ≤ b0 + j) && decide (b0 + j < hi))).foldl
      (fun (acc : Word32) j => fadd acc (blockSsq (s.bufMordant d r (b0 + j)) (s.blockCodes d r (b0 + j)))) 0)

/-- Received and local F32 words added, a poisoned word giving a poisoned one. -/
def addWords (rec loc : List Byte) (recBad : Bool) (locBad : List Nat) : List Byte × List Nat :=
  let n := loc.length / 4
  let bad := (List.range n).filter (fun i => recBad || locBad.contains (4 * i))
  (((List.range n).map (fun i =>
      leBytes 4 (fadd (BitVec.ofNat 32 (field rec (4 * i) 4)) (BitVec.ofNat 32 (field loc (4 * i) 4))).toNat)).flatten,
   bad.map (4 * ·))

/-! ### Ending an instance (R400, R414, R415) -/

/-- Whether a frame use belongs to descriptor i. -/
def FrameUse.ofColl (u : FrameUse) (i : Nat) : Bool :=
  match u with
  | .coll j _ => j.val == i
  | _ => false

/-- Change the running instance of a descriptor. -/
def State.modInst (s : State) (i : Nat) (f : Instance → Instance) : State :=
  s.modColld i (fun x => { x with now := x.now.map f })

/-- The fabric dies whose engine an operation uses. -/
def CDesc.engines (d : CDesc) : List FabId := if d.direct then [0] else [0, 1]

/-- The frames of descriptor i that have not left are dropped as it fails; after CL_MISMATCH the READY goes out all the
same, so that both ends compare (R399, R415). -/
def State.collDrop (s : State) (i : Nat) (ready : Bool) : State :=
  { s with fabs := s.fabs.map (fun (f : Fab) =>
    { f with outbox := f.outbox.filter (fun o => !(o.use.ofColl i) || (ready && frKind o.frame == 1)) }) }

/-- The instance of descriptor i ends with a stopping status and its address, or 0 (R400, R415). Arrivals counted for the
next instance reach engine 0 anew. -/
def State.collEndAt (s : State) (i : Nat) (status : Byte) (addr : Nat) : State :=
  let x := s.colld i
  match x.now with
  | none => s
  | some r =>
    let s1 := r.arrivals.foldl (fun t a => t.clDoneAt a status addr r.events) s
    let last : Byte := if status ≠ 0 then status else ((r.events.map (·.1)).head?).getD 0
    let failed := status == 0x11 || status == 0x13 || status == 0x14
    let s2 := s1.setColld i { x with
      state := if failed then .failed else .armed, last := last, inst := x.inst + 1
      failed := if failed then status else x.failed, now := none, next := [] }
    let s3 := { s2 with coll := { s2.coll with inbox := vmod s2.coll.inbox 0 (fun l => x.next ++ l) } }
    let s4 := x.desc.engines.foldl (fun t e => t.modFab e (fun f => { f with
      collInst := f.collInst + 1, collTime := if status = 0x13 then f.collTime + 1 else f.collTime })) s3
    if failed then s4.collDrop i (status == 0x11) else s4

/-- The same for a status that names no address. -/
def State.collEnd (s : State) (i : Nat) (status : Byte) : State := s.collEndAt i status 0

/-- The faults that buffer accesses took in the present command stop their instances (R206); one of an exchange that has
no running instance left, of side records or the flag plane, is an event (log entry 61). -/
def State.collSettle (s : State) : State :=
  match s.coll.stopped with
  | [] => s
  | l =>
    l.foldl (fun t e =>
      let x := t.colld e.1
      match x.now with
      | some _ => t.collEndAt e.1 e.2.1 e.2.2
      | none => t.report { (t.errRec 4 (tblStatus 0x04 e.2.1) .event).withPart t x.desc.part with
          engine := 0x09, addr := BitVec.ofNat 64 e.2.2 }) { s with coll := { s.coll with stopped := [] } }

/-- What a collective engine does in a command, the faults of its buffer accesses taken. -/
def settled (f : State → Res) (s : State) : Res :=
  match f s with
  | .next t => .next t.collSettle
  | r => r

/-- A frame of descriptor i returns DEAD_END (R415): the running instance ends with it. An exchange that has no running
instance, of side records, the flag plane or an X leg, ends too: the descriptor is FAILED, with an event, for no arrival
is left to take the status. -/
def State.collDeadEnd (s : State) (i : Nat) : State :=
  let x := s.colld i
  match x.now with
  | some _ => s.collEnd i 0x14
  | none =>
    if x.side.isSome || (x.desc.xleg && x.state == .active) then
      (((s.setColld i { x with
        state := .failed, failed := 0x14, last := 0x14, side := none, records := [], parts := []
        inst := if x.side.isSome then x.inst else x.inst + 1 }).collDrop i false).report
        { (s.errRec 4 (tblStatus 0x05 0x14) .event).withPart s x.desc.part with
          engine := 0x09, detail := BitVec.ofNat 32 i })
    else s

/-! ### Data a member sends (R401 to R403) -/

/-- The neighbour a half travels to. -/
def CDesc.ahead (d : CDesc) (asc : Bool) : Nat := if asc then (d.me + 1) % d.n else (d.me + d.n - 1) % d.n

/-- The frame that carries piece k of a half with its bytes. -/
def State.halfFrame (s : State) (i : Nat) (d : CDesc) (asc : Bool) (t k : Nat) (bs : List Byte) (bad : Bool) :
    Nat × OutFrame :=
  (d.ahead asc, s.colFrame i d (engineOf k) (some (d.wayOut asc)) (d.ahead asc) 0 t k bad bs)

/-- The local bytes of a piece as a reduction or gather sends them: G16 reductions send SAT codes, other data travels
as it is, poisoned where a word is. -/
def State.pieceBytes (s : State) (d : CDesc) (r : Instance) (reduce : Bool) (x : Piece) : List Byte × Bool :=
  if d.dtype = 1 && reduce then
    if x.mord then ((s.localMordants d r x).map (BitVec.ofNat 8), false)
    else (bytes16 (s.localCodes d r x).1, false)
  else
    let w := s.bufRead d.part (r.base + x.off) x.len
    (w.1, !w.2.isEmpty)

/-- The frames of a half of chunk j at ring step t. -/
def State.halfSends (s : State) (i : Nat) (d : CDesc) (r : Instance) (reduce : Bool) (j : Nat) (asc : Bool) (t : Nat) :
    List (Nat × OutFrame) :=
  (List.range (d.halfFrames (r.lenAt j) asc)).map (fun k =>
    let b := s.pieceBytes d r reduce (d.piece r j asc k)
    s.halfFrame i d asc t k b.1 b.2)

/-- Frames of an all-to-all entry j, from the send chunks of the buffer. -/
def State.a2aSends (s : State) (i : Nat) (d : CDesc) (r : Instance) (j : Nat) : List (Nat × OutFrame) :=
  let l := r.lenAt j
  let a := r.base + sumOf (r.lens.take j)
  (List.range (ceilDiv l 256)).map (fun k =>
    let w := s.bufRead d.part (a + 256 * k) (min 256 (l - 256 * k))
    (j, s.colFrame i d (engineOf k) none j 0 1 k (!w.2.isEmpty) w.1))

/-- The data frames a member sends as its instance starts, before it has received any. -/
def State.firstSends (s : State) (i : Nat) (d : CDesc) (r : Instance) : List (Nat × OutFrame) :=
  let up := (d.me + 1) % d.n
  let down := (d.me + d.n - 1) % d.n
  if d.op = 1 then
    if d.tagOnly then [] else s.halfSends i d r false d.me true 1 ++ s.halfSends i d r false d.me false 1
  else if d.op = 2 ∨ d.op = 3 then s.halfSends i d r true down true 1 ++ s.halfSends i d r true up false 1
  else if d.op = 4 then (d.targets.map (s.a2aSends i d r)).flatten
  else if d.op = 5 ∧ d.me = d.root then s.halfSends i d r false 0 true 1 ++ s.halfSends i d r false 0 false 1
  else []

/-- The pieces of the buffer a ring operation starts from. -/
def CDesc.firstPieces (d : CDesc) (r : Instance) : List Piece :=
  let half := fun (j : Nat) (asc : Bool) => (List.range (d.halfFrames (r.lenAt j) asc)).map (d.piece r j asc)
  if d.op = 1 then if d.tagOnly then [] else half d.me true ++ half d.me false
  else if d.op = 2 ∨ d.op = 3 then half ((d.me + d.n - 1) % d.n) true ++ half ((d.me + 1) % d.n) false
  else if d.op = 5 ∧ d.me = d.root then half 0 true ++ half 0 false
  else []

/-- The parts of the buffer that are read as the instance starts; an all-to-all reads its whole send side. -/
def CDesc.firstReads (d : CDesc) (r : Instance) : List (Nat × Nat) :=
  if d.op = 4 then [(r.base, sumOf r.lens)] else (d.firstPieces r).map (fun x => (r.base + x.off, x.len))

/-- Whether an instance moves TAG frames (R412). -/
def Instance.tagged (r : Instance) (d : CDesc) : Bool := d.op == 1 && (bit r.fn 0 || d.tagOnly)

/-- The TAG frames of the own chunk, ahead of each half. -/
def State.tagSends (s : State) (i : Nat) (d : CDesc) (r : Instance) : List (Nat × OutFrame) :=
  if r.tagged d then
    [true, false].map (fun asc => (d.ahead asc,
      s.colFrame i d 0 (some (d.wayOut asc)) (d.ahead asc) 2 1 0 false (leBytes 8 r.stamp.toNat ++ leBytes 8 d.me)))
  else []

/-- Data frames a member receives in an instance. -/
def CDesc.expected (d : CDesc) (r : Instance) : Nat :=
  let both := fun (l : Nat) => d.halfFrames l true + d.halfFrames l false
  let others := sumOf (((List.range d.n).filter (· != d.me)).map (fun j => both (r.lenAt j)))
  let red := sumOf ((List.range d.n).map (fun j =>
    (if 1 ≤ (d.me + 2 * d.n - j - 1) % d.n then d.halfFrames (r.lenAt j) true else 0) +
    (if 1 ≤ (j + 2 * d.n - d.me - 1) % d.n then d.halfFrames (r.lenAt j) false else 0)))
  if d.op = 1 then (if d.tagOnly then 0 else others)
  else if d.op = 2 then red
  else if d.op = 3 then red + others
  else if d.op = 4 then sumOf (((List.range d.n).filter (· != d.me)).map (fun k => ceilDiv (r.recvLens.getD k 0) 256))
  else if d.op = 5 then (if d.me = d.root then 0 else both (r.lenAt 0))
  else 0

/-- TAG frames a member receives. -/
def CDesc.expectedTags (d : CDesc) (r : Instance) : Nat := if r.tagged d then 2 * (d.n - 1) else 0

/-! ### READY and ARRIVE (R399, R404) -/

/-- Send the frames whose receiver is READY. -/
def State.collRelease (s : State) (i : Nat) : State :=
  match (s.colld i).now with
  | none => s
  | some r =>
    let go := r.queued.filter (fun q => r.readies.contains q.1)
    (s.modInst i (fun r => { r with queued := r.queued.filter (fun q => !(r.readies.contains q.1)) })).colSend
      (go.map (·.2))

/-- The CRC-32 READY carries, over the length vector; an all-to-all checks only the instance (R403). -/
def Instance.crc (d : CDesc) (r : Instance) : Word32 :=
  if d.op = 4 then 0 else crc32 ((r.lens.map (leBytes 4)).flatten)

/-- The payload of a READY. -/
def readyBytes (inst : Word64) (crc : Word32) : List Byte := leBytes 8 inst.toNat ++ leBytes 4 crc.toNat

/-- A READY or ARRIVE of ring index k meets the running instance. -/
def State.collMeet (s : State) (i : Nat) (m : EarlyMsg) : State :=
  let x := s.colld i
  match x.now with
  | none => s
  | some r =>
    let d := x.desc
    if m.ready then
      if field m.payload 0 8 ≠ x.inst.toNat ∨ (d.op ≠ 4 ∧ field m.payload 8 4 ≠ (r.crc d).toNat) then s.collEnd i 0x11
      else
        let had := d.targets.all (fun k => r.readies.contains k)
        let s1 := s.modInst i (fun r => { r with readies := (r.readies ++ [m.index]).eraseDups })
        let has := d.targets.all (fun k => (r.readies ++ [m.index]).contains k)
        let s2 := if has && !had then
            d.engines.foldl (fun t e => t.modFab e (fun f => { f with collWait := f.collWait + (t.time - r.startTime) })) s1
          else s1
        s2.collRelease i
    else if field m.payload 0 8 = x.inst.toNat then
      s.modInst i (fun r => { r with arrives := (r.arrives ++ [m.index]).eraseDups })
    else s.modColld i (fun x => { x with early := x.early ++ [m] })

/-- Frames of an all-to-all that a member has not sent in full (R403). -/
def Instance.lacks (r : Instance) (k : Nat) : Bool :=
  decide ((r.seen.filter (fun e => e.1 == k)).length < ceilDiv (r.recvLens.getD k 0) 256)

/-- A READY or ARRIVE arrives: one for an instance not started is held for it; in IDLE and FAILED it is discarded
(R415). A second READY of a member is for the next instance: that member has ended this one, so everything it sends in
it has been consumed, and an all-to-all that lacks frames of it ends with CL_LENGTH (R403). -/
def State.collMessage (s : State) (i : Nat) (m : EarlyMsg) : State :=
  let x := s.colld i
  let hold := s.modColld i (fun x => { x with early := x.early ++ [m] })
  match x.state with
  | .idle | .failed => s
  | .armed => hold
  | .active =>
    match x.now with
    | none => s
    | some r =>
      if m.ready && r.readies.contains m.index then
        if x.desc.op == 4 && r.lacks m.index then s.collEnd i 0x12 else hold
      else s.collMeet i m

/-- Take a message frame: the descriptor it names, below 4,096, and its message. -/
def State.takeMessage (s : State) (d : FabId) (kind : Nat) (ready : Bool) : Option (Nat × Option EarlyMsg × State) :=
  match s.takeFrame d 4 kind with
  | none => none
  | some (f, s1) =>
    let i := frAddr f % 2 ^ 24
    let s2 := s1.consumed d f 0
    if 4096 ≤ i then some (0, none, s2)
    else
      match s2.indexOf (s2.colld i).desc (frSrc f) with
      | none => some (i, none, s2)
      | some k => some (i, some ⟨ready, k, frData f⟩, s2)

/-- READY is received (R399). -/
def execCollReady (d : FabId) (s : State) : Res :=
  match s.takeMessage d 1 true with
  | some (i, some m, s1) => .next (s1.collMessage i m)
  | some (_, none, s1) => .next s1
  | none => .next s

/-- ARRIVE is received (R404). -/
def execCollArriveRecord (s : State) : Res :=
  match s.takeMessage 0 5 false with
  | some (i, some m, s1) => .next (s1.collMessage i m)
  | some (_, none, s1) => .next s1
  | none => .next s

/-! ### Starting an instance (R396, R398, R399, R408) -/

/-- n 32-bit entries of a length vector; none where they cannot be read. -/
def State.readLens (s : State) (p : PartId) (a n : Nat) : Option (List Nat) :=
  let w := s.bufRead p a (4 * n)
  if s.reaches p a (4 * n) && w.2.isEmpty then some ((List.range n).map (fun i => field w.1 (4 * i) 4)) else none

/-- Whether a chunk length keeps R396. -/
def CDesc.lenOk (d : CDesc) (l : Nat) : Bool :=
  let unit := if d.dtype = 0 then 16 else if d.dtype = 1 then 1 else 4
  l % unit == 0 && decide ((if d.dtype = 1 then 129 * l else l) ≤ 2 ^ 33) && decide (256 * d.halfElems l true ≤ 2 ^ 32)

/-- The length vectors of an instance with a buffer of `len` bytes (R396); none gives CL_LENGTH. -/
def State.instLens (s : State) (d : CDesc) (len : Nat) : Option (List Nat × List Nat) :=
  if d.op = 6 then some ([], [])
  else
    match s.readLens d.part d.lens (if d.op = 5 then 1 else d.n) with
    | none => none
    | some l =>
      if d.op = 4 then
        match s.readLens d.part d.recv d.n with
        | none => none
        | some v => if (l ++ v).all d.lenOk && sumOf l + sumOf v == len then some (l, v) else none
      else
        let total := if d.dtype = 1 then 129 * sumOf l else sumOf l
        if l.all d.lenOk && total == len then some (l, []) else none

/-- Whether an instance is the step's verdict collective (R408). -/
def CDesc.isVerdict (d : CDesc) (fn : BitVec 28) : Bool := d.op == 2 && bit fn 0 && d.verdict && d.dtype == 1

/-- What stops an instance at its start: a second verdict instance (R408), an all-to-all whose own entries differ (R403),
groups (R405), absent members (R349). -/
def State.startFault (s : State) (d : CDesc) (r : Instance) : Byte :=
  let groups := (List.range d.gCount).map (fun i => vgetD GradGroup.reset s.groups (d.gFirst + i))
  if r.verdict && (s.part d.part).verdictSeen then 0x11
  else if d.op = 4 ∧ r.lenAt d.me ≠ r.recvLens.getD d.me 0 then 0x12
  else if r.verdict && (!(groups.all (·.enabled)) || sumOf (s.coveredBlocks d) != sumOf r.lens) then 0x12
  else if (d.targets ++ d.sources ++ (if d.op = 6 then List.range d.n else [])).any (fun k => (s.member d k).isNone) then 0x14
  else 0

/-- Poisoned words and mordants of 0xFF met in what a G16 reduction starts from: NONFINITE (R87, R407). -/
def State.noteLocal (s : State) (d : CDesc) (r : Instance) : State :=
  if d.dtype = 1 then
    s.pendFor d.part r ((d.firstPieces r).any (fun x => !x.mord && (s.localCodes d r x).2)) .nonfinite
  else s

/-- Record an event of the instance once per detail. -/
def Instance.note (r : Instance) (code : Byte) (detail : Nat) : Instance :=
  if r.events.contains (code, detail) then r else { r with events := r.events ++ [(code, detail)] }

/-- STALE_SHARD of an owner (R413): once per owner; STALE in the stop bits of every arriving cell and in the pending
side stop word. -/
def State.staleShard (s : State) (i owner : Nat) : State :=
  match (s.colld i).now with
  | none => s
  | some r =>
    if r.stale.contains owner then s
    else
      let s1 := s.modInst i (fun r => { (r.note 0x15 owner) with stale := r.stale ++ [owner] })
      let s2 := (r.arrivals.map (fun a => (a.cell, a.ins.tag.slot))).eraseDups.foldl
        (fun (t : State) a => t.setStop ⟨a.1, a.2⟩ .stale) s1
      s2.pendFor (s.colld i).desc.part r true .stale

/-- Own entry of an all-to-all copied locally (R403). -/
def State.a2aOwn (s : State) (i : Nat) (d : CDesc) (r : Instance) : State :=
  let w := s.bufRead d.part (r.base + sumOf (r.lens.take d.me)) (r.lenAt d.me)
  s.bufWrite i d.part (r.base + sumOf r.lens + sumOf (r.recvLens.take d.me)) w.1 w.2

/-- Whether a poisoned word lies in what a RAW or F32 member starts from (R416). -/
def State.ownPoison (s : State) (d : CDesc) (r : Instance) : Bool :=
  d.dtype != 1 && (d.firstReads r).any (fun x => !(s.bufRead d.part x.1 x.2).2.isEmpty)

/-- The instance of descriptor i starts locally (R398): its checks, READY or ARRIVE to its peers, its first frames, and
the messages already held for it. -/
def State.collStart (s : State) (i : Nat) (arrivals : List ClArrival) : State :=
  let x := s.colld i
  let d := x.desc
  match arrivals with
  | [] => s
  | a :: _ =>
    let q := qdescOf a.ins.qd
    let lens := s.instLens d q.length
    let r : Instance :=
      { arrivals := arrivals, startTime := s.time, fn := a.ins.f.fn, base := localOf q.addr, len := q.length
        lens := (lens.getD ([], [])).1, recvLens := (lens.getD ([], [])).2
        stamp := s.countAtFix d.part, readies := [], arrives := [], queued := [], got := 0, own := 0
        tags := 0, stale := [], events := [], verdict := d.isVerdict a.ins.f.fn, localSsq := [], seen := [], differ := [] }
    let early := x.early
    let s1 := s.setColld i { x with state := .active, now := some r, arrived := [], early := [] }
    if lens.isNone then s1.collEnd i 0x12
    else
      match s1.startFault d r with
      | 0 =>
        let s2 := if r.verdict then
            (s1.modInst i (fun r => { r with localSsq := s1.groupSsq d r 0 (sumOf r.lens) })).modPart d.part
              (fun p => { p with verdictSeen := true })
          else s1
        let s3 := if d.op = 2 ∨ d.op = 3 then s2.noteLocal d r else s2
        let s4 := if s3.ownPoison d r then s3.modInst i (fun r => r.note 0x16 0) else s3
        let s5 := (d.vectors.foldl (fun t x => t.sees d.part false none x.1 x.2) s4).bufSeeAll i d.part (d.firstReads r)
        let s5 := (d.firstPieces r).foldl (fun t x => t.tableSee d x) s5
        let s6 := s5.modInst i (fun r => { r with queued := s5.tagSends i d r ++ s5.firstSends i d r })
        let s7 := if d.op = 4 then s6.a2aOwn i d r else s6
        let s8 := if d.op = 6 then
            s7.colSend (((List.range d.n).filter (· != d.me)).map (fun k =>
              s7.colFrame i d 0 none k 5 0 0 false (leBytes 8 x.inst.toNat)))
          else s7.colSend (d.sources.map (fun k =>
              s7.colFrame i d 0 none k 1 0 0 false (readyBytes x.inst (r.crc d))))
        let s9 := if d.op = 1 ∧ bit r.fn 1 ∧ r.stamp ≠ x.tag then s8.staleShard i d.me else s8
        early.foldl (fun t m => t.collMeet i m) s9
      | code => s1.collEnd i code

/-- What a cl instruction that reaches an engine does (R398, R412, R415). -/
def State.collArrival (d : FabId) (s : State) : Res :=
  match vget s.coll.inbox d with
  | [] => .next s
  | a :: rest =>
    let s1 := { s with coll := { s.coll with inbox := vset s.coll.inbox d rest } }
    let q := qdescOf a.ins.qd
    let i := q.handle
    let x := s1.colld i
    if 4096 ≤ i ∨ x.state = .idle then .next (s1.clDone a 0x10 [])
    else if s1.partOf a.cell ≠ some x.desc.part then .next (s1.clDone a 0x18 [])
    else if x.state = .failed then .next (s1.clDone a (if x.failed = 0 then 0x10 else x.failed) [])
    else if a.ins.op = 0x07 then
      .next ((s1.modColld i (fun x => { x with tagOut := false })).clDone a 0 [])
    else if x.state = .active then .next (s1.modColld i (fun x => { x with next := x.next ++ [a] }))
    else
      let all := x.arrived ++ [a]
      let same := all.all (fun b =>
        (qdescOf b.ins.qd).addr == q.addr && (qdescOf b.ins.qd).length == q.length)
      if same = false then
        let s2 := all.foldl (fun t b => t.clDone b 0x11 []) s1
        let s3 := s2.setColld i { x with
          state := .failed, failed := 0x11, last := 0x11, arrived := [], early := [], inst := x.inst + 1 }
        .next (x.desc.engines.foldl (fun t e => t.modFab e (fun f => { f with collInst := f.collInst + 1 })) s3)
      else if all.length < x.desc.arriveN then .next (s1.modColld i (fun x => { x with arrived := all }))
      else .next (s1.collStart i all)

/-- COLL_ARRIVAL: a cl instruction reaches an engine, once the regulators admit what it reads. -/
def execCollArrival (d : FabId) (s : State) : Res := s.gated (fabDie d) (settled (State.collArrival d))

/-! ### Data frames -/

/-- Queue frames of an instance; they leave once their receiver is READY. -/
def State.collQueue (s : State) (i : Nat) (fs : List (Nat × OutFrame)) : State :=
  (s.modInst i (fun r => { r with queued := r.queued ++ fs })).collRelease i

/-- Write the elements of blocks of the buffer as SAT. -/
def State.satBlocks (s : State) (i : Nat) (p : PartId) (r : Instance) (bs : List Nat) : State :=
  bs.foldl (fun t b => t.bufWrite i p (r.base + 128 * b) (bytes16 (List.replicate 64 satCode)) []) s

/-- A G16 element frame of a reduction (R79, R401): the sum, forwarded or written, SAT in a block whose mordants were found
to differ. -/
def State.reduceG16 (s : State) (i : Nat) (d : CDesc) (r : Instance) (asc last : Bool) (t k : Nat) (x : Piece)
    (f : Frame) : State :=
  let bad := frStatus f = 5
  let rec_ := if bad then List.replicate (x.len / 2) satCode else codes16 (slice f.payload 0 x.len)
  let loc := s.localCodes d r x
  let sums := List.zipWith addG16 rec_ loc.1
  let s1 := (s.pendFor d.part r (bad || loc.2) .nonfinite).pendFor d.part r (sums.any (·.2)) .bleed
  let out := bytes16 (sums.zipIdx.map (fun q => if r.differ.contains (x.block + q.2 / 64) then satCode else q.1.1))
  if last then s1.bufWrite i d.part (r.base + x.off) out []
  else s1.collQueue i [s1.halfFrame i d asc (t + 1) k out false]

/-- A G16 mordant frame of a reduction (R401): compared with the own mordants; blocks that differ set NONFINITE and raise
CL_MORDANT. A relay passes them on as 0xFF, so that the owner finds them to differ (DESIGN CHOICE, log entry 61); the
owner writes them as SAT and its own mordants into the plane. -/
def State.reduceMordant (s : State) (i : Nat) (d : CDesc) (r : Instance) (asc last : Bool) (t k : Nat) (x : Piece)
    (f : Frame) : State :=
  let bad := frStatus f = 5
  let mine := s.localMordants d r x
  let differs := fun (j : Nat) => bad || field f.payload j 1 != mine.getD j 0
  let diff := (List.range x.len).filter differs
  let s1 := s.pendFor d.part r (!diff.isEmpty) .nonfinite
  let s2 := s1.modInst i (fun r =>
    let r := { r with differ := if last then r.differ ++ diff.map (x.block + ·) else r.differ }
    diff.foldl (fun r j => r.note 0x17 (x.block + j)) r)
  if last then
    (s2.satBlocks i d.part r (diff.map (x.block + ·))).bufWrite i d.part (r.base + x.off) (mine.map (BitVec.ofNat 8)) []
  else s2.collQueue i [s2.halfFrame i d asc (t + 1) k
    (mine.zipIdx.map (fun q => if differs q.2 then 0xFF else BitVec.ofNat 8 q.1)) false]

/-- An F32 frame of a reduction (R401, R416). -/
def State.reduceF32 (s : State) (i : Nat) (d : CDesc) (r : Instance) (asc last : Bool) (t k : Nat) (x : Piece)
    (f : Frame) : State :=
  let loc := s.bufRead d.part (r.base + x.off) x.len
  let out := addWords f.payload loc.1 (frStatus f = 5) loc.2
  let s1 := if out.2.isEmpty then s else s.modInst i (fun r => r.note 0x16 0)
  if last then s1.bufWrite i d.part (r.base + x.off) out.1 out.2
  else s1.collQueue i [s1.halfFrame i d asc (t + 1) k out.1 (!out.2.isEmpty)]

/-- A frame of a reduction at ring step t of the half `asc`; the last reduced frame of the own chunk of an all-reduce
starts its gather (R402). -/
def State.reduceFrame (s : State) (i : Nat) (d : CDesc) (r : Instance) (asc : Bool) (t k : Nat) (f : Frame) : State :=
  let j := if asc then (d.me + 2 * d.n - 1 - t) % d.n else (d.me + 1 + t) % d.n
  let last := t + 1 == d.n
  let x := d.piece r j asc k
  if d.halfFrames (r.lenAt j) asc ≤ k then s
  else
    let s0 := (s.bufSee i d.part (r.base + x.off, x.len)).tableSee d x
    let s1 := if x.mord then s0.reduceMordant i d r asc last t k x f
      else if d.dtype = 1 then s0.reduceG16 i d r asc last t k x f
      else s0.reduceF32 i d r asc last t k x f
    let s2 := s1.modInst i (fun r => { r with got := r.got + 1, own := if last then r.own + 1 else r.own })
    let l := r.lenAt d.me
    if d.op = 3 ∧ last ∧ r.own + 1 = d.halfFrames l true + d.halfFrames l false then
      let own := ([true, false].map (fun (h : Bool) =>
        (List.range (d.halfFrames l h)).map (fun k => (r.base + (d.piece r d.me h k).off, (d.piece r d.me h k).len)))).flatten
      let bad := d.dtype != 1 && own.any (fun y => !(s2.bufRead d.part y.1 y.2).2.isEmpty)
      let s3 := if bad then s2.modInst i (fun r => r.note 0x16 0) else s2
      (s3.bufSeeAll i d.part own).collQueue
        i (s2.halfSends i d r false d.me true d.n ++ s2.halfSends i d r false d.me false d.n)
    else s2

/-- A frame of a gather or broadcast (R402): written, and forwarded while it has members to reach; `t` counts its ring
steps and `tag` is its RTAG. -/
def State.gatherFrame (s : State) (i : Nat) (d : CDesc) (r : Instance) (asc : Bool) (t tag k : Nat) (f : Frame) :
    State :=
  let j := if d.op = 5 then 0 else if asc then (d.me + 2 * d.n - t) % d.n else (d.me + t) % d.n
  let x := d.piece r j asc k
  if d.halfFrames (r.lenAt j) asc ≤ k then s
  else
    let bad := frStatus f = 5
    let bs := slice f.payload 0 x.len
    let s1 := s.bufWrite i d.part (r.base + x.off) bs (if bad then (List.range (ceilDiv x.len 4)).map (4 * ·) else [])
    let s2 := s1.modInst i (fun r =>
      let r := { r with got := r.got + 1 }
      if bad && d.dtype != 1 then r.note 0x16 0 else r)
    if t + 1 < d.n then s2.collQueue i [s2.halfFrame i d asc (tag + 1) k bs bad] else s2

/-- A frame of an all-to-all from ring index j (R403); one beyond the receive vector, or of another length, ends the
instance with CL_LENGTH. -/
def State.a2aFrame (s : State) (i : Nat) (d : CDesc) (r : Instance) (j k : Nat) (f : Frame) : State :=
  let l := r.recvLens.getD j 0
  let n := min 256 (l - 256 * k)
  if ceilDiv l 256 ≤ k ∨ frLen f ≠ n then s.collEnd i 0x12
  else
    let bad := frStatus f = 5
    let a := r.base + sumOf r.lens + sumOf (r.recvLens.take j) + 256 * k
    let s1 := s.bufWrite i d.part a (slice f.payload 0 n) (if bad then (List.range (ceilDiv n 4)).map (4 * ·) else [])
    s1.modInst i (fun r =>
      let r := { r with got := r.got + 1, seen := r.seen ++ [(j, k)] }
      if bad then r.note 0x16 0 else r)

/-- Whether a frame travels in the ascending direction: it comes from the predecessor. -/
def State.ascending (s : State) (d : CDesc) (f : Frame) : Bool := s.member d ((d.me + d.n - 1) % d.n) == some (frSrc f)

/-- Blocks of chunk j of the flag plane, and its bytes: four blocks to a byte (R410). -/
def SideRun.planeLen (r : SideRun) (j : Nat) : Nat := ceilDiv (r.lens.getD j 0) 4

/-- A frame of the flag plane (R410): kept, and forwarded while it has members to reach. -/
def State.planeFrame (s : State) (i : Nat) (d : CDesc) (r : SideRun) (asc : Bool) (t k : Nat) (f : Frame) : State :=
  let j := if asc then (d.me + 2 * d.n - t) % d.n else (d.me + t) % d.n
  let fr := ceilDiv (r.planeLen j) 256
  let asc := if d.n = 2 then !(r.plane.any (fun e => e.1 == j && e.2.1 == k)) else asc
  let abs := if asc then k else (fr + 1) / 2 + k
  let n := min 256 (r.planeLen j - 256 * abs)
  let s1 := s.modColld i (fun x => { x with side := x.side.map (fun r =>
    { r with plane := r.plane ++ [(j, abs, slice f.payload 0 n)] }) })
  if t + 1 < d.n then
    s1.colSend [(s1.halfFrame i d asc (d.n + t) k (slice f.payload 0 n) false).2]
  else s1

/-- Whether a data frame is of the ascending half. With two members both halves come from one neighbour over one stream,
each frame of the ascending half ahead of the same frame of the descending one (log entry 61). -/
def State.halfOf (s : State) (d : CDesc) (r : Instance) (t k : Nat) (f : Frame) : Bool :=
  if d.n = 2 then !(r.seen.contains (t, k)) else s.ascending d f

/-- A data frame of a collective meets the running instance (R401 to R403). -/
def State.dataFrame (s : State) (i : Nat) (d : CDesc) (r : Instance) (t k : Nat) (f : Frame) : State :=
  let asc := s.halfOf d r t k f
  let s1 := if d.n = 2 ∧ d.op ≠ 4 then s.modInst i (fun r => { r with seen := r.seen ++ [(t, k)] }) else s
  if d.op = 2 ∨ (d.op = 3 ∧ t < d.n) then s1.reduceFrame i d r asc t k f
  else if d.op = 3 then s1.gatherFrame i d r asc (t + 1 - d.n) t k f
  else if d.op = 4 then
    match s1.indexOf d (frSrc f) with
    | some j => s1.a2aFrame i d r j k f
    | none => s1
  else s1.gatherFrame i d r asc t t k f

/-- What a received data frame of a collective does (R393, R401 to R403, R410, R415): it is reduced, gathered or kept; one
that meets no running instance is discarded and its credit returned. -/
def State.collData (e : FabId) (s : State) : Res :=
  match s.takeFrame e 4 0 with
  | none => .next s
  | some (f, s0) =>
    let i := frAddr f % 2 ^ 24
    let k := frAddr f / 2 ^ 24
    let s1 := s0.consumed e f 0
    let x := s1.colld i
    let d := x.desc
    let t := (frTag f).toNat
    if 4096 ≤ i then .next s1
    else
      match (if d.op = 2 ∧ d.n ≤ t ∧ x.state ≠ .failed then x.side else none), x.now with
      | some r, _ => .next (s1.planeFrame i d r (s1.ascending d f) (t + 1 - d.n) k f)
      | none, some r => .next (s1.dataFrame i d r t k f)
      | none, none => .next s1

/-- COLL_DATA_FRAME, once the regulators admit what it reads and writes. -/
def execCollDataFrame (e : FabId) (s : State) : Res := s.gated (fabDie e) (settled (State.collData e))

/-- A gather TAG frame is received (R412, R413): relayed, and compared with the own stamp in a TAG instance and with
TAG_VALUE in a CHECK instance. -/
def execCollTagFrame (e : FabId) (s : State) : Res :=
  match s.takeFrame e 4 2 with
  | none => .next s
  | some (f, s0) =>
    let i := frAddr f % 2 ^ 24
    let s1 := s0.consumed e f 0
    let x := s1.colld i
    let d := x.desc
    match x.now with
    | none => .next s1
    | some r =>
      let asc := s1.ascending d f
      let t := (frTag f).toNat
      let count : Word64 := BitVec.ofNat 64 (field f.payload 0 8)
      let owner := field f.payload 8 8
      let bad := (bit r.fn 0 && count != r.stamp) || (bit r.fn 1 && count != x.tag)
      let s2 := s1.modInst i (fun r => { r with tags := r.tags + 1 })
      let s3 := if bad then s2.staleShard i owner else s2
      if t + 1 < d.n then
        .next (s3.collQueue i [(d.ahead asc,
          s3.colFrame i d 0 (some (d.wayOut asc)) (d.ahead asc) 2 (t + 1) 0 false (slice f.payload 0 16))])
      else .next s3

/-! ### The end of an instance (R400, R405, R406, R412) -/

/-- Whether a frame of descriptor i is waiting or not yet credited. -/
def State.collOwes (s : State) (i : Nat) : Bool :=
  s.fabs.toList.any (fun f => f.outbox.any (fun o => o.use.ofColl i) || f.slots.any (fun o => o.use.ofColl i))

/-- Whether the running instance has done everything R400 asks. -/
def State.collComplete (s : State) (i : Nat) (d : CDesc) (r : Instance) : Bool :=
  r.got == d.expected r && r.tags == d.expectedTags r && r.queued.isEmpty && !(s.collOwes i) &&
  d.targets.all (fun k => r.readies.contains k) &&
  (d.op != 6 || ((List.range d.n).filter (· != d.me)).all (fun k => r.arrives.contains k))

/-- The flag of a reduced block (Table 3-7). -/
def blockFlag (cs : List Nat) : BitVec 2 :=
  if cs.any (· == satCode) then 3
  else if cs.all (· == 0) then 2
  else if cs.all (fun c => decide ((toSigned 16 c).natAbs < 8192)) then 1 else 0

/-- First block and end of the own chunk. -/
def Instance.ownBlocks (r : Instance) (d : CDesc) : Nat × Nat :=
  (sumOf (r.lens.take d.me), sumOf (r.lens.take d.me) + r.lenAt d.me)

/-- Chunks of a reduce-scatter buffer that are not owned are left undefined (R401): free values. -/
def State.undefineChunks (s : State) (d : CDesc) (r : Instance) : State :=
  let parts := ((List.range d.n).filter (· != d.me)).map (fun j =>
    let c0 := sumOf (r.lens.take j)
    let l := r.lenAt j
    if d.dtype = 1 then [(128 * c0, 128 * l), (128 * sumOf r.lens + c0, l)] else [(c0, l)])
  parts.flatten.foldl (fun t x =>
    if x.2 ≠ 0 ∧ t.reaches d.part (r.base + x.1) x.2 then
      { (t.dramWrite .other (r.base + x.1) (t.freeBytes x.2)) with freeCtr := t.freeCtr + x.2 }
    else t) s

/-- The owner's part at the end of a G16 reduce-scatter (R88, R405, R406, R449): flags, and in the verdict collective
FLAG_OUT, the counts and sums of its side record, and the body of the fixing record. -/
def State.flagBlocks (s : State) (i : Nat) (d : CDesc) (r : Instance) : State :=
  let b := r.ownBlocks d
  let blocks := (List.range (b.2 - b.1)).map (b.1 + ·)
  let flags := blocks.map (fun k => blockFlag (s.blockCodes d r k))
  let bleed := (flags.filter (· == 3)).length
  let gm := r.base + 128 * sumOf r.lens + b.1
  let s1 := (s.bufSee i d.part (r.base + 128 * b.1, 128 * (b.2 - b.1))).pendFor d.part r (bleed != 0) .bleed
  if r.verdict = false then s1
  else
    let fb := flags.map (fun f => (f.zeroExtend 8 : Byte))
    let red := s1.groupSsq d r b.1 b.2
    let s2 := (s1.bufSee i d.part (gm, b.2 - b.1)).bufWrite i d.part d.flagOut fb []
    let grad := (s.bufRead d.part (r.base + 128 * b.1) (128 * (b.2 - b.1))).1
    let gmord := (s1.bufRead d.part gm (b.2 - b.1)).1
    let side : SideRun :=
      { startTime := r.startTime, lens := r.lens, flags := flags, bleed := bleed, localSsq := r.localSsq
        reducedSsq := red, sent := false, yResult := none, plane := [], built := false, inXleg := false, known := none }
    let s3 := s2.modColld i (fun x => { x with side := some side })
    s3.bodySend d.part (b.2 - b.1) grad gmord fb

/-- What the end of an instance does (R400); where its last accesses take a fault, that fault ends it instead (R206). -/
def State.instanceEnd (i : Fin 4096) (s : State) : Res :=
  let x := s.colld i.val
  let d := x.desc
  match x.now with
  | none => .next s
  | some r =>
    if s.collComplete i.val d r = false then .next s
    else
      let s1 := if d.op = 2 then
          let t := s.undefineChunks d r
          if d.dtype = 1 then t.flagBlocks i.val d r else t
        else s
      let s2 := if d.op = 1 ∧ bit r.fn 0 then s1.modColld i.val (fun x => { x with tag := r.stamp, tagOut := true })
        else s1
      if s2.coll.stopped.isEmpty then .next (s2.collEnd i.val 0)
      else .next { s with mem := s2.mem, coll := { s.coll with stopped := s2.coll.stopped } }

/-- COLL_INSTANCE_END, once the regulators admit what it reads and writes. -/
def execCollInstanceEnd (i : Fin 4096) (s : State) : Res := s.gated (fabDie (engineOf i.val)) (settled (State.instanceEnd i))

/-- An instance without progress for PROGRESS_TIMEOUT_MS ends (R414). -/
def execCollProgressTimeout (i : Fin 4096) (s : State) : Res := .next (s.collEnd i.val 0x13)

/-! ### The side exchange (R409, Table 12-4) -/

/-- The own side record with a STOP word. -/
def State.sideRecord (s : State) (d : CDesc) (r : SideRun) (stop : BitVec 16) : List Byte :=
  let thr := if bit stop 5 then 2 ^ d.me else 0
  leBytes 2 stop.toNat ++ leBytes 2 0 ++ leBytes 4 (fld (s.stepOf d.part).index 0 32) ++
  leBytes 8 r.startTime.toNat ++ leBytes 8 r.startTime.toNat ++ leBytes 2 d.me ++ leBytes 2 d.gCount ++
  leBytes 4 (min r.bleed (2 ^ 32 - 1)) ++ leBytes 16 thr ++ List.replicate 16 0 ++
  (List.zipWith (fun (a b : Word32) => leBytes 4 a.toNat ++ leBytes 4 b.toNat) r.localSsq r.reducedSsq).flatten

/-- Reduce the records of every member, in ascending ring index, as Table 12-4 states. -/
def reduceRecords (d : CDesc) (rs : List (List Byte)) : List Byte :=
  let h := rs.headD []
  let or_ := fun (o n : Nat) => rs.foldl (fun a b => a ||| field b o n) 0
  let amin := rs.foldl (fun a b => min a (field b 8 8)) (field h 8 8)
  let amax := rs.foldl (fun a b => max a (field b 0x10 8)) 0
  let late := ((List.range rs.length).find? (fun k => field (rs.getD k []) 0x10 8 == amax)).getD 0
  let ssq := fun (o : Nat) => (rs.tail.foldl (fun (a : Word32) b => fadd a (BitVec.ofNat 32 (field b o 4)))
    (BitVec.ofNat 32 (field h o 4))).toNat
  leBytes 2 (or_ 0 2) ++ leBytes 2 0 ++ slice h 4 4 ++ leBytes 8 amin ++ leBytes 8 amax ++ leBytes 2 late ++
  leBytes 2 d.gCount ++ leBytes 4 (min (sumOf (rs.map (fun b => field b 0x1C 4))) (2 ^ 32 - 1)) ++
  leBytes 16 (or_ 0x20 16) ++ List.replicate 16 0 ++
  ((List.range d.gCount).map (fun g => leBytes 4 (ssq (0x40 + 8 * g)) ++ leBytes 4 (ssq (0x44 + 8 * g)))).flatten

/-- Send a record to every other member in frames of 256 bytes. -/
def State.sendRecord (s : State) (i : Nat) (d : CDesc) (kind : Nat) (bs : List Byte) : State :=
  s.colSend ((((List.range d.n).filter (· != d.me)).map (fun k =>
    (List.range (ceilDiv bs.length 256)).map (fun j =>
      s.colFrame i d 0 none k kind 0 j false ((bs.drop (256 * j)).take 256)))).flatten)

/-- The flag plane of a run of flags, four to a byte, the lowest block in bits [1:0]. -/
def packFlags : List (BitVec 2) → List Byte
  | a :: b :: c :: d :: rest => (d ++ (c ++ (b ++ a))) :: packFlags rest
  | [] => []
  | l => [BitVec.ofNat 8 (l.foldr (fun f n => f.toNat + 4 * n) 0)]

/-- The own chunk of the flag plane starts its gather (R410). -/
def State.planeStart (s : State) (i : Nat) (d : CDesc) (r : SideRun) : State :=
  let bs := packFlags r.flags
  let fr := ceilDiv bs.length 256
  let asc := (fr + 1) / 2
  s.colSend ((List.range fr).map (fun k =>
    let b := (bs.drop (256 * k)).take 256
    if k < asc then (s.halfFrame i d true d.n k b false).2 else (s.halfFrame i d false d.n (k - asc) b false).2))

/-- Records of a descriptor whose STEP_TAG is a step's, by ring index. -/
def Colld.recordsOf (x : Colld) (off tag : Nat) : List (Nat × List Byte) :=
  x.records.filter (fun r => field r.2 off 4 == tag)

/-- Discard records whose STEP_TAG is earlier than a step's, with VERDICT_MISMATCH each (R409). -/
def State.dropOld (s : State) (i : Nat) (p : PartId) (off : Nat) : State :=
  let tag := bfld (s.stepOf p).index 0 32
  let old := fun (r : Nat × List Byte) =>
    let t : Word32 := BitVec.ofNat 32 (field r.2 off 4)
    decide (t ≠ tag) && notLater t tag
  let n := ((s.colld i).records.filter old).length
  (List.range n).foldl (fun (t : State) _ => t.verdictMismatch p)
    (s.modColld i (fun x => { x with records := x.records.filter (fun r => !(old r)) }))

/-- The verdict is known (R411): it reaches the partition. -/
def State.verdictKnown (s : State) (i : Nat) (p : PartId) (w : BitVec 16) : State :=
  (s.modColld i (fun x => { x with side := x.side.map (fun r => { r with known := some w }) })).verdictIn p
    (bfld (s.stepOf p).index 0 32) w

/-- The X leg ends once the records of every member are in (R411): the OR is the verdict. -/
def State.xlegTry (s : State) (i xi : Nat) (p : PartId) : State :=
  let x := s.colld xi
  let d := x.desc
  let tag := fld (s.stepOf p).index 0 32
  match (s.colld i).side with
  | none => s
  | some r =>
    let got := x.recordsOf 4 tag
    if r.inXleg && r.known.isNone && (s.colld i).desc.xdesc == xi && decide (got.length + 1 = d.n) then
      let w : BitVec 16 := BitVec.ofNat 16 (got.foldl (fun a b => a ||| field b.2 0 2) ((r.yResult.getD 0).toNat))
      let s1 := s.modColld xi (fun x => { x with
        state := .armed, inst := x.inst + 1, last := 0
        records := x.records.filter (fun r => field r.2 4 4 != tag) })
      (s1.modFab 0 (fun f => { f with collInst := f.collInst + 1 })).verdictKnown i p w
    else s

/-- Engine 0 enters the X leg with the Y-leg result (R411). A descriptor that is not an ARMED X leg forms no
verdict. -/
def State.xlegEnter (s : State) (i : Nat) (d : CDesc) (w : BitVec 16) : State :=
  if d.xdesc = 0xFFFF then s.verdictKnown i d.part w
  else
    let x := s.colld d.xdesc
    if d.xdesc < 4096 ∧ x.state = .armed ∧ x.desc.xleg then
      let s1 := (s.modColld d.xdesc (fun x => { x with state := .active })).modColld i (fun x =>
        { x with side := x.side.map (fun r => { r with inXleg := true }) })
      let bs := leBytes 2 w.toNat ++ leBytes 2 0 ++ leBytes 4 (fld (s.stepOf d.part).index 0 32) ++ leBytes 8 0
      (((s1.sendRecord d.xdesc x.desc 4 bs).dropOld d.xdesc d.part 4).xlegTry i d.xdesc d.part)
    else s

/-- The Y leg ends once every record is in (R409): the reduction is written at STATS_ADDR, the flag plane sets out, and
the Y-leg result goes on. -/
def State.sideTry (s : State) (i : Nat) : State :=
  let x := s.colld i
  let d := x.desc
  let tag := fld (s.stepOf d.part).index 0 32
  match x.side with
  | none => s
  | some r =>
    let got := x.recordsOf 4 tag
    if r.sent && r.yResult.isNone && decide (got.length = d.n) then
      let rs := (List.range d.n).map (fun k => ((got.find? (fun e => e.1 == k)).map (·.2)).getD [])
      let red := reduceRecords d rs
      let spread := field red 0x10 8 - field red 8 8
      let lim := max (fld s.coll.cfg 0 16) 1 * 1000
      let w0 : BitVec 16 := BitVec.ofNat 16 (field red 0 2)
      let w := if lim ≤ spread then setBit w0 6 true else w0
      let s1 := s.modColld i (fun x => { x with
        records := x.records.filter (fun r => field r.2 4 4 != tag)
        side := x.side.map (fun r => { r with yResult := some w }) })
      ((s1.bufWrite i d.part d.stats red []).planeStart i d r).xlegEnter i d w
    else s

/-- What the member does to send its side record once its data phase is over and its stop bits are handed over
(R409). -/
def State.sideSend (p : PartId) (s : State) : Res :=
  match s.sideOf p, (s.stepOf p).stopWord with
  | some (i, r), some w =>
    if r.sent then .next s
    else
      let d := (s.colld i).desc
      let stop := w ||| bfld (s.part p).collSide 0 16
      let bs := s.sideRecord d r stop
      let s1 := (s.sendRecord i d 3 bs).modColld i (fun x => { x with
        side := x.side.map (fun r => { r with sent := true }), records := x.records ++ [(d.me, bs)] })
      .next ((s1.dropOld i p 4).sideTry i)
  | _, _ => .next s

/-- SIDE_RECORD_SEND, once the regulators admit its writes. -/
def execSideRecordSend (p : PartId) (s : State) : Res := s.gated 4 (settled (State.sideSend p))

/-- A record frame joins what has come of its record; a whole record leaves `parts` for `records`. -/
def State.recordFrame (s : State) (i size : Nat) (f : Frame) : State :=
  match s.indexOf (s.colld i).desc (frSrc f) with
  | none => s
  | some k =>
    let had := (((s.colld i).parts.find? (fun e => e.1 == k)).map (·.2)).getD []
    let all := had ++ frData f
    s.modColld i (fun x =>
      let rest := x.parts.filter (fun e => e.1 != k)
      if size ≤ all.length then { x with parts := rest, records := x.records ++ [(k, all.take size)] }
      else { x with parts := rest ++ [(k, all)] })

/-- What a received side record frame does (R409). -/
def State.sideReceive (s : State) : Res :=
  match s.takeFrame 0 4 3 with
  | none => .next s
  | some (f, s0) =>
    let i := frAddr f % 2 ^ 24
    let s1 := s0.consumed 0 f 0
    let x := s1.colld i
    if 4096 ≤ i ∨ x.state = .idle ∨ x.state = .failed then .next s1
    else
      let s2 := s1.recordFrame i (0x40 + 8 * x.desc.gCount) f
      .next ((s2.dropOld i x.desc.part 4).sideTry i)

/-- SIDE_RECORD_RECEIVE, once the regulators admit its writes. -/
def execSideRecordReceive (s : State) : Res := s.gated 4 (settled State.sideReceive)

/-- An X-leg record is received (R411). -/
def execXlegRecord (s : State) : Res :=
  match s.takeFrame 0 4 4 with
  | none => .next s
  | some (f, s0) =>
    let xi := frAddr f % 2 ^ 24
    let s1 := s0.consumed 0 f 0
    let x := s1.colld xi
    if 4096 ≤ xi ∨ x.state = .idle ∨ x.state = .failed then .next s1
    else
      let s2 := s1.recordFrame xi 16 f
      let p := x.desc.part
      match s2.sideOf p with
      | some (i, _) => .next ((s2.dropOld xi p 4).xlegTry i xi p)
      | none => .next s2

/-! ### The build of the mordant tables (R89, R408, R410) -/

/-- R89 for one block word. -/
def buildWord (g : GradGroup) (flag : BitVec 2) (w : Word32) : Word32 :=
  let m := fld w 0 8
  let run := fld w 8 8
  let fade := fld w 16 16
  let floor := min (fld g.cfg 0 8) 0xFE
  let halve := max (fld g.cfg 8 8) 1
  let mk := fun (m run fade : Nat) => (BitVec.ofNat 32 (fade * 65536 + run * 256 + m) : Word32)
  if m = 0xFF then w
  else
    match flag with
    | 3 => mk (min (m + 1) 0xFE) 0 0
    | 0 => mk m 0 0
    | _ =>
      let run1 := run + 1
      let down := decide (halve ≤ run1) && decide (floor < m)
      let m1 := if down then m - 1 else m
      let run2 := if down then 0 else if halve ≤ run1 then halve else run1
      mk m1 run2 (if flag = 2 ∧ m1 = floor then min (fade + 1) 65535 else 0)

/-- Build the inactive version of a group from its active version and its flags; the own chunk's BLEED blocks among
them are counted for WITHHELD. -/
def State.buildGroup (s : State) (g : Fin 256) (flags : List (BitVec 2)) (own : Nat → Bool) : State :=
  let x := s.group g
  let act := bit x.status 2
  let n := x.blocks.toNat
  let old := (List.range n).map (s.blockWord x act)
  let new := old.zipIdx.map (fun q => buildWord x (flags.getD q.2 0) q.1)
  let th := x.threshold
  let fades := (List.zipWith (fun (a b : Word32) => decide (fld a 16 16 + 1 = th) && decide (fld b 16 16 = th)) old new).filter id
  let s1 := s.sees x.part false none (x.version act) (4 * n)
  let s2 := (s1.dramWrite .build (x.version (!act)) ((new.map (fun w => leBytes 4 w.toNat)).flatten)).charge x.part false
    (x.version (!act)) (4 * n)
  s2.modGroup g (fun y => { y with
    status := setBit y.status 1 true, newFades := fades.length, faded := x.fadedOf new
    bleeds := ((List.range n).filter (fun j => own j && flags.getD j 0 == 3)).length })

/-- Flags of chunk j, from the own chunk or the frames of the plane; none while frames are missing. -/
def SideRun.chunkFlags (r : SideRun) (d : CDesc) (j : Nat) : Option (List (BitVec 2)) :=
  if j = d.me then some r.flags
  else
    let fr := ceilDiv (r.planeLen j) 256
    let part := fun (k : Nat) => r.plane.find? (fun e => e.1 == j && e.2.1 == k)
    if (List.range fr).all (fun k => (part k).isSome) then
      let bs := ((List.range fr).map (fun k => ((part k).map (·.2.2)).getD [])).flatten
      some ((List.range (r.lens.getD j 0)).map (fun b => bfld (bs.getD (b / 4) 0) (2 * (b % 4)) 2))
    else none

/-- Every chunk's flags once the whole plane is in. -/
def SideRun.chunks (r : SideRun) (d : CDesc) : Option (List (List (BitVec 2))) :=
  (List.range d.n).foldl (fun acc j =>
    match acc, r.chunkFlags d j with
    | some l, some m => some (l ++ [m])
    | _, _ => none) (some [])

/-- Every block's flag once the whole plane is in. -/
def SideRun.allFlags (r : SideRun) (d : CDesc) : Option (List (BitVec 2)) := (r.chunks d).map List.flatten

/-- The gathered plane, each chunk packed by itself, is written at FLAGS_ALL and the inactive version of every enabled group of the partition is
built, a group the verdict collective does not cover as if every block were NORMAL (R408, R410). -/
def State.tableBuild (p : PartId) (s : State) : Res :=
  match s.sideOf p with
  | none => .next s
  | some (i, r) =>
    let d := (s.colld i).desc
    match r.yResult, r.chunks d with
    | some _, some chunks =>
      if r.built then .next s
      else
        let flags := chunks.flatten
        let s1 := s.bufWrite i p d.flags (chunks.map packFlags).flatten []
        let own0 := sumOf (r.lens.take d.me)
        let own1 := own0 + r.lens.getD d.me 0
        let s2 := ((s1.groupsOf p).filter (fun g => (s1.group g).enabled)).foldl (fun t g =>
          if decide (d.gFirst ≤ g.val) && decide (g.val < d.gFirst + d.gCount) then
            let b0 := sumOf ((t.coveredBlocks d).take (g.val - d.gFirst))
            t.buildGroup g ((flags.drop b0).take (t.group g).blocks.toNat)
              (fun j => decide (own0 ≤ b0 + j) && decide (b0 + j < own1))
          else t.buildGroup g [] (fun _ => false)) s1
        .next (s2.modColld i (fun x => { x with side := x.side.map (fun r => { r with built := true }) }))
    | _, _ => .next s

/-- TABLE_BUILD_COMPLETE, once the regulators admit its writes. -/
def execTableBuildComplete (p : PartId) (s : State) : Res := s.gated 4 (settled (State.tableBuild p))

/-! ### Commands of the register block (R395, R412, R419) -/

/-- RESULT of COLL_CMD_STATUS. -/
def State.collResult (s : State) (n : Nat) : State :=
  { s with coll := { s.coll with cmdStatus := BitVec.ofNat 32 n } }

/-- COLL_CMD arm (R395). -/
def State.collArmOp (s : State) (i : Nat) : State :=
  let x := s.colld i
  let d := x.desc
  let clash := s.coll.descs.any (fun e =>
    e.1 != i && e.2.state != .idle && e.2.desc.axis == d.axis && e.1 % 16 == i % 16)
  let fits := fun (f : FabId) =>
    let r := s.reserved f
    withinRob (r.1 + d.streams f * d.credits, r.2 + d.streams f)
  if x.state ≠ .idle then s.collResult 5
  else if d.good s = false then s.collResult 4
  else if clash then s.collResult 3
  else if !((allFin 2).all fits) then (s.sysEvent 4 0x23 .event 0x09).collResult 2
  else
    (s.setColld i { x with
      state := .armed, inst := d.inst0, arrived := [], next := [], early := [], records := [], parts := []
      now := none, side := none, failed := 0 }).collResult 1

/-- COLL_CMD disarm (R395): arrivals waiting complete with CL_NOT_ARMED. -/
def State.collDisarmOp (s : State) (i : Nat) : State :=
  let x := s.colld i
  match x.state with
  | .armed | .failed =>
    let s1 := (x.arrived ++ x.next).foldl (fun t a => t.clDone a 0x10 []) s
    (s1.setColld i { x with
      state := .idle, now := none, arrived := [], next := [], early := [], records := [], parts := []
      side := none, failed := 0 }).collResult 1
  | _ => s.collResult 5

/-- COLL_CMD with OP arm. -/
def execCollArm (by_ : Requester) (i : Fin 4096) (s : State) : Res := s.regWrite by_ 4 false (fun s => s.collArmOp i.val)
/-- COLL_CMD with OP disarm. -/
def execCollDisarm (by_ : Requester) (i : Fin 4096) (s : State) : Res :=
  s.regWrite by_ 4 false (fun s => s.collDisarmOp i.val)

/-- A write of 1 to COLLD_STATUS[i].TAG_OUT (R412, R420); open to contexts of the descriptor's partition (R585). -/
def execColldTagOutClear (by_ : Requester) (i : Fin 4096) (s : State) : Res :=
  s.regWrite by_ 4 (s.opensPart by_ (s.colld i.val).desc.part)
    (fun s => s.modColld i.val (fun x => { x with tagOut := false }))

end Sys2Proof.Machine
end

