-- ==== Sys2Proof/Machine/Sync.lean ====
section
/-!
DEFINITION. The synchronisation class (sy, R200 to R202, R242 to R244), the arrival of signals at latches (R250 to
R255, Table 8-1) and the return of a waiting sy.wait.
-/
namespace Sys2Proof.Machine

/-- Decode check of an sy or st instruction: the fields it does not name are zero (R179). -/
def fmtYOk (f : FmtY) (latch sa sd imm : Bool) : Bool :=
  (latch || f.latch == 0) && (sa || f.sa == 0) && (sd || f.sd == 0) && (imm || f.imm == 0)

/-- An IMM of 0 is treated as 1 (R242). -/
def amount (imm : Word32) : Word32 := if imm = 0 then 1 else imm

/-- Whether an earlier instruction of a slot still has cell store writes to make (R201). -/
def State.writesPending (s : State) (a : At) : Bool :=
  ((s.cell a.cell).outstanding a.cell s.isLocal a.slot).any (fun o => o.2.any (fun r => r.2.2))

/-- sy.init (R242, R244, R251, R252): the count becomes IMM and the context the owner. -/
def execSyInit (a : At) (p : Pred) (f : FmtY) (s : State) : Res :=
  s.issue a p 5 0x01 ⟨true, fmtYOk f true false false true⟩ [] (fun s =>
    let l := (s.cell a.cell).latch f.latch
    if isStepLatch f.latch then s.trap a 5 0x01 0x09 0
    else
      match l.owner with
      | some o =>
        if o.1 = a.slot then
          .next (((s.countIssue a).modCell a.cell (fun x =>
            x.setLatch f.latch ⟨f.imm, some (a.slot, (s.slot a).job)⟩)).retire a)
        else s.trap a 5 0x01 0x0E 0
      | none =>
        .next (((s.countIssue a).modCell a.cell (fun x =>
          x.setLatch f.latch ⟨f.imm, some (a.slot, (s.slot a).job)⟩)).retire a))

/-- sy.signal (R201, R243): held until earlier cell store writes are made, then IMM goes to a local latch. -/
def execSySignal (a : At) (p : Pred) (f : FmtY) (s : State) : Res :=
  s.issue a p 5 0x02 ⟨true, fmtYOk f true false false true⟩ [] (fun s =>
    if isStepLatch f.latch then s.trap a 5 0x02 0x09 0
    else if s.writesPending a then s.hold a 0
    else .next (((s.countIssue a).signal a.cell f.latch (amount f.imm) false).retire a))

/-- sy.rsignal (R201, R243, R244): the same to a latch of another cell of the partition. -/
def execSyRsignal (a : At) (p : Pred) (f : FmtY) (s : State) : Res :=
  s.issue a p 5 0x07 ⟨true, fmtYOk f true true false true⟩ [f.sa] (fun s =>
    let c : CellId := ⟨fld (s.sreg a f.sa) 0 6, by unfold fld; omega⟩
    if isStepLatch f.latch then s.trap a 5 0x07 0x09 0
    else if s.partOf c ≠ s.partOf a.cell then s.trap a 5 0x07 0x0E 0
    else if s.writesPending a then s.hold a 0
    else .next (((s.countIssue a).signal c f.latch (amount f.imm) false).retire a))

/-- Whether a latch may be named by sy.wait or sy.poll (R38, R244). -/
def waitable (l : BitVec 6) : Bool := !(isStepLatch l) || l == 62

/-- sy.wait (R242, R243, R252): returns 1 at once on an unowned latch, 0 where the count suffices, else waits. -/
def execSyWait (a : At) (p : Pred) (f : FmtY) (s : State) : Res :=
  s.issue a p 5 0x03 ⟨true, fmtYOk f true false true true⟩ [f.sd] (fun s =>
    let l := (s.cell a.cell).latch f.latch
    let n := amount f.imm
    if !(waitable f.latch) then s.trap a 5 0x03 0x09 0
    else if s.latchOwned a.cell f.latch = false then s.finish a (·.setS f.sd 1)
    else if n.toNat ≤ l.count.toNat then
      .next ((((s.countIssue a).modCell a.cell (fun x => x.setLatch f.latch { l with count := l.count - n })).modCtx a
        (·.setS f.sd 0)).retire a)
    else .next (((s.countIssue a).stall a 0x6).modSlot a (fun x => { x with wait := .latch f.latch n f.sd })))

/-- A waiting sy.wait completes: the count suffices, or the latch has been abandoned (R242, R253). -/
def execLatchWaitReturn (a : At) (s : State) : Res :=
  match (s.slot a).wait with
  | .latch k n sd =>
    let l := (s.cell a.cell).latch k
    if s.latchOwned a.cell k && decide (n.toNat ≤ l.count.toNat) then
      .next ((((s.stall a 0).modCell a.cell (fun x => x.setLatch k { l with count := l.count - n })).modCtx a
        (·.setS sd 0)).retire a)
    else .next s
  | .abandoned sd => .next (((s.stall a 0).modCtx a (·.setS sd 1)).retire a)
  | _ => .next s

/-- sy.poll (R243, R252): the count, 0 of an unowned latch; no wait. -/
def execSyPoll (a : At) (p : Pred) (f : FmtY) (s : State) : Res :=
  s.issue a p 5 0x04 ⟨true, fmtYOk f true false true false⟩ [f.sd] (fun s =>
    if !(waitable f.latch) then s.trap a 5 0x04 0x09 0
    else
      s.finish a (·.setS f.sd (if s.latchOwned a.cell f.latch then
        ((s.cell a.cell).latch f.latch).count.zeroExtend 64 else 0)))

/-- Whether a queue of a sy.fence mask still has an instruction of the slot (R202). -/
def Cell.fenceHeld (x : Cell) (i : SlotId) (m : Word32) : Bool :=
  let on := fun (k : Nat) => m == 0 || bit m k
  (on 0 && x.eng.plateBusy i) || (on 1 && x.eng.vecBusy i) || (on 2 && x.eng.moverBusy i) ||
  (on 3 && x.eng.collBusy i) || (on 4 && x.eng.traceBusy i)

/-- sy.fence (R202): holds issue until the named queues have completed. -/
def execSyFence (a : At) (p : Pred) (f : FmtY) (s : State) : Res :=
  s.issue a p 5 0x05 ⟨true, fmtYOk f false false false true && decide (f.imm.toNat < 32)⟩ [] (fun s =>
    if (s.cell a.cell).fenceHeld a.slot f.imm then s.hold a 0 else s.finish a id)

/-- The latch a yielding context keeps as its wake latch (R260, R261). -/
def Slot.wakeLatch (x : Slot) : Option (BitVec 6) :=
  if fld x.ctxCtl 0 3 = 1 ∧ fld x.ctxCtl 3 6 < 60 then some (bfld x.ctxCtl 3 6) else none

/-- The wake condition CTX_CTL asks for (R261); a WAKE_LATCH above 59 is none. -/
def Slot.wakeCond (x : Slot) : WakeCond :=
  match fld x.ctxCtl 0 3 with
  | 1 => match x.wakeLatch with
    | some l => .latch l
    | none => .none
  | 2 => .verdict
  | 3 => .time
  | _ => .none

/-- Whether a vx instruction writes a v or s register, or still has a v register to read (R260). -/
def VxInstr.regBound (m : VxInstr) (queued : Bool) : Bool :=
  let isReg := fun (x : Spec) => match x with | .reg _ => true | _ => false
  let isS := fun (x : Spec) => match x with | .scalar _ => true | _ => false
  isReg (specOf m.vi m.d) || isS (specOf m.vi m.d) ||
  (queued && (isReg (specOf m.vi m.a) || isReg (specOf m.vi m.b) || isReg (specOf m.vi m.c)))

/-- Whether a dm or cl instruction still has to signal a latch that a yield waits for. -/
def FmtQ.owesSignal (f : FmtQ) (keep : Option (BitVec 6)) : Bool := f.len == 1 && keep != some f.latch

/-- Whether a yield is held (R260). -/
def State.yieldHeld (s : State) (a : At) : Bool :=
  let x := s.cell a.cell
  let e := x.eng
  let keep := (x.slot a.slot).wakeLatch
  e.plateBusy a.slot ||
  e.vecQ.any (fun m => m.tag.slot == a.slot && m.regBound true) ||
  (match e.vecRun with | some r => r.ins.tag.slot == a.slot && r.ins.regBound false | none => false) ||
  e.results.any (fun r => r.slot == a.slot) ||
  e.moverQ.any (fun m => m.tag.slot == a.slot && FmtQ.owesSignal m.f keep) ||
  e.xfers.toList.any (fun r => match r with
    | some t => t.ins.tag.slot == a.slot && !t.discarded && FmtQ.owesSignal t.ins.f keep
    | none => false) ||
  e.clQ.any (fun m => m.tag.slot == a.slot && FmtQ.owesSignal m.f keep) ||
  (s.clOutstanding a).any (fun m => FmtQ.owesSignal m.f keep)

/-- sy.yield (R260): held, then VAT_LIVE, or it retires and the switch follows. -/
def execSyYield (a : At) (p : Pred) (f : FmtY) (s : State) : Res :=
  s.issue a p 5 0x06 ⟨true, fmtYOk f false false false false⟩ [] (fun s =>
    if s.yieldHeld a then s.hold a 0
    else if (s.cell a.cell).vatAnyLive then s.trap a 5 0x06 0x0C 0
    else
      .next ((((s.countIssue a).modSlot a (fun x => { x with wake := x.wakeCond })).retire a).modCell a.cell
        (fun x => { x with switch := .yield a.slot })))

/-- LATCH_LOST (R252). -/
def State.latchLost (s : State) (c : CellId) : State :=
  s.report { (s.errRec (dieOf c) (sysStatus 0x0C) .event).withCell s c with engine := 0x0F }

/-- A count after a signal, saturating (R242). -/
def addCount (c n : Word32) : Word32 := BitVec.ofNat 32 (min (c.toNat + n.toNat) (2 ^ 32 - 1))

/-- The oldest signal on its way to a cell reaches its latch (Table 8-1). -/
def execLatchSignalArrive (c : CellId) (s : State) : Res :=
  match (s.cell c).signals with
  | [] => .next s
  | g :: rest =>
    let s1 := s.modCell c (fun x => { x with signals := rest })
    let l := (s1.cell c).latch g.latch
    if s1.latchOwned c g.latch then
      if isStepLatch g.latch && !g.step then .next s1
      else .next (s1.modCell c (fun x => x.setLatch g.latch { l with count := addCount l.count g.amount }))
    else if isStepLatch g.latch then .next s1
    else .next (s1.latchLost c)

end Sys2Proof.Machine
end

