-- ==== Sys2Proof/Machine/StepCtl.lean ====
section
/-!
DEFINITION. The step class (st) and the step logic of a partition (R35 to R66, R245, R246, R254): st instructions on
lead and other cells, the two barriers, the verdict and its timeouts, the boundary procedure, and writes of the STEP
block.
-/
namespace Sys2Proof.Machine

/-! ### st.open -/

/-- A new step of a partition opens (Table 2-2, R56, R93, R245, R407, R438, R450). -/
def State.stepOpen (s : State) (p : PartId) : State :=
  let fade := (s.stepOf p).fade
  let s1 := s.modStep p (fun t => { t.setPhase .expose with
    verdict := 0
    status := setFld (setFld (setFld t.status 0 3 1) 3 2 0) 8 7 0
    stage := .idle, stopWord := none, delivered := none, fade := false, poisonFound := false })
  let s2 := s1.modPart p (fun x => { x with collSide := 0, verdictSeen := false })
  let s3 := s2.mapColld (fun x => if x.desc.part = p then { x with side := none } else x)
  let s4 := (s3.cellsOf p).foldl (fun t c => t.modCell c (fun x =>
    let y := x.modSlot 0 (fun z => { z with grain := { z.grain with seeded := false }, openDone := false })
    { y.setLatch 62 ⟨0, none⟩ with
      frozen := false, stopBits := if fade then setBit (0 : BitVec 16) 4 true else 0 })) s3
  let on := bit (s4.stepOf p).ctl 1
  let code := fld (s4.twin p).status 29 3
  let s5 := s4.modTwin p (fun t => { t with status := setFld t.status 26 2 0, bodyStep := none, sealAck := false })
  let s6 := if on && code != 1 && code != 2 && !(s5.twin p).lostRecorded then
      (s5.modTwin p (fun t => { t with lostRecorded := true })).twinEvent p 0x35 0
    else s5
  (({ s6 with route := { s6.route with anyOpen := true } }).streamOpen p).signalAll p 60

/-- PHASE_FAULT of an st instruction, which moves a partition that is not CLOSED to ABORTED where its step latches are
abandoned (R38). -/
def State.stPhaseFault (s : State) (a : At) (op : Byte) (abandoned : Option PartId) : Res :=
  let t := (s.countIssue a).coreFault a 7 op 0x0A 0
  match abandoned with
  | some q => .next (t.abort q 3)
  | none => .next t

/-- st.open (Table 2-2, R38, R267): the lead cell is held until CLOSED and opens the step; another cell waits for its
latch 60. -/
def execStOpen (a : At) (p : Pred) (f : FmtY) (s : State) : Res :=
  s.issue a p 7 0x01 ⟨true, fmtYOk f false false false false⟩ [] (fun s =>
    match s.partOf a.cell with
    | none => s.stPhaseFault a 0x01 none
    | some q =>
      if a.slot ≠ 0 then s.stPhaseFault a 0x01 none
      else if (s.stepOf q).armed = false then s.stPhaseFault a 0x01 (some q)
      else if s.leadOf q = some a.cell then
        if s.closed q then
          .next ((((s.countIssue a).stepOpen q).modSlot a (fun x => { x with openDone := true })).retire a)
        else s.hold a 0x7
      else .next (((s.countIssue a).stall a 0x7).modSlot a (fun x => { x with wait := .stOpen })))

/-- A held st.open is released by latch 60 of its cell (Table 2-2). -/
def execStOpenRelease (c : CellId) (s : State) : Res :=
  let a : At := ⟨c, 0⟩
  let l := (s.cell c).latch 60
  if (s.slot a).wait = .stOpen ∧ 1 ≤ l.count.toNat then
    .next ((((s.stall a 0).modCell c (fun x => x.setLatch 60 { l with count := l.count - 1 })).modSlot a
      (fun x => { x with openDone := true })).retire a)
  else .next s

/-! ### st.stop -/

/-- Whether a vx instruction can set a stop bit (R148): a summary with VERDICT, a conversion into G16 or AC8. -/
def VxInstr.setsStop (m : VxInstr) : Bool := (m.op == 0x30 && !m.vi && bit m.fn 13) || m.tabled || m.dstFmt == .ac8

/-- Whether an mx instruction can set a stop bit: a drain into AC8. -/
def MxInstr.setsStop (m : MxInstr) : Bool := m.kind == .drain && (tileOf m.ta).elem == .ac8

/-- Whether an earlier instruction of the slot that can set a stop bit has not retired (R148). -/
def Engines.stopHeld (e : Engines) (i : SlotId) : Bool :=
  e.vecQ.any (fun m => m.tag.slot == i && m.setsStop) ||
  (match e.vecRun with | some r => r.ins.tag.slot == i && r.ins.setsStop | none => false) ||
  e.results.any (fun r => r.slot == i) ||
  e.plateQ.any (fun m => m.tag.slot == i && m.setsStop) ||
  e.plateRun.any (fun r => r.ins.tag.slot == i && r.ins.setsStop)

/-- A lead cell arrives at its own barrier: its latch takes its arrival and it waits; with the step latches abandoned it
is released ABANDONED at once and the partition moves to ABORTED (R38, R253, R254). -/
def State.leadArrives (s : State) (a : At) (q : PartId) (l : BitVec 6) (w : Wait) : State :=
  if (s.stepOf q).armed then
    let x := (s.cell a.cell).latch l
    (((s.countIssue a).stall a 0x7).modCell a.cell (fun y =>
      y.setLatch l { x with count := addCount x.count 1 })).modSlot a (fun y => { y with wait := w })
  else
    let r := { (s.errRec (dieOf a.cell) (sysStatus 0x0D) .event).withCtx s a with engine := 0x0F }
    ((((s.countIssue a).report r).retire a)).abort q 3

/-- Freeze the stop bits of a cell, ABORT added where asked (R43, R44). -/
def Cell.freeze (x : Cell) (abort : Bool) : Cell :=
  { x with frozen := true, stopBits := if abort && !x.frozen then setBit x.stopBits 2 true else x.stopBits }

/-- st.stop (Table 2-2, R148, R267). -/
def execStStop (a : At) (p : Pred) (f : FmtY) (s : State) : Res :=
  s.issue a p 7 0x02 ⟨true, fmtYOk f false false false true && decide (f.imm.toNat < 2)⟩ [] (fun s =>
    match s.partOf a.cell with
    | none => s.stPhaseFault a 0x02 none
    | some q =>
      if a.slot ≠ 0 ∨ s.phase q ≠ .expose then s.stPhaseFault a 0x02 none
      else if (s.cell a.cell).eng.stopHeld a.slot then s.hold a 0x9
      else
        let s1 := s.modCell a.cell (·.freeze (bit f.imm 0))
        if s.leadOf q = some a.cell then .next (s1.leadArrives a q 61 .stStop)
        else
          match s.leadOf q with
          | some lead => .next (((s1.countIssue a).signal lead 61 1 true).retire a)
          | none => .next s)

/-- Arrivals a barrier needs: every cell of the partition. -/
def State.arrivalsNeeded (s : State) (p : PartId) : Nat := (s.cellsOf p).length

/-- Whether the lead cell waits at a barrier whose latch has every arrival. -/
def State.barrierFull (s : State) (p : PartId) (l : BitVec 6) (w : Wait) : Option CellId :=
  match s.leadOf p with
  | none => none
  | some c =>
    if ((s.cell c).slot 0).wait = w ∧ s.arrivalsNeeded p ≤ ((s.cell c).latch l).count.toNat then some c else none

/-- Take the arrivals of a barrier from its latch. -/
def State.takeArrivals (s : State) (p : PartId) (c : CellId) (l : BitVec 6) : State :=
  let x := (s.cell c).latch l
  s.modCell c (fun y => y.setLatch l { x with count := x.count - BitVec.ofNat 32 (s.arrivalsNeeded p) })

/-- The OR of the frozen stop bits of a partition (R44). -/
def State.partStop (s : State) (p : PartId) : BitVec 16 :=
  (s.cellsOf p).foldl (fun w c => w ||| (s.cell c).stopBits) 0

/-- The lead cell goes on after a barrier. -/
def State.leadGoesOn (s : State) (c : CellId) : State :=
  s.modCell c (fun y => { (y.modSlot 0 Slot.retire) with regs := { y.regs with stall := 0 } })

/-- The last arrival at st.stop (Table 2-2, R44, R46, R462): STOP, and the stop bits go to the verdict collective; a
refix step has its record's verdict at once. -/
def execStopBarrierComplete (p : PartId) (s : State) : Res :=
  if s.phase p ≠ .expose then .next s
  else
    match s.barrierFull p 61 .stStop with
    | none => .next s
    | some c =>
      let w := s.partStop p
      let s1 := ((s.takeArrivals p c 61).modStep p (fun t => { t.setPhase .stop with
        verdict := setFld t.verdict 16 16 w.toNat, stopWord := some w })).leadGoesOn c
      if (s.stepOf p).refix then
        .next (s1.verdictIn p (bfld (s.stepOf p).index 0 32) (s1.refixVerdict p))
      else .next s1

/-! ### The verdict -/

/-- A reduced verdict reaches the partition with its tag (R45, R450). -/
def execVerdictArrival (p : PartId) (tag : Word32) (reduced : BitVec 16) (s : State) : Res :=
  .next (s.verdictIn p tag reduced)

/-- Whether the verdict timeout of a partition runs (R59): from the lead cell's wait at st.stop to the verdict. -/
def State.verdictAwaited (s : State) (p : PartId) : Bool :=
  match s.phase p with
  | .stop => true
  | .expose =>
    match s.leadOf p with
    | some c => ((s.cell c).slot 0).wait == .stStop
    | none => false
  | _ => false

/-- The verdict timeout expires (R59, R61). -/
def execVerdictTimeout (p : PartId) (s : State) : Res :=
  if s.verdictAwaited p then
    .next ((s.report { (s.errRec 4 (sysStatus 0x03) .partition).withPart s p with engine := 0x0F, action := 4 }).abort p 1)
  else .next s

/-- A wait of R48 step 2 or step 6 exceeds its timeout (R60). -/
def execTwinAckTimeout (p : PartId) (s : State) : Res :=
  if s.phase p = .fix ∧ s.waitsOnTwin p then
    .next ((s.report { (s.errRec 4 (sysStatus 0x04) .partition).withPart s p with engine := 0x0F, action := 4 }).abort p 2)
  else .next s

/-! ### st.fix and the boundary procedure -/

/-- st.fix (Table 2-2, R203, R267). -/
def execStFix (a : At) (p : Pred) (f : FmtY) (s : State) : Res :=
  s.issue a p 7 0x03 ⟨true, fmtYOk f false false false false⟩ [] (fun s =>
    match s.partOf a.cell with
    | none => s.stPhaseFault a 0x03 none
    | some q =>
      let e := (s.cell a.cell).eng
      if a.slot ≠ 0 ∨ s.phase q ≠ .fix then s.stPhaseFault a 0x03 none
      else if e.vecBusy a.slot || e.moverBusy a.slot then s.hold a 0
      else if s.leadOf q = some a.cell then .next (s.leadArrives a q 63 .stFix)
      else
        match s.leadOf q with
        | some lead => .next (((s.countIssue a).signal lead 63 1 true).retire a)
        | none => .next s)

/-- Whether a gather tag of a partition is outstanding (R412). -/
def State.tagsOut (s : State) (p : PartId) : Bool := s.coll.descs.any (fun e => e.2.tagOut && e.2.desc.part == p)

/-- The last arrival at st.fix (R48 step 1, R49, R211). With tags outstanding the lead cell's st.fix takes
GATHER_OUTSTANDING and the arrivals of the other cells stand. A commit goes on to its wait on the negative, a skip to
the seal; a refix omits the seal (R462). -/
def execFixBarrierComplete (p : PartId) (s : State) : Res :=
  if s.phase p ≠ .fix ∨ (s.stepOf p).stage ≠ .idle then .next s
  else
    match s.barrierFull p 63 .stFix with
    | none => .next s
    | some c =>
      if s.tagsOut p then
        let a : At := ⟨c, 0⟩
        let x := (s.cell c).latch 63
        let s1 := (s.instrEvent c ((s.slot a).tag 0 7 0x03 false) .core 0x0B 0 0).modCell c
          (fun y => y.setLatch 63 { x with count := x.count - 1 })
        .next (s1.leadGoesOn c)
      else
        let s1 := s.takeArrivals p c 63
        if (s.stepOf p).commit then .next (s1.modStep p (fun t => { t with stage := .waitNegative }))
        else
          let s2 := s1.modStep p (fun t => { t with stage := .sealWait })
          .next (if (s.stepOf p).refix then s2 else s2.sealSend p)

/-- R48 steps 2 to 5 once the negative this Fix replaces is complete: the update count advances, the pages written are
write-protected again, and the record is sealed. -/
def execFixCommitAdvance (p : PartId) (s : State) : Res :=
  let t := s.stepOf p
  if s.phase p = .fix ∧ t.stage = .waitNegative ∧
      (s.twinOn p = false ∨ t.refix ∨ (s.twin p).hasNegative t.updateCount = true) then
    let s1 := (s.modStep p (fun t => { t with updateCount := t.updateCount + 1, stage := .sealWait })).streamReset p
    .next (if t.refix then s1 else s1.sealSend p)
  else .next s

/-- Whether a mordant table build of the partition is still to come (R90, R410). -/
def State.buildPending (s : State) (p : PartId) : Bool :=
  match s.sideOf p with
  | some (_, r) => !r.built
  | none => false

/-- R48 steps 6 to 8: once the seal is acknowledged and the tables are built, the boundary. -/
def execStepBoundary (p : PartId) (s : State) : Res :=
  let t := s.stepOf p
  if s.phase p = .fix ∧ t.stage = .sealWait ∧ (s.twinOn p = false ∨ t.refix ∨ (s.twin p).sealAck) ∧
      s.buildPending p = false then .next (s.boundary p)
  else .next s

/-! ### st.seed -/

/-- st.seed (R56, R151, R153, Table 7-14). -/
def execStSeed (a : At) (p : Pred) (f : FmtY) (s : State) : Res :=
  let ok : Checks := ⟨true, fmtYOk f false true (a.slot != 0) false && !(a.slot != 0 && f.sd == 31)⟩
  let names := if a.slot = 0 then [f.sa] else [f.sa, f.sd, f.sd + 1]
  s.issue a p 7 0x04 ok names (fun s =>
    let g := (s.slot a).grain
    let seq := bfld (s.sreg a f.sa) 0 32
    let seed := fun (t : State) (js si : Word64) =>
      (((t.countIssue a).setGrain a { g with
        seeded := true, seqSlot := seq, jobSeed := js, stepIndex := si, keyBase := g.laneBase, counters := [] }).retire a)
    if a.slot ≠ 0 then .next (seed s (s.sreg a f.sd) (s.sreg a (f.sd + 1)))
    else
      match s.partOf a.cell with
      | none => s.stPhaseFault a 0x04 none
      | some q =>
        if s.phase q ≠ .expose then s.stPhaseFault a 0x04 none
        else if (s.slot a).openDone = false then s.trap a 7 0x04 0x0D 0
        else .next (seed s (s.stepOf q).jobSeed (s.stepOf q).index))

/-! ### The STEP block and the explicit apply (R62, R535) -/

/-- A write of INDEX, UPDATE_COUNT, SKIP_COUNT, INPUT_POS or JOB_SEED (R62). -/
def State.stepRegOp (s : State) (p : PartId) (r : Fin 5) (v : Word64) : State :=
  if s.closed p then
    s.modStep p (fun t =>
      match r.val with
      | 0 => { t with index := v }
      | 1 => { t with updateCount := v }
      | 2 => { t with skipCount := v }
      | 3 => { t with inputPos := v }
      | _ => { t with jobSeed := v })
  else s.report { (s.errRec 4 (sysStatus 0x05) .event).withPart s p with engine := 0x0F }

/-- A write of a STEP counter or seed register. -/
def execStepRegWrite (by_ : Requester) (p : PartId) (r : Fin 5) (v : Word64) (s : State) : Res :=
  s.regWrite by_ 4 false (fun s => s.stepRegOp p r v)

/-- CFG_APPLY[p].APPLY (R41, R535): at once in CLOSED, else held for the boundary. -/
def State.cfgApplyOp (s : State) (p : PartId) : State :=
  if s.closed p then s.applyPart p else s.modPart p (fun x => { x with cfgApply := setBit x.cfgApply 1 true })

/-- CFG_APPLY[p] with APPLY 1. -/
def execCfgApply (by_ : Requester) (p : PartId) (s : State) : Res := s.regWrite by_ 5 false (fun s => s.cfgApplyOp p)

end Sys2Proof.Machine
end

