-- ==== Sys2Proof/Machine/Trace.lean ====
section
/-!
DEFINITION. The trace class (tr, R204, R247 to R249): records queued by the control core and written to a ring in
stacked memory.
-/
namespace Sys2Proof.Machine

/-- Queue a trace record (R204, R248); with EN 0 the instruction retires with no effect, a full queue holds it. -/
def State.trDispatch (s : State) (a : At) (op : Byte) (value : Word64) (imm : Word32) : Res :=
  let x := s.cell a.cell
  if bit x.regs.traceCtl 31 = false then s.finish a id
  else if 16 ≤ x.eng.traceQ.length then s.hold a 0
  else
    let origin : Word32 := BitVec.ofNat 32
      (op.toNat * 2 ^ 28 + a.slot.val * 2 ^ 27 + a.cell.val * 2 ^ 21 + (x.slot a.slot).ctx.pc.toNat)
    let step := match s.partOf a.cell with
      | some p => (s.stepOf p).index
      | none => BitVec.allOnes 64
    s.dispatch a (fun e => { e with traceQ := e.traceQ ++ [⟨s.timeOn (dieOf a.cell), value, imm, origin, step⟩] })

/-- tr.mark (Table 7-15). -/
def execTrMark (a : At) (p : Pred) (f : FmtY) (s : State) : Res :=
  s.issue a p 8 0x01 ⟨true, fmtYOk f false false false true⟩ [] (fun s => s.trDispatch a 0x01 0 f.imm)

/-- tr.val. -/
def execTrVal (a : At) (p : Pred) (f : FmtY) (s : State) : Res :=
  s.issue a p 8 0x02 ⟨true, fmtYOk f false true false true⟩ [f.sa] (fun s => s.trDispatch a 0x02 (s.sreg a f.sa) f.imm)

/-- The counters tr.ctr names (Table 7-15). -/
def CellRegs.counter (r : CellRegs) (code : Nat) : Word64 :=
  match code with
  | 0 => r.plateRow | 1 => r.plateMac | 2 => r.plateHold | 3 => r.plateIdle
  | 4 => r.vecBeat | 5 => r.vecOptElem | 6 => r.coreIssue | _ => r.coreStall

/-- tr.ctr; codes 8 to 63 are reserved. -/
def execTrCtr (a : At) (p : Pred) (f : FmtY) (s : State) : Res :=
  s.issue a p 8 0x03 ⟨true, fmtYOk f true false false true && decide (f.latch.toNat < 8)⟩ [] (fun s =>
    s.trDispatch a 0x03 ((s.cell a.cell).regs.counter f.latch.toNat) f.imm)

/-- The 32 bytes of a record (Table 7-16). -/
def TraceRec.bytes (r : TraceRec) : List Byte :=
  leBytes 8 r.time.toNat ++ leBytes 8 r.value.toNat ++ leBytes 4 r.imm.toNat ++ leBytes 4 r.origin.toNat ++
  leBytes 8 r.step.toNat

/-- Records a cell's ring holds (Table 7-17). -/
def CellRegs.ringRecords (r : CellRegs) : Nat := 2 ^ (min (max (fld r.traceCtl 16 5) 12) 30) / 32

/-- Count a dropped record. -/
def CellRegs.traceDrop (r : CellRegs) : CellRegs := { r with traceCtl := satAdd r.traceCtl 0 16 1 }

/-- A record whose write is refused is dropped; the first since EN was set writes an error record (R249). -/
def State.traceRefused (s : State) (c : CellId) (code : Byte) (addr : Nat) : State :=
  let s1 := s.modCell c (fun x => x.modRegs (·.traceDrop))
  if (s.cell c).eng.traceErr then s1
  else
    (s1.modCell c (fun x => x.modEng (fun e => { e with traceErr := true }))).report
      { (s.errRec (dieOf c) (tblStatus 0x04 code) .event).withCell s c with
        engine := 0x05, addr := BitVec.ofNat 64 addr }

/-- What the trace queue does to write its oldest record (R249). -/
def State.traceWrite (c : CellId) (s : State) : Res :=
  match (s.cell c).eng.traceQ with
  | [] => .next s
  | r :: rest =>
    let s1 := s.modCell c (fun x => x.modEng (fun e => { e with traceQ := rest }))
    let g := (s.cell c).regs
    let n := g.ringRecords
    let addr := fld g.traceBase 12 36 * 4096 + g.traceHead.toNat % n * 32
    if bit g.traceCtl 30 = false ∧ n ≤ g.traceHead.toNat then .next (s1.modCell c (fun x => x.modRegs (·.traceDrop)))
    else if s.reaches (s.partD c) addr 32 = false then .next (s1.traceRefused c 0x07 addr)
    else
      match s.checkWrite .other addr 32 with
      | (.ok, _) =>
        .next (((s1.dramWrite .other addr r.bytes).charge (s.partD c) false addr 32).modCell c
          (fun x => x.modRegs (fun g => { g with traceHead := g.traceHead + 1 })))
      | _ => .next (s1.traceRefused c 0x08 addr)

/-- TRACE_RECORD_WRITE, once the regulators admit the record's burst. -/
def execTraceRecordWrite (c : CellId) (s : State) : Res := s.gated (dieOf c) (State.traceWrite c)

end Sys2Proof.Machine
end

