-- ==== Sys2Proof/Machine/Context.lean ====
section
/-!
DEFINITION. Context slots and partitions (R257 to R277): starting, switching, waking and choosing contexts, the grace
of a bubble context, the apply of the partition registers, and writes of the cell registers that belong to a slot or
to the running context (R132, R133, R165, R166, R213, R259, R274).
-/
namespace Sys2Proof.Machine

/-! ### The switch -/

/-- The wake latch a yielded context keeps (R260 step 3). -/
def Slot.keptLatch (x : Slot) : Option (BitVec 6) :=
  match x.wake with
  | .latch l => some l
  | _ => none

/-- The switch after a retired sy.yield (R260 steps 1 to 5, Table 8-4). -/
def execContextSwitch (c : CellId) (s : State) : Res :=
  match (s.cell c).switch with
  | .none => .next s
  | .yield i =>
    let a : At := ⟨c, i⟩
    let s1 := s.abandonLatches a (s.slot a).keptLatch
    let st := if s1.wakeHolds c (s1.slot a) then SlotState.ready else SlotState.dormant
    .next (s1.modCell c (fun x =>
      (((x.modSlot i (fun y => { y with ctx := { Ctx.initial with pc := y.ctx.pc }, state := st })).clearVat).modRegs
        (fun r => { r.resetActive with ctxSwitch := r.ctxSwitch + 1 })).choose))

/-- A DORMANT context whose wake condition holds becomes READY (R261, R264). -/
def execContextWake (c : CellId) (i : SlotId) (s : State) : Res :=
  let a : At := ⟨c, i⟩
  if (s.slot a).state = .dormant ∧ s.wakeHolds c (s.slot a) then
    let s1 := s.modSlot a (fun x => { x with state := .ready })
    .next (if i = 0 then s1.requestReturn c else s1)
  else .next s

/-- Where no context runs and a slot is READY, it runs (Table 8-4). -/
def execContextRunStart (c : CellId) (s : State) : Res :=
  let x := s.cell c
  if x.running = none ∧ x.switch = .none then .next (s.setCell c x.choose) else .next s

/-- The grace of a bubble context ends (R264): a context reset with cause BUBBLE_OVERRUN. -/
def execGraceExpiry (c : CellId) (s : State) : Res :=
  let x := s.cell c
  if x.grace = true ∧ x.running = some 1 ∧ x.switch = .none then
    let r := { (s.errRec (dieOf c) (sysStatus 0x0E) .context).withCtx s ⟨c, 1⟩ with engine := 0x0F, action := 2 }
    .next ((s.report r).startReset .context c 1 0 0 0x5)
  else .next s

/-! ### Starting a context -/

/-- The entry a start names, as a byte offset. -/
def startEntry (v : Word64) : Nat := 8 * fld v 0 20

/-- Whether another foreground slot of the partition holds a context of a different job (R258). -/
def State.otherJob (s : State) (c : CellId) (p : PartId) (job : BitVec 16) : Bool :=
  (s.cellsOf p).any (fun d => d != c && ((s.cell d).slot 0).state != .empty && ((s.cell d).slot 0).job != job)

/-- Whether a start is refused (R258). -/
def State.startRefused (s : State) (c : CellId) (i : SlotId) (v : Word64) : Bool :=
  let x := s.cell c
  (x.slot i).state != .empty || decide ((x.partBounds i).2 ≤ (x.partBounds i).1) || !(x.inPart i (startEntry v) 8) ||
  (match s.partOf c with
   | none => true
   | some p => i == 0 && s.otherJob c p (bfld v 48 16))

/-- The slot of a context just started: initial state, its PC and job; CTX_FAULT, CTX_CTL and CTX_WAKE_TIME cleared
(R216, R258, R274); the bubble slot's grain unseeded (R152). -/
def Slot.started (x : Slot) (i : SlotId) (v : Word64) : Slot :=
  { Slot.reset with
    ctx := { Ctx.initial with pc := bfld v 0 20 }
    job := bfld v 48 16
    state := .ready
    endCause := x.endCause
    isaCtl := x.isaCtl
    seqNext := x.seqNext
    grain := if i = 0 then x.grain else { x.grain with seeded := false } }

/-- A system event that names a cell. -/
def State.cellEvent (s : State) (c : CellId) (code : Byte) (sev : Sev) (eng : Byte) : State :=
  s.report { (s.errRec (dieOf c) (sysStatus code) sev).withCell s c with engine := eng }

/-- A write of CTX_START[i] (R258). -/
def State.ctxStartOp (s : State) (c : CellId) (i : SlotId) (v : Word64) : State :=
  if bit v 20 = false then s
  else if s.startRefused c i v then s.cellEvent c 0x0A .event 0x10
  else
    let s1 := s.modSlot ⟨c, i⟩ (fun x => x.started i v)
    if i = 0 then s1.requestReturn c else s1

/-- CTX_START. -/
def execCtxStart (by_ : Requester) (c : CellId) (i : SlotId) (v : Word64) (s : State) : Res :=
  s.regWrite by_ (dieOf c) false (fun s => s.ctxStartOp c i v)

/-! ### Partitions -/

/-- The partition that would hold a cell after an apply. -/
def State.pendingPartOf (s : State) (c : CellId) : Option PartId :=
  (allFin 4).find? (fun p => bit (s.part p).cellsPending c.val)

/-- Whether the pending masks overlap. -/
def State.masksOverlap (s : State) : Bool :=
  (allFin 4).any (fun p => (allFin 4).any (fun q => p != q &&
    ((s.part p).cellsPending &&& (s.part q).cellsPending) != 0))

/-- Whether either slot of a cell is occupied. -/
def Cell.occupied (x : Cell) : Bool := x.slots.toList.any (fun y => y.state != .empty)

/-- Whether a partition's mask or ranges would change. -/
def Part.changes (x : Part) : Bool := x.cells != x.cellsPending || x.range != x.rangePending

/-- The partitions that block an apply (R271). -/
def State.applyBlockers (s : State) : List PartId :=
  (allFin 4).filter (fun p =>
    ((s.part p).changes && !(s.closed p)) ||
    (s.cellsOf p).any (fun c => s.pendingPartOf c != some p && (s.cell c).occupied))

/-- Set RESULT and BUSY_MASK of PART_CTL. -/
def State.partResult (s : State) (r : Nat) (busy : List PartId) : State :=
  { s with partCtl := setFld (setFld s.partCtl 2 2 r) 4 4 (busy.foldl (fun n p => n + 2 ^ p.val) 0) }

/-- PART_CTL.APPLY (R271), with the check of group tables (R95). -/
def State.partApplyOp (s : State) : State :=
  if s.masksOverlap then s.partResult 3 []
  else
    let b := s.applyBlockers
    if b.isEmpty then
      let s1 := (allFin 4).foldl (fun t p => t.modPart p (fun x =>
        { x with cells := x.cellsPending, range := x.rangePending })) s
      ({ s1 with partCtl := setFld s1.partCtl 32 32 (fld s1.partCtl 32 32 + 1) }.partResult 1 []).checkGroups
    else s.partResult 2 b

/-- PART_APPLY. -/
def execPartApply (by_ : Requester) (s : State) : Res := s.regWrite by_ 4 false (fun s => s.partApplyOp)

/-! ### Cell registers under an access rule -/

/-- A write of SLOT_CFG (R259, R275). -/
def State.slotCfgOp (s : State) (c : CellId) (v : Word32) : State :=
  if (s.cell c).occupied then s.cellEvent c 0x0B .event 0x10
  else s.modCell c (fun x => x.modRegs (fun r => { r with slotCfg := v &&& 0x00FFFF7F }))

/-- SLOT_CFG_WRITE. -/
def execSlotCfgWrite (by_ : Requester) (c : CellId) (v : Word32) (s : State) : Res :=
  s.regWrite by_ (dieOf c) false (fun s => s.slotCfgOp c v)

/-- LEVEL as a write leaves it: above the highest level not accepted, 0 treated as 1 (R213). -/
def isaLevel (old new : Word64) : Nat :=
  if fld new 0 4 = 0 then 1 else if fld new 0 4 = 1 then 1 else fld old 0 4

/-- A write of ISA_CTL[i] (R213). No feature bit is reported (Table 17-1). -/
def State.isaCtlOp (s : State) (c : CellId) (i : SlotId) (v : Word64) : State :=
  let rej := fun (t : State) => t.cellEvent c 0x09 .event 0x10
  let x := s.slot ⟨c, i⟩
  if x.state ≠ .empty then rej s
  else
    let s1 := if 1 < fld v 0 4 then rej s else s
    let s2 := if fld v 32 32 ≠ 0 then rej s1 else s1
    s2.modSlot ⟨c, i⟩ (fun y => { y with isaCtl := setFld y.isaCtl 0 4 (isaLevel y.isaCtl v) })

/-- ISA_CTL_WRITE. -/
def execIsaCtlWrite (by_ : Requester) (c : CellId) (i : SlotId) (v : Word64) (s : State) : Res :=
  s.regWrite by_ (dieOf c) false (fun s => s.isaCtlOp c i v)

/-- Whether a requester may write a register of the running context: that context, or the host or management path
while no context runs (R133). -/
def State.activeMay (s : State) (by_ : Requester) (c : CellId) : Bool :=
  match by_ with
  | .ctx d i => d == c && (s.cell c).running == some i
  | _ => (s.cell c).running.isNone

/-- A write of PLATE_CFG or EPI (R133, R166). -/
def State.activeRegOp (s : State) (by_ : Requester) (c : CellId) (f : CellRegs → CellRegs) : State :=
  if s.activeMay by_ c then s.modCell c (fun x => x.modRegs f) else s.regIgnored (dieOf c)

/-- A write of PLATE_CFG. -/
def State.plateCfgOp (s : State) (by_ : Requester) (c : CellId) (v : Word32) : State :=
  s.activeRegOp by_ c (fun r => { r with plateCfg := v &&& 7 })

/-- PLATE_CFG_WRITE. -/
def execPlateCfgWrite (by_ : Requester) (c : CellId) (v : Word32) (s : State) : Res :=
  s.regWrite by_ (dieOf c) (s.opensCell by_ c) (fun s => s.plateCfgOp by_ c v)

/-- Whether a debug unlock of the PLATE_DBG level is active (Table 18-3, R567). -/
def SelfTest.plateUnlocked (t : SelfTest) : Bool := bit t.stDebug 16 && bit t.stDebug 1

/-- A write of PLATE_DBG (R132). -/
def State.plateDbgOp (s : State) (c : CellId) (v : Word32) : State :=
  if bit v 0 then
    if s.test.plateUnlocked && (s.cell c).eng.plateQ.isEmpty then
      s.modCell c (fun x => x.modRegs (fun r => { r with plateDbg := 1 }))
    else s.cellEvent c 0x08 .event 0x10
  else s.modCell c (fun x => x.modRegs (fun r => { r with plateDbg := 0 }))

/-- PLATE_DBG_EN_WRITE. -/
def execPlateDbgEnWrite (by_ : Requester) (c : CellId) (v : Word32) (s : State) : Res :=
  s.regWrite by_ (dieOf c) false (fun s => s.plateDbgOp c v)

/-- Whether a requester may write a register of a slot: the slot's own context, or the host or management path while
the slot is EMPTY (R165, R274). -/
def State.slotMay (s : State) (by_ : Requester) (c : CellId) (i : SlotId) : Bool :=
  match by_ with
  | .ctx d j => d == c && j == i
  | _ => (s.slot ⟨c, i⟩).state == .empty

/-- A write of a register of a slot under that rule. -/
def State.slotRegOp (s : State) (by_ : Requester) (c : CellId) (i : SlotId) (f : Slot → Slot) : State :=
  if s.slotMay by_ c i then s.modSlot ⟨c, i⟩ f else s.regIgnored (dieOf c)

/-- A write of LANE_BASE. -/
def State.laneBaseOp (s : State) (by_ : Requester) (c : CellId) (i : SlotId) (v : Word32) : State :=
  s.slotRegOp by_ c i (fun x => { x with grain := { x.grain with laneBase := v } })

/-- GRAIN_LANE_BASE_WRITE. -/
def execGrainLaneBaseWrite (by_ : Requester) (c : CellId) (i : SlotId) (v : Word32) (s : State) : Res :=
  s.regWrite by_ (dieOf c) (s.opensCell by_ c) (fun s => s.laneBaseOp by_ c i v)

/-- A write of CTX_CTL or CTX_WAKE_TIME (R274). -/
def State.ctxCtlOp (s : State) (by_ : Requester) (c : CellId) (i : SlotId) (wakeTime : Bool) (v : Word64) : State :=
  s.slotRegOp by_ c i (fun x =>
    if wakeTime then { x with wakeTime := v } else { x with ctxCtl := (bfld v 0 16).zeroExtend 32 })

/-- CTX_CTL_WRITE. -/
def execCtxCtlWrite (by_ : Requester) (c : CellId) (i : SlotId) (wakeTime : Bool) (v : Word64) (s : State) : Res :=
  s.regWrite by_ (dieOf c) (s.opensCell by_ c) (fun s => s.ctxCtlOp by_ c i wakeTime v)

end Sys2Proof.Machine
end

