-- ==== Sys2Proof/Machine/Memory.lean ====
section
/-!
DEFINITION. What the stack controllers do (R279, R280, R289, R294, R297, R301 to R311): bursts served with code and CRC,
write-backs, regulator ticks, patrol scrub, temperature, failed connections, page commands and margins.
-/
namespace Sys2Proof.Machine

/-! ### Bursts -/

/-- The slot of the transfer a request serves. -/
def State.requestWho (s : State) (r : MemReq) : Option At := (s.xfer r.cell r.xfer).map (fun t => ⟨r.cell, t.ins.tag.slot⟩)

/-- A queued write is made, and its bytes have moved; one refused by now, or whose CRC failed four times, is not
(R290, R293, R302). What a crossing found uncorrectable is stored as poison marks (R326). -/
def State.serveWrite (s : State) (r : MemReq) : State :=
  if s.writeRefused .other r.addr r.len then s.dmFail r.cell r.xfer 0x08 (BitVec.ofNat 64 r.view)
  else
    let x := s.carryTo 0 (dieOf r.cell) (stackDie (stackOf r.addr)) (r.off / 4096)
    let s := x.2
    let lost := !((s.stack (stackOf r.addr)).silent) && ((s.mergeRead r.view r.addr r.len).wire (s.merged r.view r.addr r.data) r.addr).1 == 4
    let s1 := (s.dramWrite .other r.view r.data).dramPoison r.view ((x.1.map (4 * ·)).filter (· < r.len))
    if lost then s1 else s1.dmMoved r.cell r.xfer r.len

/-- Serve a request (R280, R299 to R302, R309): a read delivers its bytes to its transfer, a write is made; then the
transfer asks for its next burst. A read whose bytes were taken as it arrived is only moved. -/
def State.serve (s : State) (r : MemReq) : State :=
  if r.own then s
  else
  (if r.write then s.serveWrite r
   else
    let b := s.burstBytes r.view r.view r.addr r.len
    let x := (s.dramNote (s.requestWho r) false r.view r.len).carryTo 1 (stackDie (stackOf r.addr)) (dieOf r.cell) (r.off / 4096)
    x.2.dmDeliver r.cell r.xfer r.off b.1 (!b.2.isEmpty || !x.1.isEmpty)).dmNext r.cell r.xfer

/-- Whether no earlier request of the queue is to the burst of request i (R280). -/
def Stack.firstOfBurst (x : Stack) (i : Nat) (r : MemReq) : Bool :=
  !((x.requests.take i).any (fun q => q.addr / 256 == r.addr / 256))

/-- The request a controller serves next: the oldest admitted that no earlier one to its burst precedes; in a fenced
stack the oldest (R280, R294, R309). -/
def Stack.nextRequest (x : Stack) : Option (Nat × MemReq) :=
  ((x.requests.zipIdx.find? (fun p => x.fenced || (p.1.admitted && x.firstOfBurst p.2 p.1))).map (fun p => (p.2, p.1)))

/-- DRAM_BURST_SERVE. The burst is that of the request served next, or, where the queue offers none, that of the line
`b` names, which a later command reaches without the queue. `ts` is what the connections do to the attempts to move it. A request whose path between the dies pauses, or whose
channel yields to self-test, waits (R328, R334, R561). -/
def execDramBurstServe (n : StackId) (b : BurstErrs) (ts : List WireTry) (s : State) : Res :=
  let meet := fun (t : State) (d : Nat) =>
    if (t.stack n).silent then t
    else (t.flipBits d b.flips).modStack n (fun x => { x with wire := if ts.isEmpty then none else some (d / 256, ts) })
  match (s.stack n).nextRequest with
  | none => .next (meet s (n.val * 2 ^ 37 + b.line.toNat * 256))
  | some (i, r) =>
    if s.burstHolds r.addr || (!r.own && !(s.pathBoth (dieOf r.cell) (stackDie n) (r.off / 4096))) then .next s
    else .next ((meet (s.modStack n (fun x => ({ x with
      requests := x.requests.eraseIdx i, bursts := x.bursts + 1 } : Stack).modCh (x.channelOf (r.addr % 2 ^ 37)).1
        (fun c => { c with carried := some s.time }))) r.addr).serve r)

/-! ### Write-backs and scrub -/

/-- Words of a burst whose stored bits a code word differs from by a correctable error. -/
def ProtMem.correctable (m : ProtMem) (d : Nat) : List Nat :=
  ((m.marked d 256).filter (fun p => !((classify (syndrome p.2)).poisoned))).map (·.1)

/-- The oldest write-back of a channel is issued: correctable words are written as code words (R301, R291). -/
def execEccWriteback (n : StackId) (ch : ChanId) (s : State) : Res :=
  match (vget (s.stack n).channels ch).writeBack with
  | [] => .next s
  | line :: rest =>
    let s1 := s.modStack n (fun x => x.modCh ch (fun y => { y with writeBack := rest }))
    if (s.stack n).fenced then .next s1
    else
      .next { s1 with mem := { s1.mem with
        dram := (s1.mem.dram.correctable (256 * line)).foldl ProtMem.mergeWord s1.mem.dram } }

/-- Whether scrub runs on a stack (R305). -/
def State.scrubs (s : State) (n : StackId) : Bool :=
  bit s.mem.scrubCtl 31 && !((s.stack n).fenced) && (s.stack n).trained && !(bit s.mem.memCtl 0)

/-- Bursts in a channel's range. -/
def channelBursts : Nat := 2 ^ 24

/-- The direct address of a burst of a channel. -/
def State.scrubAddr (s : State) (n : StackId) (ch : ChanId) (k : Nat) : Option Nat :=
  ((s.stack n).offsetOf ch (256 * (k % channelBursts))).map (fun off => n.val * 2 ^ 37 + off)

/-- Scrub found an uncorrectable word: it is replaced by a poison mark and recorded with its direct address (R305);
poison in persistent state acts as R486 says. -/
def State.scrubMark (s : State) (n : StackId) (ch : ChanId) (w : Nat) (syn : BitVec 7) : State :=
  let rec_ := s.memRec n 0x7 .event (4 * w) (synWord 7 n ch (4 * w % 2 ^ 37) 63 syn) none
  let s1 := ((s.report rec_).modStack n (fun x => { x with eccCnt := satAdd x.eccCnt 16 16 1 }))
  let s2 := { s1 with mem := { s1.mem with dram := s1.mem.dram.poison w } }
  match s2.persistOwner (4 * w) with
  | some p => s2.persistPoison p (4 * w) none false
  | none => s2

/-- A scrub read of a burst (R302, R305, R306): its CRC is checked, correctable words queue a write-back, uncorrectable
ones are marked. -/
def State.scrubBurst (s : State) (n : StackId) (ch : ChanId) (d : Nat) : State :=
  let w := s.wire (s.seen d) d
  let s1 := s.crossed none false d d w
  if w.1 = 4 then s1
  else
    ((s1.seen d).marked d 256).foldl (fun t p =>
      if classify (syndrome p.2) = .bad then t.scrubMark n ch p.1 (syndrome p.2)
      else t.noteWord none false (s.pendingBack d) (4 * p.1) (4 * p.1) p.2) s1

/-- PATROL_SCRUB (R305): the next burst of a channel; `fs` and `ts` as for DRAM_BURST_SERVE. -/
def execPatrolScrub (n : StackId) (ch : ChanId) (fs : List (Fin 64 × BitVec 39)) (ts : List WireTry) (s : State) : Res :=
  if s.scrubs n = false then .next s
  else
    match s.scrubAddr n ch (vget (s.stack n).channels ch).scrub with
    | none => .next s
    | some d =>
      let s1 := (s.flipBits d fs).modStack n (fun x => { x with wire := if ts.isEmpty then x.wire else some (d / 256, ts) })
      .next ((s1.scrubBurst n ch d).modStack n (fun x => x.modCh ch (fun y => { y with scrub := y.scrub + 1 })))

/-- ECC_WINDOW_END (R304): a channel's window of 24 hours ends. -/
def execEccWindowEnd (n : StackId) (ch : ChanId) (s : State) : Res :=
  .next (s.modStack n (fun x => x.modCh ch (fun y => { y with windowCe := 0, reported := false })))

/-! ### Regulators (R294, R308) -/

/-- HOT_RATE (Table 9-14). -/
def MemCtl.hotRate (m : MemCtl) : Nat := if fld m.thermCfg 0 16 = 0 then 256 else fld m.thermCfg 0 16

/-- Add the tick's tokens to every bucket of a stack. -/
def State.fillBuckets (s : State) (n : StackId) : State :=
  let s1 := (allFin 4).foldl (fun t p => t.modPart p (fun x =>
    let w := vget x.stack n
    { x with tokens := vmod x.tokens n (fun k => min (k + (fld w 0 20 : Nat)) (bucketDepth w : Nat)) })) s
  if (s1.stack n).hot then s1.modStack n (fun x => { x with thermTok := min (x.thermTok + (s.mem.hotRate : Nat)) 65536 }) else s1

/-- One tick of a stack's regulators. -/
def State.tickStack (s : State) (n : StackId) : State :=
  (List.range (s.stack n).requests.length).foldl (fun t i => (t.bucketAdmit n i).thermAdmit n i) (s.fillBuckets n)

/-- The tick that ends counts for every partition with a request that waited for tokens in it (Table 9-12). -/
def State.countHeld (s : State) : State :=
  (allFin 4).foldl (fun t p =>
    let queued := t.stackSet.toList.any (fun x => x.requests.any (fun r => r.part == p && !r.admitted))
    t.modPart p (fun x => { x with held := if x.waited || queued then x.held + 1 else x.held, waited := false })) s

/-- REGULATOR_TICK: the next tick of 16 ns begins at every stack. -/
def execRegulatorTick (s : State) : Res := .next ((allFin 16).foldl State.tickStack s.countHeld)

/-! ### Temperature (R307 to R309) -/

/-- T, the highest sensor, in units of 0.125 °C. -/
def hottest (v : Vector (BitVec 16) 4) : Int := v.toList.foldl (fun a x => max a x.toInt) (-32768)

/-- The level whose entry condition a temperature meets (Table 9-9). -/
def levelOf (t : Int) : Nat := if 840 < t then 3 else if 760 ≤ t then 2 else if 680 ≤ t then 1 else 0

/-- Whether a temperature meets the condition for leaving a level downward. -/
def leavesLevel (lvl : Nat) (t : Int) : Bool :=
  match lvl with
  | 1 => decide (t < 664)
  | 2 => decide (t < 744)
  | _ => false

/-- A stack enters critical level: fenced, one record, a chip-level fault (R309). -/
def State.fence (s : State) (n : StackId) : State :=
  let s1 := s.modStack n (fun x => { x with therm := setBit x.therm 31 true })
  (s1.report { s1.memRec n 0x6 .chip (n.val * 2 ^ 37) (synWord 6 n 0 0 63 0) none with action := 5 }).chipFault

/-- A reading of a stack's sensors. -/
def State.stackTemp (s : State) (n : StackId) (t : Int) : State :=
  let x := s.stack n
  let lvl := fld x.therm 16 2
  let set := fun (l c : Nat) => s.modStack n (fun y => { y with
    therm := setFld (setFld y.therm 0 16 (BitVec.ofInt 16 t).toNat) 16 2 l, cooler := c
    thermTok := if l = 2 && lvl != 2 then 65536 else y.thermTok })
  if lvl = 3 then set 3 0
  else if lvl < levelOf t then (if levelOf t = 3 then ((set 3 0).alertSet 3).fence n else set (levelOf t) 0)
  else if leavesLevel lvl t then (if 10 ≤ x.cooler + 1 then set (lvl - 1) 0 else set lvl (x.cooler + 1))
  else set lvl 0

/-- STACK_TEMP_READING. -/
def execStackTempReading (n : StackId) (v : Vector (BitVec 16) 4) (s : State) : Res := .next (s.stackTemp n (hottest v))

/-! ### Connections and map-out -/

/-- The rotations of a channel's connections: each connection with the spare that carries its signal. -/
def State.heldConns (s : State) (n : StackId) (ch : ChanId) : List (Fin 318 × Fin 318) :=
  s.test.rotation.filterMap (fun r =>
    match r.1 with
    | .conn m c i => if m = n ∧ c = ch then some (i, Fin.ofNat 318 r.2) else none
    | _ => none)

/-- A free spare connection of a channel (R279, R558): neither committed nor failed nor held by a rotation. -/
def State.freeConn (s : State) (n : StackId) (ch : ChanId) : Option (Fin 318) :=
  let y := vget (s.stack n).channels ch
  ([314, 315, 316, 317] : List (Fin 318)).find? (fun m =>
    !(y.committed.contains m) && !(y.failed.contains m) && !((s.heldConns n ch).any (fun h => h.2 == m)))

/-- Whether a connection of a channel carries a signal: one of the 314, or a spare in place of one, and not withdrawn as
failed or for a rotation. -/
def State.connActive (s : State) (n : StackId) (ch : ChanId) (i : Fin 318) : Bool :=
  let y := vget (s.stack n).channels ch
  let h := s.heldConns n ch
  (decide (i.val < 314) || y.committed.contains i || h.any (fun r => r.2 == i)) &&
    !(y.failed.contains i) && !(h.any (fun r => r.1 == i))

/-- A spare takes the place of a failed connection for good (R279). -/
def State.connCommit (s : State) (n : StackId) (ch : ChanId) (i m : Fin 318) : State :=
  s.modStack n (fun x => x.modCh ch (fun z => { z with committed := z.committed ++ [m], failed := z.failed ++ [i] }))

/-- A connection of a channel fails (R279). One under rotation leaves its signal on the spare (R559). For one that carries a
signal a free spare takes over, else the spare a rotation holds, which ends (R560); with neither the channel is requested for
map-out and until then every read sees the bit the connection carries changed. One that carries nothing is only withdrawn;
where it was held by a rotation, that ends. -/
def State.connFails (s : State) (n : StackId) (ch : ChanId) (i : Fin 318) : State :=
  let y := vget (s.stack n).channels ch
  let h := s.heldConns n ch
  let ends := fun (k : Fin 318) (t : State) => t.endRotations (· == .conn n ch k)
  let withdrawn := s.modStack n (fun x => x.modCh ch (fun z => { z with failed := z.failed ++ [i] }))
  if y.failed.contains i || y.broken.contains i then s
  else
    match h.find? (fun r => r.1 == i), h.find? (fun r => r.2 == i) with
    | some r, _ => ends i (s.connCommit n ch i r.2)
    | none, some r => ends r.1 withdrawn
    | none, none =>
      if !(s.connActive n ch i) then withdrawn
      else
        match s.freeConn n ch, h with
        | some m, _ => s.connCommit n ch i m
        | none, r :: _ => ends r.1 (s.connCommit n ch i r.2)
        | none, [] =>
          (s.modStack n (fun x => x.modCh ch (fun z => { z with broken := z.broken ++ [i] }))).requestMapout n ch

/-- STACK_CONNECTION_FAIL. -/
def execStackConnectionFail (n : StackId) (w : StackWire) (s : State) : Res := .next (s.connFails n w.ch w.i)

/-- A write of MAPOUT_REQ (Table 9-10). -/
def State.mapoutReqOp (s : State) (n : StackId) (v : Word32) : State :=
  s.modStack n (fun x => { x with mapoutReq := x.mapoutReq ||| v })

/-- MAPOUT_REQ_WRITE. -/
def execMapoutReqWrite (by_ : Requester) (n : StackId) (v : Word32) (s : State) : Res :=
  s.regWrite by_ (stackDie n) false (fun s => s.mapoutReqOp n v)

/-! ### Page commands (R289, R314) -/

/-- The address of page i of a command's range. -/
def cmdPage (v : Word64) (i : Nat) : Nat :=
  (fld v 21 20 + i) * 2 ^ 21 + (if bit v 61 then stripedBase else 0)

/-- Pages of a command. -/
def cmdCount (v : Word64) : Nat := fld v 0 20 + 1

/-- Whether a page conflicts with a command of a partition: beyond the view, or a granule of another partition. -/
def State.pageConflict (s : State) (p : PartId) (page : Nat) : Bool :=
  !(s.pageInside page) ||
  (pageGranules page).any (fun g => bit (s.attrOf g) 0 && decide (fld (s.attrOf g) 1 2 ≠ p.val))

/-- The partition a page command names. -/
def cmdPart (v : Word64) : PartId := ⟨fld v 59 2, by unfold fld; omega⟩

/-- A write of MEM_PAGE_CMD. -/
def State.pageCmdOp (s : State) (v : Word64) : State :=
  let op := fld v 62 2
  if op = 0 ∨ op = 3 then s
  else if bit s.mem.pageStatus 31 then s.regIgnored 4
  else
    let set := fun (busy : Bool) (r : Nat) (c : Option Word64) => { s with mem := { s.mem with
      pageStatus := BitVec.ofNat 32 (2 ^ 31 * bnat busy + 2 ^ 20 * r), pageCmd := c } }
    if !(s.closed (cmdPart v)) then set false 2 none
    else if 2 ^ 20 < fld v 21 20 + cmdCount v ||
        (List.range (cmdCount v)).any (fun i => s.pageConflict (cmdPart v) (cmdPage v i)) then set false 3 none
    else set true 0 (some v)

/-- PAGE_MARK: OP 0b01. -/
def execPageMark (by_ : Requester) (v : Word64) (s : State) : Res :=
  s.regWrite by_ 4 false (fun s => s.pageCmdOp (setFld v 62 2 1))

/-- PAGE_UNMARK: OP 0b10. -/
def execPageUnmark (by_ : Requester) (v : Word64) (s : State) : Res :=
  s.regWrite by_ 4 false (fun s => s.pageCmdOp (setFld v 62 2 2))

/-- Mark or unmark the granules of a page (Table 9-4). -/
def State.markPage (s : State) (p : PartId) (mark : Bool) (page : Nat) : State :=
  (pageGranules page).foldl (fun t g =>
    t.setAttr g (setFld (t.attrOf g) 0 3 (if mark then 2 * p.val + 1 else 0))) s

/-- PAGE_CMD_DONE: the running command has marked its pages; a sheet whose page is unmarked ends (Table 13-5). -/
def execPageCmdDone (s : State) : Res :=
  match s.mem.pageCmd with
  | none => .next s
  | some v =>
    let mark := decide (fld v 62 2 = 1)
    let s0 := if mark then s else
      (List.range (cmdCount v)).foldl (fun t i => t.sheetsTouched true (cmdPage v i) (2 ^ 21)) s
    let s1 := (List.range (cmdCount v)).foldl (fun t i => t.markPage (cmdPart v) mark (cmdPage v i)) s0
    .next { s1 with mem := { s1.mem with
      pageStatus := BitVec.ofNat 32 (2 ^ 20 + cmdCount v % 2 ^ 20), pageCmd := none } }

/-! ### Margins (R311) -/

/-- MARGIN_LOCKED. -/
def State.marginLocked (s : State) (die : DieId) : State := s.sysEvent die 0x11 .event 0x06

/-- Whether every slot of every cell is EMPTY. -/
def State.allEmpty (s : State) : Bool := s.cells.toList.all (fun x => !x.occupied)

/-- A write of MEM_CTL. -/
def State.bringupOp (s : State) (v : Word32) : State :=
  if bit v 0 then
    if s.allClosed && s.allEmpty then { s with mem := { s.mem with memCtl := 1 } } else s.marginLocked 4
  else { s with mem := { s.mem with memCtl := 0 }, stackSet := s.stackSet.map (fun x => { x with margin := 0 }) }

/-- MEM_BRINGUP_WRITE. -/
def execMemBringupWrite (by_ : Requester) (v : Word32) (s : State) : Res :=
  s.regWrite by_ 4 false (fun s => s.bringupOp v)

/-- A write of MEM[n].MARGIN; setting EN starts its counts afresh. -/
def State.marginOp (s : State) (n : StackId) (v : Word32) : State :=
  if bit s.mem.memCtl 0 then
    s.modStack n (fun x => { x with
      margin := v &&& 0x801F3F3F
      marginErr := if bit v 31 && !(bit x.margin 31) then 0 else x.marginErr })
  else s.marginLocked (stackDie n)

/-- MEM_MARGIN_WRITE. -/
def execMemMarginWrite (by_ : Requester) (n : StackId) (v : Word32) (s : State) : Res :=
  s.regWrite by_ (stackDie n) false (fun s => s.marginOp n v)

end Sys2Proof.Machine
end

