-- ==== Sys2Proof/Machine/Crossing.lean ====
section
/-!
DEFINITION. Die-to-die crossings (R318 to R341): beats received with their code and credits, declared failures and
their outcomes, switches of steering, clock and width, and forced states.
-/
namespace Sys2Proof.Machine

/-! ### Records (R340) -/

/-- The crossing syndrome word (Table 10-9). -/
def xdSyndrome (kind : Nat) (j : JoinId) (d : Fin 2) (g : BitVec 6) (w : BitVec 7) (syn : BitVec 7) : Word32 :=
  BitVec.ofNat 32 (kind * 2 ^ 28 + j.val * 2 ^ 25 + d.val * 2 ^ 24 + g.toNat * 2 ^ 18 + w.toNat * 2 ^ 11 + syn.toNat * 2 ^ 4)

/-- Write LAST_EVENT and the record of an event at a time, with the context whose access caused it (R472). -/
def State.xdEventOf (s : State) (j : JoinId) (d : Fin 2) (kind : Nat) (sev : Sev) (act : Byte) (g : BitVec 6)
    (w syn : BitVec 7) (t : Word64) (who : Option At) : State :=
  let y := xdSyndrome kind j d g w syn
  let r := { s.errRec (receiverOf j d) (tblStatus 0x07 (BitVec.ofNat 8 kind)) sev with
    engine := 0x07, syndrome := y, action := act }
  (s.modXdDir j d (fun x => { x with lastEvent := bfld t 10 32 ++ y })).report
    (match who with
     | some a => { r.withCtx s a with die := r.die }
     | none => r)

/-- The same where no context's access is concerned. -/
def State.xdEvent (s : State) (j : JoinId) (d : Fin 2) (kind : Nat) (sev : Sev) (act : Byte) (g : BitVec 6)
    (w syn : BitVec 7) (t : Word64) : State := s.xdEventOf j d kind sev act g w syn t none

/-- The context whose access a beat of a memory channel carries. -/
def beatWho (words : List (BitVec 39)) : Option At :=
  (Config.beatAccess ((words.take 4).map (fun v => (eccDecode v).1))).map (fun (k : BitVec 7) =>
    ⟨(bfld k 1 6).toFin, (bfld k 0 1).toFin⟩)

/-! ### Declarations (R327, R331, R332) -/

/-- The switch time a command's SW_T names: the first multiple of 1,024 ns after its receipt with those bits (R328). -/
def switchTime (now : Word64) (swt : BitVec 3) : Word64 :=
  let k0 := now.toNat / 1024 + 1
  BitVec.ofNat 64 ((k0 + (swt.toNat + 8 - k0 % 8) % 8) * 1024)

/-- The switch time of a command issued now (R328). -/
def switchFrom (now : Word64) : Word64 := BitVec.ofNat 64 ((now.toNat + 512 + 1023) / 1024 * 1024)

/-- Give direction d a command for its switch time. -/
def State.xdPend (s : State) (j : JoinId) (d : Fin 2) (op : XdOp) : State :=
  s.modXdDir j d (fun x => { x with pending := some (op, switchFrom s.time) })

/-- The join is to be disabled: both directions switch at the one T, in place of what the other one awaited (R332). -/
def State.xdPendOff (s : State) (j : JoinId) (d : Fin 2) : State :=
  (s.xdPend j d .disable).xdPend j (otherDir d) .disable

/-- Whether group g lies in the half a width uses. -/
def inActiveHalf (j : JoinId) (w : BitVec 2) (g : Nat) : Bool :=
  w == 0 || decide (w.toNat = 1 + g / (groupsOfJoin j / 2))

/-- Whether the half that does not hold g has a failed group. -/
def XdDir.otherHalfFailed (x : XdDir) (j : JoinId) (g : Nat) : Bool :=
  let h := groupsOfJoin j / 2
  (ones x.failed).any (fun k => decide (k / h ≠ g / h))

/-- A group fails: a wire with its spare committed, or a clock without alternate (Table 10-5). The outcome is judged by
the state the failures have produced, whatever state is forced (R337). -/
def State.xdGroupFails (s : State) (j : JoinId) (d : Fin 2) (c : XdDecl) : State :=
  let g := c.group.toNat
  let x := (s.xd j).dir d
  let s1 := s.modXdDir j d (fun y => { y with failed := setBit y.failed g true })
  let at_ := switchFrom s.time
  if inActiveHalf j x.width g = false then s1.xdEvent j d 1 .corrected 0 c.group c.wire c.syn s.time
  else if x.width = 0 ∧ x.otherHalfFailed j g = false then
    let keep : Fin 2 := if g / (groupsOfJoin j / 2) = 0 then 1 else 0
    (s1.xdPend j d (.half keep)).xdEvent j d 3 .corrected 0 c.group c.wire c.syn at_
  else (s1.xdPendOff j d).xdEvent j d 4 .corrected 0 c.group c.wire c.syn at_

/-- Whether an item is a wire of a group of a direction. -/
def wireIn (j : JoinId) (d : Fin 2) (g : BitVec 6) (x : TestItem) : Bool :=
  match x with
  | .wire i e h w => i == j && e == d && h == g && decide (w.toNat < 0x7C)
  | _ => false

/-- A failed wire (Table 10-5). A rotation in its group ends; where the wire is itself under rotation, the steer in force
is committed and no switch follows (R559). One withdrawn already is no new failure. -/
def State.xdWireFails (s : State) (j : JoinId) (d : Fin 2) (w : BitVec 2) (c : XdDecl) : State :=
  let g := c.group.toNat
  let held := Sparse.get 0x7F ((s.xd j).dir d).steered g == c.wire
  if bit ((s.xd j).dir d).spareUsed g then (if held then s else s.xdGroupFails j d c)
  else
    let s1 := (s.modXdDir j d (fun y => { y with spareUsed := setBit y.spareUsed g true })).endRotations (wireIn j d c.group)
    if held then s1.xdEvent j d 1 .corrected 0 c.group c.wire c.syn s.time
    else if inActiveHalf j w g then
      (s1.xdPend j d (.steer c.group c.wire)).xdEvent j d 1 .corrected 0 c.group c.wire c.syn (switchFrom s.time)
    else
      (s1.modXdDir j d (fun y => { y with steered := Sparse.set 0x7F y.steered g c.wire })).xdEvent j d 1 .corrected 0
        c.group c.wire c.syn s.time

/-- A failed clock (Table 10-5): 0x7C primary, 0x7D alternate. One in use gives way to the other where that works; a
rotation of the clock ends, and where it already stands on the other no switch follows (R559). A spare clock that fails
is only remembered. -/
def State.xdClockFails (s : State) (j : JoinId) (d : Fin 2) (c : XdDecl) : State :=
  let g := c.group.toNat
  let x := (s.xd j).dir d
  let prim := c.wire == 0x7C
  let onAlt := bit x.altClk g
  let bad := bit (if prim then x.primBad else x.altBad) g
  let otherBad := bit (if prim then x.altBad else x.primBad) g
  let s1 := (s.modXdDir j d (fun y =>
    if prim then { y with primBad := setBit y.primBad g true } else { y with altBad := setBit y.altBad g true })).endRotations
      (fun x => x == .wire j d c.group 0x7C)
  if prim == onAlt then
    if prim && !bad then s1.xdEvent j d 2 .corrected 0 c.group c.wire c.syn s.time else s1
  else if otherBad then s1.xdGroupFails j d c
  else
    (s1.xdPend j d (.steer c.group (if prim then 0x7C else 0x7D))).xdEvent j d 2 .corrected 0 c.group c.wire c.syn
      (switchFrom s.time)

/-- Handle one declaration against the state at this time (R331). -/
def State.xdHandleOne (s : State) (j : JoinId) (d : Fin 2) (c : XdDecl) : State :=
  match (s.xd j).off, (s.xd j).effect d with
  | false, some w => if c.wire = 0x7C ∨ c.wire = 0x7D then s.xdClockFails j d c else s.xdWireFails j d w c
  | _, _ => s.xdEvent j d 1 .corrected 0 c.group c.wire c.syn s.time

/-- Handle the declarations of a direction in order until one awaits a switch; a force still to be applied follows
(R332, R337). While a command awaits its switch time, and up to T + 24 ns, they wait. -/
def State.xdHandle (s : State) (j : JoinId) (d : Fin 2) : State :=
  let x := (s.xd j).dir d
  if x.pending.isSome || decide (s.time.toNat < x.resume.toNat) then s
  else
  let s1 := x.waiting.foldl (fun t c =>
    if ((t.xd j).dir d).pending.isSome then t.modXdDir j d (fun x => { x with waiting := x.waiting ++ [c] })
    else t.xdHandleOne j d c) (s.modXdDir j d (fun x => { x with waiting := [] }))
  if ((s1.xd j).dir d).pending.isNone && bfld (s1.xd j).ctl 30 2 != ((s1.xd j).dir d).forced then s1.xdPend j d .forceState else s1

/-- Whether a wire or clock is declared already and its outcome is to come. -/
def XdDir.declared (x : XdDir) (c : XdDecl) : Bool :=
  x.waiting.any (fun e => e.group == c.group && e.wire == c.wire) ||
  (match x.pending with
   | some (.steer g w, _) => g == c.group && w == c.wire
   | _ => false)

/-- Declare failures of a direction. -/
def State.xdDeclare (s : State) (j : JoinId) (d : Fin 2) (cs : List XdDecl) : State :=
  (s.modXdDir j d (fun x => { x with waiting := x.waiting ++ cs.filter (fun c => !(x.declared c)) })).xdHandle j d

/-! ### Beats received (R320, R322, R323, R326) -/

/-- The control field as decoded: its data, what the code found, and whether it is refused (R322). -/
def controlOf (c : Word64) : Word32 × WordRead × Bool :=
  let r := eccDecode (bfld c 0 39)
  (r.1, r.2, r.2.poisoned || fld c 39 25 != 0)

/-- Wire position of a bit of a word (R320): `w` the word in its beat, `i` the stored bit. -/
def wirePos (j : JoinId) (w i : Nat) : Nat × Nat :=
  let h := w % 2
  let p := if i < 32 then 32 * h + i else 64 + 7 * h + (i - 32)
  if isBridge j then (w / 2, p) else (w / 4, p)

/-- The physical group and wire that carry a position of a group at the width and steering in force (R329, R330). -/
def XdDir.physical (x : XdDir) (j : JoinId) (w : Option (BitVec 2)) (g p : Nat) : Nat × Nat :=
  let half := groupsOfJoin j / 2
  let pg := match w with
    | some 1 => g % half
    | some 2 => half + g % half
    | _ => g
  let f := (Sparse.get 0x7F x.steered pg).toNat
  (pg, if f ≤ p then p + 1 else p)

/-- Count a corrected bit, found by a syndrome, against its wire and its direction (R326). The wire is declared failed as
its count in the present window of 1,024 ns reaches FAIL_COUNT (R327). -/
def State.xdCorrected (s : State) (j : JoinId) (d : Fin 2) (gp : Nat × Nat) (syn : BitVec 7) : State :=
  let x := (s.xd j).dir d
  let q := x.physical j ((s.xd j).effect d) gp.1 gp.2
  let key := q.1 * 128 + q.2
  let now := s.time.toNat / 1024
  let old := if x.window = now then x.windowCe else []
  let told := if x.window = now then x.told else []
  let n := Sparse.get 0 old key + 1
  let tell := decide (max (fld (s.xd j).ctl 0 16) 1 ≤ n) && !(told.contains key)
  let s1 := s.modXdDir j d (fun x => { x with
    errCnt := satAdd x.errCnt 32 32 1, window := now, windowCe := Sparse.set 0 old key n
    told := if tell then told ++ [key] else told })
  if tell then s1.xdDeclare j d [⟨BitVec.ofNat 6 q.1, BitVec.ofNat 7 q.2, syn⟩] else s1

/-- Account for word `w` of a beat, which carries an access of `who`. An uncorrectable word of a fill beat is neither counted nor recorded: the rule speaks
of data words, and whether it means the fill too it leaves open (DESIGN CHOICE, log entry 64). -/
def State.xdWord (s : State) (j : JoinId) (d : Fin 2) (valid : Bool) (who : Option At) (w : Nat) (v : BitVec 39) : State :=
  match (eccDecode v).2 with
  | .good | .mark => s
  | .fixedData i => s.xdCorrected j d (wirePos j w i) (syndrome v)
  | .fixedCheck i => s.xdCorrected j d (wirePos j w i) (syndrome v)
  | .bad =>
    if valid then
      (s.modXdDir j d (fun x => { x with errCnt := satAdd x.errCnt 16 16 1 })).xdEventOf j d 5 .event 0
        (BitVec.ofNat 6 (wirePos j w 0).1) 0x7F (syndrome v) s.time who
    else s

/-- A refused control field or routing word: the beat is discarded, a chip-level fault (R326). -/
def State.xdCtrlUe (s : State) (j : JoinId) (d : Fin 2) (syn : BitVec 7) : State :=
  ((s.modXdDir j d (fun x => { x with errCnt := satAdd x.errCnt 0 16 1 })).xdEvent j d 6 .chip 5 0 0x7F syn
    s.time).chipFault

/-- Credits returned for the opposite direction: its sender has them, its receiver has passed the beats on to the die, each
word with its poison (R323, R326). -/
def State.xdCredit (s : State) (j : JoinId) (d : Fin 2) (ctl : Word32) : State :=
  if h : fld ctl 18 2 < 3 then
    let c : Fin 3 := ⟨fld ctl 18 2, h⟩
    let n := fld ctl 20 9
    s.modXdDir j (otherDir d) (fun x => { x with
      credits := vmod x.credits c (fun k => min (k + n) 64)
      buffers := vmod x.buffers c (fun l => l.drop n)
      passed := vmod x.passed c (fun l => l ++ (vget x.buffers c).take n) })
  else s

/-- Whether a steer names a wire or clock of its join: a bridge has no clock wires. -/
def steerOk (j : JoinId) (g : BitVec 6) (w : BitVec 7) : Bool :=
  decide (g.toNat < groupsOfJoin j) && (decide (w.toNat ≤ 79) || (!(isBridge j) && (w == 0x7C || w == 0x7D)))

/-- A command received for a direction (R328): it awaits its switch time, unless the direction has one or is off. -/
def State.xdCommand (s : State) (j : JoinId) (d : Fin 2) (op : XdOp) (t : Word64) : State :=
  let ok := match op with
    | .steer g w => steerOk j g w
    | _ => true
  if (s.xd j).off || !ok then s
  else s.modXdDir j d (fun x => if x.pending.isSome then x else { x with pending := some (op, t) })

/-- A disable received: both directions switch at the one T, in place of a half width either awaited (R332, R336). -/
def State.xdCommandOff (s : State) (j : JoinId) (t : Word64) : State :=
  if (s.xd j).off then s
  else (allFin 2).foldl (fun u d => u.modXdDir j d (fun x => { x with pending := some (.disable, t) })) s

/-- XD_STEER (R329). -/
def execXdSteer (j : JoinId) (d : Fin 2) (g : BitVec 6) (w : BitVec 7) (swt : BitVec 3) (s : State) : Res :=
  .next (s.xdCommand j d (.steer g w) (switchTime s.time swt))

/-- XD_HALF (R330). -/
def execXdHalf (j : JoinId) (d : Fin 2) (h : Fin 2) (swt : BitVec 3) (s : State) : Res :=
  .next (s.xdCommand j d (.half h) (switchTime s.time swt))

/-- XD_DISABLE (R336): both directions at the one T. -/
def execXdDisable (j : JoinId) (swt : BitVec 3) (s : State) : Res :=
  .next (s.xdCommandOff j (switchTime s.time swt))

/-- REP_OP of a beat: a command for the opposite direction (Table 10-4). -/
def State.xdRepair (s : State) (j : JoinId) (d : Fin 2) (ctl : Word32) : State :=
  let o := otherDir d
  let t := switchTime s.time (bfld ctl 0 3)
  match fld ctl 16 2 with
  | 1 => s.xdCommand j o (.steer (bfld ctl 10 6) (bfld ctl 3 7)) t
  | 2 => s.xdCommand j o (.half (if bit ctl 3 then 1 else 0)) t
  | 3 => s.xdCommandOff j t
  | _ => s

/-- One step of PRBS31, x^31 + x^28 + 1 (R321; the polynomial is the one of that name, PRESUMED, log entry 57). -/
def prbs31 (x : BitVec 31) : BitVec 31 := (x <<< 1) ||| (if bit x 30 != bit x 27 then 1 else 0)

/-- The next 32 bits of a PRBS31 sequence, the first in bit 0, and its state after them. -/
def prbsWord (x : BitVec 31) : Word32 × BitVec 31 :=
  (List.range 32).foldl (fun (p : Word32 × BitVec 31) b => (setBit p.1 b (bit p.2 30), prbs31 p.2)) (0, x)

/-- The next n words of a sequence. -/
def prbsWords : Nat → BitVec 31 → List Word32 × BitVec 31
  | 0, x => ([], x)
  | n + 1, x =>
    let w := prbsWord x
    let r := prbsWords n w.2
    (w.1 :: r.1, r.2)

/-- The data words of an idle beat: every group carries the same stretch of the sequence, with its check bits (R321). -/
def fillWords (j : JoinId) (x : BitVec 31) : List (BitVec 39) × BitVec 31 :=
  let per := if isBridge j then 2 else 4
  let r := prbsWords per x
  ((List.range 128).map (fun w => eccCode (r.1.getD (w % per) 0)), r.2)

/-- The data words of a beat as they arrive: of an idle beat the fill, changed where the wires change it (R321). -/
def State.arrived (s : State) (j : JoinId) (d : Fin 2) (b : Beat) (valid : Bool) : List (BitVec 39) :=
  if valid then b.words else List.zipWith (· ^^^ ·) (fillWords j ((s.xd j).dir d).fill).1 b.words

/-- The data words of a beat as delivered, each with its poison. -/
def beatData (b : Beat) : List (Word32 × Bool) :=
  b.words.map (fun v => let r := eccDecode v; (r.1, r.2.poisoned))

/-- A beat accepted: its words counted, credits and command taken, and a beat of data held for its channel. -/
def State.xdAccept (s : State) (j : JoinId) (d : Fin 2) (b : Beat) (ctl : Word32) : State :=
  let who := if bit ctl 31 && decide (fld ctl 29 2 < 2) then beatWho b.words else none
  let s1 := (s.arrived j d b (bit ctl 31)).zipIdx.foldl (fun t p => t.xdWord j d (bit ctl 31) who p.2 p.1) s
  let s2 := (s1.xdCredit j d ctl).xdRepair j d ctl
  if bit ctl 31 then
    s2.modXdDir j d (fun x =>
      if h : fld ctl 29 2 < 3 then
        let c : Fin 3 := ⟨fld ctl 29 2, h⟩
        { x with beats := x.beats + 1, carried := some s.time, credits := vmod x.credits c (fun k => k - 1)
                 buffers := vmod x.buffers c (fun l => l ++ [beatData b]) }
      else { x with beats := x.beats + 1, carried := some s.time })
  else s2.modXdDir j d (fun x => { x with fill := (fillWords j x.fill).2 })

/-- Whether the sender may send a beat, where the direction does not pause: one of data only with a credit of its
channel (R323). -/
def XdDir.sends (x : XdDir) (ctl : Word32) : Bool :=
  (!(bit ctl 31) ||
    (if h : fld ctl 29 2 < 3 then decide (0 < vget x.credits ⟨fld ctl 29 2, h⟩) else true))

/-- A corrected bit of the control field counts against the control wire of its group. -/
def State.xdCtlCount (s : State) (j : JoinId) (d : Fin 2) (r : WordRead) (syn : BitVec 7) : State :=
  let g := fun (i : Nat) => if isBridge j then i else i / 2
  match r with
  | .fixedData i | .fixedCheck i => s.xdCorrected j d (g i, 78) syn
  | _ => s

/-- XD_BEAT_RECEIVE: a beat crosses a direction and is received; one that its sender may not send does not come. -/
def execXdBeatReceive (j : JoinId) (d : Fin 2) (b : Beat) (s : State) : Res :=
  if b.words.length ≠ 128 then .fault .illFormed
  else if (s.xd j).off || !((s.xd j).trained) then .next s
  else
    let c := controlOf b.control
    let syn := syndrome (bfld b.control 0 39)
    if s.dirHolds j d || (!c.2.2 && !(((s.xd j).dir d).sends c.1)) then .next s
    else if c.2.2 then .next (s.xdCtrlUe j d syn)
    else
      let ctl := c.1
      let routed := bit ctl 31 && decide (fld ctl 29 2 < 2)
      match (b.words.take 4).find? (fun v => (eccDecode v).2.poisoned) with
      | some v => if routed then .next (s.xdCtrlUe j d (syndrome v)) else .next ((s.xdCtlCount j d c.2.1 syn).xdAccept j d b ctl)
      | none => .next ((s.xdCtlCount j d c.2.1 syn).xdAccept j d b ctl)

/-! ### Windows (R327) -/

/-- XD_ERROR_WINDOW (R327): at a multiple of 1,024 ns the window that ends leaves no count; what the window that begins
has counted at that instant stays. A wire at FAIL_COUNT that was not declared when its count reached it, because FAIL_COUNT
was lowered since, is declared. -/
def execXdErrorWindow (j : JoinId) (d : Fin 2) (s : State) : Res :=
  if s.time.toNat % 1024 ≠ 0 ∨ ((s.xd j).dir d).window = s.time.toNat / 1024 then .next s
  else
    let x := (s.xd j).dir d
    let lim := max (fld (s.xd j).ctl 0 16) 1
    let bad := ((x.windowCe.filter (fun p => decide (lim ≤ p.2) && !(x.told.contains p.1))).map (fun p =>
      (⟨BitVec.ofNat 6 (p.1 / 128), BitVec.ofNat 7 (p.1 % 128), 0⟩ : XdDecl)))
    .next ((s.modXdDir j d (fun x => { x with windowCe := [], told := [] })).xdDeclare j d
      (if x.window + 1 = s.time.toNat / 1024 then bad else []))

/-- XD_CLOCK_LOSS (R327): bridges have no clock wires. -/
def execXdClockLoss (j : JoinId) (d : Fin 2) (g : BitVec 6) (alt : Bool) (s : State) : Res :=
  if isBridge j ∨ 32 ≤ g.toNat then .next s
  else .next (s.xdDeclare j d [⟨g, if alt then 0x7D else 0x7C, 0⟩])

/-! ### Switches and forced states (R328 to R330, R336, R337) -/

/-- XD_ISOLATED where some die has no path to another left (R334). -/
def State.xdIsolated (s : State) (j : JoinId) (d : Fin 2) : State :=
  if connected (s.enabledJoins j (s.xd j)) then s
  else (s.xdEvent j d 7 .chip 5 0 0x7F 0 s.time).chipFault

/-- The wires and clocks of a direction after a steer. One of position 79 or of clock 0x7D, with which a rotation ends,
returns the group to its own wires or its primary clock. -/
def XdDir.steer (x : XdDir) (g : BitVec 6) (w : BitVec 7) : XdDir :=
  if w = 0x7C then { x with altClk := setBit x.altClk g.toNat true }
  else if w = 0x7D then { x with altClk := setBit x.altClk g.toNat false }
  else { x with steered := Sparse.set 0x7F x.steered g.toNat (if w = 79 then 0x7F else w) }

/-- A direction at a switch time, as a command of a kind takes effect for it (R328). -/
def XdDir.switched (x : XdDir) (off : Bool) (op : XdOp) (t : Word64) : XdDir :=
  if off && x.pending.map (·.1) != some op then x else { x with pending := none, resume := t + 24 }

/-- The pending command of a direction takes effect at T; its beats go again from T + 24 ns. A forced DISABLED, or the end
of one, is the join's: both directions switch at the one T; any other force each direction takes at its own (R337). -/
def State.xdApply (s : State) (j : JoinId) (d : Fin 2) (op : XdOp) (t : Word64) : State :=
  let s1 := s.modXdDir j d (·.switched false op t)
  match op with
  | .steer g w => s1.modXdDir j d (·.steer g w)
  | .half k => (s1.modXdDir j d (fun x => { x with width := if k = 0 then 1 else 2 })).xdIsolated j d
  | .disable =>
    ((s1.modXdDir j (otherDir d) (·.switched true .disable t)).modXd j (fun x => { x with disabled := true })).xdIsolated j d
  | .forceState =>
    let f := bfld (s.xd j).ctl 30 2
    let s2 := s1.modXdDir j d (fun x => { x with forced := f })
    let s3 := if f = 3 ∨ ((s.xd j).dir d).forced = 3 then
        s2.modXdDir j (otherDir d) (fun x => { x.switched true .forceState t with forced := f })
      else s2
    (s3.xdEvent j d 8 .advisory 0 0 0x7F 0 t).xdIsolated j d

/-- XD_SWITCH: once T has come the pending command takes effect; what has waited for it is handled from T + 24 ns. -/
def execXdSwitch (j : JoinId) (d : Fin 2) (s : State) : Res :=
  let on := fun (t : State) => .next ((t.xdHandle j d).xdHandle j (otherDir d))
  match ((s.xd j).dir d).pending with
  | none => on s
  | some (op, t) => if s.time.toNat < t.toNat then .next s else on (s.xdApply j d op t)

/-- A write of XD[j].CTL (R337): refused where the forced state would isolate a die, every switch that is awaited and
every force written counted as made. -/
def State.xdForceOp (s : State) (j : JoinId) (v : Word32) : State :=
  if bfld v 30 2 ≠ 0 ∧ connected (s.joinsComing j { s.xd j with ctl := v }) = false then s.sysEvent 5 0x2B .event 0x07
  else ((s.modXd j (fun y => { y with ctl := v &&& 0xC000FFFF })).xdHandle j 0).xdHandle j 1

/-- XD_FORCE_WRITE. -/
def execXdForceWrite (by_ : Requester) (j : JoinId) (v : Word32) (s : State) : Res :=
  s.regWrite by_ 5 false (fun s => s.xdForceOp j v)

end Sys2Proof.Machine
end

