-- ==== Sys2Proof/Machine/Identity.lean ====
section
/-!
DEFINITION. What identifies a package (R521, R545 to R547): the identity registers, the certificates of slot 0, the die keys
and their reports, and the Azonatis area of the FRU store. What is fused or written at manufacture is a constant of Config
within the bounds the rules set it.
-/
namespace Sys2Proof.Machine

/-! ### Identity registers (R521, Table 17-1) -/

/-- ID_PRODUCT. -/
def idProduct : Word64 := 0x1E9C5704A1110000
/-- ID_FEATURES. -/
def idFeatures : Word64 := 0x0000000100000000
/-- ID_SERIAL: any value but 0 and all ones. -/
def idSerial : Word64 := BitVec.ofNat 64 (1 + Config.serial.toNat % (2 ^ 64 - 2))
/-- Device and Vendor ID of the HCP and of the HSP. -/
def deviceId (hsp : Bool) : Word32 := if hsp then 0x57051E9C else 0x57041E9C
/-- The part number, AZ-STV4-2048-A. -/
def partNumber : List Byte := [0x41, 0x5A, 0x2D, 0x53, 0x54, 0x56, 0x34, 0x2D, 0x32, 0x30, 0x34, 0x38, 0x2D, 0x41]

/-! ### Certificates and die keys (R546, R547) -/

/-- The Azonatis root, self-signed. The three certificates of slot 0 are at most 6 KiB in all. -/
def rootCert : List Byte := Config.rootCert.take 6144
/-- The Relal device CA. -/
def caCert : List Byte := Config.caCert.take (6144 - rootCert.length)
/-- The identity certificate, whose subject carries ID_SERIAL and the part number. -/
def identityCert : List Byte := (Config.identityCert idSerial partNumber).take (6144 - rootCert.length - caCert.length)
/-- The DER chain of certificate slot 0. -/
def certChain : List Byte := rootCert ++ caCert ++ identityCert
/-- The fused digest of the root's SubjectPublicKeyInfo. -/
def azonatisAnchor : BitVec 384 := Config.sha384 (Config.certKey rootCert)
/-- The certificate of a die, signed by the identity key. -/
def dieCert (d : DieId) : List Byte := Config.dieCert d.val ++ Config.identitySign (Config.sha384 (Config.dieCert d.val))

/-- Whether the report of its boot image and fuse configuration that a die signs with its key verifies against the die's
certificate (R546), by the values drawn. -/
def dieGood (d : DieId) (draw : Nat) : Bool :=
  let m := Config.sha384 (Config.dieReport d.val draw)
  Config.ecdsaGood (Config.certKey (dieCert d)) m (Config.dieSign d.val m)

/-! ### The Azonatis area (R545) -/

/-- A field of an information area: type and length, ASCII. -/
def fruField (b : List Byte) : List Byte := BitVec.ofNat 8 (0xC0 + b.length) :: b
/-- The checksum byte that makes the bytes sum to zero. -/
def zeroSum (b : List Byte) : Byte := 0 - b.foldl (· + ·) 0
/-- An information area: version, length in 8 bytes, body, end of fields, padding and checksum. -/
def fruArea (body : List Byte) : List Byte :=
  let n := (body.length + 3) / 8 + 1
  let a := [1, BitVec.ofNat 8 n] ++ body ++ [0xC1]
  let b := a ++ List.replicate (8 * n - 1 - a.length) 0
  b ++ [zeroSum b]
/-- ID_SERIAL in 16 digits, most significant first. -/
def serialDigits : List Byte :=
  (List.range 16).map (fun i => let d := fld idSerial (60 - 4 * i) 4; BitVec.ofNat 8 (if d < 10 then 48 + d else 55 + d))
/-- A1, the stepping. -/
def steppingName : List Byte := [0x41, 0x31]

/-- The Azonatis area by the IPMI definition R545 names (log entry 64): common header, board and product areas with part
number, stepping and ID_SERIAL, and a MultiRecord with the SHA-384 of the identity certificate. Names, the date and the
record's type are Config's. -/
def azonatisArea : List Byte :=
  let name := Config.fruName.take 32
  let board := fruArea ([0] ++ leBytes 3 Config.fruDate.toNat ++ fruField name ++ fruField name ++ fruField serialDigits ++
    fruField partNumber ++ fruField [] ++ fruField steppingName)
  let product := fruArea ([0] ++ fruField name ++ fruField name ++ fruField partNumber ++ fruField steppingName ++
    fruField serialDigits ++ fruField [] ++ fruField [])
  let record := leBytes 3 Config.fruMaker.toNat ++ leBytes 48 (Config.sha384 identityCert).toNat
  let head : List Byte := [Config.fruRecord, 0x82, BitVec.ofNat 8 record.length, zeroSum record]
  let common : List Byte := [1, 0, 0, 1, BitVec.ofNat 8 (1 + board.length / 8),
    BitVec.ofNat 8 (1 + board.length / 8 + product.length / 8), 0]
  common ++ [zeroSum common] ++ board ++ product ++ head ++ [zeroSum head] ++ record

/-- A byte of the Azonatis area; past its contents it is what manufacture left there. -/
def azonatisByte (a : Nat) : Byte := (azonatisArea[a]?).getD (Config.fruByte a)

/-! ### PEC (R545) -/

/-- One bit of the CRC-8 of the SMBus. -/
def crc8Bit (c : Byte) : Byte := if bit c 7 then (c <<< 1) ^^^ 0x07 else c <<< 1
/-- The packet error code of the bytes of a transaction. -/
def pec (bytes : List Byte) : Byte :=
  bytes.foldl (fun c b => crc8Bit (crc8Bit (crc8Bit (crc8Bit (crc8Bit (crc8Bit (crc8Bit (crc8Bit (c ^^^ b))))))))) 0

end Sys2Proof.Machine
end

