-- ==== Sys2Proof/Machine/Link.lean ====
section
/-!
DEFINITION. The ports and their link layer (R342 to R346, R372 to R384): frames received and sent with CRC, LSEQ and
LACK, replay and retraining, lane failures, training, the darkslide, and the time base.
-/
namespace Sys2Proof.Machine

/-! ### Ports (Table 1-3) -/

/-- The fabric die of a port. -/
def dieOfPort (k : PortId) : FabId := if [0, 1, 4, 5, 8, 10].contains k.val then 0 else 1
/-- The ports of a fabric die, ascending. -/
def portsOf (d : FabId) : List PortId := (allFin 12).filter (fun k => dieOfPort k == d)
/-- The opposite port of a darkslide pair. -/
def mate (k : PortId) : PortId :=
  if k.val < 4 then ⟨(k.val + 4) % 12, by omega⟩
  else if k.val < 8 then ⟨(k.val - 4) % 12, by omega⟩
  else if k.val < 10 then ⟨(k.val + 2) % 12, by omega⟩
  else ⟨(k.val - 2) % 12, by omega⟩
/-- The ports of darkslide pair i. -/
def pairPorts (i : Fin 6) : List PortId :=
  match i.val with
  | 0 => [0, 4] | 1 => [1, 5] | 2 => [8, 10] | 3 => [2, 6] | 4 => [3, 7] | _ => [9, 11]
/-- The darkslide pair of a port. -/
def pairOf (k : PortId) : Fin 6 := ((allFin 6).find? (fun i => (pairPorts i).contains k)).getD 0
/-- Whether a port's pair is closed. -/
def State.dark (s : State) (k : PortId) : Bool := bit s.route.darkClosed (pairOf k).val

/-- Port k. -/
def State.port (s : State) (k : PortId) : Port := vget s.ports k
/-- Change port k. -/
def State.modPort (s : State) (k : PortId) (f : Port → Port) : State := { s with ports := vmod s.ports k f }
/-- Whether a port is up. -/
def Port.up (x : Port) : Bool := bit x.status 31
/-- WIDTH. -/
def Port.width (x : Port) : Nat := fld x.status 29 2
/-- Whether a port runs at 4 lanes. -/
def Port.narrow (x : Port) : Bool := x.width == 1 || x.width == 2
/-- Whether every port is down. -/
def State.allPortsDown (s : State) : Bool := s.ports.toList.all (fun x => !x.up)

/-! ### The link layer (R345, R346) -/

/-- LSEQ. -/
def frLseq (f : Frame) : Byte := bfld f.header 192 8
/-- LACK. -/
def frLack (f : Frame) : Byte := bfld f.header 200 8
/-- The CRC a frame must carry: CRC-32 over bytes 0 to 27 and 32 to 287 (R346). -/
def frameCrc (f : Frame) : Word32 := crc32 (leBytes 28 f.header.toNat ++ f.payload)
/-- A frame as a port sends it: its link fields, with an LSEQ, and CRC. -/
def Port.stamp (x : Port) (starve : Bool) (seq : Byte) (f : Frame) : Frame :=
  let h := setFld (setFld f.header 192 8 seq.toNat) 200 8 x.lack.toNat
  let g : Frame := ⟨setBit (setBit h 31 x.lnak) 208 starve, f.payload⟩
  ⟨setFld g.header 224 32 (frameCrc g).toNat, g.payload⟩

/-- Send a frame on a port: kept for replay until acknowledged. LNAK has gone with it. -/
def Port.send (x : Port) (starve : Bool) (f : Frame) : Port :=
  let g := x.stamp starve (x.lseq + 1) f
  { x with lseq := x.lseq + 1, replay := x.replay ++ [g], sent := some g, lnak := false, txFrames := x.txFrames + 1 }

/-- The next frame to be sent again leaves, with the LACK, LNAK and STARVE of now (R345, R360). -/
def Port.sendAgain (x : Port) (starve : Bool) : Port :=
  match x.resend with
  | [] => x
  | f :: rest => { x with resend := rest, sent := some (x.stamp starve (frLseq f) f), lnak := false }

/-- The time words a port sends (R382): its time now, the receive stamp and own time of the last word it received, in
1/16 ns, and the DEPTH and LOCKED of R381. The order of the fields in the payload is log entry 63. -/
def State.timeWords (s : State) (k : PortId) : List Byte :=
  let x := s.port k
  leBytes 8 (16 * s.time.toNat) ++ leBytes 8 x.rxStamp.toNat ++ leBytes 8 x.rxTime.toNat ++
  leBytes 1 (fld s.route.timeStatus 36 7) ++ leBytes 1 (bnat (bit s.route.timeStatus 43)) ++ List.replicate 230 0

/-- A slot without a frame carries an IDLE with LACK, LNAK and STARVE, and time words (R343, R345, R360, R382). -/
def Port.sendIdle (x : Port) (starve : Bool) (bs : List Byte) : Port :=
  { x with sent := some (x.stamp starve 0 ⟨0, bs⟩), lnak := false }

/-- The frames a LACK leaves unacknowledged. -/
def unacked (l : List Frame) (ack : Byte) : List Frame :=
  match l.findIdx? (fun f => frLseq f == ack) with
  | some i => l.drop (i + 1)
  | none => l

/-- A link layer that starts again: the first frame sent and the first expected have LSEQ 0 (R372). Hold-store entries it
has reserved go as the frames that entered the store leave (R358). -/
def Port.restart (x : Port) : Port :=
  { x with lseq := 0xFF, lack := 0xFF, lnak := false, lnakRun := 0, replayAsk := false, busy := 0, resend := [],
           replay := [], lateLanes := [], sent := none }

/-- A link layer that starts again with the frames not acknowledged to be sent again, from LSEQ 0. -/
def Port.renumber (x : Port) : Port :=
  let fs := x.replay.zipIdx.map (fun p => x.restart.stamp false (BitVec.ofNat 8 p.2) p.1)
  { x.restart with replay := fs, resend := fs, lseq := 0xFF + BitVec.ofNat 8 fs.length }

/-- A port leaves ACTIVE: its replay buffer re-enters arbitration (R345); it trains again where asked. -/
def State.portDown (s : State) (k : PortId) (retrain : Bool) : State :=
  let x := s.port k
  let s1 := s.modFab (dieOfPort k) (fun f => { f with reentry := f.reentry ++ x.replay })
  let go := retrain && bit x.ctl 31
  s1.modPort k (fun y => { y.restart with
    status := setFld (setFld (setFld (setFld y.status 31 1 0) 29 2 3) 26 3 0) 20 4 (if go then 1 else 0)
    depthSeen := 0xFF })

/-- Retraining from stored parameters, with PORT_RETRAIN (R345 step 6). -/
def State.retrain (s : State) (k : PortId) : State :=
  (s.portDown k true).sysEvent (fabDie (dieOfPort k)) 0x29 .corrected 0x08

/-- A sender handles LACK and LNAK of a slot received: LNAKs count for one LSEQ until LACK advances. -/
def Port.takeAck (x : Port) (ack : Byte) (nak : Bool) : Port :=
  let rest := unacked x.replay ack
  let moved := decide (rest.length < x.replay.length)
  { x with replay := rest, lnakRun := if nak then (if moved then 1 else x.lnakRun + 1) else if moved then 0 else x.lnakRun,
           replayAsk := x.replayAsk || (nak && !rest.isEmpty) }

/-- What the link layer makes of a slot received on a port: the port after it and the frame passed on, if any. -/
def Port.receive (x : Port) (f : Frame) : Port × Option Frame :=
  if frameCrc f ≠ bfld f.header 224 32 then ({ x with lnak := true }, none)
  else
    let y := { x.takeAck (frLack f) (bit f.header 31) with rxFrames := x.rxFrames + 1 }
    if frCls f = 0 then (y, none)
    else if frLseq f = x.lack + 1 then ({ y with lack := frLseq f }, some f)
    else (y, none)

/-- FRAME_RECEIVE (R345): a slot arrives on a port that is up. -/
def execFrameReceive (k : PortId) (f : Frame) (s : State) : Res :=
  if f.payload.length ≠ 256 then .fault .illFormed
  else if !((s.port k).up) || s.dark k then .next s
  else
    let d := dieOfPort k
    let r := (s.port k).receive f
    let good := decide (frameCrc f = bfld f.header 224 32)
    let s1 := s.modPort k (fun _ => r.1)
    let s2 := if good && bit f.header 208 then s1.modFab d (fun x => { x with holdoff := true }) else s1
    let s3 := match r.2 with
      | some g => s2.modFab d (fun x => { x with arrivals := x.arrivals ++ [(k.val, g)] })
      | none => s2
    .next (if 16 ≤ r.1.lnakRun then s3.retrain k else s3)

/-- Hold-store entries reserved at a die. -/
def State.holdReserved (s : State) (d : FabId) : Nat :=
  ((portsOf d).map (fun k => (s.port k).reserved)).foldl (· + ·) 0

/-- Whether a port can reserve 128 hold-store entries (R358). -/
def State.canReserve (s : State) (k : PortId) : Bool := decide (s.holdReserved (dieOfPort k) + 128 ≤ 1024)

/-- The frames not acknowledged are to be sent again in the slots that follow, with hold-store entries reserved for
them. -/
def Port.again (x : Port) : Port :=
  { x with replayAsk := false, busy := x.replay.length, resend := x.replay, reserved := x.reserved + 128
           replays := x.replays + BitVec.ofNat 64 x.replay.length }

/-- All of some frames are sent again, with the link fields of now. -/
def Port.sendEach : Nat → Port → Port
  | 0, x => x
  | n + 1, x => Port.sendEach n (x.sendAgain false)

/-- Every frame that is to be sent again is. -/
def Port.sendAll (x : Port) : Port := Port.sendEach x.resend.length x

/-- The frames not acknowledged are sent again in order where an LNAK asked for it (R345 step 4, R358); by the island of
a closed pair, which has no hold store, at once (R373). -/
def State.replays (s : State) (k : PortId) : State :=
  let x := s.port k
  if !x.replayAsk then s
  else if s.dark k then
    s.modPort k (fun y => { y.again.sendAll with busy := y.busy, reserved := y.reserved })
  else if !x.up then s
  else if s.canReserve k then s.modPort k Port.again
  else s.retrain k

/-- The partner's island takes over its side of a port (R372): the link layer starts again at LSEQ 0, and every frame not
acknowledged is sent again. -/
def State.partnerRestarts (s : State) (k : PortId) : State :=
  let x := s.port k
  let n := x.replay.length
  if !x.up then s
  else if n ≠ 0 ∧ s.canReserve k = false then s.retrain k
  else s.modPort k (fun y => { y.renumber with
    busy := n, lateLanes := y.lateLanes, replays := y.replays + BitVec.ofNat 64 n
    reserved := (if y.waits.isEmpty then (if y.narrow then 2 else 0) else y.reserved) + (if n = 0 then 0 else 128) })

/-- LINK_REPLAY. -/
def execLinkReplay (r : Replay) (s : State) : Res :=
  match r with
  | .asked k => .next (s.replays k)
  | .takeover k => .next (s.partnerRestarts k)

/-- LANE_LOCK_LOSS (R345): a port that is up retrains. -/
def execLaneLockLoss (k : PortId) (s : State) : Res :=
  if (s.port k).up then .next (s.retrain k) else .next s

/-! ### Lanes (R344) -/

/-- LANES_FAILED: failed lanes of the direction received. -/
def Port.failedLanes (x : Port) : BitVec 10 := bfld x.status 10 10

/-- Failed lanes of a direction: `out` of the one the port sends. -/
def Port.failedOf (x : Port) (out : Bool) : BitVec 10 := if out then x.outFailed else x.failedLanes

/-- The physical lanes of a direction. -/
def Port.lanesOf (x : Port) (out : Bool) : List Nat := if out then x.outLanes else x.lanes

/-- A lane of a direction is failed. -/
def Port.markLane (x : Port) (out : Bool) (l : Nat) : Port :=
  if out then { x with outFailed := setBit x.outFailed l true }
  else { x with status := setFld x.status 10 10 (setBit x.failedLanes l true).toNat }

/-- Other lanes carry a direction. -/
def Port.withLanes (x : Port) (out : Bool) (l : List Nat) : Port :=
  if out then { x with outLanes := l } else { x with lanes := l }

/-- A free spare lane: neither in use nor failed nor under rotation. -/
def Port.freeLane (x : Port) (out : Bool) (held : List (Nat × Nat)) : Option Nat :=
  (List.range 10).find? (fun m =>
    !((x.lanesOf out).contains m) && !(bit (x.failedOf out) m) && !(held.any (fun h => h.1 == m)))

/-- Whether a half of the active lanes holds no failed lane in either direction. -/
def Port.halfGood (x : Port) (half : Nat) : Bool :=
  [false, true].all (fun out => ((x.lanesOf out).drop (4 * half)).take 4 |>.all (fun m => !(bit (x.failedOf out) m)))

/-- What a lane failure makes of a port: a spare in its place, half the lanes of both directions, or down (none). `held`
are the lanes under rotation, each with the spare that carries its bytes: with no other spare free the rotation ends and
its spare is committed to the failed lane (R560). -/
def Port.laneFails (x : Port) (out : Bool) (held : List (Nat × Nat)) (l : Nat) : Option Port × Bool :=
  let y := x.markLane out l
  match (x.lanesOf out).idxOf? l with
  | none => (some y, false)
  | some i =>
    match y.freeLane out held, held.find? (fun h => h.2 != l) with
    | some m, _ => (some (y.withLanes out ((x.lanesOf out).set i m)), true)
    | none, some h => (some (y.withLanes out (((x.lanesOf out).map (fun m => if m = h.2 then h.1 else m)).set i h.2)), true)
    | none, none =>
      let half := i / 4
      if x.width = 0 then
        if y.halfGood (1 - half) = false then (none, false)
        else (some { y with status := setFld y.status 29 2 (if half = 0 then 2 else 1), reserved := y.reserved + 2 }, false)
      else if (x.width = 1 ∧ half = 0) ∨ (x.width = 2 ∧ half = 1) then (none, false)
      else (some y, false)

/-- The lanes of a port under rotation, with the spares that carry their bytes. -/
def State.heldLanes (s : State) (k : PortId) : List (Nat × Nat) :=
  s.test.rotation.filterMap (fun r =>
    match r.1 with
    | .lane p l => if p = k then some (l.val, r.2) else none
    | _ => none)

/-- Whether an item is a lane of a port that satisfies a test. -/
def laneOf (k : PortId) (f : Nat → Bool) (x : TestItem) : Bool :=
  match x with
  | .lane p l => p == k && f l.val
  | _ => false

/-- The rotations a lane failure ends: its own, the one whose spare fails, and one whose spare it takes. -/
def State.laneEnds (s : State) (k : PortId) (l : Nat) : State :=
  let held := s.heldLanes k
  let own := fun m => m == l || held.any (fun h => h.1 == m && h.2 == l)
  let taken := if (s.port k).lanes.contains l && (((s.port k).markLane false l).freeLane false held).isNone then
      (held.find? (fun h => h.2 != l)).map (·.1)
    else none
  s.endRotations (laneOf k (fun m => own m || taken == some m))

/-- A lane of the direction a port receives is declared failed (R344): its partner's output is busy with a
replacement. -/
def State.laneDeclared (s : State) (k : PortId) (l : Nat) : State :=
  let held := (s.heldLanes k).filter (fun h => h.1 != l && h.2 != l)
  match ((s.port k).laneFails false held l).1 with
  | some y => (s.laneEnds k l).modPort k (fun _ => y)
  | none => ((s.laneEnds k l).modPort k (·.markLane false l)).portDown k false

/-- A lane of the direction a port sends was declared failed at the far end, and the two ends agree: a replacement keeps
the output busy for 64 slots, with entries reserved; without room for them it is made later (R344, R358). -/
def State.laneAgreed (s : State) (k : PortId) (l : Nat) : State :=
  match (s.port k).laneFails true [] l with
  | (some y, true) =>
    if s.canReserve k then s.modPort k (fun _ => { y with busy := y.busy + 64, reserved := y.reserved + 128 })
    else s.modPort k (fun z => { z.markLane true l with lateLanes := z.lateLanes ++ [l] })
  | (some y, false) => s.modPort k (fun _ => y)
  | (none, _) => (s.modPort k (·.markLane true l)).portDown k false

/-- The oldest replacement that awaits room is made in the first slot that has it (R358). -/
def State.laneLate (s : State) (k : PortId) : State :=
  match (s.port k).lateLanes with
  | [] => s
  | l :: rest =>
    if s.canReserve k then (s.modPort k (fun x => { x with lateLanes := rest })).laneAgreed k l else s

/-- LANE_ERROR_WINDOW (R344): a window of a receiver ends. -/
def execLaneErrorWindow (k : PortId) (e : LaneErrs) (s : State) : Res :=
  let lim := max (fld (s.port k).ctl 0 16) 1
  let bad := (List.range 10).filter (fun l =>
    decide (lim ≤ (vgetD 0 e.count l).toNat) && !(bit ((s.port k).failedOf e.out) l))
  if (s.port k).up then
    .next (bad.foldl (fun t l => if (t.port k).up then (if e.out then t.laneAgreed k l else t.laneDeclared k l) else t) s)
  else .next s

/-! ### Training (R342, R378 to R380) -/

/-- Physical dimensions of a routing slot (Table 11-13). -/
def RouteSlot.dims (x : RouteSlot) : Nat × Nat :=
  (if fld x.cfg 0 7 = 0 then 64 else fld x.cfg 0 7, if fld x.cfg 8 8 = 0 then 128 else fld x.cfg 8 8)

/-- The dimensions a port checks its partner with: of the ACTIVE slot, else of a slot that has been sealed, else none. -/
def State.torus (s : State) : Option (Nat × Nat) :=
  match s.route.slots.toList.find? (fun x => x.state == .active) with
  | some x => some x.dims
  | none => (s.route.slots.toList.find? (fun x => x.state != .retired)).map RouteSlot.dims

/-- Whether coordinate b lies `n` steps up from a on a ring of known size, or on some ring of 3 to `most` (R342). -/
def stepsUp (size : Option Nat) (most n a b : Nat) : Bool :=
  match size with
  | some m => decide (b = (a + n) % m)
  | none => decide (b = a + n ∧ b < most) || decide (b < n ∧ 3 + b ≤ a + n ∧ a + n ≤ most + b)

/-- Whether a partner's position lies `n` steps from this package's along port k's direction. -/
def State.partnerAt (s : State) (k : PortId) (node : BitVec 16) (n : Nat) : Bool :=
  let me := s.nodeId
  let x := fld me 8 8; let y := fld me 0 8; let x' := fld node 8 8; let y' := fld node 0 8
  let px := s.torus.map (·.1); let py := s.torus.map (·.2)
  if k.val < 4 then decide (x = x') && stepsUp py 128 n y y'
  else if k.val < 8 then decide (x = x') && stepsUp py 128 n y' y
  else if k.val < 10 then decide (y = y') && stepsUp px 64 n x x'
  else decide (y = y') && stepsUp px 64 n x' x

/-- Set STAGE. -/
def Port.setStage (x : Port) (n : Nat) : Port := { x with status := setFld x.status 20 4 n }

/-- A port refused at training stays down, with its record. -/
def State.trainRefused (s : State) (k : PortId) (code : Byte) : State :=
  (s.modPort k (fun x => { x.setStage 0 with status := setFld (setFld (setFld x.status 29 2 3) 26 3 0) 20 4 0 })).sysEvent
    (fabDie (dieOfPort k)) code .advisory 0x08

/-- An IDENT as a signature covers it: NODE_ID, port, GEN_MAX and FEATURES (R378, R380; their order is log entry 63). -/
def identBytes (node : BitVec 16) (port gen : Nat) (features : Word32) : List Byte :=
  leBytes 2 node.toNat ++ leBytes 1 port ++ leBytes 1 gen ++ leBytes 4 features.toNat

/-- The IDENT of port k of this package: generation 1 and PEER_AUTH (R379). -/
def State.ownIdent (s : State) (k : PortId) : List Byte := identBytes s.nodeId k.val 1 1

/-- IDENT (R342, R377, R379); the challenge of AUTH is drawn with it (R380). -/
def State.trainIdent (s : State) (k : PortId) (q : PortPartner) : State :=
  let right := decide (q.port.toNat = (mate k).val)
  let near := s.partnerAt k q.node 1 && right
  let relay := s.partnerAt k q.node 2 && right
  if !near && !relay then s.trainRefused k 0x26
  else if q.genMax = 0 ∨ 3 < q.genMax.toNat then s.trainRefused k 0x27
  else
    ({ s with freeCtr := s.freeCtr + 1 }).modPort k (fun x => { x.setStage 4 with
      peer := (q.features &&& 1) ++ (q.node ++ (q.port ++ (bfld q.genMax 0 2 ++ (0 : BitVec 10))))
      challenge := Config.nonce s.freeCtr, answer := []
      idents := (identBytes q.node q.port.toNat q.genMax.toNat q.features, s.ownIdent k)
      status := setBit (setFld x.status 20 4 4) 24 (!near) })

/-- Whether a digest is an enabled trust anchor (R550). -/
def Mgmt.trusts (m : Mgmt) (d : BitVec 384) : Bool :=
  (m.azonatis && d == azonatisAnchor) || m.anchors.toList.any (fun a => a == some d)

/-- Whether the partner's answer to the challenge of a port proves an identity that chains to a trust anchor (R380). -/
def State.peerProves (s : State) (k : PortId) (q : PortPartner) : Bool :=
  let x := s.port k
  let m := leBytes 32 x.challenge.toNat ++ x.idents.1 ++ x.idents.2
  match Config.chainOf q.chain with
  | some (key, root) => s.mgmt.trusts root && Config.ecdsaGood key (Config.sha384 m) q.signature
  | none => false

/-- The answer a port gives its partner's challenge: a signature by the identity key over the challenge, its own IDENT and
the partner's as sent in stage IDENT, and the chain (R380, R550). -/
def State.authAnswer (s : State) (k : PortId) (q : PortPartner) : List Byte :=
  let x := s.port k
  Config.identitySign (Config.sha384 (leBytes 32 q.challenge.toNat ++ x.idents.2 ++ x.idents.1)) ++ certChain

/-- AUTH (R380): where either end requires it, each answers the other's challenge; the management core signs (R536), and the
stage waits while it does not run. PEER_AUTH is what the partner's IDENT said. -/
def State.trainAuth (s : State) (k : PortId) (q : PortPartner) : State :=
  let need := bit (s.port k).ctl 30 || q.authReq
  if need && !s.mgmt.running then s
  else if need && !(bit (s.port k).peer 32 && s.peerProves k q) then s.trainRefused k 0x28
  else s.modPort k (fun x => { x with
    status := setBit (setFld x.status 20 4 5) 26 need, answer := if need then s.authAnswer k q else [] })

/-- LANE (R378): from the parameters the AUX island holds, else in full, which finds new ones: free values. -/
def State.trainLane (s : State) (k : PortId) : State :=
  ({ s with freeCtr := s.freeCtr + 1 }).modPort k (fun x =>
    { x.setStage 2 with params := some (x.params.getD (Config.freeWord s.freeCtr)) })

/-- Hold-store entries a port that has trained holds reserved: 2 at 4 lanes, and those of an earlier busy interval that frames
still hold (R358). -/
def Port.reservedAfter (x : Port) : Nat :=
  (if x.chosen = 1 ∨ x.chosen = 2 then 2 else 0) + (if x.waits.isEmpty then 0 else x.reserved)

/-- SELECT: every lane failed or found bad is replaced or left out (R344, R378); a port without enough lanes is refused.
The width chosen shows once the port is ACTIVE. -/
def State.trainSelect (s : State) (k : PortId) (bad outBad : BitVec 10) : State :=
  let s := s.endRotations (laneOf k (fun _ => true))
  let start := { s.port k with
    lanes := List.range 8, outLanes := List.range 8, status := setFld (s.port k).status 29 2 0 }
  let fail := fun (out : Bool) (o : Option Port) (l : Nat) => o.bind (fun x => (x.laneFails out [] l).1)
  let r := (ones (start.outFailed ||| outBad)).foldl (fail true)
    ((ones (start.failedLanes ||| bad)).foldl (fail false) (some start))
  match r with
  | some x => s.modPort k (fun _ => { x.setStage 3 with
      chosen := BitVec.ofNat 2 x.width, reserved := (s.port k).reserved, status := setFld (setFld x.status 29 2 3) 20 4 3 })
  | none => s.modPort k (fun x => x.setStage 0)

/-- The lanes of a port count as tested, 32 slices of 50 µs, at the end of its training (R563). -/
def State.lanesTested (s : State) (k : PortId) : State :=
  { s with test := { s.test with
      tested := s.test.tested.filter (fun e => !(laneOf k (fun _ => true) e.1)) ++
        (allFin 10).map (fun l => (TestItem.lane k l, 1600000, true)) } }

/-- The port is ACTIVE: WIDTH and GEN show what was chosen and negotiated, its link layer starts, and DARK
shows whether its pair is closed (R385). The island of a closed pair sends the frames again that its neighbour has not
acknowledged (R372, R373). With the first full training the package has been fully trained (R383). -/
def State.trainActive (s : State) (k : PortId) (asym : Int) : State :=
  let start := fun (y : Port) => if s.dark k then
      { y.renumber.sendAll with busy := 0, turnBack := y.turnBack, onward := y.onward } else y.restart
  ({ s with route := { s.route with fullTrained := true } }.modPort k (fun y => { start y with
    asym := asym, reserved := y.reservedAfter
    status := setBit (setBit (setFld (setFld (setFld y.status 29 2 y.chosen.toNat) 27 2 1) 20 4 6) 31 true) 25
      (s.dark k) })).lanesTested k

/-- PORT_TRAIN_STAGE (Table 11-11): a stage completes; from STAGE 0 training begins where EN and NODE_ID allow. WIDTH and
GEN read down until the port is ACTIVE. -/
def execPortTrainStage (k : PortId) (q : PortPartner) (s : State) : Res :=
  let x := s.port k
  match fld x.status 20 4 with
  | 0 => .next (if bit x.ctl 31 && bit s.route.nodeId 31 then s.modPort k (·.setStage 1) else s)
  | 1 => .next (s.trainLane k)
  | 2 => .next (s.trainSelect k q.lanesBad q.outBad)
  | 3 => .next (s.trainIdent k q)
  | 4 => .next (s.trainAuth k q)
  | 5 => .next (s.trainActive k q.asym)
  | _ => .next s

/-! ### The darkslide (R372 to R377) -/

/-- Whether a condition of R372 holds. -/
def State.darkCause (s : State) : Bool :=
  s.start.aux && (s.faults.chipPhase.isSome || !s.start.coreOn || s.route.active.isNone)

/-- What closing does (Table 11-10): the islands take every port that no closed pair carries yet, frames held in the core
are lost. -/
def State.closeDark (s : State) : State :=
  { s with
    route := { s.route with darkClosed := 0x3F }
    ports := Vector.ofFn (fun k =>
      if s.dark k then s.port k
      else { (s.port k).restart with reserved := 0, waits := [], status := setBit (s.port k).status 25 true })
    fabs := s.fabs.map (fun f => { f with arrivals := [], hold := [], inject := [], reentry := [] }) }

/-- DARKSLIDE_CLOSE. -/
def execDarkslideClose (s : State) : Res :=
  if s.darkCause && s.route.darkClosed != 0x3F then .next s.closeDark else .next s

/-- Whether a frame for the absent node is dropped and not turned back (R374). -/
def notReturned (f : Frame) : Bool :=
  frCls f == 2 || (frCls f == 5 && frKind f == 1) || frStatus f == 1

/-- A frame turned back: SRC and DST swapped, STATUS DEAD_END. -/
def frTurned (f : Frame) : Frame :=
  ⟨setFld (setFld (setFld f.header 32 16 (frDst f).toNat) 48 16 (frSrc f).toNat) 12 4 1, f.payload⟩

/-- A frame for the absent node (R374): queued on its port, or dropped. -/
def State.darkReturn (s : State) (k : PortId) (f : Frame) : State :=
  let drop := { s with route := { s.route with darkCnt := satAdd s.route.darkCnt 0 32 1 } }
  if notReturned f || decide (32 ≤ (s.port k).turnBack.length) then drop
  else
    { (s.modPort k (fun x => { x with turnBack := x.turnBack ++ [frTurned f] })) with
      route := { s.route with darkCnt := satAdd s.route.darkCnt 32 32 1 } }

/-- The next slot of a port's island: the oldest frame it has to forward; in a slot that forwarding leaves free the oldest
turned back; an IDLE, which passes on the time words that came, where there is none, or 128 frames are unacknowledged
(R345, R373, R374, R382). -/
def Port.sendOnward (x : Port) (words : List Byte) : Port :=
  if 128 ≤ x.replay.length then x.sendIdle false words
  else
    match x.onward, x.turnBack with
    | f :: rest, _ => { (x.send false f) with onward := rest }
    | [], f :: rest => { (x.send false f) with turnBack := rest }
    | [], [] => x.sendIdle false words

/-- The island of a closed pair retrains a port (R345 step 6): it has no router at which frames could enter arbitration
again, so it keeps those not acknowledged to be sent again; a port that was up trains anew. -/
def State.islandRetrain (s : State) (k : PortId) : State :=
  let x := s.port k
  (s.modPort k (fun y => { y.renumber.sendAll with
    depthSeen := 0xFF
    status := if x.up then setFld (setFld (setFld (setFld y.status 31 1 0) 29 2 3) 26 3 0) 20 4 (if bit x.ctl 31 then 1 else 0)
      else y.status })).sysEvent (fabDie (dieOfPort k)) 0x29 .corrected 0x08

/-- DARKSLIDE_FORWARD (R373, R374): a slot arrives on a port of a closed pair, and the opposite port sends its next. -/
def execDarkslideForward (k : PortId) (f : Frame) (s : State) : Res :=
  if f.payload.length ≠ 256 then .fault .illFormed
  else if !(s.dark k) then .next s
  else
    let r := (s.port k).receive f
    let s1 := s.modPort k (fun _ => r.1)
    let words := if frameCrc f = bfld f.header 224 32 ∧ frCls f = 0 then f.payload else List.replicate 256 0
    let s2 := match r.2 with
      | none => s1
      | some g =>
        if frDst g = s.nodeId then s1.darkReturn k g
        else s1.modPort (mate k) (fun x => { x with onward := x.onward ++ [g] })
    let s3 := s2.modPort (mate k) (·.sendOnward words)
    .next (if 16 ≤ r.1.lnakRun then s3.islandRetrain k else s3)

/-- The queues of an island are emptied onto its link; frames for which 128 unacknowledged leave no room enter arbitration at
the router, which takes over the port (R375). -/
def State.islandEmpties (s : State) (k : PortId) : State :=
  let l := (s.port k).onward ++ (s.port k).turnBack
  let n := 128 - (s.port k).replay.length
  (s.modPort k (fun x =>
    let y := (l.take n).foldl (fun y f => y.send false f) x
    { y with turnBack := [], onward := [], status := setBit y.status 25 false })).modFab (dieOfPort k)
    (fun x => { x with reentry := x.reentry ++ l.drop n })

/-- DARKSLIDE_OPEN (R375): a pair whose ports have trained opens once no cause remains; its turn-back queues are
emptied onto the links. -/
def execDarkslideOpen (i : Fin 6) (s : State) : Res :=
  if s.darkCause || !((pairPorts i).all (fun k => (s.port k).up)) || !(bit s.route.darkClosed i.val) then .next s
  else
    let s1 := (pairPorts i).foldl State.islandEmpties s
    .next { s1 with route := { s1.route with darkClosed := setBit s1.route.darkClosed i.val false } }

/-- BYPASS_FAIL (R377): DARKSLIDE_REQ_N is driven low. -/
def execBypassFail (_island : Fin 2) (s : State) : Res :=
  if s.start.aux then .next (({ s with route := { s.route with darkReq := true, reqHigh := false } }).alertSet 4)
  else .next s

/-- BYPASS_SELF_TEST_PASS (R605): DARKSLIDE_REQ_N is driven high. -/
def execBypassSelfTestPass (s : State) : Res :=
  if s.start.aux then .next { s with route := { s.route with darkReq := false, reqHigh := true } } else .next s

/-! ### Time (R381 to R383) -/


/-- The parent a package takes: the up neighbour with the lowest DEPTH, the lower port on a tie (R381). -/
def State.bestParent (s : State) : Option PortId :=
  (allFin 12).foldl (fun b k =>
    let x := s.port k
    if !x.up || decide (128 ≤ x.depthSeen.toNat) then b
    else
      match b with
      | none => some k
      | some m => if x.depthSeen.toNat < (s.port m).depthSeen.toNat then some k else b) none

/-- Take the parent (Table 11-16); none leaves LOCKED 0. -/
def State.chooseParent (s : State) : State :=
  if s.route.master then s
  else
    match s.bestParent with
    | none => { s with route := { s.route with timeStatus := setBit s.route.timeStatus 43 false } }
    | some k =>
      let x := s.port k
      let w := setFld (setFld s.route.timeStatus 48 16 (fld x.peer 16 16)) 44 4 k.val
      { s with route := { s.route with
        timeStatus := setFld (setFld (setBit w 43 true) 36 7 (x.depthSeen.toNat + 1)) 0 32 x.offset.toNat } }

/-- TIME_PARENT_SELECT (R381): a package without its parent chooses another. -/
def execTimeParentSelect (s : State) : Res := .next s.chooseParent

/-- The offset to a partner, in 1/16 ns (R382); the halving rounds down. -/
def timeOffset (t1 t2 t3 t4 : Word64) : Word32 :=
  BitVec.ofInt 32 ((((t2.toNat : Int) - t1.toNat) + ((t3.toNat : Int) - t4.toNat)) / 2)

/-- The one step forward at the first lock after full training, for a package that is behind (R383). -/
def State.firstLockStep (s : State) : State :=
  if bit s.route.timeStatus 43 && !s.route.master && !s.route.firstLock && s.route.fullTrained then
    let off := (bfld s.route.timeStatus 0 32).toInt
    ({ s with route := { s.route with firstLock := true } }).stepTime
      (if 0 < off ∧ s.route.anyOpen = false then off.toNat / 16 else 0)
  else s

/-- TIME_WORD (R381, R382): a word arrives on an up port; the offset it gives is corrected for the asymmetry of the
lanes. -/
def execTimeWord (k : PortId) (t1 t2 t3 t4 : Word64) (depth : BitVec 7) (locked : Bool) (s : State) : Res :=
  if (s.port k).up then
    .next ((s.modPort k (fun x => { x with
      offset := timeOffset t1 t2 t3 t4 + BitVec.ofInt 32 x.asym, rxStamp := t4, rxTime := t1
      depthSeen := if locked then depth.zeroExtend 8 else 0xFF })).chooseParent).firstLockStep
  else .next s

/-- TIME_WORD_INSERT (R382): one slot of a port carries no frame but time words. -/
def execTimeWordInsert (k : PortId) (s : State) : Res :=
  if (s.port k).up then
    .next (s.modPort k (fun x => { x.sendIdle (s.fab (dieOfPort k)).starve (s.timeWords k) with busy := x.busy + 1 }))
  else .next s

/-- TIME_SLEW (R383): one tick added or omitted toward the parent, at most one in any 1 µs. -/
def execTimeSlew (s : State) : Res :=
  let off := (bfld s.route.timeStatus 0 32).toInt
  let soon := match s.route.slewAt with
    | some t => decide (s.time.toNat < t.toNat + 1000)
    | none => false
  if !(bit s.route.timeStatus 43) || s.route.master || off == 0 || soon then .next s
  else
    let r := { s.route with slewAt := some s.time }
    if 0 < off then .next (({ s with route := r }).stepTime 1)
    else .next { s with route := { r with omitTick := true } }

end Sys2Proof.Machine
end

