-- ==== Sys2Proof/Machine/Router.lean ====
section
/-!
DEFINITION. The routers of the two fabric dies (R335, R348, R355 to R361) and the end-to-end layer above them (R349,
R351 to R354, R362 to R366): injection, streams and their order, credits and source slots, reads and writes from the
torus, and the fabric's configuration registers (R363, R368, R369, R389, R390).
-/
namespace Sys2Proof.Machine

/-! ### Routing slots and productive ports (R355) -/

/-- Routing slot i. -/
def State.rslot (s : State) (i : Nat) : RouteSlot := if i = 0 then vget s.route.slots 0 else vget s.route.slots 1

/-- The directions productive from (x, y) to (x', y'): Y+, Y−, X+, X− (R355). -/
def productive (px py x y x' y' : Nat) : List Nat :=
  let dx := (x' + px - x) % px
  let dy := (y' + py - y) % py
  (if 0 < dy ∧ dy ≤ py - dy then [0] else []) ++ (if 0 < dy ∧ py - dy ≤ dy then [1] else []) ++
  (if 0 < dx ∧ dx ≤ px - dx then [2] else []) ++ (if 0 < dx ∧ px - dx ≤ dx then [3] else [])

/-- The direction a port faces. -/
def facing (k : PortId) : Nat := if k.val < 4 then 0 else if k.val < 8 then 1 else if k.val < 10 then 2 else 3

/-- Whether a port is up and enabled in a routing slot. -/
def State.usable (s : State) (t : RouteSlot) (k : PortId) : Bool := (s.port k).up && bit t.cfg (16 + k.val)

/-- The productive ports of a die for a destination under a slot. -/
def State.productivePorts (s : State) (d : FabId) (t : RouteSlot) (dst : BitVec 16) : List PortId :=
  let me := s.nodeId
  let ds := productive t.dims.1 t.dims.2 (fld me 8 8) (fld me 0 8) (fld dst 8 8) (fld dst 0 8)
  (portsOf d).filter (fun k => ds.contains (facing k) && s.usable t k)

/-! ### Ages and order (R356) -/

/-- Age of a frame at a time, in ns. -/
def State.age (s : State) (f : Frame) : Nat := (fld s.time 4 24 + 2 ^ 24 - fld f.header 96 24) % 2 ^ 24 * 16
/-- AGE_MAX in ns. -/
def Routing.ageMax (r : Routing) : Nat := max (fld r.ageCfg 24 8) 8 * 1000
/-- The escalation age in ns. -/
def Routing.escAge (r : Routing) : Nat := max (fld r.ageCfg 16 8) 1 * 1000
/-- The starvation wait in ns. -/
def Routing.injWait (r : Routing) : Nat := max (fld r.ageCfg 8 8) 1 * 1000

/-- A frame to be routed: where it came from (0 to 5 ports of the die, 6 and 7 cross paths, 8 the hold store). -/
structure Cand where
  input : Nat
  frame : Frame
  deriving DecidableEq, Repr

/-- Lexicographic order. -/
def lexLe : List Nat → List Nat → Bool
  | [], _ => true
  | _, [] => false
  | a :: l, b :: m => if a = b then lexLe l m else decide (a < b)

/-- Insert by key, after equals. -/
def insertKey (x : List Nat × Cand) : List (List Nat × Cand) → List (List Nat × Cand)
  | [] => [x]
  | y :: l => if lexLe y.1 x.1 then y :: insertKey x l else x :: y :: l

/-- The key of a frame: smaller goes first. -/
def State.routeKey (s : State) (d : FabId) (c : Cand) : List Nat :=
  let f := c.frame
  let a := s.age f
  if s.route.escAge ≤ a then [0, 2 ^ 29 - a, (frSrc f).toNat, frCls f, (frChan f).toNat, (frSeq f).toNat]
  else [1, 2 ^ 29 - a / 64, (c.input + (s.fab d).rotate) % 9]

/-- The frames of a slot in their order. -/
def State.ordered (s : State) (d : FabId) (cs : List Cand) : List Cand :=
  ((cs.map (fun c => (s.routeKey d c, c))).foldl (fun l x => insertKey x l) []).map (·.2)

/-! ### One slot of a router (R357) -/

/-- An output of a fabric die: a port, or one of its two cross paths. -/
inductive Out where
  | port (k : PortId)
  | cross (r : Fin 2)
  deriving DecidableEq, Repr

/-- The number of an output: that of its port; 12 and 13 the cross paths. -/
def Out.num : Out → Nat
  | .port k => k.val
  | .cross r => 12 + r.val

/-- What a slot has left: the state, the cross paths of the die, the outputs free and those used, whether an escalated frame
was routed. -/
structure Slotting where
  st    : State
  paths : List (List JoinId)
  free  : List Out
  used  : BitVec 14
  esc   : Bool

/-- The other fabric die. -/
def otherFab (d : FabId) : FabId := if d = 0 then 1 else 0

/-- The cross paths of a fabric die: a row of R19 each; where neither row is whole, one path of R334 if there is one,
from T + 24 ns of the switch that took the last row (R336). -/
def State.crossPaths (s : State) (d : FabId) : List (List JoinId) :=
  let rows : List (List JoinId) := if d = 0 then [[4, 0, 6], [5, 2, 7]] else [[6, 0, 4], [7, 2, 5]]
  match rows.filter (·.all (fun j => !((s.xd j).off))) with
  | [] => if rows.any (·.all (s.joinsLate.contains ·)) then [] else (s.diePath (fabDie d) (fabDie (otherFab d)) 0).toList
  | l => l

/-- The cross outputs free at the start of a slot: those whose path does not pause (R328). -/
def State.crossOutputs (s : State) (d : FabId) : List Out :=
  (((s.crossPaths d).zip [(0 : Fin 2), 1]).filter (fun p => s.pathGoes (fabDie d) p.1)).map (fun p => Out.cross p.2)

/-- Frames a die sent by an output in its last 64 slots. -/
def Fab.sentOn (x : Fab) (o : Out) : Nat := (x.history.filter (fun m => bit m o.num)).length

/-- The output of a list with fewest frames sent, the first on a tie: the ports by index, before the cross paths. -/
def Fab.pick (x : Fab) : List Out → Option Out
  | [] => none
  | k :: l =>
    match x.pick l with
    | none => some k
    | some m => if x.sentOn k ≤ x.sentOn m then some k else some m

/-- Whether a port's output is free at the start of a slot (R344, R345, R358). -/
def State.outFree (s : State) (d : FabId) (k : PortId) : Bool :=
  let x := s.port k
  x.up && x.busy == 0 && !x.replayAsk && decide (x.replay.length < 128) && (!x.narrow || decide ((s.fab d).rotate % 2 = 0))

/-- Whether a die sets STARVE (R358, R360). -/
def State.starves (s : State) (d : FabId) : Bool :=
  let x := s.fab d
  !x.hold.isEmpty || (match x.inject with | [] => false | f :: _ => decide (s.route.injWait ≤ s.age f))

/-- A frame leaves by an output; one that crosses is routed at the other die. -/
def Slotting.take (a : Slotting) (d : FabId) (o : Out) (f : Frame) : Slotting :=
  { a with
    st := match o with
      | .port k => a.st.modPort k (·.send (a.st.fab d).starve f)
      | .cross r =>
        let g := a.st.carryFrame (fabDie d) (a.paths.getD r.val []) f
        g.2.modFab (otherFab d) (fun x => { x with arrivals := x.arrivals ++ [(o.num, g.1)] })
    free := a.free.filter (· != o), used := setBit a.used o.num true }

/-- The first free cross output. -/
def Slotting.cross (a : Slotting) : Option Out := a.free.find? (fun o => decide (12 ≤ o.num))

/-- The free ports among some. -/
def Slotting.among (a : Slotting) (l : List PortId) : List Out := (l.map Out.port).filter (a.free.contains ·)

/-- Whether a die serves an endpoint. -/
def serves (d : FabId) (ep : BitVec 3) : Bool :=
  if d = 0 then ep == 0 || ep == 2 || ep == 4 else ep == 1 || ep == 3 || ep == 5 || ep == 6

/-- Whether a stream of a class uses credits (R364). -/
def usesCredits (cls : Nat) : Bool := cls == 1 || cls == 3 || cls == 4

/-- A stream frame reaches its context (R353, R354): an earlier frame is a duplicate; SOS sets the expected SEQ. -/
def Stream.accept (x : Stream) (f : Frame) : Stream × Bool :=
  let y := if frSos f then
      { x with expected := some (frSeq f), held := x.held.filter (fun g => notLater (frSeq f) (frSeq g)) }
    else x
  match y.expected with
  | some e =>
    if !(notLater e (frSeq f)) || y.held.any (fun g => frSeq g == frSeq f) then (y, true)
    else ({ y with held := y.held ++ [f] }, false)
  | none => if y.held.any (fun g => frSeq g == frSeq f) then (y, true) else ({ y with held := y.held ++ [f] }, false)

/-- A context with nothing received yet. -/
def Stream.fresh (f : Frame) : Stream :=
  { cls := BitVec.ofNat 4 (frCls f), chan := frChan f, src := frSrc f, sep := frSep f, dep := frDep f, expected := none,
    held := [], unreported := 0, lastTaken := 0, status := 0 }

/-- A frame ejects at a die (R354, R362, R366): returned frames, CREDIT and MNT at once, others to their stream. -/
def State.eject (s : State) (d : FabId) (f : Frame) : State :=
  if frStatus f = 1 ∨ (frCls f = 2 ∧ frKind f = 1) then s.modFab d (fun x => { x with delivered := x.delivered ++ [f] })
  else if frCls f = 5 then { s with mgmt := { s.mgmt with mntIn := s.mgmt.mntIn ++ [f] } }
  else
    s.modFab d (fun x =>
      let l := if x.streams.any (fun y => y.of f) then x.streams else x.streams ++ [Stream.fresh f]
      let dup := l.any (fun y => y.of f && (y.accept f).2)
      { x with streams := l.map (fun y => if y.of f then (y.accept f).1 else y), dup := if dup then x.dup + 1 else x.dup })

/-- A discarded frame is counted and recorded (R357, R361). -/
def State.fabEvent (s : State) (d : FabId) (code : Byte) : State := s.sysEvent (fabDie d) code .event 0x08

/-- Whether a frame for an endpoint of a fabric die reaches it: one for a compute die over its interposer join or through
the column partner (R335). -/
def State.delivers (s : State) (d : FabId) (f : Frame) : Bool :=
  if h : (frDep f).toNat < 4 then (s.deliverPath (fabDie d) ⟨(frDep f).toNat, by omega⟩).isSome else true

/-- The steps of R357 that find a frame an output, with its escalation; none where none is free. -/
def Slotting.output (a : Slotting) (d : FabId) (esc : Bool) (f : Frame) : Option Slotting :=
  let s := a.st
  let t := s.rslot (frEpoch f)
  match (s.fab d).pick (a.among (s.productivePorts d t (frDst f))) with
  | some k => some (a.take d k f)
  | none =>
    let near := if bit t.cfg 31 && !(bit f.header 9) && !esc then
        (s.fab d).pick (a.among ((portsOf d).filter (s.usable t ·))) else none
    match near with
    | some k => some (a.take d k ⟨setBit f.header 9 true, f.payload⟩)
    | none =>
      match if (s.productivePorts (otherFab d) t (frDst f)).isEmpty then none else a.cross with
      | some o => some (a.take d o f)
      | none =>
        ((s.fab d).pick a.free).map (fun o =>
          ({ a with st := s.modFab d (fun x => { x with deflect := x.deflect + 1 }) }).take d o
            ⟨satAdd f.header 120 8 1, f.payload⟩)

/-- Route one frame of a slot (R357, R358). -/
def Slotting.route (a : Slotting) (d : FabId) (c : Cand) : Slotting :=
  let s := a.st
  let f := c.frame
  let esc := decide (s.route.escAge ≤ s.age f)
  let here := frDst f == s.nodeId
  let done := fun (b : Slotting) => { b with esc := b.esc || esc }
  let held := { a with st := s.modFab d (fun x => { x with
    hold := x.hold ++ [f], holdIn := if c.input = 8 then x.holdIn else x.holdIn + 1 }) }
  if s.route.ageMax ≤ s.age f then
    { a with st := (s.modFab d (fun x => { x with expired := x.expired + 1 })).fabEvent d 0x21 }
  else if here && serves d (frDep f) then
    if s.delivers d f then done { a with st := s.eject d f } else held
  else
    match if here then a.cross else none with
    | some o => done (a.take d o f)
    | none =>
      if (s.rslot (frEpoch f)).state = .retired then
        { a with st := (s.modFab d (fun x => { x with stale := x.stale + 1 })).fabEvent d 0x22 }
      else
        match a.output d esc f with
        | some b => done b
        | none => held

/-- Offer a free productive output to a frame (R359); none where there is none. -/
def Slotting.offer (a : Slotting) (d : FabId) (f : Frame) : Option Slotting :=
  let s := a.st
  let t := s.rslot (frEpoch f)
  match (s.fab d).pick (a.among (s.productivePorts d t (frDst f))) with
  | some k => some (a.take d k f)
  | none =>
    if (s.productivePorts (otherFab d) t (frDst f)).isEmpty = false ∨ frDst f = s.nodeId then
      a.cross.map (fun o => a.take d o f)
    else none

/-- A replay re-entry (R345, R357, R370): one too old or of a RETIRED slot is discarded, one at its destination ejects,
the others are offered the outputs still free in order, and one without output waits. -/
def Slotting.reenter (a : Slotting) (d : FabId) (f : Frame) : Slotting :=
  let s := a.st
  let esc := decide (s.route.escAge ≤ s.age f)
  let done := fun (b : Slotting) => { b with esc := b.esc || esc }
  if s.route.ageMax ≤ s.age f then
    { a with st := (s.modFab d (fun x => { x with expired := x.expired + 1 })).fabEvent d 0x21 }
  else if frDst f == s.nodeId && serves d (frDep f) && s.delivers d f then done { a with st := s.eject d f }
  else if frDst f ≠ s.nodeId ∧ (s.rslot (frEpoch f)).state = .retired then
    { a with st := (s.modFab d (fun x => { x with stale := x.stale + 1 })).fabEvent d 0x22 }
  else
    match (if frDst f = s.nodeId then a.offer d f else a.output d esc f) with
    | some b => done b
    | none => { a with st := s.modFab d (fun x => { x with reentry := x.reentry ++ [f] }) }

/-- The key of a stream at its source. -/
def streamKey (f : Frame) : Nat :=
  (((frCls f * 16 + (frChan f).toNat) * 65536 + (frDst f).toNat) * 8 + (frSep f).toNat) * 8 + (frDep f).toNat

/-- The direction of the ports a ring has a frame of its engine leave by (R393). -/
def Fab.wayOf (x : Fab) (f : Frame) : Option Nat :=
  match x.slots.find? (fun z => streamKey z.frame == streamKey f && frSeq z.frame == frSeq f) with
  | some z => (match z.use with | .coll _ w => w | _ => none)
  | none => none

/-- Offer outputs to injections, oldest first (R359). A frame of a ring leaves by a port of its engine's own die that is
productive for it, and of the direction concerned where one is (R393); only a die without such ports has it cross. -/
def Slotting.inject (a : Slotting) (d : FabId) (f : Frame) : Slotting :=
  let ps := a.st.productivePorts d (a.st.rslot (frEpoch f)) (frDst f)
  match
    match (a.st.fab d).wayOf f with
    | some w =>
      let qs := ps.filter (fun k => facing k == w)
      if ps.isEmpty then a.offer d f
      else ((a.st.fab d).pick (a.among (if qs.isEmpty then ps else qs))).map (fun o => a.take d o f)
    | none => a.offer d f
  with
  | some b => b
  | none => { a with st := a.st.modFab d (fun x => { x with inject := x.inject ++ [f] }) }

/-- A slot of a port ends. Where it sent no frame of this slot it sends the next of a replay, nothing while a lane is
replaced, else an IDLE (R343 to R345); the closed slots of a port at 4 lanes carry nothing and do not count (R344). Its reservation ends with its busy interval, once the frames that entered the hold
store meanwhile have left (R358). -/
def State.portTick (s : State) (d : FabId) (used : Bool) (entered : List Frame) (k : PortId) : State :=
  let hold := (s.fab d).hold
  let words := s.timeWords k
  let starve := (s.fab d).starve
  let open_ := !((s.port k).narrow) || decide ((s.fab d).rotate % 2 = 0)
  s.modPort k (fun x =>
    let b := if open_ then x.busy - 1 else x.busy
    let y := if used then x
      else if !open_ then { x with sent := none }
      else if !x.resend.isEmpty then x.sendAgain starve
      else if x.busy ≠ 0 then { x with sent := none }
      else if x.up then x.sendIdle starve words
      else { x with sent := none }
    let waits := (y.waits ++ (if x.busy = 0 then [] else entered)).filter (hold.contains ·)
    { y with busy := b, waits := waits
             reserved := if b = 0 ∧ waits.isEmpty then (if x.narrow then 2 else 0) else x.reserved })

/-- ROUTER_SLOT (R357 to R360): the next slot of a fabric die. -/
def execRouterSlot (d : FabId) (s : State) : Res :=
  let x := s.fab d
  let pos := fun (k : Nat) => if k < 12 then (portsOf d).findIdx (fun p => p.val == k) else k - 6
  let cs := x.arrivals.map (fun p => (⟨pos p.1, p.2⟩ : Cand)) ++ x.hold.map (fun f => ⟨8, f⟩)
  let starve := s.starves d
  let s0 := s.modFab d (fun y => { y with arrivals := [], hold := [], starve := starve })
  let a0 : Slotting :=
    ⟨s0, s.crossPaths d, ((portsOf d).filter (s.outFree d ·)).map Out.port ++ s.crossOutputs d, 0, false⟩
  let a1 := (s.ordered d cs).foldl (fun a c => a.route d c) a0
  let back := (a1.st.fab d).reentry
  let a2 := back.foldl (fun a f => a.reenter d f)
    { a1 with st := a1.st.modFab d (fun y => { y with reentry := [] }) }
  let quiet := a2.esc || (a2.st.fab d).holdoff || !(a2.st.fab d).hold.isEmpty || !x.hold.isEmpty ||
    a2.st.route.active.isNone
  let q := (a2.st.fab d).inject
  let a3 := if quiet then a2
    else q.foldl (fun a f => a.inject d f) { a2 with st := a2.st.modFab d (fun y => { y with inject := [] }) }
  let entered := (a3.st.fab d).hold.filter (fun f => !(x.hold.contains f))
  let s4 := (portsOf d).foldl (fun t k => t.portTick d (bit a3.used k.val) entered k) a3.st
  let s5 := s4.modFab d (fun y => { y with history := (a3.used :: y.history).take 64, rotate := y.rotate + 1 })
  .next ((portsOf d).foldl State.laneLate s5)

/-- STARVE_HOLDOFF_END (R360). -/
def execStarveHoldoffEnd (d : FabId) (s : State) : Res := .next (s.modFab d (fun x => { x with holdoff := false }))

/-! ### Source slots (R364, R365) -/

/-- The fault code of a mover for a frame status (R352, Table 7-9). -/
def moverCode (st : BitVec 4) : Byte :=
  match st.toNat with
  | 1 => 0x09 | 2 => 0x07 | 3 => 0x03 | 4 => 0x08 | _ => 0x0A

/-- The remote address of a piece of a transfer. -/
def State.pieceAddr (s : State) (c : CellId) (i : Fin 8) (k : Nat) : Word64 :=
  match s.xfer c i with
  | none => 0
  | some r =>
    let sd := r.ins.sides s c k
    if sd.1.isRemote then sd.1.address else sd.2.address

/-- A frame's use ends with a status other than OK. -/
def State.useFails (s : State) (u : FrameUse) (st : BitVec 4) : State :=
  match u with
  | .mover c i k _ => (s.dmFail c i (moverCode st) (s.pieceAddr c i k)).dmReturned c i
  | .coll i _ => if st = 1 then s.collDeadEnd i.val else s
  | .twin p m => if st = 1 then s.twinAbsent p else if st = 5 then s else s.twinRefused p m
  | .restore p _ => if st = 1 then s.twinAbsent p else s.restoreEnd p 2 0
  | .sheet p _ => if (s.sheet p).asked then s.sheetFail p 4 else s
  | _ => s

/-- A write of a transfer is consumed at its destination. -/
def State.useDone (s : State) (u : FrameUse) : State :=
  match u with
  | .mover c i _ n => (s.dmMoved c i n).dmReturned c i
  | _ => s

/-- Give a grant one credit back. -/
def Fab.creditBack (x : Fab) (g : Option (Fin 4096)) : Fab :=
  match g with
  | none => x
  | some i =>
    let w := Sparse.get 0 x.grantTx i.val
    { x with grantTx := Sparse.set 0 x.grantTx i.val (setFld w 0 16 (fld w 0 16 + 1)) }

/-- Release a slot: its credit returns if it has not already, a REQ's reply entry is free. -/
def Fab.release (x : Fab) (z : SrcSlot) : Fab :=
  let y := if z.waitRsp then x else x.creditBack z.grant
  { y with slots := y.slots.erase z, rspUsed := if frCls z.frame = 1 then y.rspUsed - 1 else y.rspUsed }

/-- The grant a frame leaves under: one in force for its class, endpoints and node as it enters the injection queue
(R363). -/
def State.grantOf (s : State) (d : FabId) (o : OutFrame) : Option (Fin 4096) :=
  match o.grant, o.node with
  | some _, some n => (s.fab d).txGrant (frCls o.frame) (frSep o.frame) (frDep o.frame) n
  | _, _ => none

/-- The physical destination at injection (R348): a granted frame's, and a collective frame's, logical node is translated
through NODE_MAP of the ACTIVE slot; none where it is absent or the grant is no longer VALID (R349). -/
def State.destination (s : State) (d : FabId) (o : OutFrame) : Option (BitVec 16) :=
  match o.grant, o.node with
  | some _, some n => if (s.grantOf d o).isSome then s.physical n else none
  | some _, none => none
  | none, some n => s.physical n
  | none, none => some (frDst o.frame)

/-- The MPOSTs of the management core still in flight: until AGE_MAX after they left (R366, log entry 63). -/
def State.postsOut (s : State) : List (BitVec 16) :=
  (s.mgmt.posts.filter (fun e => decide (s.time.toNat < e.2.toNat + s.route.ageMax))).map (·.1)

/-- The interposer join of the column of a frame's source, a compute die. -/
def sourceJoin (f : Frame) : Option JoinId :=
  match (frSep f).toNat with
  | 0 => some 4 | 1 => some 6 | 2 => some 5 | 3 => some 7 | _ => none

/-- The injection queue a frame enters: the other die's where the interposer join of its compute die is off (R335). -/
def State.injectDie (s : State) (d : FabId) (f : Frame) : FabId :=
  match sourceJoin f with
  | some j => if (s.xd j).off then otherFab d else d
  | none => d

/-- The compute die that injects a frame. -/
def sourceDie (f : Frame) : Option DieId :=
  if h : (frSep f).toNat < 4 then some ⟨(frSep f).toNat, by omega⟩ else none

/-- Whether the path of a frame to the die that injects it passes now (R328, R335): one whose join has gone off waits until
that switch is over (R336). -/
def State.injectOpen (s : State) (d : FabId) (f : Frame) : Bool :=
  (match sourceDie f with
   | some c => s.pathOpen c (fabDie (s.injectDie d f)) 0
   | none => true) &&
  (match sourceJoin f with
   | some j => !((s.xd j).off && s.joinsLate.contains j)
   | none => true)

/-- A frame as it comes to the die that injects it. -/
def State.toInject (s : State) (d : FabId) (f : Frame) : State :=
  let e := s.injectDie d f
  let r := match sourceDie f with
    | some c => s.carryFrame c ((s.diePath c (fabDie e) 0).getD []) f
    | none => (f, s)
  r.2.modFab e (fun x => { x with inject := x.inject ++ [r.1] })

/-- Whether the outbox frame may enter the injection queue (R359, R363 to R366). One whose grant is no longer VALID does
so at once, to find its node absent. -/
def State.injectable (s : State) (d : FabId) (o : OutFrame) : Bool :=
  let x := s.fab d
  let slot := decide (x.slots.length < 8192)
  let w := match s.grantOf d o with
    | some i => Sparse.get 0 x.grantTx i.val
    | none => 0
  let gone := o.grant.isSome && (s.grantOf d o).isNone
  let avail := decide (0 < fld w 0 16)
  s.injectOpen d o.frame &&
  match frCls o.frame with
  | 1 => gone || (slot && avail && decide (x.rspUsed < fld x.robCfg 0 16))
  | 3 => gone || (slot && avail)
  | 4 =>
    match o.use with
    | .coll i _ =>
      slot && decide ((x.slots.filter (fun z => z.use.ofColl i.val && some (frDst z.frame) == s.destination d o)).length <
        (s.colld i.val).desc.credits)
    | _ => slot
  | 5 => frKind o.frame == 1 || !((s.mgmt.pool ++ s.postsOut).contains (frDst o.frame))
  | _ => true

/-- The next answer tag that none of some holds, `n` passed over at most. -/
def nextTag (held : List (BitVec 16)) : Nat → BitVec 16 → BitVec 16
  | 0, t => t
  | n + 1, t => if held.contains t then nextTag held n (t + 1) else t

/-- The RTAG a REQ reserves: one that no REQ outstanding holds (R365). -/
def Fab.freeTag (x : Fab) : BitVec 16 :=
  let held := (x.slots.filter (fun z => frCls z.frame == 1)).map (fun z => frTag z.frame)
  nextTag held held.length x.rtagNext

/-- A frame as it enters the injection queue: destination, EPOCH, AGE_T, SEQ, SOS and RTAG (R353, R359, R365, R370). -/
def State.dressed (s : State) (d : FabId) (o : OutFrame) (dst : BitVec 16) : Frame :=
  let x := s.fab d
  let f : Frame := ⟨setFld o.frame.header 48 16 dst.toNat, o.frame.payload⟩
  let key := streamKey f
  let ep := match s.route.active with | some i => i.val | none => 0
  let h := setFld (setFld f.header 8 1 ep) 96 24 (fld (s.timeOn (fabDie d)) 4 24)
  let h := if frCls f = 2 ∧ frKind f = 1 then h
    else setBit (setFld h 64 32 (Sparse.get 0 x.seqNext key).toNat) 30 (!(Sparse.get false x.sosDone key))
  ⟨if frCls f = 1 then setFld h 176 16 x.freeTag.toNat else h, f.payload⟩

/-- The books of a die for a frame that enters the injection queue. -/
def Fab.booked (x : Fab) (o : OutFrame) (f : Frame) : Fab :=
  let key := streamKey f
  let cls := frCls f
  let held := cls == 1 || cls == 3 || cls == 4
  let y := match o.grant with
    | some i =>
      let w := Sparse.get 0 x.grantTx i.val
      if held then { x with grantTx := Sparse.set 0 x.grantTx i.val (setFld w 0 16 (fld w 0 16 - 1)) } else x
    | none => x
  let z := if cls = 2 ∧ frKind f = 1 then y else { y with
    seqNext := Sparse.set 0 y.seqNext key (Sparse.get 0 y.seqNext key + 1), sosDone := Sparse.set false y.sosDone key true }
  { z with
    slots := if held then z.slots ++ [⟨f, o.use, o.grant, false⟩] else z.slots
    rspUsed := if cls = 1 then z.rspUsed + 1 else z.rspUsed
    rtagNext := if cls = 1 then frTag f + 1 else z.rtagNext
    collFrames := if cls = 4 then z.collFrames + 1 else z.collFrames }

/-- An MREQ of this package reserves its MRSP entry as it leaves, an MPOST is in flight (R366). -/
def State.mntBooked (s : State) (f : Frame) : State :=
  if frCls f ≠ 5 then s
  else
    match frKind f with
    | 0 => { s with mgmt := { s.mgmt with pool := s.mgmt.pool ++ [frDst f] } }
    | 2 => { s with mgmt := { s.mgmt with
        posts := s.mgmt.posts.filter (fun e => (s.postsOut).contains e.1) ++ [(frDst f, s.time)] } }
    | _ => s

/-- FRAME_INJECT (R359): the oldest frame that may enters the injection queue; with no ACTIVE slot none does (R370). -/
def execFrameInject (d : FabId) (s : State) : Res :=
  match s.route.active, (s.fab d).outbox.findIdx? (s.injectable d ·) with
  | some _, some i =>
    match (s.fab d).outbox[i]? with
    | none => .next s
    | some o =>
      let s1 := s.modFab d (fun x => { x with outbox := x.outbox.eraseIdx i })
      match s1.destination d o with
      | none => .next (s1.useFails o.use 1)
      | some dst =>
        let f := s1.dressed d o dst
        .next (((s1.mntBooked f).modFab d (·.booked { o with grant := s1.grantOf d o } f)).toInject d f)
  | _, _ => .next s

/-- The streams of a slot's frame start again with SOS (R353). -/
def Fab.restartStream (x : Fab) (f : Frame) : Fab := { x with sosDone := Sparse.set false x.sosDone (streamKey f) false }

/-- The slot a returned frame belongs to, and its die. -/
def State.slotOf (s : State) (f : Frame) : Option (FabId × SrcSlot) :=
  (allFin 2).findSome? (fun d =>
    ((s.fab d).slots.find? (fun z => frCls z.frame == frCls f && frChan z.frame == frChan f &&
      frSeq z.frame == frSeq f && frDst z.frame == frSrc f && frSep z.frame == frSep f && frDep z.frame == frDep f)).map
      (fun z => (d, z)))

/-- DEAD_END_RETURN (R364, R374): the slot of a returned frame is released and its transfer completes DEAD_END. -/
def execDeadEndReturn (d : FabId) (s : State) : Res :=
  match (s.fab d).delivered.find? (fun f => frStatus f == 1) with
  | none => .next s
  | some f =>
    let s1 := s.modFab d (fun x => { x with delivered := x.delivered.erase f })
    if frCls f = 5 then
      .next ({ s1 with mgmt := { s1.mgmt with
        pool := s1.mgmt.pool.filter (· != frSrc f), posts := s1.mgmt.posts.filter (fun e => e.1 != frSrc f) } }.modFab
        (fabOf (frSep f)) (·.restartStream ⟨setFld f.header 48 16 (frSrc f).toNat, f.payload⟩))
    else
      match s1.slotOf f with
      | none => .next s1
      | some (e, z) => .next ((s1.modFab e (fun x => (x.release z).restartStream z.frame)).useFails z.use 1)

/-- SOURCE_SLOT_TIMEOUT (R364): a slot held for twice AGE_MAX is released and its transfer completes POISON. -/
def execSourceSlotTimeout (d : FabId) (i : Nat) (s : State) : Res :=
  match (s.fab d).slots[i]? with
  | none => .next s
  | some z => .next ((s.modFab d (fun x => (x.release z).restartStream z.frame)).useFails z.use 5)

/-! ### Streams and credits (R354, R364) -/

/-- The frames of a stream that may be delivered, in order, and what is left. -/
def Stream.run (x : Stream) : Nat → List Frame × Stream
  | 0 => ([], x)
  | n + 1 =>
    match x.expected with
    | none => ([], x)
    | some e =>
      match x.held.find? (fun f => frSeq f == e) with
      | none => ([], x)
      | some f =>
        let r := Stream.run { x with expected := some (e + 1), held := x.held.erase f } n
        (f :: r.1, r.2)

/-- STREAM_DELIVER (R354): frames of a stream reach its consumer in ascending SEQ. -/
def execStreamDeliver (d : FabId) (i : Nat) (s : State) : Res :=
  match (s.fab d).streams[i]? with
  | none => .next s
  | some x =>
    let r := x.run x.held.length
    .next (s.modFab d (fun y => { y with streams := y.streams.set i r.2, delivered := y.delivered ++ r.1 }))

/-- The credit entry of a stream (Table 11-5). -/
def Stream.entry (x : Stream) (seq : Word32) (st : BitVec 4) (n : Nat) : Credit :=
  let w : Word64 := setFld (setFld (setFld (setFld (setFld 0 48 8 st.toNat) 40 3 x.dep.toNat) 36 4 x.cls.toNat) 32 4
    x.chan.toNat) 0 32 seq.toNat
  ⟨x.src, x.sep, x.dep, w, n⟩

/-- What a stream's consumer has taken and not reported becomes an entry (R364). -/
def Stream.report (x : Stream) : Stream × List Credit :=
  if x.unreported = 0 then (x, [])
  else ({ x with unreported := 0, status := 0 }, [x.entry x.lastTaken x.status x.unreported])

/-- The earliest held SEQ of a stream. -/
def Stream.earliest (x : Stream) : Option Word32 :=
  x.held.foldl (fun m f => match m with
    | none => some (frSeq f)
    | some q => some (if notLater (frSeq f) q then frSeq f else q)) none

/-- A gap is skipped: the expected SEQ is the earliest held; frames taken are reported OK, those skipped LOST. -/
def Stream.skip (x : Stream) (q : Word32) : Stream × List Credit :=
  let y := { x with expected := some q }
  if usesCredits x.cls.toNat then
    let r := y.report
    (r.1, r.2 ++ [y.entry (q - 1) 6 0])
  else (y, [])

/-- ROB_GAP (R354): a frame still missing AGE_MAX after a later one arrived. -/
def execRobGap (d : FabId) (i : Nat) (s : State) : Res :=
  match (s.fab d).streams[i]? with
  | none => .next s
  | some x =>
    match x.earliest with
    | none => .next s
    | some q =>
      if x.expected = some q then .next s
      else
        let r := x.skip q
        .next ((s.modFab d (fun y => { y with
          streams := y.streams.set i r.1, credits := y.credits ++ r.2, gap := y.gap + 1 })).fabEvent d 0x20)

/-- A frame a die sends of its own accord: class, kind, channel, status, partition, endpoints, destination, tag,
address and payload. -/
def State.replyFrame (s : State) (cls kind : Nat) (chan st : BitVec 4) (part : Nat) (dep sep : BitVec 3)
    (dst tag : BitVec 16) (addr : Nat) (len : Nat) (bs : List Byte) : OutFrame :=
  { frame := ⟨mkHeader cls kind chan st part dep sep (max len 1) s.nodeId dst tag addr, padPayload bs⟩
    use := .none, grant := none, node := none }

/-- CREDIT_FLUSH (R364): queued entries for one source node and endpoint leave in one frame. -/
def execCreditFlush (d : FabId) (s : State) : Res :=
  let s1 := s.modFab d (fun x =>
    let rs := x.streams.map (fun (y : Stream) => if usesCredits y.cls.toNat then y.report else (y, []))
    { x with streams := rs.map (·.1), credits := x.credits ++ (rs.map (·.2)).flatten })
  match (s1.fab d).credits with
  | [] => .next s1
  | c :: _ =>
    let same := fun (e : Credit) => e.dst == c.dst && e.dep == c.dep
    let go := ((s1.fab d).credits.filter same).take 32
    let rest := ((s1.fab d).credits.filter same).drop 32 ++ (s1.fab d).credits.filter (fun e => !(same e))
    let bs := (go.map (fun e => leBytes 8 e.entry.toNat)).flatten
    .next ((s1.modFab d (fun x => { x with credits := rest })).sendOut d
      [s1.replyFrame 2 1 0 0 0 c.dep c.ep c.dst 0 0 bs.length bs])

/-- One credit entry from a node and endpoint for a source endpoint (R364). -/
def State.takeCredit (s : State) (d : FabId) (node : BitVec 16) (sep : BitVec 3) (e : Word64) : State :=
  let st : BitVec 4 := bfld e 48 4
  let hit := fun (z : SrcSlot) =>
    decide (frCls z.frame = fld e 36 4) && frChan z.frame == bfld e 32 4 && frDst z.frame == node &&
    frDep z.frame == bfld e 40 3 && frSep z.frame == sep && notLater (frSeq z.frame) (bfld e 0 32)
  ((s.fab d).slots.filter hit).foldl (fun t z =>
    if frCls z.frame = 1 ∧ st ≠ 6 then
      let u := t.modFab d (fun x =>
        let y := if z.waitRsp then x else x.creditBack z.grant
        { y with slots := y.slots.map (fun w => if w = z then { w with waitRsp := true } else w) })
      if st = 0 then u else u.useFails z.use st
    else
      let u := t.modFab d (·.release z)
      if st = 0 then u.useDone z.use else u.useFails z.use st) s

/-- RSP_CREDIT (R364): a frame of credit entries arrives. -/
def execRspCredit (d : FabId) (s : State) : Res :=
  match s.takeFrame d 2 1 with
  | none => .next s
  | some (f, s1) =>
    let n := frLen f / 8
    .next ((List.range n).foldl (fun t i =>
      t.takeCredit d (frSrc f) (frDep f) (BitVec.ofNat 64 (field f.payload (8 * i) 8))) s1)

/-! ### Reads and writes from the torus (R351, R352) -/

/-- A cell store range of a request: in the partition's cells and one of a slot's parts (R235). -/
def State.remoteCell (s : State) (p : PartId) (a n : Nat) : Option (CellId × Nat) :=
  let w := windowOf a
  if inWindow a n && s.partOf w.1 == some p && ((s.cell w.1).inPart 0 w.2 n || (s.cell w.1).inPart 1 w.2 n) then some w
  else none

/-- What a REQ READ finds (Table 11-4): status, bytes and the state after the read. -/
def State.remoteRead (s : State) (p : PartId) (a n : Nat) : BitVec 4 × List Byte × State :=
  if windowBase ≤ a then
    match s.remoteCell p a n with
    | none => (3, [], s)
    | some (c, o) =>
      let m := (s.cell c).store
      (if m.anyPoison o n then 5 else 0, m.read o n, s)
  else if s.reaches p a n then
    let b := s.dramBytes a n
    (if b.2.isEmpty then 0 else 5, b.1, s.sees p false none a n)
  else (2, [], s)

/-- REQ_READ (R351, R365): answered by an RSP DATA frame. -/
def execReqRead (d : FabId) (s : State) : Res := s.gated (fabDie d) (fun s =>
  match s.takeFrame d 1 0 with
  | none => .next s
  | some (f, s1) =>
    let r := s1.remoteRead (frPart f) (frAddr f) (frLen f)
    .next ((r.2.2.consumed d f 0).sendOut d
      [s1.replyFrame 2 0 (frChan f) r.1 (frPart f).val (frSep f) (frDep f) (frSrc f) (frTag f) (frAddr f) (frLen f) r.2.1]))

/-- RSP_DATA (R352, R365): the data of a read reaches its transfer, poisoned where its status says so, or its status
does. -/
def execRspData (d : FabId) (s : State) : Res :=
  match s.takeFrame d 2 0 with
  | none => .next s
  | some (f, s1) =>
    match (s1.fab d).slots.find? (fun z => frCls z.frame == 1 && frTag z.frame == frTag f && frDst z.frame == frSrc f) with
    | none => .next s1
    | some z =>
      let s2 := s1.modFab d (·.release z)
      if frStatus f ≠ 0 ∧ frStatus f ≠ 5 then .next (s2.useFails z.use (frStatus f))
      else
        match z.use with
        | .sheet p off => .next (s2.modSheet p (fun x =>
            if x.asked then { x with buffer := x.buffer ++ [(off, slice f.payload 0 256, frStatus f == 5)] } else x))
        | .restore p a => .next (s2.modTwin p (fun t =>
            if t.restore = .none then t
            else { t with restoreGot := t.restoreGot ++ [(a, slice f.payload 0 (frLen f), frStatus f == 5)] }))
        | .mover c i k n =>
          let lo := match s2.xfer c i with
            | some r => (match (r.ins.sides s2 c k).1 with | .remote _ a => a % 16 | _ => 0)
            | none => 0
          .next ((s2.dmArrive c i k (slice f.payload lo n) (frStatus f == 5)).dmReturned c i)
        | _ => .next s2

/-- Whether a PUT comes from the twin engine of the node PEER names (R440). -/
def State.fromTwin (s : State) (p : PartId) (f : Frame) : Bool :=
  s.physical (bfld (s.twin p).peer 0 16) == some (frSrc f) && decide (4 ≤ (frSep f).toNat) && decide ((frSep f).toNat ≤ 5) &&
  decide (4 ≤ (frDep f).toNat) && decide ((frDep f).toNat ≤ 5)

/-- A write of the twin into the index reaches the engine: a message, or a claim (R442, R452); a MANIFEST is whole with its
third part. -/
def State.twinTakes (s : State) (p : PartId) (a : Nat) (bs : List Byte) : State :=
  let h := (s.twin p).own
  if h.mailbox ≤ a ∧ a < h.mailbox + 0x1000 then
    let ty := field bs 0 1
    let part := field bs 1 1
    if ty = 4 then
      s.modTwin p (fun t =>
        if part = 0 then { t with manIn := bs }
        else
          let m := t.manIn ++ slice bs 8 16
          if part = 2 then { t with manIn := [], inbox := t.inbox ++ [m] } else { t with manIn := m })
    else if 1 ≤ ty ∧ ty ≤ 9 then s.modTwin p (fun t => { t with inbox := t.inbox ++ [bs] })
    else s.twinEvent p 0x34 0
  else if h.index + 0x100000 ≤ a ∧ a < h.index + 0x200000 then
    s.modTwin p (fun t => { t with claims := t.claims ++ [(field bs 8 2, field bs 10 6, BitVec.ofNat 64 (field bs 0 8))] })
  else s

/-- The record of a PUT that a persistent page or an active table refuses (R39, R290): the stack controller's, with the code
movers have for it (Table 7-9); which record the rule means it does not say (DESIGN CHOICE, log entry 64). -/
def State.putRefused (s : State) (p : PartId) (a : Nat) : State :=
  s.report { (s.errRec (stackDie (stackOf ((s.direct a).getD 0))) (tblStatus 0x04 0x08) .event).withPart s p with
    engine := 0x06, addr := BitVec.ofNat 64 a }

/-- A PUT into stacked memory; one that is refused is suppressed and recorded. -/
def State.remoteDram (s : State) (p : PartId) (f : Frame) (a : Nat) (bs : List Byte) : BitVec 4 × State :=
  let w : Writer := if s.fromTwin p f then .twin p else .other
  match s.checkWrite w a bs.length with
  | (.unmapped, _) => (2, s)
  | (.refused, at_) => (4, s.putRefused p at_)
  | (.ok, _) =>
    let s1 := (s.dramWrite w a bs).charge p false a bs.length
    let s2 := if frStatus f = 5 then s1.dramPoison a ((List.range (bs.length / 4)).map (4 * ·)) else s1
    (0, if s.fromTwin p f then s2.twinTakes p a bs else s2)

/-- The effect of a PUT WRITE and the status its credit entry carries. -/
def State.remoteWrite (s : State) (f : Frame) : BitVec 4 × State :=
  let p := frPart f
  let a := frAddr f
  let bs := frData f
  if windowBase ≤ a then
    match s.remoteCell p a bs.length with
    | none => (3, s)
    | some (c, o) =>
      let bad := if frStatus f = 5 then (List.range ((o % 4 + bs.length + 3) / 4)).map (o / 4 + ·) else []
      (0, s.modCell c (fun x => { x with store := (x.store.write o bs).poisonAll bad }))
  else if s.inRanges p a bs.length then s.remoteDram p f a bs
  else (2, s)

/-- PUT_WRITE (R351, R364). -/
def execPutWrite (d : FabId) (s : State) : Res := s.gated (fabDie d) (fun s =>
  match s.takeFrame d 3 0 with
  | none => .next s
  | some (f, s1) =>
    let r := s1.remoteWrite f
    .next (r.2.consumed d f r.1))

/-! ### Management frames (R366) -/

/-- Take the first management frame of a kind. -/
def State.takeMnt (s : State) (kind : Nat) : Option (Frame × State) :=
  match s.mgmt.mntIn.find? (fun f => frKind f == kind) with
  | none => none
  | some f => some (f, { s with mgmt := { s.mgmt with mntIn := s.mgmt.mntIn.erase f } })

/-- MNT_MREQ: answered by an MRSP whose content the specification leaves to the management core. -/
def execMntMreq (s : State) : Res :=
  match s.takeMnt 0 with
  | none => .next s
  | some (f, s1) =>
    let body := (List.range 32).map (fun i => leBytes 8 (Config.freeWord (s1.freeCtr + i)).toNat)
    .next (({ s1 with freeCtr := s1.freeCtr + 32 }).sendOut 1
      [s1.replyFrame 5 1 (frChan f) 0 (frPart f).val (frSep f) 6 (frSrc f) (frTag f) 0 256 body.flatten])

/-- MNT_MRSP: the answer's reserved entry is free again. -/
def execMntMrsp (s : State) : Res :=
  match s.takeMnt 1 with
  | none => .next s
  | some (f, s1) => .next { s1 with mgmt := { s1.mgmt with pool := s1.mgmt.pool.filter (· != frSrc f) } }

/-- MNT_MPOST: the message is taken. -/
def execMntMpost (s : State) : Res :=
  match s.takeMnt 2 with
  | none => .next s
  | some (_, s1) => .next s1

/-! ### Grants (R362, R363, R387) -/

/-- A TX grant as written while not VALID: AVAIL is CREDITS once VALID. -/
def txWord (v : Word64) : Word64 :=
  setFld (v &&& 0xFFFFFFFFFFC00000) 0 16 (if bit v 63 then fld v 22 16 else 0)

/-- The streams of a TX grant start with SOS (R353). -/
def State.grantStreams (s : State) (d : FabId) (v : Word64) : State :=
  match s.physical (bfld v 38 16) with
  | none => s
  | some n =>
    let hit := fun (key : Nat) => key % 8 == fld v 54 3 && key / 8 % 8 == fld v 57 3 && key / 64 % 65536 == n.toNat &&
      key / (64 * 65536 * 16) == fld v 60 3
    s.modFab d (fun x => { x with sosDone := x.sosDone.filter (fun e => !(hit e.1)) })

/-- Whether frames of an RX grant are held or unreported. -/
def State.rxBusy (s : State) (d : FabId) (w : Word64) : Bool :=
  (s.fab d).streams.any (fun x => decide (x.cls.toNat = fld w 60 3) && x.src == bfld w 38 16 && x.sep == bfld w 54 3 &&
    x.dep == bfld w 57 3 && (!x.held.isEmpty || x.unreported != 0)) ||
  (s.fab d).delivered.any (fun f => decide (frCls f = fld w 60 3) && frSrc f == bfld w 38 16 && frSep f == bfld w 54 3 &&
    frDep f == bfld w 57 3)

/-- A write of a grant (R363). -/
def State.grantOp (s : State) (d : FabId) (tx : Bool) (i : Nat) (v : Word64) : State :=
  let w := Sparse.get 0 (if tx then (s.fab d).grantTx else (s.fab d).grantRx) i
  let put := fun (t : State) (u : Word64) => t.modFab d (fun x =>
    if tx then { x with grantTx := Sparse.set 0 x.grantTx i u } else { x with grantRx := Sparse.set 0 x.grantRx i u })
  if bit w 63 then
    if bit v 63 then s.regIgnored (fabDie d)
    else if (if tx then decide (fld w 0 16 < fld w 22 16) else s.rxBusy d w) then s.fabEvent d 0x24
    else put s (setBit w 63 false)
  else if tx then
    let t := put s (txWord v)
    if bit v 63 then t.grantStreams d v else t
  else
    let u := v &&& 0xFFFFFFFFFFFC0000
    if bit v 63 && !(withinRob (s.reservedWith d (Sparse.set 0 (s.fab d).grantRx i u) (fld (s.fab d).robCfg 0 16))) then
      s.fabEvent d 0x23
    else put s u

/-- GRANT_WRITE. -/
def execGrantWrite (by_ : Requester) (d : FabId) (tx : Bool) (i : Fin 4096) (v : Word64) (s : State) : Res :=
  s.regWrite by_ (fabDie d) false (fun s => s.grantOp d tx i.val v)

/-- A write of ROB_CFG: refused where the pool would not fit (R362, Table 11-15). -/
def State.robCfgOp (s : State) (d : FabId) (v : Word32) : State :=
  if withinRob (s.reservedWith d (s.fab d).grantRx (fld v 0 16)) then
    s.modFab d (fun x => { x with robCfg := v &&& 0xFFFF })
  else s.fabEvent d 0x23

/-! ### Configuration and routing slots (R369, R389, R390) -/

/-- A write of AGE_CFG, NODE_ID or TIME_CTL: only while every port is down. The time master is its own root (R381). -/
def State.fabricCfgOp (s : State) (r : FabricCfgReg) (v : Word32) : State :=
  if s.allPortsDown then
    match r with
    | .ageCfg => { s with route := { s.route with ageCfg := v &&& 0xFFFFFF00 } }
    | .nodeId => { s with route := { s.route with nodeId := v &&& 0x8000FFFF } }
    | .timeCtl => { s with route := ({ s.route with timeCtl := v &&& 0x80000000 } : Routing).root }
  else s.sysEvent (if r = .ageCfg then 4 else 5) 0x2A .event 0x10

/-- FABRIC_CFG_WRITE: NODE_ID and TIME_CTL lie in the AUX area. -/
def execFabricCfgWrite (by_ : Requester) (r : FabricCfgReg) (v : Word32) (s : State) : Res :=
  if r = .ageCfg then s.regWrite by_ 4 false (fun s => s.fabricCfgOp r v) else s.auxWrite by_ (fun s => s.fabricCfgOp r v)

/-- Change routing slot i. -/
def State.modRslot (s : State) (i : Fin 2) (f : RouteSlot → RouteSlot) : State :=
  { s with route := { s.route with slots := vmod s.route.slots i f } }

/-- A write of a routing slot's contents, complete on both fabric dies (R369, R386, R390). -/
def State.routeSlotOp (s : State) (i : Fin 2) (t : RouteTarget) (v : Word64) : State :=
  if (vget s.route.slots i).state ≠ .retired then s.routeRejected
  else
    s.modRslot i (fun x =>
      let y := { x with begun := x.begun.erase (t, v) }
      match t with
      | .cfg => { y with cfg := v &&& 0x8FFFFF7F }
      | .map j => { y with map := Sparse.set 0 x.map j.val (bfld v 0 32 &&& 0x8000FFFF) })

/-- A write that has reached the copy of one fabric die only (R390). -/
def State.routeSlotBegin (s : State) (i : Fin 2) (t : RouteTarget) (v : Word64) : State :=
  if (vget s.route.slots i).state ≠ .retired then s.routeRejected
  else s.modRslot i (fun x => { x with begun := x.begun ++ [(t, v)] })

/-- ROUTE_SLOT_WRITE: a write completes on both copies, or is under way. -/
def execRouteSlotWrite (by_ : Requester) (i : Fin 2) (t : RouteTarget) (w : SlotWord) (s : State) : Res :=
  s.regWrite by_ 4 false (fun s => if w.whole then s.routeSlotOp i t w.v else s.routeSlotBegin i t w.v)

/-- Set ROUTE_CTL.SLOT. -/
def State.routeName (s : State) (i : Fin 2) : State :=
  { s with route := { s.route with routeCtl := setBit s.route.routeCtl 28 (decide (i = 1)) } }

/-- SEAL (R369), refused while a write of the slot is incomplete (R390). -/
def State.sealOp (s : State) (i : Fin 2) : State :=
  if (vget s.route.slots i).state = .retired ∧ (vget s.route.slots i).begun.isEmpty then s.modRslot i (fun x => { x with state := .valid }) else s.routeRejected

/-- ROUTE_SEAL. -/
def execRouteSeal (by_ : Requester) (i : Fin 2) (s : State) : Res :=
  s.regWrite by_ 4 false (fun s => (s.routeName i).sealOp i)

/-- RETIRE (R369). -/
def State.retireOp (s : State) (i : Fin 2) : State :=
  if (vget s.route.slots i).state = .drained then s.modRslot i (fun x => { x with state := .retired }) else s.routeRejected

/-- ROUTE_RETIRE. -/
def execRouteRetire (by_ : Requester) (i : Fin 2) (s : State) : Res :=
  s.regWrite by_ 4 false (fun s => (s.routeName i).retireOp i)

/-- The partition that governs applies. -/
def Routing.part (r : Routing) : PartId := ⟨fld r.routeCtl 26 2, by unfold fld; omega⟩

/-- APPLY (R41, R369): at once in CLOSED, else held for the boundary. -/
def State.routeApplyOp (s : State) : State :=
  if s.closed s.route.part then s.routeApply else { s with route := { s.route with applyHeld := true } }

/-- ROUTE_APPLY. -/
def execRouteApply (by_ : Requester) (i : Fin 2) (s : State) : Res :=
  s.regWrite by_ 4 false (fun s => (s.routeName i).routeApplyOp)

/-- A write of ROUTE_CTL. -/
def State.routeCtlOp (s : State) (v : Word32) : State :=
  let i : Fin 2 := if bit v 28 then 1 else 0
  let s1 := { s with route := { s.route with routeCtl := v &&& 0x1E000000 } }
  let s2 := if bit v 30 then s1.sealOp i else s1
  let s3 := if bit v 29 then s2.retireOp i else s2
  if bit v 31 then s3.routeApplyOp else s3

/-- ROUTE_DRAIN_TIMER (R369): a DRAINING slot becomes DRAINED. -/
def execRouteDrainTimer (i : Fin 2) (s : State) : Res :=
  if (vget s.route.slots i).state = .draining then .next (s.modRslot i (fun x => { x with state := .drained }))
  else .next s

end Sys2Proof.Machine
end

