-- ==== Sys2Proof/Machine/Sheet.lean ====
section
/-!
DEFINITION. Contact sheets (R429 to R436) and the Host Stream Port (R427, R428, R531, R532): arming and cancelling a
sheet, the choice of the next piece of each direction, and the pieces of sheets and of host transfers.
-/
namespace Sys2Proof.Machine

/-! ### Sheet control (R429, R436) -/

/-- SHEET_BUSY (R436). -/
def State.sheetBusy (s : State) (p : PartId) : State := s.partEvent p 0x38 .event 0x0B 0

/-- Whether a sheet is ARMED or STREAMING. -/
def Sheet.live (x : Sheet) : Bool := x.stateCode == 1 || x.stateCode == 2

/-- A write of a sheet's settings, which takes effect in IDLE, DONE and FAILED only (R436). -/
def State.sheetSet (s : State) (p : PartId) (f : Sheet → Sheet) : State :=
  if (s.sheet p).live then s.sheetBusy p else s.modSheet p f

/-- ARM (R429): what is left of the last sheet goes, but for SHIPPED and TAKEN; the page list is checked. -/
def State.sheetArmOp (s : State) (p : PartId) : State :=
  if (s.sheet p).live then s.sheetBusy p
  else
    let s1 := (s.listLooks p (s.sheet p).list (s.sheet p).listN).modSheet p (fun x => { x with
      pages := (s.sheetPages p).getD [], piece := 0, count := 0, takeTime := 0, writeTime := 0, poisoned := [], kept := []
      digests := [], crc := 0, asked := false, buffer := [] })
    let x := s1.sheet p
    if (s.sheetPages p).isNone then s1.sheetFail p 2
    else if x.atCount ≠ 0 ∧ x.atCount.toNat ≤ (s.stepOf p).updateCount.toNat then s1.sheetFail p 3
    else s1.modSheet p (fun x => { x with status := setFld (0 : Word32) 29 3 1 })

/-- CANCEL (R436, Table 13-5). -/
def State.sheetCancelOp (s : State) (p : PartId) : State := if (s.sheet p).live then s.sheetFail p 5 else s

/-- A write of SHEET[p].CTL. -/
def State.sheetCtlOp (s : State) (p : PartId) (v : Word32) : State :=
  if (s.sheet p).live then if bit v 30 then s.sheetCancelOp p else s.sheetBusy p
  else
    let s1 := s.modSheet p (fun x => { x with ctl := v &&& 0xFF })
    if bit v 31 then s1.sheetArmOp p else s1

/-- SHEET ARM. -/
def execSheetArm (by_ : Requester) (p : PartId) (s : State) : Res :=
  s.regWrite by_ 4 false (fun s => s.sheetArmOp p)

/-- SHEET CANCEL. -/
def execSheetCancel (by_ : Requester) (p : PartId) (s : State) : Res :=
  s.regWrite by_ 4 false (fun s => s.sheetCancelOp p)

/-! ### Pieces of a sheet (R431 to R434) -/

/-- The logical address of a sheet's next piece. -/
def Sheet.pieceAddr (x : Sheet) : Nat := x.pages.getD (x.piece / 512) 0 + x.piece % 512 * 4096

/-- Fill a sheet's token bucket for the time that has passed: RATE × 100 MB/s is RATE tenths of a byte each
nanosecond (R434). -/
def State.sheetFill (s : State) (p : PartId) : State :=
  s.modSheet p (fun x => { x with
    bucket := min sheetBucket (x.bucket + fld x.ctl 0 8 * (s.time.toNat - x.filled.toNat)), filled := s.time })

/-- The slot of the twin's negative that holds a direct address, and the byte of that slot. -/
def Twin.slotAt (t : Twin) (d : Nat) : Option (Nat × Nat) :=
  t.slots.zipIdx.findSome? (fun e =>
    let a := if stripedBase ≤ e.1 then restripe d else d
    if e.1 ≤ a ∧ a < e.1 + 2 ^ 21 then some (e.2, a - e.1) else none)

/-- The address in the twin's holding area of a sheet's next piece, once its page is complete in the negative
(R431), which stays so when the twin is LOST. -/
def State.negativeAddr (s : State) (p : PartId) : Option Nat :=
  let x := s.sheet p
  let t := s.twin p
  match s.direct x.pieceAddr with
  | none => none
  | some d =>
    match t.slotAt d with
    | none => none
    | some (i, k) =>
      if t.hasNegative x.count || (t.streamCount == x.count && t.page i == .acked) || x.kept.contains i then
        some (t.peers.page (x.count.toNat % 2) i + k)
      else none

/-- Whether a sheet's next page will not become complete in the negative: the stream that would complete it has ended with
the twin LOST (R456). -/
def State.negativeGone (s : State) (p : PartId) : Bool := (s.twin p).stateCode != 1 && (s.negativeAddr p).isNone

/-- The 16 REQ READ frames of a piece of the negative, from FD0's endpoint. -/
def State.sheetFrames (s : State) (p : PartId) (a : Nat) : List OutFrame :=
  let n : BitVec 16 := bfld (s.twin p).peer 0 16
  (List.range 16).map (fun k =>
    let dep := homeEndpoint (a + 256 * k)
    { frame := ⟨mkHeader 1 0 (BitVec.ofNat 4 p.val) 0 p.val dep 4 256 s.nodeId ((s.physical n).getD 0) 0 (a + 256 * k),
        padPayload []⟩
      use := .sheet p (256 * k), grant := (s.fab 0).txGrant 1 4 dep n, node := some n })

/-- A sheet on the negative asks for its next piece; an absent twin loses the sheet (Table 13-5), as does a LOST twin that
never completed the page (log entry 60). -/
def State.sheetAsk (s : State) (p : PartId) : State :=
  let x := s.sheet p
  if x.stateCode ≠ 2 ∨ bit x.status 28 = false ∨ x.asked then s
  else
    match s.negativeAddr p with
    | none => if s.negativeGone p then s.sheetFail p 4 else s
    | some a =>
      let fs := s.sheetFrames p a
      if (s.physical (bfld (s.twin p).peer 0 16)).isNone || fs.any (fun o => o.grant.isNone) then s.sheetFail p 4
      else (s.sendOut 0 fs).modSheet p (fun y => { y with asked := true, buffer := [] })

/-- Whether a streaming sheet may ship its next piece: within its rate on own pages (R434), read on the negative. -/
def Sheet.ready (x : Sheet) : Bool :=
  x.stateCode == 2 &&
  (if bit x.status 28 then x.asked && x.buffer.length == 16 else fld x.ctl 0 8 == 0 || decide (40960 ≤ x.bucket))

/-- The bytes of a sheet's next piece, whether one is uncorrectable, and the state after a read of own pages. -/
def State.sheetPiece (s : State) (p : PartId) : List Byte × Bool × State :=
  let x := s.sheet p
  if bit x.status 28 then
    (((List.range 16).map (fun k =>
      match x.buffer.find? (fun e => e.1 == 256 * k) with
      | some e => e.2.1
      | none => List.replicate 256 0)).flatten, x.buffer.any (fun e => e.2.2), s)
  else
    let b := s.dramBytes x.pieceAddr 4096
    (b.1, !b.2.isEmpty, s.sees p false none x.pieceAddr 4096)

/-- A piece has been shipped: digests, poisoned pages, SHIPPED and the bucket. -/
def Sheet.shippedPiece (x : Sheet) (bs : List Byte) (bad : Bool) (now : Word64) : Sheet :=
  let page := x.piece / 512
  let crc := crc64From x.crc bs
  let last := x.piece % 512 = 511
  { x with
    piece := x.piece + 1
    shipped := x.shipped + 4096
    writeTime := now
    poisoned := if bad && !(x.poisoned.contains page) then x.poisoned ++ [page] else x.poisoned
    digests := if last then x.digests ++ [crc] else x.digests
    crc := if last then 0 else crc
    bucket := if bit x.status 28 then x.bucket else x.bucket - 40960
    asked := false
    buffer := [] }

/-- After the last page the trailer is written and the sheet is DONE (R433). -/
def State.sheetFinish (s : State) (p : PartId) : State :=
  let x := s.sheet p
  if x.piece < 512 * x.pages.length then s
  else if s.regionOpen p (fld x.host 40 24) true (s.sheetBus x (x.pages.length * 2 ^ 21)) (0x80 + 8 * x.pages.length) then
    s.sheetEnd p 3 (if x.poisoned.isEmpty then 1 else 7)
  else s.sheetFail p 6

/-- The next piece of a sheet goes to the host; a region that is closed to it ends the sheet. -/
def State.sheetServe (s : State) (p : PartId) : State :=
  let x := s.sheet p
  let bus := s.sheetBus x (x.piece * 4096)
  if s.regionOpen p (fld x.host 40 24) true bus 4096 then
    let b := s.sheetPiece p
    let s1 := b.2.2.modSheet p (fun y => y.shippedPiece b.1 b.2.1 s.time)
    { s1 with hsp := { s1.hsp with out := s1.hsp.out ++ [(BitVec.ofNat 64 bus, b.1)] } }.sheetFinish p
  else s.sheetFail p 6

/-! ### The scheduler (R427) -/

/-- The ranges of a host transfer. -/
def State.hspSpans (s : State) (c : CellId) (i : Fin 8) : List (Nat × Rng) :=
  match s.xfer c i with
  | none => []
  | some r => r.ins.spans s c

/-- Whether no other transfer that arrived earlier overlaps a transfer. -/
def State.hspFree (s : State) (h : HspXfer) : Bool :=
  let mine := s.hspSpans h.cell h.xfer
  let earlier := ((s.hsp.toHost ++ s.hsp.toPkg).filter (fun g => decide (g.order < h.order))).map (fun g => (g.cell, g.xfer)) ++
    (s.hsp.reads.filter (fun g => decide (g.order < h.order))).map (fun g => (g.cell, g.xfer))
  !((earlier.filter (fun g => g != (h.cell, h.xfer))).any (fun g => spansOverlap mine (s.hspSpans g.1 g.2)))

/-- The transfer with the earliest nonzero deadline, ties to the earlier arrival. -/
def earliest : List HspXfer → Option HspXfer
  | [] => none
  | h :: rest =>
    match earliest rest with
    | none => if h.dead = 0 then none else some h
    | some g => if h.dead ≠ 0 ∧ h.dead.toNat ≤ g.dead.toNat then some h else some g

/-- What is served next. -/
inductive HspPick where
  | sheet (p : PartId)
  | xfer (h : HspXfer)
  deriving DecidableEq, Repr

/-- Length of a transfer's next piece: 4 KiB, or less where the transfer begins off a 4 KiB boundary of the bus and at its
end (R427). -/
def HspXfer.piece (h : HspXfer) : Nat := min (4096 - (h.bus.toNat + h.moved) % 4096) (h.len - h.moved)

/-- Whether the next piece of a transfer can be moved: one whose bytes come from a remote node or host memory waits
until they are here. -/
def State.hspHas (s : State) (toHost : Bool) (h : HspXfer) : Bool :=
  match s.xfer h.cell h.xfer with
  | none => true
  | some r =>
    let src := (r.ins.sides s h.cell h.moved).1
    !toHost || !(src.isRemote || src.isHost) || (r.waiting h.moved h.piece).isSome

/-- The choice of R427 in one direction, among the transfers whose next piece is at hand. -/
def State.hspPick (s : State) (toHost : Bool) : Option HspPick :=
  let q := (if toHost then s.hsp.toHost else s.hsp.toPkg).filter (fun h => s.hspFree h && s.hspHas toHost h)
  let sh := if toHost then (allFin 4).find? (fun p => (s.sheet p).ready) else none
  let share := decide ((s.hsp.recent.filter (·)).length < fld s.hsp.cfg 28 4)
  match sh, share with
  | some p, true => some (.sheet p)
  | _, _ =>
    match earliest q with
    | some h => some (.xfer h)
    | none =>
      match q with
      | h :: _ => some (.xfer h)
      | [] => sh.map .sheet

/-- Whether the remaining bytes of a transfer cannot be moved before its deadline at 110 bytes each nanosecond
(R428). -/
def HspXfer.late (h : HspXfer) (now : Word64) : Bool :=
  h.dead != 0 && decide (110 * (h.dead.toNat - now.toNat) < h.len - h.moved)

/-- Change the queue of a direction. -/
def State.hspQueue (s : State) (toHost : Bool) (f : List HspXfer → List HspXfer) : State :=
  { s with hsp := if toHost then { s.hsp with toHost := f s.hsp.toHost } else { s.hsp with toPkg := f s.hsp.toPkg } }

/-- Whether the host side of `n` bytes of a transfer from byte k lies in an open region (R531). -/
def State.hspOpen (s : State) (toHost : Bool) (h : HspXfer) (m : DmInstr) (n : Nat) : Bool :=
  (m.part s h.cell h.moved n).all (fun p =>
    let sd := m.sides s h.cell p.1
    match (if toHost then sd.2 else sd.1) with
    | .host a => s.regionOpen h.part h.region toHost a p.2
    | _ => false)

/-- A transfer is at risk: HSP_AT_RISK counts it once, both directions of a copy between host regions being one transfer
(R428). -/
def State.hspAtRisk (s : State) (c : CellId) (i : Fin 8) : State :=
  let mark := fun (h : HspXfer) => if h.cell = c ∧ h.xfer = i then { h with risk := true } else h
  { s with hsp := { s.hsp with
      atRisk := s.hsp.atRisk + 1, toHost := s.hsp.toHost.map mark, toPkg := s.hsp.toPkg.map mark } }

/-- A piece of a host transfer is issued: a write of what is read locally or has arrived, or a read of host memory
(R427, R428, R531). -/
def State.hspServe (s : State) (toHost : Bool) (h : HspXfer) : State :=
  match s.xfer h.cell h.xfer with
  | none => s.hspQueue toHost (·.erase h)
  | some r =>
    let k := h.moved
    let n := h.piece
    let sd := r.ins.sides s h.cell k
    let risk := h.late s.time && !h.risk
    let s1 := if risk then s.hspAtRisk h.cell h.xfer else s
    if s.hspOpen toHost h r.ins n = false then
      s1.dmFail h.cell h.xfer 0x0B (if toHost then sd.2 else sd.1).address
    else
      let h := { h with risk := h.risk || risk }
      let g := { h with moved := k + n }
      let s2 := s1.hspQueue toHost (fun q => if h.len ≤ k + n then q.erase h else q.map (fun e => if e = h then g else e))
      if toHost then
        match r.waiting k n with
        | some bs => s2.dmDeliver h.cell h.xfer k bs false
        | none =>
          match s2.dmReadPart h.cell r.ins k n with
          | none => s2.dmFail h.cell h.xfer 0x07 sd.1.address
          | some b => b.2.2.dmDeliver h.cell h.xfer k b.1 b.2.1
      else
        let rd : HspRead := ⟨h.cell, h.xfer, k, n, h.order⟩
        let s3 := { s2 with hsp := { s2.hsp with reads := s2.hsp.reads ++ [rd] } }
        s3.modXfer h.cell h.xfer (fun r => { r with outstanding := r.outstanding + 1 })

/-- HSP_PIECE (R427): nothing is issued while the port is down. Sheets on the negative first ask for their next
piece. -/
def execHspPiece (toHost : Bool) (s : State) : Res := s.gated 4 (fun s =>
  if s.host.hspUp = false then .next s
  else
    let s0 := { s with hsp := { s.hsp with out := [] } }
    let s1 := if toHost then (allFin 4).foldl (fun t p => (t.sheetFill p).sheetAsk p) s0 else s0
    match s1.hspPick toHost with
    | none => .next s1
    | some pick =>
      let isSheet := match pick with | .sheet _ => true | _ => false
      let s2 := if toHost then { s1 with hsp := { s1.hsp with recent := (isSheet :: s1.hsp.recent).take 16 } } else s1
      match pick with
      | .sheet p => .next (s2.sheetServe p)
      | .xfer h => .next (s2.hspServe toHost h))

/-- HSP_READ_COMPLETION (R532): the oldest read outstanding is answered; a failed one delivers its words poisoned. -/
def execHspReadCompletion (ok : Bool) (data : List Byte) (s : State) : Res :=
  match s.hsp.reads with
  | [] => .next s
  | r :: rest =>
    let s1 := { s with hsp := { s.hsp with reads := rest } }
    if ok = false then .next ((s1.dmArrive r.cell r.xfer r.off (List.replicate r.len 0) true).dmReturned r.cell r.xfer)
    else if data.length = r.len then .next ((s1.dmArrive r.cell r.xfer r.off data false).dmReturned r.cell r.xfer)
    else .fault .illFormed

/-! ### Host regions (R531, R553) -/

/-- Host region i: BASE and CFG. -/
def State.region (s : State) (i : Fin 4096) : Word64 × Word64 := Sparse.get (0, 0) s.host.region i.val

/-- A write of a word of a host region: with EN at 1 only EN can change; every other change is ignored with
REG_WRITE_IGNORED. -/
def State.regionOp (s : State) (i : Fin 4096) (cfg : Bool) (v : Word64) : State :=
  let r := s.region i
  let put := fun (x : Word64 × Word64) => { s with host := { s.host with region := Sparse.set (0, 0) s.host.region i.val x } }
  let base := v &&& ~~~(mask 64 0 12)
  let cf := v &&& ~~~(mask 64 40 19)
  if cfg then
    if bit r.2 63 then
      let s1 := put (r.1, setBit r.2 63 (bit cf 63))
      if setBit cf 63 true = r.2 then s1 else s1.regIgnored 4
    else put (r.1, cf)
  else if bit r.2 63 then s.regIgnored 4
  else put (base, r.2)

/-- HOST_REGION write; no context writes one. -/
def execHostRegionWrite (by_ : Requester) (i : Fin 4096) (cfg : Bool) (v : Word64) (s : State) : Res :=
  s.regWrite by_ 4 false (fun s => s.regionOp i cfg v)

end Sys2Proof.Machine
end

