-- ==== Sys2Proof/Machine/HostPort.lean ====
section
/-!
DEFINITION. The Host Control Port and the management core (R485, R523 to R530, R536, R537, R545, R553, R554, R566,
R567): doorbells, the mailbox and its commands, error records on their way to the AUX log and the host's ring, MSI-X
vectors, port resets and link-up, firmware, trust anchors and the debug unlock. The layouts of mailbox payloads that
Table 17-5 leaves open are log entry 41.
-/
namespace Sys2Proof.Machine

/-! ### Error records (R471, R474, R529) -/

/-- The 64 bytes of a record with its SEQ (Table 15-2); the CRC covers all but itself. -/
def State.recordImage (s : State) (seq : Word64) (r : ErrRec) : List Byte :=
  let b := leBytes 8 r.time.toNat ++ leBytes 8 seq.toNat ++ leBytes 8 r.step.toNat ++ leBytes 8 r.addr.toNat ++
    leBytes 4 r.syndrome.toNat ++ leBytes 4 r.detail.toNat ++ leBytes 2 r.status.toNat ++ leBytes 2 r.job.toNat ++
    leBytes 2 s.nodeId.toNat ++ [r.die, r.cell, r.ctx, r.engine, r.severity, r.action] ++
    leBytes 4 r.origin.toNat ++ leBytes 4 0
  b ++ leBytes 4 (crc32 b).toNat

/-- The least interval between messages of vector 0, in nanoseconds (R529). -/
def HostIf.modNs (h : HostIf) : Nat := 1000 * fld h.ringCtl 0 16

/-- Vector 0 is raised, or falls due when its interval has not passed (R529). -/
def State.vector0 (s : State) : State :=
  let wait := match s.host.vec0At with
    | none => false
    | some t => decide (s.time.toNat < t.toNat + s.host.modNs)
  if wait then { s with host := { s.host with vec0Due := true } }
  else ({ s with host := { s.host with vec0Due := false, vec0At := some s.time } }).raiseVector 0

/-- Records the ring holds (Table 17-15). -/
def HostIf.ringSize (h : HostIf) : Nat := 2 ^ max 6 (fld h.ringCtl 16 4)

/-- One record of the AUX log goes to the ring, or is counted in ERR_RING_DROP where the ring is full. -/
def State.ringPut (s : State) (e : Word64 × List Byte) : State :=
  let h := s.host
  if h.ringSize ≤ (h.ringHead - h.ringTail).toNat then
    { s with host := { h with ringDrop := h.ringDrop + 1, ringNext := e.1 + 1 } }
  else
    let bus := fld h.ringBase 12 52 * 4096 + h.ringHead.toNat % h.ringSize * 64
    ({ s with host := { h with
      ringOut := some (BitVec.ofNat 64 bus, e.2), ringHead := h.ringHead + 1, ringNext := e.1 + 1 } }).vector0

/-- Every record not yet written goes to the ring in SEQ order, while the port is up, the ring enabled and the
management core running (R529, R536). -/
def State.ringDeliver (s : State) : State :=
  if s.host.hcpUp && bit s.host.ringCtl 31 && s.mgmt.running then
    (s.faults.log.filter (fun e => decide (s.host.ringNext.toNat ≤ e.1.toNat))).foldl State.ringPut s
  else s

/-- The die whose oldest queued record is the earliest. -/
def Faults.oldest (f : Faults) : Option (Fin 6 × ErrRec) :=
  (allFin 6).foldl (fun a d =>
    match vget f.queues d, a with
    | [], _ => a
    | r :: _, none => some (d, r)
    | r :: _, some (e, q) => if r.time.toNat < q.time.toNat then some (d, r) else some (e, q)) none

/-- Space has returned in a queue that dropped records: ERR_OVERFLOW (R474). -/
def State.overflowRecord (s : State) (d : Fin 6) : State :=
  let n := vget s.faults.overflow d
  if n = 0 ∨ 112 ≤ (vget s.faults.queues d).length then s
  else
    let s1 := { s with faults := { s.faults with overflow := vset s.faults.overflow d 0 } }
    s1.report { s1.errRec d (sysStatus 0x46) .advisory with detail := BitVec.ofNat 32 n }

/-- ERROR_RECORD_DELIVER (R474, R529): FD1 gives the next record its SEQ, logs it and delivers it. -/
def execErrorRecordDeliver (s : State) : Res :=
  match s.faults.oldest with
  | none => .next s
  | some (d, r) =>
    let f := s.faults
    let seq := f.errSeq
    let log := f.log ++ [(seq, s.recordImage seq r)]
    let s1 := { s with faults := { f with
      queues := vmod f.queues d (·.drop 1), errSeq := seq + 1, log := log.drop (log.length - 256), lastCode := r.status } }
    .next (s1.overflowRecord d).ringDeliver

/-! ### Doorbells (R526, R553) -/

/-- Doorbell i's configuration. -/
def State.doorbellCfg (s : State) (i : Fin 256) : Word32 := Sparse.get 0 s.host.doorbell i.val

/-- A write of a doorbell (R526). -/
def State.ring (s : State) (i : Fin 256) (v : Word64) : State :=
  let g := s.doorbellCfg i
  let c : CellId := (bfld g 8 6).toFin
  let p : PartId := (bfld g 14 2).toFin
  let n := bfld v 0 32
  if bit g 31 = false ∨ s.partOf c ≠ some p then s.regIgnored 4
  else s.signal c (bfld g 0 6) (if n = 0 then 1 else n) false

/-- DOORBELL. -/
def execDoorbell (i : Fin 256) (v : Word64) (s : State) : Res := .next (if s.host.hcpUp then s.ring i v else s)

/-- A write of DOORBELL_CFG[i] (R553). -/
def State.doorbellOp (s : State) (i : Fin 256) (v : Word32) : State :=
  if (bit (s.doorbellCfg i) 31 && bit v 31) || decide (60 ≤ fld v 0 6) then s.regIgnored 4
  else { s with host := { s.host with doorbell := Sparse.set 0 s.host.doorbell i.val (v &&& 0x8000FF3F) } }

/-- DOORBELL_CFG write. -/
def execDoorbellCfgWrite (by_ : Requester) (i : Fin 256) (v : Word32) (s : State) : Res :=
  s.regWrite by_ 4 false (fun s => s.doorbellOp i v)

/-! ### The mailbox (R527, R528) -/

/-- GO, BUSY and DONE. -/
def HostIf.go (h : HostIf) : Bool := bit h.mboxCtl 0
/-- BUSY. -/
def HostIf.busy (h : HostIf) : Bool := bit h.mboxCtl 1
/-- DONE. -/
def HostIf.done (h : HostIf) : Bool := bit h.mboxCtl 2

/-- A write of MBOX_CTL: GO is ignored while BUSY or DONE is 1, DONE is cleared by writing 1. -/
def State.mboxCtlOp (s : State) (v : Word64) : State :=
  let s1 := if bit v 2 then { s with host := { s.host with mboxCtl := setBit s.host.mboxCtl 2 false } } else s
  if bit v 0 then
    if s.host.busy || s.host.done then s1.regIgnored 4
    else { s1 with host := { s1.host with mboxCtl := setBit s1.host.mboxCtl 0 true } }
  else s1

/-- MBOX_GO: the host has written a request and posts it. -/
def execMboxGo (request : List Byte) (s : State) : Res :=
  if s.host.hcpUp = false then .next s
  else .next (({ s with host := { s.host with request := slice request 0 4096 } }).mboxCtlOp 1)

/-- MBOX_TAKE: the management core takes the request. -/
def execMboxTake (s : State) : Res :=
  if s.host.go && s.mgmt.running then .next { s with host := { s.host with mboxCtl := 2, answer := none } } else .next s

/-- A reply message: the request's CMD and TAG, the payload's length and the status. -/
def HostIf.message (h : HostIf) (status : Nat) (payload : List Byte) : List Byte :=
  slice h.request 0 4 ++ leBytes 4 payload.length ++ leBytes 2 status ++ leBytes 6 0 ++ payload

/-- CMD of the request. -/
def HostIf.cmd (h : HostIf) : Nat := field h.request 0 2
/-- The request's payload; none where LEN exceeds the buffer. -/
def HostIf.payload (h : HostIf) : Option (List Byte) :=
  let n := field h.request 4 4
  if n ≤ 4080 then some (slice h.request 16 n) else none

/-- Whether the management core has a request of a command to carry out. -/
def State.mboxPending (s : State) (cmd : Nat) : Bool :=
  s.host.busy && s.mgmt.running && s.host.answer.isNone && decide (s.host.cmd = cmd)

/-- Carry out a mailbox command: its effect, the status and the reply payload, for a payload of at least `least`
bytes; anything else is BAD_ARG. -/
def State.mboxServe (s : State) (cmd least : Nat) (f : List Byte → State → Nat × List Byte × State) : Res :=
  if s.mboxPending cmd then
    let r := match s.host.payload with
      | some b => if least ≤ b.length then f b s else (2, [], s)
      | none => (2, [], s)
    .next { r.2.2 with host := { r.2.2.host with answer := some (s.host.message r.1 (if r.1 = 0 then r.2.1 else [])) } }
  else .next s

/-- Whether the package is host-visible: PHASE has passed 0x4 (R551). -/
def State.hostVisible (s : State) : Bool := decide (5 ≤ fld s.start.status 0 3)

/-- The inactive bank. -/
def Mgmt.inactive (m : Mgmt) : Fin 2 := 1 - m.active

/-- GET_INFO. -/
def execGetInfo (s : State) : Res :=
  s.mboxServe 1 0 (fun _ s =>
    let a := vget s.mgmt.banks s.mgmt.active
    let b := vget s.mgmt.banks s.mgmt.inactive
    (0, leBytes 4 a.version.toNat ++ leBytes 4 a.svn.toNat ++ leBytes 4 b.version.toNat ++ leBytes 4 b.svn.toNat ++
      leBytes 4 s.mgmt.svnMin.toNat ++ leBytes 1 s.mgmt.active.val ++ leBytes 1 (bnat s.hostVisible), s))

/-- LOG_READ: first SEQ (8 bytes) and count (4 bytes, up to 63). -/
def execLogRead (s : State) : Res :=
  s.mboxServe 2 12 (fun b s =>
    let n := field b 8 4
    if 63 < n then (2, [], s)
    else (0, (((s.faults.log.filter (fun e => decide (field b 0 8 ≤ e.1.toNat))).take n).map (·.2)).flatten, s))

/-- A byte of the FRU store (R545). -/
def Tray.fruByte (t : Tray) (a : Nat) : Byte := if a < 0x1000 then azonatisByte a else Sparse.get 0 t.fru a

/-- Write bytes into a store. -/
def putCells (m : List Host.Cell) (a : Nat) : List Byte → List Host.Cell
  | [] => m
  | b :: rest => putCells (Sparse.set 0 m a b) (a + 1) rest

/-- FRU_READ: offset and length, 4 bytes each. -/
def execFruRead (s : State) : Res :=
  s.mboxServe 3 8 (fun b s =>
    let a := field b 0 4
    let n := field b 4 4
    if 4080 < n ∨ 0x2000 < a + n then (2, [], s) else (0, (List.range n).map (fun i => s.tray.fruByte (a + i)), s))

/-- An SMBus write that is complete and not yet stored is stored before what comes after it (R545); the target stays busy. -/
def Tray.stored (t : Tray) : Tray :=
  match t.smStore with
  | none => t
  | some (a, d) => { t with fru := putCells t.fru a d, smStore := some (a, []) }

/-- FRU_WRITE: offset (4 bytes), then the bytes. -/
def execFruWrite (s : State) : Res :=
  s.mboxServe 4 4 (fun b s =>
    let a := field b 0 4
    let d := b.drop 4
    if a < 0x1000 ∨ 0x2000 < a + d.length then (3, [], s)
    else (0, [], { s with tray := { s.tray.stored with fru := putCells s.tray.stored.fru a d } }))

/-! ### Firmware (R537) -/

/-- FW_WRITE: offset (4 bytes), then bytes of the image for the inactive bank, of 16 MiB. -/
def execFwWrite (s : State) : Res :=
  s.mboxServe 5 4 (fun b s =>
    let a := field b 0 4
    let d := b.drop 4
    if 2 ^ 24 < a + d.length then (2, [], s)
    else
      (0, [], { s with mgmt := { s.mgmt with banks := vmod s.mgmt.banks s.mgmt.inactive (fun x =>
        let img := putCells x.image a d
        ⟨img, Config.fwSvn s.mgmt.inactive.val img, Config.fwVersion s.mgmt.inactive.val img⟩) } }))

/-- Whether the boot ROM runs a bank's image. -/
def Mgmt.bankGood (m : Mgmt) (i : Fin 2) : Bool :=
  let x := vget m.banks i
  Config.fwSigGood i.val x.image && decide (m.svnMin.toNat ≤ x.svn.toNat)

/-- FW_ACTIVATE: flags (1 byte). With "now" the management core restarts at once. -/
def execFwActivate (s : State) : Res :=
  s.mboxServe 6 1 (fun b s =>
    let m := s.mgmt
    let i := m.inactive
    if m.bankGood i = false then (4, [], s)
    else
      let fl := b.getD 0 0
      let svn := if bit fl 1 then (vget m.banks i).svn else m.svnMin
      (0, [], { s with mgmt := { m with svnMin := svn, nextBank := some i, running := m.running && !(bit fl 0) } }))

/-- The bank the boot ROM runs: the one to become active, else the other; none where both fail. -/
def Mgmt.bootBank (m : Mgmt) : Option (Fin 2) :=
  let i := m.nextBank.getD m.active
  if m.bankGood i then some i else if m.bankGood (1 - i) then some (1 - i) else none

/-- A request to the tray for a power cycle (R482): ALERT bit 0 and its record. -/
def State.powerCycleAsk (s : State) : State :=
  (s.alertSet 0).report { (s.alertSet 0).errRec 5 (sysStatus 0x48) .power with engine := 0x0D, action := 6 }

/-- MGMT_HEARTBEAT_MISS (R485): the core restarts; a second time within 10 s a power cycle is asked for. -/
def execMgmtHeartbeatMiss (s : State) : Res :=
  if s.start.aux = false ∨ s.mgmt.running = false then .next s
  else
    let again := match s.mgmt.missedAt with
      | none => false
      | some t => decide (s.time.toNat < t.toNat + 10000000000)
    if again then .next (s.startReset .powerCycle 0 0 0 0 0xA).powerCycleAsk
    else .next { s with mgmt := { s.mgmt with running := false, missedAt := some s.time } }

/-! ### Trust anchors (R528, R550) -/

/-- ANCHOR_SET: flags, slot, enable, a reserved byte, and a SHA-384 digest. -/
def execAnchorSet (s : State) : Res :=
  s.mboxServe 7 4 (fun b s =>
    if !(s.allClosed && s.allPortsDown) then (6, [], s)
    else if bit (b.getD 0 0) 0 then (0, [], { s with mgmt := { s.mgmt with azonatis := false } })
    else if field b 1 1 < 4 ∧ 52 ≤ b.length then
      let i : Fin 4 := ⟨field b 1 1 % 4, by omega⟩
      let v := if bit (b.getD 2 0) 0 then some (BitVec.ofNat 384 (field b 4 48)) else none
      (0, [], { s with mgmt := { s.mgmt with anchors := vset s.mgmt.anchors i v } })
    else (2, [], s))

/-! ### Debug access (R566, R567) -/

/-- Whether an unlock is active with a level (Table 18-3). -/
def SelfTest.unlocked (t : SelfTest) (level : Nat) : Bool := bit t.stDebug 16 && bit t.stDebug level

/-- What the end of an unlock does (R567). -/
def State.endUnlock (s : State) : State :=
  if bit s.test.stDebug 16 then
    { s with
      test := { s.test with
        stDebug := setFld s.test.stDebug 0 17 0, slCtl := setBit s.test.slCtl 31 false, slLat := 0, ijtag := false }
      cells := s.cells.map (fun c => { c with regs := { c.regs with plateDbg := setBit c.regs.plateDbg 0 false } }) }
  else s

/-- The DEBUG_TOKEN operation of a request: its first payload byte. -/
def State.tokenOp (s : State) : Byte := (s.host.payload.getD []).getD 0 0xFF

/-- GET_NONCE. -/
def execGetNonce (s : State) : Res :=
  if s.tokenOp = 0 then
    s.mboxServe 8 1 (fun _ s =>
      let n := Config.nonce s.freeCtr
      (0, leBytes 32 n.toNat, { s with freeCtr := s.freeCtr + 1, mgmt := { s.mgmt with nonce := some n } }))
  else .next s

/-- UNLOCK (R566, Table 18-3). The nonce serves this one UNLOCK. -/
def State.unlock (s : State) (t : List Byte) : Nat × List Byte × State :=
  let level := field t 2 2
  let dur := field t 4 4
  let fresh := s.mgmt.nonce == some (BitVec.ofNat 256 (field t 0x10 32))
  let used := { s with mgmt := { s.mgmt with nonce := none } }
  if !(decide (field t 0 2 = 1) && decide (field t 8 8 = idSerial.toNat) && fresh &&
      decide (1 ≤ dur) && decide (dur ≤ 604800) && decide (level < 8)) then (2, [], s)
  else if !(s.mgmt.trusts (Config.sha384 (slice t 0x30 120))) ||
      !(Config.ecdsaGood (slice t 0x30 120) (Config.sha384 (slice t 0 0xA8)) (slice t 0xA8 96)) then (4, [], used)
  else if bit s.test.stDebug 16 then (3, [], used)
  else
    let d := satAdd (setFld (setFld used.test.stDebug 0 16 level) 16 1 1) 32 16 1
    (0, leBytes 8 d.toNat, { used with test := { used.test with
      stDebug := d, debugEnd := s.time + BitVec.ofNat 64 (dur * 1000000000) } })

/-- UNLOCK. -/
def execDebugUnlock (s : State) : Res :=
  if s.tokenOp = 1 then s.mboxServe 8 (1 + 0x108) (fun b s => s.unlock (b.drop 1)) else .next s

/-- LOCK. -/
def execDebugLock (s : State) : Res :=
  if s.tokenOp = 2 then s.mboxServe 8 1 (fun _ s => (0, [], s.endUnlock)) else .next s

/-- Global time reaches ST_DEBUG_END. -/
def execDebugUnlockEnd (s : State) : Res :=
  if bit s.test.stDebug 16 = true ∧ s.test.debugEnd.toNat ≤ s.time.toNat then .next s.endUnlock else .next s

/-- Whether a request names no command or operation of Table 17-5 (R528, R566). -/
def State.mboxUnknown (s : State) : Option Nat :=
  if s.host.cmd = 0 ∨ 8 < s.host.cmd then some 1
  else if s.host.cmd = 8 ∧ 2 < s.tokenOp.toNat then some 2
  else none

/-- MBOX_REPLY (R527): the reply is written, BUSY cleared, DONE set and vector 1 raised. -/
def execMboxReply (s : State) : Res :=
  let put := fun (m : List Byte) =>
    ({ s with host := { s.host with reply := slice m 0 4096, answer := none, mboxCtl := 4 } }).raiseVector 1
  if (s.host.busy && s.mgmt.running) = false then .next s
  else
    match s.host.answer, s.mboxUnknown with
    | some m, _ => .next (put m)
    | none, some e => .next (put (s.host.message e []))
    | none, none => .next s

/-! ### HCP_NOTIFY and the ports (R525, R529, R530) -/

/-- A write of RAISE to HCP_NOTIFY[p]. -/
def State.notifyOp (s : State) (p : PartId) : State := s.raiseVector ⟨8 + p.val, by omega⟩

/-- HCP_NOTIFY. -/
def execHcpNotify (by_ : Requester) (p : PartId) (s : State) : Res :=
  s.regWrite by_ 4 (s.opensPart by_ p) (fun s => s.notifyOp p)

/-- The HCP's part of Table 17-3: the configuration space is reset, the mailbox request is abandoned and the ring disabled. -/
def State.hcpReset (s : State) : State :=
  { s with mgmt := { s.mgmt with spdmWait := none }, host := { s.host with
      hcp := PciePort.reset, vectors := HostIf.reset.vectors, pend := 0
      mboxCtl := s.host.mboxCtl &&& 4, answer := none, ringCtl := setBit s.host.ringCtl 31 false } }

/-- The HSP's part of Table 17-3: the configuration space is reset, host transfers in progress complete with HOST_DENIED, streaming sheets fail. -/
def State.hspReset (s : State) : State :=
  let q := (s.hsp.toHost ++ s.hsp.toPkg).map (fun h => (h.cell, h.xfer, h.bus))
  let s := { s with host := { s.host with hsp := PciePort.reset } }
  let s1 := q.foldl (fun t h => t.dmFail h.1 h.2.1 0x0B h.2.2) s
  let s2 := s1.hsp.reads.foldl (fun t r => (t.dmFail r.cell r.xfer 0x0B 0).dmReturned r.cell r.xfer)
    { s1 with hsp := { s1.hsp with reads := [] } }
  (allFin 4).foldl (fun t p => if (t.sheet p).stateCode = 2 then t.sheetFail p 6 else t) s2

/-- PERST_N, hot reset or link down. -/
def execPciePortReset (hsp : Bool) (s : State) : Res :=
  if hsp then .next { s.hspReset with host := { s.hspReset.host with hspUp := false } }
  else .next { s.hcpReset with host := { s.hcpReset.host with hcpUp := false } }

/-- Function Level Reset. -/
def execFunctionLevelReset (hsp : Bool) (s : State) : Res := .next (if hsp then s.hspReset else s.hcpReset)

/-- Whether FD0 has booted: in the cold start from phase 0x3 on, in a chip reset after its third phase. -/
def State.fd0Booted (s : State) : Bool :=
  s.start.coreOn &&
  (match s.faults.chipPhase with
   | some k => decide (3 ≤ k.val)
   | none => decide (3 ≤ fld s.start.status 0 3))

/-- PCIE_LINK_UP: a port finishes training; records made while the HCP was down are delivered once the ring is
enabled. -/
def execPcieLinkUp (hsp : Bool) (s : State) : Res :=
  if s.fd0Booted = false then .next s
  else if hsp then .next { s with host := { s.host with hspUp := true } }
  else .next ({ s with host := { s.host with hcpUp := true } }).ringDeliver

end Sys2Proof.Machine
end

