-- ==== Sys2Proof/Machine/Power.lean ====
section
/-!
DEFINITION. Power, thermal and ageing (R494 to R514, R520, R544): the meter's estimates and calibration, the phase table,
the cap loop and its operating points, droop, junction and ageing readings. Power is counted in milliwatts. What the
fused tables of a die give is a constant of Config.
-/
namespace Sys2Proof.Machine

/-! ### Estimates and calibration (R496, R497) -/

/-- Change the meter's state. -/
def State.modPower (s : State) (f : Power → Power) : State := { s with power := f s.power }
/-- Change the estimate of a die. -/
def State.modMeter (s : State) (d : DieId) (f : MeterDie → MeterDie) : State :=
  s.modPower (fun x => { x with meter := vmod x.meter d f })
/-- Change compute die d. -/
def State.modPwrDie (s : State) (d : Fin 4) (f : PwrDie → PwrDie) : State :=
  s.modPower (fun x => { x with dies := vmod x.dies d f })
/-- Compute die d. -/
def State.pwrDie (s : State) (d : Fin 4) : PwrDie := vget s.power.dies d
/-- The estimate of a die. -/
def State.meterOf (s : State) (d : DieId) : MeterDie := vget s.power.meter d
/-- The compute die of a die number below 4. -/
def computeOf (d : DieId) : Option (Fin 4) := if h : d.val < 4 then some ⟨d.val, h⟩ else none
/-- A compute die among the six. -/
def dieOfCompute (d : Fin 4) : DieId := ⟨d.val, by omega⟩

/-- The cells of a compute die. -/
def cellsOfDie (d : DieId) : List CellId := (allFin 64).filter (fun c => dieOf c = d)
/-- The stacks beneath a compute die (R278). -/
def stacksOfDie (d : DieId) : List StackId := (allFin 16).filter (fun n => stackDie n = d)

/-- Sum of a register over cells. -/
def State.cellSum (s : State) (cs : List CellId) (f : CellRegs → Word64) : Nat :=
  (cs.map (fun c => (f (s.cell c).regs).toNat)).sum

/-- Beats received by a die over its joins. -/
def State.beatsOf (s : State) (d : DieId) : Nat :=
  ((allFin 8).map (fun j => ((allFin 2).map (fun k =>
    if receiverOf j k = d then (vget (s.xd j).dirs k).beats.toNat else 0)).sum)).sum

/-- The activity counters a die reports (R496, R575). A compute die's: MAC and row-cycles of its cells by operand class
(0 to 3, 4 to 7), beats, optimizer elements, issue and spinning cycles (8 to 11), crossing beats (12), and the bursts each of
its stack controllers served (13 to 16). -/
def State.counters (s : State) (d : DieId) : List Nat :=
  if d.val < 4 then
    let cs := cellsOfDie d
    (allFin 4).map (fun k => s.cellSum cs (fun r => vget r.classMac k)) ++
    (allFin 4).map (fun k => s.cellSum cs (fun r => vget r.classRow k)) ++
    [s.cellSum cs (·.vecBeat), s.cellSum cs (·.vecOptElem), s.cellSum cs (·.coreIssue), s.cellSum cs (·.latchSpin),
     s.beatsOf d] ++
    (stacksOfDie d).map (fun n => (s.stack n).bursts)
  else
    let f : FabId := if d.val = 4 then 0 else 1
    [s.beatsOf d, ((portsOf f).map (fun k => (s.port k).txFrames.toNat)).sum, (s.fab f).collFrames.toNat,
     if f = 1 then (s.test.slices.toList.map (·.toNat)).sum else 0]

/-- Power of the stacks beneath a die, each from its own bursts of the microsecond and its refresh rate. -/
def State.stacksPower (s : State) (d : DieId) (now was : List Nat) : Nat :=
  ((stacksOfDie d).zipIdx.map (fun e =>
    Config.stackPower (now.getD (13 + e.2) 0 - was.getD (13 + e.2) 0) (fld (s.stack e.1).therm 16 2))).sum

/-- POINT of a die: fabric dies have the one point 0. -/
def State.pointOf (s : State) (d : DieId) : Nat :=
  match computeOf d with
  | some c => fld (s.pwrDie c).status 28 4
  | none => 0

/-- The hottest junction sensor of a die (R508). -/
def MeterDie.tj (m : MeterDie) : BitVec 16 :=
  m.sensors.toList.foldl (fun (a b : BitVec 16) => if a.toInt < b.toInt then b else a) (vget m.sensors 0)

/-! ### Clocks and rails (R493 to R495, Table 16-1) -/

/-- MCLK of an operating point in MHz (R494). -/
def pointMhz (i : Nat) : Nat := 600 + 100 * i
/-- The stretch of a die in sixteenths of the period: by the cap and by droop, at most three quarters (R507). -/
def PwrDie.stretch (x : PwrDie) : Nat := min (x.capStretch + x.droopStretch) 12
/-- How far MCLK is after another nanosecond; a cycle is PwrDie.period. -/
def PwrDie.mclk (x : PwrDie) : Nat := x.mclkAt + 16 * pointMhz (fld x.status 28 4)
/-- The same of CCLK, 1.6 GHz. -/
def PwrDie.cclk (x : PwrDie) : Nat := x.cclkAt + 16 * 1600
/-- One cycle, stretched. -/
def PwrDie.period (x : PwrDie) : Nat := 1000 * (16 + x.stretch)

/-- A voltage within the range Table 16-1 gives its rail, in units of 0.25 mV. -/
def within (lo hi v : Nat) : Nat := min (max v lo) hi
/-- An offset added to a voltage. -/
def offsetBy (v : Nat) (o : BitVec 8) : Nat := ((v : Int) + o.toInt).toNat
/-- The offset of a point (R520). -/
def Age.offset (a : Age) (p : Nat) : BitVec 8 := if p < 8 then bfld a.offsetLo (8 * p) 8 else bfld a.offsetHi (8 * (p - 8)) 8
/-- VDD_PLATE of a die at a point: fused, with its offset (R494, R512). -/
def State.plateAt (s : State) (d : Fin 4) (p : Nat) : Nat :=
  offsetBy (within 2320 3520 (Config.fusedPlate d.val p)) ((vget s.power.ages (dieOfCompute d)).offset p)

/-- VDD_PLATE as it is: during a change of point between the voltage it began at and the new point's, moved by at most 2 mV
per microsecond (R495). -/
def State.plateNow (s : State) (d : Fin 4) : Nat :=
  let x := s.pwrDie d
  let v := vget s.power.rails.plate d
  match x.target with
  | none => v
  | some p =>
    let w := s.plateAt d p.toNat
    let n := min (Config.slewed d.val s.time.toNat) (8 * (s.time - x.moved).toNat / 1000)
    if w < v then v - min n (v - w) else v + min n (w - v)

/-- The regulators load every rail from the fused tables with the offsets of the last plan (R493, R512). VDD_PLATE of a die
whose point is changing goes on to the new point's. -/
def State.loadRails (s : State) : State :=
  let fused := fun (k i lo hi : Nat) => within lo hi (Config.fusedRail k i)
  s.modPower (fun x => { x with rails :=
    { plate := Vector.ofFn (fun (d : Fin 4) =>
        if (vget x.dies d).target.isSome then vget x.rails.plate d else s.plateAt d (fld (vget x.dies d).status 28 4))
      cell := Vector.ofFn (fun (d : Fin 4) => offsetBy (fused 1 d.val 2880 3200) (vget x.ages (dieOfCompute d)).cell)
      sram := Vector.ofFn (fun (d : Fin 4) => fused 2 d.val 3120 3280)
      xio := Vector.ofFn (fun (d : Fin 4) => fused 3 d.val 2920 3080)
      stk := Vector.ofFn (fun (n : Fin 16) => fused 4 n.val 4200 4600)
      stkq := Vector.ofFn (fun (n : Fin 16) => fused 5 n.val 1520 1680)
      fab := Vector.ofFn (fun (f : Fin 2) => offsetBy (fused 6 f.val 3040 3360) ((vget x.ages (if f = 0 then 4 else 5)).offset 0))
      serdes := Vector.ofFn (fun (f : Fin 2) => fused 7 f.val 3520 3680) } })

/-- Leakage of a compute die with VDD_PLATE at a voltage, in milliwatts (R496). -/
def State.leakAt (s : State) (d : Fin 4) (plate : Nat) : Nat :=
  let r := s.power.rails
  Config.leak d.val [plate, vget r.cell d, vget r.sram d, vget r.xio d] (s.meterOf (dieOfCompute d)).tj.toNat

/-- Leakage of a die as it stands. -/
def State.leakage (s : State) (d : DieId) : Nat :=
  match computeOf d with
  | some c => s.leakAt c (s.plateNow c)
  | none =>
    let f : Fin 2 := if d.val = 4 then 0 else 1
    Config.leak d.val [vget s.power.rails.fab f, vget s.power.rails.serdes f] (s.meterOf d).tj.toNat

/-- METER_ACTIVITY_REPORT (R496): the microsecond's estimate of a die joins the sums of its windows. A spinning cycle
weighs as one issue (R256). -/
def execMeterActivityReport (d : DieId) (s : State) : Res :=
  let m := s.meterOf d
  let now := s.counters d
  let k := fun (i : Nat) => if d.val < 4 && i == 11 then 10 else i
  let dyn := (now.zipIdx.map (fun e => Config.weight d.val (k e.2) * (e.1 - m.counters.getD e.2 0))).sum
  let est := m.gain * dyn / 65536 / 1000 + s.leakage d
  let stk := if d.val < 4 then s.stacksPower d now m.counters else 0
  .next (s.modMeter d (fun m => { m with
    counters := now, lastEst := est, sumEst := m.sumEst + est + stk, numEst := m.numEst + 1
    winEst := m.winEst + est, winStk := m.winStk + stk, winNum := m.winNum + 1 }))

/-- Bounds of a gain: 0.80 and 1.25 in units of 2⁻¹⁶. -/
def gainLow : Nat := 52429
/-- The upper bound. -/
def gainHigh : Nat := 81920

/-- One die's calibration (R497): gain, drift windows and the W1C bits of PWR_STATUS. -/
def State.calibrate (s : State) (d : DieId) (mw : Nat) : State :=
  let m := s.meterOf d
  let mean := m.sumEst / max m.numEst 1
  let ratio := mw * 65536 / max mean 1
  let g := min (max (m.gain * min (max ratio 62259) 68813 / 65536) gainLow) gainHigh
  let out := decide (ratio < 62259) || decide (68813 < ratio)
  let drift := if out then m.drift + 1 else 0
  let s1 := s.modMeter d (fun m => { m with gain := g, sumEst := 0, numEst := 0, drift := drift })
  s1.modPower (fun x =>
    let w := if 4 ≤ drift then setBit x.status (20 + d.val) true else x.status
    { x with status := if g = gainLow ∨ g = gainHigh then setBit w (26 + d.val) true else w })

/-- Measured input power of a die in milliwatts (R497): its regulators' input current times the 12 V input voltage. -/
def measured (inputMv : BitVec 16) (ma : BitVec 32) : Nat := ma.toNat * inputMv.toNat / 1000

/-- METER_CALIBRATION (R497, R518): INPUT_W and the energy of the window from the measured sum, then every die. -/
def execMeterCalibration (inputMv : BitVec 16) (railMa : Vector (BitVec 32) 6) (s : State) : Res :=
  let mw := ((allFin 6).map (fun d => measured inputMv (vget railMa d))).sum
  let s1 := s.modPower (fun x => { x with
    status := setFld x.status 48 16 (min (mw / 1000) 65535), energy := x.energy + BitVec.ofNat 64 (mw / 100) })
  .next ((allFin 6).foldl (fun t d => t.calibrate d (measured inputMv (vget railMa d))) s1)

/-! ### Phases (R498, R499) -/

/-- Totals of the activities of a signature: plate MACs, beats, issue with spinning, bursts, crossing beats, port
frames, collective frames, spinning. -/
def State.activities (s : State) : List Nat :=
  let cs := allFin 64
  let spin := s.cellSum cs (·.latchSpin)
  [s.cellSum cs (·.plateMac), s.cellSum cs (·.vecBeat), s.cellSum cs (·.coreIssue) + spin,
   (s.stackSet.toList.map (·.bursts)).sum, ((allFin 6).map (fun d => s.beatsOf d)).sum,
   (s.ports.toList.map (fun x => x.txFrames.toNat)).sum, (s.fabs.toList.map (fun x => x.collFrames.toNat)).sum, spin]

/-- The signature of a window from the activity in it: sixteenths of each maximum, the last the spinning share of
issue. -/
def signature (delta : List Nat) : List Nat :=
  (List.range 8).map (fun i =>
    let m := if i = 7 then delta.getD 2 0 else Config.activityMax i
    min 15 (16 * delta.getD i 0 / max m 1))

/-- Field i of a stored signature. -/
def sigField (w : Word64) (i : Nat) : Nat := fld w (4 * i) 4

/-- The distance of a signature from a stored one (R498). -/
def sigDistance (w : Word64) (sig : List Nat) : Nat :=
  (sig.zipIdx.map (fun e => (e.1 - sigField w e.2) + (sigField w e.2 - e.1))).sum

/-- The entry a signature matches; of several the lowest. -/
def Power.matchOf (x : Power) (sig : List Nat) : Option (Fin 16) :=
  (allFin 16).find? (fun k =>
    let w := (vget x.phases k).sig
    bit w 63 && decide (sigDistance w sig ≤ fld x.ctl 16 5))

/-- The entry a new phase takes: a free one, else the least recently matched. -/
def Power.victim (x : Power) : Fin 16 :=
  match (allFin 16).find? (fun k => !(bit (vget x.phases k).sig 63)) with
  | some k => k
  | none => (allFin 16).foldl (fun b k => if (vget x.phases b).age < (vget x.phases k).age then k else b) 0

/-- Index of the largest count, the lowest among equals. -/
def mostFrequent (v : Vector Nat 16) : Fin 16 := (allFin 16).foldl (fun b k => if vget v b < vget v k then k else b) 0

/-- A window belongs to entry k: ages, the run, and at the end of a run its duration and successor. -/
def Power.enter (x : Power) (k : Fin 16) : Power :=
  let aged := x.phases.map (fun (p : Phase) => { p with age := p.age + 1 })
  let zero := vmod aged k (fun p => { p with age := 0 })
  match x.current with
  | none => { x with phases := zero, current := some k, runLen := 1 }
  | some c =>
    if c = k then { x with phases := zero, runLen := x.runLen + 1 }
    else
      let ended := vmod zero c (fun p =>
        let fol := vmod p.follows k (· + 1)
        { p with
          follows := fol
          sig := setFld (setFld p.sig 40 16 (min x.runLen 65535)) 56 4 (mostFrequent fol).val })
      { x with phases := ended, current := some k, runLen := 1 }

/-- Learned power of die d, moved by an eighth towards the window's. -/
def learn (old new : Nat) : Nat := (7 * old + new) / 8

/-- The predicted phase (R499). -/
def Power.predicted (x : Power) : Option (Fin 16) :=
  match x.current with
  | none => none
  | some c =>
    let w := (vget x.phases c).sig
    if bit x.ctl 27 = true ∧ 0 < fld w 40 16 ∧ 9 * fld w 40 16 ≤ 10 * x.runLen then some (bfld w 56 4).toFin else some c

/-- Power of a compute die at a point, from its power at point 14 (R500): the dynamic part by the ratio of f × V², leakage
recomputed at the point's voltage. -/
def State.powerAt (s : State) (d : Fin 4) (p learned : Nat) : Nat :=
  let v := s.plateAt d 14
  let w := s.plateAt d p
  (learned - s.leakAt d v) * (pointMhz p * w ^ 2) / max (pointMhz 14 * v ^ 2) 1 + s.leakAt d w

/-- A compute die's window, scaled from the clock and the voltage it ran at to point 14. -/
def State.windowPower (s : State) (d : Fin 4) : Nat :=
  let x := s.pwrDie d
  let v := s.plateNow d
  let w := s.plateAt d 14
  ((s.meterOf (dieOfCompute d)).avg - s.leakAt d v) * (pointMhz 14 * (16 + x.stretch) * w ^ 2) /
    max (pointMhz (fld x.status 28 4) * 16 * v ^ 2) 1 + s.leakAt d w

/-- A die's power in the window as the phase table learns it. -/
def State.learnable (s : State) (d : DieId) : Nat :=
  match computeOf d with
  | some c => s.windowPower c
  | none => (s.meterOf d).avg

/-- METER_SIGNATURE_WINDOW (R498, R499): averages of the 100 µs window, EST_W, the signature and its phase. The learned
power of a die held under a hot stack is not updated (R509). -/
def execMeterSignatureWindow (s : State) : Res :=
  let s1 := s.modPower (fun x => { x with meter := x.meter.map (fun (m : MeterDie) => { m with
    avg := m.winEst / max m.winNum 1, avgStk := m.winStk / max m.winNum 1, winEst := 0, winStk := 0, winNum := 0 }) })
  let s2 := (allFin 4).foldl (fun t d =>
    let m := t.meterOf (dieOfCompute d)
    t.modPwrDie d (fun x => { x with status := setFld x.status 0 16 (min ((m.avg + m.avgStk) / 1000) 65535) })) s1
  let now := s2.activities
  let sig := signature (now.zipIdx.map (fun e => e.1 - s2.power.sigCounts.getD e.2 0))
  let powers := Vector.ofFn (fun (d : Fin 6) => s2.learnable d)
  let x := { s2.power with sigCounts := now }
  let y :=
    match x.matchOf sig with
    | some k =>
      { x with phases := vmod x.phases k (fun p => { p with
        power := Vector.ofFn (fun (d : Fin 6) =>
          if ((computeOf d).map (fun c => (vget x.dies c).hotHold)).getD false then vget p.power d
          else learn (vget p.power d) (vget powers d)) }) }.enter k
    | none =>
      let k := x.victim
      let w := setBit (BitVec.ofNat 64 ((sig.zipIdx.map (fun (e : Nat × Nat) => e.1 * 16 ^ e.2)).sum)) 63 true
      let cleared := x.phases.map (fun (p : Phase) => { p with follows := vset p.follows k 0 })
      { x with
        phases := vset cleared k ⟨w, powers, 0, Vector.replicate 16 0⟩
        current := if x.current = some k then none else x.current }.enter k
  let pr := (y.predicted.getD 0).val
  .next { s2 with power := { y with
    status := setFld (setFld y.status 16 4 (y.current.getD 0).val) 12 4 pr } }

/-! ### The cap (R500 to R506) -/

/-- A cap as the register's note bounds it, in watts. -/
def clampCap (w : Nat) : Nat := min (max w 2000) 3800

/-- P_cap in watts, and whether PWR_EMERG sets it (R502, R504). -/
def Power.capWatts (x : Power) (inputMv : Nat) : Nat × Bool :=
  let a := clampCap (fld x.cap 0 16)
  let e := fld x.emerg 0 16
  let b := if e ≠ 0 ∧ clampCap e < a then (clampCap e, true) else (a, false)
  let i := 340 * inputMv / 1000
  if inputMv < 11400 ∧ i < b.1 then (i, false) else b

/-- MCLK_TARGET as its note bounds it. -/
def PwrDie.targetPoint (x : PwrDie) : Nat := min (fld x.cfg 0 4) 14
/-- POINT. -/
def PwrDie.point (x : PwrDie) : Nat := fld x.status 28 4
/-- POINT_MAX. -/
def PwrDie.pointMax (x : PwrDie) : Nat := fld x.status 24 4
/-- WEIGHT. -/
def PwrDie.weight (x : PwrDie) : Nat := max (fld x.cfg 8 8) 1

/-- Learned power of a die in the predicted phase at point 14; with prediction off the last window's (R499). -/
def State.learned (s : State) (d : Fin 4) : Nat :=
  if bit s.power.ctl 27 then
    match s.power.predicted with
    | some k => vget (vget s.power.phases k).power (dieOfCompute d)
    | none => s.windowPower d
  else s.windowPower d

/-- need(d) of R500. -/
def State.need (s : State) (d : Fin 4) : Nat := s.powerAt d (s.pwrDie d).targetPoint (s.learned d)

/-- B_compute of R500, in milliwatts. -/
def State.computeBudget (s : State) (cap : Nat) : Nat :=
  let fab := (s.meterOf 4).avg + (s.meterOf 5).avg
  let stk := ((allFin 4).map (fun d => (s.meterOf (dieOfCompute d)).avgStk)).sum
  1000 * cap - fab - stk - 1000 * fld s.power.ctl 0 8

/-- share(d) of R500. -/
def State.share (s : State) (cap : Nat) (d : Fin 4) : Nat :=
  let total := ((allFin 4).map (fun e => (s.pwrDie e).weight * s.need e)).sum
  s.computeBudget cap * ((s.pwrDie d).weight * s.need d) / max total 1

/-- The highest point not above a bound whose power fits a share; none where even point 0 does not. -/
def fitPoint (power : Nat → Nat) (share bound : Nat) : Option Nat :=
  (List.range (bound + 1)).reverse.find? (fun p => decide (power p ≤ share))

/-- The least stretch, of `low` to 8 sixteenths, whose power fits a share; 8 where none does (R503). -/
def stretchFor (power : Nat → Nat) (share low : Nat) : Nat :=
  ((List.range 9).find? (fun n => decide (low ≤ n) && decide (power n ≤ share))).getD 8

/-- Power of a die at a point and a cap stretch with VDD_PLATE as it is, from the estimate under its present clock (R503). -/
def State.powerNow (s : State) (d : Fin 4) (p n : Nat) : Nat :=
  let x := s.pwrDie d
  let leak := s.leakAt d (s.plateNow d)
  ((s.meterOf (dieOfCompute d)).avg - leak) * (pointMhz p * (16 + x.capStretch)) / (pointMhz x.point * (16 + n)) + leak

/-- Whether a stack beneath a compute die is hot (Table 16-2). -/
def State.hotStack (s : State) (d : Fin 4) : Bool := (stacksOfDie (dieOfCompute d)).any (fun n => (s.stack n).hot)

/-- HOT_PT. -/
def Power.hotPoint (x : Power) : Nat := min (fld x.therm 0 4) 14

/-- Junction temperature of a die in eighths of a degree. -/
def State.junction (s : State) (d : Fin 4) : Int := (s.meterOf (dieOfCompute d)).tj.toInt

/-- TJ_LIMIT_C in eighths of a degree (R508). -/
def Power.tjLimit (x : Power) : Int := 8 * (min (max (fld x.therm 8 8) 70) 105 : Nat)

/-- Whether a die was throttled in the window that ends (R505): it began or ended it below its target for another reason
than a hot stack, or it was cap-stretched. -/
def PwrDie.throttled (x : PwrDie) : Bool :=
  x.below || decide (x.point < min x.targetPoint x.hotBound) || decide (0 < x.capStretch)

/-- Time with any stretch, the present one counted so far (R518). -/
def PwrDie.stretchTime (x : PwrDie) (now : Word64) : Word64 :=
  if x.capStretch + x.droopStretch = 0 then x.stretchNs else x.stretchNs + (now - x.since)

/-- Set the stretch of a die; the time with any stretch is added to STRETCH_NS. -/
def PwrDie.setStretch (x : PwrDie) (cap droop : Nat) (now : Word64) : PwrDie :=
  { x with
    capStretch := cap
    droopStretch := droop
    stretchNs := x.stretchTime now
    since := now
    status := setFld x.status 19 5 (min (cap + droop) 12) }

/-- A die goes to point p (R495). Falling, MCLK switches at once and VDD_PLATE slews down after it; rising, VDD_PLATE slews
first and POINT follows with POINT_CHANGE_DONE. REASON says why POINT is below MCLK_TARGET. -/
def State.aim (s : State) (d : Fin 4) (p reason : Nat) : State :=
  let x := s.pwrDie d
  let low := min x.point p
  if p = (x.target.map (·.toNat)).getD x.point then
    s.modPwrDie d (fun x => { x with
      status := setFld x.status 16 3 (if x.targetPoint ≤ low then 0 else if x.target.isSome then 5 else reason) })
  else
    let v := s.plateNow d
    (s.modPwrDie d (fun x => { x with
      target := some (BitVec.ofNat 4 p)
      moved := s.time
      status := setFld (setFld x.status 28 4 low) 16 3 (if x.targetPoint ≤ low then 0 else 5) })).modPower
      (fun y => { y with rails := { y.rails with plate := vset y.rails.plate d v } })

/-- The point down to which a hot stack accounts for a die's operation in the window that begins: its hold, and after it the
climb of one point a window (R505, R510). -/
def State.hotReach (s : State) (d : Fin 4) : Nat :=
  let x := s.pwrDie d
  let bound := fun (b : Bool) => if b then s.power.hotPoint else 14
  min (bound (s.hotStack d)) (min (bound x.hotHold) (x.hotBound + 1))

/-- The loop's decision for one compute die: point, cap stretch and REASON (R500, R503, R508, R509, R513). At point 0 the
junction limit stretches by what the share requires and at least a sixteenth more than there is (log entry 64). -/
def State.decide_ (s : State) (cap : Nat) (above : Bool) (d : Fin 4) : Nat × Nat × Nat :=
  let x := s.pwrDie d
  let cur := x.point
  let est := (s.meterOf (dieOfCompute d)).avg
  let share := s.share cap d
  let hot := s.hotStack d
  let limit := min (min x.targetPoint x.pointMax) (if hot then s.power.hotPoint else 14)
  let fit := fitPoint (fun p => s.powerAt d p (s.learned d)) share limit
  let forced := decide (above = true ∧ share < est)
  let fit2 := if forced then fitPoint (fun p => s.powerNow d p 0) share (min cur limit) else some 14
  let tj := decide (s.power.tjLimit ≤ s.junction d)
  let cool := decide (s.junction d < s.power.tjLimit - 24)
  let want := min (min (fit.getD 0) (fit2.getD 0)) limit
  let low := if tj then min want (cur - 1) else want
  let stretch :=
    if tj && cur == 0 then stretchFor (s.powerNow d 0) share (min (x.capStretch + 1) 8)
    else if forced && fit2.isNone then stretchFor (s.powerNow d 0) share x.capStretch
    else if 0 < x.capStretch ∧ 100 * est < 95 * share ∧ (cool || !x.overTemp) = true then x.capStretch - 1
    else x.capStretch
  let mayRise := x.capStretch == 0 && stretch == 0 && (cool || !x.overTemp)
  let p := if low < cur then low else if cur < low ∧ mayRise = true then cur + 1 else cur
  let reach := s.hotReach d
  let reason := if tj || (x.overTemp && !cool) then 2
    else if decide (reach ≤ p) && decide (reach < x.targetPoint) then 3
    else if decide (p = x.pointMax) && decide (x.pointMax < x.targetPoint) then 4 else 1
  (p, stretch, reason)

/-- The window's throttling, counted for a die. -/
def State.countThrottle (s : State) (d : Fin 4) : State :=
  s.modPwrDie d (fun x =>
    let y := if x.throttled then { x with throttleNs := x.throttleNs + 100000 } else x
    if x.hotHold then { y with thermNs := y.thermNs + 100000 } else y)

/-- The end of a throttled window (R505, R506): PWR_STATUS, the ALERT bit, and the stop bit of cells still open. -/
def State.throttleWindow (s : State) : State :=
  if (allFin 4).any (fun d => (s.pwrDie d).throttled) then
    let s1 := (s.modPower (fun x => { x with status := setBit x.status 0 true })).alertSet 2
    (allFin 64).foldl (fun t c =>
      match t.partOf c with
      | some p => if t.phase p = .expose ∧ (t.cell c).frozen = false then
          t.modCell c (fun x => { x with stopBits := setBit x.stopBits 5 true }) else t
      | none => t) s1
  else s

/-- CAP_LOOP (R500, R502 to R506, R508 to R510): the window's throttling, P_cap, then each compute die. The 12 V input
reads `inputMv`. -/
def execCapLoop (inputMv : BitVec 16) (s : State) : Res :=
  let s1 := (allFin 4).foldl State.countThrottle s.throttleWindow
  let cap := s1.power.capWatts inputMv.toNat
  let total := ((allFin 6).map (fun d => (s1.meterOf d).avg + (s1.meterOf d).avgStk)).sum
  let above := decide (cap.1 < fld s1.power.status 48 16) || decide (1000 * cap.1 < total)
  let s2 := s1.modPower (fun x => { x with status := setBit (setFld x.status 32 16 cap.1) 1 cap.2 })
  .next ((allFin 4).foldl (fun t d =>
    let r := s2.decide_ cap.1 above d
    let tj := decide (s2.power.tjLimit ≤ s2.junction d)
    let cool := decide (s2.junction d < s2.power.tjLimit - 24)
    ((t.modPwrDie d (fun x => x.setStretch r.2.1 x.droopStretch t.time)).aim d r.1 r.2.2).modPwrDie d (fun x => { x with
      hotHold := s2.hotStack d
      overTemp := tj || (x.overTemp && !cool)
      hotBound := s2.hotReach d
      below := decide (x.point < min x.targetPoint (s2.hotReach d)) })) s2)

/-- POINT_CHANGE_DONE (R495): VDD_PLATE is at the new point's voltage, and POINT reads the new point; fabric dies have
one. -/
def execPointChangeDone (d : DieId) (s : State) : Res :=
  match computeOf d with
  | none => .next s
  | some c =>
    match (s.pwrDie c).target with
    | none => .next s
    | some p =>
      let v := s.plateAt c p.toNat
      .next ((s.modPwrDie c (fun x =>
        let r := if x.targetPoint ≤ p.toNat then 0 else if x.hotBound ≤ p.toNat then 3 else if x.overTemp then 2
          else if decide (p.toNat = x.pointMax) then 4 else 1
        { x with target := none, status := setFld (setFld x.status 28 4 p.toNat) 16 3 r })).modPower
        (fun y => { y with rails := { y.rails with plate := vset y.rails.plate c v } }))

/-- PWR_CTL.APPLY (R502): at once where the partition is CLOSED, otherwise at its boundary. -/
def State.powerApplyOp (s : State) : State :=
  if s.closed (bfld s.power.ctl 29 2).toFin then s.powerApply
  else s.modPower (fun x => { x with applyHeld := true })

/-- PWR_APPLY. -/
def execPwrApply (by_ : Requester) (s : State) : Res := s.regWrite by_ 5 false State.powerApplyOp

/-- The emergency cap is written, and EMERG_W and EMERG_SRC show it (R544). With the core domain in reset or unpowered the register is
not reachable (R587). -/
def State.emergWrite (s : State) (v : BitVec 16) (src : BitVec 2) : State :=
  let s1 := { s with tray := { s.tray with emergW := v, emergSrc := src } }
  if !(s.coreUp) then s1 else s1.modPower (fun x => { x with emerg := v.zeroExtend 32 })

/-- An HCP or management write of PWR_EMERG. -/
def execPwrEmergWrite (by_ : Requester) (v : Word32) (s : State) : Res :=
  s.regWrite by_ 5 false (fun s => s.emergWrite (bfld v 0 16) 2)

/-! ### Droop and temperature (R507, R508) -/

/-- DROOP_DETECT: a monitor reads more than DROOP_MV below its set point. -/
def execDroopDetect (d : DieId) (mv : BitVec 8) (s : State) : Res :=
  match computeOf d with
  | none => .next s
  | some c =>
    .next (s.modPwrDie c (fun x =>
      if max (fld x.cfg 16 8) 10 < mv.toNat then
        { x.setStretch x.capStretch 4 s.time with droops := x.droops + 1 }
      else x))

/-- DROOP_RELEASE: one sixteenth is released. -/
def execDroopRelease (d : DieId) (s : State) : Res :=
  match computeOf d with
  | none => .next s
  | some c =>
    .next (s.modPwrDie c (fun x =>
      if x.droopStretch = 0 then x else x.setStretch x.capStretch (x.droopStretch - 1) s.time))

/-- JUNCTION_READING: the 16 sensors of a die, for the next cap loop. -/
def execJunctionReading (d : DieId) (tempC8 : Vector (BitVec 16) 16) (s : State) : Res :=
  .next (s.modMeter d (fun m => { m with sensors := tempC8 }))

/-! ### Ageing (R511 to R514, R520) -/

/-- AGE[d].HOURS (R512): hours the core rails have been on. -/
def Startup.hours (x : Startup) : Word64 := BitVec.ofNat 64 (x.onNs / 3600000000000)

/-- Change AGE[d]. -/
def State.modAge (s : State) (d : DieId) (f : Age → Age) : State :=
  s.modPower (fun x => { x with ages := vmod x.ages d f })

/-- The smallest slack of a die's 64 monitors (R511). -/
def leastSlack (v : Vector (BitVec 16) 64) : BitVec 16 :=
  v.toList.foldl (fun (a b : BitVec 16) => if b.toNat < a.toNat then b else a) (vget v 0)

/-- AGEING_READING (R511): every monitor of a die is read. -/
def execAgeingReading (d : DieId) (slackPs : Vector (BitVec 16) 64) (s : State) : Res :=
  let m := leastSlack slackPs
  .next (s.modAge d (fun a => { a with slack := m, status := setFld a.status 0 8 (min m.toNat 255) }))

/-- Points of a die: 15 on a compute die, one on a fabric die. -/
def pointsOf (d : DieId) : Nat := if d.val < 4 then 15 else 1

/-- MIN_SLACK_PS. -/
def Power.minSlack (x : Power) : Nat := max (fld x.ageCfg 0 8) 1

/-- The smallest offset, in steps of 0.25 mV from −25 mV, that leaves at least a slack; 101 where +25 mV does not (R512). -/
def smallestOffset (slack : Int → Nat) (least : Nat) : Int :=
  (((List.range 201).map (fun (i : Nat) => (i : Int) - 100)).find? (fun o => decide (least ≤ slack o))).getD 101

/-- The offset that leaves a point of a die (15: VDD_CELL) at least MIN_SLACK_PS, from a slack measured there with the
offset in force. -/
def State.planAt (s : State) (d : DieId) (slack : Nat → Nat) (p : Nat) : Int :=
  let a := vget s.power.ages d
  let o := if p = 15 then a.cell else a.offset p
  smallestOffset (Config.slackAt d.val p (slack p) o.toInt) s.power.minSlack

/-- The offsets of a die's points, −100 to 100; 101 where +25 mV is not enough. -/
def State.plan (s : State) (d : DieId) (slack : Nat → Nat) : List Int := (List.range (pointsOf d)).map (s.planAt d slack)

/-- The offset of VDD_CELL of a compute die. -/
def State.planCell (s : State) (d : DieId) (slack : Nat → Nat) : Int := if d.val < 4 then s.planAt d slack 15 else 0

/-- What a plan leaves in AGE[d] (R512 to R514): offsets, withdrawn points, the flags and USED_MV, in which VDD_CELL counts as
a die's single point. Only a chip-reset plan
restores points and lets USED_MV fall. -/
def Age.afterPlan (a : Age) (d : DieId) (offs : List Int) (cellOff : Int) (hours : Word64) (atReset : Bool) : Age :=
  let cut := offs.map (fun o => min o 100)
  let byte := fun (p : Nat) => (BitVec.ofInt 8 (cut.getD p 0)).toNat
  let above : BitVec 15 := BitVec.ofNat 15 ((List.range 15).foldl (fun n p => n + if 100 < offs.getD p 0 then 2 ^ p else 0) 0)
  let lost := if d.val < 4 then (if atReset then above else a.lost ||| above) else 0
  let used := (cut.foldl (fun m o => max m o) (max 0 (min cellOff 100))).toNat
  let mv := (used + 3) / 4
  let mv := if atReset then mv else max mv (fld a.status 8 8)
  let exhausted := decide (100 < (if d.val < 4 then cellOff else offs.getD 0 0))
  { a with
    offsetLo := BitVec.ofNat 64 ((List.range 8).map (fun p => byte p * 256 ^ p)).sum
    offsetHi := BitVec.ofNat 64 ((List.range 7).map (fun p => byte (8 + p) * 256 ^ p)).sum
    lost := lost
    cell := BitVec.ofInt 8 (min cellOff 100)
    planned := hours
    status := setFld (setFld (setBit (setBit a.status 31 (lost != 0)) 30 exhausted) 16 8 (Config.guardMv d.val).toNat) 8 8 mv }

/-- POINT_MAX of a compute die from its withdrawn points: the highest that is not. -/
def Age.pointMax (a : Age) : Nat := ((List.range 15).reverse.find? (fun p => !(bit a.lost p))).getD 0

/-- A plan takes effect on a die; the regulators move its rails to the new offsets. -/
def State.replan (s : State) (d : DieId) (slack : Nat → Nat) (atReset : Bool) : State :=
  let offs := s.plan d slack
  let cell := s.planCell d slack
  let s1 := s.modAge d (fun a => a.afterPlan d offs cell s.start.hours atReset)
  let s2 := if s.start.coreOn then s1.loadRails else s1
  match computeOf d with
  | none => s2
  | some c => s2.modPwrDie c (fun x => { x with status := setFld x.status 24 4 (vget s2.power.ages d).pointMax })

/-- AGEING_REPLAN (R512): a sweep within a chip reset, otherwise, once 24 hours of operation have passed since the last
re-plan, the slack at the present point scaled to the others. -/
def execAgeingReplan (d : DieId) (s : State) : Res :=
  let a := vget s.power.ages d
  if s.faults.chipPhase.isSome then
    .next { s.replan d (fun p => Config.sweepSlack d.val p s.freeCtr) true with freeCtr := s.freeCtr + 1 }
  else if (s.start.hours - a.planned).toNat < 24 then .next s
  else .next (s.replan d (fun p => Config.scaleSlack d.val (s.pointOf d) p a.slack.toNat) false)

/-- A write of AGE_CFG (ageing), taken with every partition CLOSED (R520). -/
def State.ageCfgOp (s : State) (v : Word32) : State :=
  if s.allClosed then s.modPower (fun x => { x with ageCfg := v &&& 0xFF }) else s.regIgnored 5

/-- AGE_CFG write. -/
def execAgeCfgWrite (by_ : Requester) (v : Word32) (s : State) : Res := s.auxWrite by_ (fun s => s.ageCfgOp v)

end Sys2Proof.Machine
end

