-- ==== Sys2Proof/Machine/Tray.lean ====
section
/-!
DEFINITION. The tray's paths (R538 to R545): the words of the Tray Sideband Bus with their refresh and hold, the
emergency cap through the bus, and the FRU store on the SMBus.
-/
namespace Sys2Proof.Machine

/-! ### The word map (Table 17-10) -/

/-- The core-sourced words, as the registers stand now. -/
def State.coreWords (s : State) : List (Nat × BitVec 16) :=
  let die := fun (d : Fin 4) =>
    let x := (s.pwrDie d).status
    [(0x010 + 2 * d.val, BitVec.ofNat 16 (fld x 28 4 * 4096 + fld x 24 4 * 256 + fld x 16 3)),
     (0x011 + 2 * d.val, bfld x 0 16)]
  [(0x008, bfld s.power.status 48 16), (0x009, bfld s.power.status 32 16)] ++
  ((allFin 4).map die).flatten ++
  (allFin 6).map (fun d => (0x020 + d.val, (s.meterOf d).tj)) ++
  (allFin 16).map (fun n => (0x030 + n.val, bfld (s.stack n).therm 0 16)) ++
  (allFin 16).map (fun n => (0x040 + n.val,
    BitVec.ofNat 16 (bnat (s.stack n).fenced * 32768 + fld (s.stack n).therm 16 2)))

/-- RESET_STATUS as it reads: LEVEL of the reset in progress of the highest level. -/
def Faults.level (f : Faults) : Nat := f.resets.foldl (fun a r => max a r.level.code) 0

/-- Word 0x004. CORE_VALID reads 0 while the core domain is in reset or unpowered. -/
def State.tsbStatus (s : State) : BitVec 16 :=
  BitVec.ofNat 16 (bnat (s.tray.valid && s.coreUp) * 32768 + fld s.start.status 0 3 * 4096 + s.faults.level * 512 +
    bnat (s.route.darkClosed != 0) * 256)

/-- A word as it reads; words not listed read zero. -/
def State.tsbWord (s : State) (w : Nat) : BitVec 16 :=
  let t := s.tray
  match w with
  | 0x000 => bfld idProduct 32 16
  | 0x001 => bfld idProduct 16 16
  | 0x002 => if bit s.route.nodeId 31 then s.nodeId else 0xFFFF
  | 0x003 => t.refresh
  | 0x004 => s.tsbStatus
  | 0x005 => t.alert.zeroExtend 16
  | 0x006 => t.alertEn.zeroExtend 16
  | 0x00A => t.emergW
  | 0x00B => t.emergSrc.zeroExtend 16
  | 0x050 => bfld s.faults.errSeq 0 16
  | 0x051 => vget t.hold 0
  | 0x052 => vget t.hold 1
  | 0x053 => vget t.hold 2
  | 0x054 => s.faults.lastCode
  | 0x070 => t.errs
  | _ => Sparse.get 0 t.words w

/-- The level the package drives on TSB_ALERT_N (R538, R543): low, false, while any enabled ALERT bit is set. -/
def State.tsbAlertN (s : State) : Bool := s.tray.alert &&& s.tray.alertEn == 0

/-- TSB_READ (R539, R542): TSB_D is driven with the word until the cycle is over; word 0x050 copies the words above it into the hold. -/
def execTsbRead (word : BitVec 10) (s : State) : Res :=
  if s.start.aux = false then .next s
  else
    let q := s.faults.errSeq
    .next { s with tray := { s.tray with
      data := some (s.tsbWord word.toNat)
      hold := if word = 0x050 then #v[bfld q 16 16, bfld q 32 16, bfld q 48 16] else s.tray.hold } }

/-- The package drives TSB_D in a read cycle only (R538). -/
def State.tsbRelease (s : State) : State := { s with tray := { s.tray with data := none } }

/-- A captured TSB write (R540): ALERT is W1C, ALERT_EN bit 0 cannot be cleared, EMERG_W is the emergency cap; any other
word is ignored and counted. -/
def State.tsbWriteOp (s : State) (word : BitVec 10) (v : BitVec 16) : State :=
  if word = 0x005 then { s with tray := { s.tray with alert := s.tray.alert &&& ~~~(bfld v 0 6) } }
  else if word = 0x006 then { s with tray := { s.tray with alertEn := bfld v 0 6 ||| 1 } }
  else if word = 0x00A then s.emergWrite v 1
  else { s with tray := { s.tray with errs := satAdd s.tray.errs 0 16 1 } }

/-- TSB_WRITE. -/
def execTsbWrite (word : BitVec 10) (v : BitVec 16) (s : State) : Res :=
  if s.start.aux = false then .next s else .next (s.tsbRelease.tsbWriteOp word v)

/-- EMERG_W_WRITE (R544). -/
def execEmergWWrite (v : BitVec 16) (s : State) : Res :=
  if s.start.aux = false then .next s else .next (s.tsbRelease.tsbWriteOp 0x00A v)

/-- TSB_SHADOW_REFRESH (R541): the management core refreshes the core-sourced words; with the core in reset or
unpowered they hold. -/
def execTsbShadowRefresh (s : State) : Res :=
  if s.mgmt.running && s.start.coreOn && s.faults.chipPhase.isNone then
    .next { s with tray := { s.tray with
      words := s.coreWords.foldl (fun m e => Sparse.set 0 m e.1 e.2) s.tray.words
      refresh := s.tray.refresh + 1, valid := true } }
  else .next s

/-! ### The FRU port (R545) -/

/-- The address the target answers as: 0b1010 and the straps. -/
def smbusTarget : BitVec 7 := (0xA : BitVec 4) ++ Config.fruStraps

/-- Whether the target can serve a transaction: AUX is there, it does not store a write, and the management core, which serves
the store (R536), runs (NACK otherwise: log entry 64). -/
def State.smbusReady (s : State) : Bool := s.tray.smStore.isNone && s.mgmt.running

/-- A transaction the target NACKs. -/
def State.smbusNack (s : State) : State := { s with tray := { s.tray with smNack := true } }

/-- SMBUS_OFFSET_WRITE: sets the address; up to 32 data bytes go to the owner area and are stored within 5 ms; a byte for the
Azonatis area is NACKed. While a write is being stored the target NACKs its address. A wrong PEC NACKs the transaction. -/
def execSmbusOffsetWrite (w : SmbusWrite) (data : List Byte) (s : State) : Res :=
  let sent := [w.target ++ (0 : BitVec 1), bfld w.offset 8 8, bfld w.offset 0 8] ++ data
  if s.start.aux = false ∨ w.target ≠ smbusTarget then .next s
  else if s.smbusReady = false ∨ w.pec.any (fun c => c != pec sent) = true then .next s.smbusNack
  else
    let a : BitVec 13 := bfld w.offset 0 13
    let t := { s.tray with smAddr := a, smNack := false }
    if data.isEmpty then .next { s with tray := t }
    else if a.toNat < 0x1000 then .next { s with tray := { t with smNack := true } }
    else
      let d := (data.take 32).take (0x2000 - a.toNat)
      .next { s with tray := { t with smStore := some (a.toNat, d), smNack := decide (d.length < data.length) } }

/-- SMBUS_READ: up to 256 bytes from the address on, and the PEC where it is clocked; past the end of the store the
specification gives none. -/
def execSmbusRead (r : SmbusRead) (s : State) : Res :=
  if s.start.aux = false ∨ r.target ≠ smbusTarget then .next s
  else if s.smbusReady = false then .next s.smbusNack
  else
    let a := s.tray.smAddr.toNat
    let d := (List.range (min r.count 256)).map (fun i =>
      if a + i < 0x2000 then s.tray.fruByte (a + i) else bfld (Config.freeWord (s.freeCtr + i)) 0 8)
    let e := if r.pec then [pec ((r.target ++ (1 : BitVec 1)) :: d)] else []
    .next { s with freeCtr := s.freeCtr + 256, tray := { s.tray with smData := d ++ e, smNack := false } }

/-- FRU_STORE_COMMIT: the write is stored. -/
def execFruStoreCommit (s : State) : Res :=
  .next (if s.mgmt.running then { s with tray := { s.tray.stored with smStore := none } } else s)

end Sys2Proof.Machine
end

