-- ==== Sys2Proof/Machine/Spdm.lean ====
section
/-!
DEFINITION. The SPDM responder (R546 to R549). The specification names the requests, the versions 1.1 and 1.2, the
capabilities and algorithms, the certificate chain and the measurement blocks; the bytes of the messages are those of the
DMTF standard it names, PRESUMED (log entry 44).
-/
namespace Sys2Proof.Machine

/-- Whether the responder is there: host-visible, with the HCP up (R548). -/
def State.spdmReady (s : State) : Bool := s.hostVisible && s.host.hcpUp

/-- Send a response and keep the exchange for a later signature. -/
def State.spdmAnswer (s : State) (req rsp : List Byte) : State :=
  { s with mgmt := { s.mgmt with spdmReply := rsp, spdmLog := s.mgmt.spdmLog ++ req ++ rsp } }

/-- The version byte of responses: the negotiated one. -/
def Mgmt.spdmByte (m : Mgmt) : Byte := if m.spdmVer = 0x11 then 0x11 else 0x12

/-- An ERROR response; it joins no exchange. -/
def State.spdmError (s : State) (code : Byte) : State :=
  { s with mgmt := { s.mgmt with spdmReply := [s.mgmt.spdmByte, 0x7F, code, 0] } }

/-- Version byte and code of a request. -/
def spdmHead (req : List Byte) (code : Byte) : Bool := decide (4 ≤ req.length) && req.getD 1 0 == code

/-- A request that needs a version fixed by GET_CAPABILITIES (and algorithms) negotiated: answered with what `f` gives. -/
def State.spdmServe (s : State) (req : List Byte) (code : Byte) (alg : Bool) (f : State → State) : State :=
  if !(spdmHead req code) then s.spdmError 0x01
  else if s.mgmt.spdmVer < 2 ∨ (alg && !s.mgmt.spdmAlg) = true then s.spdmError 0x04
  else if (req.getD 0 0).toNat ≠ s.mgmt.spdmVer then s.spdmError 0x41
  else f s

/-- A request reaches the responder: answered, or after the management restart that is under way (R548). One request is in
hand at a time; another does not get in (PRESUMED, log entry 44: the DOE mailbox is busy). -/
def State.spdmTake (s : State) (code : Byte) (req : List Byte) (answer : State → State) : Res :=
  if s.spdmReady = false ∨ s.mgmt.spdmWait.isSome = true then .next s
  else if s.mgmt.running = false then .next { s with mgmt := { s.mgmt with spdmWait := some (code, req) } }
  else .next (answer s)

/-- GET_VERSION: versions 1.1 and 1.2; a new exchange begins. -/
def State.spdmVersion (req : List Byte) (s : State) : State :=
  if !(spdmHead req 0x84) then s.spdmError 0x01
  else
    let rsp : List Byte := [0x10, 0x04, 0, 0, 0, 2, 0x00, 0x11, 0x00, 0x12]
    { s with mgmt := { s.mgmt with spdmVer := 1, spdmAlg := false, spdmLog := [] } }.spdmAnswer req rsp

/-- SPDM_GET_VERSION. -/
def execSpdmGetVersion (req : List Byte) (s : State) : Res := s.spdmTake 0x84 req (State.spdmVersion req)

/-- The capability flags of R548: CERT_CAP, CHAL_CAP and MEAS_CAP with signature. -/
def spdmFlags : Nat := 2 + 4 + 16

/-- GET_CAPABILITIES fixes the version both use. -/
def State.spdmCapabilities (req : List Byte) (s : State) : State :=
  if !(spdmHead req 0xE1) then s.spdmError 0x01
  else if s.mgmt.spdmVer = 0 then s.spdmError 0x04
  else
    let v := req.getD 0 0
    if v ≠ 0x11 ∧ v ≠ 0x12 then s.spdmError 0x41
    else
      let ct := bfld (Config.freeWord s.freeCtr) 0 8
      let body := [v, 0x61, 0, 0, 0, ct, 0, 0] ++ leBytes 4 spdmFlags
      let rsp := if v = 0x12 then body ++ leBytes 4 4096 ++ leBytes 4 4096 else body
      { s with freeCtr := s.freeCtr + 1, mgmt := { s.mgmt with spdmVer := v.toNat } }.spdmAnswer req rsp

/-- SPDM_GET_CAPABILITIES. -/
def execSpdmGetCapabilities (req : List Byte) (s : State) : Res := s.spdmTake 0xE1 req (State.spdmCapabilities req)

/-- NEGOTIATE_ALGORITHMS: ECDSA P-384, SHA-384 and the DMTF measurement specification; nothing in common is an error. -/
def State.spdmAlgorithms (req : List Byte) (s : State) : State :=
  s.spdmServe req 0xE3 false (fun s =>
    if bit (BitVec.ofNat 32 (field req 8 4)) 7 && bit (BitVec.ofNat 32 (field req 12 4)) 1 then
      let rsp := [s.mgmt.spdmByte, 0x63, 0, 0] ++ leBytes 2 36 ++ [1, 0] ++ leBytes 4 4 ++ leBytes 4 0x80 ++ leBytes 4 2 ++
        leBytes 12 0 ++ [0, 0, 0, 0]
      { s with mgmt := { s.mgmt with spdmAlg := true } }.spdmAnswer req rsp
    else s.spdmError 0x01)

/-- The certificate chain of slot 0 as it is read: length, root digest and the DER chain. -/
def spdmChain : List Byte :=
  leBytes 2 (52 + certChain.length) ++ leBytes 2 0 ++ leBytes 48 azonatisAnchor.toNat ++ certChain

/-- The digest of the chain. -/
def chainDigest : List Byte := leBytes 48 (Config.sha384 spdmChain).toNat

/-- GET_DIGESTS: slot 0 only. -/
def State.spdmDigests (req : List Byte) (s : State) : State :=
  s.spdmServe req 0x81 true (fun s => s.spdmAnswer req ([s.mgmt.spdmByte, 0x01, 0, 1] ++ chainDigest))

/-- GET_CERTIFICATE: a portion of slot 0's chain. -/
def State.spdmCertificate (req : List Byte) (s : State) : State :=
  s.spdmServe req 0x82 true (fun s =>
    let off := field req 4 2
    let n := field req 6 2
    if req.getD 2 0 ≠ 0 ∨ spdmChain.length ≤ off then s.spdmError 0x01
    else
      let part := (spdmChain.drop off).take n
      s.spdmAnswer req ([s.mgmt.spdmByte, 0x02, 0, 0] ++ leBytes 2 part.length ++
        leBytes 2 (spdmChain.length - off - part.length) ++ part))

/-- The measurement blocks of Table 17-12. -/
def State.measurement (s : State) (i : Nat) : List Byte :=
  let m := s.mgmt
  let digest := fun (d : BitVec 384) => leBytes 48 d.toNat
  match i with
  | 1 | 3 => digest (Config.measurement i)
  | 2 => digest (Config.fwDigest m.active.val (vget m.banks m.active).image)
  | 4 => leBytes 4 (vget m.banks m.active).svn.toNat ++ leBytes 4 m.svnMin.toNat
  | 5 => leBytes 8 s.test.stDebug.toNat
  | 6 => digest (Config.sha384 (leBytes 1 (bnat m.azonatis) ++ (m.anchors.toList.map (fun a =>
      match a with
      | some d => leBytes 1 1 ++ leBytes 48 d.toNat
      | none => leBytes 49 0)).flatten))
  | _ => leBytes 8 idProduct.toNat ++ leBytes 8 idSerial.toNat

/-- One block of the measurement record: index, specification, size, type and value. -/
def State.measurementBlock (s : State) (i : Nat) : List Byte :=
  let v := s.measurement i
  let raw := if i = 4 ∨ i = 5 ∨ i = 7 then 0x80 else 0
  leBytes 1 i ++ leBytes 1 1 ++ leBytes 2 (v.length + 3) ++ leBytes 1 (raw + i) ++ leBytes 2 v.length ++ v

/-- All blocks. -/
def State.measurements (s : State) : List Byte := ((List.range 7).map (fun i => s.measurementBlock (i + 1))).flatten

/-- A nonce of a response. -/
def State.spdmNonce (s : State) : List Byte := leBytes 32 (Config.nonce s.freeCtr).toNat

/-- A response that is signed: the signature covers the exchange so far (R548); the exchange then begins anew. -/
def State.spdmSigned (s : State) (req body : List Byte) : State :=
  let sig := Config.identitySign (Config.sha384 (s.mgmt.spdmLog ++ req ++ body))
  { s with freeCtr := s.freeCtr + 1, mgmt := { s.mgmt with spdmReply := body ++ sig, spdmLog := [] } }

/-- CHALLENGE: chain digest, nonce, digest of the measurements where asked for, signature. -/
def State.spdmProve (req : List Byte) (s : State) : State :=
  s.spdmServe req 0x83 true (fun s =>
    if req.getD 2 0 ≠ 0 then s.spdmError 0x01
    else
      let summary := if req.getD 3 0 = 0 then [] else leBytes 48 (Config.sha384 s.measurements).toNat
      s.spdmSigned req ([s.mgmt.spdmByte, 0x03, 0, 1] ++ chainDigest ++ s.spdmNonce ++ summary ++ leBytes 2 0))

/-- GET_MEASUREMENTS: the number of blocks, one block, or all, signed where asked for (R549). -/
def State.spdmMeasure (req : List Byte) (s : State) : State :=
  s.spdmServe req 0xE0 true (fun s =>
    let op := (req.getD 3 0).toNat
    let blocks := if op = 0xFF then s.measurements else if 1 ≤ op ∧ op ≤ 7 then s.measurementBlock op else []
    let n := if op = 0xFF then 7 else if 1 ≤ op ∧ op ≤ 7 then 1 else 0
    if 7 < op ∧ op ≠ 0xFF then s.spdmError 0x01
    else
      let body := [s.mgmt.spdmByte, 0x60, if op = 0 then 7 else 0, 0] ++ leBytes 1 n ++ leBytes 3 blocks.length ++ blocks ++
        s.spdmNonce ++ leBytes 2 0
      if bit (req.getD 2 0) 0 then s.spdmSigned req body
      else { s with freeCtr := s.freeCtr + 1 }.spdmAnswer req body)

/-- SPDM_NEGOTIATE_ALGORITHMS. -/
def execSpdmNegotiateAlgorithms (req : List Byte) (s : State) : Res := s.spdmTake 0xE3 req (State.spdmAlgorithms req)
/-- SPDM_GET_DIGESTS. -/
def execSpdmGetDigests (req : List Byte) (s : State) : Res := s.spdmTake 0x81 req (State.spdmDigests req)
/-- SPDM_GET_CERTIFICATE. -/
def execSpdmGetCertificate (req : List Byte) (s : State) : Res := s.spdmTake 0x82 req (State.spdmCertificate req)
/-- SPDM_CHALLENGE. -/
def execSpdmChallenge (req : List Byte) (s : State) : Res := s.spdmTake 0x83 req (State.spdmProve req)
/-- SPDM_GET_MEASUREMENTS. -/
def execSpdmGetMeasurements (req : List Byte) (s : State) : Res := s.spdmTake 0xE0 req (State.spdmMeasure req)

/-- The request that waited for a management restart is answered (R548). -/
def State.spdmResume (s : State) : State :=
  match s.mgmt.spdmWait with
  | none => s
  | some (code, req) =>
    let t := { s with mgmt := { s.mgmt with spdmWait := none } }
    match code.toNat with
    | 0x84 => t.spdmVersion req
    | 0xE1 => t.spdmCapabilities req
    | 0xE3 => t.spdmAlgorithms req
    | 0x81 => t.spdmDigests req
    | 0x82 => t.spdmCertificate req
    | 0x83 => t.spdmProve req
    | _ => t.spdmMeasure req

/-- MGMT_RESTART (R485, R537): the core runs from its ROM again, a request it had taken is answered MGMT_RESTARTED, and
records it owes the ring are delivered; an SPDM request that arrived meanwhile is answered (R548). -/
def execMgmtRestart (s : State) : Res :=
  if s.start.aux = false ∨ s.mgmt.running = true then .next s
  else
    match s.mgmt.bootBank with
    | none => .next s
    | some i =>
      let s1 := { s with
        mgmt := { s.mgmt with
          running := true, active := i, nextBank := none, spdmVer := 0, spdmAlg := false, spdmLog := [], spdmReply := [] }
        host := { s.host with answer := if s.host.busy then some (s.host.message 5 []) else s.host.answer } }
      let s2 := s1.alertSet 5
      .next (s2.report { s2.errRec 5 (sysStatus 0x47) .event with engine := 0x0D }).ringDeliver.spdmResume

end Sys2Proof.Machine
end

