-- ==== Sys2Proof/Machine/Reset.lean ====
section
/-!
DEFINITION. Start-up, watchdogs and the reset ladder (R475 to R486, R491, R492, R551, R552, R555, R589, R593 to R595):
what each level of reset leaves, how a reset is started, completed or taken further, and the phases of a start.
-/
namespace Sys2Proof.Machine

/-! ### Pending resets -/

/-- Change the fault registers. -/
def State.modFaults (s : State) (f : Faults → Faults) : State := { s with faults := f s.faults }

/-- The pending reset of a level that satisfies a test and has not yet been carried out. -/
def State.pendingReset (s : State) (lvl : ResetLevel) (f : Reset → Bool) : Option Reset :=
  s.faults.resets.find? (fun r => r.level == lvl && !r.done && f r)

/-- Mark a reset as carried out; RESET_DONE completes it. -/
def State.resetDone (s : State) (r : Reset) : State :=
  s.modFaults (fun x => { x with resets := x.resets.map (fun (q : Reset) => if q = r then { q with done := true } else q) })

/-! ### Context and engine resets (R479) -/

/-- Cancel the transfers of a slot (R479 step 2): nothing further is issued, and their completion reports nothing. -/
def State.cancelXfers (s : State) (a : At) : State :=
  (allFin 8).foldl (fun t i =>
    match t.xfer a.cell i with
    | none => t
    | some r =>
      if r.ins.tag.slot = a.slot ∧ r.discarded = false then
        let n := t.unsent a.cell i
        (t.dropXfer a.cell i).modXfer a.cell i (fun r => { r with
          status := if r.status = 0 then 0x0A else r.status, discarded := true, outstanding := r.outstanding - n }.settle)
      else t) s

/-- Remove the cl instructions of a slot that no engine has counted; what was counted stays with its instance and will
report nothing (R479 step 2). -/
def State.cancelCl (s : State) (a : At) : State :=
  let mine := fun (x : ClArrival) => x.cell == a.cell && x.ins.tag.slot == a.slot
  let waiting := (s.coll.inbox.toList.flatten.filter mine).map (fun x => x.ins.tag.seq)
  let s1 := { s with coll := { s.coll with inbox := s.coll.inbox.map (fun (l : List ClArrival) => l.filter (fun x => !(mine x))) } }
  s1.modCell a.cell (fun x => x.modEng (fun e => { e with
    clPending := (e.clPending.filter (fun (m : SlotId × Nat × Bool) => !(m.1 == a.slot && waiting.contains m.2.1))).map (fun (m : SlotId × Nat × Bool) =>
      if m.1 = a.slot then (m.1, m.2.1, true) else m) }))

/-- Stop the plate and the vector engine on a slot's instructions. Row-cycles of a context that was not running stay in
the window and are still written. -/
def Engines.cancel (e : Engines) (i : SlotId) (running : Bool) : Engines :=
  let other := fun (t : Tag) => t.slot != i
  { e.dropQueued i with
    plateRun := e.plateRun.filter (fun m => other m.ins.tag)
    tiles := e.tiles.filter (fun t => t.slot != i)
    inflight := if running then e.inflight.filter (fun m => m.slot != i) else e.inflight
    vecRun := match e.vecRun with | some r => if other r.ins.tag then some r else none | none => none
    optRun := match e.optRun with | some r => if other r.ins.tag then some r else none | none => none
    results := e.results.filter (fun r => r.slot != i)
    restore := if running then false else e.restore }

/-- What a reset leaves of the slot itself (R479 steps 4 and 5, R216, R152). -/
def Slot.afterReset (x : Slot) (cause : BitVec 4) : Slot :=
  { x.emptied cause with ctxFault := 0, grain := { x.grain with seeded := false, seqSlot := 0 } }

/-- The signals on their way but the completions of a slot's instructions, which are discarded (R479 step 3). -/
def Cell.othersSignals (x : Cell) (i : SlotId) : List Signal := x.signals.filter (fun g => g.owner != some i)

/-- The cell after a context reset of a slot. -/
def Cell.resetSlot (x : Cell) (i : SlotId) (cause : BitVec 4) : Cell :=
  let running := x.running == some i
  let y := ((x.modEng (·.cancel i running)).modSlot i (·.afterReset cause)).modRegs (fun r => { r with plateDbg := 0 })
  if running then
    { (y.clearVat.modRegs (fun r => { r.resetActive with stall := 0 })) with
      running := none, switch := .none, grace := false, signals := x.othersSignals i }
  else if i = 0 then { y with grace := false, signals := x.othersSignals i } else { y with signals := x.othersSignals i }

/-- A context reset (R479): work cancelled, latches abandoned, the slot EMPTY; a foreground context's step latches are
abandoned and its partition moves to ABORTED unless CLOSED. -/
def State.resetContext (s : State) (a : At) (cause : BitVec 4) : State :=
  if (s.slot a).state = .empty then s
  else
    let s1 := (((s.cancelXfers a).cancelCl a).modCell a.cell (fun x => x.resetSlot a.slot cause)).abandonLatches a none
    match s1.partOf a.cell with
    | some p => if a.slot = 0 then (s1.abandonStep p).abort p 3 else s1
    | none => s1

/-- CONTEXT_RESET: carries out a context reset that was started. -/
def execContextReset (at_ : At) (s : State) : Res :=
  match s.pendingReset .context (fun r => r.cell == at_.cell && r.slot == at_.slot) with
  | none => .next s
  | some r => .next ((s.resetContext at_ (if r.cause = 5 then 3 else 2)).resetDone r)

/-- What an engine reset leaves of a cell beside its empty slots: the engine idle, the vat cleared (R118), debug mode
ended (R132). -/
def Cell.resetEngine (x : Cell) (e : BitVec 4) : Cell :=
  let y := x.clearVat.modRegs (fun r => { r with plateDbg := 0 })
  match e.toNat with
  | 1 => y.modEng (fun g => { g with plateQ := [], plateRun := [], tiles := [], inflight := [] })
  | 2 => y.modEng (fun g => { g with vecQ := [], vecRun := none, optRun := none, results := [] })
  | 3 => y.modEng (fun g => { g with moverQ := [], xfers := Vector.replicate 8 none })
  | _ => { y with running := none, switch := .none }

/-- Both slots of a cell and an engine (R478). -/
def State.resetCellEngine (s : State) (c : CellId) (e : BitVec 4) : State :=
  let s1 := (s.resetContext ⟨c, 0⟩ 2).resetContext ⟨c, 1⟩ 2
  let s2 := if e = 3 then (allFin 8).foldl (fun t i => t.dropXfer c i) s1 else s1
  s2.modCell c (fun x => x.resetEngine e)

/-- ENGINE_RESET. -/
def execEngineReset (c : CellId) (e : BitVec 4) (s : State) : Res :=
  match s.pendingReset .engine (fun r => r.cell == c && r.eng == e) with
  | none => .next s
  | some r => .next ((s.resetCellEngine c e).resetDone r)

/-! ### Partition reset (R270, R589) -/

/-- A cell of a partition that is reset: both slots, its engines idle (Table 15-6), every latch, PLATE_CFG, EPI, the vat. -/
def State.resetPartCell (s : State) (c : CellId) : State :=
  let s1 := (s.resetContext ⟨c, 0⟩ 4).resetContext ⟨c, 1⟩ 4
  let s2 := (allFin 8).foldl (fun t i => t.dropXfer c i) s1
  s2.modCell c (fun x =>
    let y := (([1, 2, 3, 0] : List (BitVec 4)).foldl Cell.resetEngine x).modRegs (·.resetActive)
    { y with
      latches := Vector.replicate 64 Latch.reset, stopBits := 0, frozen := false
      slots := y.slots.map (fun (z : Slot) => { z with
        ctxFault := 0, ctxCtl := 0, wakeTime := 0, grain := { z.grain with seeded := false, seqSlot := 0 } }) })

/-- The sheet of a partition that is reset (R436, Table 13-5): a live one fails, the registers return to reset but
STATE and RESULT. -/
def State.resetSheet (s : State) (p : PartId) : State :=
  if (s.sheet p).live then
    (s.sheetFail p 5).modSheet p (fun x => { Sheet.reset with status := x.status &&& 0xEF000000 })
  else s.modSheet p (fun x => { Sheet.reset with status := x.status &&& 0xEF000000 })

/-- A descriptor returned to IDLE. -/
def Colld.idle (x : Colld) : Colld :=
  { x with state := .idle, tagOut := false, failed := 0, now := none, arrived := [], next := [], early := [], side := none,
           records := [], parts := [] }

/-- STEP[p] after a partition reset (R254, R462, R589): phase CLOSED, the step latches armed; a refix asked for stays. -/
def Step.afterReset (t : Step) : Step :=
  { t with status := 0, verdict := 0, armed := true, stage := .idle, stopWord := none, delivered := none, fade := false,
           poisonFound := false }

/-- A partition reset. -/
def State.resetPartition (s : State) (p : PartId) : State :=
  let s0 := (s.undefinePages p).modStep p (fun t => { t with status := 0, armed := false })
  let s1 := (s0.cellsOf p).foldl State.resetPartCell s0
  let mine := s1.coll.descs.filter (fun e => e.2.desc.part == p)
  let s2 := mine.foldl (fun t e => t.modColld e.1 Colld.idle) s1
  let gone := fun (o : OutFrame) => match o.use with | .coll i _ => mine.any (fun e => e.1 == i.val) | _ => false
  let s3 := (s2.cellsOf p).foldl (fun t c => t.modCell c (fun x => x.modEng (fun e => { e with clPending := [] }))) s2
  let s4 := { s3 with fabs := s3.fabs.map (fun (f : Fab) => { f with outbox := f.outbox.filter (fun o => !(gone o)) }) }
  let s5 := s4.modPart p (fun x => { x with
    stack := Vector.replicate 16 0x0000100000000000, stackShadow := Vector.replicate 16 0x0000100000000000
    tokens := Vector.replicate 16 0, collSide := 0, verdictSeen := false })
  let s5 := { s5 with mem := { s5.mem with prepaid := s5.mem.prepaid.filter (fun b => b.1 != p) } }
  ((s5.modStep p Step.afterReset).modTwin p (fun t => { t with paused := true, held := [] })).resetSheet p

/-- PARTITION_RESET. -/
def execPartitionReset (p : PartId) (s : State) : Res :=
  match s.pendingReset .partition (fun r => r.part == p) with
  | none => .next s
  | some r => .next ((s.resetPartition p).resetDone r)

/-! ### Chip reset (R481, R555, R589) -/

/-- A stack at a chip reset: requests for map-out apply, and contents are lost where the active channels change or the
stack is fenced (R285, R286, R310); the page attributes are cleared (R288); trained parameters are kept (R312). -/
def Stack.atChipReset (x : Stack) : Stack :=
  let out := x.mappedOut ||| x.mapoutReq
  let changed := out != x.mappedOut
  { Stack.reset with
    mappedOut := out, relocated := x.relocated || changed || x.fenced, mapoutReq := x.mapoutReq &&& ~~~out
    therm := if x.fenced then x.therm &&& 0xFFFF0000 else 0, lost := x.lost || changed || x.fenced
    channels := x.channels.map (fun (c : Channel) => { Channel.reset with
      committed := c.committed, failed := c.failed, broken := c.broken, params := c.params }) }

/-- What a command that awaits its switch time leaves for the training of a chip reset: a committed steer or clock, a
width (R325). -/
def XdDir.settled (x : XdDir) : XdDir :=
  match x.pending with
  | some (.steer g w, _) =>
    if (if w = 0x7C then bit x.primBad g.toNat else bit x.spareUsed g.toNat) then x.steer g w else x
  | some (.half k, _) => { x with width := if k = 0 then 1 else 2 }
  | _ => x

/-- A join at a chip reset: forced states go, trained and repaired states stay, with those that awaited their switch time
(R325, R337). -/
def Xd.atChipReset (x : Xd) : Xd :=
  { Xd.reset with
    disabled := x.disabled || x.dirs.toList.any (fun d => d.pending.map (·.1) == some .disable)
    dirs := x.dirs.map (fun (y : XdDir) =>
      let d := y.settled
      { XdDir.reset with
        spareUsed := d.spareUsed, failed := d.failed, width := d.width, altClk := d.altClk &&& d.primBad,
        primBad := d.primBad, altBad := d.altBad, params := d.params
        steered := d.steered.filter (fun e => bit d.spareUsed e.1) }) }

/-- A port at a chip reset: LANES_FAILED, its lanes and what its island holds stay; it is down until it trains. -/
def Port.atChipReset (x : Port) : Port :=
  { (if bit x.status 25 then x else { x.restart with reserved := 0, waits := [] }) with
    status := Port.reset.status ||| (x.status &&& 0x020FFC00), ctl := Port.reset.ctl, peer := 0, txFrames := 0,
    rxFrames := 0, replays := 0, offset := 0, depthSeen := 0xFF }

/-- Routing and time at a chip reset: what lies in the AUX island stays. A join of the register ring that failed stays
disabled, which no rule says (DESIGN CHOICE, log entry 59). -/
def Routing.atChipReset (x : Routing) : Routing :=
  Routing.root { Routing.reset with
    nodeId := x.nodeId, timeCtl := x.timeCtl, darkClosed := x.darkClosed, darkReq := x.darkReq, reqHigh := x.reqHigh,
    darkCnt := x.darkCnt, firstLock := x.firstLock, omitTick := x.omitTick, slewAt := x.slewAt, anyOpen := x.anyOpen,
    ringJoins := x.ringJoins, fullTrained := x.fullTrained }

/-- Start-up status at the assertion of a chip reset (R555). -/
def Startup.atChipReset (x : Startup) : Startup := { x with status := 0, held := 0 }

/-- Every sheet that is ARMED or STREAMING fails with SHEET_ABORT, its trailer written, as a chip reset begins (R433,
Table 13-5). -/
def State.sheetsAbort (s : State) : State :=
  (allFin 4).foldl (fun t p => if (t.sheet p).live then t.sheetFail p 5 else t) { s with hsp := { s.hsp with out := [] } }

/-- What a sheet reads after a chip reset (Table 13-5). -/
def Sheet.atChipReset (x : Sheet) : Sheet := if x.live then { Sheet.reset with status := 0x85000000 } else Sheet.reset

/-- The manifest of a FILLING buffer reads EMPTY once a chip reset has made the buffer so (R441). -/
def State.emptyFilling (s : State) : State :=
  (allFin 4).foldl (fun t p => (allFin 2).foldl (fun t b =>
    if (vget (s.twin p).buffers b).state = 1 then t.dramWrite (.twin p) ((s.twin p).own.manifest b.val + 5) [0] else t) t) s

/-- Every core domain reset; the AUX island, the records made and what is kept for training stay. END_CAUSE is
cleared with the other fields of the slots (DESIGN CHOICE, log entry 64). -/
def State.coreReset (s0 : State) : State :=
  let s := s0.sheetsAbort
  let u := s.endUnlock
  { State.reset with
    pending := s.pending, freeCtr := s.freeCtr, time := s.time, copies := s.copies
    cells := Vector.replicate 64 Cell.reset
    stackSet := s.stackSet.map Stack.atChipReset
    mem := { MemCtl.reset with dram := s.emptyFilling.mem.dram }
    xds := s.xds.map Xd.atChipReset
    ports := s.ports.map Port.atChipReset
    route := s.route.atChipReset
    sheets := s0.sheets.map Sheet.atChipReset
    hsp := { Hsp.reset with out := s.hsp.out }
    faults := { s.faults with progress := [], sampled := [] }
    power := { Power.reset with
      ages := s.power.ages, ageCfg := s.power.ageCfg, rails := s.power.rails
      dies := Vector.ofFn (fun (d : Fin 4) => { PwrDie.reset with
        status := setFld PwrDie.reset.status 24 4 (vget s.power.ages (dieOfCompute d)).pointMax }) }
    host := { HostIf.reset with ringNext := s.host.ringNext, lastRead := s.host.lastRead }
    mgmt := { s.mgmt with nonce := none, spdmWait := none }
    tray := { s.tray with valid := false }
    test := { SelfTest.reset with
      stDebug := u.test.stDebug, debugEnd := s.test.debugEnd, tapIr := s.test.tapIr, tapDr := s.test.tapDr
      boundary := s.test.boundary }
    start := s.start.atChipReset }

/-- CHIP_RESET: a chip reset that was started is asserted; its phases follow. -/
def execChipReset (s : State) : Res :=
  match s.faults.chipPhase, s.pendingReset .chip (fun _ => true) with
  | none, some _ => .next (s.coreReset.modFaults (fun x => { x with chipPhase := some 0 }))
  | _, _ => .next s

/-- Set STARTUP_STATUS.PHASE; vector 2 follows a change (Table 17-6). -/
def State.setPhaseNo (s : State) (n : Nat) : State :=
  let t := { s with start := { s.start with status := setFld s.start.status 0 3 n } }
  if fld s.start.status 0 3 = n then t else t.raiseVector 2

/-- Whether every stack is trained or fenced. -/
def State.memReady (s : State) : Bool := s.stackSet.toList.all (fun x => x.trained || x.fenced)

/-- Every join is trained, its directions with the parameters `f` gives them (R325): values the specification leaves open. -/
def State.trainWith (s : State) (f : XdDir → Word64 → Word64) : State :=
  { s with
    freeCtr := s.freeCtr + 16
    xds := Vector.ofFn (fun (j : JoinId) => { s.xd j with
      trained := true
      dirs := Vector.ofFn (fun (d : Fin 2) => { (s.xd j).dir d with
        params := some (f ((s.xd j).dir d) (Config.freeWord (s.freeCtr + 2 * j.val + d.val))) }) }) }

/-- Every join is trained from the parameters kept in the AUX island (R325). -/
def State.trainJoins (s : State) : State := s.trainWith (fun x w => x.params.getD w)

/-- Dies that fail a check are held in reset (R481, R546). -/
def State.holdDies (s : State) (good : DieId → Bool) : State :=
  { s with
    freeCtr := s.freeCtr + 1
    start := { s.start with held := s.start.held ||| BitVec.ofNat 6 (ofBits ((allFin 6).map (fun d => !(good d)))) } }

/-- The dies boot, and those whose report does not verify are held (R546). -/
def State.dieReports (s : State) : State := s.holdDies (fun d => dieGood d s.freeCtr)

/-- Logic self-test; the dies that fail are held (R481). -/
def State.logicTest (s : State) : State := s.holdDies (fun d => Config.logicGood d.val s.freeCtr)

/-- CHIP_RESET_PHASE_END (Table 15-7): the end of the rail phase means that 12 V has been in its limits (R593); the dies'
reports and logic self-test may hold dies in reset; memory training ends with every stack trained or fenced; with the last
phase the package is host-visible. While a die is held the reset does not complete, and it escalates at its bound (R483). -/
def execChipResetPhaseEnd (s : State) : Res :=
  match s.faults.chipPhase with
  | none => .next s
  | some k =>
    let on := fun (t : State) => t.modFaults (fun x => { x with chipPhase := some (k + 1) })
    match k.val with
    | 0 =>
      let s := if s.route.darkClosed = 0x3F then s else s.closeDark
      .next (on { s with start := { s.start with coreOn := false }, power := { s.power with rails := Rails.off } })
    | 1 => .next (on { s with start := { s.start with coreOn := true, v12 := true } }.loadRails)
    | 2 => .next (on s.dieReports)
    | 3 => .next (on s.logicTest)
    | 4 => .next (on s.trainJoins)
    | 5 => if s.memReady then .next (on s) else .next s
    | 7 =>
      if s.start.held ≠ 0 then .next s
      else
      let s1 := (s.modFaults (fun x => { x with chipPhase := none })).setPhaseNo 6
      match s1.pendingReset .chip (fun _ => true) with
      | none => .next s1
      | some r => .next (s1.resetDone r)
    | _ => .next (on s)

/-! ### Starting and completing resets (R478, R482 to R484, R491, R492) -/

/-- RESET_CMD at context level. -/
def execResetCmdContext (by_ : Requester) (at_ : At) (s : State) : Res :=
  s.auxWrite by_ (fun s => s.startReset .context at_.cell at_.slot 0 0 1)

/-- RESET_CMD at engine level; an ENGINE above 0x3 is ignored. -/
def State.resetCmdEngineOp (s : State) (c : CellId) (e : BitVec 4) : State :=
  if 3 < e.toNat then s.regIgnored 5 else s.startReset .engine c 0 e 0 1

/-- RESET_CMD at engine level. -/
def execResetCmdEngine (by_ : Requester) (c : CellId) (e : BitVec 4) (s : State) : Res :=
  s.auxWrite by_ (fun s => s.resetCmdEngineOp c e)

/-- RESET_CMD at partition level. -/
def execResetCmdPartition (by_ : Requester) (p : PartId) (s : State) : Res :=
  s.auxWrite by_ (fun s => s.startReset .partition 0 0 0 p 1)

/-- RESET_CMD at chip level. -/
def execResetCmdChip (by_ : Requester) (s : State) : Res := s.auxWrite by_ (fun s => s.startReset .chip 0 0 0 0 1)

/-- RESET_CMD at power cycle level. -/
def execResetCmdPowerCycle (by_ : Requester) (s : State) : Res :=
  s.auxWrite by_ (fun s => s.startReset .powerCycle 0 0 0 0 1)

/-- A write of RESET_CMD: LEVEL 0 has no effect, reserved levels are ignored with REG_WRITE_IGNORED. -/
def State.resetCmdOp (s : State) (v : Word32) : State :=
  let c : CellId := (bfld v 19 6).toFin
  match fld v 29 3 with
  | 1 => s.startReset .context c (bfld v 18 1).toFin 0 0 1
  | 2 => s.resetCmdEngineOp c (bfld v 25 4)
  | 3 => s.startReset .partition 0 0 0 (bfld v 16 2).toFin 1
  | 4 => s.startReset .chip 0 0 0 0 1
  | 5 => s.startReset .powerCycle 0 0 0 0 1
  | _ => s.regIgnored 5

/-- POWER_CYCLE_REQ (R482): a power cycle that was started is asked of the tray, which carries it out. -/
def execPowerCycleReq (s : State) : Res :=
  match s.pendingReset .powerCycle (fun _ => true) with
  | none => .next s
  | some _ => .next s.powerCycleAsk

/-- The record of a reset: severity of its level, and the cell, context or partition concerned. -/
def State.resetRec (s : State) (r : Reset) (code : Byte) (lvl : ResetLevel) (detail : Nat) : ErrRec :=
  let sev : Sev := match lvl with
    | .context => .context | .engine => .engine | .partition => .partition | .chip => .chip | .powerCycle => .power
  let base := { s.errRec 5 (sysStatus code) sev with engine := 0x0D, detail := BitVec.ofNat 32 detail }
  match r.level with
  | .context => base.withCtx s ⟨r.cell, r.slot⟩
  | .engine => base.withCell s r.cell
  | .partition => base.withPart s r.part
  | _ => base

/-- RESET_DONE (R478, R492): the i-th reset has been carried out and completes within its bound; a power cycle with the cold
start complete. It is counted with the resets that merged into it or that it took over. -/
def execResetDone (i : Nat) (s : State) : Res :=
  match s.faults.resets[i]? with
  | none => .next s
  | some r =>
    if r.done = false ∨ (r.level = .powerCycle ∧ fld s.start.status 0 3 ≠ 6) then .next s
    else
      let rest := s.faults.resets.eraseIdx i
      let lvl := rest.foldl (fun a q => max a q.level.code) 0
      let st := setFld (setFld (setBit s.faults.resetStat 21 (r.cause == 8)) 22 3 r.level.code) 29 3 lvl
      let n : Fin 5 := ⟨(r.level.code - 1) % 5, by omega⟩
      let s1 := s.modFaults (fun x => { x with resets := rest, resetStat := st, resetCnt := vmod x.resetCnt n (· + BitVec.ofNat 64 (1 + r.merged)) })
      .next (s1.report (s1.resetRec r 0x42 r.level ((s.time - r.start).toNat / 1000)))

/-- The engine of a cell that still holds started work of a slot, not merely an instruction queued: plate, vector, mover,
else the control core. -/
def Engines.stuck (e : Engines) (i : SlotId) : BitVec 4 :=
  let f := { e with plateQ := [], vecQ := [], moverQ := [] }
  if f.plateBusy i then 1 else if f.vecBusy i then 2 else if f.moverBusy i then 3 else 0

/-- RESET_ESCALATION (R483): the i-th reset has not completed at its bound; the next level over its scope starts. -/
def execResetEscalation (i : Nat) (s : State) : Res :=
  match s.faults.resets[i]? with
  | none => .next s
  | some r =>
    let go := fun (lvl : ResetLevel) (e : BitVec 4) (p : PartId) =>
      let s1 := s.report { s.resetRec r 0x43 lvl r.level.code with action := BitVec.ofNat 8 (lvl.code + 1) }
      .next (s1.startReset lvl r.cell r.slot e p 8)
    match r.level with
    | .context => go .engine ((s.cell r.cell).eng.stuck r.slot) 0
    | .engine =>
      match s.partOf r.cell with
      | some p => go .partition 0 p
      | none => go .chip 0 0
    | .partition => go .chip 0 0
    | .chip => go .powerCycle 0 0
    | .powerCycle => .next s

/-! ### Watchdogs (R475 to R477) -/

/-- WDOG_US in nanoseconds. -/
def Faults.wdogNs (f : Faults) : Nat := 1000 * min (max (fld f.faultCfg 5 11) 100) 1500

/-- A watched engine. -/
inductive Watched where
  | cell (c : CellId) (e : Fin 6)
  | latches (c : CellId)
  | stack (n : StackId)
  | join (j : JoinId)
  | router (f : FabId)
  | coll (f : FabId)
  | twin (p : PartId)
  | sheet (p : PartId)
  | hsp
  | hcp
  | mgmt
  | meter
  deriving DecidableEq, Repr

/-- Key of a watched engine. -/
def Watched.key (w : Watched) : Nat :=
  match w with
  | .cell c e => 8 * c.val + e.val
  | .latches c => 8 * c.val + 6
  | .stack n => 512 + n.val
  | .join j => 528 + j.val
  | .router f => 536 + f.val
  | .coll f => 538 + f.val
  | .twin p => 540 + p.val
  | .sheet p => 544 + p.val
  | .hsp => 548
  | .hcp => 549
  | .mgmt => 550
  | .meter => 551

/-- ENGINE code and die of a watched engine (Table 15-3). -/
def Watched.place (w : Watched) : Byte × DieId :=
  match w with
  | .cell c e => (BitVec.ofNat 8 e.val, dieOf c)
  | .latches c => (0x0F, dieOf c)
  | .stack n => (0x06, stackDie n)
  | .join j => (0x07, (joinDies j).1)
  | .router f => (0x08, fabDie f)
  | .coll f => (0x09, fabDie f)
  | .twin _ => (0x0A, 4)
  | .sheet _ => (0x0B, 4)
  | .hsp | .hcp => (0x0C, 4)
  | .mgmt => (0x0D, 5)
  | .meter => (0x0E, 5)

/-- Every watched engine. An access of the register ring is complete with its command, so that engine never has one
outstanding. -/
def allWatched : List Watched :=
  ((allFin 64).map (fun c => Watched.latches c :: (allFin 6).map (Watched.cell c))).flatten ++ (allFin 16).map .stack ++ (allFin 8).map .join ++
  (allFin 2).map .router ++ (allFin 2).map .coll ++ (allFin 4).map .twin ++ (allFin 4).map .sheet ++
  [.hsp, .hcp, .mgmt, .meter]

/-- Whether the mover has work of its own: a transfer between cell stores, one to be completed, or a queued one it may
start. Others await frames, stacks or the host, which are watched themselves. -/
def Cell.moverWorks (x : Cell) (s : State) (c : CellId) : Bool :=
  (x.eng.xfers.toList.any (fun r =>
    match r with
    | some t => t.finished || (match t.ins.sides s c 0 with | (.store _ _, .store _ _) => true | _ => false)
    | none => false)) ||
  (x.eng.xfers.toList.any (·.isNone) && !(x.dmReady s c).isEmpty)

/-- Whether a cell engine has work that is not one of the waits of R476. -/
def Cell.works (x : Cell) (s : State) (c : CellId) (e : Fin 6) (held : Bool) : Bool :=
  match e.val with
  | 0 => match x.running with
    | some i => (x.slot i).wait == .none && x.regs.stall == 0
    | none => false
  | 1 => !x.eng.plateRun.isEmpty || !x.eng.inflight.isEmpty
  | 2 => x.eng.vecRun.isSome || (x.eng.optRun.isSome && !held) || (x.vecNext c s.isLocal).isSome
  | 3 => x.moverWorks s c
  | 4 => !x.eng.clQ.isEmpty
  | _ => !x.eng.traceQ.isEmpty

/-- A count that moves whenever an engine of a cell makes progress. -/
def Cell.progress (x : Cell) (e : Fin 6) : Nat :=
  match e.val with
  | 0 => x.regs.coreIssue.toNat
  | 1 => x.regs.plateRow.toNat + (x.eng.plateRun.map (fun r => r.row + r.tiles + r.slice)).sum + x.eng.inflight.length
  | 2 => x.regs.vecBeat.toNat + x.regs.vecOptElem.toNat + (match x.eng.optRun with | some r => r.block | none => 0) +
      x.eng.vecQ.length
  | 3 => (x.eng.xfers.toList.map (fun r => match r with | some t => t.moved + 1 | none => 0)).sum
  | 4 => x.eng.clQ.length + x.eng.clPending.length
  | _ => x.regs.traceHead.toNat + x.eng.traceQ.length

/-- Whether an engine has work outstanding, and its progress count. -/
def State.watch (s : State) (w : Watched) : Bool × Nat :=
  match w with
  | .cell c e =>
    let held := match s.partOf c with | some p => !(s.twin p).held.isEmpty | none => false
    ((s.cell c).works s c e held, (s.cell c).progress e)
  | .latches c => (!(s.cell c).signals.isEmpty, (s.cell c).signals.foldl (fun n g => 64 * n + g.latch.toNat) 1)
  | .stack n => ((s.stack n).requests.any (·.admitted), (s.stack n).bursts)
  | .join j => ((s.xd j).dirs.toList.any (fun d => d.buffers.toList.any (fun b => !b.isEmpty)),
      ((s.xd j).dirs.toList.map (fun d => d.beats.toNat)).sum)
  | .router f => (!(s.fab f).arrivals.isEmpty || !(s.fab f).hold.isEmpty, (s.fab f).rotate)
  | .coll f => (!(vget s.coll.inbox f).isEmpty, (s.fab f).collInst.toNat + (vget s.coll.inbox f).length)
  | .twin p => (!(s.twin p).inbox.isEmpty || !(s.twin p).claims.isEmpty,
      (s.twin p).inbox.length + (s.twin p).claims.length + (s.twin p).pagesSent.toNat)
  | .sheet p => ((s.sheet p).ready, (s.sheet p).shipped.toNat)
  | .hsp => (s.host.hspUp && (!s.hsp.toHost.isEmpty || !s.hsp.toPkg.isEmpty),
      s.hsp.next + s.hsp.reads.length + ((s.hsp.toHost ++ s.hsp.toPkg).map (·.moved)).sum)
  | .hcp => (s.host.hcpUp && s.host.vec0Due && s.host.vec0At.all (fun t => decide (t.toNat + s.host.modNs ≤ s.time.toNat)),
      (s.host.msix.toList).sum)
  | .mgmt => (s.mgmt.running && (s.host.go || !s.mgmt.mntIn.isEmpty), 2 * s.mgmt.mntIn.length + bnat s.host.go)
  | .meter => (s.power.dies.toList.any (·.target.isSome), (s.power.dies.toList.map (·.status.toNat)).sum)

/-- Whether an engine lies inside a reset in progress (R477). -/
def State.inReset (s : State) (w : Watched) : Bool :=
  match w with
  | .cell c _ | .latches c => s.faults.resets.any (fun r =>
      match r.level with
      | .context | .engine => r.cell == c
      | .partition => s.partOf c == some r.part
      | _ => true)
  | _ => s.faults.resets.any (fun r => r.level == .chip || r.level == .powerCycle)

/-- Whether a slot has an instruction in an engine of its cell. -/
def Cell.uses (x : Cell) (e : Fin 6) (i : SlotId) : Bool :=
  match e.val with
  | 0 => x.running == some i
  | 1 => x.eng.plateBusy i
  | 2 => x.eng.vecBusy i
  | 3 => x.eng.moverBusy i
  | 4 => x.eng.clQ.any (fun m => m.tag.slot == i)
  | _ => x.eng.traceBusy i

/-- An engine is declared hung (R477): context resets in a cell, a chip reset anywhere else. -/
def State.hang (s : State) (w : Watched) : State :=
  let pl := w.place
  match w with
  | .cell c e =>
    let s1 := s.report { (s.errRec pl.2 (sysStatus 0x40) .context).withCell s c with engine := pl.1, action := 2 }
    ((allFin 2).filter ((s.cell c).uses e ·)).foldl (fun t i => t.startReset .context c i 0 0 3) s1
  | _ =>
    ((s.report { s.errRec pl.2 (sysStatus 0x40) .chip with engine := pl.1, action := 5 }).alertSet 1).startReset .chip 0 0 0 0 3

/-- The sample of one engine: the time since when it has shown no progress with work outstanding is kept. -/
def State.sampleOne (s : State) (w : Watched) : State :=
  let v := s.watch w
  let k := w.key
  let idle := v.1 = false ∨ s.inReset w = true ∨ v.2 + 1 ≠ Sparse.get 0 s.faults.progress k
  if idle then
    s.modFaults (fun x => { x with
      progress := Sparse.set 0 x.progress k (if v.1 then v.2 + 1 else 0), sampled := Sparse.set 0 x.sampled k s.time.toNat })
  else if Sparse.get 0 s.faults.sampled k + s.faults.wdogNs ≤ s.time.toNat then s.hang w
  else s

/-- WATCHDOG_SAMPLE. -/
def execWatchdogSample (s : State) : Res :=
  if s.faults.chipPhase.isSome then .next s else .next (allWatched.foldl State.sampleOne s)

/-- WAIT_LIMIT (R476): a context's sy.wait has lasted WAIT_LIMIT_MS; 0 disables the limit. -/
def execWaitLimit (at_ : At) (s : State) : Res :=
  match (s.slot at_).wait with
  | .latch _ _ _ =>
    if fld s.faults.faultCfg 48 16 = 0 then .next s
    else
      let r := { (s.errRec (dieOf at_.cell) (sysStatus 0x41) .context).withCtx s at_ with engine := 0x0F, action := 2 }
      .next ((s.report r).startReset .context at_.cell at_.slot 0 0 4)
  | _ => .next s

/-- Whether the management core starts resets by itself (R480). -/
def State.autoReset (s : State) : Bool := s.mgmt.running && !(bit s.faults.faultCfg 0)

/-- STOP_HOLD_EXPIRY (R480). -/
def execStopHoldExpiry (at_ : At) (s : State) : Res :=
  if s.autoReset && (s.slot at_).state == .stopped then .next (s.startReset .context at_.cell at_.slot 0 0 2) else .next s

/-- ABORT_HOLD_EXPIRY (R480). -/
def execAbortHoldExpiry (p : PartId) (s : State) : Res :=
  if s.autoReset && s.phase p == .aborted then .next (s.startReset .partition 0 0 0 p 6) else .next s

/-! ### Supplies and the cold start (R551, R552, R593 to R595) -/

/-- What no loss of supply clears: a power cycle under way, which the tray carries out, its duration counted from the cold
start with which global time begins again (R478, R482; DESIGN CHOICE, log entry 64); the commands waiting, the flash (firmware, anchors), fuses, the FRU store, connection
repairs of the stacks, the hours of operation (R279, R518, R536, R545, R550). A channel whose failed connection no spare
replaces is requested for map-out again (R279). -/
def State.coldState (s : State) (aux : Bool) : State :=
  { State.reset with
    pending := s.pending, freeCtr := s.freeCtr
    faults := { State.reset.faults with
      resets := (s.faults.resets.filter (·.level == .powerCycle)).map (fun (r : Reset) => { r with done := true, start := 0 }) }
    stackSet := s.stackSet.map (fun (x : Stack) => { Stack.reset with
      mapoutReq := (allFin 32).foldl (fun (w : Word32) k =>
        if (vget x.channels k).broken.isEmpty then w else setBit w k.val true) 0
      channels := x.channels.map (fun (c : Channel) => { Channel.reset with committed := c.committed, failed := c.failed, broken := c.broken }) })
    mgmt := { Mgmt.reset with
      running := aux, banks := s.mgmt.banks, active := s.mgmt.nextBank.getD s.mgmt.active, svnMin := s.mgmt.svnMin
      azonatis := s.mgmt.azonatis, anchors := s.mgmt.anchors }
    tray := { Tray.reset with fru := s.tray.fru }
    start := { Startup.reset with aux := aux, v12 := aux, onNs := s.start.onNs, status := if aux then 0x201 else 0 } }

/-- AUX_LOSS (R594): everything resets. DARKSLIDE_REQ_N is undriven. -/
def execAuxLoss (s : State) : Res := if s.start.aux then .next (s.coldState false) else .next s

/-- COLD_POWER_ON (R551, R595): AUX and 12 V have entered their limits; phase 0x1 begins and global time starts at 0. -/
def execColdPowerOn (s : State) : Res := if s.start.aux then .next s else .next (s.coldState true)

/-- INPUT_12V_FAULT (R286, R593): core rails are removed, the stacks lose their contents, a chip reset starts. -/
def execInput12vFault (s : State) : Res :=
  if s.start.aux = false then .next s
  else
    .next ({ s with
      start := { s.start with v12 := false, coreOn := false }
      power := { s.power with rails := Rails.off }
      stackSet := s.stackSet.map (fun (x : Stack) => { x with lost := true }) }).chipFault

/-- The fuses are loaded: channels mapped out at test (R285). -/
def State.loadFuses (s : State) : State :=
  { s with stackSet := Vector.ofFn (fun (n : StackId) =>
      let x := s.stack n
      { x with mappedOut := x.mappedOut ||| Config.fusedMapOut n.val }) }

/-- Wires of group g of a direction that full training finds failed, the spare among them: those fused at test aside, each
a free value (R325). -/
def State.foundWires (s : State) (j : JoinId) (d : Fin 2) (g : Nat) : List (BitVec 7) :=
  ((List.range 80).map (BitVec.ofNat 7)).filter (fun (w : BitVec 7) =>
    !(bit (Config.fusedRepairs j.val d.val) g && w == Config.fusedWire j.val d.val g) &&
    Config.trainedFailed j.val d.val (128 * g + w.toNat) s.freeCtr)

/-- Full crossing training of one direction (R325): the repairs fused at test are committed and steered; of what is
found, one wire takes a spare that is left and works, a primary clock its alternate; groups past repair halve the direction
or disable the join. A spare found failed is spent: it counts as committed, and no wire takes it. -/
def State.trainDir (s : State) (j : JoinId) (d : Fin 2) : State :=
  let n := groupsOfJoin j
  let bits := fun (f : Nat → Bool) => (ofBits ((List.range n).map f) : Word64)
  let fused := fun (g : Nat) => bit (Config.fusedRepairs j.val d.val) g
  let clock := fun (g c : Nat) => !(isBridge j) && Config.trainedFailed j.val d.val (128 * g + c) s.freeCtr
  let found := fun (g : Nat) => (s.foundWires j d g).filter (· != 79)
  let spare := fun (g : Nat) => !((s.foundWires j d g).contains 79)
  let lost := fun (g : Nat) =>
    decide ((if spare g && !(fused g) then 1 else 0) < (found g).length) || (fused g && !(spare g)) ||
      (clock g 0x7C && clock g 0x7D)
  let wire := fun (g : Nat) =>
    if fused g then some (Config.fusedWire j.val d.val g) else if spare g then (found g).head? else none
  let bad := bits lost
  let low := decide (fld bad 0 (n / 2) ≠ 0)
  let high := decide (fld bad (n / 2) (n / 2) ≠ 0)
  s.modXd j (fun x => { x with
    disabled := x.disabled || (low && high)
    dirs := vmod x.dirs d (fun y => { y with
      spareUsed := bits (fun g => (wire g).isSome || !(spare g)), failed := bad
      steered := (List.range n).foldl (fun l g => Sparse.set 0x7F l g ((wire g).getD 0x7F)) []
      primBad := bits (clock · 0x7C), altBad := bits (clock · 0x7D), altClk := bits (clock · 0x7C)
      width := if low && high then y.width else if high then 1 else if low then 2 else 0 }) })

/-- Full training of every join; a die it leaves without a path to another is isolated (R334). -/
def State.trainJoinsFull (s : State) : State :=
  let s1 := (allFin 8).foldl (fun t j => (t.trainDir j 0).trainDir j 1) s
  (s1.trainWith (fun _ w => w)).xdIsolated (((allFin 8).find? (fun j => (s1.xd j).off)).getD 0) 0

/-- Whether a port is enabled and in training, neither up nor down. -/
def Port.training (x : Port) : Bool := bit x.ctl 31 && decide (1 ≤ fld x.status 20 4) && decide (fld x.status 20 4 ≤ 5)

/-- A start-up phase ends where no die is held in reset; where one is, start-up does not go on and a power cycle is started
(R481, R546). -/
def State.startGoes (s : State) (n : Nat) : State :=
  if s.start.held = 0 then s.setPhaseNo n else s.startReset .powerCycle 0 0 0 0 8

/-- STARTUP_PHASE_END (Table 17-13), sequenced by the management core (R536): firmware that no bank verifies keeps the core
from starting (R537); phases 0x2 and 0x3 end with no die held; phase 0x5 ends once every stack is trained or fenced and every
enabled port is up or down. -/
def execStartupPhaseEnd (s : State) : Res :=
  if s.start.aux = false ∨ s.faults.chipPhase.isSome = true ∨ s.start.held ≠ 0 then .next s
  else if fld s.start.status 0 3 ≠ 1 ∧ s.mgmt.running = false then .next s
  else
    match fld s.start.status 0 3 with
    | 1 =>
      match s.mgmt.bootBank with
      | some i => .next (({ s with
          mgmt := { s.mgmt with running := true, active := i, nextBank := none }
          start := { s.start with coreOn := true } }).loadRails.setPhaseNo 2)
      | none => .next { s with mgmt := { s.mgmt with running := false } }
    | 2 => .next (s.loadFuses.dieReports.startGoes 3)
    | 3 => .next (s.logicTest.trainJoinsFull.startGoes 4)
    | 4 => .next (s.setPhaseNo 5)
    | 5 =>
      if s.memReady && s.ports.toList.all (fun x => !x.training) then
        .next (({ s with route := { s.route with fullTrained := true } }).setPhaseNo 6)
      else .next s
    | _ => .next s

/-- Every word of a stack 0 with its check bits (R286). -/
def State.zeroStack (s : State) (n : StackId) : State :=
  let d := s.mem.dram
  { s with mem := { s.mem with dram :=
      ⟨d.bytes.filter (fun e => decide (stackOf e.1 ≠ n)), d.marks.filter (fun e => decide (stackOf (4 * e.1) ≠ n))⟩ } }

/-- A channel trains from its stored parameters where the AUX island has them, else in full, which finds new ones: free
values (R312). -/
def Stack.trainChannels (x : Stack) (ctr : Nat) : Stack :=
  { x with channels := Vector.ofFn (fun (k : Fin 32) =>
      let c := vget x.channels k
      { c with params := some (c.params.getD (Config.freeWord (ctr + k.val))) }) }

/-- STACK_TRAINED (R286, R310, R312, R552): memory training reaches a stack and reads its temperature. A fenced one at
95.0 °C or above stays fenced; one whose contents are lost is written zero. -/
def execStackTrained (n : StackId) (temp : BitVec 16) (s : State) : Res :=
  let training := match s.faults.chipPhase with
    | some k => k == 5
    | none => decide (fld s.start.status 0 3 = 5)
  if training = false then .next s
  else
    let x := s.stack n
    let s1 :=
      if x.fenced && decide (760 ≤ temp.toInt) then s
      else
        let t := if x.lost || x.fenced then s.zeroStack n else s
        ({ t with freeCtr := t.freeCtr + 32 }).modStack n (fun y => { y.trainChannels t.freeCtr with
          trained := true, lost := false
          therm := if y.fenced then setFld (setFld (setBit y.therm 31 false) 16 2 (levelOf temp.toInt)) 0 16 temp.toNat
            else y.therm })
    let s2 := if (s1.stack n).trained then
        { s1 with start := { s1.start with status := setBit s1.start.status (32 + n.val) true } } else s1
    .next (if s2.memReady then { s2 with start := { s2.start with status := setBit s2.start.status 8 true } } else s2)

end Sys2Proof.Machine
end

