-- ==== Sys2Proof/Machine/SelfTest.lean ====
section
/-!
DEFINITION. Self-test and debug access (R556 to R575): slices, rotations and passes of periodic self-test, the pattern
engine, the safelight, and the test access port.
-/
namespace Sys2Proof.Machine

/-- Change the self-test registers. -/
def State.modTest (s : State) (f : SelfTest → SelfTest) : State := { s with test := f s.test }

/-! ### Items (Table 18-1) -/

/-- The class of an item. -/
def testClass (x : TestItem) : Fin 4 :=
  match x with
  | .lane .. => 0
  | .wire .. => 1
  | .conn .. => 2

/-- The die that tests an item. -/
def testDie (x : TestItem) : DieId :=
  match x with
  | .lane k _ => fabDie (dieOfPort k)
  | .wire j d _ _ => receiverOf j d
  | .conn n _ _ => stackDie n

/-- Whether an item exists: a bridge group has wires 0 to 79, an interposer group also its two forwarded clocks. -/
def testExists (x : TestItem) : Bool :=
  match x with
  | .wire j _ g w =>
    decide (g.toNat < groupsOfJoin j) && (decide (w.toNat < 80) || (!(isBridge j) && (w == 0x7C || w == 0x7D)))
  | _ => true

/-- Items of a class at one package. -/
def testItems (k : Fin 4) : Nat :=
  match k.val with
  | 0 => 120 | 1 => 61952 | 2 => 162816 | _ => 1

/-- Length of a class's slice in nanoseconds; PIN is continuous. -/
def sliceNs (k : Fin 4) : Nat :=
  match k.val with
  | 0 => 50000 | 1 => 20000 | 2 => 40000 | _ => 0

/-- Nanoseconds of test that complete an item: its slices. -/
def testNs (k : Fin 4) : Nat :=
  sliceNs k * (match k.val with
    | 0 => 32 | 1 => 1 | _ => 2)

/-- Whether a class is tested (R556). -/
def SelfTest.tests (t : SelfTest) (k : Fin 4) : Bool := bit t.ctl 31 && bit t.ctl (24 + k.val)

/-- Whether self-test runs: READY and no reset in progress (R557). -/
def State.testing (s : State) : Bool :=
  decide (fld s.start.status 0 3 = 6) && s.faults.chipPhase.isNone && s.faults.resets.isEmpty

/-- Whether an item is paused (R557). -/
def State.testPaused (s : State) (x : TestItem) : Bool :=
  match x with
  | .lane k _ => !((s.port k).up)
  | .wire j d _ _ => (s.xd j).off || ((s.xd j).dir d).pending.isSome
  | .conn n ch _ => (s.stack n).fenced || bit (s.stack n).mappedOut ch.val || bit s.mem.memCtl 0

/-- Whether an item is under rotation. -/
def SelfTest.rotated (t : SelfTest) (x : TestItem) : Bool := t.rotation.any (fun r => r.1 == x)

/-- Whether an item carries traffic. -/
def State.inService (s : State) (x : TestItem) : Bool :=
  match x with
  | .lane k l => (s.port k).lanes.contains l.val
  | .wire j d g w =>
    let y := (s.xd j).dir d
    inActiveHalf j (((s.xd j).effect d).getD 0) g.toNat &&
    (if w = 0x7C then !(bit y.altClk g.toNat)
     else if w = 0x7D then bit y.altClk g.toNat
     else decide (w.toNat ≠ min (Sparse.get 0x7F y.steered g.toNat).toNat 79))
  | .conn n ch i => s.connActive n ch i

/-- The spare a rotation of an item in service would hold: a lane only while its port has two free (R560, R561); the
wire or clock of its group (0 stands for it); a connection of its channel. -/
def State.freeSpare (s : State) (x : TestItem) : Option Nat :=
  match x with
  | .lane k _ =>
    let p := s.port k
    let held := s.heldLanes k
    match p.freeLane false held with
    | none => none
    | some m => if (p.freeLane false ((m, 10) :: held)).isSome then some m else none
  | .wire j d g w =>
    let y := (s.xd j).dir d
    if s.test.rotation.any (fun r => wireIn j d g r.1) && decide (w.toNat < 0x7C) then none
    else if w = 0x7C then (if bit y.altBad g.toNat || s.test.rotated x then none else some 0)
    else if w = 0x7D then none
    else if bit y.spareUsed g.toNat then none
    else some 0
  | .conn n ch _ => (s.freeConn n ch).map (·.val)

/-- Whether an item that carries nothing is tested in place (R558): it is free, not withdrawn as failed and not under
rotation. -/
def State.testsInPlace (s : State) (x : TestItem) : Bool :=
  !(s.inService x) && !(s.test.rotated x) &&
  (match x with
   | .lane k l => !(bit (s.port k).failedLanes l.val)
   | .wire j d g w =>
     let y := (s.xd j).dir d
     let g := g.toNat
     if w = 0x7C then !(bit y.primBad g)
     else if w = 0x7D then !(bit y.altBad g)
     else !(bit y.failed g) && !(bit y.spareUsed g && (w == Sparse.get 0x7F y.steered g || w == 79))
   | .conn n ch i =>
     let y := vget (s.stack n).channels ch
     !(y.failed.contains i) && !(y.broken.contains i))

/-! ### Slices (R561, R562) -/

/-- SLICE_MW of a class. -/
def SelfTest.sliceMw (t : SelfTest) (k : Fin 4) : Nat := fld (vget t.cls k) 0 16

/-- Power of the slices in progress, in milliwatts. -/
def SelfTest.sliceLoad (t : SelfTest) : Nat :=
  (t.running.toList.map (fun r => match r with | some e => t.sliceMw (testClass e.item) | none => 0)).sum

/-- Whether a die's start interval of the window is now (R562). -/
def sliceWindow (now : Word64) (d : DieId) : Bool :=
  decide (16000 * d.val ≤ now.toNat % 100000) && decide (now.toNat % 100000 < 16000 * d.val + 4000)

/-- SELFTEST_SLICE_START. An item in service that could be rotated is rotated first (R558). -/
def execSelftestSliceStart (x : TestItem) (s : State) : Res :=
  let d := testDie x
  let k := testClass x
  let full := s.test.rotated x || s.testsInPlace x
  let ready := full || (s.inService x && (s.freeSpare x).isNone)
  if testExists x && s.testing && s.test.tests k && !(s.testPaused x) && (vget s.test.running d).isNone &&
      sliceWindow s.time d && decide (s.test.sliceLoad + s.test.sliceMw k ≤ 1000 * fld s.power.ctl 0 8) && ready then
    .next (s.modTest (fun t => { t with running := vset t.running d (some ⟨x, false, full, s.time, 0⟩) }))
  else .next s

/-- Nanoseconds of test an item has had in its class's pass. -/
def SelfTest.testedNs (t : SelfTest) (x : TestItem) : Nat :=
  match t.tested.find? (fun e => e.1 == x) with
  | none => 0
  | some e => e.2.1

/-- Add test time of an item. -/
def SelfTest.countSlice (t : SelfTest) (x : TestItem) (ns : Nat) (full : Bool) : SelfTest :=
  match t.tested.find? (fun e => e.1 == x) with
  | none => { t with tested := t.tested ++ [(x, ns, full)] }
  | some _ => { t with tested := t.tested.map (fun e => if e.1 = x then (x, e.2.1 + ns, e.2.2 && full) else e) }

/-- Whether what a slice has found passes its item (R556): no error, and of a lane an eye within ST_LIMIT. -/
def SelfTest.passes (t : SelfTest) (x : TestItem) (errors : Nat) (eye : LaneEye) : Bool :=
  errors == 0 &&
  (match x with
   | .lane _ _ => decide (fld t.limit 8 8 ≤ eye.height) && decide (fld t.limit 0 8 ≤ eye.width)
   | _ => true)

/-- An item is declared failed (R559). -/
def State.testFails (s : State) (x : TestItem) : State :=
  let s1 := (s.modTest (fun t => { t with found := vmod t.found (testClass x) (· + 1) }))
  match x with
  | .lane k l => (s1.laneDeclared k l.val).endRotations (· == x)
  | .wire j d g w => s1.xdDeclare j d [⟨g, w, 0⟩]
  | .conn n ch i => s1.connFails n ch i

/-- SELFTEST_SLICE_END: the slice of a die ends and judges its item by the errors it met and, of a lane, the eye. In yield
mode it counts the test intervals it used, and test time outstanding advances ST_YIELDS (R561). A slice of an item that
pauses by now, or whose class is no longer tested, has no result (R556, R557). -/
def execSelftestSliceEnd (d : DieId) (errors : Nat) (eye : LaneEye) (s : State) : Res :=
  match vget s.test.running d with
  | none => .next s
  | some z =>
    let x := z.item
    let k := testClass x
    let yields := !z.full && k != 0
    let ns := if yields then 32 * z.used else sliceNs k
    let owing := yields && decide (s.test.testedNs x + ns < testNs k)
    let s1 := s.modTest (fun t => { t with
      running := vset t.running d none, slices := vmod t.slices k (· + 1)
      yields := if owing then vmod t.yields k (· + 1) else t.yields })
    if z.void || !(s.testing) || !(s.test.tests k) || s.testPaused x then .next s1
    else if !(s.test.passes x errors eye) then .next (s1.testFails x)
    else .next (s1.modTest (·.countSlice x ns z.full))

/-- What carried traffic last that an item tested in yield mode disturbs: its direction, or its channel. -/
def State.lastCarried (s : State) (x : TestItem) : Option Word64 :=
  match x with
  | .lane .. => none
  | .wire j d _ _ => ((s.xd j).dir d).carried
  | .conn n ch _ => (vget (s.stack n).channels ch).carried

/-- At the end of a test interval the slices in yield mode that used it count it (R561). -/
def State.countYields (s : State) : State :=
  let now := s.time.toNat
  if now % 64 ≠ 32 then s
  else s.modTest (fun t => { t with running := t.running.map (fun (r : Option Slice) => r.map (fun z =>
    if z.uses (s.lastCarried z.item) (now - 32) then { z with used := z.used + 1 } else z)) })

/-! ### Rotations and passes (R558, R560, R563) -/

/-- The switch of an item's traffic to a spare, or back: a link-layer replacement in the direction received, which keeps
the partner's output busy, a steer at a switch time, or a steer of the stack controller, which no register shows. -/
def State.testSwitch (s : State) (x : TestItem) (spare : Nat) (back : Bool) : State :=
  match x with
  | .lane k l =>
    let from_ := if back then spare else l.val
    let to_ := if back then l.val else spare
    s.modPort k (fun p => { p with lanes := p.lanes.map (fun m => if m = from_ then to_ else m) })
  | .wire j d g w => s.xdPend j d (.steer g (if back then (if w = 0x7C then 0x7D else 79) else w))
  | .conn .. => s

/-- Whether an item's test is complete. -/
def SelfTest.complete (t : SelfTest) (x : TestItem) : Bool :=
  t.tested.any (fun e => e.1 == x && decide (testNs (testClass x) ≤ e.2.1))

/-- SELFTEST_ROTATION: a rotation of an item starts, or its passing item takes its traffic back. -/
def execSelftestRotation (x : TestItem) (s : State) : Res :=
  if !(testExists x && s.testing && s.test.tests (testClass x) && !(s.testPaused x)) ||
      (vget s.test.running (testDie x)).any (fun r => r.item == x) then .next s
  else
    match s.test.rotation.find? (fun r => r.1 == x) with
    | some r =>
      if s.test.complete x then
        .next ((s.testSwitch x r.2 true).modTest (fun t => { t with rotation := t.rotation.filter (fun q => q.1 != x) }))
      else .next s
    | none =>
      match s.freeSpare x with
      | none => .next s
      | some m =>
        if s.inService x then
          .next ((s.testSwitch x m false).modTest (fun t => { t with
            rotation := t.rotation ++ [(x, m)], tested := t.tested.filter (fun e => e.1 != x) }))
        else .next s

/-- SELFTEST_PASS_END: ST_LAST and COVERAGE, in per mille of the items given their full test rotated or in place; an
item still incomplete is carried into the next pass. PIN is continuous. -/
def execSelftestPassEnd (k : Fin 4) (s : State) : Res :=
  if s.testing && s.test.tests k then
    let done := fun (e : TestItem × Nat × Bool) => testClass e.1 == k && decide (testNs k ≤ e.2.1)
    let n := if k = 3 then 1 else (s.test.tested.filter (fun e => done e && e.2.2)).length
    .next (s.modTest (fun t => { t with
      last := vset t.last k s.time
      cls := vmod t.cls k (fun w => setFld w 52 12 (1000 * n / testItems k))
      tested := t.tested.filter (fun e => !(done e)) }))
  else .next s

/-- A PIN item is found failed. A fault still shown is kept. -/
def SelfTest.pinFails (t : SelfTest) (group : Bool) (row col : Byte) : SelfTest :=
  { t with
    found := vmod t.found 3 (· + 1)
    pinFault := if bit t.pinFault 31 then t.pinFault
      else BitVec.ofNat 32 (2 ^ 31 + 2 ^ 30 * bnat group + 256 * row.toNat + col.toNat) }

/-- A land group's fused share of the current of its kind, 1/16 within 3%, in 1/100,000. -/
def landShare (ground : Bool) (i : Fin 16) : Nat := min (max (Config.landShare (bnat ground) i.val) 6063) 6437

/-- Whether a share is out (R556): by more than a quarter of the fused one, at a load above 20% of the package's 3,800 W. -/
def shareOut (fused share load : Nat) : Bool :=
  decide (760 < load) && decide (fused < 4 * ((share - fused) + (fused - share)))

/-- PIN_CHECK (R556): a signal land whose pad differs from its driven level fails; a land group whose share has been out for
10 s does, once. -/
def execPinCheck (r : PinReading) (row col : Byte) (s : State) : Res :=
  if s.testing && s.test.tests 3 then
    match r with
    | .land driven pad => .next (if driven = pad then s else s.modTest (·.pinFails false row col))
    | .group ground i share load =>
      let k : Fin 32 := Fin.ofNat 32 (16 * bnat ground + i.val)
      let set := fun (v : Option (Word64 × Bool)) (t : SelfTest) => { t with pinOut := vset t.pinOut k v }
      if !(shareOut (landShare ground i) share load) then .next (s.modTest (set none))
      else
        match vget s.test.pinOut k with
        | none => .next (s.modTest (set (some (s.time, false))))
        | some (t0, told) =>
          if told || decide (s.time.toNat < t0.toNat + 10000000000) then .next s
          else .next (s.modTest (fun t => set (some (t0, true)) (t.pinFails true row col)))
  else .next s

/-! ### The pattern engine (R565) -/

/-- A write of ST_PAT. -/
def State.patOp (s : State) (v : Word64) : State :=
  if bit v 63 = false ∨ bit s.test.patStat 31 = true then s
  else
    let n : StackId := (bfld v 57 4).toFin
    let ch : ChanId := (bfld v 52 5).toFin
    let no := fun (r : Nat) => s.modTest (fun t => { t with patStat := BitVec.ofNat 32 (2 ^ 29 * r), pat := none })
    if bit s.mem.memCtl 0 = false then no 2
    else if (s.stack n).fenced || bit (s.stack n).mappedOut ch.val then no 3
    else s.modTest (fun t => { t with patStat := BitVec.ofNat 32 (2 ^ 31), pat := some v })

/-- ST_PAT_GO: a write with GO 1. -/
def execStPatGo (by_ : Requester) (v : Word64) (s : State) : Res :=
  s.regWrite by_ 5 false (fun s => s.patOp (setBit v 63 true))

/-- ST_PAT_DONE: under a margin of the channel the bursts written and read are counted; how many were in error the
specification does not state. The saved rows are back, so memory is as before. -/
def execStPatDone (s : State) : Res :=
  match s.test.pat with
  | none => .next s
  | some v =>
    let n : StackId := (bfld v 57 4).toFin
    let ch : ChanId := (bfld v 52 5).toFin
    let bursts := 2 * max (fld v 0 32) 1
    let s1 := s.modTest (fun t => { t with patStat := BitVec.ofNat 32 (2 ^ 29), pat := none })
    if s.margined n ch then
      .next { s1.modStack n (fun x => { x with
        marginErr := satAdd (satAdd x.marginErr 32 32 bursts) 0 32 (fld (Config.freeWord s.freeCtr) 0 32) }) with
        freeCtr := s.freeCtr + 1 }
    else .next s1

/-! ### The safelight (R568, R569, R574) -/

/-- DEBUG_LOCKED for the safelight or the port. -/
def State.debugLocked (s : State) : State := s.sysEvent 5 0x08 .event 0x10

/-- A write of SL_CTL: accepted only while the SAFELIGHT level is unlocked; one that would enable it writes
DEBUG_LOCKED, any other REG_WRITE_IGNORED. -/
def State.slCtlOp (s : State) (v : Word32) : State :=
  if s.test.unlocked 0 then
    let w := v &&& 0xFFFC0000
    s.modTest (fun t => { t with slCtl := w, slLat := if bit w 31 then Config.slLatency w else 0 })
  else if bit v 31 then s.debugLocked
  else s.regIgnored 5

/-- SL_CTL_WRITE. -/
def execSlCtlWrite (by_ : Requester) (v : Word32) (s : State) : Res := s.regWrite by_ 5 false (fun s => s.slCtlOp v)

/-- A write of SL_SEL[j]. -/
def State.slSelOp (s : State) (j : Fin 32) (v : Word32) : State :=
  if s.test.unlocked 0 then s.modTest (fun t => { t with slSel := vset t.slSel j (v &&& 0xFFF) }) else s.regIgnored 5

/-! ### The test access port (R570, R571, Table 18-4) -/

/-- Load the instruction register while the port is powered, with the data register it selects as captured; private
instructions of an ended unlock act as BYPASS from here (R567). -/
def State.tapLoad (s : State) (ir : Byte) (dr : List Bool) : State :=
  if s.start.aux then s.modTest (fun t => { t with tapIr := ir, tapDr := dr, ijtag := t.ijtag && ir == 0x20 }) else s

/-- The identification code: version 0x1, part 0x5704, manufacturer code 0x4E5, and the marker bit. -/
def tapIdcode : Word32 := 0x157049CB

/-- Its bits. -/
def tapIdcodeBits : List Bool := (List.range 32).map (bit tapIdcode ·)

/-- BYPASS: a register of one bit that captures 0. -/
def State.tapPass (s : State) : State := s.tapLoad 0xFF [false]

/-- The levels of `n` signal lands, which the specification does not give. -/
def State.tapLands (s : State) (n : Nat) : List Bool := (List.range n).map (fun i => bit (Config.freeWord (s.freeCtr + i)) 0)

/-- TAP_IDCODE. -/
def execTapIdcode (s : State) : Res := .next (s.tapLoad 0x01 tapIdcodeBits)

/-- TAP_SAMPLE_PRELOAD: the boundary register captures the lands, and holds what is then shifted in. -/
def execTapSamplePreload (data : List Bool) (s : State) : Res :=
  if s.start.aux then
    .next { (s.tapLoad 0x02 (s.tapLands data.length)).modTest (fun t => { t with boundary := data }) with
      freeCtr := s.freeCtr + data.length }
  else .next s

/-- TAP_EXTEST: with 12 V absent the lands are driven from the boundary register, which captures their levels. -/
def execTapExtest (s : State) : Res :=
  if s.start.v12 then .next s.tapPass
  else
    let n := s.test.boundary.length
    .next { s.tapLoad 0x03 (s.tapLands n) with freeCtr := s.freeCtr + n }

/-- TAP_CLAMP: the lands are held from the boundary register, the bypass bit is selected. -/
def execTapClamp (s : State) : Res := if s.start.v12 then .next s.tapPass else .next (s.tapLoad 0x04 [false])

/-- TAP_HIGHZ: the lands float, the bypass bit is selected. -/
def execTapHighz (s : State) : Res := if s.start.v12 then .next s.tapPass else .next (s.tapLoad 0x05 [false])

/-- TAP_IJTAG: opens the IEEE 1687 network where the IJTAG level is unlocked. -/
def execTapIjtag (s : State) : Res :=
  if s.start.aux = false then .next s
  else if s.test.unlocked 2 then .next ((s.tapLoad 0x20 []).modTest (fun t => { t with ijtag := true }))
  else .next s.tapPass.debugLocked

/-- TAP_BYPASS. -/
def execTapBypass (s : State) : Res := .next s.tapPass

/-- TAP_RESET. -/
def execTapReset (s : State) : Res := .next (s.tapLoad 0x01 tapIdcodeBits)

end Sys2Proof.Machine
end

