-- ==== Sys2Proof/Machine/RegViews.lean ====
section
/-!
DEFINITION. Registers that are views of the state, and the writes of registers that have no command of their own:
field by field as the tables of chapters 2 to 18 give them.
-/
namespace Sys2Proof.Machine

/-! ### Cells (Tables 4-10, 5-14, 5-15, 8-6, 8-9) -/

/-- Whether a started plate instruction has touched nothing yet. -/
def MxRun.untouched (r : MxRun) : Bool :=
  r.row == 0 && r.slice == 0 && (r.ins.kind != .vfree || r.frees.length == r.ins.rows)

/-- Why a row waits behind earlier instructions (Table 4-10): 1 promotions, 2 a drain or vsave, 3 a vload, 0 not. The
table names promotions for a drain or vsave only; a vload or vfree that awaits them reads 1 too (DESIGN CHOICE, log
entry 62). -/
def rowWaitCode (before : List MxRun) (infl : List InFlight) (order row : Nat) : Nat :=
  let behind := fun (k : MxKind) => before.any (fun q => q.ins.kind == k && q.pendingRow row)
  if awaitsPromotion before infl order row then 1
  else if behind .drain || behind .vsave then 2
  else if behind .vload then 3
  else 0

/-- Why a started instruction that has touched nothing yet waits (Table 4-10). -/
def MxRun.holdCode (r : MxRun) (before : List MxRun) (infl : List InFlight) (vecBusy : Bool) : Nat :=
  let base := r.ins.f.base.toNat
  let rows := (List.range r.ins.rows).map (· + base)
  match r.ins.kind with
  | .drain | .vsave =>
    if rows.any (awaitsPromotion before infl r.order) then 1
    else if drainHeld before infl r then 3
    else if r.ins.kind = .drain ∧ 0 < epiPasses r.epi ∧ vecBusy then 7 else 0
  | .mma =>
    if rowHeldForMma before base then rowWaitCode (before.filter (fun q => q.ins.kind != .mma)) [] r.order base
    else if r.tiles = 0 then 4 else 0
  | .vload => rowWaitCode before infl r.order base
  | .vfree => ((rows.map (rowWaitCode before infl r.order)).find? (· != 0)).getD 0

/-- PLATE_STATUS.HOLD of a cell. -/
def State.plateHoldCode (s : State) (c : CellId) : Nat :=
  let x := s.cell c
  match firstRun (fun _ r => r.untouched) [] x.eng.plateRun with
  | some i =>
    match x.eng.plateRun[i]? with
    | some r => r.holdCode (x.eng.plateRun.take i) x.eng.inflight x.eng.vecRun.isSome
    | none => 0
  | none =>
    match x.eng.plateQ with
    | [] => 0
    | m :: _ =>
      if x.eng.vatClear then 8
      else if x.eng.restore then 6
      else if x.rangesHeld c s.isLocal m.tag.slot m.tag.seq (x.queuedRngs m) then 5
      else 0

/-- PLATE_STATUS. -/
def State.plateStatus (s : State) (c : CellId) : Word64 :=
  let e := (s.cell c).eng
  BitVec.ofNat 64 (min e.inflight.length 184 * 2 ^ 24 + e.plateQ.length * 2 ^ 16 + s.plateHoldCode c * 2 ^ 12 +
    4 * bnat e.restore + 2 * fld (s.cell c).regs.plateDbg 0 1 +
    bnat (!e.plateQ.isEmpty || !e.plateRun.isEmpty || !e.inflight.isEmpty))

/-- VAT_LIVE0 and VAT_LIVE1: bit g is 1 where a row of group g of 32 rows is live (Table 4-11). -/
def Cell.vatGroups (x : Cell) (half : Nat) : Word64 :=
  BitVec.ofNat 64 (ofBits ((List.range 64).map (fun g => decide (fld x.vatLive (32 * (64 * half + g)) 32 ≠ 0))))

/-- VEC_STATUS. HOLD tells why the oldest queued instruction waits; 0x3, the cell store port, is a matter of cycles
and never arises (log entry 54). BUSY reads 0 while only a vx.optstep runs (DESIGN CHOICE, log entry 54). -/
def State.vecStatus (s : State) (c : CellId) : Word64 :=
  let x := s.cell c
  let e := x.eng
  let hold := match e.vecQ with
    | [] => 0
    | m :: _ =>
      if x.epilogueRuns then 2
      else if e.optRun.isSome && x.vecHeld c s.isLocal m && e.vecRun.isNone then 5
      else if m.op == 0x41 && bit m.imm 0 && !e.plateQ.isEmpty then 4
      else if x.rangesHeld c s.isLocal m.tag.slot m.tag.seq
        (if m.op = 0x40 then x.optRngs c s.isLocal m else m.rngs) then 1
      else 0
  BitVec.ofNat 64 (e.vecQ.length * 2 ^ 26 + hold * 2 ^ 22 + 4 * bnat e.optRun.isSome + 2 * bnat e.restore +
    bnat (!e.vecQ.isEmpty || e.vecRun.isSome))

/-- CORE_STATUS; SLOT and PC are those of the running context, zero where none runs. -/
def Cell.coreStatus (x : Cell) : Word64 :=
  let base := x.regs.stall.toNat * 2 ^ 28
  match x.running with
  | none => BitVec.ofNat 64 base
  | some i => BitVec.ofNat 64 (base + i.val * 2 ^ 20 + (x.slot i).ctx.pc.toNat)

/-- STATE codes (Table 8-3). -/
def SlotState.code : SlotState → Nat
  | .empty => 0 | .running => 1 | .ready => 2 | .dormant => 3 | .stopped => 4

/-- CTX_STATUS. -/
def Slot.status (x : Slot) : Word64 :=
  BitVec.ofNat 64 (x.job.toNat * 2 ^ 48 + x.state.code * 2 ^ 36 + x.endCause.toNat * 2 ^ 32 + x.ctx.pc.toNat)

/-- GRAIN. -/
def Grain.word (g : Grain) : Word64 := g.laneBase ++ (BitVec.ofBool g.seeded ++ bfld g.seqSlot 0 31)

/-- Whether a slot waits on a latch, the step instructions included. -/
def Slot.waitsAt (x : Slot) (l : Nat) : Bool :=
  match x.wait with
  | .latch k _ _ => decide (k.toNat = l)
  | .stOpen => decide (l = 60)
  | .stStop => decide (l = 61)
  | .stFix => decide (l = 63)
  | _ => false

/-- Whether a latch is the wake latch of a DORMANT slot. WAKE shows on latch 62 too, for a WAKE_SRC of 0b010 (DESIGN
CHOICE, log entry 64). -/
def Slot.wakesAt (x : Slot) (l : Nat) : Bool :=
  x.state == .dormant &&
  (match x.wake with
   | .latch k => decide (k.toNat = l)
   | .verdict => decide (l = 62)
   | _ => false)

/-- LATCH[l]. -/
def State.latchWord (s : State) (c : CellId) (l : Nat) : Word64 :=
  let x := s.cell c
  let y := vgetD Latch.reset x.latches l
  let own := match y.owner with
    | some (i, job) => i.val * 2 ^ 60 + job.toNat * 2 ^ 44
    | none => 0
  BitVec.ofNat 64 (bnat (s.latchOwned c (BitVec.ofNat 6 l)) * 2 ^ 63 + bnat (x.slots.toList.any (·.waitsAt l)) * 2 ^ 62 +
    bnat (x.slots.toList.any (·.wakesAt l)) * 2 ^ 61 + own + y.count.toNat)

/-- A write of a fault register: 1 in FAULTED clears it and COUNT (R136). -/
def faultClear (r v : Word32) : Word32 := if bit v 31 then setFld (setBit r 31 false) 16 8 0 else r

/-- A write of the fault register of a detector. -/
def CellRegs.clearFault (r : CellRegs) (src : Src) (v : Word32) : CellRegs :=
  match src with
  | .core => { r with coreFault := faultClear r.coreFault v }
  | .plate => { r with plateFault := faultClear r.plateFault v }
  | .vector => { r with vecFault := faultClear r.vecFault v }
  | .mover => { r with dmFault := faultClear r.dmFault v }
  | .coll => { r with clFault := faultClear r.clFault v }
  | .trace => r

/-- A write of TRACE_CTL (R249): setting EN starts a fresh ring. -/
def Cell.traceCtlOp (x : Cell) (v : Word32) : Cell :=
  let old := x.regs.traceCtl
  let w := setFld (v &&& 0xC01F0000) 0 16 (fld old 0 16)
  if bit v 31 && !(bit old 31) then
    { x with
      regs := { x.regs with traceCtl := setFld w 0 16 0, traceHead := 0 }
      eng := { x.eng with traceErr := false } }
  else { x with regs := { x.regs with traceCtl := w } }

/-- The counters at 0x400 to 0x438. -/
def CellRegs.counterAt (r : CellRegs) (k : Nat) : Word64 := r.counter k

/-! ### Memory (Tables 9-10, 9-13) -/

/-- GEOM. -/
def Stack.geom (x : Stack) : Word64 := BitVec.ofNat 64 (x.mappedOut.toNat * 2 ^ 32 + bnat x.relocated * 2 ^ 15 + x.active)

/-- Bursts scrubbed on each channel in service. -/
def State.scrubbed (s : State) : List Nat :=
  (s.stackSet.toList.map (fun x => (allFin 32).filterMap (fun (ch : ChanId) =>
    if x.fenced || bit x.mappedOut ch.val then none else some (vget x.channels ch).scrub))).flatten

/-- MEM_SCRUB_STATUS: passes complete on every channel, and the percentage of the present one. -/
def State.scrubStatus (s : State) : Word64 :=
  let l := s.scrubbed
  match l with
  | [] => 0
  | a :: rest =>
    let n := rest.foldl (fun m k => min m (k / channelBursts)) (a / channelBursts)
    let done := (l.map (fun k => min (k - n * channelBursts) channelBursts)).sum
    BitVec.ofNat 64 (n % 2 ^ 32 * 2 ^ 32 + 100 * done / (channelBursts * l.length))

/-! ### The step and collectives (Tables 2-5, 12-10) -/

/-- STEP[p].STATUS with ARRIVED, the count of the lead cell's barrier latch. -/
def State.stepStatus (s : State) (p : PartId) : Word64 :=
  let n := match s.leadOf p with
    | none => 0
    | some c => if s.phase p = .fix then ((s.cell c).latch 63).count.toNat else ((s.cell c).latch 61).count.toNat
  (setFld (s.stepOf p).status 8 7 n).zeroExtend 64

/-- STATE codes (Table 12-10). -/
def CollState.code : CollState → Nat
  | .idle => 0 | .armed => 1 | .active => 2 | .failed => 3

/-- COLLD_STATUS. -/
def Colld.statusWord (x : Colld) : Word64 :=
  let n := match x.now with
    | some r => r.arrivals.length
    | none => x.arrived.length
  BitVec.ofNat 64 (x.state.code * 2 ^ 29 + bnat x.tagOut * 2 ^ 28 + x.last.toNat * 2 ^ 20 + n % 128)

/-- A write of a word of a descriptor: in IDLE only. -/
def State.colldWordOp (s : State) (i : Nat) (w : Fin 16) (v : Word64) : State :=
  if (s.colld i).state = .idle then s.modColld i (fun x => { x with words := vset x.words w (v &&& colldMask w) }) else s.regIgnored 4

/-- A write of COLL_CMD (Table 12-9). -/
def State.collCmdOp (s : State) (v : Word32) : State :=
  match fld v 30 2 with
  | 1 => s.collArmOp (fld v 0 12)
  | 2 => s.collDisarmOp (fld v 0 12)
  | _ => s

/-! ### Twins (Tables 14-11 to 14-13) -/

/-- A TWIN write outside CLOSED is TWIN_BUSY. -/
def State.twinSet (s : State) (p : PartId) (f : State → State) : State :=
  if s.closed p then f s else s.twinEvent p 0x37 0

/-- A write of TWIN[p].CTL. -/
def State.twinCtlOp (s : State) (p : PartId) (v : Word32) : State :=
  s.twinSet p (fun s =>
    let s1 := s.modTwin p (fun t => { t with ctl := setFld (setBit t.ctl 29 false) 0 16 (fld v 0 16) })
    let s2 := s1.modStep p (fun t => { t with refix := false })
    let s3 := if bit v 29 then s2.twinRefixOp p else s2
    let s4 := if bit v 30 then s3.twinRestartOp p else s3
    if bit v 31 then s4.twinArmOp p else s4)

/-- A write of TWIN[p].RESTORE_CMD. -/
def State.restoreOp (s : State) (p : PartId) (v : Word32) : State :=
  let sel : Fin 2 := if bit v 29 then 1 else 0
  match fld v 30 2 with
  | 1 => s.twinSet p (·.restoreCmd p (.pages sel))
  | 2 => s.twinSet p (·.restoreCmd p (.record sel))
  | 3 => s.twinSet p (·.restoreCmd p .tables)
  | _ => s

/-! ### The host interface and power -/

/-- A write of ERR_RING_BASE: only while EN is 0 (R554). -/
def State.ringBaseOp (s : State) (v : Word64) : State :=
  if bit s.host.ringCtl 31 then s.regIgnored 4
  else { s with host := { s.host with ringBase := v &&& 0xFFFFFFFFFFFFF000 } }

/-- A write of ERR_RING_CTL: SIZE_LOG2 only while EN is 0; with the ring enabled what waits is delivered. -/
def State.ringCtlOp (s : State) (v : Word32) : State :=
  let old := s.host.ringCtl
  let w := v &&& 0x800FFFFF
  let s1 := { s with host := { s.host with ringCtl := if bit old 31 then setFld w 16 4 (fld old 16 4) else w } }
  let s2 := if bit old 31 && decide (fld w 16 4 ≠ fld old 16 4) then s1.regIgnored 4 else s1
  s2.ringDeliver

/-- A write of PWR_CTL. -/
def State.pwrCtlOp (s : State) (v : Word32) : State :=
  let s1 := s.modPower (fun x => { x with ctl := v &&& 0x781F00FF })
  if bit v 31 then s1.powerApplyOp else s1

/-- A write of PWR_DIE[d].CFG: DROOP_MV at once, the rest in the shadow. -/
def PwrDie.cfgOp (x : PwrDie) (v : Word32) : PwrDie :=
  { x with cfg := setFld x.cfg 16 8 (fld v 16 8), cfgShadow := v &&& 0x00FFFF0F }

/-- PWR_DIE[d].CFG in the pending view. -/
def PwrDie.cfgPending (x : PwrDie) : Word32 := setFld x.cfgShadow 16 8 (fld x.cfg 16 8)

/-! ### Crossings, fabric, start-up -/

/-- XD[j].STATUS. -/
def Xd.statusWord (x : Xd) : Word64 :=
  let a := x.dir 0
  let b := x.dir 1
  let w := fun (d : Fin 2) => ((x.effect d).getD (x.dir d).width).toNat
  BitVec.ofNat 64 (bnat x.off * 2 ^ 31 + bnat (x.dirs.toList.any (·.forced != 0)) * 2 ^ 30 + bnat b.pending.isSome * 2 ^ 29 +
    bnat a.pending.isSome * 2 ^ 28 + w 1 * 2 ^ 26 + w 0 * 2 ^ 24 + popCount b.spareUsed * 2 ^ 16 +
    popCount a.spareUsed * 2 ^ 8 + bnat x.trained * 2 ^ 7 + 2 * bnat (b.altClk != 0) + bnat (a.altClk != 0))

/-- ROB_STATUS. -/
def State.robStatus (s : State) (d : FabId) : Word64 :=
  let r := s.reserved d
  let held := (((s.fab d).streams.map (·.held.length)).sum + (s.fab d).delivered.length)
  BitVec.ofNat 64 (r.2 % 2 ^ 16 * 2 ^ 32 + r.1 % 2 ^ 16 * 2 ^ 16 + held % 2 ^ 16)

/-- States of routing slots (Table 11-13). -/
def RouteState.code : RouteState → Nat
  | .retired => 0 | .valid => 1 | .active => 2 | .draining => 3 | .drained => 4

/-- ROUTE_STATUS. -/
def Routing.statusWord (r : Routing) : Word64 :=
  BitVec.ofNat 64 (r.epoch.toNat * 2 ^ 32 + 16 * (vget r.slots 1).state.code + (vget r.slots 0).state.code)

/-- DARK_STATUS. -/
def Routing.darkWord (r : Routing) : Word64 := BitVec.ofNat 64 (128 * bnat r.darkReq + r.darkClosed.toNat)

/-- STARTUP_STATUS with the ports in stage ACTIVE. -/
def State.startupWord (s : State) : Word64 :=
  setFld s.start.status 20 12 (ofBits (s.ports.toList.map (·.up)))

/-- RESET_STATUS with the level in progress. -/
def Faults.resetWord (f : Faults) : Word64 := setFld f.resetStat 29 3 f.level

/-- ERR_STATUS with the records awaiting delivery at FD1. -/
def Faults.errWord (f : Faults) : Word64 :=
  (setFld f.errStatus 8 8 (min (f.queues.toList.map (·.length)).sum 255)).zeroExtend 64

/-- AGE[d].STATUS with the fused guard band. -/
def ageWord (a : Age) (d : DieId) : Word64 := (setFld a.status 16 8 (Config.guardMv d.val).toNat).zeroExtend 64

end Sys2Proof.Machine
end

