-- ==== Sys2Proof/Machine/Registers.lean ====
section
/-!
DEFINITION. The register map (R576 to R590, Tables 19-1 to 19-8): which register stands at an offset, its width, who
may reach it, what a read gives and what a write does; and the three ways to it: sc.rdreg and sc.wrreg, writes by the
host and the management path, and BAR0 (R11, R221, R222, R523, R533, R585, R587). With them the fault of a word that is
no instruction (R176).
-/
namespace Sys2Proof.Machine

/-- A register: its width (64 or 32 bits), the die that serves it, whether it lies in the AUX area, who may read and
write it beside host and management (R585), what a read gives, in the pending view too (R533), and what a write does. -/
structure RegEntry where
  wide : Bool
  die  : DieId
  aux  : Bool
  rd   : State → Requester → Bool
  wr   : State → Requester → Bool
  get  : State → Word64
  pend : State → Word64
  put  : Requester → Word64 → State → State

/-- Open to no context. -/
def shut (_ : State) (_ : Requester) : Bool := false
/-- Open to every context. -/
def open_ (_ : State) (_ : Requester) : Bool := true

/-- A 64-bit register that is only read: a write is ignored, with REG_WRITE_IGNORED (R11, Table 15-4). -/
def ro64 (die : DieId) (rd : State → Requester → Bool) (get : State → Word64) : RegEntry :=
  ⟨true, die, false, rd, shut, get, get, fun _ _ s => s.regIgnored die⟩
/-- A 32-bit register that is only read. -/
def ro32 (die : DieId) (rd : State → Requester → Bool) (get : State → Word64) : RegEntry :=
  { ro64 die rd get with wide := false }
/-- A 64-bit register that host and management write. -/
def rw64 (die : DieId) (rd : State → Requester → Bool) (get : State → Word64) (put : Word64 → State → State) : RegEntry :=
  { ro64 die rd get with put := fun _ v s => put v s }
/-- A 32-bit register that host and management write. -/
def rw32 (die : DieId) (rd : State → Requester → Bool) (get : State → Word32) (put : Word32 → State → State) : RegEntry :=
  { ro64 die rd (fun s => (get s).zeroExtend 64) with wide := false, put := fun _ v s => put (bfld v 0 32) s }
/-- The same register with a write that depends on who makes it, open to contexts as `wr` says. -/
def RegEntry.by_ (e : RegEntry) (wr : State → Requester → Bool) (put : Requester → Word64 → State → State) : RegEntry :=
  { e with wr := wr, put := put }
/-- The same register open to contexts for writing. -/
def RegEntry.writable (e : RegEntry) (wr : State → Requester → Bool) : RegEntry := { e with wr := wr }
/-- The same register with a shadow that the pending view reads. -/
def RegEntry.shadow (e : RegEntry) (pend : State → Word64) : RegEntry := { e with pend := pend }
/-- The same register in the AUX area. -/
def RegEntry.inAux (e : RegEntry) : RegEntry := { e with aux := true }
/-- A register of zeros on a read. -/
def noRead (_ : State) : Word64 := 0
/-- The same, 32 bits. -/
def noRead32 (_ : State) : Word32 := 0

/-- Entry number of a register array that starts at `base` with a stride, if `o` falls on one of its `n` slots. -/
def slotIx (o base stride n : Nat) : Option (Fin n) :=
  if h : (o - base) / stride < n then
    if base ≤ o ∧ (o - base) % stride = 0 then some ⟨(o - base) / stride, h⟩ else none
  else none

/-- The first answer of a list. -/
def firstSome {α : Type} (l : List (Option α)) : Option α := l.findSome? id

/-- Change the registers of a cell. -/
def State.modCellRegs (s : State) (c : CellId) (f : CellRegs → CellRegs) : State := s.modCell c (·.modRegs f)

/-! ### CELL[n] (Table 19-3) -/

/-- The registers of one instance each. -/
def cellReg1 (c : CellId) (o : Nat) : Option RegEntry :=
  let d := dieOf c
  let op := fun (s : State) (r : Requester) => s.opensCell r c
  let w := fun (f : CellRegs → Word64) => ro64 d op (fun s => f (s.cell c).regs)
  let fault := fun (src : Src) (f : CellRegs → Word32) =>
    (rw32 d op (fun s => f (s.cell c).regs) (fun v s => s.modCellRegs c (·.clearFault src v))).writable op
  match o with
  | 0x000 => some ((rw32 d op (fun s => (s.cell c).regs.plateCfg) (fun _ s => s)).by_ op
      (fun r v s => s.plateCfgOp r c (bfld v 0 32)))
  | 0x008 => some (ro32 d op (fun s => s.plateStatus c))
  | 0x010 => some (fault .plate (·.plateFault))
  | 0x018 => some (rw32 d op (fun s => (s.cell c).regs.plateDbg) (fun v s => s.plateDbgOp c v))
  | 0x020 => some (ro64 d op (fun s => (s.cell c).vatGroups 0))
  | 0x028 => some (ro64 d op (fun s => (s.cell c).vatGroups 1))
  | 0x040 => some (ro32 d op (fun s => s.vecStatus c))
  | 0x048 => some (w (·.optStatus))
  | 0x050 => some (fault .vector (·.vecFault))
  | 0x058 => some (ro32 d op (fun s => (s.cell c).coreStatus))
  | 0x060 => some (fault .core (·.coreFault))
  | 0x068 => some (fault .mover (·.dmFault))
  | 0x070 => some (fault .coll (·.clFault))
  | 0x0F0 => some (rw32 d op (fun s => (s.cell c).regs.slotCfg) (fun v s => s.slotCfgOp c v))
  | 0x140 => some ((rw32 d op (fun s => (s.cell c).regs.traceCtl) (fun v s => s.modCell c (·.traceCtlOp v))).writable op)
  | 0x148 => some ((rw64 d op (fun s => (s.cell c).regs.traceBase)
      (fun v s => s.modCellRegs c (fun r => { r with traceBase := v &&& 0x0000FFFFFFFFF000 }))).writable op)
  | 0x150 => some (w (·.traceHead))
  | 0x440 => some (w (·.dmLate))
  | 0x448 => some (w (·.latchSpin))
  | 0x450 => some (w (·.ctxSwitch))
  | _ => none

/-- The registers of two instances, one per slot, at `base + 8 s`. -/
def cellRegSlot (c : CellId) (i : SlotId) (base : Nat) : Option RegEntry :=
  let d := dieOf c
  let op := fun (s : State) (r : Requester) => s.opensCell r c
  let a : At := ⟨c, i⟩
  match base with
  | 0x080 => some ((ro64 d op (fun s => (s.slot a).grain.word)).by_ op (fun r v s => s.laneBaseOp r c i (bfld v 32 32)))
  | 0x090 => some (rw64 d op (fun s => (s.slot a).isaCtl) (fun v s => s.isaCtlOp c i v))
  | 0x0A0 => some (ro64 d op (fun s => (s.slot a).ctxFault))
  | 0x0B0 => some (rw64 d shut noRead (fun v s => s.ctxStartOp c i v))
  | 0x0C0 => some (ro64 d op (fun s => (s.slot a).status))
  | 0x0D0 => some ((rw32 d op (fun s => (s.slot a).ctxCtl) (fun _ s => s)).by_ op (fun r v s => s.ctxCtlOp r c i false v))
  | 0x0E0 => some ((ro64 d op (fun s => (s.slot a).wakeTime)).by_ op (fun r v s => s.ctxCtlOp r c i true v))
  | _ => none

/-- A register of a cell. -/
def cellReg (c : CellId) (o : Nat) : Option RegEntry :=
  let d := dieOf c
  let op := fun (s : State) (r : Requester) => s.opensCell r c
  firstSome [
    cellReg1 c o,
    cellRegSlot c (if o / 8 % 2 = 0 then 0 else 1) (o / 16 * 16),
    (slotIx o 0x100 8 4).map (fun e => (ro64 d op (fun s => vget (s.cell c).regs.epi e)).by_ op
      (fun r v s => s.activeRegOp r c (fun x => { x with epi := vset x.epi e (v &&& 0x3FFFFFFFFFFFFFFF) }))),
    (slotIx o 0x200 8 64).map (fun l => ro64 d op (fun s => s.latchWord c l.val)),
    (slotIx o 0x400 8 8).map (fun k => ro64 d op (fun s => (s.cell c).regs.counter k.val))]

/-! ### MEM[n], STEP[p], PART[p], REG[p] and memory control (Table 19-4) -/

/-- A register of a stack. -/
def memReg (n : StackId) (o : Nat) : Option RegEntry :=
  let d := stackDie n
  match o with
  | 0x00 => some (rw64 d open_ (fun s => (s.stack n).geom)
      (fun v s => if bit v 15 then s.modStack n (fun x => { x with relocated := false }) else s))
  | 0x08 => some (ro64 d open_ (fun s => BitVec.ofNat 64 (s.stack n).length))
  | 0x10 => some (rw32 d shut (fun s => (s.stack n).mapoutReq) (fun v s => s.mapoutReqOp n v))
  | 0x18 => some (ro64 d shut (fun s => (s.stack n).eccCnt))
  | 0x20 => some (ro32 d open_ (fun s => (s.stack n).therm.zeroExtend 64))
  | 0x28 => some (rw32 d shut (fun s => (s.stack n).margin) (fun v s => s.marginOp n v))
  | 0x30 => some (ro64 d shut (fun s => (s.stack n).marginErr))
  | _ => none

/-- A register of STEP[p]. -/
def stepReg (p : PartId) (o : Nat) : Option RegEntry :=
  let op := fun (s : State) (r : Requester) => s.opensPart r p
  let w := fun (i : Fin 5) (f : Step → Word64) => some (rw64 4 op (fun s => f (s.stepOf p)) (fun v s => s.stepRegOp p i v))
  match o with
  | 0x00 => w 0 (·.index)
  | 0x08 => w 1 (·.updateCount)
  | 0x10 => w 2 (·.skipCount)
  | 0x18 => w 3 (·.inputPos)
  | 0x20 => w 4 (·.jobSeed)
  | 0x28 => some (ro32 4 op (fun s => s.stepStatus p))
  | 0x30 => some (ro64 4 op (fun s => (s.stepOf p).verdict))
  | 0x38 => some ((rw32 4 op (fun s => (s.stepOf p).ctl)
      (fun v s => s.modStep p (fun t => { t with ctlShadow := v &&& 0xFFFFFF02 }))).shadow
      (fun s => (s.stepOf p).ctlShadow.zeroExtend 64))
  | _ => none

/-- A register of PART[p]. -/
def partReg (p : PartId) (o : Nat) : Option RegEntry :=
  let keep : Word64 := 0xC00007FF000007FF
  match o with
  | 0x00 => some (rw64 4 shut (fun s => (s.part p).cellsPending) (fun v s => s.modPart p (fun x => { x with cellsPending := v })))
  | 0x08 => some (ro64 4 open_ (fun s => (s.part p).cells))
  | _ => firstSome [
      (slotIx o 0x10 8 4).map (fun k => rw64 4 shut (fun s => vget (s.part p).rangePending k)
        (fun v s => s.modPart p (fun x => { x with rangePending := vset x.rangePending k (v &&& keep) }))),
      (slotIx o 0x30 8 4).map (fun k => ro64 4 open_ (fun s => vget (s.part p).range k))]

/-- A register of REG[p]. -/
def regReg (p : PartId) (o : Nat) : Option RegEntry :=
  let op := fun (s : State) (r : Requester) => s.opensPart r p
  let keep : Word64 := 0xC00FFF00000FFFFF
  match o with
  | 0x80 => some (ro64 4 op (fun s => (s.part p).epoch))
  | 0x88 => some (ro64 4 op (fun s => (s.part p).held))
  | 0x90 => some (ro64 4 op (fun s => (s.part p).borrowed))
  | _ => (slotIx o 0 8 16).map (fun n =>
      (rw64 4 op (fun s => vget (s.part p).stack n)
        (fun v s => s.modPart p (fun x => { x with stackShadow := vset x.stackShadow n (v &&& keep) }))).shadow
        (fun s => vget (s.part p).stackShadow n))

/-- A register of memory control. -/
def memCtlReg (o : Nat) : Option RegEntry :=
  let m := fun (f : MemCtl → MemCtl) (s : State) => { s with mem := f s.mem }
  match o with
  | 0x00 => some (ro64 4 open_ (fun s => BitVec.ofNat 64 s.stripeLen))
  | 0x08 => some (rw32 4 shut (fun s => s.mem.memCtl) (fun v s => s.bringupOp v))
  | 0x10 => some (rw32 4 shut (fun s => s.mem.eccCfg) (fun v s => m (fun x => { x with eccCfg := v &&& 0xFFFF }) s))
  | 0x18 => some (rw32 4 shut (fun s => s.mem.thermCfg) (fun v s => m (fun x => { x with thermCfg := v &&& 0xFFFF }) s))
  | 0x20 => some (rw32 4 shut (fun s => s.mem.scrubCtl) (fun v s => m (fun x => { x with scrubCtl := v &&& 0x8000001F }) s))
  | 0x28 => some (ro64 4 shut (fun s => s.scrubStatus))
  | 0x30 => some (rw64 4 shut noRead (fun v s => s.pageCmdOp v))
  | 0x38 => some (ro32 4 shut (fun s => s.mem.pageStatus.zeroExtend 64))
  | _ => none

/-! ### Collectives, HSP, sheets, twins and the host interface (Table 19-5) -/

/-- A register of collective control. -/
def collReg (o : Nat) : Option RegEntry :=
  match o with
  | 0x000 => some (rw32 4 shut (fun s => s.coll.cfg) (fun v s => { s with coll := { s.coll with cfg := v } }))
  | 0x008 => some (rw32 4 shut noRead32 (fun v s => s.collCmdOp v))
  | 0x010 => some (ro32 4 shut (fun s => s.coll.cmdStatus.zeroExtend 64))
  | _ => (slotIx o 0x100 8 4).map (fun p =>
      ro32 4 (fun s r => s.opensPart r p) (fun s => (s.part p).collSide.zeroExtend 64))

/-- The counters of COLL[f]. -/
def collCntReg (f : FabId) (o : Nat) : Option RegEntry :=
  match o with
  | 0x00 => some (ro64 (fabDie f) open_ (fun s => (s.fab f).collInst))
  | 0x08 => some (ro64 (fabDie f) open_ (fun s => (s.fab f).collFrames))
  | 0x10 => some (ro64 (fabDie f) open_ (fun s => (s.fab f).collWait))
  | 0x18 => some (ro64 (fabDie f) open_ (fun s => (s.fab f).collTime))
  | _ => none

/-- Whether a descriptor's registers are open to a requester. -/
def colldOpen (i : Nat) (s : State) (r : Requester) : Bool := s.opensPart r (s.colld i).desc.part

/-- COLLD_STATUS[i], COLLD_TAG[i] and COLLD_INST[i]. -/
def colldStatReg (i : Nat) (o : Nat) : Option RegEntry :=
  match o with
  | 0x00 => some ((ro32 4 (colldOpen i) (fun s => (s.colld i).statusWord)).by_ (colldOpen i)
      (fun _ v s => if bit v 28 then s.modColld i (fun x => { x with tagOut := false }) else s))
  | 0x08 => some (ro64 4 (colldOpen i) (fun s => (s.colld i).tag))
  | 0x10 => some (ro64 4 (colldOpen i) (fun s => (s.colld i).inst))
  | _ => none

/-- A register of the HSP. -/
def hspReg (o : Nat) : Option RegEntry :=
  match o with
  | 0x00 => some (rw32 4 shut (fun s => s.hsp.cfg) (fun v s => { s with hsp := { s.hsp with cfg := v &&& 0xF0000000 } }))
  | 0x08 => some (ro64 4 shut (fun s => s.hsp.late))
  | 0x10 => some (ro64 4 shut (fun s => s.hsp.atRisk))
  | _ => none

/-- A register of SHEET[p]. -/
def sheetReg (p : PartId) (o : Nat) : Option RegEntry :=
  let op := fun (s : State) (r : Requester) => s.opensPart r p
  match o with
  | 0x00 => some (rw32 4 op (fun s => (s.sheet p).ctl) (fun v s => s.sheetCtlOp p v))
  | 0x08 => some (rw64 4 op (fun s => (s.sheet p).atCount) (fun v s => s.sheetSet p (fun x => { x with atCount := v })))
  | 0x10 => some (rw64 4 op (fun s => (s.sheet p).list)
      (fun v s => s.sheetSet p (fun x => { x with list := v &&& 0x0000FFFFFFFFFFF0 })))
  | 0x18 => some (rw32 4 op (fun s => (s.sheet p).listN)
      (fun v s => s.sheetSet p (fun x => { x with listN := v &&& 0x1FFF })))
  | 0x20 => some (rw64 4 op (fun s => (s.sheet p).host) (fun v s => s.sheetSet p (fun x => { x with host := v })))
  | 0x28 => some (ro32 4 op (fun s => (s.sheet p).status.zeroExtend 64))
  | 0x30 => some (ro64 4 op (fun s => (s.sheet p).shipped))
  | 0x38 => some (ro64 4 op (fun s => (s.sheet p).taken))
  | _ => none

/-- A register of TWIN[p]. -/
def twinReg (p : PartId) (o : Nat) : Option RegEntry :=
  let op := fun (s : State) (r : Requester) => s.opensPart r p
  let ro := fun (f : Twin → Word64) => some (ro64 4 op (fun s => f (s.twin p)))
  let w64 := fun (f : Twin → Word64) (g : Word64 → Twin → Twin) =>
    some (rw64 4 op (fun s => f (s.twin p)) (fun v s => s.twinSet p (·.modTwin p (g v))))
  let w32 := fun (f : Twin → Word32) (g : Word32 → Twin → Twin) =>
    some (rw32 4 op (fun s => f (s.twin p)) (fun v s => s.twinSet p (·.modTwin p (g v))))
  match o with
  | 0x00 => some (rw32 4 op (fun s => (s.twin p).ctl) (fun v s => s.twinCtlOp p v))
  | 0x08 => w32 (·.peer) (fun v t => { t with peer := v &&& 0xFFFF })
  | 0x10 => w64 (·.holdBase) (fun v t => { t with holdBase := v &&& 0x0000FFFFFFE00000 })
  | 0x18 => w32 (·.holdCfg) (fun v t => { t with holdCfg := v })
  | 0x20 => w64 (·.ftBase) (fun v t => { t with ftBase := v &&& 0x0000FFFFFFE00000 })
  | 0x28 => w64 (·.param) (fun v t => { t with param := v &&& 0x0FFFFFFFFFFFF000 })
  | 0x30 => w64 (·.refixRec) (fun v t => { t with refixRec := v &&& 0x0000FFFFFFFFF000 })
  | 0x38 => w64 (·.list) (fun v t => { t with list := v &&& 0x0000FFFFFFFFFFF0 })
  | 0x40 => w32 (·.listN) (fun v t => { t with listN := v &&& 0x1FFF })
  | 0x48 => some (rw32 4 shut noRead32 (fun v s => s.restoreOp p v))
  | 0x50 => w64 (·.restoreDest) (fun v t => { t with restoreDest := v &&& 0x0000FFFFFFFFF000 })
  | 0x58 => some (ro32 4 op (fun s => (s.twin p).restoreStat.zeroExtend 64))
  | 0x60 => some (ro32 4 op (fun s => (s.twin p).status.zeroExtend 64))
  | 0x68 => ro (·.negDone)
  | 0x70 => ro (fun t => (vget t.buffers 0).count)
  | 0x78 => ro (fun t => (vget t.buffers 1).count)
  | 0xA0 => ro (·.pagesSent)
  | 0xA8 => ro (·.firstTouch)
  | 0xB0 => ro (·.resends)
  | 0xB8 => ro (·.holdNs)
  | _ => (slotIx o 0x80 8 4).map (fun i => rw64 4 op (fun s => vget (s.twin p).batch i)
      (fun v s => s.twinSet p (·.modTwin p (fun t => { t with batch := vset t.batch i v }))))

/-- A register of the host interface. -/
def hostReg (o : Nat) : Option RegEntry :=
  match o with
  | 0x00 => some (rw64 4 shut (fun s => s.host.mboxCtl.zeroExtend 64) (fun v s => s.mboxCtlOp v))
  | 0x08 => some (rw64 4 shut (fun s => s.host.ringBase) (fun v s => s.ringBaseOp v))
  | 0x10 => some (rw32 4 shut (fun s => s.host.ringCtl) (fun v s => s.ringCtlOp v))
  | 0x18 => some (ro64 4 shut (fun s => s.host.ringHead))
  | 0x20 => some (rw64 4 shut (fun s => s.host.ringTail) (fun v s => { s with host := { s.host with ringTail := v } }))
  | 0x28 => some (ro64 4 shut (fun s => s.host.ringDrop))
  | _ => (slotIx o 0x40 8 4).map (fun p =>
      (rw32 4 (fun s r => s.opensPart r p) noRead32 (fun v s => if bit v 0 then s.notifyOp p else s)).writable
        (fun s r => s.opensPart r p))

/-- A register of GRAD_GROUP[g]. -/
def groupReg (g : Fin 256) (o : Nat) : Option RegEntry :=
  let op := fun (s : State) (r : Requester) => s.opensPart r ((bfld (vget s.groups g).cfg 26 2).toFin)
  let m := fun (f : GradGroup → GradGroup) (s : State) => { s with groups := vmod s.groups g f }
  match o with
  | 0x00 => some ((rw32 4 op (fun s => (vget s.groups g).cfg) (fun v s => m (fun x => { x with cfgShadow := v &&& 0x8FFFFFFF }) s)).shadow
      (fun s => (vget s.groups g).cfgShadow.zeroExtend 64))
  | 0x08 => some ((rw64 4 op (fun s => (vget s.groups g).base)
      (fun v s => m (fun x => { x with baseShadow := v &&& 0x0000FFFFFFFFF000 }) s)).shadow
      (fun s => (vget s.groups g).baseShadow))
  | 0x10 => some ((rw32 4 op (fun s => (vget s.groups g).blocks) (fun v s => m (fun x => { x with blocksSh := v }) s)).shadow
      (fun s => (vget s.groups g).blocksSh.zeroExtend 64))
  | 0x18 => some (rw64 4 op (fun s => (vget s.groups g).status)
      (fun v s => if bit v 0 then m (fun x => { x with status := setBit x.status 0 false }) s else s))
  | _ => none

/-! ### Fabric and routing (Table 19-6) -/

/-- A register of FAB[f]. -/
def fabReg (f : FabId) (o : Nat) : Option RegEntry :=
  let d := fabDie f
  let ro := fun (g : Fab → Word64) => some (ro64 d shut (fun s => g (s.fab f)))
  match o with
  | 0x10000 => some (rw32 d shut (fun s => (s.fab f).robCfg) (fun v s => s.robCfgOp f v))
  | 0x10008 => some (ro64 d shut (fun s => s.robStatus f))
  | 0x10010 => ro (·.deflect)
  | 0x10018 => ro (·.expired)
  | 0x10020 => ro (·.stale)
  | 0x10028 => ro (·.dup)
  | 0x10030 => ro (·.gap)
  | 0x10038 => ro (·.holdIn)
  | _ => firstSome [
      (slotIx o 0 8 4096).map (fun i => rw64 d shut (fun s => Sparse.get 0 (s.fab f).grantTx i.val)
        (fun v s => s.grantOp f true i.val v)),
      (slotIx o 0x8000 8 4096).map (fun i => rw64 d shut (fun s => Sparse.get 0 (s.fab f).grantRx i.val)
        (fun v s => s.grantOp f false i.val v))]

/-- A register of PORT[k]. -/
def portReg (k : PortId) (o : Nat) : Option RegEntry :=
  let d := fabDie (dieOfPort k)
  match o with
  | 0x00 => some (ro32 d shut (fun s => (s.port k).status.zeroExtend 64))
  | 0x08 => some (rw32 d shut (fun s => (s.port k).ctl) (fun v s => s.modPort k (fun x => { x with ctl := v &&& 0xC000FFFF })))
  | 0x10 => some (ro64 d shut (fun s => (s.port k).peer))
  | 0x18 => some (ro64 d shut (fun s => (s.port k).txFrames))
  | 0x20 => some (ro64 d shut (fun s => (s.port k).rxFrames))
  | 0x28 => some (ro64 d shut (fun s => (s.port k).replays))
  | _ => none

/-- A routing register. -/
def routeReg (o : Nat) : Option RegEntry :=
  match o with
  | 0x000 => some (rw32 4 shut (fun s => s.route.routeCtl) (fun v s => s.routeCtlOp v))
  | 0x008 => some (ro64 4 open_ (fun s => s.route.statusWord))
  | 0x010 => some (rw32 4 shut (fun s => s.route.ageCfg) (fun v s => s.fabricCfgOp .ageCfg v))
  | _ => firstSome [
      (slotIx o 0x100 8 2).map (fun i => rw64 4 shut (fun s => (vget s.route.slots i).cfg) (fun v s => s.routeSlotOp i .cfg v)),
      (slotIx (o % 0x10000) 0 8 8192).bind (fun j => (slotIx (o / 0x10000) 1 1 2).map (fun i =>
        rw32 4 shut (fun s => Sparse.get 0 (vget s.route.slots i).map j.val)
          (fun v s => s.routeSlotOp i (.map j) (v.zeroExtend 64))))]

/-! ### FD1: meter, crossings, time, apply and self-test (Table 19-7) -/

/-- A register of the meter. -/
def meterReg (o : Nat) : Option RegEntry :=
  let die := fun (d : Fin 4) (r : Nat) =>
    let ro := fun (f : PwrDie → Word64) => some (ro64 5 open_ (fun s => f (s.pwrDie d)))
    match r with
    | 0x00 => some ((rw32 5 open_ (fun s => (s.pwrDie d).cfg) (fun v s => s.modPwrDie d (·.cfgOp v))).shadow
        (fun s => (s.pwrDie d).cfgPending.zeroExtend 64))
    | 0x08 => some (ro32 5 open_ (fun s => (s.pwrDie d).status.zeroExtend 64))
    | 0x10 => ro (·.throttleNs)
    | 0x18 => ro (·.thermNs)
    | 0x20 => some (ro64 5 open_ (fun s => (s.pwrDie d).stretchTime s.time))
    | 0x28 => ro (·.droops)
    | _ => none
  match o with
  | 0x000 => some ((rw32 5 shut (fun s => s.power.cap)
      (fun v s => s.modPower (fun x => { x with capShadow := v &&& 0xFFFF }))).shadow (fun s => s.power.capShadow.zeroExtend 64))
  | 0x008 => some (rw32 5 shut (fun s => s.power.emerg) (fun v s => s.emergWrite (bfld v 0 16) 2))
  | 0x010 => some (rw32 5 shut (fun s => s.power.ctl) (fun v s => s.pwrCtlOp v))
  | 0x018 => some (rw64 5 open_ (fun s => s.power.status)
      (fun v s => s.modPower (fun x => { x with status := x.status &&& ~~~(v &&& 0xFFF00001) })))
  | 0x020 => some (rw32 5 shut (fun s => s.power.therm) (fun v s => s.modPower (fun x => { x with therm := v &&& 0xFF0F })))
  | 0x028 => some (ro64 5 open_ (fun s => s.power.energy))
  | _ => firstSome [
      (slotIx (o / 0x40) 4 1 4).bind (fun d => die d (o % 0x40)),
      (slotIx o 0x200 8 16).map (fun k => ro64 5 shut (fun s => (vget s.power.phases k).sig))]

/-- A register of XD[j]. -/
def xdReg (j : JoinId) (o : Nat) : Option RegEntry :=
  let d : Fin 2 := if o / 8 % 2 = 0 then 0 else 1
  let ro := fun (f : XdDir → Word64) => some (ro64 5 shut (fun s => f ((s.xd j).dir d)))
  match o with
  | 0x00 => some (ro32 5 shut (fun s => (s.xd j).statusWord))
  | 0x08 => some (rw32 5 shut (fun s => (s.xd j).ctl) (fun v s => s.xdForceOp j v))
  | 0x10 | 0x18 => ro (·.spareUsed)
  | 0x20 | 0x28 => ro (·.failed)
  | 0x30 | 0x38 => ro (·.lastEvent)
  | 0x40 | 0x48 => ro (·.errCnt)
  | 0x50 | 0x58 => ro (·.beats)
  | _ => none

/-- A register of time and apply. -/
def timeReg (o : Nat) : Option RegEntry :=
  match o with
  | 0x000 => some (ro64 5 open_ (fun s => s.route.timeStatus))
  | _ => (slotIx o 0x100 8 4).map (fun p =>
      rw64 5 shut (fun s => (s.part p).cfgApply) (fun v s => if bit v 0 then s.cfgApplyOp p else s))

/-- A register of self-test. -/
def testReg (o : Nat) : Option RegEntry :=
  let cls := fun (k : Fin 4) (r : Nat) =>
    let ro := fun (f : SelfTest → Vector Word64 4) => some (ro64 5 shut (fun s => vget (f s.test) k))
    match r with
    | 0x00 => some (rw64 5 shut (fun s => vget s.test.cls k)
        (fun v s => s.modTest (fun t => { t with cls := vmod t.cls k (fun w => setFld w 32 20 (fld v 32 20)) })))
    | 0x08 => ro (·.last)
    | 0x10 => ro (·.slices)
    | 0x18 => ro (·.yields)
    | 0x20 => ro (·.found)
    | _ => none
  match o with
  | 0x000 => some (rw32 5 shut (fun s => s.test.ctl) (fun v s => s.modTest (fun t => { t with ctl := v &&& 0x8F000000 })))
  | 0x008 => some (rw32 5 shut (fun s => s.test.limit) (fun v s => s.modTest (fun t => { t with limit := v &&& 0x00FFFFFF })))
  | 0x010 => some (rw32 5 shut (fun s => s.test.pinFault)
      (fun v s => if bit v 31 then s.modTest (fun t => { t with pinFault := setBit t.pinFault 31 false }) else s))
  | 0x018 => some (rw64 5 shut noRead (fun v s => s.patOp v))
  | 0x020 => some (ro32 5 shut (fun s => s.test.patStat.zeroExtend 64))
  | 0x028 => some (rw32 5 shut (fun s => s.test.slCtl) (fun v s => s.slCtlOp v))
  | 0x030 => some (ro32 5 shut (fun s => BitVec.ofNat 64 (fld s.test.slCtl 31 1 * 2 ^ 31 + s.test.slLat.toNat)))
  | _ => firstSome [
      (slotIx (o / 0x40) 4 1 4).bind (fun k => cls k (o % 0x40)),
      (slotIx o 0x200 8 32).map (fun j => rw32 5 shut (fun s => vget s.test.slSel j) (fun v s => s.slSelOp j v))]

/-! ### FD1 AUX (Table 19-8) -/

/-- A register of the AUX area. -/
def auxReg (o : Nat) : Option RegEntry :=
  let ag := fun (d : Fin 6) (r : Nat) =>
    match r with
    | 0x00 => some (ro32 5 shut (fun s => ageWord (vget s.power.ages d) d))
    | 0x08 => some (ro64 5 shut (fun s => (vget s.power.ages d).offsetLo))
    | 0x10 => some (ro64 5 shut (fun s => (vget s.power.ages d).offsetHi))
    | 0x18 => some (ro64 5 shut (fun s => s.start.hours))
    | _ => none
  (match o with
   | 0x000 => some (ro64 5 open_ (fun _ => idProduct))
   | 0x008 => some (ro64 5 open_ (fun _ => idFeatures))
   | 0x010 => some (ro64 5 open_ (fun _ => idSerial))
   | 0x100 => some (rw32 5 shut (fun s => s.route.nodeId) (fun v s => s.fabricCfgOp .nodeId v))
   | 0x108 => some (rw32 5 shut (fun s => s.route.timeCtl) (fun v s => s.fabricCfgOp .timeCtl v))
   | 0x110 => some (ro32 5 shut (fun s => s.route.darkWord))
   | 0x118 => some (ro64 5 shut (fun s => s.route.darkCnt))
   | 0x200 => some (rw64 5 shut (fun s => s.faults.faultCfg)
       (fun v s => s.modFaults (fun x => { x with faultCfg := v &&& 0xFFFFFFFFFFFFFFE1 })))
   | 0x208 => some (rw32 5 shut noRead32 (fun v s => s.resetCmdOp v))
   | 0x210 => some (ro64 5 shut (fun s => s.faults.resetWord))
   | 0x218 => some (ro64 5 shut (fun s => s.faults.errSeq))
   | 0x220 => some (ro32 5 shut (fun s => s.faults.errWord))
   | 0x300 => some (ro64 5 open_ (fun s => s.startupWord))
   | 0x308 => some (ro64 5 shut (fun s => s.test.stDebug))
   | 0x310 => some (ro64 5 shut (fun s => s.test.debugEnd))
   | 0x500 => some (rw32 5 shut (fun s => s.power.ageCfg) (fun v s => s.ageCfgOp v))
   | _ => firstSome [
       (slotIx o 0x240 8 5).map (fun l => ro64 5 shut (fun s => vget s.faults.resetCnt l)),
       (slotIx (o / 0x20) 0x20 1 6).bind (fun d => ag d (o % 0x20))]).map RegEntry.inAux

/-! ### The map (Tables 19-1, 19-2) -/

/-- The FD0 area, from 0x400_0000. -/
def fd0Reg (o : Nat) : Option RegEntry :=
  let k := o / 0x1000
  let r := o % 0x1000
  let part := fun (stride : Nat) (f : PartId → Nat → Option RegEntry) => (slotIx (r / stride) 0 1 4).bind (fun p => f p (r % stride))
  match k with
  | 0x0 => part 0x100 stepReg
  | 0x1 => if r = 0x400 then some (rw64 4 shut (fun s => s.partCtl) (fun v s => if bit v 0 then s.partApplyOp else s))
    else part 0x100 partReg
  | 0x2 => part 0x100 regReg
  | 0x3 => memCtlReg r
  | 0x4 => if 0x200 ≤ r then collCntReg 0 (r - 0x200) else collReg r
  | 0x5 => hspReg r
  | 0x6 => part 0x100 sheetReg
  | 0x8 => part 0x100 twinReg
  | 0x9 => hostReg r
  | 0xA => (slotIx r 0 8 256).map (fun i => rw32 4 shut (fun s => s.doorbellCfg i) (fun v s => s.doorbellOp i v))
  | _ => firstSome [
      (slotIx (o / 0x20) (0x10000 / 0x20) 1 256).bind (fun g => groupReg g (o % 0x20)),
      (slotIx (o / 0x10) (0x20000 / 0x10) 1 4096).bind (fun i =>
        if o % 0x10 = 0 then some (rw64 4 shut (fun s => (s.region i).1) (fun v s => s.regionOp i false v))
        else if o % 0x10 = 8 then some (rw64 4 shut (fun s => (s.region i).2) (fun v s => s.regionOp i true v))
        else none),
      (slotIx (o / 0x80) (0x100000 / 0x80) 1 4096).bind (fun i => (slotIx (o % 0x80) 0 8 16).map (fun w =>
        rw64 4 (colldOpen i.val) (fun s => vget (s.colld i.val).words w) (fun v s => s.colldWordOp i.val w v))),
      (slotIx (o / 0x20) (0x180000 / 0x20) 1 4096).bind (fun i => colldStatReg i.val (o % 0x20)),
      if 0x200000 ≤ o ∧ o < 0x220000 then fabReg 0 (o - 0x200000) else none,
      (slotIx (o / 0x100) (0x300000 / 0x100) 1 12).bind (fun k => if dieOfPort k = 0 then portReg k (o % 0x100) else none),
      if 0x400000 ≤ o ∧ o < 0x430000 then routeReg (o - 0x400000) else none]

/-- The FD1 area, from 0x500_0000. -/
def fd1Reg (o : Nat) : Option RegEntry :=
  let k := o / 0x1000
  let r := o % 0x1000
  match k with
  | 0x0 => meterReg r
  | 0x1 => (slotIx (r / 0x100) 0 1 8).bind (fun j => xdReg j (r % 0x100))
  | 0x2 => timeReg r
  | 0x3 => testReg r
  | 0x4 => if 0x200 ≤ r then collCntReg 1 (r - 0x200) else none
  | _ => firstSome [
      if 0x200000 ≤ o ∧ o < 0x220000 then fabReg 1 (o - 0x200000) else none,
      (slotIx (o / 0x100) (0x300000 / 0x100) 1 12).bind (fun k => if dieOfPort k = 1 then portReg k (o % 0x100) else none)]

/-- A compute die's area: 16 cells and 4 stacks. -/
def cdReg (d : Fin 4) (o : Nat) : Option RegEntry :=
  firstSome [
    (slotIx (o / 0x10000) 0 1 16).bind (fun i => cellReg ⟨16 * d.val + i.val, by omega⟩ (o % 0x10000)),
    (slotIx (o / 0x1000) 0x100 1 4).bind (fun i => memReg ⟨4 * d.val + i.val, by omega⟩ (o % 0x1000))]

/-- The register whose 8-byte slot starts at an offset below 0x800_0000 (R576, R577). -/
def regAt (o : Nat) : Option RegEntry :=
  let r := o % 0x1000000
  match o / 0x1000000 with
  | 0 => cdReg 0 r
  | 1 => cdReg 1 r
  | 2 => cdReg 2 r
  | 3 => cdReg 3 r
  | 4 => fd0Reg r
  | 5 => fd1Reg r
  | 6 => auxReg r
  | _ => none

/-- An access to an offset below 0x1000_0000: the register of its slot, the byte within the slot, and whether it names
the pending view (R533). -/
structure RegAccess where
  entry   : RegEntry
  low     : Nat
  pending : Bool

/-- The access an offset makes. -/
def regAccess (o : Nat) : Option RegAccess :=
  (regAt (o % 0x8000000 / 8 * 8)).map (fun e => ⟨e, o % 8, decide (0x8000000 ≤ o)⟩)

/-- What a read of the whole register gives. -/
def RegAccess.value (a : RegAccess) (s : State) : Word64 := if a.pending then a.entry.pend s else a.entry.get s

/-! ### sc.rdreg and sc.wrreg (R221, R222, R585) -/

/-- The offset a context's access names, if it lies in the region. -/
def State.regOffset (s : State) (a : At) (f : FmtSI) : Option Nat :=
  let o := (s.sreg a f.sa + f.imm.signExtend 64).toNat
  if o < 0x10000000 then some o else none

/-- A context's access from Read on: REG_DENIED where no register stands, MISALIGNED where the address is not a multiple
of the register's width, REG_DENIED where R585 does not open it, else its work. -/
def State.ctxReg (s : State) (a : At) (f : FmtSI) (op : Byte) (ok : RegEntry → Bool) (body : RegAccess → Res) : Res :=
  let addr := BitVec.ofNat 64 0x600000000000 + (s.sreg a f.sa + f.imm.signExtend 64)
  match (s.regOffset a f).bind regAccess with
  | none => s.trap a 1 op 0x07 addr
  | some r =>
    if r.low % (if r.entry.wide then 8 else 4) ≠ 0 then s.trap a 1 op 0x05 addr
    else if r.low ≠ 0 ∨ ok r.entry = false then s.trap a 1 op 0x07 addr
    else body r

/-- What instructions read the update counts as: during FIX, the values from before the increment of R48 step 3
(R51). -/
def State.countsAtFix (s : State) : State :=
  (allFin 4).foldl (fun t p => t.modStep p (fun x => { x with updateCount := s.countAtFix p })) s

/-- SD := register (R51, R222). A register open only for writing reads zero. A word that arrives uncorrectable is
POISON (Table 6-12). -/
def execScRdreg (a : At) (p : Pred) (x : RingRead) (s : State) : Res :=
  let f := x.form
  s.issue a p 1 0x42 ⟨true, fmtSIOk f true true false && fnOk f.fn 0⟩ [f.sd, f.sa] (fun s =>
    let me : Requester := .ctx a.cell a.slot
    s.ctxReg a f 0x42 (fun e => e.rd s me) (fun r =>
      if x.bad then s.trap a 1 0x42 0x08 (BitVec.ofNat 64 0x600000000000 + (s.sreg a f.sa + f.imm.signExtend 64))
      else s.finish a (·.setS f.sd (if s.ringReaches me r.entry.die then r.value s.countsAtFix else 0))))

/-- Register := SD (R222). -/
def execScWrreg (a : At) (p : Pred) (f : FmtSI) (s : State) : Res :=
  s.issue a p 1 0x43 ⟨true, fmtSIOk f true true false && fnOk f.fn 0⟩ [f.sd, f.sa] (fun s =>
    let me : Requester := .ctx a.cell a.slot
    s.ctxReg a f 0x43 (fun e => e.wr s me) (fun r =>
      let t := s.countIssue a
      .next ((if s.ringReaches me r.entry.die then r.entry.put me (s.sreg a f.sd) t else t.regIgnored r.entry.die).retire a)))

/-! ### Host and management (R11, R523, R577, R587) -/

/-- Whether a register can be reached by the host or the management path (R25, R587). -/
def State.reachable (s : State) (r : Requester) (e : RegEntry) : Bool := (e.aux || s.coreUp) && s.ringReaches r e.die

/-- A naturally aligned write of 4 or 8 bytes by the host or the management path. One to an unassigned offset is ignored by
the die at which it enters the ring, with REG_WRITE_IGNORED (R576, R577, Table 15-4). -/
def State.hostWrite (s : State) (r : Requester) (o : Nat) (bytes8 : Bool) (v : Word64) : State :=
  match regAccess o with
  | none => s.regIgnored (entryDie r)
  | some a =>
    if s.reachable r a.entry = false then s.regIgnored a.entry.die
    else if a.entry.wide then (if bytes8 then a.entry.put r v s else s.regIgnored a.entry.die)
    else if a.low = 0 then a.entry.put r (v &&& 0xFFFFFFFF) s
    else s.regIgnored (entryDie r)

/-- A naturally aligned read of 4 or 8 bytes by the host or the management path. -/
def State.hostRead (s : State) (r : Requester) (o : Nat) (bytes8 : Bool) : Word64 :=
  match regAccess o with
  | none => 0
  | some a =>
    if s.reachable r a.entry = false then 0
    else
      let v := a.value s
      if bytes8 then v
      else if a.low = 0 then v &&& 0xFFFFFFFF
      else if a.entry.wide then v >>> 32 else 0

/-- REGISTER_WRITE: a write by its access types (R11). A context's is sc.wrreg's access (R585). -/
def execRegisterWrite (by_ : Requester) (offset : BitVec 28) (bytes8 : Bool) (v : Word64) (s : State) : Res :=
  let o := offset.toNat
  match by_ with
  | .ctx c i =>
    match regAccess o with
    | none => .next (s.regDenied ⟨c, i⟩ 0x43)
    | some a =>
      if a.low % (if a.entry.wide then 8 else 4) ≠ 0 then .next (s.coreFault ⟨c, i⟩ 1 0x43 0x05 0)
      else if a.low ≠ 0 ∨ a.entry.wr s by_ = false then .next (s.regDenied ⟨c, i⟩ 0x43)
      else .next (if s.ringReaches by_ a.entry.die then a.entry.put by_ v s else s.regIgnored a.entry.die)
  | _ => if o % (if bytes8 then 8 else 4) = 0 then .next (s.hostWrite by_ o bytes8 v) else .next s

/-- What a read of the host completes with: a value, or Unsupported Request. -/
def State.completes (s : State) (v : Option Word64) : State :=
  { s with host := { s.host with lastRead := v, retried := false } }

/-- The low bytes of a number that a write of a length carries, over what is there. -/
def overlay (old new : Word64) (at_ len : Nat) : Word64 :=
  (List.range len).foldl (fun w i => setFld w (8 * (at_ + i)) 8 (fld new (8 * i) 8)) old

/-- BAR0 (R523): anything but a naturally aligned access of 4 or 8 bytes completes with Unsupported Request. -/
def State.bar0 (s : State) (write : Bool) (o len : Nat) (v : Word64) : State :=
  let ok := (len == 4 || len == 8) && decide (o % len = 0)
  if write then (if ok then s.hostWrite .host o (len == 8) v else s)
  else s.completes (if ok then some (s.hostRead .host o (len == 8)) else none)

/-- Double word k of entry i of the MSI-X table (PCIe; log entry 56): address, upper address, data, vector control. -/
def HostIf.vectorWord (h : HostIf) (i : Fin 16) (k : Nat) : Word32 :=
  let e := vget h.vectors i
  if k = 0 then bfld e.1 0 32 else if k = 1 then bfld e.1 32 32 else if k = 2 then e.2.1 else e.2.2

/-- A byte of BAR2 as it reads (Table 17-4); doorbells read zero. -/
def HostIf.bar2Byte (h : HostIf) (o : Nat) : Byte :=
  if o = 0x1000 then h.mboxCtl.zeroExtend 8
  else if 0x2000 ≤ o ∧ o < 0x3000 then h.request.getD (o - 0x2000) 0
  else if 0x3000 ≤ o ∧ o < 0x4000 then h.reply.getD (o - 0x3000) 0
  else if 0x8000 ≤ o ∧ o < 0x8100 then bfld (h.vectorWord (Fin.ofNat 16 ((o - 0x8000) / 16)) (o % 16 / 4)) (8 * (o % 4)) 8
  else if o = 0x9000 ∨ o = 0x9001 then bfld h.pend (8 * (o - 0x9000)) 8
  else 0

/-- A byte written to the MSI-X table. -/
def HostIf.tableByte (h : HostIf) (o : Nat) (b : Byte) : HostIf :=
  let k := o % 16
  { h with vectors := vmod h.vectors (Fin.ofNat 16 ((o - 0x8000) / 16)) (fun (e : Word64 × Word32 × Word32) =>
      if k < 8 then (setFld e.1 (8 * k) 8 b.toNat, e.2.1, e.2.2)
      else if k < 12 then (e.1, setFld e.2.1 (8 * (k - 8)) 8 b.toNat, e.2.2)
      else if k = 12 then (e.1, e.2.1, (bfld b 0 1 : BitVec 1).zeroExtend 32) else e) }

/-- BAR2 (Table 17-4): an 8-byte write at the offset of a doorbell rings it; the buffer, MBOX_CTL and the MSI-X table are
written by bytes, of which a request carries at most 8; other writes are ignored. -/
def State.bar2 (s : State) (write : Bool) (o len : Nat) (v : Word64) : State :=
  let n := min len 8
  if !write then s.completes (some (BitVec.ofNat 64 (ofLe ((List.range n).map (fun i => s.host.bar2Byte (o + i))))))
  else if o < 0x1000 then (if o % 16 = 0 ∧ len = 8 then s.ring (Fin.ofNat 256 (o / 16)) v else s)
  else if o = 0x1000 then s.mboxCtlOp (overlay 0 v 0 n)
  else if 0x2000 ≤ o ∧ o < 0x3000 then
    let q := (List.range n).foldl (fun (l : List Byte) i => l.set (o - 0x2000 + i) (bfld v (8 * i) 8)) (slice s.host.request 0 4096)
    { s with host := { s.host with request := q } }
  else if 0x8000 ≤ o ∧ o < 0x8100 then
    let h := (List.range n).foldl (fun (h : HostIf) i =>
      if o + i < 0x8100 then h.tableByte (o + i) (bfld v (8 * i) 8) else h) s.host
    ({ s with host := h }).sendPending
  else s

/-- Where the HCP's MSI-X capability begins. -/
def msixCapAt : Nat := 0x40 + 4 * (Config.msixCap % 46)

/-- A double word of a port's configuration space by the layout of PCIe (log entry 56); what the specification does not
give is free. -/
def State.cfgWord (s : State) (hsp : Bool) (o : Nat) : Word32 :=
  let x := if hsp then s.host.hsp else s.host.hcp
  let free : Word32 := bfld (Config.freeWord s.freeCtr) 0 32
  if o = 0 then deviceId hsp
  else if o = 4 then setFld free 0 16 x.command.toNat
  else if o = 0x10 then (if hsp then 0 else bfld x.bar0 0 32 ||| 4)
  else if o = 0x14 then bfld x.bar0 32 32
  else if o = 0x18 then (if hsp then 0 else bfld x.bar2 0 32 ||| 4)
  else if o = 0x1C then bfld x.bar2 32 32
  else if o = 0x20 ∨ o = 0x24 then 0
  else if !hsp && o == msixCapAt then setFld (setFld (setFld free 0 8 0x11) 16 14 15) 30 2 x.msixCtl.toNat
  else if !hsp && o == msixCapAt + 4 then 0x8002
  else if !hsp && o == msixCapAt + 8 then 0x9002
  else free

/-- A double word is written: the command register, BAR0 of 256 MiB, BAR2 of 64 KiB, the MSI-X enable and function mask; the
HSP has no BAR and no MSI-X. -/
def PciePort.put (x : PciePort) (hsp : Bool) (o : Nat) (v : Word32) : PciePort :=
  if o = 4 then { x with command := bfld v 0 16 &&& 0x0546 }
  else if hsp then x
  else if o = 0x10 then { x with bar0 := setFld x.bar0 28 4 (fld v 28 4) }
  else if o = 0x14 then { x with bar0 := setFld x.bar0 32 32 v.toNat }
  else if o = 0x18 then { x with bar2 := setFld x.bar2 16 16 (fld v 16 16) }
  else if o = 0x1C then { x with bar2 := setFld x.bar2 32 32 v.toNat }
  else if o = msixCapAt then { x with msixCtl := bfld v 30 2 }
  else x

/-- A configuration request of up to 4 bytes within a double word. -/
def State.config (s : State) (hsp write : Bool) (o len : Nat) (v : Word64) : State :=
  let a := o / 4 * 4
  let n := min len (4 - o % 4)
  let w := s.cfgWord hsp a
  if write then
    let y : Word32 := bfld (overlay (w.zeroExtend 64) v (o % 4) n) 0 32
    if hsp then { s with host := { s.host with hsp := s.host.hsp.put true a y } }
    else ({ s with host := { s.host with hcp := s.host.hcp.put false a y } }).sendPending
  else { s with freeCtr := s.freeCtr + 1 }.completes (some (BitVec.ofNat 64 (fld w (8 * (o % 4)) (8 * n))))

/-- BAR0_ACCESS: a request of the host by the HCP or the HSP (Table 17-2, R523): to BAR0, to BAR2, or to the configuration
space, which answers with Request Retry Status until the package is host-visible (R525). A memory request to the HSP
completes with Unsupported Request. -/
def execBar0Access (req : HostReq) (offset : BitVec 28) (len : Nat) (v : Word64) (s : State) : Res :=
  let o := offset.toNat
  if (if req.hsp then s.host.hspUp else s.host.hcpUp) = false then .next s
  else
    match req.space with
    | .config =>
      .next (if s.hostVisible then s.config req.hsp req.write (o % 4096) len v
        else { s with host := { s.host with retried := true } })
    | .bar0 => .next (if req.hsp then (if req.write then s else s.completes none) else s.bar0 req.write o len v)
    | .bar2 => .next (if req.hsp then (if req.write then s else s.completes none) else s.bar2 req.write (o % 0x10000) len v)

/-! ### The register ring fails (R25) -/

/-- A read of a register that its originator issues again: a context's into its scalar register, the host's by BAR0; what
the management core does with what it reads is not described. -/
def State.readAgain (s : State) (w : RegFlight) (a : RegAccess) (sd : BitVec 5) : State :=
  match w.by_ with
  | .ctx c i =>
    s.modCtx ⟨c, i⟩ (·.setS sd
      (if a.entry.rd s w.by_ && s.ringReaches w.by_ a.entry.die then a.value s.countsAtFix else 0))
  | .host => { s with host := { s.host with lastRead := some (s.hostRead .host w.offset.toNat w.bytes8) } }
  | .mgmt => s

/-- REGISTER_RING_JOIN_FAIL: a join of the ring is disabled, and register traffic that crossed it takes the other
direction. An access in flight on it completes REG_RETRY and its originator reissues it: it is performed, over the joins
that are left. -/
def execRegisterRingJoinFail (x : RingFail) (s : State) : Res :=
  let t := { s with route := { s.route with ringJoins := setBit s.route.ringJoins x.join.val false } }
  match x.inFlight with
  | none => .next t
  | some w =>
    match regAccess w.offset.toNat with
    | none => .next t
    | some a =>
      match s.route.ringWay (entryDie w.by_) a.entry.die with
      | none => .next t
      | some l =>
        if l.contains x.join then
          let u := { t with mgmt := { t.mgmt with regRetries := t.mgmt.regRetries + 1 } }
          match w.op with
          | .write v => execRegisterWrite w.by_ w.offset w.bytes8 v u
          | .read sd => .next (u.readAgain w a sd)
        else .next t

/-! ### A word that is no instruction (R176) -/

/-- The opcodes of each class at ISA level 1 (Tables 7-2 to 7-15). -/
def opcodeAllocated (cls : BitVec 4) (op : Byte) : Bool :=
  let o := op.toNat
  let within := fun (a b : Nat) => decide (a ≤ o) && decide (o ≤ b)
  match cls.toNat with
  | 1 => within 0x01 0x10 || within 0x20 0x27 || within 0x30 0x39 || within 0x40 0x43 || within 0x50 0x57 ||
      within 0x60 0x62 || within 0x70 0x73
  | 2 => within 0x01 0x05
  | 3 => within 0x01 0x0B || within 0x10 0x13 || within 0x18 0x1E || within 0x20 0x21 || within 0x28 0x29 || o == 0x30 ||
      within 0x38 0x39 || within 0x40 0x41 || within 0x81 0x84 || within 0x87 0x88
  | 4 => within 0x01 0x03
  | 5 => within 0x01 0x07
  | 6 => within 0x01 0x07
  | 7 => within 0x01 0x04
  | 8 => within 0x01 0x03
  | _ => false

/-- ILLEGAL_OPCODE: a fetched word whose class or opcode is not allocated. CLASS is bits [63:60], OPCODE bits [59:52]. -/
def execIllegalOpcode (a : At) (word : Word64) (s : State) : Res :=
  let cls := bfld word 60 4
  let op := bfld word 52 8
  if (s.cell a.cell).issues a.slot = false ∨ opcodeAllocated cls op = true then .next s
  else
    match s.fetchFault a with
    | some code =>
      if code = 0x08 then .next (s.corePoison a cls op (s.slot a).fetchAddr 8)
      else .next (s.coreFault a cls op code (BitVec.ofNat 64 (s.slot a).fetchAddr))
    | none => .next (s.coreFault a cls op 0x01 0)

end Sys2Proof.Machine
end

