-- ==== Sys2Proof/Machine/Dispatch.lean ====
section
/-!
DEFINITION. The meaning of every command: one arm per constructor of `Instr`, each one direct call.
-/
namespace Sys2Proof.Machine

/-- What a command does to the state other than the queue. -/
def exec (i : Instr) (s : State) : Host.Outcome State Fault Refusal :=
  match i with
  | .scAdd at_ p f => Sys2Proof.Machine.execScAdd at_ p f s
  | .scSub at_ p f => Sys2Proof.Machine.execScSub at_ p f s
  | .scMul at_ p f => Sys2Proof.Machine.execScMul at_ p f s
  | .scMulhu at_ p f => Sys2Proof.Machine.execScMulhu at_ p f s
  | .scDiv at_ p f => Sys2Proof.Machine.execScDiv at_ p f s
  | .scDivu at_ p f => Sys2Proof.Machine.execScDivu at_ p f s
  | .scRem at_ p f => Sys2Proof.Machine.execScRem at_ p f s
  | .scRemu at_ p f => Sys2Proof.Machine.execScRemu at_ p f s
  | .scAnd at_ p f => Sys2Proof.Machine.execScAnd at_ p f s
  | .scOr at_ p f => Sys2Proof.Machine.execScOr at_ p f s
  | .scXor at_ p f => Sys2Proof.Machine.execScXor at_ p f s
  | .scShl at_ p f => Sys2Proof.Machine.execScShl at_ p f s
  | .scShr at_ p f => Sys2Proof.Machine.execScShr at_ p f s
  | .scSar at_ p f => Sys2Proof.Machine.execScSar at_ p f s
  | .scCmp at_ p f => Sys2Proof.Machine.execScCmp at_ p f s
  | .scPop at_ p f => Sys2Proof.Machine.execScPop at_ p f s
  | .scAddi at_ p f => Sys2Proof.Machine.execScAddi at_ p f s
  | .scAndi at_ p f => Sys2Proof.Machine.execScAndi at_ p f s
  | .scOri at_ p f => Sys2Proof.Machine.execScOri at_ p f s
  | .scXori at_ p f => Sys2Proof.Machine.execScXori at_ p f s
  | .scCmpi at_ p f => Sys2Proof.Machine.execScCmpi at_ p f s
  | .scMovi at_ p f => Sys2Proof.Machine.execScMovi at_ p f s
  | .scLdhi at_ p f => Sys2Proof.Machine.execScLdhi at_ p f s
  | .scShi at_ p f => Sys2Proof.Machine.execScShi at_ p f s
  | .scFadd at_ p f => Sys2Proof.Machine.execScFadd at_ p f s
  | .scFsub at_ p f => Sys2Proof.Machine.execScFsub at_ p f s
  | .scFmul at_ p f => Sys2Proof.Machine.execScFmul at_ p f s
  | .scFfma at_ p f => Sys2Proof.Machine.execScFfma at_ p f s
  | .scFdiv at_ p f => Sys2Proof.Machine.execScFdiv at_ p f s
  | .scFsqrt at_ p f => Sys2Proof.Machine.execScFsqrt at_ p f s
  | .scFrcp at_ p f => Sys2Proof.Machine.execScFrcp at_ p f s
  | .scFtr at_ p f => Sys2Proof.Machine.execScFtr at_ p f s
  | .scFcmp at_ p f => Sys2Proof.Machine.execScFcmp at_ p f s
  | .scFcvt at_ p f => Sys2Proof.Machine.execScFcvt at_ p f s
  | .scLd at_ p f => Sys2Proof.Machine.execScLd at_ p f s
  | .scSt at_ p f => Sys2Proof.Machine.execScSt at_ p f s
  | .scRdreg at_ p f => Sys2Proof.Machine.execScRdreg at_ p f s
  | .scWrreg at_ p f => Sys2Proof.Machine.execScWrreg at_ p f s
  | .scTld at_ p f => Sys2Proof.Machine.execScTld at_ p f s
  | .scTst at_ p f => Sys2Proof.Machine.execScTst at_ p f s
  | .scTset at_ p f => Sys2Proof.Machine.execScTset at_ p f s
  | .scTbase at_ p f => Sys2Proof.Machine.execScTbase at_ p f s
  | .scQld at_ p f => Sys2Proof.Machine.execScQld at_ p f s
  | .scQst at_ p f => Sys2Proof.Machine.execScQst at_ p f s
  | .scQset at_ p f => Sys2Proof.Machine.execScQset at_ p f s
  | .scQaddr at_ p f => Sys2Proof.Machine.execScQaddr at_ p f s
  | .scBr at_ p f => Sys2Proof.Machine.execScBr at_ p f s
  | .scBri at_ p f => Sys2Proof.Machine.execScBri at_ p f s
  | .scCall at_ p f => Sys2Proof.Machine.execScCall at_ p f s
  | .scNop at_ p f => Sys2Proof.Machine.execScNop at_ p f s
  | .scExit at_ p f => Sys2Proof.Machine.execScExit at_ p f s
  | .scTime at_ p f => Sys2Proof.Machine.execScTime at_ p f s
  | .scId at_ p f => Sys2Proof.Machine.execScId at_ p f s
  | .faultStopComplete at_ => Sys2Proof.Machine.execFaultStopComplete at_ s
  | .mxMma at_ p f => Sys2Proof.Machine.execMxMma at_ p f s
  | .mxDrain at_ p f => Sys2Proof.Machine.execMxDrain at_ p f s
  | .mxVsave at_ p f => Sys2Proof.Machine.execMxVsave at_ p f s
  | .mxVload at_ p f => Sys2Proof.Machine.execMxVload at_ p f s
  | .mxVfree at_ p f => Sys2Proof.Machine.execMxVfree at_ p f s
  | .plateIssue c => Sys2Proof.Machine.execPlateIssue c s
  | .stationaryTileLoaded c => Sys2Proof.Machine.execStationaryTileLoaded c s
  | .plateRowCycle c => Sys2Proof.Machine.execPlateRowCycle c s
  | .vatPromotion c => Sys2Proof.Machine.execVatPromotion c s
  | .vatRowTransfer c => Sys2Proof.Machine.execVatRowTransfer c s
  | .vatClearDone c => Sys2Proof.Machine.execVatClearDone c s
  | .vatApertureAccess by_ c isWrite offset data => Sys2Proof.Machine.execVatApertureAccess by_ c isWrite offset data s
  | .vxAdd at_ p f => Sys2Proof.Machine.execVxAdd at_ p f s
  | .vxSub at_ p f => Sys2Proof.Machine.execVxSub at_ p f s
  | .vxMul at_ p f => Sys2Proof.Machine.execVxMul at_ p f s
  | .vxFma at_ p f => Sys2Proof.Machine.execVxFma at_ p f s
  | .vxNeg at_ p f => Sys2Proof.Machine.execVxNeg at_ p f s
  | .vxAbs at_ p f => Sys2Proof.Machine.execVxAbs at_ p f s
  | .vxMin at_ p f => Sys2Proof.Machine.execVxMin at_ p f s
  | .vxMax at_ p f => Sys2Proof.Machine.execVxMax at_ p f s
  | .vxSel at_ p f => Sys2Proof.Machine.execVxSel at_ p f s
  | .vxCmp at_ p f => Sys2Proof.Machine.execVxCmp at_ p f s
  | .vxCvt at_ p f => Sys2Proof.Machine.execVxCvt at_ p f s
  | .vxDiv at_ p f => Sys2Proof.Machine.execVxDiv at_ p f s
  | .vxSqrt at_ p f => Sys2Proof.Machine.execVxSqrt at_ p f s
  | .vxRecip at_ p f => Sys2Proof.Machine.execVxRecip at_ p f s
  | .vxRsqrt at_ p f => Sys2Proof.Machine.execVxRsqrt at_ p f s
  | .vxExp at_ p f => Sys2Proof.Machine.execVxExp at_ p f s
  | .vxExp2 at_ p f => Sys2Proof.Machine.execVxExp2 at_ p f s
  | .vxLog at_ p f => Sys2Proof.Machine.execVxLog at_ p f s
  | .vxLog2 at_ p f => Sys2Proof.Machine.execVxLog2 at_ p f s
  | .vxTanh at_ p f => Sys2Proof.Machine.execVxTanh at_ p f s
  | .vxSigmoid at_ p f => Sys2Proof.Machine.execVxSigmoid at_ p f s
  | .vxErf at_ p f => Sys2Proof.Machine.execVxErf at_ p f s
  | .vxSegred at_ p f => Sys2Proof.Machine.execVxSegred at_ p f s
  | .vxBcast at_ p f => Sys2Proof.Machine.execVxBcast at_ p f s
  | .vxGrain at_ p f => Sys2Proof.Machine.execVxGrain at_ p f s
  | .vxGskip at_ p f => Sys2Proof.Machine.execVxGskip at_ p f s
  | .vxSumm at_ p f => Sys2Proof.Machine.execVxSumm at_ p f s
  | .vxCrc64 at_ p f => Sys2Proof.Machine.execVxCrc64 at_ p f s
  | .vxSha256 at_ p f => Sys2Proof.Machine.execVxSha256 at_ p f s
  | .vxOptstep at_ p f => Sys2Proof.Machine.execVxOptstep at_ p f s
  | .vxRmodeEnter at_ p f => Sys2Proof.Machine.execVxRmodeEnter at_ p f s
  | .vxRmodeLeave at_ p f => Sys2Proof.Machine.execVxRmodeLeave at_ p f s
  | .vxAddi at_ p f => Sys2Proof.Machine.execVxAddi at_ p f s
  | .vxSubi at_ p f => Sys2Proof.Machine.execVxSubi at_ p f s
  | .vxMuli at_ p f => Sys2Proof.Machine.execVxMuli at_ p f s
  | .vxFmai at_ p f => Sys2Proof.Machine.execVxFmai at_ p f s
  | .vxMini at_ p f => Sys2Proof.Machine.execVxMini at_ p f s
  | .vxMaxi at_ p f => Sys2Proof.Machine.execVxMaxi at_ p f s
  | .vectorIssue c => Sys2Proof.Machine.execVectorIssue c s
  | .vxBeatRetire c => Sys2Proof.Machine.execVxBeatRetire c s
  | .summaryResult c => Sys2Proof.Machine.execSummaryResult c s
  | .optstepBlock c => Sys2Proof.Machine.execOptstepBlock c s
  | .dmGet at_ p f => Sys2Proof.Machine.execDmGet at_ p f s
  | .dmPut at_ p f => Sys2Proof.Machine.execDmPut at_ p f s
  | .dmCopy at_ p f => Sys2Proof.Machine.execDmCopy at_ p f s
  | .moverIssue c => Sys2Proof.Machine.execMoverIssue c s
  | .dmTransferComplete c ix => Sys2Proof.Machine.execDmTransferComplete c ix s
  | .clAg at_ p f => Sys2Proof.Machine.execClAg at_ p f s
  | .clRs at_ p f => Sys2Proof.Machine.execClRs at_ p f s
  | .clAr at_ p f => Sys2Proof.Machine.execClAr at_ p f s
  | .clA2a at_ p f => Sys2Proof.Machine.execClA2a at_ p f s
  | .clBcast at_ p f => Sys2Proof.Machine.execClBcast at_ p f s
  | .clBar at_ p f => Sys2Proof.Machine.execClBar at_ p f s
  | .clUntag at_ p f => Sys2Proof.Machine.execClUntag at_ p f s
  | .collectiveQueueIssue c => Sys2Proof.Machine.execCollectiveQueueIssue c s
  | .syInit at_ p f => Sys2Proof.Machine.execSyInit at_ p f s
  | .sySignal at_ p f => Sys2Proof.Machine.execSySignal at_ p f s
  | .syWait at_ p f => Sys2Proof.Machine.execSyWait at_ p f s
  | .syPoll at_ p f => Sys2Proof.Machine.execSyPoll at_ p f s
  | .syFence at_ p f => Sys2Proof.Machine.execSyFence at_ p f s
  | .syYield at_ p f => Sys2Proof.Machine.execSyYield at_ p f s
  | .syRsignal at_ p f => Sys2Proof.Machine.execSyRsignal at_ p f s
  | .latchSignalArrive c => Sys2Proof.Machine.execLatchSignalArrive c s
  | .latchWaitReturn at_ => Sys2Proof.Machine.execLatchWaitReturn at_ s
  | .stOpen at_ p f => Sys2Proof.Machine.execStOpen at_ p f s
  | .stOpenRelease c => Sys2Proof.Machine.execStOpenRelease c s
  | .stStop at_ p f => Sys2Proof.Machine.execStStop at_ p f s
  | .stopBarrierComplete p => Sys2Proof.Machine.execStopBarrierComplete p s
  | .stFix at_ p f => Sys2Proof.Machine.execStFix at_ p f s
  | .fixBarrierComplete p => Sys2Proof.Machine.execFixBarrierComplete p s
  | .fixCommitAdvance p => Sys2Proof.Machine.execFixCommitAdvance p s
  | .stepBoundary p => Sys2Proof.Machine.execStepBoundary p s
  | .stSeed at_ p f => Sys2Proof.Machine.execStSeed at_ p f s
  | .trMark at_ p f => Sys2Proof.Machine.execTrMark at_ p f s
  | .trVal at_ p f => Sys2Proof.Machine.execTrVal at_ p f s
  | .trCtr at_ p f => Sys2Proof.Machine.execTrCtr at_ p f s
  | .traceRecordWrite c => Sys2Proof.Machine.execTraceRecordWrite c s
  | .verdictArrival p tag reduced => Sys2Proof.Machine.execVerdictArrival p tag reduced s
  | .verdictTimeout p => Sys2Proof.Machine.execVerdictTimeout p s
  | .twinAckTimeout p => Sys2Proof.Machine.execTwinAckTimeout p s
  | .ctxStart by_ c ix v => Sys2Proof.Machine.execCtxStart by_ c ix v s
  | .contextSwitch c => Sys2Proof.Machine.execContextSwitch c s
  | .contextWake c ix => Sys2Proof.Machine.execContextWake c ix s
  | .contextRunStart c => Sys2Proof.Machine.execContextRunStart c s
  | .graceExpiry c => Sys2Proof.Machine.execGraceExpiry c s
  | .partApply by_ => Sys2Proof.Machine.execPartApply by_ s
  | .slotCfgWrite by_ c v => Sys2Proof.Machine.execSlotCfgWrite by_ c v s
  | .isaCtlWrite by_ c ix v => Sys2Proof.Machine.execIsaCtlWrite by_ c ix v s
  | .plateCfgWrite by_ c v => Sys2Proof.Machine.execPlateCfgWrite by_ c v s
  | .plateDbgEnWrite by_ c v => Sys2Proof.Machine.execPlateDbgEnWrite by_ c v s
  | .grainLaneBaseWrite by_ c ix v => Sys2Proof.Machine.execGrainLaneBaseWrite by_ c ix v s
  | .ctxCtlWrite by_ c ix wakeTime v => Sys2Proof.Machine.execCtxCtlWrite by_ c ix wakeTime v s
  | .stepRegWrite by_ p r v => Sys2Proof.Machine.execStepRegWrite by_ p r v s
  | .cfgApply by_ p => Sys2Proof.Machine.execCfgApply by_ p s
  | .registerWrite by_ offset bytes8 v => Sys2Proof.Machine.execRegisterWrite by_ offset bytes8 v s
  | .bar0Access req offset len v => Sys2Proof.Machine.execBar0Access req offset len v s
  | .dramBurstServe n b tries => Sys2Proof.Machine.execDramBurstServe n b tries s
  | .eccWriteback n ch => Sys2Proof.Machine.execEccWriteback n ch s
  | .regulatorTick => Sys2Proof.Machine.execRegulatorTick s
  | .patrolScrub n ch flips tries => Sys2Proof.Machine.execPatrolScrub n ch flips tries s
  | .eccWindowEnd n ch => Sys2Proof.Machine.execEccWindowEnd n ch s
  | .stackTempReading n sensors => Sys2Proof.Machine.execStackTempReading n sensors s
  | .stackConnectionFail n w => Sys2Proof.Machine.execStackConnectionFail n w s
  | .mapoutReqWrite by_ n v => Sys2Proof.Machine.execMapoutReqWrite by_ n v s
  | .pageMark by_ v => Sys2Proof.Machine.execPageMark by_ v s
  | .pageUnmark by_ v => Sys2Proof.Machine.execPageUnmark by_ v s
  | .pageCmdDone => Sys2Proof.Machine.execPageCmdDone s
  | .memBringupWrite by_ v => Sys2Proof.Machine.execMemBringupWrite by_ v s
  | .memMarginWrite by_ n v => Sys2Proof.Machine.execMemMarginWrite by_ n v s
  | .stPatGo by_ v => Sys2Proof.Machine.execStPatGo by_ v s
  | .stPatDone => Sys2Proof.Machine.execStPatDone s
  | .xdBeatReceive j dir beat => Sys2Proof.Machine.execXdBeatReceive j dir beat s
  | .xdErrorWindow j dir => Sys2Proof.Machine.execXdErrorWindow j dir s
  | .xdClockLoss j dir group alternate => Sys2Proof.Machine.execXdClockLoss j dir group alternate s
  | .xdSteer j dir group wire swt => Sys2Proof.Machine.execXdSteer j dir group wire swt s
  | .xdHalf j dir half swt => Sys2Proof.Machine.execXdHalf j dir half swt s
  | .xdDisable j swt => Sys2Proof.Machine.execXdDisable j swt s
  | .xdSwitch j dir => Sys2Proof.Machine.execXdSwitch j dir s
  | .xdForceWrite by_ j v => Sys2Proof.Machine.execXdForceWrite by_ j v s
  | .frameReceive k f => Sys2Proof.Machine.execFrameReceive k f s
  | .linkReplay r => Sys2Proof.Machine.execLinkReplay r s
  | .laneErrorWindow k errors => Sys2Proof.Machine.execLaneErrorWindow k errors s
  | .routerSlot d => Sys2Proof.Machine.execRouterSlot d s
  | .frameInject d => Sys2Proof.Machine.execFrameInject d s
  | .starveHoldoffEnd d => Sys2Proof.Machine.execStarveHoldoffEnd d s
  | .streamDeliver d ix => Sys2Proof.Machine.execStreamDeliver d ix s
  | .robGap d ix => Sys2Proof.Machine.execRobGap d ix s
  | .reqRead d => Sys2Proof.Machine.execReqRead d s
  | .rspData d => Sys2Proof.Machine.execRspData d s
  | .rspCredit d => Sys2Proof.Machine.execRspCredit d s
  | .putWrite d => Sys2Proof.Machine.execPutWrite d s
  | .deadEndReturn d => Sys2Proof.Machine.execDeadEndReturn d s
  | .sourceSlotTimeout d ix => Sys2Proof.Machine.execSourceSlotTimeout d ix s
  | .creditFlush d => Sys2Proof.Machine.execCreditFlush d s
  | .mntMreq => Sys2Proof.Machine.execMntMreq s
  | .mntMrsp => Sys2Proof.Machine.execMntMrsp s
  | .mntMpost => Sys2Proof.Machine.execMntMpost s
  | .grantWrite by_ d tx ix v => Sys2Proof.Machine.execGrantWrite by_ d tx ix v s
  | .fabricCfgWrite by_ r v => Sys2Proof.Machine.execFabricCfgWrite by_ r v s
  | .routeSlotWrite by_ ix target w => Sys2Proof.Machine.execRouteSlotWrite by_ ix target w s
  | .routeSeal by_ ix => Sys2Proof.Machine.execRouteSeal by_ ix s
  | .routeRetire by_ ix => Sys2Proof.Machine.execRouteRetire by_ ix s
  | .routeApply by_ ix => Sys2Proof.Machine.execRouteApply by_ ix s
  | .routeDrainTimer ix => Sys2Proof.Machine.execRouteDrainTimer ix s
  | .darkslideClose => Sys2Proof.Machine.execDarkslideClose s
  | .darkslideForward k f => Sys2Proof.Machine.execDarkslideForward k f s
  | .darkslideOpen pair => Sys2Proof.Machine.execDarkslideOpen pair s
  | .bypassFail island => Sys2Proof.Machine.execBypassFail island s
  | .portTrainStage k partner => Sys2Proof.Machine.execPortTrainStage k partner s
  | .timeWord k t1 t2 t3 t4 depth partnerLocked => Sys2Proof.Machine.execTimeWord k t1 t2 t3 t4 depth partnerLocked s
  | .timeWordInsert k => Sys2Proof.Machine.execTimeWordInsert k s
  | .timeSlew => Sys2Proof.Machine.execTimeSlew s
  | .timeParentSelect => Sys2Proof.Machine.execTimeParentSelect s
  | .collArm by_ ix => Sys2Proof.Machine.execCollArm by_ ix s
  | .collDisarm by_ ix => Sys2Proof.Machine.execCollDisarm by_ ix s
  | .collArrival d => Sys2Proof.Machine.execCollArrival d s
  | .collReady d => Sys2Proof.Machine.execCollReady d s
  | .collDataFrame d => Sys2Proof.Machine.execCollDataFrame d s
  | .collTagFrame d => Sys2Proof.Machine.execCollTagFrame d s
  | .collArriveRecord => Sys2Proof.Machine.execCollArriveRecord s
  | .collInstanceEnd ix => Sys2Proof.Machine.execCollInstanceEnd ix s
  | .sideRecordSend p => Sys2Proof.Machine.execSideRecordSend p s
  | .sideRecordReceive => Sys2Proof.Machine.execSideRecordReceive s
  | .tableBuildComplete p => Sys2Proof.Machine.execTableBuildComplete p s
  | .xlegRecord => Sys2Proof.Machine.execXlegRecord s
  | .collProgressTimeout ix => Sys2Proof.Machine.execCollProgressTimeout ix s
  | .colldTagOutClear by_ ix => Sys2Proof.Machine.execColldTagOutClear by_ ix s
  | .twinArm by_ p => Sys2Proof.Machine.execTwinArm by_ p s
  | .twinRestart by_ p => Sys2Proof.Machine.execTwinRestart by_ p s
  | .twinRefix by_ p => Sys2Proof.Machine.execTwinRefix by_ p s
  | .hello p => Sys2Proof.Machine.execHello p s
  | .pageAck p => Sys2Proof.Machine.execPageAck p s
  | .resend p => Sys2Proof.Machine.execResend p s
  | .manifest p => Sys2Proof.Machine.execManifest p s
  | .negDone p => Sys2Proof.Machine.execNegDone p s
  | .bodyAck p => Sys2Proof.Machine.execBodyAck p s
  | .seal p => Sys2Proof.Machine.execSeal p s
  | .sealAck p => Sys2Proof.Machine.execSealAck p s
  | .probe p => Sys2Proof.Machine.execProbe p s
  | .probeTimer p => Sys2Proof.Machine.execProbeTimer p s
  | .twinPageSend p => Sys2Proof.Machine.execTwinPageSend p s
  | .twinClaim p => Sys2Proof.Machine.execTwinClaim p s
  | .firstTouchCopy p slot => Sys2Proof.Machine.execFirstTouchCopy p slot s
  | .restorePages by_ p sel => Sys2Proof.Machine.execRestorePages by_ p sel s
  | .restoreRecord by_ p sel => Sys2Proof.Machine.execRestoreRecord by_ p sel s
  | .restoreTables by_ p => Sys2Proof.Machine.execRestoreTables by_ p s
  | .restoreDone p data => Sys2Proof.Machine.execRestoreDone p data s
  | .sheetArm by_ p => Sys2Proof.Machine.execSheetArm by_ p s
  | .sheetCancel by_ p => Sys2Proof.Machine.execSheetCancel by_ p s
  | .hspPiece toHost => Sys2Proof.Machine.execHspPiece toHost s
  | .hspReadCompletion ok data => Sys2Proof.Machine.execHspReadCompletion ok data s
  | .hostRegionWrite by_ ix cfg v => Sys2Proof.Machine.execHostRegionWrite by_ ix cfg v s
  | .doorbell ix v => Sys2Proof.Machine.execDoorbell ix v s
  | .doorbellCfgWrite by_ ix v => Sys2Proof.Machine.execDoorbellCfgWrite by_ ix v s
  | .mboxGo request => Sys2Proof.Machine.execMboxGo request s
  | .mboxTake => Sys2Proof.Machine.execMboxTake s
  | .getInfo => Sys2Proof.Machine.execGetInfo s
  | .logRead => Sys2Proof.Machine.execLogRead s
  | .fruRead => Sys2Proof.Machine.execFruRead s
  | .fruWrite => Sys2Proof.Machine.execFruWrite s
  | .fwWrite => Sys2Proof.Machine.execFwWrite s
  | .fwActivate => Sys2Proof.Machine.execFwActivate s
  | .anchorSet => Sys2Proof.Machine.execAnchorSet s
  | .getNonce => Sys2Proof.Machine.execGetNonce s
  | .debugUnlock => Sys2Proof.Machine.execDebugUnlock s
  | .debugLock => Sys2Proof.Machine.execDebugLock s
  | .debugUnlockEnd => Sys2Proof.Machine.execDebugUnlockEnd s
  | .mboxReply => Sys2Proof.Machine.execMboxReply s
  | .errorRecordDeliver => Sys2Proof.Machine.execErrorRecordDeliver s
  | .hcpNotify by_ p => Sys2Proof.Machine.execHcpNotify by_ p s
  | .pciePortReset hsp => Sys2Proof.Machine.execPciePortReset hsp s
  | .functionLevelReset hsp => Sys2Proof.Machine.execFunctionLevelReset hsp s
  | .spdmGetVersion req => Sys2Proof.Machine.execSpdmGetVersion req s
  | .spdmGetCapabilities req => Sys2Proof.Machine.execSpdmGetCapabilities req s
  | .spdmNegotiateAlgorithms req => Sys2Proof.Machine.execSpdmNegotiateAlgorithms req s
  | .spdmGetDigests req => Sys2Proof.Machine.execSpdmGetDigests req s
  | .spdmGetCertificate req => Sys2Proof.Machine.execSpdmGetCertificate req s
  | .spdmChallenge req => Sys2Proof.Machine.execSpdmChallenge req s
  | .spdmGetMeasurements req => Sys2Proof.Machine.execSpdmGetMeasurements req s
  | .tsbRead word => Sys2Proof.Machine.execTsbRead word s
  | .tsbWrite word v => Sys2Proof.Machine.execTsbWrite word v s
  | .emergWWrite v => Sys2Proof.Machine.execEmergWWrite v s
  | .tsbShadowRefresh => Sys2Proof.Machine.execTsbShadowRefresh s
  | .smbusOffsetWrite w data => Sys2Proof.Machine.execSmbusOffsetWrite w data s
  | .smbusRead r => Sys2Proof.Machine.execSmbusRead r s
  | .fruStoreCommit => Sys2Proof.Machine.execFruStoreCommit s
  | .mgmtHeartbeatMiss => Sys2Proof.Machine.execMgmtHeartbeatMiss s
  | .mgmtRestart => Sys2Proof.Machine.execMgmtRestart s
  | .coldPowerOn => Sys2Proof.Machine.execColdPowerOn s
  | .startupPhaseEnd => Sys2Proof.Machine.execStartupPhaseEnd s
  | .stackTrained n temp => Sys2Proof.Machine.execStackTrained n temp s
  | .input12vFault => Sys2Proof.Machine.execInput12vFault s
  | .auxLoss => Sys2Proof.Machine.execAuxLoss s
  | .watchdogSample => Sys2Proof.Machine.execWatchdogSample s
  | .waitLimit at_ => Sys2Proof.Machine.execWaitLimit at_ s
  | .stopHoldExpiry at_ => Sys2Proof.Machine.execStopHoldExpiry at_ s
  | .abortHoldExpiry p => Sys2Proof.Machine.execAbortHoldExpiry p s
  | .resetCmdContext by_ at_ => Sys2Proof.Machine.execResetCmdContext by_ at_ s
  | .resetCmdEngine by_ c e => Sys2Proof.Machine.execResetCmdEngine by_ c e s
  | .resetCmdPartition by_ p => Sys2Proof.Machine.execResetCmdPartition by_ p s
  | .resetCmdChip by_ => Sys2Proof.Machine.execResetCmdChip by_ s
  | .resetCmdPowerCycle by_ => Sys2Proof.Machine.execResetCmdPowerCycle by_ s
  | .contextReset at_ => Sys2Proof.Machine.execContextReset at_ s
  | .engineReset c e => Sys2Proof.Machine.execEngineReset c e s
  | .partitionReset p => Sys2Proof.Machine.execPartitionReset p s
  | .chipReset => Sys2Proof.Machine.execChipReset s
  | .chipResetPhaseEnd => Sys2Proof.Machine.execChipResetPhaseEnd s
  | .powerCycleReq => Sys2Proof.Machine.execPowerCycleReq s
  | .resetDone ix => Sys2Proof.Machine.execResetDone ix s
  | .resetEscalation ix => Sys2Proof.Machine.execResetEscalation ix s
  | .meterActivityReport d => Sys2Proof.Machine.execMeterActivityReport d s
  | .meterCalibration inputMv railMa => Sys2Proof.Machine.execMeterCalibration inputMv railMa s
  | .meterSignatureWindow => Sys2Proof.Machine.execMeterSignatureWindow s
  | .capLoop inputMv => Sys2Proof.Machine.execCapLoop inputMv s
  | .pointChangeDone d => Sys2Proof.Machine.execPointChangeDone d s
  | .pwrApply by_ => Sys2Proof.Machine.execPwrApply by_ s
  | .pwrEmergWrite by_ v => Sys2Proof.Machine.execPwrEmergWrite by_ v s
  | .droopDetect d mv => Sys2Proof.Machine.execDroopDetect d mv s
  | .droopRelease d => Sys2Proof.Machine.execDroopRelease d s
  | .junctionReading d tempC8 => Sys2Proof.Machine.execJunctionReading d tempC8 s
  | .ageingReading d slackPs => Sys2Proof.Machine.execAgeingReading d slackPs s
  | .ageingReplan d => Sys2Proof.Machine.execAgeingReplan d s
  | .ageCfgWrite by_ v => Sys2Proof.Machine.execAgeCfgWrite by_ v s
  | .selftestSliceStart item => Sys2Proof.Machine.execSelftestSliceStart item s
  | .selftestSliceEnd d errors eye => Sys2Proof.Machine.execSelftestSliceEnd d errors eye s
  | .selftestRotation item => Sys2Proof.Machine.execSelftestRotation item s
  | .selftestPassEnd k => Sys2Proof.Machine.execSelftestPassEnd k s
  | .pinCheck r row col => Sys2Proof.Machine.execPinCheck r row col s
  | .slCtlWrite by_ v => Sys2Proof.Machine.execSlCtlWrite by_ v s
  | .tapIdcode => Sys2Proof.Machine.execTapIdcode s
  | .tapSamplePreload data => Sys2Proof.Machine.execTapSamplePreload data s
  | .tapExtest => Sys2Proof.Machine.execTapExtest s
  | .tapClamp => Sys2Proof.Machine.execTapClamp s
  | .tapHighz => Sys2Proof.Machine.execTapHighz s
  | .tapIjtag => Sys2Proof.Machine.execTapIjtag s
  | .tapBypass => Sys2Proof.Machine.execTapBypass s
  | .tapReset => Sys2Proof.Machine.execTapReset s
  | .illegalOpcode at_ word => Sys2Proof.Machine.execIllegalOpcode at_ word s
  | .laneLockLoss k => Sys2Proof.Machine.execLaneLockLoss k s
  | .pcieLinkUp hsp => Sys2Proof.Machine.execPcieLinkUp hsp s
  | .helloTimeout p => Sys2Proof.Machine.execHelloTimeout p s
  | .bypassSelfTestPass => Sys2Proof.Machine.execBypassSelfTestPass s
  | .registerRingJoinFail x => Sys2Proof.Machine.execRegisterRingJoinFail x s

end Sys2Proof.Machine
end

