-- ==== Sys2Proof/Machine/Idle.lean ====
section
/-!
DEFINITION. What passes with no command waiting.
-/
namespace Sys2Proof.Machine

/-- Global time advances by one each nanosecond while AUX is present (R28), but for a tick that slewing omits (R383);
the hours of operation count the same nanoseconds while the core rails are on (R512). -/
def State.advanceTime (s : State) : State :=
  let s1 := if s.start.coreOn then { s with start := { s.start with onNs := s.start.onNs + 1 } } else s
  if s.route.omitTick then ({ s1 with route := { s1.route with omitTick := false } }).keepCopies else s1.stepTime 1

/-- The running context spins in a wait or at a step barrier (R256). -/
def Cell.spins (x : Cell) : Bool :=
  match x.running with
  | none => false
  | some i =>
    match (vget x.slots i).wait with
    | .latch _ _ _ | .stStop | .stFix => true
    | .none | .abandoned _ | .stOpen => false

/-- The cycle counters of a cell count the MCLK and CCLK cycles of one nanosecond (Tables 4-13, 5-16, R256): held and
idle cycles of the plate, stalled and spinning cycles of the control core. -/
def State.countCycles (s : State) (c : CellId) : CellRegs :=
  let x := s.cell c
  let y := s.pwrDie ((computeOf (dieOf c)).getD 0)
  let m := BitVec.ofNat 64 (y.mclk / y.period)
  let k := BitVec.ofNat 64 (y.cclk / y.period)
  let add := fun (b : Bool) (n v : Word64) => if b then v + n else v
  { x.regs with
    plateHold := add (s.plateHoldCode c != 0) m x.regs.plateHold
    plateIdle := add (x.eng.plateQ.isEmpty && x.eng.plateRun.isEmpty && x.eng.inflight.isEmpty) m x.regs.plateIdle
    coreStall := add (x.regs.stall != 0) k x.regs.coreStall
    latchSpin := add x.spins k x.regs.latchSpin }

/-- Whether a write to a listed page is held by Table 14-3: of a vx.optstep, or of the management path. -/
def State.writesHeld (s : State) (p : PartId) : Bool :=
  let t := vget s.twins p
  let holds := fun (i : Nat) =>
    match Sparse.get PageState.unsent t.pageState i with
    | .unsent | .inFlight => true
    | .staged _ | .acked => false
  s.firstTouch p && (t.mgmtWaits.any holds ||
    (s.cellsOf p).any (fun c => match (s.cell c).eng.optRun with | some r => r.waits.any holds | none => false))

/-- One nanosecond of the counters that count time: the cells' cycle counters while the core rails are on, and HOLD_NS
of each partition whose writes are held (Table 14-14). -/
def State.countTime (s : State) : State :=
  if s.start.coreOn = false then s
  else { s with
    cells := Vector.ofFn (fun c => { s.cell c with regs := s.countCycles c })
    power := { s.power with
      dies := s.power.dies.map (fun (x : PwrDie) => { x with mclkAt := x.mclk % x.period, cclkAt := x.cclk % x.period }) }
    twins := Vector.ofFn (fun p =>
      let t := vget s.twins p
      if s.writesHeld p then { t with holdNs := t.holdNs + 1 } else t) }

/-- One nanosecond passes; a read cycle of the TSB is over. A message of vector 0 that was due goes out once its interval has passed (R529). -/
def idleTick (s : State) : State :=
  if s.start.aux = false then s
  else
    let t := s.advanceTime.countTime.tsbRelease.countYields
    if t.host.vec0Due then t.vector0 else t

end Sys2Proof.Machine
end

