-- ==== Sys2Proof/WellFormed.lean ====
section
/-!
DEFINITION. Which commands can occur: the sizes and ranges the specification gives what arrives from outside. A field
of an instruction word is never ill formed: reserved values are checked where the instruction executes (R179, R217).
-/
namespace Sys2Proof

/-- A frame has 256 payload bytes (R350). -/
def Frame.wf (f : Frame) : Bool := f.payload.length == 256

/-- A beat has 128 data words (R319). -/
def Beat.wf (b : Beat) : Bool := b.words.length == 128

/-- The command can occur. -/
def Instr.wf : Instr → Bool
  | .xdBeatReceive _ _ b => b.wf
  | .frameReceive _ f => f.wf
  | .darkslideForward _ f => f.wf
  | .portTrainStage _ q => decide (q.port.toNat < 12)
  | .mboxGo r => decide (r.length ≤ 4096)
  | .bar0Access _ _ n _ => decide (1 ≤ n) && decide (n ≤ 4096)
  | .dramBurstServe _ b _ => decide (b.flips.map (·.1)).Nodup
  | .patrolScrub _ _ e _ => decide (e.map (·.1)).Nodup
  | _ => true

end Sys2Proof
end

