-- ==== Sys2Proof/Safety.lean ====
section
/-!
DEFINITION. The terms the statements use: what a command answers, when a context can execute an instruction, what an
instruction leaves that changes only its context, and the conditions every state of a run meets.
-/
namespace Sys2Proof.Machine

/-- A command answers a next state of which `P` holds. -/
def Completes (i : Instr) (s : State) (P : State → Prop) : Prop := ∃ t, exec i s = .next t ∧ P t

/-- An instruction as the control core sees it: where it runs, its predicate, CLASS, OPCODE, the outcome of its
decode checks (R179, R217), and the s registers whose results it waits for (R149, R196). -/
structure Issued where
  at_   : At
  p     : Pred
  cls   : BitVec 4
  op    : Byte
  ok    : Checks
  names : List (BitVec 5)
  deriving DecidableEq, Repr

/-- The operand specifiers of a vx instruction are allocated (Table 6-5). -/
def vxOk (m : VxInstr) : Checks := ⟨true, !(([m.d, m.a, m.b, m.c].map (specOf m.vi)).contains .reserved)⟩

/-- The s registers a vx instruction names, its destination among them (R149, R196). -/
def vxNames (m : VxInstr) : List (BitVec 5) := ([m.d, m.a, m.b, m.c].map (specOf m.vi)).flatMap Spec.sregs

/-- The commands that are instructions of a context (Tables 7-2 to 7-15); no other command executes on a control
core. -/
def issuedOf : Instr → Option Issued
  | .scAdd a p f => some ⟨a, p, 1, 0x01, ⟨f.rsv == 0, fmtSOk f true true true false false && fnOk f.fn 0⟩, [f.sd, f.sa, f.sb]⟩
  | .scSub a p f => some ⟨a, p, 1, 0x02, ⟨f.rsv == 0, fmtSOk f true true true false false && fnOk f.fn 0⟩, [f.sd, f.sa, f.sb]⟩
  | .scMul a p f => some ⟨a, p, 1, 0x03, ⟨f.rsv == 0, fmtSOk f true true true false false && fnOk f.fn 0⟩, [f.sd, f.sa, f.sb]⟩
  | .scMulhu a p f => some ⟨a, p, 1, 0x04, ⟨f.rsv == 0, fmtSOk f true true true false false && fnOk f.fn 0⟩, [f.sd, f.sa, f.sb]⟩
  | .scDiv a p f => some ⟨a, p, 1, 0x05, ⟨f.rsv == 0, fmtSOk f true true true false false && fnOk f.fn 0⟩, [f.sd, f.sa, f.sb]⟩
  | .scDivu a p f => some ⟨a, p, 1, 0x06, ⟨f.rsv == 0, fmtSOk f true true true false false && fnOk f.fn 0⟩, [f.sd, f.sa, f.sb]⟩
  | .scRem a p f => some ⟨a, p, 1, 0x07, ⟨f.rsv == 0, fmtSOk f true true true false false && fnOk f.fn 0⟩, [f.sd, f.sa, f.sb]⟩
  | .scRemu a p f => some ⟨a, p, 1, 0x08, ⟨f.rsv == 0, fmtSOk f true true true false false && fnOk f.fn 0⟩, [f.sd, f.sa, f.sb]⟩
  | .scAnd a p f => some ⟨a, p, 1, 0x09, ⟨f.rsv == 0, fmtSOk f true true true false false && fnOk f.fn 0⟩, [f.sd, f.sa, f.sb]⟩
  | .scOr a p f => some ⟨a, p, 1, 0x0A, ⟨f.rsv == 0, fmtSOk f true true true false false && fnOk f.fn 0⟩, [f.sd, f.sa, f.sb]⟩
  | .scXor a p f => some ⟨a, p, 1, 0x0B, ⟨f.rsv == 0, fmtSOk f true true true false false && fnOk f.fn 0⟩, [f.sd, f.sa, f.sb]⟩
  | .scShl a p f => some ⟨a, p, 1, 0x0C, ⟨f.rsv == 0, fmtSOk f true true true false false && fnOk f.fn 0⟩, [f.sd, f.sa, f.sb]⟩
  | .scShr a p f => some ⟨a, p, 1, 0x0D, ⟨f.rsv == 0, fmtSOk f true true true false false && fnOk f.fn 0⟩, [f.sd, f.sa, f.sb]⟩
  | .scSar a p f => some ⟨a, p, 1, 0x0E, ⟨f.rsv == 0, fmtSOk f true true true false false && fnOk f.fn 0⟩, [f.sd, f.sa, f.sb]⟩
  | .scCmp a p f => some ⟨a, p, 1, 0x0F, ⟨f.rsv == 0, fmtSOk f false true true false true && fnOk f.fn 0x0007 && f.pd != 0 && intRelOk (bfld f.fn 0 3)⟩,
      [f.sa, f.sb]⟩
  | .scPop a p f => some ⟨a, p, 1, 0x10, ⟨f.rsv == 0, fmtSOk f false false false false true && fnOk f.fn 0x00FF && f.pd != 0⟩, []⟩
  | .scAddi a p f => some ⟨a, p, 1, 0x20, ⟨true, fmtSIOk f true true false && fnOk f.fn 0⟩, [f.sd, f.sa]⟩
  | .scAndi a p f => some ⟨a, p, 1, 0x21, ⟨true, fmtSIOk f true true false && fnOk f.fn 0⟩, [f.sd, f.sa]⟩
  | .scOri a p f => some ⟨a, p, 1, 0x22, ⟨true, fmtSIOk f true true false && fnOk f.fn 0⟩, [f.sd, f.sa]⟩
  | .scXori a p f => some ⟨a, p, 1, 0x23, ⟨true, fmtSIOk f true true false && fnOk f.fn 0⟩, [f.sd, f.sa]⟩
  | .scCmpi a p f => some ⟨a, p, 1, 0x24, ⟨true, fmtSIOk f false true true && fnOk f.fn 7 && f.pd != 0 && intRelOk f.fn⟩, [f.sa]⟩
  | .scMovi a p f => some ⟨a, p, 1, 0x25, ⟨true, fmtSIOk f true false false && fnOk f.fn 0⟩, [f.sd]⟩
  | .scLdhi a p f => some ⟨a, p, 1, 0x26, ⟨true, fmtSIOk f true true false && fnOk f.fn 0⟩, [f.sd, f.sa]⟩
  | .scShi a p f => some ⟨a, p, 1, 0x27, ⟨true, fmtSIOk f true true false && fnOk f.fn 3 && fld f.fn 0 2 != 3 && fld f.imm 6 26 == 0⟩,
      [f.sd, f.sa]⟩
  | .scFadd a p f => some ⟨a, p, 1, 0x30, ⟨f.rsv == 0, fmtSOk f true true true false false && fnOk f.fn 0⟩, [f.sd, f.sa, f.sb]⟩
  | .scFsub a p f => some ⟨a, p, 1, 0x31, ⟨f.rsv == 0, fmtSOk f true true true false false && fnOk f.fn 0⟩, [f.sd, f.sa, f.sb]⟩
  | .scFmul a p f => some ⟨a, p, 1, 0x32, ⟨f.rsv == 0, fmtSOk f true true true false false && fnOk f.fn 0⟩, [f.sd, f.sa, f.sb]⟩
  | .scFfma a p f => some ⟨a, p, 1, 0x33, ⟨f.rsv == 0, fmtSOk f true true true true false && fnOk f.fn 0⟩, [f.sd, f.sa, f.sb, f.sc]⟩
  | .scFdiv a p f => some ⟨a, p, 1, 0x34, ⟨f.rsv == 0, fmtSOk f true true true false false && fnOk f.fn 0⟩, [f.sd, f.sa, f.sb]⟩
  | .scFsqrt a p f => some ⟨a, p, 1, 0x35, ⟨f.rsv == 0, fmtSOk f true true false false false && fnOk f.fn 0⟩, [f.sd, f.sa]⟩
  | .scFrcp a p f => some ⟨a, p, 1, 0x36, ⟨f.rsv == 0, fmtSOk f true true false false false && fnOk f.fn 1⟩, [f.sd, f.sa]⟩
  | .scFtr a p f => some ⟨a, p, 1, 0x37, ⟨f.rsv == 0, fmtSOk f true true false false false && fnOk f.fn 7 && fld f.fn 0 3 != 7⟩, [f.sd, f.sa]⟩
  | .scFcmp a p f => some ⟨a, p, 1, 0x38, ⟨f.rsv == 0, fmtSOk f false true true false true && fnOk f.fn 0x0007 && f.pd != 0 && fltRelOk (bfld f.fn 0 3)⟩,
      [f.sa, f.sb]⟩
  | .scFcvt a p f => some ⟨a, p, 1, 0x39, ⟨f.rsv == 0, fmtSOk f true true false false false && fnOk f.fn 3⟩, [f.sd, f.sa]⟩
  | .scLd a p f => some ⟨a, p, 1, 0x40, ⟨true, fmtSIOk f true true false && fnOk f.fn 0⟩, [f.sd, f.sa]⟩
  | .scSt a p f => some ⟨a, p, 1, 0x41, ⟨true, fmtSIOk f true true false && fnOk f.fn 0⟩, [f.sd, f.sa]⟩
  | .scRdreg a p ⟨f, _⟩ => some ⟨a, p, 1, 0x42, ⟨true, fmtSIOk f true true false && fnOk f.fn 0⟩, [f.sd, f.sa]⟩
  | .scWrreg a p f => some ⟨a, p, 1, 0x43, ⟨true, fmtSIOk f true true false && fnOk f.fn 0⟩, [f.sd, f.sa]⟩
  | .scTld a p f => some ⟨a, p, 1, 0x50, ⟨f.rsv == 0, fmtSOk f true true false false false && fnOk f.fn 0 && decide (f.sd.toNat < 16)⟩, [f.sa]⟩
  | .scTst a p f => some ⟨a, p, 1, 0x51, ⟨f.rsv == 0, fmtSOk f true true false false false && fnOk f.fn 0 && decide (f.sd.toNat < 16)⟩, [f.sa]⟩
  | .scTset a p f => some ⟨a, p, 1, 0x52, ⟨f.rsv == 0, fmtSOk f true true true true false && fnOk f.fn 0 && decide (f.sd.toNat < 16)⟩,
      [f.sa, f.sb, f.sc]⟩
  | .scTbase a p f => some ⟨a, p, 1, 0x53, ⟨f.rsv == 0, fmtSOk f true true true false false && fnOk f.fn 0 && decide (f.sd.toNat < 16)⟩,
      [f.sa, f.sb]⟩
  | .scQld a p f => some ⟨a, p, 1, 0x54, ⟨f.rsv == 0, fmtSOk f true true false false false && fnOk f.fn 0 && decide (f.sd.toNat < 8)⟩, [f.sa]⟩
  | .scQst a p f => some ⟨a, p, 1, 0x55, ⟨f.rsv == 0, fmtSOk f true true false false false && fnOk f.fn 0 && decide (f.sd.toNat < 8)⟩, [f.sa]⟩
  | .scQset a p f => some ⟨a, p, 1, 0x56, ⟨f.rsv == 0, fmtSOk f true true true true false && fnOk f.fn 0 && decide (f.sd.toNat < 8)⟩,
      [f.sa, f.sb, f.sc]⟩
  | .scQaddr a p f => some ⟨a, p, 1, 0x57, ⟨f.rsv == 0, fmtSOk f true true true false false && fnOk f.fn 0 && decide (f.sd.toNat < 8)⟩,
      [f.sa, f.sb]⟩
  | .scBr a p f => some ⟨a, p, 1, 0x60, ⟨f.rsv == 0, f.sa == 0⟩, []⟩
  | .scBri a p f => some ⟨a, p, 1, 0x61, ⟨f.rsv == 0, f.offset == 0⟩, [f.sa]⟩
  | .scCall a p f => some ⟨a, p, 1, 0x62, ⟨f.rsv == 0, f.sa == 0⟩, [31]⟩
  | .scNop a p f => some ⟨a, p, 1, 0x70, ⟨f.rsv == 0, fmtSOk f false false false false false && fnOk f.fn 0⟩, []⟩
  | .scExit a p f => some ⟨a, p, 1, 0x71, ⟨f.rsv == 0, fmtSOk f false false false false false && fnOk f.fn 0⟩, []⟩
  | .scTime a p f => some ⟨a, p, 1, 0x72, ⟨f.rsv == 0, fmtSOk f true false false false false && fnOk f.fn 0⟩, [f.sd]⟩
  | .scId a p f => some ⟨a, p, 1, 0x73, ⟨f.rsv == 0, fmtSOk f true false false false false && fnOk f.fn 0⟩, [f.sd]⟩
  | .mxMma a p _ => some ⟨a, p, 2, 0x01, ⟨true, true⟩, []⟩
  | .mxDrain a p _ => some ⟨a, p, 2, 0x02, ⟨true, true⟩, []⟩
  | .mxVsave a p _ => some ⟨a, p, 2, 0x03, ⟨true, true⟩, []⟩
  | .mxVload a p _ => some ⟨a, p, 2, 0x04, ⟨true, true⟩, []⟩
  | .mxVfree a p _ => some ⟨a, p, 2, 0x05, ⟨true, true⟩, []⟩
  | .vxAdd a p f => some ⟨a, p, 3, 0x01, (vxOk (vInstr 0x01 f)), (vxNames (vInstr 0x01 f))⟩
  | .vxSub a p f => some ⟨a, p, 3, 0x02, (vxOk (vInstr 0x02 f)), (vxNames (vInstr 0x02 f))⟩
  | .vxMul a p f => some ⟨a, p, 3, 0x03, (vxOk (vInstr 0x03 f)), (vxNames (vInstr 0x03 f))⟩
  | .vxFma a p f => some ⟨a, p, 3, 0x04, (vxOk (vInstr 0x04 f)), (vxNames (vInstr 0x04 f))⟩
  | .vxNeg a p f => some ⟨a, p, 3, 0x05, (vxOk (vInstr 0x05 f)), (vxNames (vInstr 0x05 f))⟩
  | .vxAbs a p f => some ⟨a, p, 3, 0x06, (vxOk (vInstr 0x06 f)), (vxNames (vInstr 0x06 f))⟩
  | .vxMin a p f => some ⟨a, p, 3, 0x07, (vxOk (vInstr 0x07 f)), (vxNames (vInstr 0x07 f))⟩
  | .vxMax a p f => some ⟨a, p, 3, 0x08, (vxOk (vInstr 0x08 f)), (vxNames (vInstr 0x08 f))⟩
  | .vxSel a p f => some ⟨a, p, 3, 0x09, (vxOk (vInstr 0x09 f)), (vxNames (vInstr 0x09 f))⟩
  | .vxCmp a p f => some ⟨a, p, 3, 0x0A, (vxOk (vInstr 0x0A f)), (vxNames (vInstr 0x0A f))⟩
  | .vxCvt a p f => some ⟨a, p, 3, 0x0B, (vxOk (vInstr 0x0B f)), (vxNames (vInstr 0x0B f))⟩
  | .vxDiv a p f => some ⟨a, p, 3, 0x10, (vxOk (vInstr 0x10 f)), (vxNames (vInstr 0x10 f))⟩
  | .vxSqrt a p f => some ⟨a, p, 3, 0x11, (vxOk (vInstr 0x11 f)), (vxNames (vInstr 0x11 f))⟩
  | .vxRecip a p f => some ⟨a, p, 3, 0x12, (vxOk (vInstr 0x12 f)), (vxNames (vInstr 0x12 f))⟩
  | .vxRsqrt a p f => some ⟨a, p, 3, 0x13, (vxOk (vInstr 0x13 f)), (vxNames (vInstr 0x13 f))⟩
  | .vxExp a p f => some ⟨a, p, 3, 0x18, (vxOk (vInstr 0x18 f)), (vxNames (vInstr 0x18 f))⟩
  | .vxExp2 a p f => some ⟨a, p, 3, 0x19, (vxOk (vInstr 0x19 f)), (vxNames (vInstr 0x19 f))⟩
  | .vxLog a p f => some ⟨a, p, 3, 0x1A, (vxOk (vInstr 0x1A f)), (vxNames (vInstr 0x1A f))⟩
  | .vxLog2 a p f => some ⟨a, p, 3, 0x1B, (vxOk (vInstr 0x1B f)), (vxNames (vInstr 0x1B f))⟩
  | .vxTanh a p f => some ⟨a, p, 3, 0x1C, (vxOk (vInstr 0x1C f)), (vxNames (vInstr 0x1C f))⟩
  | .vxSigmoid a p f => some ⟨a, p, 3, 0x1D, (vxOk (vInstr 0x1D f)), (vxNames (vInstr 0x1D f))⟩
  | .vxErf a p f => some ⟨a, p, 3, 0x1E, (vxOk (vInstr 0x1E f)), (vxNames (vInstr 0x1E f))⟩
  | .vxSegred a p f => some ⟨a, p, 3, 0x20, (vxOk (vInstr 0x20 f)), (vxNames (vInstr 0x20 f))⟩
  | .vxBcast a p f => some ⟨a, p, 3, 0x21, (vxOk (vInstr 0x21 f)), (vxNames (vInstr 0x21 f))⟩
  | .vxGrain a p f => some ⟨a, p, 3, 0x28, (vxOk (vInstr 0x28 f)), (vxNames (vInstr 0x28 f))⟩
  | .vxGskip a p f => some ⟨a, p, 3, 0x29, (vxOk (vInstr 0x29 f)), (vxNames (vInstr 0x29 f))⟩
  | .vxSumm a p f => some ⟨a, p, 3, 0x30, (vxOk (vInstr 0x30 f)), (vxNames (vInstr 0x30 f))⟩
  | .vxCrc64 a p f => some ⟨a, p, 3, 0x38, (vxOk (vInstr 0x38 f)), (vxNames (vInstr 0x38 f))⟩
  | .vxSha256 a p f => some ⟨a, p, 3, 0x39, (vxOk (vInstr 0x39 f)), (vxNames (vInstr 0x39 f))⟩
  | .vxOptstep a p f => some ⟨a, p, 3, 0x40, (vxOk (viInstr 0x40 f)), (vxNames (viInstr 0x40 f))⟩
  | .vxRmodeEnter a p f => some ⟨a, p, 3, 0x41, (vxOk (viInstr 0x41 f)), (vxNames (viInstr 0x41 f))⟩
  | .vxRmodeLeave a p f => some ⟨a, p, 3, 0x41, (vxOk (viInstr 0x41 f)), (vxNames (viInstr 0x41 f))⟩
  | .vxAddi a p f => some ⟨a, p, 3, 0x81, (vxOk (viInstr 0x81 f)), (vxNames (viInstr 0x81 f))⟩
  | .vxSubi a p f => some ⟨a, p, 3, 0x82, (vxOk (viInstr 0x82 f)), (vxNames (viInstr 0x82 f))⟩
  | .vxMuli a p f => some ⟨a, p, 3, 0x83, (vxOk (viInstr 0x83 f)), (vxNames (viInstr 0x83 f))⟩
  | .vxFmai a p f => some ⟨a, p, 3, 0x84, (vxOk (viInstr 0x84 f)), (vxNames (viInstr 0x84 f))⟩
  | .vxMini a p f => some ⟨a, p, 3, 0x87, (vxOk (viInstr 0x87 f)), (vxNames (viInstr 0x87 f))⟩
  | .vxMaxi a p f => some ⟨a, p, 3, 0x88, (vxOk (viInstr 0x88 f)), (vxNames (viInstr 0x88 f))⟩
  | .dmGet a p f => some ⟨a, p, 4, 0x01, ⟨true, true⟩, (if f.sov = 1 then [f.so] else [])⟩
  | .dmPut a p f => some ⟨a, p, 4, 0x02, ⟨true, true⟩, (if f.sov = 1 then [f.so] else [])⟩
  | .dmCopy a p f => some ⟨a, p, 4, 0x03, ⟨true, true⟩, (if f.sov = 1 then [f.so] else [])⟩
  | .clAg a p _ => some ⟨a, p, 6, 0x01, ⟨true, true⟩, []⟩
  | .clRs a p _ => some ⟨a, p, 6, 0x02, ⟨true, true⟩, []⟩
  | .clAr a p _ => some ⟨a, p, 6, 0x03, ⟨true, true⟩, []⟩
  | .clA2a a p _ => some ⟨a, p, 6, 0x04, ⟨true, true⟩, []⟩
  | .clBcast a p _ => some ⟨a, p, 6, 0x05, ⟨true, true⟩, []⟩
  | .clBar a p _ => some ⟨a, p, 6, 0x06, ⟨true, true⟩, []⟩
  | .clUntag a p _ => some ⟨a, p, 6, 0x07, ⟨true, true⟩, []⟩
  | .syInit a p f => some ⟨a, p, 5, 0x01, ⟨true, fmtYOk f true false false true⟩, []⟩
  | .sySignal a p f => some ⟨a, p, 5, 0x02, ⟨true, fmtYOk f true false false true⟩, []⟩
  | .syWait a p f => some ⟨a, p, 5, 0x03, ⟨true, fmtYOk f true false true true⟩, [f.sd]⟩
  | .syPoll a p f => some ⟨a, p, 5, 0x04, ⟨true, fmtYOk f true false true false⟩, [f.sd]⟩
  | .syFence a p f => some ⟨a, p, 5, 0x05, ⟨true, fmtYOk f false false false true && decide (f.imm.toNat < 32)⟩, []⟩
  | .syYield a p f => some ⟨a, p, 5, 0x06, ⟨true, fmtYOk f false false false false⟩, []⟩
  | .syRsignal a p f => some ⟨a, p, 5, 0x07, ⟨true, fmtYOk f true true false true⟩, [f.sa]⟩
  | .stOpen a p f => some ⟨a, p, 7, 0x01, ⟨true, fmtYOk f false false false false⟩, []⟩
  | .stStop a p f => some ⟨a, p, 7, 0x02, ⟨true, fmtYOk f false false false true && decide (f.imm.toNat < 2)⟩, []⟩
  | .stFix a p f => some ⟨a, p, 7, 0x03, ⟨true, fmtYOk f false false false false⟩, []⟩
  | .stSeed a p f => some ⟨a, p, 7, 0x04, ⟨true, fmtYOk f false true (a.slot != 0) false && !(a.slot != 0 && f.sd == 31)⟩,
      (if a.slot = 0 then [f.sa] else [f.sa, f.sd, f.sd + 1])⟩
  | .trMark a p f => some ⟨a, p, 8, 0x01, ⟨true, fmtYOk f false false false true⟩, []⟩
  | .trVal a p f => some ⟨a, p, 8, 0x02, ⟨true, fmtYOk f false true false true⟩, [f.sa]⟩
  | .trCtr a p f => some ⟨a, p, 8, 0x03, ⟨true, fmtYOk f true false false true && decide (f.latch.toNat < 8)⟩, []⟩
  | _ => none

/-- The vx commands: where they run, the predicate, and the instruction as its word holds it. -/
def vectorWord : Instr → Option (At × Pred × VxInstr)
  | .vxAdd a p f => some (a, p, vInstr 0x01 f)
  | .vxSub a p f => some (a, p, vInstr 0x02 f)
  | .vxMul a p f => some (a, p, vInstr 0x03 f)
  | .vxFma a p f => some (a, p, vInstr 0x04 f)
  | .vxNeg a p f => some (a, p, vInstr 0x05 f)
  | .vxAbs a p f => some (a, p, vInstr 0x06 f)
  | .vxMin a p f => some (a, p, vInstr 0x07 f)
  | .vxMax a p f => some (a, p, vInstr 0x08 f)
  | .vxSel a p f => some (a, p, vInstr 0x09 f)
  | .vxCmp a p f => some (a, p, vInstr 0x0A f)
  | .vxCvt a p f => some (a, p, vInstr 0x0B f)
  | .vxDiv a p f => some (a, p, vInstr 0x10 f)
  | .vxSqrt a p f => some (a, p, vInstr 0x11 f)
  | .vxRecip a p f => some (a, p, vInstr 0x12 f)
  | .vxRsqrt a p f => some (a, p, vInstr 0x13 f)
  | .vxExp a p f => some (a, p, vInstr 0x18 f)
  | .vxExp2 a p f => some (a, p, vInstr 0x19 f)
  | .vxLog a p f => some (a, p, vInstr 0x1A f)
  | .vxLog2 a p f => some (a, p, vInstr 0x1B f)
  | .vxTanh a p f => some (a, p, vInstr 0x1C f)
  | .vxSigmoid a p f => some (a, p, vInstr 0x1D f)
  | .vxErf a p f => some (a, p, vInstr 0x1E f)
  | .vxSegred a p f => some (a, p, vInstr 0x20 f)
  | .vxBcast a p f => some (a, p, vInstr 0x21 f)
  | .vxGrain a p f => some (a, p, vInstr 0x28 f)
  | .vxGskip a p f => some (a, p, vInstr 0x29 f)
  | .vxSumm a p f => some (a, p, vInstr 0x30 f)
  | .vxCrc64 a p f => some (a, p, vInstr 0x38 f)
  | .vxSha256 a p f => some (a, p, vInstr 0x39 f)
  | .vxOptstep a p f => some (a, p, viInstr 0x40 f)
  | .vxRmodeEnter a p f => some (a, p, viInstr 0x41 f)
  | .vxRmodeLeave a p f => some (a, p, viInstr 0x41 f)
  | .vxAddi a p f => some (a, p, viInstr 0x81 f)
  | .vxSubi a p f => some (a, p, viInstr 0x82 f)
  | .vxMuli a p f => some (a, p, viInstr 0x83 f)
  | .vxFmai a p f => some (a, p, viInstr 0x84 f)
  | .vxMini a p f => some (a, p, viInstr 0x87 f)
  | .vxMaxi a p f => some (a, p, viInstr 0x88 f)
  | _ => none

/-- The context of a slot executes an instruction from Read on (Table 5-8): it issues (R257), its word can be fetched
(R182), the word and its predicate are allocated and the predicate is true (R177), and no register it waits for is
pending (R149). -/
def State.takesWord (s : State) (w : Issued) : Bool :=
  (s.cell w.at_.cell).issues w.at_.slot && (s.fetchFault w.at_).isNone && w.ok.fmt && w.ok.code && !(predReserved w.p) &&
  predTrue w.p (s.slot w.at_).ctx.p && !(w.names.any (fun r => (s.cell w.at_.cell).pendingS w.at_.slot r))

/-- The same of a command. -/
def State.takes (s : State) (i : Instr) : Bool :=
  match issuedOf i with
  | some w => s.takesWord w
  | none => false

/-- The register writes that no context may make (R585) and that the core domain must be reachable for (R587): who
makes the write, and the die whose REG_WRITE_IGNORED answers it otherwise. -/
def closedWrite : Instr → Option (Requester × DieId)
  | .ctxStart b c _ _ => some (b, dieOf c)
  | .slotCfgWrite b c _ => some (b, dieOf c)
  | .isaCtlWrite b c _ _ => some (b, dieOf c)
  | .plateDbgEnWrite b c _ => some (b, dieOf c)
  | .partApply b => some (b, 4)
  | .stepRegWrite b _ _ _ => some (b, 4)
  | .cfgApply b _ => some (b, 5)
  | .mapoutReqWrite b n _ => some (b, stackDie n)
  | .memMarginWrite b n _ => some (b, stackDie n)
  | .memBringupWrite b _ => some (b, 4)
  | .pageMark b _ => some (b, 4)
  | .pageUnmark b _ => some (b, 4)
  | .xdForceWrite b _ _ => some (b, 5)
  | .grantWrite b d _ _ _ => some (b, fabDie d)
  | .routeSlotWrite b _ _ _ => some (b, 4)
  | .routeSeal b _ => some (b, 4)
  | .routeRetire b _ => some (b, 4)
  | .routeApply b _ => some (b, 4)
  | .collArm b _ => some (b, 4)
  | .collDisarm b _ => some (b, 4)
  | .sheetArm b _ => some (b, 4)
  | .sheetCancel b _ => some (b, 4)
  | .hostRegionWrite b _ _ _ => some (b, 4)
  | .doorbellCfgWrite b _ _ => some (b, 4)
  | .pwrApply b => some (b, 5)
  | .pwrEmergWrite b _ => some (b, 5)
  | .stPatGo b _ => some (b, 5)
  | .slCtlWrite b _ => some (b, 5)
  | _ => none

/-- The writes of AUX registers, which no context may make and which no reset of the core domain hides (R585, R589). -/
def auxWriter : Instr → Option Requester
  | .resetCmdContext b _ => some b
  | .resetCmdEngine b _ _ => some b
  | .resetCmdPartition b _ => some b
  | .resetCmdChip b => some b
  | .resetCmdPowerCycle b => some b
  | .ageCfgWrite b _ => some b
  | .fabricCfgWrite b r _ => if r = .ageCfg then none else some b
  | _ => none

/-- The state after an instruction that changes only its context: it has issued, the context is changed and the PC
stands at the next instruction. -/
def State.after (s : State) (a : At) (g : Ctx → Ctx) : State := ((s.countIssue a).modCtx a g).retire a

/-- The state after an instruction that takes a control core fault at Read or later (Table 6-12). -/
def State.faulted (s : State) (a : At) (cls : BitVec 4) (op code : Byte) (addr : Word64) : State :=
  (s.countIssue a).coreFault a cls op code addr

/-- The state after an instruction that goes to a queue of its cell (R163, R195). -/
def State.queued (s : State) (a : At) (f : Engines → Engines) : State :=
  ((s.countIssue a).modCell a.cell (fun x => x.modEng f)).retire a

/-- The state a command leaves once every burst it moves is admitted: none of them is to be charged any more. -/
def State.admitted (t : State) : State := { t with mem := { t.mem with moved := [] } }

/-- The register writes of the host and the management core reach every die: the core domain is out of reset (R587) and
the register ring is whole but for one join at most (R25). -/
def State.regsUp (s : State) : Bool := s.coreUp && s.ringWhole

/-- Every crossing carries traffic: each join is enabled, no direction pauses for a switch (R328, R334), and no die runs a
self-test slice (R561). -/
abbrev State.crosses (s : State) : Prop :=
  (∀ j, (s.xd j).off = false ∧ ∀ d, ((s.xd j).dir d).paused s.time = false) ∧ ∀ d, vget s.test.running d = none

/-- No beat that a crossing has passed on still waits for what it carried (R326). -/
abbrev State.beatsTaken (s : State) : Prop := ∀ (j : JoinId) (d : Fin 2) (c : Fin 3), vget ((s.xd j).dir d).passed c = []

/-- Nothing holds a burst back: no request waits in a stack controller (R280), no partition's bucket is enabled (R294), no
stack is at hot level (R308), no waiting command has bursts admitted, no collective access has met a fault in the present
command, and the crossings carry traffic. -/
abbrev State.unhindered (s : State) : Prop :=
  (∀ n, (s.stack n).requests = [] ∧ (s.stack n).hot = false ∧ ∀ p, bit (vget (s.part p).stack n) 63 = false) ∧
  s.mem.prepaid = [] ∧ s.coll.stopped = [] ∧ s.crosses

/-! ### What every state of a run meets -/

/-- The package's memory is in its canonical form. -/
def State.memForm (s : State) : Prop := s.mem.dram.wf = true

/-- A context's v registers are in canonical form, and its p0 holds true (R172). -/
def Ctx.form (x : Ctx) : Prop := x.v.wf = true ∧ bit x.p 0 = true

/-- A cell's store, vat and contexts are in form. -/
def Cell.form (x : Cell) : Prop := x.store.wf = true ∧ x.vat.wf = true ∧ ∀ i, (vget x.slots i).ctx.form

/-- Every cell is in form. -/
def State.cellForm (s : State) : Prop := ∀ c, (s.cell c).form

end Sys2Proof.Machine
end

