-- ==== Sys2Proof/Certificates/Slice0/Obligations.lean ====
section
/-!
DEFINITION. The statements for the provers, each written from the numbered rules its docstring names.
-/
open Sys2Proof Sys2Proof.Machine

/-- Integer sc instructions of both formats write the result of their operation and nothing else. For every state and
operands in which one of sc.add, sub, mul, mulhu, div, divu, rem, remu, and, or, xor, shl, shr or sar executes, exec
answers the next state in which SD holds the result Table 7-2 gives for SA and SB (all ones, or the dividend, for a
zero divisor; shifts by SB mod 64), the PC stands at the next instruction, the issue is counted, and nothing else has
changed. Reserved fields, predicates, fetch and pending registers are the subject of DecodeAndPredicateRules. Where
sc.addi, andi, ori, xori, movi, ldhi or shi executes, exec answers the next state in which SD holds SA plus the sign-
extended IMM, SA combined with the zero-extended IMM, the sign-extended IMM, IMM over the low half of SA, or SA
shifted left, right or arithmetically right by IMM[5:0] as FN selects; the PC has moved on, the issue is counted, and
nothing else has changed. (07_instruction_reference R219, 06_instruction_encoding R174, 06_instruction_encoding R177)
-/
def Obligations.ScalarIntegerAndImmediateResults : Prop :=
  (
    ∀ (s : State) (a : At) (p : Pred) (f : FmtS),
      let x := s.sreg a f.sa
      let y := s.sreg a f.sb
      (s.takes (.scAdd a p f) → exec (.scAdd a p f) s = .next (s.after a (·.setS f.sd (x + y)))) ∧
      (s.takes (.scSub a p f) → exec (.scSub a p f) s = .next (s.after a (·.setS f.sd (x - y)))) ∧
      (s.takes (.scMul a p f) → exec (.scMul a p f) s = .next (s.after a (·.setS f.sd (x * y)))) ∧
      (s.takes (.scMulhu a p f) → exec (.scMulhu a p f) s = .next (s.after a (·.setS f.sd (bfld (x.zeroExtend 128 * y.zeroExtend 128) 64 64)))) ∧
      (s.takes (.scDiv a p f) → exec (.scDiv a p f) s = .next (s.after a (·.setS f.sd (if y = 0 then BitVec.allOnes 64 else x.sdiv y)))) ∧
      (s.takes (.scDivu a p f) → exec (.scDivu a p f) s = .next (s.after a (·.setS f.sd (if y = 0 then BitVec.allOnes 64 else x / y)))) ∧
      (s.takes (.scRem a p f) → exec (.scRem a p f) s = .next (s.after a (·.setS f.sd (if y = 0 then x else x.srem y)))) ∧
      (s.takes (.scRemu a p f) → exec (.scRemu a p f) s = .next (s.after a (·.setS f.sd (if y = 0 then x else x % y)))) ∧
      (s.takes (.scAnd a p f) → exec (.scAnd a p f) s = .next (s.after a (·.setS f.sd (x &&& y)))) ∧
      (s.takes (.scOr a p f) → exec (.scOr a p f) s = .next (s.after a (·.setS f.sd (x ||| y)))) ∧
      (s.takes (.scXor a p f) → exec (.scXor a p f) s = .next (s.after a (·.setS f.sd (x ^^^ y)))) ∧
      (s.takes (.scShl a p f) → exec (.scShl a p f) s = .next (s.after a (·.setS f.sd (x <<< (y.toNat % 64))))) ∧
      (s.takes (.scShr a p f) → exec (.scShr a p f) s = .next (s.after a (·.setS f.sd (x >>> (y.toNat % 64))))) ∧
      (s.takes (.scSar a p f) → exec (.scSar a p f) s = .next (s.after a (·.setS f.sd (x.sshiftRight (y.toNat % 64)))))) ∧ (
    ∀ (s : State) (a : At) (p : Pred) (f : FmtSI),
      let x := s.sreg a f.sa
      (s.takes (.scAddi a p f) → exec (.scAddi a p f) s = .next (s.after a (·.setS f.sd (x + f.imm.signExtend 64)))) ∧
      (s.takes (.scAndi a p f) → exec (.scAndi a p f) s = .next (s.after a (·.setS f.sd (x &&& f.imm.zeroExtend 64)))) ∧
      (s.takes (.scOri a p f) → exec (.scOri a p f) s = .next (s.after a (·.setS f.sd (x ||| f.imm.zeroExtend 64)))) ∧
      (s.takes (.scXori a p f) → exec (.scXori a p f) s = .next (s.after a (·.setS f.sd (x ^^^ f.imm.zeroExtend 64)))) ∧
      (s.takes (.scMovi a p f) → exec (.scMovi a p f) s = .next (s.after a (·.setS f.sd (f.imm.signExtend 64)))) ∧
      (s.takes (.scLdhi a p f) → exec (.scLdhi a p f) s = .next (s.after a (·.setS f.sd (f.imm ++ bfld x 0 32)))) ∧
      (s.takes (.scShi a p f) →
        (fld f.fn 0 2 = 0 → exec (.scShi a p f) s = .next (s.after a (·.setS f.sd (x <<< f.imm.toNat)))) ∧
        (fld f.fn 0 2 = 1 → exec (.scShi a p f) s = .next (s.after a (·.setS f.sd (x >>> f.imm.toNat)))) ∧
        (fld f.fn 0 2 = 2 → exec (.scShi a p f) s = .next (s.after a (·.setS f.sd (x.sshiftRight f.imm.toNat))))))

/-- Scalar F32 instructions write one rounded result and a zero upper half. Where one of sc.fadd, fsub, fmul, ffma,
fdiv, fsqrt, frcp, ftr or fcvt executes, exec answers the next state in which SD holds the F32 result of the low words
of SA, SB and SC in bits 31 to 0 with bits 63 to 32 zero (for fcvt, the conversion FN[1:0] selects: F32 to signed
64-bit, signed 64-bit to F32, F32 to W16, W16 to F32), the PC has moved on, the issue is counted, and nothing else has
changed. (07_instruction_reference R220, 06_instruction_encoding R174) -/
def Obligations.ScalarFloatResults : Prop :=
  ∀ (s : State) (a : At) (p : Pred) (f : FmtS),
    let x := s.freg a f.sa
    let y := s.freg a f.sb
    let z := s.freg a f.sc
    (s.takes (.scFadd a p f) → exec (.scFadd a p f) s = .next (s.after a (·.setS f.sd ((fadd x y).zeroExtend 64)))) ∧
    (s.takes (.scFsub a p f) → exec (.scFsub a p f) s = .next (s.after a (·.setS f.sd ((fsub x y).zeroExtend 64)))) ∧
    (s.takes (.scFmul a p f) → exec (.scFmul a p f) s = .next (s.after a (·.setS f.sd ((fmul x y).zeroExtend 64)))) ∧
    (s.takes (.scFfma a p f) → exec (.scFfma a p f) s = .next (s.after a (·.setS f.sd ((ffma x y z).zeroExtend 64)))) ∧
    (s.takes (.scFdiv a p f) → exec (.scFdiv a p f) s = .next (s.after a (·.setS f.sd ((fdiv x y).zeroExtend 64)))) ∧
    (s.takes (.scFsqrt a p f) → exec (.scFsqrt a p f) s = .next (s.after a (·.setS f.sd ((fsqrt x).zeroExtend 64)))) ∧
    (s.takes (.scFrcp a p f) → exec (.scFrcp a p f) s = .next (s.after a (·.setS f.sd ((if bit f.fn 0 then frsqrt x else frecip x).zeroExtend 64)))) ∧
    (s.takes (.scFtr a p f) → exec (.scFtr a p f) s = .next (s.after a (·.setS f.sd ((ftrans (transOf (fld f.fn 0 3)) x).zeroExtend 64)))) ∧
    (s.takes (.scFcvt a p f) →
      (fld f.fn 0 2 = 0 → f32 x = .nan → exec (.scFcvt a p f) s = .next (s.after a (·.setS f.sd 0))) ∧
      (fld f.fn 0 2 = 0 → f32 x = .inf true → exec (.scFcvt a p f) s = .next (s.after a (·.setS f.sd (BitVec.ofInt 64 (-2 ^ 63))))) ∧
      (fld f.fn 0 2 = 0 → f32 x = .inf false →
        exec (.scFcvt a p f) s = .next (s.after a (·.setS f.sd (BitVec.ofInt 64 (2 ^ 63 - 1))))) ∧
      (∀ k, fld f.fn 0 2 = 0 → (∃ sg m e, f32 x = .fin sg m e) → (f32 x).toInt .rtz = some k →
        exec (.scFcvt a p f) s = .next (s.after a (·.setS f.sd (BitVec.ofInt 64 (max (-2 ^ 63) (min (2 ^ 63 - 1) k)))))) ∧
      (fld f.fn 0 2 = 1 → exec (.scFcvt a p f) s =
        .next (s.after a (·.setS f.sd ((toF32 (FpNum.ofInt (s.sreg a f.sa).toInt)).zeroExtend 64)))) ∧
      (fld f.fn 0 2 = 2 → exec (.scFcvt a p f) s =
        .next (s.after a (·.setS f.sd (BitVec.ofNat 64 (W16.enc .rne (f32 x)))))) ∧
      (fld f.fn 0 2 = 3 → exec (.scFcvt a p f) s =
        .next (s.after a (·.setS f.sd ((toF32 (W16.dec (fld (s.sreg a f.sa) 0 16))).zeroExtend 64)))))

/-- Compares, predicate operations, descriptor, time and identity instructions write what the rules give. Where
sc.cmp, sc.cmpi, sc.fcmp or sc.pop executes, exec answers the next state in which predicate PD holds the outcome and
nothing else of the context but the PC has changed. For sc.cmp and sc.cmpi the codes 0 to 5 are eq, ne, signed lt,
unsigned lt, signed le, unsigned le; sc.cmpi compares with IMM sign-extended. For sc.fcmp code 0 is eq, 1 ne, 2 lt, 4
le, and a NaN makes all false but ne. sc.pop computes and, or, xor or andn of the predicates FN names, p0 reading
true. Where sc.tset, tbase, qset, qaddr, nop, time or id executes, exec answers the next state in which: t[SD] holds
words SA, SB, SC, 0; or t[SD] has EBASE and MBASE replaced by SA[22:0] and SB[22:0], its other bits kept; or q[SD]
holds words SA, SB, 0, SC; or q[SD] has words 0 and 2 replaced by SA and SB; or nothing of the context but the PC
changes; or SD is global time, the copy the cell's die holds; or SD is node, partition, slot and cell in bits 63:48,
9:8, 6 and 5:0. Nothing else has changed. (07_instruction_reference R218, 07_instruction_reference R219,
06_instruction_encoding R172, 07_instruction_reference R221, 07_instruction_reference R223, 01_package_architecture
R28) -/
def Obligations.PredicateAndDescriptorResults : Prop :=
  (
    ∀ (s : State) (a : At) (p : Pred),
      let rel := fun (k : Nat) (x y : Word64) =>
        if k = 0 then decide (x = y) else if k = 1 then decide (x ≠ y) else if k = 2 then decide (x.toInt < y.toInt)
        else if k = 3 then decide (x.toNat < y.toNat) else if k = 4 then decide (x.toInt ≤ y.toInt)
        else decide (x.toNat ≤ y.toNat)
      (∀ f : FmtS, s.takes (.scCmp a p f) → exec (.scCmp a p f) s =
        .next (s.after a (·.setP f.pd (rel (fld f.fn 0 3) (s.sreg a f.sa) (s.sreg a f.sb))))) ∧
      (∀ f : FmtSI, s.takes (.scCmpi a p f) → exec (.scCmpi a p f) s =
        .next (s.after a (·.setP f.pd (rel f.fn.toNat (s.sreg a f.sa) (f.imm.signExtend 64))))) ∧
      (∀ f : FmtS, s.takes (.scFcmp a p f) →
        let x := f32 (s.freg a f.sa)
        let y := f32 (s.freg a f.sb)
        exec (.scFcmp a p f) s = .next (s.after a (·.setP f.pd
          (match fld f.fn 0 3 with
           | 0 => x.eq y
           | 1 => !(x.eq y)
           | 2 => x.lt y
           | _ => x.lt y || x.eq y))) ∧
        ((x = .nan ∨ y = .nan) → x.eq y = false ∧ x.lt y = false)) ∧
      (∀ f : FmtS, s.takes (.scPop a p f) →
        let ps := (s.slot a).ctx.p
        let v := fun (k : Nat) => decide (k = 0) || bit ps k
        let x := v (fld f.fn 0 3)
        let y := v (fld f.fn 3 3)
        exec (.scPop a p f) s = .next (s.after a (·.setP f.pd
          (match fld f.fn 6 2 with
           | 0 => x && y
           | 1 => x || y
           | 2 => x != y
           | _ => x && !y))))) ∧ (
    ∀ (s : State) (a : At) (p : Pred) (f : FmtS),
      let x := s.sreg a f.sa
      let y := s.sreg a f.sb
      let z := s.sreg a f.sc
      let t := s.treg a (bfld f.sd 0 4)
      let q := s.qreg a (bfld f.sd 0 3)
      (s.takes (.scTset a p f) → exec (.scTset a p f) s =
        .next (s.after a (·.setT (bfld f.sd 0 4) ((0 : Word64) ++ (z ++ (y ++ x)))))) ∧
      (s.takes (.scTbase a p f) → ∃ u : BitVec 256, exec (.scTbase a p f) s = .next (s.after a (·.setT (bfld f.sd 0 4) u)) ∧
        fld u 0 23 = fld x 0 23 ∧ fld u 24 23 = fld y 0 23 ∧ bit u 23 = bit t 23 ∧ fld u 47 209 = fld t 47 209) ∧
      (s.takes (.scQset a p f) → exec (.scQset a p f) s =
        .next (s.after a (·.setQ (bfld f.sd 0 3) (z ++ ((0 : Word64) ++ (y ++ x)))))) ∧
      (s.takes (.scQaddr a p f) → exec (.scQaddr a p f) s =
        .next (s.after a (·.setQ (bfld f.sd 0 3) (bfld q 192 64 ++ (y ++ (bfld q 64 64 ++ x)))))) ∧
      (s.takes (.scNop a p f) → exec (.scNop a p f) s = .next (s.after a id)) ∧
      (s.takes (.scTime a p f) → exec (.scTime a p f) s = .next (s.after a (·.setS f.sd (s.timeOn (dieOf a.cell))))) ∧
      (s.takes (.scId a p f) → ∃ v : Word64, exec (.scId a p f) s = .next (s.after a (·.setS f.sd v)) ∧
        bfld v 48 16 = s.nodeId ∧ fld v 8 2 = ((s.partOf a.cell).getD 0).val ∧ fld v 6 1 = a.slot.val ∧
        fld v 0 6 = a.cell.val))

/-- What an instruction that changes only its context leaves, and what it leaves alone. The state after such an
instruction, named `after` in the other statements: the context is the changed one with the PC at the next instruction
word; the issue is counted once and STALL is 0; the slot keeps its job, its wait is over; the other slot, every other
cell, the cell store, the vat, the latches, the engines, the signals and the stop bits of the cell, and every other
part of the package are as before. (06_instruction_encoding R183, 05_vector_engine_and_control_core Table 5-15) -/
def Obligations.ContextChangeFrame : Prop :=
  ∀ (s : State) (a : At) (g : Ctx → Ctx),
    let t := s.after a g
    (t.slot a).ctx = { g (s.slot a).ctx with pc := (g (s.slot a).ctx).pc + 1 } ∧
    (t.cell a.cell).regs = { (s.cell a.cell).regs with coreIssue := (s.cell a.cell).regs.coreIssue + 1, stall := 0 } ∧
    (t.slot a).job = (s.slot a).job ∧ (t.slot a).grain = (s.slot a).grain ∧ (t.slot a).wait = .none ∧
    (∀ i, i ≠ a.slot → (t.cell a.cell).slot i = (s.cell a.cell).slot i) ∧
    (∀ c, c ≠ a.cell → t.cell c = s.cell c) ∧
    { t.cell a.cell with regs := (s.cell a.cell).regs, slots := (s.cell a.cell).slots } = s.cell a.cell ∧
    { t with cells := s.cells } = s

/-- Every instruction is checked at Fetch, Decode and its predicate before it acts. For each of the 120 instruction
commands: where its slot does not issue, exec answers the state unchanged. Otherwise, in this order: a fetch fault is
taken (SLOT_BOUNDS, or POISON of the fetched word); a field of the format that must be zero or a reserved predicate
takes RESERVED_FIELD (0x02); a false predicate retires the instruction with no effect but the count of the issue and
the PC; a code or other field that is not allocated takes RESERVED_FIELD; a pending s register holds it, only STALL
changing (to 0x5). The order among these checks is that of Table 5-8; that a held instruction is sent again is the
model's choice (log entry 5). (06_instruction_encoding R177, 06_instruction_encoding R179, 06_instruction_encoding
R182, 07_instruction_reference R217, 05_vector_engine_and_control_core R149, 06_instruction_encoding Table 6-12) -/
def Obligations.DecodeAndPredicateRules : Prop :=
  ∀ (i : Instr) (s : State) (w : Issued), issuedOf i = some w →
    let a := w.at_
    ((s.cell a.cell).issues a.slot = false → exec i s = .next s) ∧
    ((s.cell a.cell).issues a.slot = true →
      (s.fetchFault a = some 0x04 →
        exec i s = .next (s.coreFault a w.cls w.op 0x04 (BitVec.ofNat 64 (8 * (s.slot a).ctx.pc.toNat)))) ∧
      (s.fetchFault a = some 0x08 →
        exec i s = .next (s.corePoison a w.cls w.op (8 * (s.slot a).ctx.pc.toNat) 8)) ∧
      (s.fetchFault a = none →
        ((w.ok.fmt = false ∨ (w.p.neg = true ∧ w.p.preg = 0)) → exec i s = .next (s.coreFault a w.cls w.op 0x02 0)) ∧
        (w.ok.fmt = true → (w.p.preg ≠ 0 ∧ bit (s.slot a).ctx.p w.p.preg.toNat = w.p.neg) →
          exec i s = .next (s.after a id)) ∧
        (w.ok.fmt = true → predReserved w.p = false → predTrue w.p (s.slot a).ctx.p = true →
          (w.ok.code = false → exec i s = .next (s.coreFault a w.cls w.op 0x02 0)) ∧
          (w.ok.code = true → (∃ r ∈ w.names, (s.cell a.cell).pendingS a.slot r) → exec i s = .next (s.stall a 0x5)))))

/-- Cell store loads and stores move the bytes they name, or take POISON, SLOT_BOUNDS or MISALIGNED. Where sc.ld, st,
tld, tst, qld or qst executes, no earlier instruction of its slot holds an overlapping range, and the 8 or 32 bytes at
its address (SA + sext(IMM), or SA) lie in the slot's part of the cell store and are aligned to their size: a load
writes the little-endian number into SD, t[SD] or q[SD], or takes POISON where a word is poisoned; a store writes
exactly those bytes of the cell store and retires. Outside the slot's part the instruction takes SLOT_BOUNDS,
misaligned inside it MISALIGNED, with the address. StoredBytesReadBack says what a write leaves of the store.
(07_instruction_reference R221, 06_instruction_encoding R198, 06_instruction_encoding Table 6-12) -/
def Obligations.CellStoreAccessResults : Prop :=
  ∀ (s : State) (a : At) (p : Pred),
    let x := s.cell a.cell
    let free := fun (ad : Word64) (n : Nat) (w : Bool) =>
      x.rangesHeld a.cell s.isLocal a.slot (x.slot a.slot).seqNext [(ad.toNat, n, w)] = false
    let good := fun (ad : Word64) (n : Nat) => x.inPart a.slot ad.toNat n = true ∧ ad.toNat % n = 0
    let stored := fun (ad : Word64) (bs : List Byte) =>
      ((s.countIssue a).modCell a.cell (fun y => { y with store := y.store.write ad.toNat bs })).retire a
    (∀ f : FmtSI, s.takes (.scLd a p f) → free (s.sreg a f.sa + f.imm.signExtend 64) 8 false → good (s.sreg a f.sa + f.imm.signExtend 64) 8 →
      (x.store.anyPoison (s.sreg a f.sa + f.imm.signExtend 64).toNat 8 = false → exec (.scLd a p f) s = .next (s.after a (·.setS f.sd (BitVec.ofNat 64 (x.store.num (s.sreg a f.sa + f.imm.signExtend 64).toNat 8))))) ∧
      (x.store.anyPoison (s.sreg a f.sa + f.imm.signExtend 64).toNat 8 = true →
        exec (.scLd a p f) s = .next ((s.countIssue a).corePoison a 1 0x40 (s.sreg a f.sa + f.imm.signExtend 64).toNat 8))) ∧
    (∀ f : FmtSI, s.takes (.scSt a p f) → free (s.sreg a f.sa + f.imm.signExtend 64) 8 true → good (s.sreg a f.sa + f.imm.signExtend 64) 8 →
      exec (.scSt a p f) s = .next (stored (s.sreg a f.sa + f.imm.signExtend 64) (leBytes 8 (s.sreg a f.sd).toNat))) ∧
    (∀ f : FmtS, s.takes (.scTld a p f) → free (s.sreg a f.sa) 32 false → good (s.sreg a f.sa) 32 →
      (x.store.anyPoison (s.sreg a f.sa).toNat 32 = false → exec (.scTld a p f) s = .next (s.after a (·.setT (bfld f.sd 0 4) (BitVec.ofNat 256 (x.store.num (s.sreg a f.sa).toNat 32))))) ∧
      (x.store.anyPoison (s.sreg a f.sa).toNat 32 = true →
        exec (.scTld a p f) s = .next ((s.countIssue a).corePoison a 1 0x50 (s.sreg a f.sa).toNat 32))) ∧
    (∀ f : FmtS, s.takes (.scTst a p f) → free (s.sreg a f.sa) 32 true → good (s.sreg a f.sa) 32 →
      exec (.scTst a p f) s = .next (stored (s.sreg a f.sa) (leBytes 32 (s.treg a (bfld f.sd 0 4)).toNat))) ∧
    (∀ f : FmtS, s.takes (.scQld a p f) → free (s.sreg a f.sa) 32 false → good (s.sreg a f.sa) 32 →
      (x.store.anyPoison (s.sreg a f.sa).toNat 32 = false → exec (.scQld a p f) s = .next (s.after a (·.setQ (bfld f.sd 0 3) (BitVec.ofNat 256 (x.store.num (s.sreg a f.sa).toNat 32))))) ∧
      (x.store.anyPoison (s.sreg a f.sa).toNat 32 = true →
        exec (.scQld a p f) s = .next ((s.countIssue a).corePoison a 1 0x54 (s.sreg a f.sa).toNat 32))) ∧
    (∀ f : FmtS, s.takes (.scQst a p f) → free (s.sreg a f.sa) 32 true → good (s.sreg a f.sa) 32 →
      exec (.scQst a p f) s = .next (stored (s.sreg a f.sa) (leBytes 32 (s.qreg a (bfld f.sd 0 3)).toNat))) ∧
    (∀ f : FmtSI, s.takes (.scLd a p f) → free (s.sreg a f.sa + f.imm.signExtend 64) 8 false →
      (x.inPart a.slot (s.sreg a f.sa + f.imm.signExtend 64).toNat 8 = false → exec (.scLd a p f) s = .next (s.faulted a 1 0x40 0x04 (s.sreg a f.sa + f.imm.signExtend 64))) ∧
      (x.inPart a.slot (s.sreg a f.sa + f.imm.signExtend 64).toNat 8 = true → (s.sreg a f.sa + f.imm.signExtend 64).toNat % 8 ≠ 0 →
        exec (.scLd a p f) s = .next (s.faulted a 1 0x40 0x05 (s.sreg a f.sa + f.imm.signExtend 64)))) ∧
    (∀ f : FmtSI, s.takes (.scSt a p f) → free (s.sreg a f.sa + f.imm.signExtend 64) 8 true →
      (x.inPart a.slot (s.sreg a f.sa + f.imm.signExtend 64).toNat 8 = false → exec (.scSt a p f) s = .next (s.faulted a 1 0x41 0x04 (s.sreg a f.sa + f.imm.signExtend 64))) ∧
      (x.inPart a.slot (s.sreg a f.sa + f.imm.signExtend 64).toNat 8 = true → (s.sreg a f.sa + f.imm.signExtend 64).toNat % 8 ≠ 0 →
        exec (.scSt a p f) s = .next (s.faulted a 1 0x41 0x05 (s.sreg a f.sa + f.imm.signExtend 64)))) ∧
    (∀ f : FmtS, s.takes (.scTld a p f) → free (s.sreg a f.sa) 32 false →
      (x.inPart a.slot (s.sreg a f.sa).toNat 32 = false → exec (.scTld a p f) s = .next (s.faulted a 1 0x50 0x04 (s.sreg a f.sa))) ∧
      (x.inPart a.slot (s.sreg a f.sa).toNat 32 = true → (s.sreg a f.sa).toNat % 32 ≠ 0 →
        exec (.scTld a p f) s = .next (s.faulted a 1 0x50 0x05 (s.sreg a f.sa)))) ∧
    (∀ f : FmtS, s.takes (.scTst a p f) → free (s.sreg a f.sa) 32 true →
      (x.inPart a.slot (s.sreg a f.sa).toNat 32 = false → exec (.scTst a p f) s = .next (s.faulted a 1 0x51 0x04 (s.sreg a f.sa))) ∧
      (x.inPart a.slot (s.sreg a f.sa).toNat 32 = true → (s.sreg a f.sa).toNat % 32 ≠ 0 →
        exec (.scTst a p f) s = .next (s.faulted a 1 0x51 0x05 (s.sreg a f.sa)))) ∧
    (∀ f : FmtS, s.takes (.scQld a p f) → free (s.sreg a f.sa) 32 false →
      (x.inPart a.slot (s.sreg a f.sa).toNat 32 = false → exec (.scQld a p f) s = .next (s.faulted a 1 0x54 0x04 (s.sreg a f.sa))) ∧
      (x.inPart a.slot (s.sreg a f.sa).toNat 32 = true → (s.sreg a f.sa).toNat % 32 ≠ 0 →
        exec (.scQld a p f) s = .next (s.faulted a 1 0x54 0x05 (s.sreg a f.sa)))) ∧
    (∀ f : FmtS, s.takes (.scQst a p f) → free (s.sreg a f.sa) 32 true →
      (x.inPart a.slot (s.sreg a f.sa).toNat 32 = false → exec (.scQst a p f) s = .next (s.faulted a 1 0x55 0x04 (s.sreg a f.sa))) ∧
      (x.inPart a.slot (s.sreg a f.sa).toNat 32 = true → (s.sreg a f.sa).toNat % 32 ≠ 0 →
        exec (.scQst a p f) s = .next (s.faulted a 1 0x55 0x05 (s.sreg a f.sa))))

/-- Stored bytes read back; the (39,32) code corrects one flipped bit and detects two. For every protected memory (a
cell store, a vat, v registers, DRAM) in canonical form, address and byte list: the write keeps the canonical form;
after it every byte outside the range reads as it read before (a word written in part keeps what a read of it
delivered, and stays poisoned if it was); and where the range is whole 32-bit words, reading it gives the bytes
written and no word of it is poisoned. For every data word: its stored word decodes to it with no error found; with
any one of the 39 bits flipped it decodes to the data, the flipped data or check bit named; with any two bits flipped
it is delivered poisoned; and with the check field complemented by 0x7F it reads as a poison mark. (09_memory_system
R298, 09_memory_system R299, 09_memory_system R301, 09_memory_system R300) -/
def Obligations.StoredWordsAndTheirCode : Prop :=
  (
    ∀ (m : ProtMem) (a : Nat) (bs : List Byte), m.wf →
      (m.write a bs).wf ∧
      (∀ b, b < a ∨ a + bs.length ≤ b →
        (m.write a bs).readByte b = m.readByte b ∧
        ((b / 4 < a / 4 ∨ (a + bs.length + 3) / 4 ≤ b / 4 ∨ b / 4 = a / 4 ∨ b / 4 = (a + bs.length) / 4) →
          (m.write a bs).poisonedWord (b / 4) = m.poisonedWord (b / 4))) ∧
      (a % 4 = 0 → bs.length % 4 = 0 →
        (m.write a bs).read a bs.length = bs ∧
        ∀ w, a ≤ 4 * w → 4 * w < a + bs.length → (m.write a bs).poisonedWord w = false)) ∧ (
    ∀ d : Word32,
      eccDecode (eccCode d) = (d, .good) ∧
      (∀ i, i < 32 → eccDecode (eccCode d ^^^ ((1 : BitVec 39) <<< i)) = (d, .fixedData i)) ∧
      (∀ i, 32 ≤ i → i < 39 → eccDecode (eccCode d ^^^ ((1 : BitVec 39) <<< i)) = (d, .fixedCheck i)) ∧
      (∀ i j, i < j → j < 39 →
        (eccDecode (eccCode d ^^^ (((1 : BitVec 39) <<< i) ^^^ ((1 : BitVec 39) <<< j)))).2.poisoned = true) ∧
      eccDecode (eccCode d ^^^ ((0x7F : BitVec 39) <<< 32)) = (d, .mark))

/-- Branches move the PC inside the slot's part; sc.call links through s31; sc.exit ends its context. Where sc.br, bri
or call executes and its target (PC + OFFSET in words, or SA / 8 for an SA that is a multiple of 8) names a word in
the slot's part, exec answers the state in which the PC is the target, the issue is counted, s31 holds the byte offset
after a call, and nothing else has changed; elsewhere it takes BRANCH_RANGE (0x06), or MISALIGNED (0x05) for an SA
that is no multiple of 8. sc.exit with every queue free of its instructions and no vat row live empties its slot with
END_CAUSE 1 and the initial state of Table 6-1, leaves it owning no latch, and clears the vat; with a live row it
takes VAT_LIVE (0x0C); else it is held. (06_instruction_encoding R184, 07_instruction_reference R223,
08_latches_contexts_partitions R266, 08_latches_contexts_partitions R251) -/
def Obligations.BranchesAndContextEnd : Prop :=
  ∀ (s : State) (a : At) (p : Pred) (f : FmtSB),
    let x := s.cell a.cell
    let pc := (s.slot a).ctx.pc.toNat
    let went := fun (t : Nat) (g : Ctx → Ctx) => (s.countIssue a).modSlot a (fun y =>
      { y with ctx := { g y.ctx with pc := BitVec.ofNat 20 t }, seqNext := y.seqNext + 1 })
    let rel : Int := (pc : Int) + f.offset.toInt
    (s.takes (.scBr a p f) →
      (∀ t : Nat, rel = t → x.inPart a.slot (8 * t) 8 = true → exec (.scBr a p f) s = .next (went t id)) ∧
      ((rel < 0 ∨ x.inPart a.slot (8 * rel.toNat) 8 = false) → exec (.scBr a p f) s = .next (s.faulted a 1 0x60 0x06 0))) ∧
    (s.takes (.scBri a p f) →
      (∀ t : Nat, (s.sreg a f.sa).toNat = 8 * t →
        (x.inPart a.slot (8 * t) 8 = true → exec (.scBri a p f) s = .next (went t id)) ∧
        (x.inPart a.slot (8 * t) 8 = false → exec (.scBri a p f) s = .next (s.faulted a 1 0x61 0x06 0))) ∧
      ((s.sreg a f.sa).toNat % 8 ≠ 0 → exec (.scBri a p f) s = .next (s.faulted a 1 0x61 0x05 (s.sreg a f.sa)))) ∧
    (s.takes (.scCall a p f) →
      (∀ t : Nat, rel = t → x.inPart a.slot (8 * t) 8 = true →
        exec (.scCall a p f) s = .next (went t (·.setS 31 (BitVec.ofNat 64 (8 * pc + 8))))) ∧
      ((rel < 0 ∨ x.inPart a.slot (8 * rel.toNat) 8 = false) →
        exec (.scCall a p f) s = .next (s.faulted a 1 0x62 0x06 0))) ∧
    (∀ g : FmtS, s.takes (.scExit a p g) →
      (x.allBusy a.slot = false → x.vatAnyLive = false → Completes (.scExit a p g) s (fun t =>
        (t.slot a).state = .empty ∧ (t.slot a).endCause = 1 ∧
        (t.slot a).ctx = { Ctx.initial with pc := (s.slot a).ctx.pc } ∧
        (∀ l, (t.cell a.cell).latch l = Latch.reset ∨ ((t.cell a.cell).latch l).owner.map (·.1) ≠ some a.slot) ∧
        (t.cell a.cell).vat = ProtMem.empty ∧ (t.cell a.cell).vatLive = 0 ∧ (t.cell a.cell).eng.vatClear = true ∧
        (t.cell a.cell).store = x.store)) ∧
      (x.allBusy a.slot = false → x.vatAnyLive = true → exec (.scExit a p g) s = .next (s.faulted a 1 0x71 0x0C 0)) ∧
      (x.allBusy a.slot = true → exec (.scExit a p g) s = .next (s.stall a 0)))

/-- An mx or vx instruction joins its queue with what it captured, is held by a full queue, or faults. Where mx.mma,
drain, vsave, vload or vfree executes, its tile descriptors pass R187, the plate queue holds fewer than 64
instructions and its context's scoreboard has room for its ranges (two of mx.mma, one of a transfer, one more for a
RESID stream), exec answers the state in which the instruction stands last in the plate queue with its fields and the
descriptors it names as they are now, the issue is counted, the PC has moved on, and nothing else has changed; a drain
under SR also reserves draws of its slot's grain (only the draw counters change). A bad descriptor takes TILE_DESC
(0x03); a full queue or scoreboard holds it (STALL 0x1 or 0xA). For each of the 38 vx commands (vx.add to vx.sha256 in
format V, vx.optstep, vx.rmode entered and left, and the six immediate forms in format VI, as vectorWord lists them):
where it executes, no stream descriptor it names fails R187, and the vector queue holds fewer than 32 instructions,
exec answers the state in which the instruction stands last in the vector queue with its opcode and fields, the tile
descriptors and s registers its specifiers name as they are now; the issue is counted, the PC has moved on; of its
slot only the draw counters may differ; vx.optstep also clears OPT_STATUS. A bad descriptor takes TILE_DESC (0x03), a
full queue holds it with STALL 0x2. (05_vector_engine_and_control_core R163, 06_instruction_encoding R187,
04_plate_and_vat R126, 06_instruction_encoding R195, 05_vector_engine_and_control_core R154, 07_instruction_reference
R233) -/
def Obligations.PlateAndVectorDispatch : Prop :=
  (
    ∀ (s : State) (a : At) (p : Pred) (f : FmtM),
      let x := s.cell a.cell
      let room := x.eng.plateQ.length < 64
      let add := fun (m : MxInstr) (y : Engines) => { y with plateQ := y.plateQ ++ [m] }
      (s.takes (.mxMma a p f) → tileGood (s.treg a f.ta) → tileGood (s.treg a f.tb) → x.scoreboard a.slot + 2 ≤ 16 → room → exec (.mxMma a p f) s =
        .next (s.queued a (add ⟨s.dispatchTag a 2 0x01, .mma, f, s.treg a f.ta, s.treg a f.tb, (s.slot a).grain.plain⟩))) ∧
      (s.takes (.mxVsave a p f) → tileGood (s.treg a f.ta) → x.scoreboard a.slot + 1 ≤ 16 → room → exec (.mxVsave a p f) s =
        .next (s.queued a (add ⟨s.dispatchTag a 2 0x03, .vsave, f, s.treg a f.ta, 0, (s.slot a).grain.plain⟩))) ∧
      (s.takes (.mxVload a p f) → tileGood (s.treg a f.ta) → x.scoreboard a.slot + 1 ≤ 16 → room → exec (.mxVload a p f) s =
        .next (s.queued a (add ⟨s.dispatchTag a 2 0x04, .vload, f, s.treg a f.ta, 0, (s.slot a).grain.plain⟩))) ∧
      (s.takes (.mxVfree a p f) → x.scoreboard a.slot < 16 → room → exec (.mxVfree a p f) s =
        .next (s.queued a (add ⟨s.dispatchTag a 2 0x05, .vfree, f, 0, 0, (s.slot a).grain.plain⟩))) ∧
      (s.takes (.mxDrain a p f) → tileGood (s.treg a f.ta) →
        (x.scoreboard a.slot + 2 ≤ 16 ∨ f.epiv = 0 ∧ x.scoreboard a.slot + 1 ≤ 16) → room →
        ∃ (d : Draw) (n : Sparse (BitVec 49)),
          exec (.mxDrain a p f) s = .next ((s.setGrain a { (s.slot a).grain with counters := n }).queued a
            (add ⟨s.dispatchTag a 2 0x02, .drain, f, s.treg a f.ta, 0, d⟩)) ∧
          d.start = (s.slot a).grain.counters ∧ d.laneBase = (s.slot a).grain.keyBase ∧
          d.seqSlot = (s.slot a).grain.seqSlot ∧ d.jobSeed = (s.slot a).grain.jobSeed ∧
          (f.rm ≠ 2 → n = (s.slot a).grain.counters)) ∧
      (s.takes (.mxMma a p f) → (tileGood (s.treg a f.ta) = false ∨ tileGood (s.treg a f.tb) = false) →
        exec (.mxMma a p f) s = .next (s.faulted a 2 0x01 0x03 0)) ∧
      (s.takes (.mxMma a p f) → tileGood (s.treg a f.ta) → tileGood (s.treg a f.tb) → 64 ≤ x.eng.plateQ.length →
        exec (.mxMma a p f) s = .next (s.stall a 0x1)) ∧
      (s.takes (.mxMma a p f) → tileGood (s.treg a f.ta) → tileGood (s.treg a f.tb) → room →
        (16 ≤ x.scoreboard a.slot ∨ 14 < x.scoreboard a.slot ∧ 0 < (tileOf (s.treg a f.ta)).lcols) →
        exec (.mxMma a p f) s = .next (s.stall a 0xA))) ∧ (
    ∀ (s : State) (a : At) (p : Pred),
      let q := (s.cell a.cell).eng.vecQ
      let specs := fun (m : VxInstr) => [m.d, m.a, m.b, m.c].map (specOf m.vi)
      let described := fun (m : VxInstr) => ∀ t, .stream t ∈ specs m → tileGood (s.treg a t)
      let ready := fun (m : VxInstr) => described m ∧ q.length < 32
      let joined := fun (m : VxInstr) (t : State) => ∃ (w : VxInstr) (n : Sparse (BitVec 49)),
        t = ((s.setGrain a { (s.slot a).grain with counters := n }).modCell a.cell (fun x =>
          if m.op = 0x40 then x.modRegs (fun r => { r with optStatus := 0 }) else x)).queued a
          (fun e => { e with vecQ := e.vecQ ++ [w] }) ∧
        w.op = m.op ∧ w.vi = m.vi ∧ w.d = m.d ∧ w.a = m.a ∧ w.b = m.b ∧ w.c = m.c ∧ w.rm = m.rm ∧ w.fmt = m.fmt ∧
        w.fn = m.fn ∧ w.imm = m.imm ∧ w.tag.slot = a.slot ∧ w.tag.pc = (s.slot a).ctx.pc ∧ w.tag.opcode = m.op ∧
        (∀ t, specOf m.vi m.d = .stream t → vget w.descs 0 = s.treg a t) ∧
        (∀ t, specOf m.vi m.a = .stream t → vget w.descs 1 = s.treg a t) ∧
        (∀ t, specOf m.vi m.b = .stream t → vget w.descs 2 = s.treg a t) ∧
        (∀ t, specOf m.vi m.c = .stream t → vget w.descs 3 = s.treg a t) ∧
        (∀ r, specOf m.vi m.a = .scalar r → vget w.svals 1 = s.sreg a r) ∧
        (∀ r, specOf m.vi m.b = .scalar r → vget w.svals 2 = s.sreg a r) ∧
        (∀ r, specOf m.vi m.c = .scalar r → vget w.svals 3 = s.sreg a r) ∧
        (w.draws = false → m.op ≠ 0x29 → n = (s.slot a).grain.counters)
      (∀ f : FmtV,
        (s.takes (.vxAdd a p f) → ready (vInstr 0x01 f) → Completes (.vxAdd a p f) s (joined (vInstr 0x01 f))) ∧
        (s.takes (.vxSub a p f) → ready (vInstr 0x02 f) → Completes (.vxSub a p f) s (joined (vInstr 0x02 f))) ∧
        (s.takes (.vxMul a p f) → ready (vInstr 0x03 f) → Completes (.vxMul a p f) s (joined (vInstr 0x03 f))) ∧
        (s.takes (.vxFma a p f) → ready (vInstr 0x04 f) → Completes (.vxFma a p f) s (joined (vInstr 0x04 f))) ∧
        (s.takes (.vxNeg a p f) → ready (vInstr 0x05 f) → Completes (.vxNeg a p f) s (joined (vInstr 0x05 f))) ∧
        (s.takes (.vxAbs a p f) → ready (vInstr 0x06 f) → Completes (.vxAbs a p f) s (joined (vInstr 0x06 f))) ∧
        (s.takes (.vxMin a p f) → ready (vInstr 0x07 f) → Completes (.vxMin a p f) s (joined (vInstr 0x07 f))) ∧
        (s.takes (.vxMax a p f) → ready (vInstr 0x08 f) → Completes (.vxMax a p f) s (joined (vInstr 0x08 f))) ∧
        (s.takes (.vxSel a p f) → ready (vInstr 0x09 f) → Completes (.vxSel a p f) s (joined (vInstr 0x09 f))) ∧
        (s.takes (.vxCmp a p f) → ready (vInstr 0x0A f) → Completes (.vxCmp a p f) s (joined (vInstr 0x0A f))) ∧
        (s.takes (.vxCvt a p f) → ready (vInstr 0x0B f) → Completes (.vxCvt a p f) s (joined (vInstr 0x0B f))) ∧
        (s.takes (.vxDiv a p f) → ready (vInstr 0x10 f) → Completes (.vxDiv a p f) s (joined (vInstr 0x10 f))) ∧
        (s.takes (.vxSqrt a p f) → ready (vInstr 0x11 f) → Completes (.vxSqrt a p f) s (joined (vInstr 0x11 f))) ∧
        (s.takes (.vxRecip a p f) → ready (vInstr 0x12 f) → Completes (.vxRecip a p f) s (joined (vInstr 0x12 f))) ∧
        (s.takes (.vxRsqrt a p f) → ready (vInstr 0x13 f) → Completes (.vxRsqrt a p f) s (joined (vInstr 0x13 f))) ∧
        (s.takes (.vxExp a p f) → ready (vInstr 0x18 f) → Completes (.vxExp a p f) s (joined (vInstr 0x18 f))) ∧
        (s.takes (.vxExp2 a p f) → ready (vInstr 0x19 f) → Completes (.vxExp2 a p f) s (joined (vInstr 0x19 f))) ∧
        (s.takes (.vxLog a p f) → ready (vInstr 0x1A f) → Completes (.vxLog a p f) s (joined (vInstr 0x1A f))) ∧
        (s.takes (.vxLog2 a p f) → ready (vInstr 0x1B f) → Completes (.vxLog2 a p f) s (joined (vInstr 0x1B f))) ∧
        (s.takes (.vxTanh a p f) → ready (vInstr 0x1C f) → Completes (.vxTanh a p f) s (joined (vInstr 0x1C f))) ∧
        (s.takes (.vxSigmoid a p f) → ready (vInstr 0x1D f) → Completes (.vxSigmoid a p f) s (joined (vInstr 0x1D f))) ∧
        (s.takes (.vxErf a p f) → ready (vInstr 0x1E f) → Completes (.vxErf a p f) s (joined (vInstr 0x1E f))) ∧
        (s.takes (.vxSegred a p f) → ready (vInstr 0x20 f) → Completes (.vxSegred a p f) s (joined (vInstr 0x20 f))) ∧
        (s.takes (.vxBcast a p f) → ready (vInstr 0x21 f) → Completes (.vxBcast a p f) s (joined (vInstr 0x21 f))) ∧
        (s.takes (.vxGrain a p f) → ready (vInstr 0x28 f) → Completes (.vxGrain a p f) s (joined (vInstr 0x28 f))) ∧
        (s.takes (.vxGskip a p f) → ready (vInstr 0x29 f) → Completes (.vxGskip a p f) s (joined (vInstr 0x29 f))) ∧
        (s.takes (.vxSumm a p f) → ready (vInstr 0x30 f) → Completes (.vxSumm a p f) s (joined (vInstr 0x30 f))) ∧
        (s.takes (.vxCrc64 a p f) → ready (vInstr 0x38 f) → Completes (.vxCrc64 a p f) s (joined (vInstr 0x38 f))) ∧
        (s.takes (.vxSha256 a p f) → ready (vInstr 0x39 f) → Completes (.vxSha256 a p f) s (joined (vInstr 0x39 f)))) ∧
      (∀ f : FmtVI,
        (s.takes (.vxOptstep a p f) → ready (viInstr 0x40 f) → Completes (.vxOptstep a p f) s (joined (viInstr 0x40 f))) ∧
        (s.takes (.vxRmodeEnter a p f) → ready (viInstr 0x41 f) → Completes (.vxRmodeEnter a p f) s (joined (viInstr 0x41 f))) ∧
        (s.takes (.vxRmodeLeave a p f) → ready (viInstr 0x41 f) → Completes (.vxRmodeLeave a p f) s (joined (viInstr 0x41 f))) ∧
        (s.takes (.vxAddi a p f) → ready (viInstr 0x81 f) → Completes (.vxAddi a p f) s (joined (viInstr 0x81 f))) ∧
        (s.takes (.vxSubi a p f) → ready (viInstr 0x82 f) → Completes (.vxSubi a p f) s (joined (viInstr 0x82 f))) ∧
        (s.takes (.vxMuli a p f) → ready (viInstr 0x83 f) → Completes (.vxMuli a p f) s (joined (viInstr 0x83 f))) ∧
        (s.takes (.vxFmai a p f) → ready (viInstr 0x84 f) → Completes (.vxFmai a p f) s (joined (viInstr 0x84 f))) ∧
        (s.takes (.vxMini a p f) → ready (viInstr 0x87 f) → Completes (.vxMini a p f) s (joined (viInstr 0x87 f))) ∧
        (s.takes (.vxMaxi a p f) → ready (viInstr 0x88 f) → Completes (.vxMaxi a p f) s (joined (viInstr 0x88 f)))) ∧
      (∀ (i : Instr) (m : VxInstr), vectorWord i = some (a, p, m) → s.takes i →
        ((∃ t, .stream t ∈ specs m ∧ tileGood (s.treg a t) = false) → exec i s = .next (s.faulted a 3 m.op 0x03 0)) ∧
        (described m → 32 ≤ q.length → exec i s = .next (s.stall a 0x2))))

/-- A dispatched dm or cl instruction joins its queue with its descriptors. Where dm.get, put or copy or one of cl.ag,
rs, ar, a2a, bcast, bar and untag executes, its descriptors pass R187 and R193, and the mover queue holds fewer than
32 or the collective queue fewer than 16 instructions, exec answers the state in which the instruction stands last in
that queue with the descriptors (and for dm the offset register where SOV is 1) as they are now; the issue is counted,
the PC has moved on and nothing else has changed. (05_vector_engine_and_control_core R163, 06_instruction_encoding
R187, 06_instruction_encoding R193, 06_instruction_encoding R195, 07_instruction_reference R240) -/
def Obligations.MoverAndCollectiveDispatch : Prop :=
  ∀ (s : State) (a : At) (p : Pred) (f : FmtQ),
    let e := (s.cell a.cell).eng
    let so := if f.sov = 1 then s.sreg a f.so else 0
    let mv := fun (m : DmInstr) (y : Engines) => { y with moverQ := y.moverQ ++ [m] }
    let cl := fun (op : Byte) (y : Engines) => { y with clQ := y.clQ ++ [⟨s.dispatchTag a 6 op, op, f, s.qreg a f.q⟩] }
    (e.moverQ.length < 32 → qdescGood (s.qreg a f.q) → tileGood (s.treg a f.t) →
      (s.takes (.dmGet a p f) → exec (.dmGet a p f) s =
        .next (s.queued a (mv ⟨s.dispatchTag a 4 0x01, 0x01, f, s.qreg a f.q, 0, s.treg a f.t, so⟩))) ∧
      (s.takes (.dmPut a p f) → exec (.dmPut a p f) s =
        .next (s.queued a (mv ⟨s.dispatchTag a 4 0x02, 0x02, f, s.qreg a f.q, 0, s.treg a f.t, so⟩)))) ∧
    (e.moverQ.length < 32 → qdescGood (s.qreg a f.q) → qdescGood (s.qreg a (bfld f.fn 24 3)) →
      s.takes (.dmCopy a p f) → exec (.dmCopy a p f) s =
        .next (s.queued a (mv ⟨s.dispatchTag a 4 0x03, 0x03, f, s.qreg a f.q, s.qreg a (bfld f.fn 24 3), 0, so⟩))) ∧
    (e.clQ.length < 16 → qdescGood (s.qreg a f.q) →
      (s.takes (.clAg a p f) → exec (.clAg a p f) s = .next (s.queued a (cl 0x01))) ∧
      (s.takes (.clRs a p f) → exec (.clRs a p f) s = .next (s.queued a (cl 0x02))) ∧
      (s.takes (.clAr a p f) → exec (.clAr a p f) s = .next (s.queued a (cl 0x03))) ∧
      (s.takes (.clA2a a p f) → exec (.clA2a a p f) s = .next (s.queued a (cl 0x04))) ∧
      (s.takes (.clBcast a p f) → exec (.clBcast a p f) s = .next (s.queued a (cl 0x05))) ∧
      (s.takes (.clBar a p f) → exec (.clBar a p f) s = .next (s.queued a (cl 0x06))) ∧
      (s.takes (.clUntag a p f) → exec (.clUntag a p f) s = .next (s.queued a (cl 0x07)))) ∧
    (qdescGood (s.qreg a f.q) = false →
      (s.takes (.dmGet a p f) → exec (.dmGet a p f) s = .next (s.faulted a 4 0x01 0x03 0)) ∧
      (s.takes (.dmPut a p f) → exec (.dmPut a p f) s = .next (s.faulted a 4 0x02 0x03 0)) ∧
      (s.takes (.dmCopy a p f) → exec (.dmCopy a p f) s = .next (s.faulted a 4 0x03 0x03 0)) ∧
      (s.takes (.clAg a p f) → exec (.clAg a p f) s = .next (s.faulted a 6 0x01 0x03 0)) ∧
      (s.takes (.clRs a p f) → exec (.clRs a p f) s = .next (s.faulted a 6 0x02 0x03 0)) ∧
      (s.takes (.clAr a p f) → exec (.clAr a p f) s = .next (s.faulted a 6 0x03 0x03 0)) ∧
      (s.takes (.clA2a a p f) → exec (.clA2a a p f) s = .next (s.faulted a 6 0x04 0x03 0)) ∧
      (s.takes (.clBcast a p f) → exec (.clBcast a p f) s = .next (s.faulted a 6 0x05 0x03 0)) ∧
      (s.takes (.clBar a p f) → exec (.clBar a p f) s = .next (s.faulted a 6 0x06 0x03 0)) ∧
      (s.takes (.clUntag a p f) → exec (.clUntag a p f) s = .next (s.faulted a 6 0x07 0x03 0)))

/-- The plate queue starts, refuses or frees in order; tiles load two at a time; the vat clear ends. PLATE_ISSUE,
while no vat clear and no restore runs and no earlier instruction of the slot holds an overlapping range, takes the
oldest instruction out of the plate queue: one without an issue fault joins the started instructions with the K_p of
PLATE_CFG and the epilogue it captured, at row 0 and slice 0; one with a fault of Table 4-8 completes with that fault;
mx.vfree of rows that no in-flight window or started instruction touches clears exactly their live bits.
STATIONARY_TILE_LOADED, while the plate holds fewer than two tiles, reads the next slice of B of the first started
mx.mma with tiles to load, or the first slice of the next mx.mma in the queue, and keeps it; while it holds two
nothing changes. VAT_CLEAR_DONE ends the clear. Nothing else changes. (04_plate_and_vat R126, 04_plate_and_vat R127,
04_plate_and_vat R105, 04_plate_and_vat R118, 04_plate_and_vat Table 4-8, 07_instruction_reference R225) -/
def Obligations.PlateQueueStarts : Prop :=
  ∀ (s : State) (c : CellId),
    let x := s.cell c
    let eng := fun (f : Engines → Engines) => s.modCell c (fun y => y.modEng f)
    let noFree := ∀ q ∈ x.eng.plateRun, q.ins.kind ≠ .vfree
    (∀ (m : MxInstr) (rest : List MxInstr), x.eng.plateQ = m :: rest → x.eng.vatClear = false → x.eng.restore = false →
      let ep := s.epilogue c m
      x.rangesHeld c s.isLocal m.tag.slot m.tag.seq (x.queuedRngs m) = false →
      (m.fault x ep.1 ep.2.2 = none →
        Completes (.plateIssue c) s (fun t => (t.cell c).eng.plateQ = rest ∧ (t.cell c).store = x.store ∧
          (t.cell c).vat = x.vat ∧ (∀ d, d ≠ c → t.cell d = s.cell d) ∧ { t with cells := s.cells } = s) ∧
        (m.kind ≠ .vfree → noFree → ∃ r : MxRun, exec (.plateIssue c) s = .next (eng (fun e =>
            { e with plateQ := rest, plateNext := e.plateNext + 1, plateRun := e.plateRun ++ [r] })) ∧
          r.ins = m ∧ r.order = x.eng.plateNext ∧ r.kp = 2 ^ (max (fld x.regs.plateCfg 0 3) 3) ∧ r.epi = ep.1 ∧
          r.bias = ep.2.1 ∧ r.resid = ep.2.2 ∧ r.tiles = (x.eng.tilesOf m).length ∧ r.slice = 0 ∧ r.row = 0) ∧
        (m.kind = .vfree → noFree →
          (∀ row, m.f.base.toNat ≤ row → row < m.f.base.toNat + m.f.count.toNat →
            (∀ q ∈ x.eng.inflight, q.row ≠ row) ∧ (∀ q ∈ x.eng.plateRun, q.pendingRow row = false)) →
          ∃ live : BitVec 4096, exec (.plateIssue c) s =
              .next (s.modCell c (fun y => { y.modEng (fun e =>
                { e with plateQ := rest, plateNext := e.plateNext + 1 }) with vatLive := live })) ∧
            ∀ row, row < 4096 → bit live row =
              (bit x.vatLive row && !(decide (m.f.base.toNat ≤ row) && decide (row < m.f.base.toNat + m.f.count.toNat))))) ∧
      (∀ code, m.fault x ep.1 ep.2.2 = some code → exec (.plateIssue c) s =
        .next ((eng (fun e => { e with
          plateQ := rest,
          tiles := e.tiles.filter (fun t => !((x.eng.tilesOf m).contains t)) })).instrFault c m.tag .plate code 0))) ∧
    (∀ (m : MxInstr) (slice : Nat) (runs : List MxRun),
      x.eng.tiles.length < 2 →
      ((∃ before r after, x.eng.plateRun = before ++ r :: after ∧ r.ins = m ∧ r.tiles = slice ∧ m.kind = .mma ∧
          slice < m.slices ∧ (∀ q ∈ before, q.ins.kind = .mma → q.slices ≤ q.tiles) ∧
          runs = before ++ { r with tiles := slice + 1 } :: after) ∨
        (∃ q1 q2, x.eng.plateQ = q1 ++ m :: q2 ∧ (∀ q ∈ q1, q.kind ≠ .mma) ∧ m.kind = .mma ∧ slice = 0 ∧
          x.eng.tilesOf m = [] ∧ x.eng.restore = false ∧ m.fault x none 0 = none ∧
          x.rangesHeld c s.isLocal m.tag.slot m.tag.seq (tileRngs m.tb false) = false ∧
          (∀ q ∈ x.eng.plateRun, q.ins.kind = .mma → q.slices ≤ q.tiles) ∧ runs = x.eng.plateRun)) →
      let tb := tileOf m.tb
      let n := min (tileOf m.ta).lcols (slice * 128 + 128) - slice * 128
      (∀ j < tb.lcols, ∀ k < n, (readLogical x.store tb (slice * 128 + k) j).poison = false) →
      ∃ t : StatTile, exec (.stationaryTileLoaded c) s =
          .next (eng (fun e => { e with tiles := e.tiles ++ [t], plateRun := runs })) ∧
        t.slot = m.tag.slot ∧ t.seq = m.tag.seq ∧ t.slice = slice ∧
        t.cols = (List.range tb.lcols).map (fun j => (List.range n).map (fun k =>
          readLogical x.store tb (slice * 128 + k) j))) ∧
    (2 ≤ x.eng.tiles.length → exec (.stationaryTileLoaded c) s = .next s) ∧
    exec (.vatClearDone c) s = .next (eng (fun e => { e with vatClear := false }))

/-- A row-cycle reduces one row of A over one slice; a promotion adds its groups to the vat in order. PLATE_ROW_CYCLE,
where no vat release waits: where the plate holds the stationary tile of the first started mx.mma's slice, its row is
not held, the window has room and no operand word is poisoned, the row joins the end of the in-flight window with one
sum per group of K_p and column (groupSums over the products of the A row with that tile), marked to overwrite exactly
in slice 0 without ACC; the instruction moves to its next row or slice, the tile leaving after its last row, or has
finished; PLATE_ROW counts 1 and PLATE_MAC K times N of the slice, both once more under the rate class of the operands
for the meter; the vat and the cell store are unchanged. VAT_PROMOTION: the oldest row of the window leaves it; its
groups are added in ascending order to the row's entries (the first overwriting where so marked), the row becomes
live, and no other byte of the vat changes; poisoned columns become NaN. A poisoned vat word makes every entry of the
row NaN or poison. (03_numeric_formats R97, 03_numeric_formats R98, 04_plate_and_vat R104, 04_plate_and_vat R114,
04_plate_and_vat R115, 04_plate_and_vat R116, 04_plate_and_vat R117, 04_plate_and_vat R119) -/
def Obligations.RowCycleAndPromotion : Prop :=
  ∀ (s : State) (c : CellId),
    let x := s.cell c
    (∀ q ∈ x.eng.plateRun, q.ins.kind ≠ .vfree) →
    (∀ (before : List MxRun) (r : MxRun) (after : List MxRun) (t : StatTile) (bv : Nat → Nat → Read),
      x.eng.plateRun = before ++ r :: after →
      (∀ q ∈ before, q.ins.kind ≠ .mma) → r.ins.kind = .mma → r.slice < r.slices →
      (x.eng.tilesOf r.ins).find? (fun t => t.slice == r.slice) = some t →
      x.eng.vatClear = false → x.eng.inflight.length < 184 →
      rowHeldForMma before (r.ins.f.base.toNat + r.row) = false →
      let ta := tileOf r.ins.ta
      let tb := tileOf r.ins.tb
      let k0 := r.slice * 128
      let n := min ta.lcols (k0 + 128) - k0
      let av := fun k => readLogical x.store ta r.row (k0 + k)
      t.cols = (List.range tb.lcols).map (fun j => (List.range n).map (fun k => bv k j)) →
      (∀ k < n, (av k).poison = false) → (∀ k < n, ∀ j < tb.lcols, (bv k j).poison = false) →
      let runs := before ++
        (if r.row + 1 < ta.lrows then [{ r with row := r.row + 1 }]
         else if r.slice + 1 < r.slices then [{ r with row := 0, slice := r.slice + 1 }] else []) ++ after
      ∃ fl : InFlight,
        exec (.plateRowCycle c) s = .next (s.modCell c (fun y => { y with
          eng := { y.eng with
            inflight := y.eng.inflight ++ [fl],
            plateRun := runs,
            tiles := if r.row + 1 < ta.lrows then y.eng.tiles else y.eng.tiles.filter (fun q => q != t) },
          regs := { y.regs with
            plateRow := y.regs.plateRow + 1,
            classRow := vmod y.regs.classRow (rateClass ta tb) (· + 1),
            classMac := vmod y.regs.classMac (rateClass ta tb) (· + BitVec.ofNat 64 (n * tb.lcols)),
            plateMac := y.regs.plateMac + BitVec.ofNat 64 (n * tb.lcols) } })) ∧
        fl.slot = r.ins.tag.slot ∧ fl.row = r.ins.f.base.toNat + r.row ∧ fl.poison = false ∧ fl.badCols = [] ∧
        fl.first = (r.slice == 0 && !(bit r.ins.f.flags 0)) ∧
        ∀ g j : Nat, j < tb.lcols → ((fl.groups[g]?).getD [])[j]? =
          (groupSums (if ta.elem = .f32 then F32 else A22) r.kp k0 (k0 + n) (fun k =>
            (ta.elem.dec (av (k - k0)).code (av (k - k0)).second).mul
              (tb.elem.dec (bv (k - k0) j).code (bv (k - k0) j).second)) (128 / r.kp))[g]?) ∧
    (∀ (fl : InFlight) (rest : List InFlight), x.eng.inflight = fl :: rest → fl.row < 4096 →
      let n := ((fl.groups[0]?).getD []).length
      let old := fun j => vatEntry x.vat fl.row j
      let sums := promoteGroups fl.first ((List.range n).map (fun j => (old j).1)) fl.groups
      ((fl.first = true ∨ ∀ j < n, (old j).2 = false) → exec (.vatPromotion c) s =
        .next (s.modCell c (fun y => { y with
          vat := vatPut y.vat fl.row 0 ((List.range n).map (fun j =>
            if fl.poison || fl.badCols.contains j then 0x7FC00000 else (sums[j]?).getD 0)),
          vatLive := setBit y.vatLive fl.row true, eng := { y.eng with inflight := rest } }))) ∧
      (fl.first = false → n ≤ 128 → x.vat.wf → (∃ j < n, (old j).2 = true) → Completes (.vatPromotion c) s (fun t =>
        (t.cell c).eng.inflight = rest ∧ bit (t.cell c).vatLive fl.row = true ∧
        (∀ j < n, vatEntry (t.cell c).vat fl.row j = (0x7FC00000, false)) ∧
        (∀ j, n ≤ j → j < 128 → (vatEntry (t.cell c).vat fl.row j).2 = true)))) ∧
    (∀ first cur g gs, promoteGroups first cur (g :: gs) =
      promoteGroups false (if first then g else List.zipWith fadd cur g) gs) ∧ (∀ first cur, promoteGroups first cur [] = cur)

/-- Drains, saves, loads and frees move vat rows; debug writes of the vat; a plate fault stops its context.
VAT_ROW_TRANSFER, where no vat release waits, takes the oldest started transfer whose hold of Table 4-4 has ended (a
drain with an epilogue also waits for the vx instruction in flight, R123) and moves its next row; where no word it
reads is poisoned the answer is: mx.vsave writes the row's 128 words at EBASE + row × RSTRIDE of the cell store;
mx.vload writes the 128 words found there into the vat row, which becomes live; mx.drain writes the row's first N
entries, through its epilogue and converted to the tile's format, setting NONFINITE for an AC8 mordant 0xFF; FREE
clears the row's live bit; the transfer moves to its next row or ends; nothing else changes. The epilogue's stages are
those of Table 5-5. A drained row whose vat words are poisoned is drained as NaN; a saved row with a poisoned vat word
leaves every entry of it poisoned (R119). VAT_APERTURE_ACCESS with DBG_EN 1 writes the addressed entry and nothing
else, or answers the host with it; with DBG_EN 0 it reports VAT_HIDDEN, changes no vat or store byte, and answers
zero. FAULT_STOP_COMPLETE, where the context is stopping and no started instruction of it is left, makes its slot
STOPPED with CTX_FAULT.STOPPED set and the initial registers (its PC kept); outside FIX, a slot that is not running
changes in this alone, and a running one leaves the vat cleared, CTX_SWITCH counted and the next context chosen; a
foreground stop in FIX moves its partition to ABORTED as well. (04_plate_and_vat R117, 04_plate_and_vat R120,
04_plate_and_vat R121, 04_plate_and_vat R124, 04_plate_and_vat R125, 05_vector_engine_and_control_core R155,
04_plate_and_vat R131, 04_plate_and_vat R132, 06_instruction_encoding R207, 06_instruction_encoding R209,
08_latches_contexts_partitions R265) -/
def Obligations.VatTransfersApertureAndFaults : Prop :=
  (
    ∀ (s : State) (c : CellId),
      let x := s.cell c
      let waits := fun (b1 : List MxRun) (q : MxRun) => match q.ins.kind with
        | .drain => drainHeld b1 x.eng.inflight q = true ∨ (epiPasses q.epi ≠ 0 ∧ x.eng.vecRun.isSome = true)
        | .vsave => drainHeld b1 x.eng.inflight q = true
        | .vload => vloadHeld b1 x.eng.inflight q = true
        | _ => True
      (∀ r (before after : List MxRun), x.eng.plateRun = before ++ r :: after →
        (∀ q ∈ x.eng.plateRun, q.ins.kind ≠ .vfree) →
        (∀ b1 q b2, before = b1 ++ q :: b2 → waits b1 q) →
        let t := tileOf r.ins.ta
        let row := r.ins.f.base.toNat + r.row
        let runs := before ++ (if r.ins.rows ≤ r.row + 1 then [] else [{ r with row := r.row + 1 }]) ++ after
        let live := fun (w : BitVec 4096) => if bit r.ins.f.flags 0 then setBit w row false else w
        let move := fun (f : Cell → Cell) => s.modCell c (fun y => f (y.modEng (fun e => { e with plateRun := runs })))
        (r.ins.kind = .vsave → drainHeld before x.eng.inflight r = false →
          (∀ j < 128, (vatEntry x.vat row j).2 = false) →
          let bs := (List.range 128).flatMap (fun j => leBytes 4 (vatEntry x.vat row j).1.toNat)
          exec (.vatRowTransfer c) s = .next (move (fun y =>
            { y with vatLive := live y.vatLive, store := y.store.write (t.ebase + r.row * t.rstride) bs }))) ∧
        (r.ins.kind = .vload → vloadHeld before x.eng.inflight r = false →
          (∀ j < 128, (x.store.readWord ((t.ebase + r.row * t.rstride) / 4 + j)).2.poisoned = false) →
          let ws := (List.range 128).map (fun j => (x.store.readWord ((t.ebase + r.row * t.rstride) / 4 + j)).1)
          exec (.vatRowTransfer c) s = .next (move (fun y =>
            { y with vatLive := setBit y.vatLive row true, vat := vatPut y.vat row 0 ws }))) ∧
        (r.ins.kind = .drain → drainHeld before x.eng.inflight r = false →
          (epiPasses r.epi = 0 ∨ x.eng.vecRun = none) → (drainedEntries x r t.lcols).2 = false →
          let d := drainRow x.store t r.row r.ins.f.rm (fun j => r.ins.draw.word j r.row) (drainedEntries x r t.lcols).1
          exec (.vatRowTransfer c) s = .next ((move (fun y => { y with vatLive := live y.vatLive, store := d.1 })).setStopIf
            ⟨c, r.ins.tag.slot⟩ (t.elem == .ac8 && d.2) .nonfinite)) ∧
        (r.ins.kind = .vsave → drainHeld before x.eng.inflight r = false → row < 4096 →
          (∃ j < 128, (vatEntry x.vat row j).2 = true) → Completes (.vatRowTransfer c) s (fun u =>
          ∀ j < 128, (vatEntry (u.cell c).vat row j).2 = true))) ∧
      (∀ (r : MxRun) (n j : Nat), j < n →
        let e := (List.range n).map (vatEntry x.vat (r.ins.f.base.toNat + r.row))
        r.epi = none → ((drainedEntries x r n).1[j]? =
          some (if e.any (·.2) then 0x7FC00000 else (vatEntry x.vat (r.ins.f.base.toNat + r.row) j).1)) ∧
          (drainedEntries x r n).2 = e.any (·.2)) ∧
      (∀ imm b d v : Word32,
        epiStage imm b d 0 v = v ∧ epiStage imm b d 1 v = fmul v imm ∧ epiStage imm b d 2 v = fadd v b ∧
        epiStage imm b d 3 v = fadd v d ∧ epiStage imm b d 4 v = toF32 (FpNum.max (f32 v) FpNum.zero) ∧
        epiStage imm b d 5 v =
          fmul v (ffma 0x3F000000 (ftrans .erf (fmul v 0x3F3504F3)) 0x3F000000) ∧
        epiStage imm b d 6 v = fmul v (ftrans .sigmoid v))) ∧ (
    ∀ (s : State) (c : CellId) (b : Requester) (off : BitVec 21) (v : Word32),
      let x := s.cell c
      (bit x.regs.plateDbg 0 = true →
        exec (.vatApertureAccess b c true off v) s = .next (s.modCell c (fun y =>
          { y with vat := vatPut y.vat (off.toNat / 512) (off.toNat % 512 / 4) [v] })) ∧
        exec (.vatApertureAccess .host c false off v) s = .next { s with host := { s.host with
          lastRead := some ((vatEntry x.vat (off.toNat / 512) (off.toNat % 512 / 4)).1.zeroExtend 64) } }) ∧
      (bit x.regs.plateDbg 0 = false → ∀ w, Completes (.vatApertureAccess b c w off v) s (fun t =>
        (t.cell c).vat = x.vat ∧ (t.cell c).store = x.store ∧ (t.cell c).vatLive = x.vatLive ∧ t.stackSet = s.stackSet ∧
        (∀ d, d ≠ c → t.cell d = s.cell d) ∧ (b = .host → w = false → t.host.lastRead = some 0))) ∧
      (∀ a : At, let y := s.slot a
        y.stopping = true → y.state ≠ .stopped → y.state ≠ .empty → (s.cell a.cell).eng.startedBusy a.slot = false →
        ((s.cell a.cell).running ≠ some a.slot → s.phaseFor a ≠ some .fix →
          exec (.faultStopComplete a) s = .next (s.modSlot a (fun z => { z with
            ctxFault := setBit z.ctxFault 63 true, state := .stopped, ctx := { Ctx.initial with pc := z.ctx.pc } }))) ∧
        Completes (.faultStopComplete a) s (fun t =>
          bit (t.slot a).ctxFault 63 = true ∧ (t.slot a).ctx = { Ctx.initial with pc := y.ctx.pc } ∧
          (t.slot a).state = .stopped ∧
          (t.cell a.cell).store = (s.cell a.cell).store ∧ t.stackSet = s.stackSet ∧
          ((s.cell a.cell).running = some a.slot → (t.cell a.cell).vat = ProtMem.empty ∧ (t.cell a.cell).vatLive = 0 ∧
            (t.cell a.cell).running ≠ some a.slot ∧
            (t.cell a.cell).regs.ctxSwitch = (s.cell a.cell).regs.ctxSwitch + 1) ∧
          ((s.cell a.cell).running ≠ some a.slot → (t.cell a.cell).vat = (s.cell a.cell).vat) ∧
          (s.phaseFor a ≠ some .fix → ∀ p, (t.stepOf p).phase = (s.stepOf p).phase) ∧
          (∀ p, s.phaseFor a = some .fix → s.partOf a.cell = some p → (t.stepOf p).phase = .aborted))))

/-- The vector queue starts its oldest instruction, enters and leaves restore mode, and writes s results. VECTOR_ISSUE
takes out of the vector queue the oldest instruction of a slot that is not held, the older of the two slots' where
neither is (R205): one with a fault of Table 5-11 completes with it; an elementwise, reduction or summary instruction
becomes the running one with the register operands it reads now; vx.gskip is done; vx.rmode 1 turns restore mode on or
faults with a live vat row, vx.rmode 0 turns it off and clears the vat; vx.optstep with a good descriptor records
SKIPPED without a commit verdict or STOPPED in ABORTED, else becomes the running optimizer step and opens its staging
window. An instruction that is held stays; where all are, nothing changes. SUMMARY_RESULT writes the oldest waiting
result to its s register and changes nothing else. (05_vector_engine_and_control_core R143,
05_vector_engine_and_control_core R144, 05_vector_engine_and_control_core R149, 05_vector_engine_and_control_core
R157, 06_instruction_encoding R205, 05_vector_engine_and_control_core Table 5-11) -/
def Obligations.VectorQueueIssues : Prop :=
  ∀ (s : State) (c : CellId),
    let x := s.cell c
    (∀ (first : List VxInstr) (m : VxInstr) (after : List VxInstr), x.eng.vecQ = first ++ m :: after →
      (∀ q ∈ first, q.tag.slot ≠ m.tag.slot) → (∀ q, first.head? = some q → x.vecHeld c s.isLocal q = true) →
      (x.vecHeld c s.isLocal m = false →
        let rest := first ++ after
        let u := s.modCell c (fun y => y.modEng (fun e => { e with vecQ := rest }))
        (∀ code, m.fault s c = some code → exec (.vectorIssue c) s = .next (u.instrFault c m.tag .vector code 0)) ∧
        (m.fault s c = none →
          (m.fun_ ≠ .optstep → m.fun_ ≠ .rmode → m.fun_ ≠ .gskip → exec (.vectorIssue c) s = .next
            { u.modCell c (fun y => y.modEng (fun e => { e with vecRun := some (m.start s c) })) with
              freeCtr := s.freeCtr + 1536 }) ∧
          (m.fun_ = .gskip → exec (.vectorIssue c) s = .next u) ∧
          (m.fun_ = .rmode → bit m.imm 0 = true → x.vatAnyLive = true →
            exec (.vectorIssue c) s = .next (u.instrFault c m.tag .vector 0x09 0)) ∧
          (m.fun_ = .rmode → bit m.imm 0 = true → x.vatAnyLive = false → exec (.vectorIssue c) s =
            .next (u.modCell c (fun y => y.modEng (fun e => { e with restore := true })))) ∧
          (m.fun_ = .rmode → bit m.imm 0 = false → x.eng.restore = true → exec (.vectorIssue c) s =
            .next (u.modCell c (fun y => (y.modEng (fun e => { e with restore := false })).clearVat))) ∧
          (m.fun_ = .optstep → ∀ p, s.partOf c = some p →
            let off := fld m.imm 0 23
            let done := fun (k : Nat) => u.modCell c (fun y => y.modRegs (fun r =>
              { r with optStatus := setBit (setBit r.optStatus 0 true) k true }))
            (∀ code, optDescFault x m.tag.slot off = some code →
              exec (.vectorIssue c) s = .next (u.instrFault c m.tag .vector code 0)) ∧
            (optDescFault x m.tag.slot off = none →
              ((s.stepOf p).phase = .aborted → exec (.vectorIssue c) s = .next (done 2)) ∧
              ((s.stepOf p).phase ≠ .aborted → (s.stepOf p).commit = false →
                exec (.vectorIssue c) s = .next (done 1)) ∧
              ((s.stepOf p).phase ≠ .aborted → (s.stepOf p).commit = true → Completes (.vectorIssue c) s (fun t =>
                ∃ r, (t.cell c).eng.optRun = some r ∧ r.ins = m ∧ r.desc = x.store.read off 128 ∧ r.block = 0 ∧
                  r.recorded = false ∧ (t.cell c).eng.vecQ = rest ∧ (t.cell c).regs.optStatus = x.regs.optStatus ∧
                  (bit ((r.desc[0x70]?).getD 0) 1 = false → r.c1 = 0x3F800000 ∧ r.c2 = 0x3F800000)))))))) ∧
    ((∀ q ∈ x.eng.vecQ, x.vecHeld c s.isLocal q = true) → exec (.vectorIssue c) s = .next s) ∧
    (∀ r rest, x.eng.results = r :: rest → exec (.summaryResult c) s =
      .next ((s.modCell c (fun y => y.modEng (fun e => { e with results := rest }))).modCtx ⟨c, r.slot⟩
        (·.setS r.reg r.value)))

/-- What each vx function gives for one element, rounded once into its destination. For a running vx instruction, cell
store contents and element e, with the values its sources give: vx.add, sub, mul, fma, neg, abs, min, max, div, sqrt,
recip, rsqrt and the transcendentals deliver the exact result rounded once to F32 (RNE) in an F32 destination; to W16
or H16 the exact result is rounded once under RM by the 16-bit capable functions and otherwise through F32 first;
vx.cvt between equal formats copies the code; vx.sel takes B where C is zero and A elsewhere, bit for bit between
equal formats; vx.cmp gives all ones or zero, of a poisoned source NaN in W16 and a poison mark in U32; vx.grain
writes the lane's grain word, in U32 whole, in F32 its top 24 bits over 2^24. RM 2 rounds stochastically by the low 16
bits of the lane's grain word. (05_vector_engine_and_control_core Table 5-1, 05_vector_engine_and_control_core R141,
05_vector_engine_and_control_core R150, 07_instruction_reference R228, 07_instruction_reference R231,
03_numeric_formats R84, 03_numeric_formats R85) -/
def Obligations.VectorElementResults : Prop :=
  ∀ (r : VxRun) (m : ProtMem) (e : Nat),
    let a := r.value m 0 e
    let b := r.value m 1 e
    let d := r.value m 2 e
    let w := r.ins.draw.word (e % r.lanes) (e / r.lanes)
    let rd := if r.ins.rm = 0 then Round.rne else if r.ins.rm = 1 then .rtz else .sr (bfld w 0 16)
    let f32 := fun (v : FpNum) => (r.ins.dstFmt = .f32 → r.plain m e = (F32.enc .rne v, 0, false, false)) ∧
      (r.ins.dstFmt = .w16 → (r.plain m e).1 =
        W16.enc rd (if r.ins.fun_.wide && !r.ins.vi then v else F32.rnd v)) ∧
      (r.ins.dstFmt = .h16 → (r.plain m e).1 = H16.enc rd (if r.ins.fun_.wide && !r.ins.vi then v else F32.rnd v))
    (r.ins.fun_ = .add → f32 (a.add b)) ∧
    (r.ins.fun_ = .sub → f32 (a.add b.neg)) ∧
    (r.ins.fun_ = .mul → f32 (a.mul b)) ∧
    (r.ins.fun_ = .fma → f32 (fmaNum a b d)) ∧
    (r.ins.fun_ = .neg → f32 (a.neg)) ∧
    (r.ins.fun_ = .abs → f32 (a.abs)) ∧
    (r.ins.fun_ = .min → f32 (FpNum.min a b)) ∧
    (r.ins.fun_ = .max → f32 (FpNum.max a b)) ∧
    (r.ins.fun_ = .div → f32 (a.div b)) ∧
    (r.ins.fun_ = .sqrt → f32 (a.sqrt)) ∧
    (r.ins.fun_ = .recip → f32 ((FpNum.fin false 1 0).div a)) ∧
    (r.ins.fun_ = .rsqrt → f32 (a.rsqrt)) ∧
    (∀ t, r.ins.fun_ = .trans t → f32 (t.eval a)) ∧
    (r.ins.fun_ = .cvt → r.ins.srcFmt 0 = r.ins.dstFmt →
      r.plain m e = ((r.read m 0 e).code, (r.read m 0 e).second, r.wordsBad m e)) ∧
    (r.ins.fun_ = .cvt → r.ins.srcFmt 0 ≠ .f32 → r.ins.dstFmt = .f32 → (r.plain m e).1 = F32.enc rd a) ∧
    (r.ins.fun_ = .sel →
      let k : Fin 3 := if (r.read m 2 e).code = 0 ∧ (r.ins.srcFmt 2 ≠ .m40 ∨ (r.read m 2 e).second = 0) then 1 else 0
      (r.ins.srcFmt k = r.ins.dstFmt → r.ins.dstFmt.block = 0 → (r.plain m e).1 = (r.read m k e).code) ∧
      (r.ins.srcFmt k ≠ .f32 → r.ins.dstFmt = .f32 → (r.plain m e).1 = F32.enc .rne (r.value m k e))) ∧
    (r.ins.fun_ = .cmp →
      (r.poisoned m e = false → r.plain m e =
        (if numRel (fld r.ins.fn 0 2) a b then 2 ^ r.ins.dstFmt.bits - 1 else 0, 0, false, false)) ∧
      (r.poisoned m e = true → r.ins.dstFmt = .w16 → r.plain m e = (W16.enc .rne .nan, 0, false, false)) ∧
      (r.poisoned m e = true → r.ins.dstFmt = .u32 → (r.plain m e).2.2.1 = true)) ∧
    (r.ins.fun_ = .grain → r.ins.dstFmt = .u32 → (r.plain m e).1 = w.toNat) ∧
    (r.ins.fun_ = .grain → r.ins.dstFmt = .f32 → (r.plain m e).1 = F32.enc .rne (.fin false (w.toNat / 256) (-24)))

/-- A beat of the running vx instruction writes its elements, or its accumulated result at the last beat.
VX_BEAT_RETIRE executes the next beat (256 or 512 elements) of the cell's running vx instruction (one that reads a
mordant table, while nothing holds those bursts back): VEC_BEAT counts its passes; the instruction moves to its next
beat, or has finished after its last element; an elementwise one writes exactly the beat's elements to its stream
destination in the cell store (v registers unchanged) or to its v register (cell store unchanged); a summary or CRC-64
writes neither and, at its last beat, queues its accumulated value for its s register (bit 63 tells whether a G16 SAT
was seen by a summary); SHA-256 writes its state to its v register at its last beat. The vat, latches, DRAM (a mordant
table read aside) and every other cell store are unchanged. (05_vector_engine_and_control_core R138,
05_vector_engine_and_control_core R143, 05_vector_engine_and_control_core R146, 05_vector_engine_and_control_core
R147, 05_vector_engine_and_control_core R149, 05_vector_engine_and_control_core R164) -/
def Obligations.VxBeatRetires : Prop :=
  ∀ (s : State) (c : CellId) (r : VxRun),
    let x := s.cell c
    let v := fun (u : State) => (u.slot ⟨c, r.ins.tag.slot⟩).ctx.v
    let last := r.elems ≤ (r.beat + 1) * r.lanes
    x.eng.vecRun = some r → (r.ins.tabled = true → s.unhindered) → Completes (.vxBeatRetire c) s (fun t =>
      (t.cell c).regs.vecBeat = x.regs.vecBeat + BitVec.ofNat 64 r.ins.fun_.passes ∧
      (last → (t.cell c).eng.vecRun = none) ∧
      (¬ last → ∃ q, (t.cell c).eng.vecRun = some q ∧ q.ins = r.ins ∧ q.elems = r.elems ∧ q.lanes = r.lanes ∧
        q.beat = r.beat + 1 ∧ q.regs = r.regs ∧ q.acc = r.accumulate x.store) ∧
      (t.cell c).vat = x.vat ∧ (t.cell c).vatLive = x.vatLive ∧ (t.cell c).latches = x.latches ∧
      (r.ins.tabled = false → t.mem.dram = s.mem.dram) ∧ (∀ d, d ≠ c → (t.cell d).store = (s.cell d).store) ∧
      (∀ k, r.ins.fun_.elementwise = true → r.ins.dst = .stream k →
        (t.cell c).store = (r.toStream s x.store (tileOf (vget r.ins.descs 0))).1 ∧ v t = v s ∧
        (t.cell c).eng.results = x.eng.results) ∧
      (∀ d, r.ins.fun_.elementwise = true → r.ins.dst = .reg d →
        (t.cell c).store = x.store ∧ v t = r.toReg x.store (v s) d ∧ (t.cell c).eng.results = x.eng.results) ∧
      (∀ d, (r.ins.fun_ = .summ ∨ r.ins.fun_ = .crc64) → r.ins.dst = .scalar d → r.ins.destS = some d →
        (t.cell c).store = x.store ∧ v t = v s ∧
        (¬ last → (t.cell c).eng.results = x.eng.results) ∧
        (last → ∃ w, (t.cell c).eng.results = x.eng.results ++ [⟨r.ins.tag.slot, r.ins.tag.seq, d, w⟩] ∧
          ∀ y ys, r.accumulate x.store = y :: ys → (r.ins.fun_ = .crc64 → w = y) ∧
            (r.ins.fun_ = .summ → w = setBit y 63 (bit r.flags 1 || r.satSeen x.store)))) ∧
      (∀ d, r.ins.fun_ = .sha256 → r.ins.dst = .reg d → (t.cell c).store = x.store ∧
        (¬ last → v t = v s) ∧ (last → v t = (v s).write (d.val * 1024)
          ((r.accumulate x.store).flatMap (fun w => beBytes (bfld w 0 32))))))

/-- vx.optstep updates a block of 64 as R158 computes it, or leaves all of it unchanged and counts it. OPTSTEP_BLOCK
with a running vx.optstep in a partition that is not ABORTED, no regulator or earlier access holding it back: a block
refused (first), poisoned, withheld (flag BLEED or an element SAT) or non-finite leaves DRAM as reading it left it (a
word found uncorrectable becomes a poison mark, R300) and adds one, saturating, to its OPT_STATUS field; a block that
passes, none of whose writes waits for a first-touch copy, writes its planes and leaves the counts; a write that waits
leaves DRAM, the counts and the block as they are, the step keeping the slots it waits for. VEC_OPT_ELEM counts 64 for
each block done, and the step goes on to the next block or retires with DONE. In ABORTED it retires at once with
STOPPED, writing nothing. The new master, moments and working copy of an element are those of R158 in both modes.
(05_vector_engine_and_control_core R158, 05_vector_engine_and_control_core R159, 05_vector_engine_and_control_core
Table 5-14) -/
def Obligations.OptimizerBlocks : Prop :=
  (∀ (s : State) (c : CellId) (r : OptRun) (p : PartId), (s.cell c).eng.optRun = some r → s.partOf c = some p →
    s.unhindered →
    let x := s.cell c
    let seen := r.reads.foldl (fun u y => u.dramNote (some ⟨c, r.ins.tag.slot⟩) true (r.at_ y) y.2) s
    let goes := fun (count : Word64) (t : State) =>
      (t.cell c).regs.vecOptElem = x.regs.vecOptElem + 64 ∧
      (64 * (r.block + 1) < r.base 0x40 → (t.cell c).regs.optStatus = count ∧
        ∃ q, (t.cell c).eng.optRun = some q ∧ q.ins = r.ins ∧ q.desc = r.desc ∧ q.block = r.block + 1 ∧
          q.c1 = r.c1 ∧ q.c2 = r.c2)
    (s.phase p = .aborted → r.poisoned = false → Completes (.optstepBlock c) s (fun t =>
      t.mem.dram = s.mem.dram ∧ (t.cell c).eng.optRun = none ∧ bit (t.cell c).regs.optStatus 0 = true ∧
      bit (t.cell c).regs.optStatus 2 = true ∧ (t.cell c).regs.vecOptElem = x.regs.vecOptElem)) ∧
    (s.phase p ≠ .aborted →
      (∀ code addr, r.decide_ s p = .refused code addr → Completes (.optstepBlock c) s (fun t =>
        t.mem.dram = s.mem.dram ∧ goes (satAdd x.regs.optStatus 3 5 1) t)) ∧
      (∀ b, r.decide_ s p = .poisoned b → Completes (.optstepBlock c) s (fun t =>
        t.mem.dram = seen.mem.dram ∧ goes (satAdd x.regs.optStatus 8 8 1) t)) ∧
      (r.decide_ s p = .withheld → Completes (.optstepBlock c) s (fun t =>
        t.mem.dram = seen.mem.dram ∧ goes (satAdd x.regs.optStatus 32 32 1) t)) ∧
      (r.decide_ s p = .nonfinite → Completes (.optstepBlock c) s (fun t =>
        t.mem.dram = seen.mem.dram ∧ goes (satAdd x.regs.optStatus 16 16 1) t)) ∧
      (∀ es, r.decide_ s p = .write es →
        (r.heldSlots s p = [] → Completes (.optstepBlock c) s (fun t =>
          t.mem.dram = (r.store seen p es).mem.dram ∧ goes x.regs.optStatus t)) ∧
        (r.heldSlots s p ≠ [] → Completes (.optstepBlock c) s (fun t => t.mem.dram = s.mem.dram ∧
          (t.cell c).eng.optRun = some { r with waits := (r.heldSlots s p).map Prod.fst } ∧ (t.cell c).regs = x.regs ∧
          (t.cell c).store = x.store ∧ ∀ d, d ≠ c → t.cell d = s.cell d))))) ∧
  (∀ (r : OptRun) (q mord : Nat) (w m1 m2 : Word32) (ext : Nat),
    let k := fun o => r.word o
    let g := fmul (toF32 (decG16 q mord)) (k 0x6C)
    let master := fun u => M40.rnd ((Elem.m40.dec w.toNat ext).add (f32 (fmul (k 0x50) (ffma (k 0x68) w u))))
    (r.single = true → let m := ffma (k 0x54) m1 g
      r.elem q mord w ext m1 m2 = ⟨master m, m, 0, W16.rnd (master m)⟩) ∧
    (r.single = false →
      let m := ffma (k 0x54) m1 (fmul (k 0x58) g)
      let v := ffma (k 0x5C) m2 (fmul (k 0x60) (fmul g g))
      let u := fdiv (fmul m r.c1) (fadd (fsqrt (fmul v r.c2)) (k 0x64))
      r.elem q mord w ext m1 m2 = ⟨master u, m, v, W16.rnd (master u)⟩))

/-- The mover starts the ready transfer of earliest deadline; a cl instruction goes to its fabric die's engine.
MOVER_ISSUE, with a free entry of its eight and a queued transfer that may start (no earlier queued transfer overlaps
it, no earlier instruction of its slot holds its range), takes out of the queue the startable one of least rank
(DEADLINE, 0 and host transfers last), the earlier of equals: without an issue fault it occupies the lowest free entry
with nothing moved and starts, with one it completes with that fault; with no free entry or nothing startable, nothing
changes. COLLECTIVE_QUEUE_ISSUE takes out the oldest cl instruction: without a fault it joins its context's
outstanding ones and the inbox of the fabric die that serves its compute die, with one it completes with the fault;
nothing else changes. (05_vector_engine_and_control_core R163, 07_instruction_reference R236, 07_instruction_reference
R237, 07_instruction_reference R234, 07_instruction_reference R240, 07_instruction_reference Table 7-9,
06_instruction_encoding R209) -/
def Obligations.MoverAndCollectiveIssue : Prop :=
  (∀ (s : State) (c : CellId),
    let x := s.cell c
    (∀ (i : Fin 8) (l1 l2 : List (Nat × DmInstr)) (j : Nat) (m : DmInstr),
      vget x.eng.xfers i = none → (∀ k, k < i → (vget x.eng.xfers k).isSome = true) →
      x.dmReady s c = l1 ++ (j, m) :: l2 → (∀ q ∈ l1, m.rank < q.2.rank) → (∀ q ∈ l2, m.rank ≤ q.2.rank) →
      let u := s.modCell c (fun y => y.modEng (fun e => { e with moverQ := e.moverQ.eraseIdx j }))
      (m.fault s c = none → exec (.moverIssue c) s =
        .next ((u.setXfer c i (some ⟨m, 0, 0, [], 0, 0, 0, false, false⟩)).dmStart c i m)) ∧
      (∀ code, m.fault s c = some code → exec (.moverIssue c) s = .next (u.instrFault c m.tag .mover code 0))) ∧
    ((x.dmReady s c = [] ∨ ∀ i, (vget x.eng.xfers i).isSome = true) → exec (.moverIssue c) s = .next s) ∧
    (∀ j m, (j, m) ∈ x.dmReady s c → x.eng.moverQ[j]? = some m) ∧
    (∀ (m : ClInstr) (rest : List ClInstr), x.eng.clQ = m :: rest → (x.eng.restore = false ∨ m.tag.slot = 0) →
      (m.fault s = none → Completes (.collectiveQueueIssue c) s (fun t =>
        t = { s with cells := t.cells, coll := t.coll } ∧ (∀ d, d ≠ c → t.cell d = s.cell d) ∧
        t.cell c = x.modEng (fun e => { e with
          clQ := rest, clPending := e.clPending ++ [(m.tag.slot, m.tag.seq, false)] }) ∧
        t.coll = { s.coll with inbox := t.coll.inbox } ∧
        vget t.coll.inbox (fabOf (cellEndpoint c)) = vget s.coll.inbox (fabOf (cellEndpoint c)) ++ [⟨c, m⟩] ∧
        ∀ f, f ≠ fabOf (cellEndpoint c) → vget t.coll.inbox f = vget s.coll.inbox f)) ∧
      (∀ code, m.fault s = some code → exec (.collectiveQueueIssue c) s = .next
        ((s.modCell c (fun y => y.modEng (fun e => { e with clQ := rest }))).instrFault c m.tag .coll code 0))))

/-- A completed copy between two cell stores leaves the source's bytes at the destination and no other byte changed.
DM_TRANSFER_COMPLETE of a dm instruction whose every byte goes from one cell store to another, its source free of
poison, nothing moved yet and the crossings carrying traffic and no poisoned beat: the entry is free again; the
destination store holds the source's bytes over the range and every other byte as before; every other cell store,
every vat, DRAM and the queues are unchanged. Where the transfer has finished without a fault in time, exec answers
the entry freed and the completion latch signalled, and no more; one whose context was reset frees its entry alone;
one that has not moved every byte, and one whose way between the dies pauses, changes nothing.
(07_instruction_reference R234, 07_instruction_reference R235, 07_instruction_reference R236, 06_instruction_encoding
R199, 07_instruction_reference R238, 10_die_to_die R328) -/
def Obligations.CopyBetweenCellStores : Prop :=
  ∀ (s : State) (c : CellId) (i : Fin 8) (r : DmRun), s.xfer c i = some r →
    let m := r.ins
    (∀ (a b : CellId) (x y : Nat), a ≠ b → 0 < m.total → r.status = 0 → r.moved = 0 → r.outstanding = 0 →
      r.finished = false → r.discarded = false →
      (∀ k < m.total, m.sides s c k = (.store a (x + k), .store b (y + k))) →
      (s.cell a).store.anyPoison x m.total = false → (s.cell b).store.wf →
      s.crosses → s.beatsTaken →
      Completes (.dmTransferComplete c i) s (fun t =>
        t.xfer c i = none ∧ (∀ k, k ≠ i → t.xfer c k = s.xfer c k) ∧
        (∀ k < m.total, (t.cell b).store.readByte (y + k) = (s.cell a).store.readByte (x + k)) ∧
        (∀ k, k < y ∨ y + m.total ≤ k → (t.cell b).store.readByte k = (s.cell b).store.readByte k) ∧
        (∀ d, d ≠ b → (t.cell d).store = (s.cell d).store) ∧ (∀ d, (t.cell d).vat = (s.cell d).vat) ∧
        t.mem = s.mem ∧ t.fabs = s.fabs ∧ t.stackSet = s.stackSet)) ∧
    (r.finished = true → r.discarded = true → exec (.dmTransferComplete c i) s = .next (s.setXfer c i none)) ∧
    (r.finished = true → r.discarded = false → r.status = 0 →
      (qdescOf m.qd).deadline.toNat ≤ 0 ∨ s.time.toNat ≤ (qdescOf m.qd).deadline.toNat →
      exec (.dmTransferComplete c i) s = .next ((s.setXfer c i none).completion c m.tag.slot m.f)) ∧
    (r.finished = false → s.storesOpen c m = false → exec (.dmTransferComplete c i) s = .next s) ∧
    (r.finished = false → (∀ a x b y, m.sides s c 0 ≠ (.store a x, .store b y)) →
      exec (.dmTransferComplete c i) s = .next s)

/-- sy instructions set, signal, wait for and poll latches; signals arrive and waits end. Where the instruction
executes: sy.init on a general latch that is unowned or its own slot's makes the slot its owner with count IMM, and
takes LATCH_OWNER (0x0E) on another slot's; signal and rsignal, with no earlier cell store write to make, send
max(IMM, 1) to the latch of this cell or of the cell of SA of the same partition; wait returns 1 at once on an unowned
latch, takes its amount and returns 0 where the count suffices, else waits; poll returns the count, 0 of an unowned
latch; fence goes on once no masked queue holds an instruction of the slot; yield, held by nothing and with no live
row, retires with the wake condition of CTX_CTL and starts the switch. Latches 60 to 63 (62 may be waited on and
polled) take RESERVED_LATCH (0x09). LATCH_SIGNAL_ARRIVE takes the oldest signal of its cell: an owned general latch,
or a step latch of an armed partition for a step signal, counts its amount up to 2^32 − 1; an unowned general latch
loses it with LATCH_LOST, changing no latch; a step latch that is unowned, or reached by any other signal, drops it
(R38). LATCH_WAIT_RETURN takes the amount from an owned latch whose count suffices and returns 0 in SD, returns 1
after the latch was abandoned, and moves the PC on; where neither holds nothing changes. (07_instruction_reference
R242, 07_instruction_reference R243, 07_instruction_reference R244, 08_latches_contexts_partitions R251,
08_latches_contexts_partitions R252, 06_instruction_encoding R201, 06_instruction_encoding R202,
08_latches_contexts_partitions R260, 08_latches_contexts_partitions R261, 08_latches_contexts_partitions R253,
08_latches_contexts_partitions R254, 08_latches_contexts_partitions R255) -/
def Obligations.LatchesSignalsAndWaits : Prop :=
  (
    ∀ (s : State) (a : At) (p : Pred) (f : FmtY),
      let l := (s.cell a.cell).latch f.latch
      let n := if f.imm = 0 then 1 else f.imm
      let own := (s.countIssue a).modCell a.cell (fun x => x.setLatch f.latch ⟨f.imm, some (a.slot, (s.slot a).job)⟩)
      let quiet := s.writesPending a = false
      let peer : CellId := ⟨fld (s.sreg a f.sa) 0 6 % 64, by omega⟩
      let sent := fun (c : CellId) => (s.countIssue a).modCell c (fun x => { x with signals := x.signals ++ [⟨f.latch, n, false, none⟩] })
      (s.takes (.syInit a p f) → f.latch.toNat < 60 →
        ((l.owner = none ∨ ∃ j, l.owner = some (a.slot, j)) → exec (.syInit a p f) s = .next (own.retire a)) ∧
        (∀ o, l.owner = some o → o.1 ≠ a.slot → exec (.syInit a p f) s = .next (s.faulted a 5 0x01 0x0E 0))) ∧
      (s.takes (.sySignal a p f) → f.latch.toNat < 60 → quiet → exec (.sySignal a p f) s = .next ((sent a.cell).retire a)) ∧
      (s.takes (.syRsignal a p f) → f.latch.toNat < 60 →
        (s.partOf peer = s.partOf a.cell → quiet → exec (.syRsignal a p f) s = .next ((sent peer).retire a)) ∧
        (s.partOf peer ≠ s.partOf a.cell → exec (.syRsignal a p f) s = .next (s.faulted a 5 0x07 0x0E 0))) ∧
      (s.takes (.syWait a p f) → (f.latch.toNat < 60 ∨ f.latch = 62) →
        (s.latchOwned a.cell f.latch = false → exec (.syWait a p f) s = .next (s.after a (·.setS f.sd 1))) ∧
        (s.latchOwned a.cell f.latch = true →
          (n.toNat ≤ l.count.toNat → exec (.syWait a p f) s = .next ((((s.countIssue a).modCell a.cell (fun x =>
            x.setLatch f.latch { l with count := l.count - n })).modCtx a (·.setS f.sd 0)).retire a)) ∧
          (l.count.toNat < n.toNat → exec (.syWait a p f) s = .next (((s.countIssue a).stall a 0x6).modSlot a (fun x =>
            { x with wait := .latch f.latch n f.sd }))))) ∧
      (s.takes (.syPoll a p f) → (f.latch.toNat < 60 ∨ f.latch = 62) → exec (.syPoll a p f) s = .next
        (s.after a (·.setS f.sd (if s.latchOwned a.cell f.latch then l.count.zeroExtend 64 else 0)))) ∧
      (s.takes (.syFence a p f) →
        ((s.cell a.cell).fenceHeld a.slot f.imm = false → exec (.syFence a p f) s = .next (s.after a id)) ∧
        ((s.cell a.cell).fenceHeld a.slot f.imm = true → exec (.syFence a p f) s = .next (s.stall a 0))) ∧
      (s.takes (.syYield a p f) → s.yieldHeld a = false →
        ((s.cell a.cell).vatAnyLive = false → exec (.syYield a p f) s = .next
          ((((s.countIssue a).modSlot a (fun x => { x with wake := x.wakeCond })).retire a).modCell a.cell
            (fun x => { x with switch := .yield a.slot }))) ∧
        ((s.cell a.cell).vatAnyLive = true → exec (.syYield a p f) s = .next (s.faulted a 5 0x06 0x0C 0))) ∧
      (60 ≤ f.latch.toNat →
        (s.takes (.syInit a p f) → exec (.syInit a p f) s = .next (s.faulted a 5 0x01 0x09 0)) ∧
        (s.takes (.sySignal a p f) → exec (.sySignal a p f) s = .next (s.faulted a 5 0x02 0x09 0)) ∧
        (s.takes (.syRsignal a p f) → exec (.syRsignal a p f) s = .next (s.faulted a 5 0x07 0x09 0)) ∧
        (f.latch ≠ 62 → s.takes (.syWait a p f) → exec (.syWait a p f) s = .next (s.faulted a 5 0x03 0x09 0)) ∧
        (f.latch ≠ 62 → s.takes (.syPoll a p f) → exec (.syPoll a p f) s = .next (s.faulted a 5 0x04 0x09 0)))) ∧ (
    (∀ (s : State) (c : CellId) (g : Signal) (rest : List Signal), (s.cell c).signals = g :: rest →
      let l := (s.cell c).latch g.latch
      let u := s.modCell c (fun x => { x with signals := rest })
      let counted := u.modCell c (fun x =>
        x.setLatch g.latch { l with count := BitVec.ofNat 32 (min (l.count.toNat + g.amount.toNat) (2 ^ 32 - 1)) })
      (g.latch.toNat < 60 → l.owner ≠ none → exec (.latchSignalArrive c) s = .next counted) ∧
      (g.latch.toNat < 60 → l.owner = none → Completes (.latchSignalArrive c) s (fun t =>
        (t.cell c).signals = rest ∧ (t.cell c).latches = (s.cell c).latches)) ∧
      (60 ≤ g.latch.toNat → ∀ p, s.partOf c = some p →
        ((s.stepOf p).armed = true → g.step = true → exec (.latchSignalArrive c) s = .next counted) ∧
        (g.step = false → exec (.latchSignalArrive c) s = .next u) ∧
        ((s.stepOf p).armed = false → exec (.latchSignalArrive c) s = .next u))) ∧
    (∀ (s : State) (a : At) (k : BitVec 6) (n : Word32) (d : BitVec 5),
      let l := (s.cell a.cell).latch k
      let calm := s.modCell a.cell (fun x => x.modRegs (fun r => { r with stall := 0 }))
      ((s.slot a).wait = .latch k n d → s.latchOwned a.cell k = true → n.toNat ≤ l.count.toNat →
        exec (.latchWaitReturn a) s = .next (((calm.modCell a.cell (fun x =>
          x.setLatch k { l with count := l.count - n })).modCtx a (·.setS d 0)).retire a)) ∧
      ((s.slot a).wait = .latch k n d → l.count.toNat < n.toNat → exec (.latchWaitReturn a) s = .next s) ∧
      ((s.slot a).wait = .abandoned d → exec (.latchWaitReturn a) s = .next ((calm.modCtx a (·.setS d 1)).retire a))))

/-- st.open on the lead cell of a CLOSED partition opens the step; another cell waits for its latch 60. Where st.open
of the foreground slot executes in a partition with armed step latches: on the lead cell in CLOSED the partition is in
EXPOSE with VERDICT 0, VALID and COMMIT 0, no frozen or old stop bits in its cells (FADE where faded groups demand
it), their foreground grain unseeded, latch 62 at zero, and a step signal on its way to latch 60 of every cell; INDEX,
UPDATE_COUNT, DRAM, cell stores and the other partitions' steps are unchanged; on the lead cell in another phase it is
held; on another cell it waits. ST_OPEN_RELEASE with latch 60 counted takes one count and lets it go on. In the bubble
slot, or with the step latches abandoned, it takes PHASE_FAULT (0x0A). (02_step_expose_stop_fix Table 2-2,
02_step_expose_stop_fix R38, 02_step_expose_stop_fix R56, 07_instruction_reference R245, 03_numeric_formats R93) -/
def Obligations.StepOpens : Prop :=
  ∀ (s : State) (a : At) (p : Pred) (f : FmtY) (q : PartId), s.partOf a.cell = some q →
    (s.takes (.stOpen a p f) →
      (a.slot = 0 → (s.stepOf q).armed = true → s.leadOf q = some a.cell → s.closed q = true →
        Completes (.stOpen a p f) s (fun t =>
          (t.stepOf q).phase = .expose ∧ fld (t.stepOf q).status 0 3 = 1 ∧ (t.stepOf q).valid = false ∧
          (t.stepOf q).commit = false ∧ (t.stepOf q).verdict = 0 ∧ (t.stepOf q).index = (s.stepOf q).index ∧
          (t.stepOf q).updateCount = (s.stepOf q).updateCount ∧ (t.stepOf q).armed = true ∧
          (t.slot a).ctx.pc = (s.slot a).ctx.pc + 1 ∧ (t.slot a).openDone = true ∧
          (∀ c, s.partOf c = some q → (t.cell c).frozen = false ∧ ((t.cell c).latch 62).count = 0 ∧
            (t.cell c).stopBits = (if (s.stepOf q).fade then 0x10 else 0) ∧
            ((t.cell c).slot 0).grain.seeded = false ∧ ⟨60, 1, true, none⟩ ∈ (t.cell c).signals) ∧
          (∀ c, (t.cell c).store = (s.cell c).store ∧ (t.cell c).vat = (s.cell c).vat) ∧ t.mem = s.mem ∧
          (∀ r, r ≠ q → t.stepOf r = s.stepOf r))) ∧
      (a.slot = 0 → (s.stepOf q).armed = true → s.leadOf q = some a.cell → s.closed q = false →
        exec (.stOpen a p f) s = .next (s.stall a 0x7)) ∧
      (a.slot = 0 → (s.stepOf q).armed = true → s.leadOf q ≠ some a.cell → exec (.stOpen a p f) s =
        .next (((s.countIssue a).stall a 0x7).modSlot a (fun x => { x with wait := .stOpen }))) ∧
      (a.slot = 1 → exec (.stOpen a p f) s = .next (s.faulted a 7 0x01 0x0A 0)) ∧
      (a.slot = 0 → (s.stepOf q).armed = false → exec (.stOpen a p f) s =
        .next ((s.faulted a 7 0x01 0x0A 0).abort q 3))) ∧
    (∀ c : CellId, let l := (s.cell c).latch 60
      ((s.slot ⟨c, 0⟩).wait = .stOpen → 1 ≤ l.count.toNat → exec (.stOpenRelease c) s = .next
        ((((s.stall ⟨c, 0⟩ 0).modCell c (fun x => x.setLatch 60 { l with count := l.count - 1 })).modSlot ⟨c, 0⟩
          (fun x => { x with openDone := true })).retire ⟨c, 0⟩)) ∧
      (((s.slot ⟨c, 0⟩).wait ≠ .stOpen ∨ l.count = 0) → exec (.stOpenRelease c) s = .next s))

/-- st.stop and st.fix arrive at the lead cell's barriers; the last arrival moves the step on. Where st.stop of the
foreground slot executes in EXPOSE with nothing of it left that can set a stop bit, the cell's stop bits are frozen,
ABORT added where IMM is 1, and its arrival is counted at latch 61 of the lead cell: by a step signal from another
cell, which goes on, by the lead's own count before it waits. st.fix in FIX with no vector or mover instruction of it
left does the same at latch 63. STOP_BARRIER_COMPLETE with every arrival there takes them, writes the OR of the frozen
stop bits to VERDICT.PARTITION_STOP and enters STOP; FIX_BARRIER_COMPLETE takes the arrivals, a commit going on to
wait for its negative, a skip to the seal; with tags outstanding it takes only the lead's arrival. Out of phase
st.stop and st.fix take PHASE_FAULT (0x0A). (02_step_expose_stop_fix Table 2-2, 02_step_expose_stop_fix R43,
02_step_expose_stop_fix R44, 02_step_expose_stop_fix R46, 02_step_expose_stop_fix R48, 02_step_expose_stop_fix R49,
12_collectives_and_mapping R412) -/
def Obligations.StepStopsAndFixes : Prop :=
  (∀ (s : State) (a : At) (p : Pred) (f : FmtY) (q : PartId) (lead : CellId),
    s.partOf a.cell = some q → s.leadOf q = some lead → a.slot = 0 →
    let froze := s.modCell a.cell (fun x => { x with
      frozen := true, stopBits := if bit f.imm 0 && !x.frozen then setBit x.stopBits 2 true else x.stopBits })
    let sent := fun (u : State) (l : BitVec 6) => ((u.countIssue a).modCell lead (fun x =>
      { x with signals := x.signals ++ [⟨l, 1, true, none⟩] })).retire a
    let waits := fun (u : State) (l : BitVec 6) (w : Wait) => ((((u.countIssue a).stall a 0x7).modCell a.cell (fun y =>
        y.setLatch l { (s.cell a.cell).latch l with
          count := BitVec.ofNat 32 (min (((s.cell a.cell).latch l).count.toNat + 1) (2 ^ 32 - 1)) })).modSlot a
      (fun y => { y with wait := w }))
    (s.takes (.stStop a p f) →
      (s.phase q = .expose → (s.cell a.cell).eng.stopHeld 0 = false →
        (lead ≠ a.cell → exec (.stStop a p f) s = .next (sent froze 61)) ∧
        (lead = a.cell → (s.stepOf q).armed = true → exec (.stStop a p f) s = .next (waits froze 61 .stStop))) ∧
      (s.phase q ≠ .expose → exec (.stStop a p f) s = .next (s.faulted a 7 0x02 0x0A 0))) ∧
    (s.takes (.stFix a p f) →
      (s.phase q = .fix → (s.cell a.cell).eng.vecBusy 0 = false → (s.cell a.cell).eng.moverBusy 0 = false →
        (lead ≠ a.cell → exec (.stFix a p f) s = .next (sent s 63)) ∧
        (lead = a.cell → (s.stepOf q).armed = true → exec (.stFix a p f) s = .next (waits s 63 .stFix))) ∧
      (s.phase q ≠ .fix → exec (.stFix a p f) s = .next (s.faulted a 7 0x03 0x0A 0)))) ∧
  (∀ (s : State) (q : PartId) (c : CellId), s.leadOf q = some c →
    let n := (s.cellsOf q).length
    (s.phase q = .expose → ((s.cell c).slot 0).wait = .stStop → n ≤ ((s.cell c).latch 61).count.toNat →
      (s.stepOf q).refix = false → Completes (.stopBarrierComplete q) s (fun t =>
        (t.stepOf q).phase = .stop ∧ fld (t.stepOf q).status 0 3 = 2 ∧
        (t.stepOf q).stopWord = some ((s.cellsOf q).foldl (fun w d => w ||| (s.cell d).stopBits) 0) ∧
        bfld (t.stepOf q).verdict 16 16 = (s.cellsOf q).foldl (fun w d => w ||| (s.cell d).stopBits) 0 ∧
        ((t.cell c).latch 61).count = ((s.cell c).latch 61).count - BitVec.ofNat 32 n ∧
        ((t.cell c).slot 0).wait = .none ∧ ((t.cell c).slot 0).ctx.pc = ((s.cell c).slot 0).ctx.pc + 1 ∧
        (∀ d, (t.cell d).store = (s.cell d).store) ∧ t.mem = s.mem ∧ (∀ r, r ≠ q → t.stepOf r = s.stepOf r))) ∧
    (s.phase q ≠ .expose → exec (.stopBarrierComplete q) s = .next s) ∧
    (s.phase q = .fix → (s.stepOf q).stage = .idle → ((s.cell c).slot 0).wait = .stFix →
      n ≤ ((s.cell c).latch 63).count.toNat →
      let took := s.modCell c (fun y => y.setLatch 63
        { (s.cell c).latch 63 with count := ((s.cell c).latch 63).count - BitVec.ofNat 32 n })
      (s.tagsOut q = false → (s.stepOf q).commit = true → exec (.fixBarrierComplete q) s =
        .next (took.modStep q (fun t => { t with stage := .waitNegative }))) ∧
      (s.tagsOut q = false → (s.stepOf q).commit = false → Completes (.fixBarrierComplete q) s (fun t =>
        (t.stepOf q).stage = .sealWait ∧ t.cells = took.cells ∧ t.mem = s.mem ∧ (t.stepOf q).phase = .fix)) ∧
      (s.tagsOut q = true → Completes (.fixBarrierComplete q) s (fun t =>
        ((t.cell c).latch 63).count = ((s.cell c).latch 63).count - 1 ∧ ((t.cell c).slot 0).wait = .none ∧
        t.steps = s.steps ∧ t.mem = s.mem))))

/-- A committed Fix advances the update count once; the boundary closes the step and advances INDEX.
FIX_COMMIT_ADVANCE in FIX, waiting on the negative, with no twin engine on, a refix, or the negative of this count
complete: UPDATE_COUNT advances by 1 and the step waits on its seal; nothing of DRAM or the cell stores changes.
STEP_BOUNDARY in FIX, waiting on the seal, with it acknowledged or not needed and no table build to come: the
partition is CLOSED, INDEX and INPUT_POS advance by 1, SKIP_COUNT by 1 after a skip only, UPDATE_COUNT, VERDICT, VALID
and COMMIT stay; cell stores are unchanged, and DRAM too where no group is to be applied and no contact sheet taken
(whose tables and list are read then). st.seed in EXPOSE of the foreground slot whose step it opened seeds its grain
with SA, JOB_SEED and INDEX, draw counters zero; in the bubble slot with SD and the next register.
(02_step_expose_stop_fix R48, 02_step_expose_stop_fix R49, 02_step_expose_stop_fix R51, 02_step_expose_stop_fix R53,
02_step_expose_stop_fix R56, 05_vector_engine_and_control_core R151, 05_vector_engine_and_control_core R153) -/
def Obligations.FixAdvanceAndBoundary : Prop :=
  (∀ (s : State) (p : PartId), s.phase p = .fix →
    let x := s.stepOf p
    (x.stage = .waitNegative → (s.twinOn p = false ∨ x.refix = true ∨ (s.twin p).hasNegative x.updateCount = true) →
      Completes (.fixCommitAdvance p) s (fun t =>
        t.stepOf p = { x with updateCount := x.updateCount + 1, stage := .sealWait } ∧
        (∀ q, q ≠ p → t.stepOf q = s.stepOf q) ∧ t.mem = s.mem ∧ t.cells = s.cells)) ∧
    (x.stage = .waitNegative → s.twinOn p = true → x.refix = false → (s.twin p).hasNegative x.updateCount = false →
      exec (.fixCommitAdvance p) s = .next s) ∧
    (x.stage = .sealWait → (s.twinOn p = false ∨ x.refix = true ∨ (s.twin p).sealAck = true) →
      s.buildPending p = false → Completes (.stepBoundary p) s (fun t =>
        (t.stepOf p).phase = .closed ∧ fld (t.stepOf p).status 0 3 = 0 ∧ (t.stepOf p).index = x.index + 1 ∧
        (t.stepOf p).inputPos = x.inputPos + 1 ∧
        (t.stepOf p).skipCount = (if x.commit then x.skipCount else x.skipCount + 1) ∧
        (t.stepOf p).updateCount = x.updateCount ∧ (t.stepOf p).verdict = x.verdict ∧
        (t.stepOf p).valid = x.valid ∧ (t.stepOf p).commit = x.commit ∧ (t.stepOf p).jobSeed = x.jobSeed ∧
        ((∀ g ∈ s.groupsOf p, (s.group g).dirty = false) → (x.commit = false ∨ (s.sheet p).stateCode ≠ 1) →
          t.mem.dram = s.mem.dram) ∧ (∀ c, (t.cell c).store = (s.cell c).store) ∧
        (∀ q, q ≠ p → (t.stepOf q).index = (s.stepOf q).index ∧ (t.stepOf q).phase = (s.stepOf q).phase))) ∧
    (x.stage = .sealWait → s.buildPending p = true → exec (.stepBoundary p) s = .next s)) ∧
  (∀ (s : State) (a : At) (p : Pred) (f : FmtY), s.takes (.stSeed a p f) →
    let seeded := fun (job ix : Word64) => .next (((s.countIssue a).setGrain a { (s.slot a).grain with
      seeded := true, seqSlot := bfld (s.sreg a f.sa) 0 32, jobSeed := job, stepIndex := ix,
      keyBase := (s.slot a).grain.laneBase, counters := [] }).retire a)
    (a.slot = 1 → exec (.stSeed a p f) s = seeded (s.sreg a f.sd) (s.sreg a (f.sd + 1))) ∧
    (∀ q, a.slot = 0 → s.partOf a.cell = some q →
      (s.phase q = .expose → (s.slot a).openDone = true → exec (.stSeed a p f) s =
        seeded (s.stepOf q).jobSeed (s.stepOf q).index) ∧
      (s.phase q = .expose → (s.slot a).openDone = false → exec (.stSeed a p f) s = .next (s.faulted a 7 0x04 0x0D 0)) ∧
      (s.phase q ≠ .expose → exec (.stSeed a p f) s = .next (s.faulted a 7 0x04 0x0A 0))))

/-- A verdict whose tag names the step arrives in STOP and moves it to FIX; timeouts abort. VERDICT_ARRIVAL in STOP
with no verdict yet, a tag equal to INDEX[31:0], no poisoned persistent state found and no BODY_ACK awaited: the
partition is in FIX, VERDICT holds the tag and the reduced word, VALID is 1, COMMIT is 1 exactly where the word has no
skip cause, and latch 62 of every cell is signalled; a wrong tag, a second verdict or ABORTED leaves the step as it is
with VERDICT_MISMATCH. VERDICT_TIMEOUT while a verdict is awaited, and TWIN_ACK_TIMEOUT while a wait of the boundary
runs, move the partition to ABORTED with cause 1 and 2, the counters and the cells as they were, and DRAM too but
where a commit verdict has opened the persistent pages; elsewhere they change nothing. (02_step_expose_stop_fix R45,
02_step_expose_stop_fix R46, 02_step_expose_stop_fix R59, 02_step_expose_stop_fix R60, 02_step_expose_stop_fix R61,
02_step_expose_stop_fix R38) -/
def Obligations.VerdictsAndTimeouts : Prop :=
  ∀ (s : State) (p : PartId) (tag : Word32) (w : BitVec 16),
    let x := s.stepOf p
    (x.phase = .stop → tag = bfld x.index 0 32 → x.valid = false → x.delivered = none → x.poisonFound = false →
      s.bodyWaits p = false → Completes (.verdictArrival p tag w) s (fun t =>
        (t.stepOf p).phase = .fix ∧ fld (t.stepOf p).status 0 3 = 3 ∧ (t.stepOf p).valid = true ∧
        (t.stepOf p).commit = !(skips w) ∧ bfld (t.stepOf p).verdict 0 16 = w ∧ bfld (t.stepOf p).verdict 32 32 = tag ∧
        (t.stepOf p).index = x.index ∧ (t.stepOf p).updateCount = x.updateCount ∧
        (∀ c, s.partOf c = some p → ⟨62, 1, true, none⟩ ∈ (t.cell c).signals) ∧
        (∀ c, (t.cell c).store = (s.cell c).store) ∧ t.mem = s.mem ∧ (∀ q, q ≠ p → t.stepOf q = s.stepOf q))) ∧
    ((tag ≠ bfld x.index 0 32 ∨ x.phase = .aborted ∨ x.valid = true) → Completes (.verdictArrival p tag w) s (fun t =>
      t = { s with faults := t.faults, tray := t.tray, host := t.host })) ∧
    (s.verdictAwaited p = true → Completes (.verdictTimeout p) s (fun t =>
      (t.stepOf p).phase = .aborted ∧ fld (t.stepOf p).status 0 3 = 4 ∧ fld (t.stepOf p).status 16 4 = 1 ∧
      (t.stepOf p).index = x.index ∧ t.cells = s.cells ∧ t.mem = s.mem ∧ (∀ q, q ≠ p → t.stepOf q = s.stepOf q))) ∧
    (s.verdictAwaited p = false → exec (.verdictTimeout p) s = .next s) ∧
    (x.phase = .fix → s.waitsOnTwin p = true → Completes (.twinAckTimeout p) s (fun t =>
      (t.stepOf p).phase = .aborted ∧ fld (t.stepOf p).status 16 4 = 2 ∧ (t.stepOf p).index = x.index ∧
      t.cells = s.cells ∧ (x.commit = false → t.mem = s.mem) ∧ (∀ q, q ≠ p → t.stepOf q = s.stepOf q))) ∧
    (s.waitsOnTwin p = false → exec (.twinAckTimeout p) s = .next s)

/-- tr.mark, val and ctr queue a record; the trace queue writes it to its ring in memory. Where tr.mark, val or ctr
executes: with TRACE_CTL.EN 0 it only retires; with EN 1 and fewer than 16 records queued, a record of global time,
the value (0, SA, or the counter LATCH names), IMM, the origin word and INDEX (all ones in no partition) joins the
trace queue; else it is held. TRACE_RECORD_WRITE, no regulator or earlier access holding its burst back, takes the
oldest record: without WRAP in a full ring it counts as dropped; in reach and not refused its 32 bytes are written at
the ring's base plus HEAD modulo the ring size, and HEAD advances; otherwise it counts as dropped and memory is
unchanged. (07_instruction_reference R247, 07_instruction_reference R248, 07_instruction_reference R249,
06_instruction_encoding R204, 07_instruction_reference Table 7-16) -/
def Obligations.TraceRecords : Prop :=
  ∀ (s : State) (a : At) (p : Pred) (f : FmtY),
    let x := s.cell a.cell
    let recd := fun (op : Nat) (v : Word64) => (⟨s.timeOn (dieOf a.cell), v, f.imm,
      BitVec.ofNat 32 (op * 2 ^ 28 + a.slot.val * 2 ^ 27 + a.cell.val * 2 ^ 21 + (s.slot a).ctx.pc.toNat),
      match s.partOf a.cell with | some q => (s.stepOf q).index | none => BitVec.allOnes 64⟩ : TraceRec)
    (s.takes (.trMark a p f) →
      (bit x.regs.traceCtl 31 = false → exec (.trMark a p f) s = .next (s.after a id)) ∧
      (bit x.regs.traceCtl 31 = true → x.eng.traceQ.length < 16 → exec (.trMark a p f) s = .next (s.queued a (fun e =>
        { e with traceQ := e.traceQ ++ [recd 1 (0)] }))) ∧
      (bit x.regs.traceCtl 31 = true → 16 ≤ x.eng.traceQ.length → exec (.trMark a p f) s = .next (s.stall a 0))) ∧
    (s.takes (.trVal a p f) →
      (bit x.regs.traceCtl 31 = false → exec (.trVal a p f) s = .next (s.after a id)) ∧
      (bit x.regs.traceCtl 31 = true → x.eng.traceQ.length < 16 → exec (.trVal a p f) s = .next (s.queued a (fun e =>
        { e with traceQ := e.traceQ ++ [recd 2 (s.sreg a f.sa)] }))) ∧
      (bit x.regs.traceCtl 31 = true → 16 ≤ x.eng.traceQ.length → exec (.trVal a p f) s = .next (s.stall a 0))) ∧
    (s.takes (.trCtr a p f) →
      (bit x.regs.traceCtl 31 = false → exec (.trCtr a p f) s = .next (s.after a id)) ∧
      (bit x.regs.traceCtl 31 = true → x.eng.traceQ.length < 16 → exec (.trCtr a p f) s = .next (s.queued a (fun e =>
        { e with traceQ := e.traceQ ++ [recd 3 (x.regs.counter f.latch.toNat)] }))) ∧
      (bit x.regs.traceCtl 31 = true → 16 ≤ x.eng.traceQ.length → exec (.trCtr a p f) s = .next (s.stall a 0))) ∧
    (∀ (c : CellId) (r : TraceRec) (rest : List TraceRec), (s.cell c).eng.traceQ = r :: rest → s.unhindered →
      let g := (s.cell c).regs
      let n := 2 ^ (min (max (fld g.traceCtl 16 5) 12) 30) / 32
      let addr := fld g.traceBase 12 36 * 4096 + g.traceHead.toNat % n * 32
      let bytes := leBytes 8 r.time.toNat ++ leBytes 8 r.value.toNat ++ leBytes 4 r.imm.toNat ++
        leBytes 4 r.origin.toNat ++ leBytes 8 r.step.toNat
      let u := s.modCell c (fun y => y.modEng (fun e => { e with traceQ := rest }))
      (bit g.traceCtl 30 = false → n ≤ g.traceHead.toNat → exec (.traceRecordWrite c) s = .next
        (u.modCell c (fun y => y.modRegs (fun g => { g with traceCtl := satAdd g.traceCtl 0 16 1 }))).admitted) ∧
      ((bit g.traceCtl 30 = true ∨ g.traceHead.toNat < n) →
        (s.reaches (s.partD c) addr 32 = true → (s.checkWrite .other addr 32).1 = .ok → exec (.traceRecordWrite c) s =
          .next ((u.dramWrite .other addr bytes).modCell c (fun y =>
            y.modRegs (fun g => { g with traceHead := g.traceHead + 1 }))).admitted) ∧
        ((s.reaches (s.partD c) addr 32 = false ∨ (s.checkWrite .other addr 32).1 ≠ .ok) →
          Completes (.traceRecordWrite c) s (fun t => t.mem.dram = s.mem.dram ∧ (t.cell c).eng.traceQ = rest ∧
            (t.cell c).regs.traceCtl = satAdd g.traceCtl 0 16 1 ∧ (t.cell c).regs.traceHead = g.traceHead))))

/-- Contexts start, switch at a yield, wake on their condition, run foreground first, end at the grace. CONTEXT_SWITCH
after a retired yield: the context has the initial registers (PC kept), is READY or running if its wake condition
holds, else DORMANT; its latches but the wake latch are abandoned, the vat is cleared, PLATE_CFG and EPI are at reset,
CTX_SWITCH counts, and the cell store is as it was. CONTEXT_WAKE of a DORMANT context whose condition holds makes it
READY; where it does not, nothing changes. CONTEXT_RUN_START with no context running starts the foreground slot if
READY, else the bubble slot if READY, and only that. GRACE_EXPIRY of a bubble context in its grace starts its context
reset and changes no cell. CTX_START from the host or the management path with the core reachable and GO 1: where the
slot is EMPTY, its part holds the entry, the cell has a partition, and (for the foreground slot) no other foreground
slot of the partition holds another job, the slot is READY with the initial registers, the PC and job of the write,
CTX_FAULT, CTX_CTL and CTX_WAKE_TIME zero; the cell store and the other slot are unchanged (a running bubble context
may be asked to return). Where refused, or with GO 0, no cell changes. (08_latches_contexts_partitions R257,
08_latches_contexts_partitions R260, 08_latches_contexts_partitions R261, 08_latches_contexts_partitions R263,
08_latches_contexts_partitions R264, 08_latches_contexts_partitions Table 8-4, 08_latches_contexts_partitions R258,
06_instruction_encoding R216, 08_latches_contexts_partitions R274, 19_register_map R587) -/
def Obligations.ContextSwitchesAndStarts : Prop :=
  (
    ∀ (s : State) (c : CellId) (i : SlotId),
      let x := s.cell c
      let y := s.slot ⟨c, i⟩
      (x.switch = .yield i → Completes (.contextSwitch c) s (fun t =>
        let z := t.cell c
        (t.slot ⟨c, i⟩).ctx = { Ctx.initial with pc := y.ctx.pc } ∧ z.vat = ProtMem.empty ∧ z.vatLive = 0 ∧
        z.store = x.store ∧ z.regs.ctxSwitch = x.regs.ctxSwitch + 1 ∧ z.regs.plateCfg = CellRegs.reset.plateCfg ∧
        z.regs.epi = CellRegs.reset.epi ∧ z.regs.plateDbg = 0 ∧ z.switch = .none ∧
        ((t.slot ⟨c, i⟩).state = .dormant ∨ (t.slot ⟨c, i⟩).state = .ready ∨ (t.slot ⟨c, i⟩).state = .running) ∧
        (y.wake = .none → (t.slot ⟨c, i⟩).state ≠ .dormant) ∧
        (∀ l : BitVec 6, l.toNat < 60 → (z.latch l).owner.map (·.1) = some i → y.wake = .latch l) ∧ t.mem = s.mem)) ∧
      (x.switch = .none → exec (.contextSwitch c) s = .next s) ∧
      (y.state = .dormant → s.wakeHolds c y = true → Completes (.contextWake c i) s (fun t =>
        (t.slot ⟨c, i⟩).state = .ready ∧ (t.slot ⟨c, i⟩).ctx = y.ctx ∧ (t.cell c).store = x.store ∧ t.mem = s.mem)) ∧
      ((y.state ≠ .dormant ∨ s.wakeHolds c y = false) → exec (.contextWake c i) s = .next s) ∧
      (x.running = none → x.switch = .none →
        let run := fun (j : SlotId) => s.setCell c
          { (x.modSlot j (fun y => { y with state := .running })) with running := some j, switch := .none, grace := false }
        ((s.slot ⟨c, 0⟩).ready = true → exec (.contextRunStart c) s = .next (run 0)) ∧
        ((s.slot ⟨c, 0⟩).ready = false → (s.slot ⟨c, 1⟩).ready = true → exec (.contextRunStart c) s = .next (run 1))) ∧
      (x.running ≠ none → exec (.contextRunStart c) s = .next s) ∧
      (x.grace = true → x.running = some 1 → x.switch = .none → Completes (.graceExpiry c) s (fun t =>
        t.cells = s.cells ∧ t.mem = s.mem ∧
        (s.faults.resets = [] → ∃ r, t.faults.resets = [r] ∧ r.level = .context ∧ r.cell = c ∧ r.slot = 1 ∧ r.cause = 0x5))) ∧
      (x.grace = false → exec (.graceExpiry c) s = .next s)) ∧ (
    ∀ (s : State) (c : CellId) (i : SlotId) (v : Word64) (b : Requester), (∀ d j, b ≠ .ctx d j) → s.regsUp = true →
      (bit v 20 = true → s.startRefused c i v = false → Completes (.ctxStart b c i v) s (fun t =>
        let y := t.slot ⟨c, i⟩
        y.state = .ready ∧ y.ctx = { Ctx.initial with pc := bfld v 0 20 } ∧ y.job = bfld v 48 16 ∧ y.ctxFault = 0 ∧
        y.ctxCtl = 0 ∧ y.wakeTime = 0 ∧ y.wait = .none ∧ y.stopping = false ∧ (t.cell c).store = (s.cell c).store ∧
        (t.cell c).vat = (s.cell c).vat ∧ (∀ j, j ≠ i → t.slot ⟨c, j⟩ = s.slot ⟨c, j⟩) ∧
        (∀ d, d ≠ c → t.cell d = s.cell d) ∧ t.mem = s.mem)) ∧
      ((bit v 20 = false ∨ s.startRefused c i v = true) → Completes (.ctxStart b c i v) s (fun t => t.cells = s.cells)) ∧
      (s.startRefused c i v = false →
        (s.slot ⟨c, i⟩).state = .empty ∧ (s.cell c).inPart i (8 * fld v 0 20) 8 = true ∧ s.partOf c ≠ none))

/-- A context is denied every register write R585 closes to it; an unreachable core ignores the rest. For each of the
28 register-write commands of the core domain that R585 opens to no context (context start, slot and partition
configuration, STEP counters, memory bring-up, margins, map-outs, page commands, crossings, grants, routing slots,
collective arming, sheets, host regions, doorbells, power, pattern runs and the safelight): made by a context it takes
REG_DENIED and changes nothing but that fault; made from outside while the core is unpowered or in chip reset it is
dropped with REG_WRITE_IGNORED. A context is denied the AUX writes (resets, age and fabric configuration) too.
(19_register_map R585, 19_register_map R587, 19_register_map R589, 07_instruction_reference R222, 00_scope R11) -/
def Obligations.RegisterAccessRules : Prop :=
  (∀ (i : Instr) (s : State) (b : Requester) (d : DieId), closedWrite i = some (b, d) →
    (∀ c j, b = .ctx c j → exec i s = .next (s.coreFault ⟨c, j⟩ 1 0x43 0x07 0)) ∧
    (isCtx b = false → s.coreUp = false → exec i s =
      .next (s.report { s.errRec d (sysStatus 0x0F) .event with engine := 0x10 }))) ∧
  (∀ (i : Instr) (s : State) (b : Requester), auxWriter i = some b →
    ∀ c j, b = .ctx c j → exec i s = .next (s.coreFault ⟨c, j⟩ 1 0x43 0x07 0))

/-- STEP counters are written in CLOSED only. A write of INDEX, UPDATE_COUNT, SKIP_COUNT, INPUT_POS or JOB_SEED of
partition p from the host or the management path, the core reachable: in phase CLOSED that register of that partition
holds the value and nothing else has changed; in any other phase every STEP register is as it was and a record
STEP_WRITE_REJECTED (0x05) is written. (02_step_expose_stop_fix R62) -/
def Obligations.StepCountersWrite : Prop :=
  ∀ (s : State) (b : Requester) (p : PartId) (r : Fin 5) (v : Word64), isCtx b = false → s.regsUp = true →
    (s.phase p = .closed → exec (.stepRegWrite b p r v) s = .next (s.modStep p (fun t =>
      if r = 0 then { t with index := v } else if r = 1 then { t with updateCount := v }
      else if r = 2 then { t with skipCount := v } else if r = 3 then { t with inputPos := v }
      else { t with jobSeed := v }))) ∧
    (s.phase p ≠ .closed → exec (.stepRegWrite b p r v) s = .next (s.report
      { (s.errRec 4 (sysStatus 0x05) .event).withPart s p with engine := 0x0F }))

/-- PART_CTL.APPLY installs the pending masks and ranges, or reports overlap or the busy partitions. PART_APPLY from
outside, core reachable. Overlapping pending masks: RESULT 3 and nothing else. Else, with a partition to change that
is not CLOSED or an occupied cell to leave its partition: RESULT 2 with those partitions in BUSY_MASK and nothing
else. Else every partition has its pending cell mask and DRAM ranges, RESULT is 1, BUSY_MASK 0 and the epoch has
advanced; no cell, step or memory has changed, and no two partitions share a cell. CFG_APPLY in CLOSED makes the
partition's pending bandwidth shares and STEP control active, keeps other partitions' values, and clears its held bit;
in another phase it only sets the held bit. (08_latches_contexts_partitions R271, 08_latches_contexts_partitions R268,
17_host_management_identity R533, 17_host_management_identity R535) -/
def Obligations.PartitionApply : Prop :=
  ∀ (s : State) (b : Requester), isCtx b = false → s.regsUp = true →
    let overlap := ∃ p q : PartId, p ≠ q ∧ (s.part p).cellsPending &&& (s.part q).cellsPending ≠ 0
    (overlap → exec (.partApply b) s = .next { s with partCtl := setFld (setFld s.partCtl 2 2 3) 4 4 0 }) ∧
    (¬ overlap → s.applyBlockers ≠ [] → Completes (.partApply b) s (fun t =>
      t = { s with partCtl := t.partCtl } ∧ fld t.partCtl 2 2 = 2 ∧
      ∀ p : PartId, bit t.partCtl (4 + p.val) = s.applyBlockers.contains p)) ∧
    (¬ overlap → s.applyBlockers = [] → Completes (.partApply b) s (fun t =>
      fld t.partCtl 2 2 = 1 ∧ fld t.partCtl 4 4 = 0 ∧ fld t.partCtl 32 32 = (fld s.partCtl 32 32 + 1) % 2 ^ 32 ∧
      (∀ p, (t.part p).cells = (s.part p).cellsPending ∧ (t.part p).range = (s.part p).rangePending ∧
        (t.part p).stack = (s.part p).stack) ∧
      (∀ c p q, bit (t.part p).cells c = true → bit (t.part q).cells c = true → p = q) ∧
      t.cells = s.cells ∧ t.steps = s.steps ∧ t.mem = s.mem)) ∧
    (∀ p, s.phase p = .closed → Completes (.cfgApply b p) s (fun t =>
      (t.part p).stack = (s.part p).stackShadow ∧ (t.stepOf p).ctl = (s.stepOf p).ctlShadow ∧
      bit (t.part p).cfgApply 1 = false ∧ (t.stepOf p).index = (s.stepOf p).index ∧ t.cells = s.cells ∧
      (∀ q, q ≠ p → t.part q = s.part q ∧ t.stepOf q = s.stepOf q))) ∧
    (∀ p, s.phase p ≠ .closed → exec (.cfgApply b p) s =
      .next (s.modPart p (fun x => { x with cfgApply := setBit x.cfgApply 1 true })))

/-- Registers of a cell take the writes their access rule lets through; the map gives every offset its register. Of a
cell, the core reachable: SLOT_CFG takes a write from outside while both slots are EMPTY (bits [23:8] and [6:0]), else
SLOT_CFG_BUSY and no change; ISA_CTL of an EMPTY slot takes LEVEL 1 for 0 or 1; PLATE_CFG takes bits [2:0] from the
running context, or from outside while none runs, else the write is ignored; DBG_EN is set only under a debug unlock
with an empty plate queue, and always cleared; GRAIN.LANE_BASE, CTX_CTL[15:0] and CTX_WAKE_TIME take writes of the
slot's own context, or from outside while the slot is EMPTY, else ignored. Each accepted write changes that register
alone. Where sc.rdreg or sc.wrreg executes on an offset SA + sext(IMM) at which the map has a register open to it,
aligned to its width: the read writes the register's value (of the pending view in its half; in FIX, update counts
from before their increment, R51) into SD, or takes POISON where its word arrives uncorrectable, the write does that
register's write with SD and retires; an unmapped or closed one takes REG_DENIED, a misaligned one MISALIGNED.
REGISTER_WRITE from outside, naturally aligned, does the register's write where it can be reached, with 8 bytes to a
64-bit register and with the low 32 bits to a 32-bit one; elsewhere, and at an offset without a register,
REG_WRITE_IGNORED. A host request (BAR0_ACCESS) to BAR0 of the HCP does the same for the host, answers a read with the
value, and a write that is not an aligned 4 or 8 bytes changes nothing; one to a port whose link is down changes
nothing, a memory request to the HSP gets Unsupported Request, and a configuration request before the package is host-
visible gets Request Retry Status; the first double word of the HSP reads its IDs. (04_plate_and_vat R132,
04_plate_and_vat R133, 05_vector_engine_and_control_core R165, 05_vector_engine_and_control_core R166,
06_instruction_encoding R213, 08_latches_contexts_partitions R259, 08_latches_contexts_partitions R274,
07_instruction_reference R222, 19_register_map R585, 19_register_map R587, 17_host_management_identity R522,
17_host_management_identity R525) -/
def Obligations.RegisterReadsAndWrites : Prop :=
  (
    ∀ (s : State) (c : CellId) (i : SlotId) (b : Requester) (v : Word32) (w : Word64),
      let x := s.cell c
      let y := s.slot ⟨c, i⟩
      let regs := fun (f : CellRegs → CellRegs) => s.modCell c (fun z => z.modRegs f)
      let ignored := s.report { s.errRec (dieOf c) (sysStatus 0x0F) .event with engine := 0x10 }
      let event := fun (code : Byte) =>
        s.report { (s.errRec (dieOf c) (sysStatus code) .event).withCell s c with engine := 0x10 }
      (isCtx b = false → s.regsUp = true →
        ((∀ j, (s.slot ⟨c, j⟩).state = .empty) → exec (.slotCfgWrite b c v) s =
          .next (regs (fun r => { r with slotCfg := v &&& 0x00FFFF7F }))) ∧
        ((∃ j, (s.slot ⟨c, j⟩).state ≠ .empty) → exec (.slotCfgWrite b c v) s = .next (event 0x0B)) ∧
        (y.state = .empty → fld w 0 4 ≤ 1 → fld w 32 32 = 0 → exec (.isaCtlWrite b c i w) s =
          .next (s.modSlot ⟨c, i⟩ (fun z => { z with isaCtl := setFld z.isaCtl 0 4 1 }))) ∧
        (y.state ≠ .empty → exec (.isaCtlWrite b c i w) s = .next (event 0x09)) ∧
        (x.running = none → exec (.plateCfgWrite b c v) s = .next (regs (fun r => { r with plateCfg := v &&& 7 }))) ∧
        (x.running ≠ none → exec (.plateCfgWrite b c v) s = .next ignored) ∧
        (bit v 0 = true → (s.test.plateUnlocked = false ∨ x.eng.plateQ ≠ []) →
          exec (.plateDbgEnWrite b c v) s = .next (event 0x08)) ∧
        (bit v 0 = true → s.test.plateUnlocked = true → x.eng.plateQ = [] →
          exec (.plateDbgEnWrite b c v) s = .next (regs (fun r => { r with plateDbg := 1 }))) ∧
        (bit v 0 = false → exec (.plateDbgEnWrite b c v) s = .next (regs (fun r => { r with plateDbg := 0 })))) ∧
      (((isCtx b = false ∧ s.regsUp = true ∧ y.state = .empty) ∨ (b = .ctx c i ∧ s.partOf c ≠ none)) →
        exec (.grainLaneBaseWrite b c i v) s =
          .next (s.modSlot ⟨c, i⟩ (fun z => { z with grain := { z.grain with laneBase := v } })) ∧
        exec (.ctxCtlWrite b c i true w) s = .next (s.modSlot ⟨c, i⟩ (fun z => { z with wakeTime := w })) ∧
        exec (.ctxCtlWrite b c i false w) s =
          .next (s.modSlot ⟨c, i⟩ (fun z => { z with ctxCtl := (bfld w 0 16).zeroExtend 32 }))) ∧
      (isCtx b = false → s.regsUp = true → y.state ≠ .empty →
        exec (.grainLaneBaseWrite b c i v) s = .next ignored ∧ ∀ k, exec (.ctxCtlWrite b c i k w) s = .next ignored) ∧
      (x.running = some i → s.partOf c ≠ none → exec (.plateCfgWrite (.ctx c i) c v) s =
        .next (regs (fun r => { r with plateCfg := v &&& 7 })))) ∧ (
    (∀ (s : State) (a : At) (p : Pred) (f : FmtSI),
      let o := s.sreg a f.sa + f.imm.signExtend 64
      let ad := BitVec.ofNat 64 0x600000000000 + o
      let me : Requester := .ctx a.cell a.slot
      ∀ r, o.toNat < 0x10000000 → regAccess o.toNat = some r → s.ringWhole = true →
        let aligned := r.low % (if r.entry.wide then 8 else 4) = 0
        let u := s.countsAtFix
        (∀ bad, s.takes (.scRdreg a p ⟨f, bad⟩) →
          (r.low = 0 → r.entry.rd s me = true → bad = false → exec (.scRdreg a p ⟨f, bad⟩) s = .next (s.after a (·.setS f.sd
            (if r.pending then r.entry.pend u else r.entry.get u)))) ∧
          (r.low = 0 → r.entry.rd s me = true → bad = true → exec (.scRdreg a p ⟨f, bad⟩) s =
            .next (s.faulted a 1 0x42 0x08 ad)) ∧
          (aligned → r.entry.rd s me = false → exec (.scRdreg a p ⟨f, bad⟩) s = .next (s.faulted a 1 0x42 0x07 ad)) ∧
          (¬ aligned → exec (.scRdreg a p ⟨f, bad⟩) s = .next (s.faulted a 1 0x42 0x05 ad))) ∧
        (s.takes (.scWrreg a p f) →
          (r.low = 0 → r.entry.wr s me = true → exec (.scWrreg a p f) s =
            .next ((r.entry.put me (s.sreg a f.sd) (s.countIssue a)).retire a)) ∧
          (aligned → r.entry.wr s me = false → exec (.scWrreg a p f) s = .next (s.faulted a 1 0x43 0x07 ad)) ∧
          (¬ aligned → exec (.scWrreg a p f) s = .next (s.faulted a 1 0x43 0x05 ad)))) ∧
    (∀ (s : State) (b : Requester) (o : BitVec 28) (v : Word64) (r : RegAccess), isCtx b = false →
      regAccess o.toNat = some r →
      s.ringWhole = true →
      let done := fun (w : Word64) => r.entry.put b w s
      (r.entry.aux = true ∨ s.coreUp = true →
        (r.entry.wide = true → o.toNat % 8 = 0 → exec (.registerWrite b o true v) s = .next (done v)) ∧
        (r.entry.wide = false → r.low = 0 → o.toNat % 8 = 0 → ∀ w, exec (.registerWrite b o w v) s = .next (done (v &&& 0xFFFFFFFF)))) ∧
      (r.entry.aux = false → s.coreUp = false → o.toNat % 8 = 0 → exec (.registerWrite b o true v) s =
        .next (s.report { s.errRec r.entry.die (sysStatus 0x0F) .event with engine := 0x10 }))) ∧
    (∀ (s : State) (b : Requester) (o : BitVec 28) (v : Word64), isCtx b = false → regAccess o.toNat = none → o.toNat % 8 = 0 →
      exec (.registerWrite b o true v) s =
        .next (s.report { s.errRec (entryDie b) (sysStatus 0x0F) .event with engine := 0x10 })) ∧
    (∀ (s : State) (o : BitVec 28) (v : Word64) (r : RegAccess), s.host.hcpUp = true → regAccess o.toNat = some r →
      s.ringWhole = true → (r.entry.aux = true ∨ s.coreUp = true) → r.entry.wide = true → o.toNat % 8 = 0 →
      exec (.bar0Access ⟨false, .bar0, true⟩ o 8 v) s = .next (r.entry.put .host v s) ∧
      exec (.bar0Access ⟨false, .bar0, false⟩ o 8 v) s = .next { s with host := { s.host with
        lastRead := some (if r.pending then r.entry.pend s else r.entry.get s), retried := false } } ∧
      ∀ n, n ≠ 4 → n ≠ 8 → exec (.bar0Access ⟨false, .bar0, true⟩ o n v) s = .next s) ∧
    (∀ (s : State) (q : HostReq) (o : BitVec 28) (n : Nat) (v : Word64),
      ((if q.hsp then s.host.hspUp else s.host.hcpUp) = false → exec (.bar0Access q o n v) s = .next s) ∧
      (q.hsp = true → s.host.hspUp = true → q.space ≠ .config →
        exec (.bar0Access q o n v) s = .next (if q.write then s else
          { s with host := { s.host with lastRead := none, retried := false } })) ∧
      ((if q.hsp then s.host.hspUp else s.host.hcpUp) = true → q.space = .config → s.hostVisible = false →
        exec (.bar0Access q o n v) s = .next { s with host := { s.host with retried := true } }) ∧
      (q.hsp = true → s.host.hspUp = true → q.space = .config → q.write = false → s.hostVisible = true → o.toNat % 4096 = 0 →
        Completes (.bar0Access q o 4 v) s (fun t => t.host.lastRead = some 0x57051E9C ∧ t.host.retried = false))))

/-- A burst served moves a transfer's bytes between DRAM and a cell store and counts once. DRAM_BURST_SERVE at a
trained, unfenced, unmargined stack without failed connections or bit changes takes the oldest admitted request that
no earlier one to its burst precedes, once its way between the dies is open both ways, no self-test holds its channel
and no poisoned beat is waiting. A read for a running transfer into a cell store, every word of the burst a code word,
writes exactly the bytes read to that cell store at the transfer's place and leaves DRAM as it is; a write that is not
refused writes the request's bytes, one refused by now fails its transfer with PROTECTED_WRITE and writes nothing; the
burst count advances by 1, other cell stores and every vat are unchanged. Attempts that fail the burst's CRC are
retried and counted, with the same bytes moved; four on a write leave DRAM as it is and start a chip reset. A read
made only for its errors and its tokens leaves memory and cells alone; a request held back changes nothing. With no
request to serve and nothing disturbed, only a disturbance noted before ends. (09_memory_system R280, 09_memory_system
R294, 09_memory_system R299, 09_memory_system R302, 07_instruction_reference R236) -/
def Obligations.MemoryBursts : Prop :=
  ∀ (s : State) (n : StackId) (line : BitVec 29) (i : Nat) (r : MemReq) (m : DmRun),
    let x := s.stack n
    let ch := s.chanOf r.addr
    ((∀ q ∈ x.requests, q.admitted = false) → x.fenced = false → x.trained = true →
      exec (.dramBurstServe n ⟨line, []⟩ []) s = .next (s.modStack n (fun y => { y with wire := none }))) ∧
    (x.trained = true → x.fenced = false → x.requests[i]? = some r → r.admitted = true →
      (∀ j < i, ∀ q, x.requests[j]? = some q → q.admitted = false ∧ q.addr / 256 ≠ r.addr / 256) →
      s.xfer r.cell r.xfer = some m → m.status = 0 → stackOf r.addr = n → s.direct r.view = some r.addr →
      r.addr % 256 + r.len ≤ 256 → (vget x.channels ch).broken = [] → s.margined n ch = false →
      r.own = false → s.burstHolds r.addr = false → s.pathBoth (dieOf r.cell) (stackDie n) (r.off / 4096) = true →
      s.beatsTaken →
      (∀ (a o : Nat) (b : CellId) (ts : List WireTry), r.write = false → 0 < r.len →
        m.ins.sides s r.cell r.off = (.dram a, .store b o) → m.ins.part s r.cell r.off r.len = [(r.off, r.len)] →
        s.mem.dram.marked (r.addr / 256 * 256) 256 = [] →
        let k := (s.mem.dram.attempts (r.addr / 256) ts).1
        k < 4 → (s.mem.dram.attempts (r.addr / 256) ts).2 = [] →
        Completes (.dramBurstServe n ⟨line, []⟩ ts) s (fun t =>
          (t.cell b).store = (s.cell b).store.write o (s.mem.dram.read r.addr r.len) ∧ t.mem = s.mem ∧
          (∀ d, d ≠ b → (t.cell d).store = (s.cell d).store) ∧ (∀ d, (t.cell d).vat = (s.cell d).vat) ∧
          (t.stack n).bursts = x.bursts + 1 ∧
          (vget (t.stack n).channels ch).crcCount = (vget x.channels ch).crcCount + k)) ∧
      (∀ ts : List WireTry, r.write = true → r.data.length = r.len → r.addr % 4 = 0 → r.len % 4 = 0 → 0 < r.len →
        let w := s.mem.dram.write r.addr r.data
        (s.writeRefused .other r.addr r.len = false → (w.attempts (r.addr / 256) ts).1 < 4 →
          (w.attempts (r.addr / 256) ts).2 = [] → Completes (.dramBurstServe n ⟨line, []⟩ ts) s (fun t =>
            t.mem.dram = w ∧ (∀ d, (t.cell d).store = (s.cell d).store) ∧ (t.stack n).bursts = x.bursts + 1)) ∧
        (s.writeRefused .other r.addr r.len = false → (w.attempts (r.addr / 256) ts).1 = 4 →
          Completes (.dramBurstServe n ⟨line, []⟩ ts) s (fun t =>
            t.mem = s.mem ∧ (∀ d, (t.cell d).store = (s.cell d).store) ∧ bit (t.stack n).mapoutReq ch.val = true ∧
            (s.faults.resets = [] → ∃ q ∈ t.faults.resets, q.level = .chip))) ∧
        (s.writeRefused .other r.addr r.len = true → Completes (.dramBurstServe n ⟨line, []⟩ ts) s (fun t =>
          t.mem = s.mem ∧ (∀ d, (t.cell d).store = (s.cell d).store) ∧
          ∃ q, t.xfer r.cell r.xfer = some q ∧ q.status = 0x08)))) ∧
    (∀ bs ts, x.nextRequest = some (i, r) →
      (s.burstHolds r.addr = true ∨ (r.own = false ∧ s.pathBoth (dieOf r.cell) (stackDie n) (r.off / 4096) = false)) →
      exec (.dramBurstServe n bs ts) s = .next s) ∧
    (∀ ts, x.nextRequest = some (i, r) → r.own = true → s.burstHolds r.addr = false →
      Completes (.dramBurstServe n ⟨line, []⟩ ts) s (fun t => t.mem = s.mem ∧ t.cells = s.cells ∧
        (t.stack n).requests = x.requests.eraseIdx i ∧ (t.stack n).bursts = x.bursts + 1))

/-- Write-backs and scrub repair words; regulators admit bursts; temperature sets refresh and fences. ECC_WRITEBACK of
an unfenced stack with memory in canonical form takes the channel's oldest line: every byte of DRAM reads as before, a
word of that line with a correctable error is now a code word, and every other word is stored as before. PATROL_SCRUB
of an enabled, trained, unfenced stack whose connections work reads the channel's next burst: no stored data byte
changes, each uncorrectable word of that burst becomes a poison mark, every other word is stored as before, and the
channel's place advances. ECC_WINDOW_END clears the channel's window count and its reported flag alone. REGULATOR_TICK
changes no memory, cell or request but for the admission of requests; with no request queued every bucket has
min(tokens + RATE, depth), and HELD counts the tick that ended for each partition that waited in it.
STACK_TEMP_READING with highest sensor T (units of 0.125 degrees) enters level 1 at 85, 2 at 95 and 3 above 105
degrees at once; level 3 stays, fences the stack and starts a chip reset; levels 1 and 2 are left for the next lower
after the tenth consecutive reading below 83 and 93. STACK_CONNECTION_FAIL of a connection in rotation commits the
spare that carries it and ends the rotation; of one that carries nothing withdraws it; of another takes the first
spare neither committed, failed nor lent, or, with none and none lent, the connection stays broken and the map-out of
its channel is requested. (09_memory_system R301, 09_memory_system R304, 09_memory_system R305, 09_memory_system R300,
09_memory_system R294, 09_memory_system R307, 09_memory_system R308, 09_memory_system R309, 09_memory_system R279,
09_memory_system Table 9-9) -/
def Obligations.ScrubRegulatorsAndTemperature : Prop :=
  (
    (∀ (s : State) (n : StackId) (ch : ChanId),
      let y := vget (s.stack n).channels ch
      let chan := fun (f : Channel → Channel) => s.modStack n (fun x => x.modCh ch f)
      (∀ line rest, y.writeBack = line :: rest → (s.stack n).fenced = false → s.mem.dram.wf = true →
        Completes (.eccWriteback n ch) s (fun t =>
          t = { chan (fun z => { z with writeBack := rest }) with mem := { s.mem with dram := t.mem.dram } } ∧
          (∀ b, t.mem.dram.readByte b = s.mem.dram.readByte b) ∧
          (∀ w, t.mem.dram.diff w =
            if 64 * line ≤ w ∧ w < 64 * line + 64 ∧ s.mem.dram.poisonedWord w = false then 0 else s.mem.dram.diff w))) ∧
      (y.writeBack = [] → exec (.eccWriteback n ch) s = .next s) ∧
      (∀ d, s.scrubs n = true → s.scrubAddr n ch y.scrub = some d → d % 256 = 0 → s.mem.dram.wf = true →
        (s.stack n).wire = none → y.broken = [] → ch = s.chanOf d → stackOf d = n →
        Completes (.patrolScrub n ch [] []) s (fun t =>
          t.mem.dram.bytes = s.mem.dram.bytes ∧ (vget (t.stack n).channels ch).scrub = y.scrub + 1 ∧
          t.cells = s.cells ∧
          ∀ w, t.mem.dram.diff w = if d / 4 ≤ w ∧ w < d / 4 + 64 ∧
            classify (syndrome (s.mem.dram.diff w)) = .bad then poisonDiff else s.mem.dram.diff w)) ∧
      (s.scrubs n = false → ∀ fs ts, exec (.patrolScrub n ch fs ts) s = .next s) ∧
      exec (.eccWindowEnd n ch) s = .next (chan (fun z => { z with windowCe := 0, reported := false })))) ∧ (
    (∀ s : State, Completes (.regulatorTick) s (fun t =>
      t.mem = s.mem ∧ t.cells = s.cells ∧ t.steps = s.steps ∧ t.faults = s.faults ∧
      (∀ n, (t.stack n).requests.map (fun r => (r.addr, r.len, r.write, r.data)) =
        (s.stack n).requests.map (fun r => (r.addr, r.len, r.write, r.data))) ∧
      ((∀ n, (s.stack n).requests = []) → ∀ p n, 
        vget (t.part p).tokens n = min (vget (s.part p).tokens n + (fld (vget (s.part p).stack n) 0 20 : Nat))
          (max (fld (vget (s.part p).stack n) 40 12) 1 * 4096 : Nat) ∧
        (t.part p).held = (s.part p).held + (if (s.part p).waited then 1 else 0) ∧ (t.part p).waited = false))) ∧
    (∀ (s : State) (n : StackId) (v : Vector (BitVec 16) 4) (T : Int),
      (∀ i : Fin 4, (vget v i).toInt ≤ T) → (∃ i : Fin 4, (vget v i).toInt = T) →
      let x := s.stack n
      let lvl := fld x.therm 16 2
      let goes := fun (k : Nat) => Completes (.stackTempReading n v) s (fun t =>
        fld (t.stack n).therm 16 2 = k ∧ fld (t.stack n).therm 0 16 = (BitVec.ofInt 16 T).toNat ∧
        bit (t.stack n).therm 31 = (bit x.therm 31 || decide (k = 3 ∧ lvl ≠ 3)) ∧ t.cells = s.cells ∧ t.mem = s.mem ∧
        (k = 3 → lvl ≠ 3 → s.faults.resets = [] → ∃ q ∈ t.faults.resets, q.level = .chip))
      (lvl = 3 → goes 3) ∧ (lvl < 3 → 840 < T → goes 3) ∧
      (lvl < 2 → 760 ≤ T → T ≤ 840 → goes 2) ∧ (lvl = 0 → 680 ≤ T → T < 760 → goes 1) ∧ (lvl = 0 → T < 680 → goes 0) ∧
      (lvl = 1 → 664 ≤ T → T < 760 → goes 1) ∧ (lvl = 1 → T < 664 → goes (if 9 ≤ x.cooler then 0 else 1)) ∧
      (lvl = 2 → 744 ≤ T → T ≤ 840 → goes 2) ∧ (lvl = 2 → T < 744 → goes (if 9 ≤ x.cooler then 1 else 2))) ∧
    (∀ (s : State) (n : StackId) (ch : ChanId) (i : Fin 318),
      let y := vget (s.stack n).channels ch
      let chan := fun (f : Channel → Channel) => s.modStack n (fun x => x.modCh ch f)
      let spare := fun (m : Fin 318) => 314 ≤ m.val ∧ m ∉ y.committed ∧ m ∉ y.failed
      let commits := fun (m : Fin 318) => chan (fun z => { z with committed := z.committed ++ [m], failed := z.failed ++ [i] })
      ((i ∈ y.failed ∨ i ∈ y.broken) → exec (.stackConnectionFail n ⟨ch, i⟩) s = .next s) ∧
      (i ∉ y.failed → i ∉ y.broken →
        (s.heldConns n ch = [] →
          (314 ≤ i.val → i ∉ y.committed → exec (.stackConnectionFail n ⟨ch, i⟩) s =
            .next (chan (fun z => { z with failed := z.failed ++ [i] }))) ∧
          ((i.val < 314 ∨ i ∈ y.committed) →
            (∀ m, spare m → (∀ k, spare k → m.val ≤ k.val) →
              exec (.stackConnectionFail n ⟨ch, i⟩) s = .next (commits m)) ∧
            ((∀ m, ¬ spare m) → exec (.stackConnectionFail n ⟨ch, i⟩) s =
              .next ((chan (fun z => { z with broken := z.broken ++ [i] })).modStack n (fun x =>
                { x with mapoutReq := setBit x.mapoutReq ch.val true }))))) ∧
        (∀ m, (i, m) ∈ s.heldConns n ch → (∀ r ∈ s.heldConns n ch, r.1 = i → r.2 = m) →
          Completes (.stackConnectionFail n ⟨ch, i⟩) s (fun t =>
            t = { commits m with test := t.test } ∧ ∀ r ∈ t.test.rotation, r.1 ≠ .conn n ch i)))))

/-- Writes of memory control and margin registers; pages marked and unmarked. From outside, the core reachable:
MAPOUT_REQ keeps its set bits and gains those written; MEM_CTL.BRINGUP is set only while every partition is CLOSED and
every slot EMPTY, else MARGIN_LOCKED, and clearing it clears every margin; a MARGIN is taken in bring-up mode only,
its counts starting afresh as EN rises. A pattern run (ST_PAT with GO) starts in bring-up mode on a channel in use of
an unfenced stack while none runs, else it is refused with RESULT 2 or 3; its end leaves memory as it was. PAGE_MARK
and PAGE_UNMARK from outside, core reachable, no command running: in a partition that is not CLOSED RESULT is 2, with
a page beyond the view or of another partition 3, and no page changes; else the command is BUSY with its word kept.
While one runs the write is ignored. PAGE_CMD_DONE sets PERSIST with OWNER p on every granule of every page of a mark
command, or clears them for an unmark (STREAMED kept), leaves every other granule as it was, and reports RESULT 1 with
the count of pages; DRAM contents and cells are unchanged. (09_memory_system R311, 09_memory_system R314,
09_memory_system Table 9-10, 18_self_test_and_debug R565, 09_memory_system R289, 09_memory_system Table 9-4) -/
def Obligations.MemoryRegistersAndPages : Prop :=
  (
    ∀ (s : State) (b : Requester) (n : StackId) (v : Word32) (w : Word64), isCtx b = false → s.regsUp = true →
      let locked := fun (d : DieId) => s.report { s.errRec d (sysStatus 0x11) .event with engine := 0x06 }
      let pat := fun (r : Nat) (p : Option Word64) =>
        { s with test := { s.test with patStat := BitVec.ofNat 32 r, pat := p } }
      let st : StackId := ⟨fld w 57 4 % 16, by omega⟩
      exec (.mapoutReqWrite b n v) s = .next (s.modStack n (fun x => { x with mapoutReq := x.mapoutReq ||| v })) ∧
      (bit v 0 = true → s.allClosed = true → s.allEmpty = true →
        exec (.memBringupWrite b v) s = .next { s with mem := { s.mem with memCtl := 1 } }) ∧
      (bit v 0 = true → (s.allClosed = false ∨ s.allEmpty = false) → exec (.memBringupWrite b v) s = .next (locked 4)) ∧
      (bit v 0 = false → Completes (.memBringupWrite b v) s (fun t =>
        t = { s with mem := { s.mem with memCtl := 0 }, stackSet := t.stackSet } ∧
        ∀ k, t.stack k = { s.stack k with margin := 0 })) ∧
      (bit s.mem.memCtl 0 = true → exec (.memMarginWrite b n v) s = .next (s.modStack n (fun x => { x with
        margin := v &&& 0x801F3F3F, marginErr := if bit v 31 && !(bit x.margin 31) then 0 else x.marginErr }))) ∧
      (bit s.mem.memCtl 0 = false → exec (.memMarginWrite b n v) s = .next (locked (stackDie n))) ∧
      (bit s.test.patStat 31 = true → exec (.stPatGo b w) s = .next s) ∧
      (bit s.test.patStat 31 = false →
        (bit s.mem.memCtl 0 = false → exec (.stPatGo b w) s = .next (pat (2 ^ 30) none)) ∧
        (bit s.mem.memCtl 0 = true → ((s.stack st).fenced = true ∨ bit (s.stack st).mappedOut (fld w 52 5) = true) →
          exec (.stPatGo b w) s = .next (pat (3 * 2 ^ 29) none)) ∧
        (bit s.mem.memCtl 0 = true → (s.stack st).fenced = false → bit (s.stack st).mappedOut (fld w 52 5) = false →
          exec (.stPatGo b w) s = .next (pat (2 ^ 31) (some (setBit w 63 true))))) ∧
      (∀ p, s.test.pat = some p → Completes (.stPatDone) s (fun t =>
        t.test = { s.test with patStat := BitVec.ofNat 32 (2 ^ 29), pat := none } ∧ t.mem = s.mem ∧ t.cells = s.cells))) ∧ (
    (∀ (s : State) (b : Requester) (v0 : Word64), isCtx b = false → s.regsUp = true →
      let set := fun (w : Nat) (c : Option Word64) =>
        { s with mem := { s.mem with pageStatus := BitVec.ofNat 32 w, pageCmd := c } }
      (let v := setFld v0 62 2 1
       let bad := 2 ^ 20 < fld v 21 20 + cmdCount v ∨ ∃ k < cmdCount v, s.pageConflict (cmdPart v) (cmdPage v k) = true
       (bit s.mem.pageStatus 31 = true → Completes (.pageMark b v0) s (fun t => t = { s with faults := t.faults })) ∧
       (bit s.mem.pageStatus 31 = false →
         (s.phase (cmdPart v) ≠ .closed → exec (.pageMark b v0) s = .next (set (2 ^ 21) none)) ∧
         (s.phase (cmdPart v) = .closed → bad → exec (.pageMark b v0) s = .next (set (3 * 2 ^ 20) none)) ∧
         (s.phase (cmdPart v) = .closed → ¬ bad → exec (.pageMark b v0) s = .next (set (2 ^ 31) (some v))))) ∧
      (let v := setFld v0 62 2 2
       let bad := 2 ^ 20 < fld v 21 20 + cmdCount v ∨ ∃ k < cmdCount v, s.pageConflict (cmdPart v) (cmdPage v k) = true
       (bit s.mem.pageStatus 31 = true → Completes (.pageUnmark b v0) s (fun t => t = { s with faults := t.faults })) ∧
       (bit s.mem.pageStatus 31 = false →
         (s.phase (cmdPart v) ≠ .closed → exec (.pageUnmark b v0) s = .next (set (2 ^ 21) none)) ∧
         (s.phase (cmdPart v) = .closed → bad → exec (.pageUnmark b v0) s = .next (set (3 * 2 ^ 20) none)) ∧
         (s.phase (cmdPart v) = .closed → ¬ bad → exec (.pageUnmark b v0) s = .next (set (2 ^ 31) (some v)))))) ∧
    (∀ (s : State) (v : Word64), s.mem.pageCmd = some v → (∀ n, Sparse.wf (0 : BitVec 4) (s.stack n).pages = true) →
      Completes (.pageCmdDone) s (fun t =>
        t.mem = { s.mem with pageStatus := BitVec.ofNat 32 (2 ^ 20 + cmdCount v % 2 ^ 20), pageCmd := none } ∧
        t.cells = s.cells ∧ t.steps = s.steps ∧
        (∀ k < cmdCount v, ∀ g ∈ pageGranules (cmdPage v k),
          t.attrOf g = setFld (s.attrOf g) 0 3 (if fld v 62 2 = 1 then 2 * (cmdPart v).val + 1 else 0)) ∧
        (∀ g, (∀ k < cmdCount v, g ∉ pageGranules (cmdPage v k)) → t.attrOf g = s.attrOf g))))

/-- A beat received whole moves its data to its channel and returns credits; a refused one is discarded.
XD_BEAT_RECEIVE on a trained join in use that neither pauses nor yields to self-test, control field and 128 data words
code words, REP_OP 0, reserved bits zero: a valid beat of channel c, if a credit of c is left, counts once, takes the
credit and joins c's buffer with its 128 data words, none poisoned; without a credit it does not come. An idle beat
whose wires change no bit counts nothing and moves the PRBS31 fill on. The credits a beat returns for class k raise
the opposite direction's credits, at most to 64, and as many of its buffered beats pass on to the die after those it
has not taken yet. A control field found uncorrectable discards the beat, counts in CTRL_UE and starts a chip reset.
On a join off, untrained or holding nothing changes; a beat without 128 words is no beat (illFormed). (10_die_to_die
R320, 10_die_to_die R321, 10_die_to_die R322, 10_die_to_die R323, 10_die_to_die R326, 10_die_to_die R328,
09_memory_system R298) -/
def Obligations.CrossingBeats : Prop :=
  ∀ (s : State) (j : JoinId) (d : Fin 2),
    let x := (s.xd j).dir d
    let o : Fin 2 := if d = 0 then 1 else 0
    let z := (s.xd j).dir o
    let returned := fun (ctl : Word32) (t : State) =>
      let y := (t.xd j).dir o
      (∀ c : Fin 3, fld ctl 18 2 = c.val → vget y.credits c = min (vget z.credits c + fld ctl 20 9) 64 ∧
        vget y.buffers c = (vget z.buffers c).drop (fld ctl 20 9) ∧
        vget y.passed c = vget z.passed c ++ (vget z.buffers c).take (fld ctl 20 9)) ∧
      (∀ c : Fin 3, fld ctl 18 2 ≠ c.val → vget y.credits c = vget z.credits c ∧ vget y.buffers c = vget z.buffers c) ∧
      t.faults = s.faults ∧ t.cells = s.cells ∧ (∀ k, k ≠ j → t.xd k = s.xd k)
    (∀ b : Beat, b.words.length ≠ 128 → exec (.xdBeatReceive j d b) s = .fault .illFormed) ∧
    (∀ b : Beat, b.words.length = 128 → ((s.xd j).off = true ∨ (s.xd j).trained = false ∨ s.dirHolds j d = true) →
      exec (.xdBeatReceive j d b) s = .next s) ∧
    ((s.xd j).off = false → (s.xd j).trained = true → s.dirHolds j d = false →
      (∀ (b : Beat) (ctl : Word32) (ds : List Word32), ds.length = 128 → b.words = ds.map eccCode →
        b.control = (eccCode ctl).zeroExtend 64 → fld ctl 16 2 = 0 → bit ctl 31 = true →
        ((∀ c : Fin 3, fld ctl 29 2 = c.val → 0 < vget x.credits c) →
          Completes (.xdBeatReceive j d b) s (fun t =>
            let y := (t.xd j).dir d
            y.beats = x.beats + 1 ∧ y.errCnt = x.errCnt ∧ y.windowCe = x.windowCe ∧ y.fill = x.fill ∧
            (∀ c : Fin 3, vget y.buffers c = vget x.buffers c ++
              (if fld ctl 29 2 = c.val then [ds.map (fun w => (w, false))] else [])) ∧
            (∀ c : Fin 3, vget y.credits c = vget x.credits c - (if fld ctl 29 2 = c.val then 1 else 0)) ∧
            returned ctl t)) ∧
        (∀ c : Fin 3, fld ctl 29 2 = c.val → vget x.credits c = 0 → exec (.xdBeatReceive j d b) s = .next s)) ∧
      (∀ (b : Beat) (ctl : Word32), b.words = List.replicate 128 0 → b.control = (eccCode ctl).zeroExtend 64 →
        fld ctl 16 2 = 0 → bit ctl 31 = false → Completes (.xdBeatReceive j d b) s (fun t =>
          (t.xd j).dir d = { x with fill := (fillWords j x.fill).2 } ∧ returned ctl t)) ∧
      (∀ b : Beat, b.words.length = 128 → (eccDecode (bfld b.control 0 39)).2.poisoned = true →
        Completes (.xdBeatReceive j d b) s (fun t =>
          ((t.xd j).dir d).errCnt = satAdd x.errCnt 0 16 1 ∧ ((t.xd j).dir d).beats = x.beats ∧
          ((t.xd j).dir d).buffers = x.buffers ∧ t.cells = s.cells ∧
          (s.faults.resets = [] → ∃ q ∈ t.faults.resets, q.level = .chip))))

/-- Failed wires and clocks of a crossing are declared, steered out at T, or reduce its width. XD_STEER of a wire or
clock the join has, and XD_HALF, for a direction of a join in use that has no command pending make it pending for T;
where the join is off, a command is pending or the join has no such clock, nothing changes. XD_DISABLE on a join in
use makes a disable pending for both directions at one T. T is the first multiple of 1,024 ns after now with T/1,024
modulo 8 equal to SW_T: within 8,192 ns. XD_SWITCH changes nothing before T; from T, where no declaration or force
waits, it applies the command, and the direction's beats go again from T + 24 ns: a steer sets the wire spared in its
group (79 returns it), 0x7C selects the alternate clock, 0x7D the primary, a half sets the width; a disable turns the
join off. With nothing pending nothing changes. On a join in use with nothing pending, waiting or pausing:
XD_ERROR_WINDOW between multiples of 1,024 ns, or once the window that begins has counted, changes nothing; at one it
clears the window's counts, and where no count reached FAIL_COUNT (at least 1) or those that did were declared nothing
else changes; at full width, where one wire of the window just ended did and was not, its spare free and nothing
steered in its group, the spare is committed and a steer to it awaits its switch time, a multiple of 1,024 ns at least
512 ns away. XD_CLOCK_LOSS of a primary clock in use whose alternate is good makes the switch to it pending; a bridge
has no clock wires and is unchanged. XD_FORCE_WRITE that, with every force written and switch awaited made, would
leave a die unreachable writes XD_FORCE_REJECTED and changes no join; one that keeps the state forced now stores CTL
alone. (10_die_to_die R328, 10_die_to_die R329, 10_die_to_die R330, 10_die_to_die R332, 10_die_to_die R336,
10_die_to_die R327, 10_die_to_die R331, 10_die_to_die R334, 10_die_to_die R337, 10_die_to_die Table 10-5) -/
def Obligations.CrossingRepairs : Prop :=
  (
    (∀ (s : State) (j : JoinId) (d : Fin 2) (g : BitVec 6) (w : BitVec 7) (h : Fin 2) (swt : BitVec 3),
      let T := switchTime s.time swt
      ((s.xd j).off = false → ((s.xd j).dir d).pending = none → steerOk j g w = true →
        exec (.xdSteer j d g w swt) s = .next (s.modXdDir j d (fun x => { x with pending := some (.steer g w, T) }))) ∧
      ((s.xd j).off = false → ((s.xd j).dir d).pending = none →
        exec (.xdHalf j d h swt) s = .next (s.modXdDir j d (fun x => { x with pending := some (.half h, T) }))) ∧
      (((s.xd j).off = true ∨ ((s.xd j).dir d).pending ≠ none) →
        exec (.xdSteer j d g w swt) s = .next s ∧ exec (.xdHalf j d h swt) s = .next s) ∧
      (steerOk j g w = false → exec (.xdSteer j d g w swt) s = .next s) ∧
      Completes (.xdDisable j swt) s (fun t => t = { s with xds := t.xds } ∧ (∀ k, k ≠ j → t.xd k = s.xd k) ∧
        ∀ e : Fin 2, ((t.xd j).dir e).pending = (if (s.xd j).off = true then ((s.xd j).dir e).pending
          else some (.disable, T)))) ∧
    (∀ (now : Word64) (swt : BitVec 3), now.toNat < 2 ^ 63 →
      let T := (switchTime now swt).toNat
      T % 1024 = 0 ∧ T / 1024 % 8 = swt.toNat ∧ now.toNat < T ∧ T ≤ now.toNat + 8192) ∧
    (∀ (s : State) (j : JoinId) (d : Fin 2) (op : XdOp) (T : Word64), ((s.xd j).dir d).pending = some (op, T) →
      s.time.toNat < T.toNat → exec (.xdSwitch j d) s = .next s) ∧
    (∀ (s : State) (j : JoinId) (d : Fin 2) (T : Word64), (∀ e : Fin 2, ((s.xd j).dir e).waiting = []) →
      (∀ e : Fin 2, ((s.xd j).dir e).forced = bfld (s.xd j).ctl 30 2) → T.toNat ≤ s.time.toNat →
      let x := (s.xd j).dir d
      let after := fun (f : XdDir → XdDir) => s.modXdDir j d (fun y => f { y with pending := none, resume := T + 24 })
      (∀ g w, x.pending = some (.steer g w, T) →
        (w = 0x7C → exec (.xdSwitch j d) s = .next (after (fun y => { y with altClk := setBit y.altClk g.toNat true }))) ∧
        (w = 0x7D → exec (.xdSwitch j d) s = .next (after (fun y => { y with altClk := setBit y.altClk g.toNat false }))) ∧
        (w ≠ 0x7C → w ≠ 0x7D → exec (.xdSwitch j d) s = .next (after (fun y =>
          { y with steered := Sparse.set 0x7F y.steered g.toNat (if w = 79 then 0x7F else w) })))) ∧
      (∀ k, x.pending = some (.half k, T) →
        let u := after (fun y => { y with width := if k = 0 then 1 else 2 })
        connected (u.enabledJoins j (u.xd j)) = true → exec (.xdSwitch j d) s = .next u) ∧
      (x.pending = some (.disable, T) → Completes (.xdSwitch j d) s (fun u =>
        (u.xd j).disabled = true ∧ ((u.xd j).dir d).pending = none ∧ u.cells = s.cells ∧
        (((s.xd j).dir (otherDir d)).pending = some (.disable, T) → ((u.xd j).dir (otherDir d)).pending = none) ∧
        (connected (s.enabledJoins j { s.xd j with disabled := true }) = false → s.faults.resets = [] →
          ∃ q ∈ u.faults.resets, q.level = .chip)))) ∧
    (∀ (s : State) (j : JoinId) (d : Fin 2), ((s.xd j).dir d).pending = none → (∀ e : Fin 2, ((s.xd j).dir e).waiting = []) →
      (∀ e : Fin 2, ((s.xd j).dir e).forced = bfld (s.xd j).ctl 30 2) → exec (.xdSwitch j d) s = .next s)) ∧ (
    ∀ (s : State) (j : JoinId) (d : Fin 2),
      let x := (s.xd j).dir d
      let lim := max (fld (s.xd j).ctl 0 16) 1
      let T := BitVec.ofNat 64 ((s.time.toNat + 512 + 1023) / 1024 * 1024)
      let calm := (s.xd j).off = false ∧ (∀ e : Fin 2, ((s.xd j).dir e).forced = bfld (s.xd j).ctl 30 2) ∧
        ∀ e : Fin 2, ((s.xd j).dir e).waiting = [] ∧ ((s.xd j).dir e).pending = none ∧
          ((s.xd j).dir e).resume.toNat ≤ s.time.toNat
      (s.time.toNat % 1024 ≠ 0 → exec (.xdErrorWindow j d) s = .next s) ∧
      (x.window = s.time.toNat / 1024 → exec (.xdErrorWindow j d) s = .next s) ∧
      (calm → s.time.toNat % 1024 = 0 → x.window ≠ s.time.toNat / 1024 → (∀ p ∈ x.windowCe, p.2 < lim ∨ p.1 ∈ x.told) → exec (.xdErrorWindow j d) s =
        .next (s.modXdDir j d (fun y => { y with windowCe := [], told := [] }))) ∧
      (calm → s.time.toNat % 1024 = 0 → x.window + 1 = s.time.toNat / 1024 → x.forced = 0 → x.width = 0 →
        x.told = [] → ∀ k n, x.windowCe = [(k, n)] → lim ≤ n → k / 128 < 64 → k % 128 < 79 →
        bit x.spareUsed (k / 128) = false → Sparse.get 0x7F x.steered (k / 128) = 0x7F →
        Completes (.xdErrorWindow j d) s (fun t =>
          ((t.xd j).dir d).pending = some (.steer (BitVec.ofNat 6 (k / 128)) (BitVec.ofNat 7 (k % 128)), T) ∧
          bit ((t.xd j).dir d).spareUsed (k / 128) = true ∧ ((t.xd j).dir d).windowCe = [] ∧ t.cells = s.cells ∧
          (t.xd j).dir (if d = 0 then 1 else 0) = (s.xd j).dir (if d = 0 then 1 else 0))) ∧
      (∀ g : BitVec 6, 4 ≤ j.val → g.toNat < 32 → calm → x.forced = 0 → bit x.altClk g.toNat = false →
        bit x.altBad g.toNat = false → Completes (.xdClockLoss j d g false) s (fun t =>
          ((t.xd j).dir d).pending = some (.steer g 0x7C, T) ∧ bit ((t.xd j).dir d).primBad g.toNat = true ∧
          t.cells = s.cells)) ∧
      (∀ g alt, j.val < 4 → exec (.xdClockLoss j d g alt) s = .next s) ∧
      (∀ (b : Requester) (v : Word32), isCtx b = false → s.regsUp = true →
        (bfld v 30 2 ≠ 0 → connected (s.joinsComing j { s.xd j with ctl := v }) = false →
          exec (.xdForceWrite b j v) s = .next (s.report { s.errRec 5 (sysStatus 0x2B) .event with engine := 0x07 })) ∧
        (calm → bfld v 30 2 = x.forced →
          (bfld v 30 2 = 0 ∨ connected (s.joinsComing j { s.xd j with ctl := v }) = true) →
          exec (.xdForceWrite b j v) s = .next (s.modXd j (fun y => { y with ctl := v &&& 0xC000FFFF })))))

/-- A port passes each frame on once and in order, asks for what it missed, and replays what is unacknowledged.
FRAME_RECEIVE on a port that is up and whose darkslide pair is open: a frame with a wrong CRC sets LNAK and passes
nothing on; a good one counts once, its LACK drops the acknowledged frames from the replay buffer, and it is passed to
the die's router exactly where it is no idle slot and its LSEQ follows the last accepted one, which it then becomes;
fewer than 16 LNAK in a row change no more. LINK_REPLAY with a replay asked for and hold-store room queues every
unacknowledged frame to be sent again, busy that many slots; without room the port retrains; the island of a closed
pair sends them at once. LANE_LOCK_LOSS takes an up port down, its unacknowledged frames going back to arbitration.
LANE_ERROR_WINDOW in which no unfailed lane reached its limit, or on a port down, changes nothing; a failed lane in
use is replaced by a free spare: of the incoming direction at once, of the outgoing one with 64 busy slots where the
hold store has room, else later. (11_torus_fabric R344, 11_torus_fabric R345, 11_torus_fabric R346, 11_torus_fabric
R358) -/
def Obligations.LinkLayer : Prop :=
  ∀ (s : State) (k : PortId),
    let x := s.port k
    let down := fun (t : State) =>
      bit (t.port k).status 31 = false ∧ fld (t.port k).status 29 2 = 3 ∧ (t.port k).replay = [] ∧
      (t.fab (dieOfPort k)).reentry = (s.fab (dieOfPort k)).reentry ++ x.replay ∧
      fld (t.port k).status 20 4 = (if bit x.ctl 31 then 1 else 0) ∧ t.cells = s.cells ∧ t.mem = s.mem
    (∀ f : Frame, f.payload.length ≠ 256 → exec (.frameReceive k f) s = .fault .illFormed) ∧
    (∀ f : Frame, f.payload.length = 256 → x.up = true → s.dark k = false →
      (frameCrc f ≠ bfld f.header 224 32 → x.lnakRun < 16 →
        exec (.frameReceive k f) s = .next (s.modPort k (fun y => { y with lnak := true }))) ∧
      (frameCrc f = bfld f.header 224 32 → bit f.header 31 = false → bit f.header 208 = false → x.lnakRun < 16 →
        let rest := unacked x.replay (frLack f)
        let run := if rest.length < x.replay.length then 0 else x.lnakRun
        let takes := frCls f ≠ 0 ∧ frLseq f = x.lack + 1
        (takes → exec (.frameReceive k f) s = .next ((s.modPort k (fun y => { y with
          replay := rest, lnakRun := run, rxFrames := y.rxFrames + 1, lack := frLseq f })).modFab (dieOfPort k)
            (fun z => { z with arrivals := z.arrivals ++ [(k.val, f)] }))) ∧
        (¬ takes → exec (.frameReceive k f) s = .next (s.modPort k (fun y => { y with
          replay := rest, lnakRun := run, rxFrames := y.rxFrames + 1 }))))) ∧
    (x.replayAsk = true → s.dark k = false → x.up = true →
      (s.canReserve k = true → exec (.linkReplay (.asked k)) s = .next (s.modPort k (fun y => { y with
        replayAsk := false, busy := y.replay.length, resend := y.replay, reserved := y.reserved + 128,
        replays := y.replays + BitVec.ofNat 64 y.replay.length }))) ∧
      (s.canReserve k = false → Completes (.linkReplay (.asked k)) s down)) ∧
    (x.replayAsk = true → s.dark k = true → Completes (.linkReplay (.asked k)) s (fun t =>
      (t.port k).replayAsk = false ∧ (t.port k).resend = [] ∧ (t.port k).replay = x.replay ∧
      (t.port k).replays = x.replays + BitVec.ofNat 64 x.replay.length ∧ (∀ m, m ≠ k → t.port m = s.port m))) ∧
    (x.replayAsk = false ∨ (x.up = false ∧ s.dark k = false) → exec (.linkReplay (.asked k)) s = .next s) ∧
    (x.up = false → exec (.laneLockLoss k) s = .next s) ∧
    (x.up = true → Completes (.laneLockLoss k) s down) ∧
    (∀ (out : Bool) (e : Vector (BitVec 16) 10),
      let many := fun (l : Nat) => max (fld x.ctl 0 16) 1 ≤ (vgetD 0 e l).toNat
      ((∀ l < 10, bit (x.failedOf out) l = false → ¬ many l) → exec (.laneErrorWindow k ⟨out, e⟩) s = .next s) ∧
      (x.up = false → exec (.laneErrorWindow k ⟨out, e⟩) s = .next s) ∧
      (∀ l m i, x.up = true → l < 10 → s.heldLanes k = [] → bit (x.failedOf out) l = false → many l →
        (∀ n < 10, n ≠ l → bit (x.failedOf out) n = false → ¬ many n) →
        (x.lanesOf out).idxOf? l = some i → m < 10 → m ∉ x.lanesOf out → m ≠ l → bit (x.failedOf out) m = false →
        (∀ n < m, n ∈ x.lanesOf out ∨ bit (x.failedOf out) n = true ∨ n = l) →
        Completes (.laneErrorWindow k ⟨out, e⟩) s (fun t =>
          (t.port k).failedOf out = setBit (x.failedOf out) l true ∧ (t.port k).up = true ∧
          (out = false → (t.port k).lanes = x.lanes.set i m ∧ (t.port k).busy = x.busy ∧
            (t.port k).reserved = x.reserved) ∧
          (out = true → s.canReserve k = true → (t.port k).outLanes = x.outLanes.set i m ∧
            (t.port k).busy = x.busy + 64 ∧ (t.port k).reserved = x.reserved + 128) ∧
          (out = true → s.canReserve k = false → (t.port k).lateLanes = x.lateLanes ++ [l] ∧
            (t.port k).outLanes = x.outLanes))))

/-- A port trains stage by stage and becomes ACTIVE only with the partner its position asks for. PORT_TRAIN_STAGE
leaves STAGE 0 for 1 only with the port enabled and NODE_ID set, 1 for 2 with the stored parameters where there are
any, and 2 for 3 with lanes 0 to 7 in use both ways where none is bad. At 3 a partner neither one nor two steps away
on the mate port, or of no known generation, sends the port back to 0 with its record; the neighbour goes on to 4 with
PEER written, the IDENTs of both kept and a fresh challenge. At 4 a required authentication waits while the management
core does not run; one whose answer does not prove an identity that chains to a trust anchor sends it back, else on to
5, the partner's challenge answered. WIDTH and GEN read down until at 5 the link layer restarts with LSEQ and LACK
0xFF (on a closed pair, DARK set, the island's) and the port is ACTIVE at STAGE 6 with the width chosen. An ACTIVE
port stays as it is. (11_torus_fabric R342, 11_torus_fabric R372, 11_torus_fabric R378, 11_torus_fabric R379,
11_torus_fabric R380, 11_torus_fabric Table 11-11) -/
def Obligations.PortTraining : Prop :=
  ∀ (s : State) (k : PortId) (q : PortPartner),
    let x := s.port k
    let st := fld x.status 20 4
    let go := fun (n : Nat) => exec (.portTrainStage k q) s = .next (s.modPort k (fun y => { y with
      status := setFld y.status 20 4 n }))
    let back := fun (code : Byte) => exec (.portTrainStage k q) s = .next ((s.modPort k (fun y => { y with
      status := setFld (setFld (setFld y.status 29 2 3) 26 3 0) 20 4 0 })).report
        { s.errRec (fabDie (dieOfPort k)) (sysStatus code) .advisory with engine := 0x08 })
    let right := q.port.toNat = (mate k).val
    let need := bit x.ctl 30 = true ∨ q.authReq = true
    (st = 0 → bit x.ctl 31 = true → bit s.route.nodeId 31 = true → go 1) ∧
    (st = 0 → (bit x.ctl 31 = false ∨ bit s.route.nodeId 31 = false) → exec (.portTrainStage k q) s = .next s) ∧
    (st = 1 → Completes (.portTrainStage k q) s (fun t => fld (t.port k).status 20 4 = 2 ∧
      (∀ p, x.params = some p → (t.port k).params = some p) ∧ (t.port k).params ≠ none ∧ t.cells = s.cells)) ∧
    (st = 2 → q.lanesBad = 0 → q.outBad = 0 → x.failedLanes = 0 → x.outFailed = 0 →
      Completes (.portTrainStage k q) s (fun t =>
        fld (t.port k).status 20 4 = 3 ∧ (t.port k).lanes = List.range 8 ∧ (t.port k).outLanes = List.range 8 ∧
        (t.port k).chosen = 0 ∧ fld (t.port k).status 29 2 = 3 ∧ t.cells = s.cells)) ∧
    (st = 3 → ¬ (right ∧ (s.partnerAt k q.node 1 = true ∨ s.partnerAt k q.node 2 = true)) → back 0x26) ∧
    (st = 3 → right → (s.partnerAt k q.node 1 = true ∨ s.partnerAt k q.node 2 = true) →
      (q.genMax = 0 ∨ 3 < q.genMax.toNat) → back 0x27) ∧
    (st = 3 → right → s.partnerAt k q.node 1 = true → q.genMax ≠ 0 → q.genMax.toNat ≤ 3 →
      Completes (.portTrainStage k q) s (fun t => fld (t.port k).status 20 4 = 4 ∧
        (t.port k).challenge = Config.nonce s.freeCtr ∧
        bit (t.port k).status 24 = false ∧ fld (t.port k).peer 16 16 = q.node.toNat ∧
        bit (t.port k).peer 32 = bit q.features 0 ∧
        (t.port k).idents = (identBytes q.node q.port.toNat q.genMax.toNat q.features, s.ownIdent k) ∧ t.cells = s.cells)) ∧
    (st = 4 → need → s.mgmt.running = false → exec (.portTrainStage k q) s = .next s) ∧
    (st = 4 → need → s.mgmt.running = true → (bit x.peer 32 = false ∨ s.peerProves k q = false) → back 0x28) ∧
    (st = 4 → (¬ need ∨ (s.mgmt.running = true ∧ bit x.peer 32 = true ∧ s.peerProves k q = true)) → Completes (.portTrainStage k q) s (fun t =>
      fld (t.port k).status 20 4 = 5 ∧ (bit (t.port k).status 26 = true ↔ need) ∧
      (need → (t.port k).answer = s.authAnswer k q) ∧ t.cells = s.cells)) ∧
    (st = 5 → Completes (.portTrainStage k q) s (fun t =>
      fld (t.port k).status 20 4 = 6 ∧ (t.port k).up = true ∧ fld (t.port k).status 29 2 = x.chosen.toNat ∧
      fld (t.port k).status 27 2 = 1 ∧ (t.port k).asym = q.asym ∧ bit (t.port k).status 25 = s.dark k ∧
      (s.dark k = false → (t.port k).lseq = 0xFF ∧ (t.port k).lack = 0xFF ∧ (t.port k).replay = []) ∧ t.cells = s.cells)) ∧
    (6 ≤ st → exec (.portTrainStage k q) s = .next s)

/-- A package takes its time from the locked up neighbour of least depth, and steps forward once. TIME_WORD on an up
port stores half of (T2 − T1) + (T3 − T4), rounded down and corrected for the lane asymmetry, as the port's offset,
the word's stamps, and the neighbour's depth (none where it is not locked). TIME_PARENT_SELECT, on a package that is
not the master, takes the up port of least depth below 128, the lower port on a tie: LOCKED, PARENT, DEPTH + 1 and
OFFSET; with none it clears LOCKED; the master changes nothing. Global time never goes back. TIME_WORD_INSERT costs an
up port one slot, which carries time words. TIME_SLEW adds or omits one nanosecond toward the parent, not within 1,000
ns of the last one, and changes nothing else but its own rate state. (11_torus_fabric R381, 11_torus_fabric R382,
11_torus_fabric R383, 11_torus_fabric Table 11-16) -/
def Obligations.TimeBase : Prop :=
  (∀ (s : State) (k : PortId) (t1 t2 t3 t4 : Word64) (dep : BitVec 7) (l : Bool),
    ((s.port k).up = false → exec (.timeWord k t1 t2 t3 t4 dep l) s = .next s) ∧
    ((s.port k).up = true → Completes (.timeWord k t1 t2 t3 t4 dep l) s (fun t =>
      (t.port k).offset = BitVec.ofInt 32
        ((((t2.toNat : Int) - t1.toNat) + ((t3.toNat : Int) - t4.toNat)) / 2) + BitVec.ofInt 32 (s.port k).asym ∧
      (t.port k).rxStamp = t4 ∧ (t.port k).rxTime = t1 ∧
      (t.port k).depthSeen = (if l then dep.zeroExtend 8 else 0xFF) ∧ (∀ m, m ≠ k → t.port m = s.port m) ∧
      (s.time.toNat < 2 ^ 63 → s.time.toNat ≤ t.time.toNat) ∧ t.cells = s.cells ∧ t.mem = s.mem)) ∧
    ((s.port k).up = true → exec (.timeWordInsert k) s = .next (s.modPort k (fun x =>
      { x.sendIdle (s.fab (dieOfPort k)).starve (s.timeWords k) with busy := x.busy + 1 }))) ∧
    ((s.port k).up = false → exec (.timeWordInsert k) s = .next s)) ∧
  (∀ s : State,
    let ok := fun (k : PortId) => (s.port k).up = true ∧ (s.port k).depthSeen.toNat < 128
    (s.route.master = true → exec (.timeParentSelect) s = .next s) ∧
    (s.route.master = false → (∀ k, ¬ ok k) → exec (.timeParentSelect) s =
      .next { s with route := { s.route with timeStatus := setBit s.route.timeStatus 43 false } }) ∧
    (∀ k, s.route.master = false → ok k → (∀ m, ok m → (s.port k).depthSeen.toNat ≤ (s.port m).depthSeen.toNat) →
      (∀ m, m < k → ok m → (s.port k).depthSeen ≠ (s.port m).depthSeen) →
      Completes (.timeParentSelect) s (fun t =>
        t = { s with route := { s.route with timeStatus := t.route.timeStatus } } ∧
        bit t.route.timeStatus 43 = true ∧ fld t.route.timeStatus 44 4 = k.val ∧
        fld t.route.timeStatus 36 7 = ((s.port k).depthSeen.toNat + 1) % 128 ∧
        fld t.route.timeStatus 48 16 = fld (s.port k).peer 16 16 ∧
        bfld t.route.timeStatus 0 32 = (s.port k).offset))) ∧
  (∀ s : State,
    let off := (bfld s.route.timeStatus 0 32).toInt
    let soon := ∃ t, s.route.slewAt = some t ∧ s.time.toNat < t.toNat + 1000
    ((bit s.route.timeStatus 43 = false ∨ s.route.master = true ∨ off = 0 ∨ soon) → exec (.timeSlew) s = .next s) ∧
    (bit s.route.timeStatus 43 = true → s.route.master = false → ¬ soon →
      (0 < off → Completes (.timeSlew) s (fun t => t.time = s.time + 1 ∧ vget t.copies 5 = t.time ∧
        t = { s with time := t.time, copies := t.copies, route := { s.route with slewAt := some s.time } })) ∧
      (off < 0 → exec (.timeSlew) s = .next { s with
        route := { s.route with slewAt := some s.time, omitTick := true } })))

/-- A router delivers, crosses, forwards, deflects, holds or discards the frame a slot brings, and injects into what
is left. ROUTER_SLOT of a die with one arrival, nothing held, re-entered or to inject and no lane replacement awaited:
a frame of AGE_MAX or more is discarded and counts in EXPIRED; one for this node whose die it reaches goes to its
consumer, its management queue or its stream, or crosses to the die that serves its endpoint; one of a RETIRED slot is
discarded and counts in STALE; any other leaves by the free productive port that sent least, lowest index on a tie;
with no productive port, way over the other die or misrouting allowed it is deflected to the free port or cross output
that sent least with its deflection count raised, or, with none free, held. An injection leaves by a free productive
port (a ring's frame by one of its direction where one is) only when nothing is held, nothing arrives, the die is not
in hold-off and a routing slot is ACTIVE. FRAME_INJECT stamps the oldest frame that may enter: EPOCH, AGE_T, the
stream's next SEQ, SOS once, the translated destination; it takes one source slot and one credit of the grant now in
force. STARVE_HOLDOFF_END ends hold-off. (11_torus_fabric R348, 11_torus_fabric R353, 11_torus_fabric R355,
11_torus_fabric R357, 11_torus_fabric R358, 11_torus_fabric R359, 11_torus_fabric R360, 11_torus_fabric R361,
11_torus_fabric R364, 11_torus_fabric R369, 11_torus_fabric R370) -/
def Obligations.RouterSlots : Prop :=
  (∀ (s : State) (d : FabId) (k : Nat) (f : Frame),
    let x := s.fab d
    let free := (portsOf d).filter (s.outFree d ·)
    let good := (s.productivePorts d (s.rslot (frEpoch f)) (frDst f)).filter (free.contains ·)
    let outs := free.map Out.port ++ s.crossOutputs d
    let least := fun (l : List Out) (o : Out) => o ∈ l ∧
      ∀ m ∈ l, x.sentOn o < x.sentOn m ∨ (x.sentOn o = x.sentOn m ∧ o.num ≤ m.num)
    let crosses := fun (t : State) (r : Fin 2) (g : Frame) => (t.fab (otherFab d)).arrivals =
      (s.fab (otherFab d)).arrivals ++ [((Out.cross r).num, g)] ∧ ∀ m, (t.port m).replay = (s.port m).replay
    let leaves := fun (t : State) (p : PortId) (g : Frame) => (t.port p).replay = (s.port p).replay ++ [(s.port p).stamp false ((s.port p).lseq + 1) g] ∧
      (t.port p).lseq = (s.port p).lseq + 1 ∧ ∀ m, m ≠ p → (t.port m).replay = (s.port m).replay
    let goes := fun (P : State → Prop) => Completes (.routerSlot d) s (fun t =>
      (t.fab d).arrivals = [] ∧ (t.fab d).inject = [] ∧ (t.fab d).reentry = [] ∧ t.cells = s.cells ∧ t.mem = s.mem ∧
      t.steps = s.steps ∧ t.stackSet = s.stackSet ∧ P t)
    k < 14 → s.beatsTaken → (∀ m, (s.port m).lateLanes = []) → x.arrivals = [(k, f)] → x.hold = [] → x.reentry = [] → x.inject = [] →
    (s.route.ageMax ≤ s.age f → goes (fun t => (t.fab d).expired = x.expired + 1 ∧ (t.fab d).delivered = x.delivered ∧
      ∀ m, (t.port m).replay = (s.port m).replay)) ∧
    (s.age f < s.route.ageMax →
      (frDst f = s.nodeId → serves d (frDep f) = true → s.delivers d f = true →
        (frStatus f = 1 → goes (fun t => (t.fab d).delivered = x.delivered ++ [f])) ∧
        (frStatus f ≠ 1 → frCls f = 5 → goes (fun t => t.mgmt.mntIn = s.mgmt.mntIn ++ [f])) ∧
        (frStatus f ≠ 1 → frCls f ≠ 5 → frCls f ≠ 2 → x.streams.any (·.of f) = false →
          goes (fun t => ∃ y, (t.fab d).streams = x.streams ++ [y] ∧ y.of f = true ∧ y.held = [f] ∧ y.unreported = 0 ∧
            y.expected = (if frSos f then some (frSeq f) else none)))) ∧
      (frDst f = s.nodeId → serves d (frDep f) = false → s.crossOutputs d ≠ [] → goes (fun t => ∃ r, crosses t r f)) ∧
      (frDst f ≠ s.nodeId → (s.rslot (frEpoch f)).state = .retired → goes (fun t =>
        (t.fab d).stale = x.stale + 1 ∧ ∀ m, (t.port m).replay = (s.port m).replay)) ∧
      (frDst f ≠ s.nodeId → (s.rslot (frEpoch f)).state ≠ .retired →
        (∀ p, least (good.map Out.port) (.port p) → goes (fun t => leaves t p f ∧ (t.fab d).hold = [])) ∧
        (good = [] → (s.crossOutputs d = [] ∨ s.productivePorts (otherFab d) (s.rslot (frEpoch f)) (frDst f) = []) → (bit (s.rslot (frEpoch f)).cfg 31 = false ∨ bit f.header 9 = true) →
          (∀ p, least outs (.port p) → goes (fun t => leaves t p ⟨satAdd f.header 120 8 1, f.payload⟩ ∧
            (t.fab d).deflect = x.deflect + 1)) ∧
          (∀ r, least outs (.cross r) → goes (fun t => crosses t r ⟨satAdd f.header 120 8 1, f.payload⟩ ∧
            (t.fab d).deflect = x.deflect + 1)) ∧
          (outs = [] → goes (fun t => (t.fab d).hold = [f] ∧ (t.fab d).holdIn = x.holdIn + 1)))))) ∧
  (∀ (s : State) (d : FabId) (f : Frame),
    let x := s.fab d
    let good := (s.productivePorts d (s.rslot (frEpoch f)) (frDst f)).filter (((portsOf d).filter (s.outFree d ·)).contains ·)
    let fit := fun (p : PortId) => ∀ w, x.wayOf f = some w → facing p = w
    x.arrivals = [] → x.reentry = [] → x.inject = [f] →
    ((x.hold ≠ [] ∨ x.holdoff = true ∨ s.route.active = none) → Completes (.routerSlot d) s (fun t =>
      (t.fab d).inject = [f] ∧ t.cells = s.cells)) ∧
    (x.hold = [] → (∀ m, (s.port m).lateLanes = []) → x.holdoff = false → s.route.active ≠ none → (∃ p ∈ good, fit p) → Completes (.routerSlot d) s (fun t =>
      (t.fab d).inject = [] ∧ t.cells = s.cells ∧ ∃ p ∈ good, fit p ∧ (t.port p).replay = (s.port p).replay ++
        [(s.port p).stamp (decide (s.route.injWait ≤ s.age f)) ((s.port p).lseq + 1) f] ∧ ∀ m, m ≠ p → (t.port m).replay = (s.port m).replay))) ∧
  (∀ (s : State) (d : FabId) (o : OutFrame) (rest : List OutFrame) (i : Fin 2),
    let x := s.fab d
    let key := fun (f : Frame) => streamKey f
    let held := frCls o.frame = 1 ∨ frCls o.frame = 3 ∨ frCls o.frame = 4
    s.route.active = some i → x.outbox = o :: rest → s.injectable d o = true → Sparse.wf 0 x.grantTx = true → s.beatsTaken →
    (∀ n, s.destination d o = some n → Completes (.frameInject d) s (fun t => ∃ f,
      (t.fab (s.injectDie d f)).inject = (s.fab (s.injectDie d f)).inject ++ [f] ∧ (t.fab d).outbox = rest ∧
      frDst f = n ∧ frEpoch f = i.val ∧ fld f.header 96 24 = fld (s.timeOn (fabDie d)) 4 24 ∧ f.payload = o.frame.payload ∧
      frCls f = frCls o.frame ∧ frDep f = frDep o.frame ∧ frSep f = frSep o.frame ∧
      (¬ (frCls o.frame = 2 ∧ frKind o.frame = 1) → frSeq f = Sparse.get 0 x.seqNext (key f) ∧
        frSos f = !(Sparse.get false x.sosDone (key f))) ∧
      (held → (t.fab d).slots = x.slots ++ [⟨f, o.use, s.grantOf d o, false⟩] ∧
        ∀ g, s.grantOf d o = some g → 0 < fld (Sparse.get 0 x.grantTx g.val) 0 16 →
          fld (Sparse.get 0 (t.fab d).grantTx g.val) 0 16 = fld (Sparse.get 0 x.grantTx g.val) 0 16 - 1) ∧
      (¬ held → (t.fab d).slots = x.slots ∧ (t.fab d).grantTx = x.grantTx) ∧
      t.cells = s.cells ∧ t.mem = s.mem ∧ t.ports = s.ports))) ∧
  (∀ (s : State) (d : FabId), (s.route.active = none ∨ (s.fab d).outbox = []) → exec (.frameInject d) s = .next s) ∧
  (∀ (s : State) (d : FabId), exec (.starveHoldoffEnd d) s = .next (s.modFab d (fun x => { x with holdoff := false })))

/-- A stream reaches its consumer in SEQ order; credits and returned or overdue frames free their source slots.
STREAM_DELIVER hands a stream's consumer the held frames from the expected SEQ on, consecutive, each once, and stops
at the first missing one. ROB_GAP makes the earliest held SEQ the expected one, counts once and delivers nothing; a
stream that uses credits reports what its consumer took, then LOST up to the frame before. CREDIT_FLUSH reports what
was taken in one RSP CREDIT frame to the stream's source. RSP_CREDIT releases the PUT slot its entry covers and
returns its grant's credit; for a REQ it returns the credit and keeps the slot until the RSP. DEAD_END_RETURN and
SOURCE_SLOT_TIMEOUT release the slot, return a credit not yet returned and start the stream again with SOS; a transfer
that owns it completes DEAD_END or POISON. With nothing to act on, nothing changes. (11_torus_fabric R352,
11_torus_fabric R353, 11_torus_fabric R354, 11_torus_fabric R364, 11_torus_fabric R365, 11_torus_fabric R374,
11_torus_fabric Table 11-5, 07_instruction_reference Table 7-9) -/
def Obligations.StreamsAndCredits : Prop :=
  (∀ (s : State) (d : FabId) (i : Nat) (x : Stream) (e : Word32), (s.fab d).streams[i]? = some x → x.expected = some e →
    Completes (.streamDeliver d i) s (fun t => ∃ (l : List Frame) (y : Stream),
      (t.fab d).delivered = (s.fab d).delivered ++ l ∧ (t.fab d).streams = (s.fab d).streams.set i y ∧
      (∀ n f, l[n]? = some f → frSeq f = e + BitVec.ofNat 32 n ∧ f ∈ x.held) ∧
      y.expected = some (e + BitVec.ofNat 32 l.length) ∧ x.held.Perm (l ++ y.held) ∧
      (∀ f ∈ y.held, frSeq f ≠ e + BitVec.ofNat 32 l.length) ∧ t.cells = s.cells ∧ t.mem = s.mem)) ∧
  (∀ (s : State) (d : FabId) (i : Nat) (x : Stream) (q : Word32), (s.fab d).streams[i]? = some x → x.earliest = some q →
    x.expected ≠ some q → Completes (.robGap d i) s (fun t => ∃ (y : Stream) (l : List Credit),
      (t.fab d).streams = (s.fab d).streams.set i y ∧ (t.fab d).credits = (s.fab d).credits ++ l ∧
      y.expected = some q ∧ y.held = x.held ∧ (t.fab d).gap = (s.fab d).gap + 1 ∧
      (t.fab d).delivered = (s.fab d).delivered ∧ t.cells = s.cells ∧ t.mem = s.mem ∧
      (usesCredits x.cls.toNat = false → l = []) ∧
      (usesCredits x.cls.toNat = true → ∃ c, l.getLast? = some c ∧ c.dst = x.src ∧ c.dep = x.sep ∧
        fld c.entry 48 4 = 6 ∧ bfld c.entry 0 32 = q - 1 ∧ l.length = (if x.unreported = 0 then 1 else 2)))) ∧
  (∀ (s : State) (d : FabId) (x : Stream), (s.fab d).streams = [x] → (s.fab d).credits = [] → usesCredits x.cls.toNat = true →
    0 < x.unreported → Completes (.creditFlush d) s (fun t => ∃ o : OutFrame,
      (t.fab d).outbox = (s.fab d).outbox ++ [o] ∧ (t.fab d).credits = [] ∧
      (t.fab d).streams = [{ x with unreported := 0, status := 0 }] ∧
      frCls o.frame = 2 ∧ frKind o.frame = 1 ∧ frDst o.frame = x.src ∧ frDep o.frame = x.sep ∧
      (let w := BitVec.ofNat 64 (field o.frame.payload 0 8)
       bfld w 0 32 = x.lastTaken ∧ bfld w 32 4 = x.chan ∧ bfld w 36 4 = x.cls ∧ bfld w 40 3 = x.dep ∧
       bfld w 48 4 = x.status) ∧ t.cells = s.cells)) ∧
  (∀ (s : State) (d : FabId) (f : Frame) (rest : List Frame) (z : SrcSlot) (g : Fin 4096),
    let w := BitVec.ofNat 64 (field f.payload 0 8)
    let v := Sparse.get 0 (s.fab d).grantTx g.val
    (s.fab d).delivered = f :: rest → frCls f = 2 → frKind f = 1 → frLen f = 16 → field f.payload 8 8 = 0 →
    Sparse.wf 0 (s.fab d).grantTx = true → (s.fab d).slots = [z] → z.grant = some g → z.waitRsp = false → z.use = .none →
    fld w 36 4 = frCls z.frame → bfld w 32 4 = frChan z.frame → frSrc f = frDst z.frame → bfld w 40 3 = frDep z.frame →
    frDep f = frSep z.frame → notLater (frSeq z.frame) (bfld w 0 32) = true → fld v 0 16 < 65535 → bfld w 48 4 = (0 : BitVec 4) →
    Completes (.rspCredit d) s (fun t => (t.fab d).delivered = rest ∧ t.cells = s.cells ∧
      fld (Sparse.get 0 (t.fab d).grantTx g.val) 0 16 = fld v 0 16 + 1 ∧
      (frCls z.frame = 3 → (t.fab d).slots = []) ∧ (frCls z.frame = 1 → (t.fab d).slots = [{ z with waitRsp := true }]))) ∧
  (∀ (s : State) (d e : FabId) (i : Nat) (f : Frame) (z : SrcSlot),
    (∀ u, Sparse.wf 0 (s.fab u).grantTx = true ∧ Sparse.wf false (s.fab u).sosDone = true) →
    let freed := fun (t : State) (u : FabId) => (t.fab u).slots = (s.fab u).slots.erase z ∧
      Sparse.get false (t.fab u).sosDone (streamKey z.frame) = false ∧
      (z.use = .none → t.cells = s.cells ∧ t.mem = s.mem) ∧
      ∀ g, z.grant = some g → fld (Sparse.get 0 (s.fab u).grantTx g.val) 0 16 < 65535 →
        fld (Sparse.get 0 (t.fab u).grantTx g.val) 0 16 =
          fld (Sparse.get 0 (s.fab u).grantTx g.val) 0 16 + (if z.waitRsp then 0 else 1)
    let fails := fun (t : State) (code : Byte) => ∀ c j k n r, z.use = .mover c j k n → s.xfer c j = some r → r.status = 0 →
      (t.xfer c j).map (·.status) = some code
    ((∀ p n, z.use ≠ .twin p n ∧ z.use ≠ .sheet p n) → (∀ p a, z.use ≠ .restore p a) → (∀ n w, z.use ≠ .coll n w) →
      ((s.fab d).delivered.head? = some f → frStatus f = 1 → frCls f ≠ 5 →
        (s.modFab d (fun x => { x with delivered := x.delivered.erase f })).slotOf f = some (e, z) →
        Completes (.deadEndReturn d) s (fun t => freed t e ∧ fails t 0x09 ∧
          (t.fab d).delivered = (s.fab d).delivered.tail)) ∧
      ((s.fab d).slots[i]? = some z → Completes (.sourceSlotTimeout d i) s (fun t => freed t d ∧ fails t 0x0A))) ∧
    ((s.fab d).delivered.head? = some f → frStatus f = 1 → frCls f = 5 → Completes (.deadEndReturn d) s (fun t =>
      (t.fab d).delivered = (s.fab d).delivered.tail ∧ t.mgmt.pool = s.mgmt.pool.filter (· != frSrc f) ∧
      Sparse.get false (t.fab (fabOf (frSep f))).sosDone
        (streamKey ⟨setFld f.header 48 16 (frSrc f).toNat, f.payload⟩) = false ∧ t.cells = s.cells ∧ t.mem = s.mem)) ∧
    ((s.fab d).slots[i]? = none → exec (.sourceSlotTimeout d i) s = .next s) ∧
    ((s.fab d).delivered = [] → exec (.deadEndReturn d) s = .next s ∧ exec (.rspCredit d) s = .next s) ∧
    ((s.fab d).streams[i]? = none → exec (.streamDeliver d i) s = .next s ∧ exec (.robGap d i) s = .next s))

/-- Reads and writes from the torus act on the addressed memory of their partition, and reads are answered. Where
nothing holds bursts and crossings back, REQ_READ takes the oldest delivered READ and sends one RSP DATA to its source
with its tag, KIND DATA and its bytes: STATUS OK; POISONED where a word of them is poisoned; SLOT_BOUNDS where a cell
window range is not of the partition's slots; UNMAPPED where stacked memory is not the partition's. No byte of memory
changes. PUT_WRITE stores the bytes at the address in the partition's cell window, and nothing outside it; outside the
partition no memory changes; refused in stacked memory it changes none and leaves a record. RSP_DATA releases the slot
of the REQ its tag names; the bytes reach a transfer's cell store or a sheet's buffer. MNT_MREQ is answered by an
MRSP; MNT_MRSP frees its entry; MNT_MPOST is taken. With no such frame nothing changes.
(08_latches_contexts_partitions R269, 11_torus_fabric R351, 11_torus_fabric R352, 11_torus_fabric R364,
11_torus_fabric R365, 11_torus_fabric R366, 13_activations_and_snapshots R434, 11_torus_fabric Table 11-3,
11_torus_fabric Table 11-4) -/
def Obligations.TorusRequests : Prop :=
  (∀ (s : State) (d : FabId) (f : Frame) (rest : List Frame),
    let a := frAddr f
    let n := frLen f
    let p := frPart f
    let reply := fun (st : BitVec 4) (bs : Option (List Byte)) => Completes (.reqRead d) s (fun t =>
      (t.fab d).delivered = rest ∧ t.cells = s.cells ∧ t.mem.dram.bytes = s.mem.dram.bytes ∧ ∃ g : Frame,
      (t.fab d).outbox = (s.fab d).outbox ++ [⟨g, .none, none, none⟩] ∧ frCls g = 2 ∧ frKind g = 0 ∧ frStatus g = st ∧
      frDst g = frSrc f ∧ frTag g = frTag f ∧ frDep g = frSep f ∧ frLen g = n ∧ ∀ b, bs = some b → frData g = b)
    (s.fab d).delivered = f :: rest → frCls f = 1 → frKind f = 0 → s.unhindered → s.beatsTaken →
    (windowBase ≤ a →
      (s.remoteCell p a n = none → reply 3 none) ∧
      (∀ c o, s.remoteCell p a n = some (c, o) → reply (if (s.cell c).store.anyPoison o n then 5 else 0)
        (some ((s.cell c).store.read o n)))) ∧
    (a < windowBase →
      (s.reaches p a n = false → reply 2 none) ∧
      (s.reaches p a n = true → reply (if (s.dramBytes a n).2 = [] then 0 else 5) (some (s.dramBytes a n).1)))) ∧
  (∀ (s : State) (d : FabId) (f : Frame) (rest : List Frame),
    let a := frAddr f
    let p := frPart f
    (s.fab d).delivered = f :: rest → frCls f = 3 → frKind f = 0 → s.unhindered → s.beatsTaken →
    (∀ c o, windowBase ≤ a → s.remoteCell p a (frData f).length = some (c, o) → Completes (.putWrite d) s (fun t =>
      (t.fab d).delivered = rest ∧ (t.cell c).store = (s.cell c).store.write o (frData f) ∧
      (∀ e, e ≠ c → t.cell e = s.cell e) ∧ t.mem.dram = s.mem.dram)) ∧
    ((windowBase ≤ a ∧ s.remoteCell p a (frData f).length = none ∨
        a < windowBase ∧ s.inRanges p a (frData f).length = false) →
      Completes (.putWrite d) s (fun t => (t.fab d).delivered = rest ∧ t.cells = s.cells ∧ t.mem.dram = s.mem.dram)) ∧
    (∀ ad, a < windowBase → s.inRanges p a (frData f).length = true →
      s.checkWrite (if s.fromTwin p f then .twin p else .other) a (frData f).length = (.refused, ad) →
      ∃ u : ErrRec, u.status = tblStatus 0x04 0x08 ∧ u.addr = BitVec.ofNat 64 ad ∧ Completes (.putWrite d) s (fun t =>
        (t.fab d).delivered = rest ∧ t.cells = s.cells ∧ t.mem.dram = s.mem.dram ∧ t.faults = (s.report u).faults))) ∧
  (∀ (s : State) (d : FabId) (f : Frame) (rest : List Frame) (z : SrcSlot),
    let x := s.fab d
    x.delivered = f :: rest → frCls f = 2 → frKind f = 0 → s.crosses → s.beatsTaken → x.slots = [z] → frCls z.frame = 1 → frTag z.frame = frTag f →
    frDst z.frame = frSrc f → frStatus f = 0 →
    let freed := fun (P : State → Prop) => Completes (.rspData d) s (fun t => (t.fab d).delivered = rest ∧
      (t.fab d).slots = [] ∧ (t.fab d).rspUsed = x.rspUsed - 1 ∧ t.mem = s.mem ∧ P t)
    (z.use = .none → freed (fun t => t.cells = s.cells)) ∧
    (∀ p off, z.use = .sheet p off → (s.sheet p).asked = true → freed (fun t =>
      (t.sheet p).buffer = (s.sheet p).buffer ++ [(off, slice f.payload 0 256, false)] ∧ t.cells = s.cells)) ∧
    (∀ c i k n r nd a u o, z.use = .mover c i k n → s.xfer c i = some r → r.status = 0 →
      r.ins.sides s c k = (.remote nd a, .store u o) → r.ins.part s c k n = [(k, n)] → freed (fun t =>
        (t.cell u).store = (s.cell u).store.write o (slice f.payload (a % 16) n) ∧
        ∀ e, e ≠ u → (t.cell e).store = (s.cell e).store))) ∧
  (∀ (s : State) (f : Frame) (rest : List Frame), s.mgmt.mntIn = f :: rest →
    (frKind f = 0 → Completes (.mntMreq) s (fun t => t.mgmt.mntIn = rest ∧ t.cells = s.cells ∧ t.mem = s.mem ∧
      ∃ g : Frame, (t.fab 1).outbox = (s.fab 1).outbox ++ [⟨g, .none, none, none⟩] ∧ frCls g = 5 ∧ frKind g = 1 ∧
      frDst g = frSrc f ∧ frDep g = frSep f ∧ frTag g = frTag f)) ∧
    (frKind f = 1 → exec (.mntMrsp) s = .next { s with mgmt := { s.mgmt with
      mntIn := rest, pool := s.mgmt.pool.filter (· != frSrc f) } }) ∧
    (frKind f = 2 → exec (.mntMpost) s = .next { s with mgmt := { s.mgmt with mntIn := rest } })) ∧
  (∀ (s : State) (d : FabId),
    ((s.fab d).delivered = [] → exec (.reqRead d) s = .next s ∧ exec (.putWrite d) s = .next s ∧
      exec (.rspData d) s = .next s) ∧
    (s.mgmt.mntIn = [] → exec (.mntMreq) s = .next s ∧ exec (.mntMrsp) s = .next s ∧ exec (.mntMpost) s = .next s))

/-- Routing slots, grants and fabric registers take the writes their states allow; the darkslide bridges a package
whose core is out. From outside, the core reachable: CFG and MAP of a routing slot are taken only while it is RETIRED;
SEAL makes a RETIRED slot with no write under way VALID, RETIRE a DRAINED one RETIRED; APPLY, the governing partition
CLOSED, makes the one VALID slot ACTIVE, the ACTIVE one DRAINING, and counts an epoch, else it is held for the
boundary; the drain timer makes a DRAINING slot DRAINED; each refusal writes ROUTE_REJECTED or its record. A TX grant
written VALID starts with its credits; one in use may not be made invalid. AGE_CFG, NODE_ID and TIME_CTL are taken
only while every port is down. The darkslide closes while AUX is present and its core is out: every pair, link states
afresh (a partner's port sends again from LSEQ 0); forwards a frame to the mate port (one with 128 unacknowledged
keeps it waiting; 16 LNAK retrain), turns back one for this node with DEAD_END, or drops it; a pair opens once its
ports have trained. A failed bypass drives the request pin low; a pass drives it high. A register-ring join that fails
is disabled, and a write or read in flight on it is reissued. (01_package_architecture R25, 11_torus_fabric R362,
11_torus_fabric R363, 11_torus_fabric R369, 11_torus_fabric R372, 11_torus_fabric R373, 11_torus_fabric R374,
11_torus_fabric R375, 11_torus_fabric R377, 11_torus_fabric R389, 20_electrical_and_mechanical R605, 11_torus_fabric
Table 11-8) -/
def Obligations.FabricConfiguration : Prop :=
  (∀ (s : State) (b : Requester) (i : Fin 2), isCtx b = false → s.regsUp = true →
    let x := vget s.route.slots i
    let named := { s with route := { s.route with routeCtl := setBit s.route.routeCtl 28 (decide (i = 1)) } }
    let rejected := fun (u : State) => u.report { u.errRec 5 (sysStatus 0x25) .event with engine := 0x10 }
    let slot := fun (u : State) (y : RouteSlot) => { u with route := { u.route with slots := vset u.route.slots i y } }
    (∀ t v whole, x.state ≠ .retired → exec (.routeSlotWrite b i t ⟨v, whole⟩) s = .next (rejected s)) ∧
    (∀ v : Word64, x.state = .retired → exec (.routeSlotWrite b i .cfg ⟨v, true⟩) s =
      .next (slot s { x with cfg := v &&& 0x8FFFFF7F, begun := x.begun.erase (.cfg, v) })) ∧
    (∀ j v, x.state = .retired → exec (.routeSlotWrite b i (.map j) ⟨v, true⟩) s = .next (slot s { x with
      map := Sparse.set 0 x.map j.val (bfld v 0 32 &&& 0x8000FFFF), begun := x.begun.erase (.map j, v) })) ∧
    (∀ t v, x.state = .retired → exec (.routeSlotWrite b i t ⟨v, false⟩) s =
      .next (slot s { x with begun := x.begun ++ [(t, v)] })) ∧
    (x.state = .retired → x.begun = [] → exec (.routeSeal b i) s = .next (slot named { x with state := .valid })) ∧
    ((x.state ≠ .retired ∨ x.begun ≠ []) → exec (.routeSeal b i) s = .next (rejected named)) ∧
    (x.state = .drained → exec (.routeRetire b i) s = .next (slot named { x with state := .retired })) ∧
    (x.state ≠ .drained → exec (.routeRetire b i) s = .next (rejected named)) ∧
    (s.phase s.route.part ≠ .closed → exec (.routeApply b i) s =
      .next { named with route := { named.route with applyHeld := true } }) ∧
    (s.phase s.route.part = .closed → x.state = .valid → (∀ j, j ≠ i → (vget s.route.slots j).state ≠ .valid) →
      Completes (.routeApply b i) s (fun t => t = { s with route := t.route } ∧ (vget t.route.slots i).state = .active ∧
        t.route.epoch = s.route.epoch + 1 ∧ t.route.applyHeld = false ∧
        ∀ j, j ≠ i → vget t.route.slots j = (if (vget s.route.slots j).state = .active then
          { vget s.route.slots j with state := .draining } else vget s.route.slots j))) ∧
    ((∀ j, (vget s.route.slots j).state ≠ .valid) → s.phase s.route.part = .closed → Completes (.routeApply b i) s (fun t =>
      t.route.slots = s.route.slots ∧ t.route.epoch = s.route.epoch ∧ t.cells = s.cells)) ∧
    (x.state = .draining → exec (.routeDrainTimer i) s = .next (slot s { x with state := .drained })) ∧
    (x.state ≠ .draining → exec (.routeDrainTimer i) s = .next s)) ∧
  (∀ (s : State) (b : Requester) (d : FabId) (i : Fin 4096) (v : Word64), isCtx b = false → s.regsUp = true →
    Sparse.wf 0 (s.fab d).grantTx = true →
    let w := Sparse.get 0 (s.fab d).grantTx i.val
    let u := Sparse.get 0 (s.fab d).grantRx i.val
    (bit w 63 = false → bit v 63 = true → Completes (.grantWrite b d true i v) s (fun t =>
      bfld (Sparse.get 0 (t.fab d).grantTx i.val) 22 42 = (bfld v 22 42 : BitVec 42) ∧
      fld (Sparse.get 0 (t.fab d).grantTx i.val) 0 16 = fld v 22 16 ∧
      (∀ j, j ≠ i.val → Sparse.get 0 (t.fab d).grantTx j = Sparse.get 0 (s.fab d).grantTx j) ∧ t.cells = s.cells)) ∧
    (bit w 63 = true → bit v 63 = false → fld w 0 16 < fld w 22 16 → Completes (.grantWrite b d true i v) s (fun t =>
      t = { s with faults := t.faults })) ∧
    (bit w 63 = true → bit v 63 = false → fld w 22 16 ≤ fld w 0 16 → Completes (.grantWrite b d true i v) s (fun t =>
      Sparse.get 0 (t.fab d).grantTx i.val = setBit w 63 false ∧ t.cells = s.cells)) ∧
    (bit u 63 = false → bit v 63 = false → exec (.grantWrite b d false i v) s = .next (s.modFab d (fun x => { x with
      grantRx := Sparse.set 0 x.grantRx i.val (v &&& 0xFFFFFFFFFFFC0000) })))) ∧
  (∀ (s : State) (b : Requester) (v : Word32), isCtx b = false → s.regsUp = true →
    (s.allPortsDown = true →
      exec (.fabricCfgWrite b .ageCfg v) s = .next { s with route := { s.route with ageCfg := v &&& 0xFFFFFF00 } } ∧
      exec (.fabricCfgWrite b .nodeId v) s = .next { s with route := { s.route with nodeId := v &&& 0x8000FFFF } } ∧
      Completes (.fabricCfgWrite b .timeCtl v) s (fun t => t.route.timeCtl = v &&& 0x80000000 ∧
        bit t.route.timeStatus 43 = bit v 31 ∧ fld t.route.timeStatus 36 7 = 0 ∧
        t = { s with route := { s.route with timeCtl := t.route.timeCtl, timeStatus := t.route.timeStatus } })) ∧
    (s.allPortsDown = false → ∀ r, Completes (.fabricCfgWrite b r v) s (fun t => t = { s with faults := t.faults }))) ∧
  (∀ s : State,
    let cause := s.start.aux = true ∧ (s.faults.chipPhase.isSome = true ∨ s.start.coreOn = false ∨ s.route.active = none)
    (cause → s.route.darkClosed ≠ 0x3F → Completes .darkslideClose s (fun t => t.route.darkClosed = 0x3F ∧
      (∀ k, if s.dark k then t.port k = s.port k else
        (t.port k).replay = [] ∧ (t.port k).lseq = 0xFF ∧ (t.port k).lack = 0xFF ∧ bit (t.port k).status 25 = true) ∧
      (∀ d, (t.fab d).arrivals = [] ∧ (t.fab d).hold = [] ∧ (t.fab d).inject = [] ∧ (t.fab d).slots = (s.fab d).slots) ∧
      t.cells = s.cells ∧ t.mem = s.mem)) ∧
    ((¬ cause ∨ s.route.darkClosed = 0x3F) → exec .darkslideClose s = .next s) ∧
    (∀ k : PortId, (s.port k).up = false → exec (.linkReplay (.takeover k)) s = .next s) ∧
    (∀ k : PortId, (s.port k).up = true → ((s.port k).replay = [] ∨ s.canReserve k = true) →
      Completes (.linkReplay (.takeover k)) s (fun t => (t.port k).replay.map (·.payload) = (s.port k).replay.map (·.payload) ∧
        (∀ n g, (t.port k).replay[n]? = some g → n < 128 → frLseq g = BitVec.ofNat 8 n) ∧
        (t.port k).resend = (t.port k).replay ∧ (t.port k).lack = 0xFF ∧ t.cells = s.cells ∧
        ∀ m, m ≠ k → t.port m = s.port m)) ∧
    (∀ i : Fin 6, ¬ cause → bit s.route.darkClosed i.val = true → (∀ k ∈ pairPorts i, (s.port k).up = true) →
      Completes (.darkslideOpen i) s (fun t => bit t.route.darkClosed i.val = false ∧
        (∀ j : Fin 6, j ≠ i → bit t.route.darkClosed j.val = bit s.route.darkClosed j.val) ∧
        (∀ k ∈ pairPorts i, (t.port k).turnBack = [] ∧ (t.port k).onward = [] ∧ bit (t.port k).status 25 = false ∧
          (t.port k).replay.length = (s.port k).replay.length + min ((s.port k).onward.length + (s.port k).turnBack.length)
            (128 - (s.port k).replay.length)) ∧ t.cells = s.cells)) ∧
    (∀ i : Fin 6, (cause ∨ ∃ k ∈ pairPorts i, (s.port k).up = false) → exec (.darkslideOpen i) s = .next s) ∧
    (∀ f : Fin 2, s.start.aux = true → Completes (.bypassFail f) s (fun t => t.route.darkReq = true ∧
      t.route.reqHigh = false ∧ bit t.tray.alert 4 = true ∧ t.cells = s.cells ∧ t.ports = s.ports)) ∧
    (s.start.aux = true → exec (.bypassSelfTestPass) s =
      .next { s with route := { s.route with darkReq := false, reqHigh := true } }) ∧
    (∀ j : Fin 6,
      let off := { s with route := { s.route with ringJoins := setBit s.route.ringJoins j.val false } }
      exec (.registerRingJoinFail ⟨j, none⟩) s = .next off ∧
      ∀ w a l, regAccess w.offset.toNat = some a → s.route.ringWay (entryDie w.by_) a.entry.die = some l →
        let u := { off with mgmt := { off.mgmt with regRetries := off.mgmt.regRetries + 1 } }
        (∀ v, j ∈ l → w.op = .write v →
          exec (.registerRingJoinFail ⟨j, some w⟩) s = exec (.registerWrite w.by_ w.offset w.bytes8 v) u) ∧
        (∀ sd c i, j ∈ l → w.op = .read sd → w.by_ = .ctx c i → exec (.registerRingJoinFail ⟨j, some w⟩) s =
          .next (u.modCtx ⟨c, i⟩ (·.setS sd
            (if a.entry.rd u w.by_ && u.ringReaches w.by_ a.entry.die then a.value u.countsAtFix else 0)))) ∧
        (∀ sd, j ∈ l → w.op = .read sd → w.by_ = .host → exec (.registerRingJoinFail ⟨j, some w⟩) s =
          .next { u with host := { u.host with lastRead := some (u.hostRead .host w.offset.toNat w.bytes8) } }) ∧
        (j ∉ l → exec (.registerRingJoinFail ⟨j, some w⟩) s = .next off))) ∧
  (∀ (s : State) (k : PortId) (f : Frame),
    let r := (s.port k).receive f
    let m := s.port (mate k)
    (f.payload.length ≠ 256 → exec (.darkslideForward k f) s = .fault .illFormed) ∧
    (f.payload.length = 256 → s.dark k = false → exec (.darkslideForward k f) s = .next s) ∧
    (f.payload.length = 256 → s.dark k = true → 16 ≤ r.1.lnakRun → Completes (.darkslideForward k f) s (fun t =>
      (t.port k).lnakRun = 0 ∧ (t.port k).up = false ∧ t.cells = s.cells)) ∧
    (f.payload.length = 256 → s.dark k = true → r.1.lnakRun < 16 → ∀ g, r.2 = some g →
      (frDst g ≠ s.nodeId → 128 ≤ m.replay.length → Completes (.darkslideForward k f) s (fun t =>
        (t.port (mate k)).replay = m.replay ∧ (t.port (mate k)).onward = m.onward ++ [g] ∧ t.port k = r.1 ∧ t.cells = s.cells)) ∧
      (frDst g ≠ s.nodeId → m.onward = [] → m.replay.length < 128 → Completes (.darkslideForward k f) s (fun t =>
        (t.port (mate k)).replay = m.replay ++ [m.stamp false (m.lseq + 1) g] ∧ t.port k = r.1 ∧ t.fabs = s.fabs ∧ t.cells = s.cells)) ∧
      (frDst g = s.nodeId → notReturned g = true → m.turnBack = [] → Completes (.darkslideForward k f) s (fun t =>
        t.port k = r.1 ∧ t.route.darkCnt = satAdd s.route.darkCnt 0 32 1 ∧ t.fabs = s.fabs ∧ t.cells = s.cells)) ∧
      (frDst g = s.nodeId → notReturned g = false → r.1.turnBack.length < 32 → m.turnBack = [] →
        Completes (.darkslideForward k f) s (fun t => ∃ h, (t.port k).turnBack = r.1.turnBack ++ [h] ∧
          frSrc h = frDst g ∧ frDst h = frSrc g ∧ frStatus h = 1 ∧ h.payload = g.payload ∧
          t.route.darkCnt = satAdd s.route.darkCnt 32 32 1 ∧ t.fabs = s.fabs ∧ t.cells = s.cells))))

/-- Descriptors are armed and disarmed, arrivals start an instance, messages meet it, and it ends with a status.
COLL_ARM from outside, core reachable, arms an IDLE descriptor that is good, clashes with no other and fits both
reorder buffers (RESULT 1, instance INSTANCE0); else RESULT 5, 4, 3 or 2 and no descriptor changes. COLL_DISARM makes
an ARMED or FAILED one IDLE, else RESULT 5. TAG_OUT is cleared by its write. Where no burst is held back, an arrival
at an ARMED descriptor joins its arrivals; the last one of a barrier starts its instance, which sends ARRIVE to every
other member; an arrival at an ACTIVE descriptor waits; cl.untag clears TAG_OUT. Of frames for an engine (DEP 4 or 5,
R393): a READY or ARRIVE for an ARMED descriptor is held; at an ACTIVE one it counts once, a READY of another instance
or CRC fails the descriptor with CL_MISMATCH, and a second READY of a member is held for the next instance, or ends an
all-to-all that lacks frames of it with CL_LENGTH. A TAG frame at its last member counts, and one that differs raises
STALE_SHARD for its owner once. PROGRESS_TIMEOUT fails the descriptor with CL_TIMEOUT. COLL_INSTANCE_END ends a
complete instance: ARMED, the next instance number. (12_collectives_and_mapping R395, 12_collectives_and_mapping R398,
12_collectives_and_mapping R399, 12_collectives_and_mapping R400, 12_collectives_and_mapping R404,
12_collectives_and_mapping R412, 12_collectives_and_mapping R413, 12_collectives_and_mapping R414,
12_collectives_and_mapping R415, 12_collectives_and_mapping Table 12-1, 12_collectives_and_mapping Table 12-5) -/
def Obligations.CollectiveControl : Prop :=
  (∀ (s : State) (b : Requester) (i : Fin 4096), isCtx b = false → s.regsUp = true → Sparse.wf Colld.reset s.coll.descs = true →
    let x := s.colld i.val
    let d := x.desc
    let result := fun (n : Nat) => { s with coll := { s.coll with cmdStatus := BitVec.ofNat 32 n } }
    let clash := ∃ j ≠ i.val, (s.colld j).state ≠ .idle ∧ (s.colld j).desc.axis = d.axis ∧ j % 16 = i.val % 16
    let fits := ∀ f, withinRob ((s.reserved f).1 + d.streams f * d.credits, (s.reserved f).2 + d.streams f) = true
    (x.state ≠ .idle → exec (.collArm b i) s = .next (result 5)) ∧
    (x.state = .idle → d.good s = false → exec (.collArm b i) s = .next (result 4)) ∧
    (x.state = .idle → d.good s = true → clash → exec (.collArm b i) s = .next (result 3)) ∧
    (x.state = .idle → d.good s = true → ¬ clash → ¬ fits → Completes (.collArm b i) s (fun t =>
      t = { result 2 with faults := t.faults })) ∧
    (x.state = .idle → d.good s = true → ¬ clash → fits → Completes (.collArm b i) s (fun t =>
      t = { s with coll := t.coll } ∧ (t.colld i.val).state = .armed ∧ (t.colld i.val).inst = d.inst0 ∧
      (t.colld i.val).words = x.words ∧ (t.colld i.val).now = none ∧ t.coll.cmdStatus = 1 ∧
      ∀ j, j ≠ i.val → t.colld j = s.colld j)) ∧
    ((x.state = .idle ∨ x.state = .active) → exec (.collDisarm b i) s = .next (result 5)) ∧
    ((x.state = .armed ∨ x.state = .failed) → x.arrived = [] → x.next = [] → Completes (.collDisarm b i) s (fun t =>
      t = { s with coll := t.coll } ∧ (t.colld i.val).state = .idle ∧ (t.colld i.val).words = x.words ∧
      t.coll.cmdStatus = 1 ∧ ∀ j, j ≠ i.val → t.colld j = s.colld j)) ∧
    Completes (.colldTagOutClear b i) s (fun t => t = { s with coll := t.coll } ∧
      t.colld i.val = { x with tagOut := false } ∧ ∀ j, j ≠ i.val → t.colld j = s.colld j)) ∧
  (∀ (s : State) (e : FabId) (a : ClArrival) (rest : List ClArrival), Sparse.wf Colld.reset s.coll.descs = true →
    let q := qdescOf a.ins.qd
    let i := q.handle
    let x := s.colld i
    let d := x.desc
    vget s.coll.inbox e = a :: rest → i < 4096 → s.partOf a.cell = some d.part → s.unhindered →
    (x.state = .armed → a.ins.op ≠ 0x07 → x.arrived.length + 1 < d.arriveN →
      (∀ c ∈ x.arrived, (qdescOf c.ins.qd).addr = q.addr ∧ (qdescOf c.ins.qd).length = q.length) →
      Completes (.collArrival e) s (fun t => t = { s.admitted with coll := t.coll } ∧ vget t.coll.inbox e = rest ∧
        t.colld i = { x with arrived := x.arrived ++ [a] })) ∧
    (x.state = .armed → a.ins.op = 0x06 → d.op = 6 → d.good s = true → x.arrived = [] → x.early = [] → d.arriveN = 1 →
      (∀ k < d.n, (s.member d k).isSome = true) → Completes (.collArrival e) s (fun t =>
        t.cells = s.cells ∧ t.mem.dram = s.mem.dram ∧ vget t.coll.inbox e = rest ∧
        (t.colld i).state = .active ∧ (t.colld i).inst = x.inst ∧
        (∃ r, (t.colld i).now = some r ∧ r.arrivals = [a] ∧ r.startTime = s.time ∧ r.arrives = []) ∧
        ∃ l : List OutFrame, (t.fab 0).outbox = (s.fab 0).outbox ++ l ∧ l.length = d.n - 1 ∧ (t.fab 1).outbox = (s.fab 1).outbox ∧
          ∀ k < d.n, k ≠ d.me → ∃ o ∈ l, some (frDst o.frame) = s.member d k ∧ frCls o.frame = 4 ∧ frKind o.frame = 5 ∧
            field o.frame.payload 0 8 = x.inst.toNat)) ∧
    (x.state = .active → a.ins.op ≠ 0x07 → Completes (.collArrival e) s (fun t => t = { s.admitted with coll := t.coll } ∧
      vget t.coll.inbox e = rest ∧ t.colld i = { x with next := x.next ++ [a] })) ∧
    ((x.state = .armed ∨ x.state = .active) → a.ins.op = 0x07 → Completes (.collArrival e) s (fun t =>
      (t.colld i).tagOut = false ∧ (t.colld i).state = x.state ∧ vget t.coll.inbox e = rest ∧
      t.mem.dram = s.mem.dram))) ∧
  (∀ (s : State) (e : FabId) (f : Frame) (rest : List Frame), Sparse.wf Colld.reset s.coll.descs = true →
    let i := frAddr f % 2 ^ 24
    let x := s.colld i
    let d := x.desc
    (s.fab e).delivered = f :: rest → frCls f = 4 → 4 ≤ (frDep f).toNat → i < 4096 →
    (∀ k, s.indexOf d (frSrc f) = some k →
      (x.state = .armed →
        (frKind f = 1 → Completes (.collReady e) s (fun t => (t.fab e).delivered = rest ∧ t.cells = s.cells ∧
          t.colld i = { x with early := x.early ++ [⟨true, k, frData f⟩] })) ∧
        (frKind f = 5 → e = 0 → Completes (.collArriveRecord) s (fun t => (t.fab e).delivered = rest ∧ t.cells = s.cells ∧
          t.colld i = { x with early := x.early ++ [⟨false, k, frData f⟩] }))) ∧
      (∀ r, x.state = .active → x.now = some r →
        (frKind f = 1 → k ∉ r.readies → field f.payload 0 8 = x.inst.toNat → (d.op = 4 ∨ field f.payload 8 4 = (r.crc d).toNat) →
          Completes (.collReady e) s (fun t => t.cells = s.cells ∧ (t.colld i).state = .active ∧ ∃ r',
            (t.colld i).now = some r' ∧ r'.readies = (r.readies ++ [k]).eraseDups ∧
            r'.queued = r.queued.filter (fun q => !(r'.readies.contains q.1)))) ∧
        (frKind f = 1 → k ∉ r.readies → (field f.payload 0 8 ≠ x.inst.toNat ∨ (d.op ≠ 4 ∧ field f.payload 8 4 ≠ (r.crc d).toNat)) →
          Completes (.collReady e) s (fun t => (t.colld i).state = .failed ∧ (t.colld i).failed = 0x11 ∧
            (t.colld i).now = none)) ∧
        (frKind f = 1 → k ∈ r.readies → (d.op ≠ 4 ∨ r.lacks k = false) → Completes (.collReady e) s (fun t =>
          t.cells = s.cells ∧ t.colld i = { x with early := x.early ++ [⟨true, k, frData f⟩] })) ∧
        (frKind f = 1 → k ∈ r.readies → d.op = 4 → r.lacks k = true → Completes (.collReady e) s (fun t =>
          (t.colld i).state = .armed ∧ (t.colld i).last = 0x12 ∧ (t.colld i).now = none)) ∧
        (frKind f = 5 → e = 0 → field f.payload 0 8 = x.inst.toNat → Completes (.collArriveRecord) s (fun t =>
          t.cells = s.cells ∧ (t.colld i).now = some { r with arrives := (r.arrives ++ [k]).eraseDups })))) ∧
    (∀ r, x.now = some r → frKind f = 2 → d.n ≤ (frTag f).toNat + 1 →
      let count := field f.payload 0 8
      let bad := (bit r.fn 0 = true ∧ count ≠ r.stamp.toNat) ∨ (bit r.fn 1 = true ∧ count ≠ x.tag.toNat)
      (¬ bad → Completes (.collTagFrame e) s (fun t => t.cells = s.cells ∧
        (t.colld i).now = some { r with tags := r.tags + 1 })) ∧
      (bad → field f.payload 8 8 ∉ r.stale → Completes (.collTagFrame e) s (fun t => ∃ r', (t.colld i).now = some r' ∧
        r'.tags = r.tags + 1 ∧ r'.stale = r.stale ++ [field f.payload 8 8] ∧ (0x15, field f.payload 8 8) ∈ r'.events ∧
        t.mem = s.mem)))) ∧
  (∀ (s : State) (i : Fin 4096), Sparse.wf Colld.reset s.coll.descs = true →
    let x := s.colld i.val
    (∀ r, x.now = some r →
      Completes (.collProgressTimeout i) s (fun t => (t.colld i.val).state = .failed ∧ (t.colld i.val).failed = 0x13 ∧
        (t.colld i.val).last = 0x13 ∧ (t.colld i.val).now = none ∧ (t.colld i.val).inst = x.inst + 1 ∧ t.mem = s.mem) ∧
      (s.unhindered → s.collComplete i.val x.desc r = false → exec (.collInstanceEnd i) s = .next s.admitted) ∧
      (s.unhindered → s.collComplete i.val x.desc r = true → x.desc.op ≠ 2 → Completes (.collInstanceEnd i) s (fun t =>
        (t.colld i.val).state = .armed ∧ (t.colld i.val).inst = x.inst + 1 ∧ (t.colld i.val).now = none ∧
        (x.desc.op = 1 → bit r.fn 0 = true → (t.colld i.val).tag = r.stamp ∧ (t.colld i.val).tagOut = true) ∧
        (r.arrivals = [] → t.cells = s.cells) ∧ t.mem.dram = s.mem.dram))) ∧
    (x.now = none → exec (.collProgressTimeout i) s = .next s ∧
      (s.unhindered → exec (.collInstanceEnd i) s = .next s.admitted)))

/-- Data frames are gathered or added into the buffer; side records and X-leg records are exchanged and the tables are
built. Where no burst is held back, of frames for an engine (DEP 4 or 5): COLL_DATA_FRAME of a running gather or
broadcast writes its bytes at their place in the buffer and counts; of an F32 reduction at its last member it whose
own words read without error writes the F32 sum of received and local words; nothing outside its bytes is written.
SIDE_RECORD_SEND, the partition's stop bits handed over, sends the own side record, its STOP word the stop bits OR the
pending side word, to every other member once. A record frame completes the record of its source or joins what has
come of it. When the last X-leg record is in, the verdict is the OR of all. TABLE_BUILD_COMPLETE, the Y-leg result and
the whole flag plane there, builds the inactive version of every enabled group of the partition. R89 gives the built
word: 0xFF stays; a BLEED block counts its mordant up to 0xFE and starts again; NORMAL clears run and fade; any other
counts its run, halves at HALVE_AFTER above FLOOR, and counts fades at FLOOR. Where nothing waits nothing changes.
(03_numeric_formats R89, 12_collectives_and_mapping R401, 12_collectives_and_mapping R402, 12_collectives_and_mapping
R409, 12_collectives_and_mapping R410, 12_collectives_and_mapping R411, 12_collectives_and_mapping R416,
12_collectives_and_mapping Table 12-4) -/
def Obligations.CollectiveData : Prop :=
  (∀ (s : State) (e : FabId) (f : Frame) (rest : List Frame) (r : Instance), Sparse.wf Colld.reset s.coll.descs = true →
    let i := frAddr f % 2 ^ 24
    let k := frAddr f / 2 ^ 24
    let x := s.colld i
    let d := x.desc
    let t0 := (frTag f).toNat
    let asc := s.halfOf d r t0 k f
    let seen := if d.n = 2 then r.seen ++ [(t0, k)] else r.seen
    (s.fab e).delivered = f :: rest → frCls f = 4 → 4 ≤ (frDep f).toNat → frKind f = 0 → i < 4096 → x.now = some r → frStatus f = 0 →
    d.n ≤ t0 + 1 → s.unhindered →
    (∀ j, d.op = 1 → j = (if asc then (d.me + 2 * d.n - t0) % d.n else (d.me + t0) % d.n) →
      k < d.halfFrames (r.lenAt j) asc → 0 < (d.piece r j asc k).len →
      let a := r.base + (d.piece r j asc k).off
      let bs := slice f.payload 0 (d.piece r j asc k).len
      (s.checkWrite .other a bs.length).1 = .ok → s.reaches d.part a bs.length = true →
      Completes (.collDataFrame e) s (fun t => (t.fab e).delivered = rest ∧ t.mem.dram = (s.dramWrite .other a bs).mem.dram ∧
        t.cells = s.cells ∧ (t.colld i).now = some { r with got := r.got + 1, seen := seen })) ∧
    (∀ j, d.op = 2 → d.dtype = 2 → t0 + 1 = d.n → j = (if asc then (d.me + 2 * d.n - 1 - t0) % d.n else (d.me + 1 + t0) % d.n) →
      k < d.halfFrames (r.lenAt j) asc → 0 < (d.piece r j asc k).len → (d.piece r j asc k).len % 4 = 0 →
      let a := r.base + (d.piece r j asc k).off
      let loc := s.bufRead d.part a (d.piece r j asc k).len
      let sum := (List.range (loc.1.length / 4)).flatMap (fun w =>
        leBytes 4 (fadd (BitVec.ofNat 32 (field f.payload (4 * w) 4)) (BitVec.ofNat 32 (field loc.1 (4 * w) 4))).toNat)
      loc.2 = [] → s.dramNote none false a (d.piece r j asc k).len = s → (s.checkWrite .other a sum.length).1 = .ok → s.reaches d.part a sum.length = true →
      Completes (.collDataFrame e) s (fun t => (t.fab e).delivered = rest ∧ t.mem.dram = (s.dramWrite .other a sum).mem.dram ∧
        t.cells = s.cells ∧ (t.colld i).now = some { r with got := r.got + 1, own := r.own + 1, seen := seen }))) ∧
  (∀ (s : State) (p : PartId) (i : Nat) (r : SideRun) (w : BitVec 16), Sparse.wf Colld.reset s.coll.descs = true →
    let d := (s.colld i).desc
    s.sideOf p = some (i, r) → (s.stepOf p).stopWord = some w → s.unhindered →
    (r.sent = true → exec (.sideRecordSend p) s = .next s.admitted) ∧
    (r.sent = false → (s.colld i).records = [] → 2 ≤ d.n → (s.colld i).side = some r → Completes (.sideRecordSend p) s (fun t =>
      (t.colld i).side = some { r with sent := true } ∧ t.cells = s.cells ∧ t.mem.dram = s.mem.dram ∧ t.steps = s.steps ∧
      (∃ bs, (t.colld i).records = [(d.me, bs)] ∧ field bs 0 2 = (w ||| (bfld (s.part p).collSide 0 16 : BitVec 16)).toNat ∧
        field bs 4 4 = fld (s.stepOf d.part).index 0 32 ∧ field bs 0x18 2 = d.me % 65536) ∧
      ∃ l, (t.fab 0).outbox = (s.fab 0).outbox ++ l ∧ (t.fab 1).outbox = (s.fab 1).outbox ∧
        ∀ k < d.n, k ≠ d.me → ∃ o ∈ l, some (frDst o.frame) = some ((s.member d k).getD 0) ∧ frCls o.frame = 4 ∧
          frKind o.frame = 3))) ∧
  (∀ (s : State) (f : Frame) (rest : List Frame) (k : Nat), Sparse.wf Colld.reset s.coll.descs = true →
    let i := frAddr f % 2 ^ 24
    let x := s.colld i
    let had := (((x.parts.find? (fun e => e.1 == k)).map (·.2)).getD [])
    let tag := fld (s.stepOf x.desc.part).index 0 32
    (s.fab 0).delivered = f :: rest → frCls f = 4 → 4 ≤ (frDep f).toNat → i < 4096 → x.state ≠ .idle → x.state ≠ .failed →
    s.indexOf x.desc (frSrc f) = some k → x.records = [] → x.side = none → s.sideOf x.desc.part = none →
    (frKind f = 3 → s.unhindered → (had ++ frData f).length < 0x40 + 8 * x.desc.gCount → Completes (.sideRecordReceive) s (fun t =>
      (t.fab 0).delivered = rest ∧ (t.colld i).parts = x.parts.filter (fun e => e.1 != k) ++ [(k, had ++ frData f)] ∧
      (t.colld i).records = [] ∧ t.cells = s.cells ∧ t.mem.dram = s.mem.dram)) ∧
    (frKind f = 3 → s.unhindered → 0x40 + 8 * x.desc.gCount ≤ (had ++ frData f).length → field (had ++ frData f) 4 4 = tag →
      Completes (.sideRecordReceive) s (fun t => (t.fab 0).delivered = rest ∧
        (t.colld i).records = [(k, (had ++ frData f).take (0x40 + 8 * x.desc.gCount))] ∧ t.cells = s.cells ∧
        t.mem.dram = s.mem.dram)) ∧
    (frKind f = 4 → 16 ≤ (had ++ frData f).length → Completes (.xlegRecord) s (fun t => (t.fab 0).delivered = rest ∧
      (t.colld i).records = [(k, (had ++ frData f).take 16)] ∧ t.cells = s.cells ∧ t.mem = s.mem))) ∧
  (∀ (s : State) (p : PartId) (i : Nat) (r : SideRun) (fl : List (BitVec 2)), Sparse.wf Colld.reset s.coll.descs = true →
    s.sideOf p = some (i, r) → (s.colld i).side = some r → s.unhindered →
    (∀ y, r.yResult = some y → r.allFlags (s.colld i).desc = some fl →
      (r.built = true → exec (.tableBuildComplete p) s = .next s.admitted) ∧
      (r.built = false → Completes (.tableBuildComplete p) s (fun t =>
        (t.colld i).side = some { r with built := true } ∧ ((s.colld i).now = none → t.cells = s.cells) ∧
        (∀ g ∈ s.groupsOf p, (s.group g).enabled = true → bit (t.group g).status 1 = true) ∧
        ∀ g, g ∉ s.groupsOf p → t.group g = s.group g))) ∧
    ((r.yResult = none ∨ r.allFlags (s.colld i).desc = none) → exec (.tableBuildComplete p) s = .next s.admitted)) ∧
  (∀ (s : State) (p : PartId), s.sideOf p = none → s.unhindered →
    exec (.sideRecordSend p) s = .next s.admitted ∧ exec (.tableBuildComplete p) s = .next s.admitted) ∧
  (∀ (g : GradGroup) (w : Word32),
    let m := fld w 0 8
    let run := fld w 8 8
    let floor := min (fld g.cfg 0 8) 0xFE
    let halve := max (fld g.cfg 8 8) 1
    (m = 0xFF → ∀ b, buildWord g b w = w) ∧
    (m ≠ 0xFF →
      fld (buildWord g 3 w) 0 8 = min (m + 1) 0xFE ∧ fld (buildWord g 3 w) 8 24 = 0 ∧
      fld (buildWord g 0 w) 0 8 = m ∧ fld (buildWord g 0 w) 8 24 = 0 ∧
      (∀ b, b = 1 ∨ b = 2 →
        fld (buildWord g b w) 0 8 = (if halve ≤ run + 1 ∧ floor < m then m - 1 else m) ∧
        fld (buildWord g b w) 8 8 = (if halve ≤ run + 1 then (if floor < m then 0 else halve) else run + 1) ∧
        fld (buildWord g b w) 16 16 = (if b = 2 ∧ fld (buildWord g b w) 0 8 = floor then min (fld w 16 16 + 1) 65535 else 0))))

/-- The owner pairs with its twin, streams its negative page by page, and seals its records; it becomes LOST when the
twin fails. ARM, RESTART and REFIX from outside act in CLOSED only, else TWIN_BUSY. ARM with a good list and a
reachable twin asks with HELLO and waits; a bad list gives LIST_BAD and a mapped twin is not asked; an armed engine
ignores it. An answer that names this partition, the twin and the list length makes the engine ACTIVE, any other
MISPAIRED, as does no answer. RESTART clears the engine, its buffers (their counts stay) and STREAMED. Where no burst
is held back, TWIN_PAGE_SEND sends the next unsent page and its claim, within RATE; frames of the link join the outbox
ahead of what R446 serves after them. PAGE_ACK of the current count marks the page acknowledged and STREAMED; RESEND
queues the page, the fourth makes the twin LOST; NEG_DONE ends the stream; BODY_ACK of the current step sets the body
state; SEAL_ACK is noted; PROBE is taken; PROBE_TIMER sends PROBE while the owner waits; a first-touch copy stages the
page. Cells do not change. (14_twins_and_negatives R438, 14_twins_and_negatives R442, 14_twins_and_negatives R443,
14_twins_and_negatives R444, 14_twins_and_negatives R445, 14_twins_and_negatives R446, 14_twins_and_negatives R448,
14_twins_and_negatives R450, 14_twins_and_negatives R451, 14_twins_and_negatives R456, 14_twins_and_negatives R457,
14_twins_and_negatives R464) -/
def Obligations.TwinOwner : Prop :=
  (∀ (s : State) (p : PartId),
    let w := s.twin p
    let n : BitVec 16 := bfld w.peer 0 16
    let link := fun (e : FabId) (ep : BitVec 3) => (s.physical n).isSome = true ∧ ((s.fab e).txGrant 3 ep ep n).isSome = true
    let sends := fun (t : State) (e : FabId) (mark : Nat) => ∃ l pre post : List OutFrame, l ≠ [] ∧
      (s.fab e).outbox = pre ++ post ∧ (t.fab e).outbox = pre ++ l ++ post ∧
      (∀ o ∈ pre, ∀ m, o.use = .twin p m → linkClass m ≤ linkClass mark) ∧
      ∀ o ∈ l, frCls o.frame = 3 ∧ frKind o.frame = 0 ∧ some (frDst o.frame) = s.physical n ∧ o.use = .twin p mark
    let fixed := fun (t : State) => t.cells = s.cells ∧ t.mem = s.mem
    let reads := fun (t : State) => t.cells = s.cells ∧ t.mem.dram.bytes = s.mem.dram.bytes
    (∀ b, isCtx b = false → s.regsUp = true → s.phase p ≠ .closed →
      Completes (.twinArm b p) s (fun t => t = { s with faults := t.faults }) ∧
      Completes (.twinRefix b p) s (fun t => t = { s with faults := t.faults }) ∧
      (s.unhindered → Completes (.twinRestart b p) s (fun t => t = { s.admitted with faults := t.faults }))) ∧
    (∀ b, isCtx b = false → s.regsUp = true → s.phase p = .closed →
      ((w.stateCode = 1 ∨ w.stateCode = 2 ∨ w.helloWait = true) → Completes (.twinArm b p) s (fun t =>
        t = { s with faults := t.faults })) ∧
      (w.stateCode ≠ 1 → w.stateCode ≠ 2 → w.helloWait = false → s.twinList p = none →
        exec (.twinArm b p) s = .next ((s.listLooks p w.list w.listN).modTwin p (fun x => { x with
          status := setFld x.status 29 3 4 }))) ∧
      (∀ l, w.stateCode ≠ 1 → w.stateCode ≠ 2 → w.helloWait = false → s.twinList p = some l → link 0 4 →
        Completes (.twinArm b p) s (fun t => reads t ∧ (t.twin p).helloWait = true ∧ (t.twin p).slots = l ∧
          (t.twin p).stateCode = 0 ∧ sends t 0 markHello)) ∧
      (s.unhindered → Completes (.twinRestart b p) s (fun t => t.cells = s.cells ∧
        ((∀ k, (vget w.buffers k).state = 0 ∧ s.manifestHeld p k = false) → t.mem.dram = s.mem.dram) ∧ (t.twin p).stateCode = 0 ∧
        (t.twin p).streaming = none ∧ (t.twin p).negHeld = false ∧ (t.twin p).helloWait = false ∧ (t.twin p).pageState = [] ∧ (t.twin p).resendQ = [] ∧
        (∀ k, (vget (t.twin p).buffers k).state = 0 ∧ (vget (t.twin p).buffers k).count = (vget w.buffers k).count) ∧ (t.twin p).records = Vector.replicate 2 RecSlot.reset ∧
        ∀ q, q ≠ p → t.twin q = s.twin q)) ∧
      (s.refixGood p = true → Completes (.twinRefix b p) s (fun t => reads t ∧ bit (t.twin p).ctl 29 = true ∧
        (t.stepOf p).refix = true ∧ (t.stepOf p).index = (s.stepOf p).index)) ∧
      (s.refixGood p = false → Completes (.twinRefix b p) s (fun t => reads t ∧ t.twins = s.twins))) ∧
    (w.helloWait = true → Completes (.helloTimeout p) s (fun t => fixed t ∧ (t.twin p).stateCode = 3 ∧
      (t.twin p).helloWait = false)) ∧
    (w.helloWait = false → exec (.helloTimeout p) s = .next s) ∧
    (∀ m rest, w.inbox = m :: rest → m.head? = some 1 → field m 24 1 ≠ 0 → w.helloWait = true → w.restoreAsk = false →
      let right := field m 2 2 = fld w.peer 0 16 ∧ field m 1 1 = p.val ∧ field m 4 4 = w.slots.length ∧
        w.slots.length ≤ field m 16 4
      (right → Completes (.hello p) s (fun t => fixed t ∧ (t.twin p).stateCode = 1 ∧ (t.twin p).helloWait = false ∧
        (t.twin p).peerBase = field m 8 8 ∧ (t.twin p).peerPages = field m 16 4 ∧ (t.twin p).peerRecs = field m 20 4 ∧
        (t.twin p).inbox = rest)) ∧
      (¬ right → Completes (.hello p) s (fun t => fixed t ∧ (t.twin p).stateCode = 3 ∧ (t.twin p).helloWait = false))) ∧
    (∀ c i, s.unhindered → s.streams p = some c → w.resendQ = [] → s.twinWaiting p (fun m => m ≥ 0x100000) = false → w.nextSlot = i →
      i < w.slots.length → w.page i = .unsent →
      (s.twinUnlimited p = true ∨ pageTokens ≤ ((s.twinFill p).twin p).bucket) → link (if i % 2 = 0 then 0 else 1) (if i % 2 = 0 then 4 else 5) →
      Completes (.twinPageSend p) s (fun t => t.cells = s.cells ∧ t.mem.dram.bytes = s.mem.dram.bytes ∧
        (t.twin p).page i = .inFlight ∧ (t.twin p).nextSlot = i + 1 ∧
        sends t (if i % 2 = 0 then 0 else 1) i)) ∧
    (∀ c, s.unhindered → s.streams p = some c → w.resendQ = [] → s.twinWaiting p (fun m => m ≥ 0x100000) = false →
      s.twinUnlimited p = false → ((s.twinFill p).twin p).bucket < pageTokens → w.background.isSome = true →
      exec (.twinPageSend p) s = .next (s.twinFill p).admitted) ∧
    (s.unhindered → s.streams p = none → exec (.twinPageSend p) s = .next s.admitted) ∧
    (∀ m rest c, w.inbox = m :: rest → s.streamOf p = some c → field m 8 8 = c.toNat →
      (∀ i, m.head? = some 2 → field m 1 1 = 1 → field m 16 2 = i → i < w.slots.length → w.page i ≠ .acked →
        (∃ j < w.slots.length, j ≠ i ∧ w.page j ≠ .acked) → Completes (.pageAck p) s (fun t => fixed t ∧
          (t.twin p).page i = .acked ∧ (t.twin p).pagesSent = w.pagesSent + 1 ∧ (t.twin p).inbox = rest ∧
          (t.twin p).manifestSent = w.manifestSent)) ∧
      (∀ i, m.head? = some 3 → field m 4 4 = i → i ≠ 0xFFFFFFFF → i ∉ w.resendQ →
        (Sparse.get 0 w.resent i < 3 → Completes (.resend p) s (fun t => fixed t ∧ (t.twin p).resendQ = w.resendQ ++ [i] ∧
          (t.twin p).resends = w.resends + 1 ∧ Sparse.get 0 (t.twin p).resent i = Sparse.get 0 w.resent i + 1)) ∧
        (3 ≤ Sparse.get 0 w.resent i → (s.stepOf p).delivered = none → Completes (.resend p) s (fun t => fixed t ∧
          (t.twin p).stateCode = 2 ∧ (t.twin p).streaming = none)))) ∧
    (∀ m rest, w.inbox = m :: rest →
      (m.head? = some 5 → ((s.sheet p).stateCode ≠ 2 ∨ bit (s.sheet p).status 28 = false ∨
          (s.sheet p).count = BitVec.ofNat 64 (field m 8 8)) →
        exec (.negDone p) s = .next (s.modTwin p (fun x => { x with
          inbox := rest, negDone := BitVec.ofNat 64 (field m 8 8), negHeld := true, streaming := none
          sentRecs := x.sentRecs.map (fun (r : RecSlot) => r.freedBy (BitVec.ofNat 64 (field m 8 8))) }))) ∧
      (m.head? = some 6 → field m 8 8 = (s.stepOf p).index.toNat → w.bodyStep = some (s.stepOf p).index →
        (s.stepOf p).delivered = none → exec (.bodyAck p) s = .next (s.modTwin p (fun x => { x with
          inbox := rest, status := setFld x.status 26 2 2 }))) ∧
      (m.head? = some 8 → field m 8 8 = (s.stepOf p).index.toNat →
        exec (.sealAck p) s = .next (s.modTwin p (fun x => { x with
          inbox := rest, sealAck := true
          sentRecs := x.sentRecs.map (fun (r : RecSlot) => if r.used && r.step == (s.stepOf p).index then
            (if skips (bfld (s.stepOf p).verdict 0 16) then RecSlot.reset else { r with sealed_ := true, commit := true })
            else r) }))) ∧
      (m.head? = some 9 → exec (.probe p) s = .next (s.modTwin p (fun x => { x with inbox := rest })))) ∧
    (s.waitsOnTwin p = true → link 0 4 → Completes (.probeTimer p) s (fun t => fixed t ∧ t.twins = s.twins ∧
      sends t 0 markMsg)) ∧
    (s.waitsOnTwin p = false → exec (.probeTimer p) s = .next s) ∧
    (∀ i, s.unhindered → i ∈ w.held → i < w.slots.length → w.page i = .unsent →
      (∀ j k, w.page j ≠ .staged k) → Completes (.firstTouchCopy p i) s (fun t => t.cells = s.cells ∧
        (t.twin p).page i = .staged 0 ∧ (t.twin p).firstTouch = w.firstTouch + 1 ∧ i ∉ (t.twin p).held ∧
        (t.twin p).resendQ = w.resendQ ++ [i])) ∧
    (∀ i, s.unhindered → i ∉ w.held → exec (.firstTouchCopy p i) s = .next s.admitted) ∧
    (w.inbox = [] → (∀ c ∈ [Instr.hello p, .pageAck p, .resend p, .negDone p, .bodyAck p, .sealAck p, .probe p],
        exec c s = .next s) ∧
      (s.unhindered → exec (.manifest p) s = .next s.admitted ∧ exec (.seal p) s = .next s.admitted)))

/-- The holder checks each page and record it is sent, answers, and a restore writes only what verifies. Where no
burst is held back: a claim whose page in the holding area has the claimed CRC-64 and no poison is recorded as valid
and answered PAGE_ACK; any other is answered RESEND and not recorded. A MANIFEST whose SHA-256 is that of the held
digests makes the buffer COMPLETE, discards the older one and is answered NEG_DONE; else the buffer is FILLING again
and the stream is asked for again. A SEAL of a held record marks it sealed and committed, or frees its slot where the
verdict skips, and is answered SEAL_ACK. A restore command from outside, in CLOSED and with none running, becomes BUSY
and asks the twin with HELLO; with no way to it RESULT is 3; otherwise it is refused. A HELLO of another package gives
RESULT 2. RESTORE_DONE without an answer gives RESULT 3 and writes nothing; while reads are to come it waits; a record
read whole is written at RESTORE_DEST with RESULT 1; a manifest or digest list that does not verify gives RESULT 2 and
writes nothing; of a page, only one whose CRC-64 matches and that is the partition's own is written; tables of the
wrong size give RESULT 2. (14_twins_and_negatives R441, 14_twins_and_negatives R443, 14_twins_and_negatives R444,
14_twins_and_negatives R450, 14_twins_and_negatives R451, 14_twins_and_negatives R460, 14_twins_and_negatives R464,
14_twins_and_negatives R465, 14_twins_and_negatives Table 14-12) -/
def Obligations.TwinHolderAndRestore : Prop :=
  (∀ (s : State) (p : PartId),
    let w := s.twin p
    let n : BitVec 16 := bfld w.peer 0 16
    let link := (s.physical n).isSome = true ∧ ((s.fab 0).txGrant 3 4 4 n).isSome = true ∧ w.peerBase % 256 = 0
    let answers := fun (t : State) (ty : Byte) (c : Nat) => ∃ l pre post : List OutFrame, l ≠ [] ∧
      (s.fab 0).outbox = pre ++ post ∧ (t.fab 0).outbox = pre ++ l ++ post ∧ (∀ o ∈ l, frCls o.frame = 3 ∧ some (frDst o.frame) = s.physical n) ∧
      ∃ o ∈ l, o.frame.payload.head? = some ty ∧ field o.frame.payload 8 8 = c
    (∀ i c d rest, s.unhindered → w.claims = (i, c, d) :: rest → c < 2 ^ 48 - 1 → link → (vget w.buffers (bufOf c)).state = 1 →
      (vget w.buffers (bufOf c)).count = BitVec.ofNat 64 c →
      let pg := s.dramBytes (w.own.page (bufOf c).val i) (2 ^ 21)
      (pg.2 = [] → crc64 pg.1 = d → Completes (.twinClaim p) s (fun t => (t.twin p).claims = rest ∧ t.cells = s.cells ∧
        Sparse.get none (vget (t.twin p).buffers (bufOf c)).valid i = some d ∧ answers t 2 c)) ∧
      ((pg.2 ≠ [] ∨ crc64 pg.1 ≠ d) → Completes (.twinClaim p) s (fun t => (t.twin p).claims = rest ∧ t.cells = s.cells ∧
        t.mem.dram.bytes = s.mem.dram.bytes ∧ (t.twin p).buffers = w.buffers ∧ answers t 3 c))) ∧
    (s.unhindered → w.claims = [] → exec (.twinClaim p) s = .next s.admitted) ∧
    (∀ m rest, s.unhindered → w.inbox = m :: rest → m.head? = some 4 → link →
      let c := field m 8 8
      let x := vget w.buffers (bufOf c)
      let ds := (List.range (field m 4 4)).map (fun i => Sparse.get none x.valid i)
      let right := x.state = 1 ∧ x.count = BitVec.ofNat 64 c ∧ (∀ d ∈ ds, d.isSome = true) ∧
        sha256 (ds.flatMap (fun d => leBytes 8 (d.getD 0).toNat)) = slice m 32 32
      (right → Completes (.manifest p) s (fun t => t.cells = s.cells ∧ (t.twin p).inbox = rest ∧
        (vget (t.twin p).buffers (bufOf c)).state = 2 ∧ (vget (t.twin p).buffers (bufOf c)).count = BitVec.ofNat 64 c ∧
        vget (t.twin p).buffers (bufOf (c + 1)) = (vget w.buffers (bufOf (c + 1))).emptied ∧ answers t 5 c)) ∧
      (¬ right → Completes (.manifest p) s (fun t => t.cells = s.cells ∧ (t.twin p).inbox = rest ∧
        (vget (t.twin p).buffers (bufOf c)).state = 1 ∧ (vget (t.twin p).buffers (bufOf c)).valid = [] ∧ answers t 3 c))) ∧
    (∀ m rest r, s.unhindered → w.inbox = m :: rest → m.head? = some 7 → link → (vget w.records r).used = true →
      (vget w.records r).step = BitVec.ofNat 64 (field m 8 8) → (∀ q, q ≠ r → (vget w.records q).used = false) →
      let v : BitVec 16 := BitVec.ofNat 16 (field m 4 2)
      Completes (.seal p) s (fun t => t.cells = s.cells ∧ (t.twin p).inbox = rest ∧ answers t 8 (field m 8 8) ∧
        (skips v = true → vget (t.twin p).records r = RecSlot.reset) ∧
        (skips v = false → vget (t.twin p).records r = { vget w.records r with sealed_ := true, commit := true })))) ∧
  (∀ (s : State) (b : Requester) (p : PartId) (k : Fin 2), isCtx b = false → s.regsUp = true →
    let n : BitVec 16 := bfld (s.twin p).peer 0 16
    let link := (s.physical n).isSome = true ∧ ((s.fab 0).txGrant 3 4 4 n).isSome = true
    let asks := fun (i : Instr) (r : Restore) =>
      (link → Completes i s (fun t => t.cells = s.cells ∧ t.mem = s.mem ∧ (t.twin p).restore = r ∧
        (t.twin p).restoreStat = 0x80000000 ∧ (t.twin p).restoreAsk = true ∧ (t.twin p).restoreGot = [] ∧
        ∃ l pre post : List OutFrame, l ≠ [] ∧ (s.fab 0).outbox = pre ++ post ∧ (t.fab 0).outbox = pre ++ l ++ post ∧
          ∀ o ∈ l, frCls o.frame = 3 ∧ some (frDst o.frame) = s.physical n ∧ o.use = .twin p markHello)) ∧
      (¬ link → (s.stepOf p).delivered = none → Completes i s (fun t => t.cells = s.cells ∧ t.mem = s.mem ∧ (t.twin p).restore = .none ∧
        fld (t.twin p).restoreStat 29 2 = 3))
    (s.phase p = .closed → bit (s.twin p).restoreStat 31 = false →
      asks (.restorePages b p k) (.pages k) ∧ asks (.restoreRecord b p k) (.record k) ∧ asks (.restoreTables b p) .tables) ∧
    ((s.phase p ≠ .closed ∨ bit (s.twin p).restoreStat 31 = true) →
      Completes (.restorePages b p k) s (fun t => t = { s with faults := t.faults }) ∧
      Completes (.restoreRecord b p k) s (fun t => t = { s with faults := t.faults }) ∧
      Completes (.restoreTables b p) s (fun t => t = { s with faults := t.faults }))) ∧
  (∀ (s : State) (p : PartId) (m : TwinMsg) (rest : List TwinMsg), (s.twin p).inbox = m :: rest → m.head? = some 1 →
    field m 24 1 ≠ 0 → (s.twin p).restoreAsk = true → (s.twin p).helloWait = false →
    (field m 2 2 ≠ fld (s.twin p).peer 0 16 ∨ field m 1 1 ≠ p.val) → Completes (.hello p) s (fun t => t.cells = s.cells ∧
      t.mem = s.mem ∧ (t.twin p).restore = .none ∧ fld (t.twin p).restoreStat 29 2 = 2)) ∧
  (∀ (s : State) (p : PartId) (x : RestoreData), s.unhindered →
    let w := s.twin p
    let ends := fun (u : State) (result done : Nat) => Completes (.restoreDone p x) s (fun t =>
      t = (u.restoreEnd p result done).admitted ∧ (t.twin p).restore = .none ∧ (t.twin p).restoreAsk = false ∧
      fld (t.twin p).restoreStat 29 2 = result ∧ fld (t.twin p).restoreStat 0 17 = done)
    let gs := (s.groupsOf p).filter (fun g => (s.group g).enabled)
    (w.restore = .none → exec (.restoreDone p x) s = .next s.admitted) ∧
    (w.restore ≠ .none → x.present = false → ends s 3 0) ∧
    (w.restore ≠ .none → x.present = true → s.restoreWaits p = true → exec (.restoreDone p x) s = .next s.admitted) ∧
    (x.present = true → s.restoreWaits p = false →
      (∀ k, w.restore = .record k → s.mgmtHeld p (pagesOf (fld w.restoreDest 12 36 * 4096) (w.peerRecs * 2 ^ 21)) = [] →
        let got := w.gotBytes (w.peers.record k.val) (w.peerRecs * 2 ^ 21)
        (got = none → ends s 2 0) ∧
        (∀ bs, got = some bs → ends (s.restoreStore (fld w.restoreDest 12 36 * 4096)
          (bs.take (0x2000 + 130 * field bs 0x48 4))) 1 0)) ∧
      (w.restore = .tables →
        (x.tables.length ≠ (gs.map (fun g => 4 * (s.group g).blocks.toNat)).sum → ends s 2 0) ∧
        (x.tables.length = (gs.map (fun g => 4 * (s.group g).blocks.toNat)).sum → ends (s.restoreGroups p gs x.tables) 1 0)) ∧
      (∀ k l, w.restore = .pages k → s.listPages w.list w.listN = some l → s.mgmtHeld p l = [] →
        let m := (w.gotBytes (w.peers.manifest k.val) 0x100).getD []
        let list := slice ((w.gotBytes (w.peers.digest k.val 0) ((8 * l.length + 255) / 256 * 256)).getD []) 0 (8 * l.length)
        let good := field m 5 1 = 2 ∧ field m 0x18 4 = l.length ∧ sha256 list = slice m 0x20 32
        (¬ good → ends s 2 0) ∧
        (∀ a bs, good → l = [a] → w.gotBytes (w.peers.page k.val 0) (2 ^ 21) = some bs →
          let own := field list 0 8 = (crc64 bs).toNat ∧ s.pageInside a = true ∧ s.pageMarked p a = true
          (own → ends (s.restoreStore a bs) 1 1) ∧ (¬ own → ends s 2 0)))))

/-- Sheets are armed, ship their pages piece by piece and are cancelled; the host ports serve regions, doorbells and
records. From outside, core reachable: ARM of a sheet neither ARMED nor STREAMING whose listed pages are the
partition's makes it ARMED at piece 0; a bad list fails it with RESULT 2, a count already passed with 3; a live one
writes SHEET_BUSY; CANCEL fails a live one with RESULT 5, else changes nothing. Where no burst is held back, HSP_PIECE
ships the next 4 KiB of a streaming sheet on own pages to its bus address and counts them; toward the package it
issues the next read of the host transfer. HSP_READ_COMPLETION writes the bytes at their destination, or delivers a
failed read poisoned and fails the transfer with POISON; data of another length is none. A HOST_REGION write with EN
at 0 is stored; BASE with EN at 1 is ignored. DOORBELL signals the configured latch of a cell of its partition. Port
resets and FLR stop host transfers with HOST_DENIED and streaming sheets, or abandon the mailbox and the ring; link-up
raises the port once FD0 has booted. ERROR_RECORD_DELIVER gives the earliest record its SEQ and logs it.
(13_activations_and_snapshots R427, 13_activations_and_snapshots R429, 13_activations_and_snapshots R431,
13_activations_and_snapshots R433, 13_activations_and_snapshots R436, 15_faults_reset_recovery R474,
17_host_management_identity R526, 17_host_management_identity R529, 17_host_management_identity R531,
17_host_management_identity R532, 17_host_management_identity R553, 17_host_management_identity Table 17-3) -/
def Obligations.SheetsAndHostPort : Prop :=
  (∀ (s : State) (b : Requester) (p : PartId), isCtx b = false → s.regsUp = true →
    let x := s.sheet p
    let live := x.stateCode = 1 ∨ x.stateCode = 2
    let ends := fun (r : Nat) (t : State) => (t.sheet p).stateCode = 4 ∧
      fld (t.sheet p).status 24 4 = r ∧ t.cells = s.cells ∧ t.mem.dram.bytes = s.mem.dram.bytes ∧ ∀ q, q ≠ p → t.sheet q = s.sheet q
    (live → Completes (.sheetArm b p) s (fun t => t = { s with faults := t.faults }) ∧ Completes (.sheetCancel b p) s (ends 5)) ∧
    (¬ live → exec (.sheetCancel b p) s = .next s) ∧
    (¬ live → s.sheetPages p = none → Completes (.sheetArm b p) s (ends 2)) ∧
    (∀ l, ¬ live → s.sheetPages p = some l →
      (x.atCount ≠ 0 → x.atCount.toNat ≤ (s.stepOf p).updateCount.toNat → Completes (.sheetArm b p) s (ends 3)) ∧
      ((x.atCount = 0 ∨ (s.stepOf p).updateCount.toNat < x.atCount.toNat) → Completes (.sheetArm b p) s (fun t =>
        t.cells = s.cells ∧ t.mem.dram.bytes = s.mem.dram.bytes ∧ t.twins = s.twins ∧ (t.sheet p).stateCode = 1 ∧ (t.sheet p).pages = l ∧ (t.sheet p).piece = 0 ∧
        (t.sheet p).digests = [] ∧ ∀ q, q ≠ p → t.sheet q = s.sheet q)))) ∧
  (∀ (s : State) (p : PartId),
    let x := s.sheet p
    let bus := s.sheetBus x (x.piece * 4096)
    s.unhindered → s.host.hspUp = true → x.stateCode = 2 → bit x.status 28 = false → fld x.ctl 0 8 = 0 → s.hsp.toHost = [] →
    (∀ q, q ≠ p → (s.sheet q).stateCode ≠ 2) → s.regionOpen p (fld x.host 40 24) true bus 4096 = true →
    x.piece + 1 < 512 * x.pages.length → Completes (.hspPiece true) s (fun t =>
      (t.sheet p).piece = x.piece + 1 ∧ (t.sheet p).shipped = x.shipped + 4096 ∧ (t.sheet p).stateCode = 2 ∧
      t.hsp.out = [(BitVec.ofNat 64 bus, (s.dramBytes x.pieceAddr 4096).1)] ∧
      t.mem.dram.bytes = s.mem.dram.bytes ∧ t.cells = s.cells)) ∧
  (∀ (s : State) (h : HspXfer) (r : DmRun),
    let n := h.piece
    s.unhindered → s.host.hspUp = true → s.hsp.toHost = [] → s.hsp.toPkg = [h] → s.hsp.reads = [] → s.xfer h.cell h.xfer = some r →
    s.hspOpen false h r.ins n = true →
    Completes (.hspPiece false) s (fun t => t.hsp.reads = [⟨h.cell, h.xfer, h.moved, n, h.order⟩] ∧
      t.hsp.toPkg.map (·.moved) = (if h.len ≤ h.moved + n then [] else [h.moved + n]) ∧
      (t.xfer h.cell h.xfer).map (·.outstanding) = some (r.outstanding + 1) ∧ t.mem.dram = s.mem.dram ∧
      ∀ c, (t.cell c).store = (s.cell c).store)) ∧
  (∀ (s : State) (r : HspRead) (rest : List HspRead) (x : DmRun) (data : List Byte), s.hsp.reads = r :: rest →
    s.xfer r.cell r.xfer = some x → x.status = 0 → 0 < r.len → x.ins.part s r.cell r.off r.len = [(r.off, r.len)] →
    Completes (.hspReadCompletion false data) s (fun t => t.hsp.reads = rest ∧
      (t.xfer r.cell r.xfer).map (·.status) = some 0x0A ∧ t.mem = s.mem ∧
      (∀ c, (∀ o, (x.ins.sides s r.cell r.off).2 ≠ .store c o) → (t.cell c).store = (s.cell c).store) ∧
      ∀ c o, (x.ins.sides s r.cell r.off).2 = .store c o → (t.cell c).store.anyPoison o r.len = true) ∧
    (∀ u o, data.length = r.len → (x.ins.sides s r.cell r.off).2 = .store u o →
      Completes (.hspReadCompletion true data) s (fun t => t.hsp.reads = rest ∧ t.mem = s.mem ∧
        (t.cell u).store = (s.cell u).store.write o data ∧ ∀ c, c ≠ u → (t.cell c).store = (s.cell c).store)) ∧
    (data.length ≠ r.len → exec (.hspReadCompletion true data) s = .fault .illFormed)) ∧
  (∀ (s : State) (b : Requester), isCtx b = false → s.regsUp = true →
    (∀ (i : Fin 4096) (v : Word64),
      let r := s.region i
      let put := fun (x : Word64 × Word64) => { s with host := { s.host with
        region := Sparse.set (0, 0) s.host.region i.val x } }
      (bit r.2 63 = false → exec (.hostRegionWrite b i false v) s = .next (put (v &&& 0xFFFFFFFFFFFFF000, r.2)) ∧
        exec (.hostRegionWrite b i true v) s = .next (put (r.1, v &&& 0xF80000FFFFFFFFFF))) ∧
      (bit r.2 63 = true → Completes (.hostRegionWrite b i false v) s (fun t => t = { s with faults := t.faults }))) ∧
    (∀ (i : Fin 256) (v : Word32),
      let bad := (bit (s.doorbellCfg i) 31 = true ∧ bit v 31 = true) ∨ 60 ≤ fld v 0 6
      (bad → Completes (.doorbellCfgWrite b i v) s (fun t => t = { s with faults := t.faults })) ∧
      (¬ bad → exec (.doorbellCfgWrite b i v) s = .next { s with host := { s.host with
        doorbell := Sparse.set 0 s.host.doorbell i.val (v &&& 0x8000FF3F) } })) ∧
    (∀ p : PartId, exec (.hcpNotify b p) s = .next (s.raiseVector ⟨8 + p.val, by omega⟩))) ∧
  (∀ (s : State) (i : Fin 256) (v : Word64),
    let g := s.doorbellCfg i
    let c : CellId := (bfld g 8 6).toFin
    let own := s.partOf c = some (bfld g 14 2).toFin
    (s.host.hcpUp = false → exec (.doorbell i v) s = .next s) ∧
    (s.host.hcpUp = true → bit g 31 = true → own → exec (.doorbell i v) s = .next (s.modCell c (fun x => { x with
      signals := x.signals ++ [⟨bfld g 0 6, if bfld v 0 32 = (0 : Word32) then 1 else bfld v 0 32, false, none⟩] }))) ∧
    (s.host.hcpUp = true → (bit g 31 = false ∨ ¬ own) → Completes (.doorbell i v) s (fun t =>
      t = { s with faults := t.faults }))) ∧
  (∀ (s : State),
    let stops := fun (t : State) => t = { s with host := t.host, mgmt := { s.mgmt with spdmWait := none } } ∧ bit t.host.mboxCtl 0 = false ∧
      bit t.host.mboxCtl 1 = false ∧ bit t.host.ringCtl 31 = false ∧ t.host.answer = none ∧ t.host.region = s.host.region ∧
      t.host.hcp = PciePort.reset ∧ t.host.pend = 0
    let fails := fun (t : State) =>
      (∀ p, (s.sheet p).stateCode = 2 → (t.sheet p).stateCode = 4 ∧ fld (t.sheet p).status 24 4 = 6) ∧
      (∀ p, (s.sheet p).stateCode ≠ 2 → t.sheet p = s.sheet p) ∧ t.hsp.reads = [] ∧ t.host.hsp = PciePort.reset ∧ t.mem = s.mem ∧
      (∀ c, (t.cell c).store = (s.cell c).store)
    Completes (.pciePortReset false) s (fun t => stops t ∧ t.host.hcpUp = false) ∧
    Completes (.functionLevelReset false) s (fun t => stops t ∧ t.host.hcpUp = s.host.hcpUp) ∧
    Completes (.pciePortReset true) s (fun t => fails t ∧ t.host.hspUp = false) ∧
    Completes (.functionLevelReset true) s (fun t => fails t ∧ t.host.hspUp = s.host.hspUp) ∧
    (s.fd0Booted = false → ∀ h, exec (.pcieLinkUp h) s = .next s) ∧
    (s.fd0Booted = true → exec (.pcieLinkUp true) s = .next { s with host := { s.host with hspUp := true } } ∧
      Completes (.pcieLinkUp false) s (fun t => t.host.hcpUp = true ∧ t = { s with host := t.host }))) ∧
  (∀ (s : State),
    (s.faults.oldest = none → exec (.errorRecordDeliver) s = .next s) ∧
    (∀ d r, s.faults.oldest = some (d, r) → vget s.faults.overflow d = 0 → Completes (.errorRecordDeliver) s (fun t =>
      t.faults.errSeq = s.faults.errSeq + 1 ∧ vget t.faults.queues d = (vget s.faults.queues d).drop 1 ∧
      (∀ e, e ≠ d → vget t.faults.queues e = vget s.faults.queues e) ∧ t = { s with faults := t.faults, host := t.host } ∧
      ∃ img, t.faults.log.getLast? = some (s.faults.errSeq, img) ∧ img.length = 64 ∧ field img 0 8 = r.time.toNat ∧
        field img 8 8 = s.faults.errSeq.toNat ∧ field img 60 4 = (crc32 (img.take 60)).toNat)))

/-- The mailbox carries one request to the management core, which serves its commands and answers; the core restarts
alone. MBOX_GO posts a request and sets GO, unless BUSY or DONE; MBOX_TAKE makes it BUSY while the core runs;
MBOX_REPLY writes the answer, sets DONE and raises vector 1; an unknown CMD is answered 1, an unknown OP 2. A pending
command is served once: GET_INFO and LOG_READ change nothing; FRU_READ returns bytes of the store, FRU_WRITE stores
into the owner area and refuses the other with 3; FW_WRITE writes the inactive bank only; FW_ACTIVATE takes a good
bank, or answers 4; ANCHOR_SET answers 6 unless every partition is CLOSED and every port down; GET_NONCE makes a fresh
nonce; UNLOCK with a valid token sets the level until its end; LOCK and the end of its time close it and PLATE_DBG_EN.
With no such request nothing changes. A missed heartbeat stops the core alone, a second within 10 s asks the tray for
power; MGMT_RESTART runs a good bank and answers 5 to a request it had taken. Payload layouts are the model's.
(15_faults_reset_recovery R485, 17_host_management_identity R527, 17_host_management_identity R528,
17_host_management_identity R537, 17_host_management_identity R545, 18_self_test_and_debug R566,
18_self_test_and_debug R567, 17_host_management_identity Table 17-5, 17_host_management_identity Table 17-15) -/
def Obligations.MailboxCommands : Prop :=
  (∀ (s : State) (q : List Byte),
    (s.host.hcpUp = false → exec (.mboxGo q) s = .next s) ∧
    (s.host.hcpUp = true → s.host.busy = false → s.host.done = false → exec (.mboxGo q) s = .next { s with host :=
      { s.host with request := slice q 0 4096, mboxCtl := setBit s.host.mboxCtl 0 true } }) ∧
    (s.host.hcpUp = true → (s.host.busy = true ∨ s.host.done = true) → Completes (.mboxGo q) s (fun t =>
      t = { s with faults := t.faults, host := { s.host with request := slice q 0 4096 } })) ∧
    (s.host.go = true → s.mgmt.running = true →
      exec (.mboxTake) s = .next { s with host := { s.host with mboxCtl := 2, answer := none } }) ∧
    ((s.host.go = false ∨ s.mgmt.running = false) → exec (.mboxTake) s = .next s) ∧
    (s.host.busy = true → s.mgmt.running = true →
      (∀ m, s.host.answer = some m → exec (.mboxReply) s = .next (({ s with host := { s.host with
        reply := slice m 0 4096, answer := none, mboxCtl := 4 } }).raiseVector 1)) ∧
      (s.host.answer = none → (s.host.cmd = 0 ∨ 8 < s.host.cmd) → Completes (.mboxReply) s (fun t =>
        field t.host.reply 8 2 = 1 ∧ field t.host.reply 0 4 = field s.host.request 0 4 ∧ t.host.mboxCtl = 4)) ∧
      (s.host.answer = none → s.host.cmd = 8 → 2 < s.tokenOp.toNat → Completes (.mboxReply) s (fun t =>
        field t.host.reply 8 2 = 2 ∧ t.host.mboxCtl = 4)) ∧
      (s.host.answer = none → 1 ≤ s.host.cmd → s.host.cmd < 8 → exec (.mboxReply) s = .next s)) ∧
    ((s.host.busy = false ∨ s.mgmt.running = false) → exec (.mboxReply) s = .next s)) ∧
  (∀ (s : State) (b : List Byte), s.host.payload = some b →
    let m := s.mgmt
    let ans := fun (st : Nat) (u : State) (pl : List Byte) =>
      { u with host := { u.host with answer := some (u.host.message st pl) } }
    let a := field b 0 4
    let d := b.drop 4
    let i := m.inactive
    (s.mboxPending 1 = true → exec (.getInfo) s = .next (ans 0 s (leBytes 4 (vget m.banks m.active).version.toNat ++
      leBytes 4 (vget m.banks m.active).svn.toNat ++ leBytes 4 (vget m.banks i).version.toNat ++
      leBytes 4 (vget m.banks i).svn.toNat ++ leBytes 4 m.svnMin.toNat ++ leBytes 1 m.active.val ++
      leBytes 1 (if s.hostVisible then 1 else 0)))) ∧
    (s.mboxPending 2 = true → 12 ≤ b.length → field b 8 4 ≤ 63 → exec (.logRead) s = .next (ans 0 s (((s.faults.log.filter
      (fun e => decide (field b 0 8 ≤ e.1.toNat))).take (field b 8 4)).flatMap (·.2)))) ∧
    (s.mboxPending 3 = true → 8 ≤ b.length → field b 4 4 ≤ 4080 → a + field b 4 4 ≤ 0x2000 →
      exec (.fruRead) s = .next (ans 0 s ((List.range (field b 4 4)).map (fun k => s.tray.fruByte (a + k))))) ∧
    (s.mboxPending 4 = true → 4 ≤ b.length → (a < 0x1000 ∨ 0x2000 < a + d.length) → exec (.fruWrite) s = .next (ans 3 s [])) ∧
    (s.mboxPending 4 = true → 4 ≤ b.length → 0x1000 ≤ a → a + d.length ≤ 0x2000 → Sparse.wf 0 s.tray.stored.fru = true →
      Completes (.fruWrite) s (fun t => t = { s with tray := { s.tray.stored with fru := t.tray.fru }, host := t.host } ∧
        t.host.answer = some (s.host.message 0 []) ∧ (∀ k < d.length, t.tray.fruByte (a + k) = d.getD k 0) ∧
        ∀ k, (k < a ∨ a + d.length ≤ k) → t.tray.fruByte k = s.tray.stored.fruByte k)) ∧
    (s.mboxPending 5 = true → 4 ≤ b.length → a + d.length ≤ 2 ^ 24 → Sparse.wf 0 (vget m.banks i).image = true →
      Completes (.fwWrite) s (fun t => t = { s with mgmt := { m with banks := t.mgmt.banks }, host := t.host } ∧
        t.host.answer = some (s.host.message 0 []) ∧ vget t.mgmt.banks m.active = vget m.banks m.active ∧
        (∀ k < d.length, Sparse.get 0 (vget t.mgmt.banks i).image (a + k) = d.getD k 0))) ∧
    (s.mboxPending 5 = true → 4 ≤ b.length → 2 ^ 24 < a + d.length → exec (.fwWrite) s = .next (ans 2 s [])) ∧
    (s.mboxPending 6 = true → 1 ≤ b.length →
      (m.bankGood i = false → exec (.fwActivate) s = .next (ans 4 s [])) ∧
      (m.bankGood i = true → exec (.fwActivate) s = .next (ans 0 { s with mgmt := { m with
        svnMin := if bit (b.getD 0 0) 1 then (vget m.banks i).svn else m.svnMin, nextBank := some i
        running := m.running && !(bit (b.getD 0 0) 0) } } []))) ∧
    (s.mboxPending 7 = true → 4 ≤ b.length →
      ((s.allClosed && s.allPortsDown) = false → exec (.anchorSet) s = .next (ans 6 s [])) ∧
      ((s.allClosed && s.allPortsDown) = true →
        (bit (b.getD 0 0) 0 = true → exec (.anchorSet) s = .next (ans 0 { s with mgmt := { m with azonatis := false } } [])) ∧
        (∀ k : Fin 4, bit (b.getD 0 0) 0 = false → field b 1 1 = k.val → 52 ≤ b.length →
          let v := if bit (b.getD 2 0) 0 then some (BitVec.ofNat 384 (field b 4 48)) else none
          exec (.anchorSet) s = .next (ans 0 { s with mgmt := { m with anchors := vset m.anchors k v } } [])))) ∧
    (s.mboxPending 8 = true → b.getD 0 0xFF = 0 → 1 ≤ b.length → Completes (.getNonce) s (fun t => ∃ n,
      t.mgmt = { m with nonce := some n } ∧ t.host.answer = some (s.host.message 0 (leBytes 32 n.toNat)) ∧
      t.test = s.test ∧ t.cells = s.cells)) ∧
    (s.mboxPending 8 = true → b.getD 0 0xFF = 1 → 0x109 ≤ b.length →
      let w := b.drop 1
      let fresh := m.nonce = some (BitVec.ofNat 256 (field w 0x10 32))
      let form := field w 0 2 = 1 ∧ field w 8 8 = idSerial.toNat ∧ fresh ∧ 1 ≤ field w 4 4 ∧
        field w 4 4 ≤ 604800 ∧ field w 2 2 < 8
      let signed := m.trusts (Config.sha384 (slice w 0x30 120)) = true ∧
        Config.ecdsaGood (slice w 0x30 120) (Config.sha384 (slice w 0 0xA8)) (slice w 0xA8 96) = true
      (¬ form → exec (.debugUnlock) s = .next (ans 2 s [])) ∧
      (form → ¬ signed → exec (.debugUnlock) s = .next (ans 4 { s with mgmt := { m with nonce := none } } [])) ∧
      (form → signed → bit s.test.stDebug 16 = true →
        exec (.debugUnlock) s = .next (ans 3 { s with mgmt := { m with nonce := none } } [])) ∧
      (form → signed → bit s.test.stDebug 16 = false → Completes (.debugUnlock) s (fun t => t.mgmt = { m with nonce := none } ∧
        bit t.test.stDebug 16 = true ∧ fld t.test.stDebug 0 16 = field w 2 2 ∧
        t.test.debugEnd = s.time + BitVec.ofNat 64 (field w 4 4 * 1000000000) ∧ t.cells = s.cells ∧ t.mem = s.mem))) ∧
    (s.mboxPending 8 = true → b.getD 0 0xFF = 2 → 1 ≤ b.length → Completes (.debugLock) s (fun t =>
      bit t.test.stDebug 16 = false ∧ fld t.test.stDebug 0 16 = (if bit s.test.stDebug 16 then 0 else fld s.test.stDebug 0 16) ∧
      (bit s.test.stDebug 16 = true → ∀ c, bit (t.cell c).regs.plateDbg 0 = false) ∧
      (∀ c, (t.cell c).store = (s.cell c).store) ∧ t.mem = s.mem))) ∧
  (∀ (s : State) (k : Nat) (i : Instr), (k, i) ∈ [(1, Instr.getInfo), (2, .logRead), (3, .fruRead), (4, .fruWrite),
      (5, .fwWrite), (6, .fwActivate), (7, .anchorSet), (8, .getNonce), (8, .debugUnlock), (8, .debugLock)] →
    s.mboxPending k = false → exec i s = .next s) ∧
  (∀ s : State,
    (bit s.test.stDebug 16 = true → s.test.debugEnd.toNat ≤ s.time.toNat → Completes (.debugUnlockEnd) s (fun t =>
      bit t.test.stDebug 16 = false ∧ fld t.test.stDebug 0 16 = 0 ∧ (∀ c, bit (t.cell c).regs.plateDbg 0 = false) ∧
      t.mem = s.mem)) ∧
    ((bit s.test.stDebug 16 = false ∨ s.time.toNat < s.test.debugEnd.toNat) → exec (.debugUnlockEnd) s = .next s) ∧
    (s.start.aux = true → s.mgmt.running = true →
      (s.mgmt.missedAt = none → exec (.mgmtHeartbeatMiss) s = .next { s with mgmt := { s.mgmt with
        running := false, missedAt := some s.time } }) ∧
      (∀ w, s.mgmt.missedAt = some w → s.time.toNat < w.toNat + 10000000000 → Completes (.mgmtHeartbeatMiss) s (fun t =>
        bit t.tray.alert 0 = true ∧ t.mgmt = s.mgmt ∧ t.cells = s.cells)) ∧
      (∀ w, s.mgmt.missedAt = some w → w.toNat + 10000000000 ≤ s.time.toNat → exec (.mgmtHeartbeatMiss) s = .next { s with
        mgmt := { s.mgmt with running := false, missedAt := some s.time } })) ∧
    (s.start.aux = true → s.mgmt.running = false →
      (s.mgmt.bootBank = none → exec (.mgmtRestart) s = .next s) ∧
      (∀ i, s.mgmt.bootBank = some i → Completes (.mgmtRestart) s (fun t => t.mgmt.running = true ∧ t.mgmt.active = i ∧
        t.mgmt.nextBank = none ∧ t.mgmt.banks = s.mgmt.banks ∧ bit t.tray.alert 5 = true ∧
        (s.host.busy = true → t.host.answer = some (s.host.message 5 [])) ∧ t.cells = s.cells ∧ t.mem = s.mem))) ∧
    ((s.start.aux = false ∨ s.mgmt.running = true) → exec (.mgmtRestart) s = .next s))

/-- The tray reads and writes its words and the FRU store; the SPDM responder answers in order of the exchange. With
AUX: TSB_READ drives the word and word 0x050 copies 0x051 to 0x053 into the hold; TSB_WRITE clears ALERT bits written
1, sets ALERT_EN with bit 0 kept, takes EMERG_W, and ignores any other word, counted in TSB_ERRS; TSB_ALERT_N is low
just while an enabled ALERT bit is set; without AUX nothing changes. TSB_SHADOW_REFRESH, the management core running
and the core on, refreshes every core word and counts. SMBUS_OFFSET_WRITE sets the address; bytes for the owner area
are stored at FRU_STORE_COMMIT, bytes for the Azonatis area are NACKed, and all is NACKed while a write is stored, on
a wrong PEC or (log entry 64) while the core does not run; SMBUS_READ returns the bytes from the address, and the PEC.
The SPDM responder, ready: GET_VERSION begins an exchange; each other request answers unexpected out of order, a wrong
version with version mismatch, and else its response, kept for the signature, which CHALLENGE and signed
GET_MEASUREMENTS make; while the core restarts a request waits; not there, nothing changes. Message bytes are PRESUMED
from DSP0274. (17_host_management_identity R539, 17_host_management_identity R540, 17_host_management_identity R541,
17_host_management_identity R542, 17_host_management_identity R544, 17_host_management_identity R545,
17_host_management_identity R547, 17_host_management_identity R548, 17_host_management_identity R549,
17_host_management_identity Table 17-10, 17_host_management_identity Table 17-12) -/
def Obligations.TrayAndAttestation : Prop :=
  (∀ (s : State) (w : BitVec 10) (v : BitVec 16),
    let t := s.tray
    (s.start.aux = false → exec (.tsbRead w) s = .next s ∧ exec (.tsbWrite w v) s = .next s ∧
      exec (.emergWWrite v) s = .next s) ∧
    (s.start.aux = true →
      (w ≠ 0x050 → exec (.tsbRead w) s = .next { s with tray := { t with data := some (s.tsbWord w.toNat) } }) ∧
      exec (.tsbRead 0x050) s = .next { s with tray := { t with
        data := some (bfld s.faults.errSeq 0 16)
        hold := #v[bfld s.faults.errSeq 16 16, bfld s.faults.errSeq 32 16, bfld s.faults.errSeq 48 16] } } ∧
      exec (.tsbWrite 0x005 v) s = .next { s with tray := { t with data := none, alert := t.alert &&& ~~~(bfld v 0 6) } } ∧
      exec (.tsbWrite 0x006 v) s = .next { s with tray := { t with data := none, alertEn := bfld v 0 6 ||| 1 } } ∧
      (let capped := fun (u : State) => u.tray = { t with data := none, emergW := v, emergSrc := 1 } ∧ u.cells = s.cells ∧ u.mem = s.mem ∧
        (s.coreUp = true → u.power.emerg = v.zeroExtend 32) ∧ (s.coreUp = false → u.power = s.power)
       Completes (.tsbWrite 0x00A v) s capped ∧ Completes (.emergWWrite v) s capped) ∧
      (w ≠ 0x005 → w ≠ 0x006 → w ≠ 0x00A → exec (.tsbWrite w v) s =
        .next { s with tray := { t with data := none, errs := satAdd t.errs 0 16 1 } }) ∧
      (s.tsbAlertN = false ↔ ∃ k, k < 6 ∧ bit t.alert k = true ∧ bit t.alertEn k = true))) ∧
  (∀ s : State,
    (s.mgmt.running = true → s.start.coreOn = true → s.faults.chipPhase = none → Sparse.wf 0 s.tray.words = true →
      Completes (.tsbShadowRefresh) s (fun t => t = { s with tray := t.tray } ∧ t.tray.refresh = s.tray.refresh + 1 ∧
        t.tray.valid = true ∧ (∀ e ∈ s.coreWords, Sparse.get 0 t.tray.words e.1 = e.2) ∧ t.tray.fru = s.tray.fru)) ∧
    ((s.mgmt.running = false ∨ s.start.coreOn = false ∨ s.faults.chipPhase ≠ none) →
      exec (.tsbShadowRefresh) s = .next s)) ∧
  (∀ (s : State) (w : SmbusWrite) (data : List Byte) (r : SmbusRead),
    let t := s.tray
    let a : BitVec 13 := bfld w.offset 0 13
    let right := ∀ c, w.pec = some c → c = pec ([w.target ++ (0 : BitVec 1), bfld w.offset 8 8, bfld w.offset 0 8] ++ data)
    let nack := .next { s with tray := { t with smNack := true } }
    ((s.start.aux = false ∨ w.target ≠ smbusTarget) → exec (.smbusOffsetWrite w data) s = .next s) ∧
    ((s.start.aux = false ∨ r.target ≠ smbusTarget) → exec (.smbusRead r) s = .next s) ∧
    (s.start.aux = true → (t.smStore ≠ none ∨ s.mgmt.running = false) →
      (w.target = smbusTarget → exec (.smbusOffsetWrite w data) s = nack) ∧
      (r.target = smbusTarget → exec (.smbusRead r) s = nack)) ∧
    (s.start.aux = true → t.smStore = none → s.mgmt.running = true →
      (w.target = smbusTarget → ¬ right → exec (.smbusOffsetWrite w data) s = nack) ∧
      (w.target = smbusTarget → right →
        (data = [] → exec (.smbusOffsetWrite w data) s = .next { s with tray := { t with smAddr := a, smNack := false } }) ∧
        (data ≠ [] → a.toNat < 0x1000 → exec (.smbusOffsetWrite w data) s =
          .next { s with tray := { t with smAddr := a, smNack := true } }) ∧
        (data ≠ [] → 0x1000 ≤ a.toNat → data.length ≤ 32 → a.toNat + data.length ≤ 0x2000 →
          exec (.smbusOffsetWrite w data) s = .next { s with tray := { t with
            smAddr := a, smStore := some (a.toNat, data), smNack := false } })) ∧
      (r.target = smbusTarget → r.count ≤ 256 → t.smAddr.toNat + r.count ≤ 0x2000 → Completes (.smbusRead r) s (fun u =>
        let d := (List.range r.count).map (fun i => t.fruByte (t.smAddr.toNat + i))
        u.tray = { t with smData := d ++ (if r.pec then [pec ((r.target ++ (1 : BitVec 1)) :: d)] else []), smNack := false } ∧
        u.cells = s.cells))) ∧
    (∀ k d, s.mgmt.running = true → t.smStore = some (k, d) → 0x1000 ≤ k → Sparse.wf 0 t.fru = true →
      Completes (.fruStoreCommit) s (fun u => u = { s with tray := { t with fru := u.tray.fru, smStore := none } } ∧
        (∀ j < d.length, u.tray.fruByte (k + j) = d.getD j 0) ∧
        ∀ j, (j < k ∨ k + d.length ≤ j) → u.tray.fruByte j = t.fruByte j)) ∧
    ((t.smStore = none ∨ s.mgmt.running = false) → exec (.fruStoreCommit) s = .next s)) ∧
  (∀ (s : State) (q : List Byte),
    let m := s.mgmt
    let there := s.hostVisible = true ∧ s.host.hcpUp = true ∧ m.spdmWait = none
    let ready := there ∧ s.mgmt.running = true
    let cs := [(0x84, Instr.spdmGetVersion q), (0xE1, .spdmGetCapabilities q), (0xE3, .spdmNegotiateAlgorithms q),
      (0x81, .spdmGetDigests q), (0x82, .spdmGetCertificate q), (0x83, .spdmChallenge q), (0xE0, .spdmGetMeasurements q)]
    let err := fun (i : Instr) (e : Byte) => exec i s = .next { s with mgmt := { m with spdmReply := [m.spdmByte, 0x7F, e, 0] } }
    let ans := fun (P : List Byte → Mgmt → Prop) (t : State) =>
      t = { s with mgmt := t.mgmt, freeCtr := t.freeCtr } ∧ P t.mgmt.spdmReply t.mgmt
    let signed := fun (r : List Byte) (t : Mgmt) => t.spdmLog = [] ∧ ∃ body, r = body ++
      Config.identitySign (Config.sha384 (m.spdmLog ++ q ++ body))
    (¬ there → ∀ c ∈ cs, exec c.2 s = .next s) ∧
    (there → m.running = false → ∀ c ∈ cs, exec c.2 s = .next { s with mgmt := { m with
      spdmWait := some (BitVec.ofNat 8 c.1, q) } }) ∧
    (ready → ∀ c ∈ cs, (q.length < 4 ∨ (q.getD 1 0).toNat ≠ c.1) → err c.2 1) ∧
    (ready → 4 ≤ q.length →
      (q.getD 1 0 = 0x84 → Completes (.spdmGetVersion q) s (ans (fun r t => r = [0x10, 4, 0, 0, 0, 2, 0, 0x11, 0, 0x12] ∧
        t.spdmVer = 1 ∧ t.spdmAlg = false ∧ t.spdmLog = q ++ r))) ∧
      (q.getD 1 0 = 0xE1 → m.spdmVer = 0 → err (.spdmGetCapabilities q) 4) ∧
      (q.getD 1 0 = 0xE1 → m.spdmVer ≠ 0 → (q.getD 0 0 = 0x11 ∨ q.getD 0 0 = 0x12) → Completes (.spdmGetCapabilities q) s
        (ans (fun r t => t.spdmVer = (q.getD 0 0).toNat ∧ r.getD 1 0 = 0x61 ∧ field r 8 4 = 22 ∧ t.spdmLog = m.spdmLog ++ q ++ r))) ∧
      (∀ c ∈ cs.drop 2, (q.getD 1 0).toNat = c.1 → (m.spdmVer < 2 ∨ (c.1 ≠ 0xE3 ∧ m.spdmAlg = false)) → err c.2 4) ∧
      (∀ c ∈ cs.drop 2, (q.getD 1 0).toNat = c.1 → 2 ≤ m.spdmVer → (c.1 = 0xE3 ∨ m.spdmAlg = true) →
        (q.getD 0 0).toNat ≠ m.spdmVer → err c.2 0x41) ∧
      ((q.getD 0 0).toNat = m.spdmVer → 0x11 ≤ m.spdmVer →
        (q.getD 1 0 = 0xE3 → field q 8 4 / 128 % 2 = 1 → field q 12 4 / 2 % 2 = 1 → Completes (.spdmNegotiateAlgorithms q) s
          (ans (fun r t => t.spdmAlg = true ∧ r.getD 1 0 = 0x63 ∧ t.spdmLog = m.spdmLog ++ q ++ r))) ∧
        (m.spdmAlg = true →
          (q.getD 1 0 = 0x81 → Completes (.spdmGetDigests q) s (ans (fun r t =>
            r = [m.spdmByte, 0x01, 0, 1] ++ chainDigest ∧ t.spdmLog = m.spdmLog ++ q ++ r))) ∧
          (q.getD 1 0 = 0x82 → q.getD 2 0 = 0 → field q 4 2 < spdmChain.length → Completes (.spdmGetCertificate q) s (ans (fun r t =>
            r.drop 8 = (spdmChain.drop (field q 4 2)).take (field q 6 2) ∧ r.getD 1 0 = 0x02 ∧
            t.spdmLog = m.spdmLog ++ q ++ r))) ∧
          (q.getD 1 0 = 0x83 → q.getD 2 0 = 0 → Completes (.spdmChallenge q) s (ans signed)) ∧
          (q.getD 1 0 = 0xE0 → q.getD 3 0 = 0xFF → bit (q.getD 2 0) 0 = true → Completes (.spdmGetMeasurements q) s (ans signed)) ∧
          (q.getD 1 0 = 0xE0 → q.getD 3 0 = 0xFF → bit (q.getD 2 0) 0 = false → Completes (.spdmGetMeasurements q) s (ans (fun r t =>
            r.getD 1 0 = 0x60 ∧ r.getD 4 0 = 7 ∧ (r.drop 8).take s.measurements.length = s.measurements ∧
            t.spdmLog = m.spdmLog ++ q ++ r)))))))

/-- A reset command starts a reset of its level; each reset leaves its scope as the level states, completes, and
escalates. With no reset in progress, a reset command from outside, whatever the core does and the register ring
whole, starts one reset of its level and scope with cause HOST; ENGINE above 3 is ignored. A started CONTEXT_RESET
empties its slot; ENGINE_RESET empties both and idles the engine; PARTITION_RESET leaves STEP CLOSED, its counters
kept, every slot of its cells EMPTY, every latch reset, and, with no partition in FIX under a commit verdict, DRAM as
it was; CHIP_RESET resets every cell and keeps DRAM, time, NODE_ID, the log, the fuses and, but for the nonce, the
management core; its phases follow in order to PHASE 6, the darkslide closed in the first, and wait in the last while
a die is held for its report or its logic test; POWER_CYCLE_REQ sets ALERT bit 0. Each other marks its reset carried
out; RESET_DONE, for a power cycle once PHASE is 6, then removes it and counts its level, merged resets too.
RESET_ESCALATION starts the next level with cause 8. WAIT_LIMIT, STOP_HOLD_EXPIRY and ABORT_HOLD_EXPIRY start theirs
where they apply. WATCHDOG_SAMPLE notes progress, and starts a chip reset for a stack hung for WDOG_US. With no such
reset nothing changes. (08_latches_contexts_partitions R270, 15_faults_reset_recovery R477, 15_faults_reset_recovery
R478, 15_faults_reset_recovery R479, 15_faults_reset_recovery R480, 15_faults_reset_recovery R481,
15_faults_reset_recovery R482, 15_faults_reset_recovery R483, 15_faults_reset_recovery R484, 15_faults_reset_recovery
R491, 15_faults_reset_recovery R492, 19_register_map R589) -/
def Obligations.ResetLadder : Prop :=
  (∀ (s : State) (b : Requester), isCtx b = false → s.ringWhole = true → s.faults.resets = [] →
    let started := fun (r : Reset) (t : State) => t = { s with faults := t.faults } ∧
      t.faults.resets = [r] ∧ t.faults.queues = s.faults.queues ∧ fld t.faults.resetStat 29 3 = r.level.code ∧
      fld t.faults.resetStat 25 4 = r.cause.toNat
    (∀ a, Completes (.resetCmdContext b a) s (started ⟨.context, a.cell, a.slot, 0, 0, 1, s.time, false, 0⟩)) ∧
    (∀ c e, 3 < e.toNat → Completes (.resetCmdEngine b c e) s (fun t => t = { s with faults := t.faults } ∧
      t.faults.resets = [])) ∧
    (∀ c e, e.toNat ≤ 3 → Completes (.resetCmdEngine b c e) s (started ⟨.engine, c, 0, e, 0, 1, s.time, false, 0⟩)) ∧
    (∀ p, Completes (.resetCmdPartition b p) s (started ⟨.partition, 0, 0, 0, p, 1, s.time, false, 0⟩)) ∧
    Completes (.resetCmdChip b) s (started ⟨.chip, 0, 0, 0, 0, 1, s.time, false, 0⟩) ∧
    Completes (.resetCmdPowerCycle b) s (started ⟨.powerCycle, 0, 0, 0, 0, 1, s.time, false, 0⟩) ∧
    (∀ a l m n, (s.slot a).wait = .latch l m n → fld s.faults.faultCfg 48 16 ≠ 0 → Completes (.waitLimit a) s (fun t =>
      t = { s with faults := t.faults } ∧ t.faults.resets = [⟨.context, a.cell, a.slot, 0, 0, 4, s.time, false, 0⟩])) ∧
    (∀ a, s.autoReset = true → (s.slot a).state = .stopped →
      Completes (.stopHoldExpiry a) s (started ⟨.context, a.cell, a.slot, 0, 0, 2, s.time, false, 0⟩)) ∧
    (∀ p, s.autoReset = true → s.phase p = .aborted →
      Completes (.abortHoldExpiry p) s (started ⟨.partition, 0, 0, 0, p, 6, s.time, false, 0⟩))) ∧
  (∀ (s : State) (a : At), fld s.faults.faultCfg 48 16 = 0 → exec (.waitLimit a) s = .next s) ∧
  (∀ (s : State) (a : At) (p : PartId), s.autoReset = false →
    exec (.stopHoldExpiry a) s = .next s ∧ exec (.abortHoldExpiry p) s = .next s) ∧
  (∀ (s : State) (r : Reset), s.faults.resets = [r] → r.done = false → (∀ p, s.phase p = .fix → (s.stepOf p).commit = false) →
    let ran := fun (t : State) => t.faults.resets = [{ r with done := true }]
    (r.level = .context → Completes (.contextReset ⟨r.cell, r.slot⟩) s (fun t => ran t ∧
      (t.slot ⟨r.cell, r.slot⟩).state = .empty ∧ t.mem = s.mem ∧
      (∀ p, (t.stepOf p).index = (s.stepOf p).index ∧ (t.stepOf p).updateCount = (s.stepOf p).updateCount))) ∧
    (r.level = .engine → Completes (.engineReset r.cell r.eng) s (fun t => ran t ∧ t.mem = s.mem ∧
      (∀ i, ((t.cell r.cell).slot i).state = .empty) ∧
      (r.eng = 1 → (t.cell r.cell).eng.plateQ = [] ∧ (t.cell r.cell).eng.plateRun = [] ∧ (t.cell r.cell).eng.inflight = []) ∧
      (r.eng = 2 → (t.cell r.cell).eng.vecQ = [] ∧ (t.cell r.cell).eng.vecRun = none ∧ (t.cell r.cell).eng.optRun = none) ∧
      (r.eng = 3 → (t.cell r.cell).eng.moverQ = [] ∧ ∀ i, t.xfer r.cell i = none))) ∧
    (r.level = .partition → Completes (.partitionReset r.part) s (fun t => ran t ∧ t.mem.dram = s.mem.dram ∧
      t.phase r.part = .closed ∧ (t.stepOf r.part).index = (s.stepOf r.part).index ∧
      (t.stepOf r.part).updateCount = (s.stepOf r.part).updateCount ∧
      ∀ c, s.partOf c = some r.part → (∀ i, ((t.cell c).slot i).state = .empty) ∧
        (t.cell c).latches = Vector.replicate 64 Latch.reset)) ∧
    (r.level = .chip → s.faults.chipPhase = none → Completes (.chipReset) s (fun t => t.faults.chipPhase = some 0 ∧
      t.faults.resets = [r] ∧ (∀ c, t.cell c = Cell.reset) ∧ t.time = s.time ∧
      ((∀ p k, (vget (s.twin p).buffers k).state ≠ 1) → t.mem.dram = s.mem.dram) ∧
      t.route.nodeId = s.route.nodeId ∧ t.faults.log = s.faults.log ∧ t.faults.errSeq = s.faults.errSeq ∧
      t.pending = s.pending ∧ (∀ p, t.phase p = .closed) ∧ t.power.ages = s.power.ages ∧
      t.mgmt = { s.mgmt with nonce := none, spdmWait := none } ∧ t.start.status = 0 ∧
      bit t.test.stDebug 16 = false)) ∧
    (r.level = .powerCycle → Completes (.powerCycleReq) s (fun t => t.faults.resets = [r] ∧ bit t.tray.alert 0 = true ∧
      t.cells = s.cells ∧ t.mem = s.mem))) ∧
  (∀ s : State, s.faults.resets = [] → (∀ a, exec (.contextReset a) s = .next s) ∧ (∀ c e, exec (.engineReset c e) s = .next s) ∧
    (∀ p, exec (.partitionReset p) s = .next s) ∧ exec (.chipReset) s = .next s ∧ exec (.powerCycleReq) s = .next s ∧
    (∀ i, exec (.resetDone i) s = .next s ∧ exec (.resetEscalation i) s = .next s)) ∧
  (∀ (s : State) (k : Fin 8), s.faults.chipPhase = some k →
    let goes := fun (P : State → Prop) => Completes (.chipResetPhaseEnd) s (fun t => t.faults.chipPhase = some (k + 1) ∧
      t.cells = s.cells ∧ t.mem = s.mem ∧ P t)
    (k.val = 0 → goes (fun t => t.start.coreOn = false ∧ t.route.darkClosed = 0x3F ∧ t.power.rails = Rails.off)) ∧
    (k.val = 1 → goes (fun t => t.start.coreOn = true ∧ t.start.v12 = true)) ∧
    (k.val = 4 → goes (fun t => ∀ j, (t.xd j).trained = true)) ∧
    (k.val = 5 → s.memReady = true → goes (fun _ => True)) ∧
    (k.val = 5 → s.memReady = false → exec (.chipResetPhaseEnd) s = .next s) ∧
    (k.val = 2 → goes (fun t => ∀ d : DieId, bit t.start.held d.val = (bit s.start.held d.val || !(dieGood d s.freeCtr)))) ∧
    (k.val = 3 → goes (fun t => ∀ d : DieId, bit t.start.held d.val =
      (bit s.start.held d.val || !(Config.logicGood d.val s.freeCtr)))) ∧
    (k.val = 6 → goes (fun t => t = { s with faults := t.faults })) ∧
    (k.val = 7 → s.start.held ≠ 0 → exec (.chipResetPhaseEnd) s = .next s) ∧
    (k.val = 7 → s.start.held = 0 → Completes (.chipResetPhaseEnd) s (fun t => t.faults.chipPhase = none ∧ fld t.start.status 0 3 = 6 ∧
      t.cells = s.cells ∧ t.mem = s.mem ∧ ∀ r, s.faults.resets = [r] → r.level = .chip → r.done = false →
        t.faults.resets = [{ r with done := true }]))) ∧
  (∀ s : State, s.faults.chipPhase = none → exec (.chipResetPhaseEnd) s = .next s) ∧
  (∀ (s : State) (i : Nat) (r : Reset), s.faults.resets[i]? = some r →
    let cold := r.level = .powerCycle ∧ fld s.start.status 0 3 ≠ 6
    ((r.done = false ∨ cold) → exec (.resetDone i) s = .next s) ∧
    (r.done = true → ¬ cold → Completes (.resetDone i) s (fun t => t = { s with faults := t.faults } ∧
      t.faults.resets = s.faults.resets.eraseIdx i ∧
      (∀ n : Fin 5, vget t.faults.resetCnt n = vget s.faults.resetCnt n + 
        (if n.val + 1 = r.level.code then BitVec.ofNat 64 (1 + r.merged) else 0)))) ∧
    (s.faults.resets = [r] → r.level ≠ .powerCycle → Completes (.resetEscalation i) s (fun t =>
      t = { s with faults := t.faults } ∧ ∃ q, t.faults.resets = [q] ∧ q.cause = 8 ∧ q.done = false ∧
      (r.level = .context → q.level = .engine ∧ q.cell = r.cell) ∧
      (r.level = .engine → (∀ p, s.partOf r.cell = some p → q.level = .partition ∧ q.part = p) ∧
        (s.partOf r.cell = none → q.level = .chip)) ∧
      (r.level = .partition → q.level = .chip) ∧ (r.level = .chip → q.level = .powerCycle)))) ∧
  (∀ s : State, s.faults.chipPhase = none →
    ((∀ w, (s.watch w).1 = false) → Completes (.watchdogSample) s (fun t => t = { s with faults :=
      { s.faults with progress := t.faults.progress, sampled := t.faults.sampled } })) ∧
    (∀ n, s.faults.resets = [] → (∀ w, w ≠ .stack n → (s.watch w).1 = false) → (s.watch (.stack n)).1 = true →
      Sparse.wf 0 s.faults.progress = true → Sparse.wf 0 s.faults.sampled = true →
      (s.watch (.stack n)).2 + 1 = Sparse.get 0 s.faults.progress (Watched.stack n).key →
      Sparse.get 0 s.faults.sampled (Watched.stack n).key + s.faults.wdogNs ≤ s.time.toNat →
      Completes (.watchdogSample) s (fun t => bit t.tray.alert 1 = true ∧ t.cells = s.cells ∧
        t.faults.resets = [⟨.chip, 0, 0, 0, 0, 3, s.time, false, 0⟩]))) ∧
  (∀ s : State, s.faults.chipPhase ≠ none → exec (.watchdogSample) s = .next s)

/-- Loss of AUX resets everything; a start passes its phases in order; loss of 12 V loses the stacks and resets the
chip. AUX_LOSS leaves every cell reset, memory with nothing listed and AUX absent; COLD_POWER_ON does the same with
AUX present, phase 0x1 and global time 0; both keep the commands waiting, the flash banks, SVN_MIN, anchors and the
FRU store; each changes nothing where AUX already is so. INPUT_12V_FAULT turns the core rails off, loses the stacks'
contents and starts a chip reset. STARTUP_PHASE_END: phase 1 ends with a good bank running and the core on; with the
management core running, 2 with the fused map-outs and 3 with the crossing trained, where every die's report or test
is good, else a power cycle starts and the phase stays; 4 at once; 5 once every stack is trained or fenced and no
enabled port trains; 6 stays, as does any with a die held. STACK_TRAINED in the memory phase trains a stack that is
not fenced, or is below 95.0 °C; lost contents become zero, kept ones stay, and other stacks' bytes stay; outside the
phase nothing changes. (09_memory_system R286, 09_memory_system R310, 17_host_management_identity R537,
17_host_management_identity R551, 17_host_management_identity R552, 20_electrical_and_mechanical R593,
20_electrical_and_mechanical R594, 17_host_management_identity Table 17-13) -/
def Obligations.SuppliesAndStart : Prop :=
  (∀ s : State,
    let cold := fun (aux : Bool) (t : State) => t.start.aux = aux ∧ t.start.coreOn = false ∧
      (∀ c, t.cell c = Cell.reset) ∧ t.mem.dram.bytes = [] ∧ t.time = 0 ∧ t.pending = s.pending ∧
      t.mgmt.banks = s.mgmt.banks ∧ t.mgmt.svnMin = s.mgmt.svnMin ∧ t.mgmt.anchors = s.mgmt.anchors ∧
      t.tray.fru = s.tray.fru ∧
      t.faults = { State.reset.faults with resets := (s.faults.resets.filter (·.level == .powerCycle)).map (fun (r : Reset) => { r with
        done := true, start := 0 }) } ∧ fld t.start.status 0 3 = (if aux then 1 else 0)
    (s.start.aux = true → Completes (.auxLoss) s (cold false) ∧ exec (.coldPowerOn) s = .next s) ∧
    (s.start.aux = false → Completes (.coldPowerOn) s (cold true) ∧ exec (.auxLoss) s = .next s ∧ exec (.input12vFault) s = .next s ∧
      exec (.startupPhaseEnd) s = .next s) ∧
    (s.start.aux = true → s.faults.resets = [] → Completes (.input12vFault) s (fun t => t.start.v12 = false ∧
      t.start.coreOn = false ∧ (∀ n, (t.stack n).lost = true) ∧ bit t.tray.alert 1 = true ∧ t.cells = s.cells ∧
      t.faults.resets = [⟨.chip, 0, 0, 0, 0, 9, s.time, false, 0⟩])) ∧
    (s.start.aux = true → s.faults.chipPhase = none →
      let ph := fld s.start.status 0 3
      let goes := fun (n : Nat) (P : State → Prop) => Completes (.startupPhaseEnd) s (fun t => fld t.start.status 0 3 = n ∧
        t.cells = s.cells ∧ t.mem = s.mem ∧ P t)
      let stays := exec (.startupPhaseEnd) s = .next s
      let cycles := goes ph (fun t => t.start.held ≠ 0 ∧ ∃ r ∈ t.faults.resets, r.level = .powerCycle)
      let trains := ∀ k, ((s.port k).training) = false
      ((s.start.held ≠ 0 ∨ (ph ≠ 1 ∧ s.mgmt.running = false)) → stays) ∧
      (s.start.held = 0 →
        (∀ i, ph = 1 → s.mgmt.bootBank = some i → goes 2 (fun t => t.mgmt.running = true ∧ t.mgmt.active = i ∧
          t.start.coreOn = true)) ∧
        (ph = 1 → s.mgmt.bootBank = none → exec (.startupPhaseEnd) s =
          .next { s with mgmt := { s.mgmt with running := false } })) ∧
      (s.start.held = 0 → s.mgmt.running = true →
        (ph = 2 → (∀ d, dieGood d s.freeCtr = true) → goes 3 (fun t => ∀ n,
          (t.stack n).mappedOut = ((s.stack n).mappedOut ||| Config.fusedMapOut n.val))) ∧
        (ph = 2 → (∃ d, dieGood d s.freeCtr = false) → cycles) ∧
        (ph = 3 → (∀ d : DieId, Config.logicGood d.val s.freeCtr = true) → goes 4 (fun t => ∀ j, (t.xd j).trained = true)) ∧
        (ph = 3 → (∃ d : DieId, Config.logicGood d.val s.freeCtr = false) → cycles) ∧
        (ph = 4 → goes 5 (fun _ => True)) ∧
        (ph = 5 → s.memReady = true → trains → goes 6 (fun t => t.route.fullTrained = true)) ∧
        (ph = 5 → (s.memReady = false ∨ ¬ trains) → stays)) ∧
      (6 ≤ ph → stays))) ∧
  (∀ (s : State) (n : StackId) (temp : BitVec 16),
    let x := s.stack n
    let training := s.faults.chipPhase = some 5 ∨ (s.faults.chipPhase = none ∧ fld s.start.status 0 3 = 5)
    (¬ training → exec (.stackTrained n temp) s = .next s) ∧
    (training → x.fenced = true → 760 ≤ temp.toInt → Completes (.stackTrained n temp) s (fun t => t.mem = s.mem ∧
      t.stackSet = s.stackSet ∧ t.cells = s.cells)) ∧
    (training → (x.fenced = false ∨ temp.toInt < 760) → Completes (.stackTrained n temp) s (fun t =>
      (t.stack n).trained = true ∧ (t.stack n).lost = false ∧ (t.stack n).fenced = false ∧
      bit t.start.status (32 + n.val) = true ∧ t.cells = s.cells ∧ (∀ m, m ≠ n → t.stack m = s.stack m) ∧
      (x.lost = false → x.fenced = false → t.mem = s.mem) ∧
      (Sparse.wf 0 s.mem.dram.bytes = true → ∀ a,
        (stackOf a ≠ n → Sparse.get 0 t.mem.dram.bytes a = Sparse.get 0 s.mem.dram.bytes a) ∧
        (stackOf a = n → (x.lost = true ∨ x.fenced = true) → Sparse.get 0 t.mem.dram.bytes a = 0)))))

/-- The meter estimates and calibrates, the cap loop holds points within their limits, and plans only take points away
until a reset. An activity report adds its estimate to its die's windows. METER_CALIBRATION stores the measured sum as
INPUT_W and its energy, and leaves each gain between 0.80 and 1.25, windows empty, drift counted while out of 5
percent. METER_SIGNATURE_WINDOW averages each die's window and shows the phase entered. CAP_LOOP: CAP_W is the smaller
of CAP and a nonzero EMERG, bounded to 2,000 to 3,800 W, while the input is at least 11.4 V; no die aims above
MCLK_TARGET, POINT_MAX or one step up; one at TJ_LIMIT aims lower; a throttled window sets PWR_STATUS bit 0, ALERT bit
2 and stop bit 5 of unfrozen cells in EXPOSE, else no cell changes. a falling POINT switches at once.
POINT_CHANGE_DONE makes POINT the aim and VDD_PLATE its voltage. PWR_APPLY takes the shadows at once in CLOSED, else
is held. PWR_EMERG and EMERG_W show the later value. Droop stretches by 4 sixteenths and releases one at a time. A
replan outside a chip reset, each 24 hours of operation, only withdraws points, and USED_MV does not fall. AGE_CFG is
taken with every partition CLOSED. The hottest junction sensor and the least slack count. (16_power_thermal_ageing
R495, 16_power_thermal_ageing R496, 16_power_thermal_ageing R497, 16_power_thermal_ageing R498,
16_power_thermal_ageing R500, 16_power_thermal_ageing R502, 16_power_thermal_ageing R503, 16_power_thermal_ageing
R506, 16_power_thermal_ageing R507, 16_power_thermal_ageing R512, 16_power_thermal_ageing R513,
17_host_management_identity R544) -/
def Obligations.PowerAndAgeing : Prop :=
  (∀ (s : State) (d : DieId),
    let m := s.meterOf d
    let now := s.counters d
    let k := fun (i : Nat) => if d.val < 4 && i == 11 then 10 else i
    let dyn := (now.zipIdx.map (fun e => Config.weight d.val (k e.2) * (e.1 - m.counters.getD e.2 0))).sum
    let est := m.gain * dyn / 65536 / 1000 + s.leakage d
    let stk := if d.val < 4 then s.stacksPower d now m.counters else 0
    Completes (.meterActivityReport d) s (fun t => t = { s with power := { s.power with meter := t.power.meter } } ∧
      (t.meterOf d).counters = now ∧ (t.meterOf d).lastEst = est ∧ (t.meterOf d).winEst = m.winEst + est ∧
      (t.meterOf d).sumEst = m.sumEst + est + stk ∧ (t.meterOf d).winStk = m.winStk + stk ∧
      (t.meterOf d).numEst = m.numEst + 1 ∧ (t.meterOf d).winNum = m.winNum + 1 ∧ (t.meterOf d).gain = m.gain ∧
      ∀ e, e ≠ d → t.meterOf e = s.meterOf e) ∧
    (∀ v, exec (.junctionReading d v) s = .next (s.modMeter d (fun m => { m with sensors := v })) ∧
      (∀ i, (vget v i).toInt ≤ ({ m with sensors := v } : MeterDie).tj.toInt) ∧ ∃ i, ({ m with sensors := v } : MeterDie).tj = vget v i) ∧
    (∀ v, ∃ x, (∃ i, x = vget v i) ∧ (∀ i, x.toNat ≤ (vget v i).toNat) ∧ exec (.ageingReading d v) s = .next (s.modAge d
      (fun a => { a with slack := x, status := setFld a.status 0 8 (min x.toNat 255) })))) ∧
  (∀ (s : State) (mv : BitVec 16) (ma : Vector (BitVec 32) 6), Completes (.meterCalibration mv ma) s (fun t =>
    let mw := fun (d : DieId) => (vget ma d).toNat * mv.toNat / 1000
    let sum := ((allFin 6).map mw).sum
    t = { s with power := t.power } ∧ fld t.power.status 48 16 = min (sum / 1000) 65535 ∧
    t.power.energy = s.power.energy + BitVec.ofNat 64 (sum / 100) ∧ t.power.dies = s.power.dies ∧
    ∀ d,
      let m := s.meterOf d
      let ratio := mw d * 65536 / max (m.sumEst / max m.numEst 1) 1
      (t.meterOf d).gain = min (max (m.gain * min (max ratio 62259) 68813 / 65536) 52429) 81920 ∧
      (t.meterOf d).sumEst = 0 ∧ (t.meterOf d).numEst = 0 ∧
      (t.meterOf d).drift = (if ratio < 62259 ∨ 68813 < ratio then m.drift + 1 else 0) ∧
      (4 ≤ (t.meterOf d).drift → bit t.power.status (20 + d.val) = true) ∧
      ((t.meterOf d).gain = 52429 ∨ (t.meterOf d).gain = 81920 → bit t.power.status (26 + d.val) = true))) ∧
  (∀ s : State, Completes (.meterSignatureWindow) s (fun t => t = { s with power := t.power } ∧
    (∀ d, let m := s.meterOf d
      (t.meterOf d).avg = m.winEst / max m.winNum 1 ∧ (t.meterOf d).avgStk = m.winStk / max m.winNum 1 ∧
      (t.meterOf d).winEst = 0 ∧ (t.meterOf d).winNum = 0 ∧ (t.meterOf d).sumEst = m.sumEst) ∧
    (∀ d : Fin 4, fld (t.pwrDie d).status 0 16 = min (((t.meterOf (dieOfCompute d)).avg +
      (t.meterOf (dieOfCompute d)).avgStk) / 1000) 65535 ∧ (t.pwrDie d).point = (s.pwrDie d).point) ∧
    ∃ k, t.power.current = some k ∧ fld t.power.status 16 4 = k.val)) ∧
  (∀ (s : State) (mv : BitVec 16), Completes (.capLoop mv) s (fun t => t.mem = s.mem ∧ t.steps = s.steps ∧
    (∀ c, (t.cell c).store = (s.cell c).store ∧ (t.cell c).slots = (s.cell c).slots) ∧
    (let clamp := fun (w : Nat) => min (max w 2000) 3800
     let e := fld s.power.emerg 0 16
     11400 ≤ mv.toNat → fld t.power.status 32 16 =
       (if e = 0 then clamp (fld s.power.cap 0 16) else min (clamp (fld s.power.cap 0 16)) (clamp e))) ∧
    (∀ d p, (t.pwrDie d).target = some p → p.toNat ≤ (s.pwrDie d).targetPoint ∧ p.toNat ≤ (s.pwrDie d).pointMax ∧
      p.toNat ≤ (s.pwrDie d).point + 1) ∧
    (∀ d, (t.pwrDie d).target = (s.pwrDie d).target → (t.pwrDie d).point = (s.pwrDie d).point) ∧
    (∀ d p, (t.pwrDie d).target = some p → (s.pwrDie d).target ≠ some p →
      (t.pwrDie d).point = min (s.pwrDie d).point p.toNat ∧ (t.pwrDie d).moved = s.time ∧
      vget t.power.rails.plate d = s.plateNow d) ∧
    (∀ d, s.power.tjLimit ≤ s.junction d → 0 < (s.pwrDie d).point → ∃ p, (t.pwrDie d).target = some p ∧
      p.toNat < (s.pwrDie d).point) ∧
    (∀ d, (t.pwrDie d).throttleNs = (s.pwrDie d).throttleNs + (if (s.pwrDie d).throttled then 100000 else 0)) ∧
    ((∃ d, (s.pwrDie d).throttled = true) → bit t.power.status 0 = true ∧ bit t.tray.alert 2 = true ∧
      ∀ c p, s.partOf c = some p → s.phase p = .expose → (s.cell c).frozen = false → bit (t.cell c).stopBits 5 = true) ∧
    ((∀ d, (s.pwrDie d).throttled = false) → t.cells = s.cells ∧ t.tray = s.tray))) ∧
  (∀ (s : State) (d : DieId) (mv : Byte), 4 ≤ d.val → exec (.pointChangeDone d) s = .next s ∧
    exec (.droopDetect d mv) s = .next s ∧ exec (.droopRelease d) s = .next s) ∧
  (∀ (s : State) (c : Fin 4) (mv : Byte),
    let d := dieOfCompute c
    let x := s.pwrDie c
    let only := fun (t : State) (P : PwrDie → Prop) =>
      t = { s with power := { s.power with dies := t.power.dies, rails := t.power.rails } } ∧ P (t.pwrDie c) ∧
      ∀ e, e ≠ c → t.pwrDie e = s.pwrDie e
    (x.target = none → exec (.pointChangeDone d) s = .next s) ∧
    (∀ p, x.target = some p → Completes (.pointChangeDone d) s (fun t => only t (fun y => y.point = p.toNat ∧ y.target = none ∧
      y.cfg = x.cfg) ∧ t.power.rails = { s.power.rails with plate := vset s.power.rails.plate c (s.plateAt c p.toNat) })) ∧
    Completes (.droopDetect d mv) s (fun t => t.power.rails = s.power.rails ∧ only t (fun y =>
      if max (fld x.cfg 16 8) 10 < mv.toNat then
        y.droopStretch = 4 ∧ y.droops = x.droops + 1 ∧ y.point = x.point ∧ y.capStretch = x.capStretch
      else y = x)) ∧
    Completes (.droopRelease d) s (fun t => t.power.rails = s.power.rails ∧ only t (fun y =>
      if x.droopStretch = 0 then y = x
      else y.droopStretch = x.droopStretch - 1 ∧ y.point = x.point ∧ y.stretchNs = x.stretchNs + (s.time - x.since)))) ∧
  (∀ (s : State) (b : Requester), isCtx b = false → s.regsUp = true →
    (s.phase (bfld s.power.ctl 29 2).toFin = .closed → Completes (.pwrApply b) s (fun t =>
      t = { s with power := t.power } ∧ t.power.cap = s.power.capShadow ∧ t.power.applyHeld = false ∧
      ∀ d, fld (t.pwrDie d).cfg 0 4 = fld (s.pwrDie d).cfgShadow 0 4 ∧
        fld (t.pwrDie d).cfg 8 8 = fld (s.pwrDie d).cfgShadow 8 8 ∧ (t.pwrDie d).status = (s.pwrDie d).status)) ∧
    (s.phase (bfld s.power.ctl 29 2).toFin ≠ .closed → exec (.pwrApply b) s =
      .next { s with power := { s.power with applyHeld := true } }) ∧
    (∀ v : Word32, exec (.pwrEmergWrite b v) s = .next { s with
      tray := { s.tray with emergW := bfld v 0 16, emergSrc := 2 }
      power := { s.power with emerg := (bfld v 0 16 : BitVec 16).zeroExtend 32 } })) ∧
  (∀ (s : State) (b : Requester) (v : Word32), isCtx b = false → s.ringWhole = true →
    (s.allClosed = true → exec (.ageCfgWrite b v) s = .next { s with power := { s.power with ageCfg := v &&& 0xFF } }) ∧
    (s.allClosed = false → Completes (.ageCfgWrite b v) s (fun t => t = { s with faults := t.faults }))) ∧
  (∀ (s : State) (d : DieId), s.faults.chipPhase = none → (s.start.hours - (vget s.power.ages d).planned).toNat < 24 →
    exec (.ageingReplan d) s = .next s) ∧
  (∀ (s : State) (d : DieId), s.faults.chipPhase = none → 24 ≤ (s.start.hours - (vget s.power.ages d).planned).toNat →
    Completes (.ageingReplan d) s (fun t =>
    let a := vget s.power.ages d
    let y := vget t.power.ages d
    t = { s with power := t.power } ∧ fld a.status 8 8 ≤ fld y.status 8 8 ∧
    (d.val < 4 → ∀ p, bit a.lost p = true → bit y.lost p = true) ∧ (bit y.status 31 = true ↔ y.lost ≠ 0) ∧
    y.planned = s.start.hours ∧ (∀ e, e ≠ d → vget t.power.ages e = vget s.power.ages e) ∧
    ∀ c, dieOfCompute c = d → (t.pwrDie c).pointMax = y.pointMax))

/-- Self-test slices, rotations and passes; pin checks; the safelight is locked; the test access port selects its
registers. A slice of an item that can be tested, in its die's window and within the power limit, runs on its die; its
end frees the die and counts it; one without an error, of a lane within ST_LIMIT, adds its test time (in yield mode 32
ns for each interval used) to its item's, a failing one declares it, one of a paused or disabled item has no result;
outside the conditions nothing changes. A rotation of an item in service with a free spare moves its traffic and is
kept until the item's test is complete, then moves it back. The end of a pass notes the time and COVERAGE and drops
complete items. PIN_CHECK counts a land that differs from its level, and a land group whose share is out by over a
quarter above 20 percent load for 10 s, and keeps the first fault. SL_CTL is taken only with the SAFELIGHT level
unlocked, otherwise DEBUG_LOCKED or REG_WRITE_IGNORED. With AUX each TAP instruction loads its register; EXTEST, CLAMP
and HIGHZ with 12 V present, and IJTAG locked, act as BYPASS. An instruction word of an unallocated CLASS and OPCODE
takes ILLEGAL; one of an allocated opcode is not this command. (18_self_test_and_debug R556, 18_self_test_and_debug
R557, 18_self_test_and_debug R558, 18_self_test_and_debug R559, 18_self_test_and_debug R562, 18_self_test_and_debug
R563, 18_self_test_and_debug R568, 18_self_test_and_debug R570, 18_self_test_and_debug R571, 18_self_test_and_debug
R574, 06_instruction_encoding R179, 18_self_test_and_debug Table 18-4) -/
def Obligations.SelfTestAndAccess : Prop :=
  (∀ (s : State) (x : TestItem),
    let d := testDie x
    let k := testClass x
    let can := testExists x = true ∧ s.testing = true ∧ s.test.tests k = true ∧ s.testPaused x = false
    let full := s.test.rotated x || s.testsInPlace x
    let room := vget s.test.running d = none ∧ sliceWindow s.time d = true ∧
      s.test.sliceLoad + s.test.sliceMw k ≤ 1000 * fld s.power.ctl 0 8 ∧
      (full = true ∨ (s.inService x = true ∧ s.freeSpare x = none))
    (can → room → exec (.selftestSliceStart x) s =
      .next { s with test := { s.test with running := vset s.test.running d (some ⟨x, false, full, s.time, 0⟩) } }) ∧
    (¬ (can ∧ room) → exec (.selftestSliceStart x) s = .next s) ∧
    (∀ m, can → (∀ e, vget s.test.running d = some e → e.item ≠ x) → s.freeSpare x = some m →
      s.inService x = true → (∀ r ∈ s.test.rotation, r.1 ≠ x) → Completes (.selftestRotation x) s (fun t =>
        t.test.rotation = s.test.rotation ++ [(x, m)] ∧ (∀ e ∈ t.test.tested, e.1 ≠ x) ∧ t.cells = s.cells ∧ t.mem = s.mem ∧
        ∀ p l, x = .lane p l → (t.port p).lanes = (s.port p).lanes.map (fun n => if n = l.val then m else n))) ∧
    (∀ m, can → (∀ e, vget s.test.running d = some e → e.item ≠ x) → s.test.rotation = [(x, m)] →
      (s.test.complete x = false → exec (.selftestRotation x) s = .next s) ∧
      (s.test.complete x = true → Completes (.selftestRotation x) s (fun t => t.test.rotation = [] ∧ t.cells = s.cells ∧
        t.mem = s.mem ∧ ∀ p l, x = .lane p l →
          (t.port p).lanes = (s.port p).lanes.map (fun n => if n = m then l.val else n)))) ∧
    (¬ can → exec (.selftestRotation x) s = .next s)) ∧
  (∀ (s : State) (d : DieId) (errors : Nat) (eye : LaneEye),
    (vget s.test.running d = none → exec (.selftestSliceEnd d errors eye) s = .next s) ∧
    (∀ z, vget s.test.running d = some z →
      let x := z.item
      let k := testClass x
      let yields := z.full = false ∧ k ≠ 0
      let void := z.void = true ∨ s.testing = false ∨ s.test.tests k = false ∨ s.testPaused x = true
      let good := errors = 0 ∧ ∀ p l, x = .lane p l → fld s.test.limit 8 8 ≤ eye.height ∧ fld s.test.limit 0 8 ≤ eye.width
      ∀ ns, ((yields → ns = 32 * z.used) ∧ (¬ yields → ns = sliceNs k)) →
      let owing := yields ∧ s.test.testedNs x + ns < testNs k
      let freed := fun (t : State) => vget t.test.running d = none ∧ vget t.test.slices k = vget s.test.slices k + 1 ∧
        (owing → vget t.test.yields k = vget s.test.yields k + 1) ∧ (¬ owing → t.test.yields = s.test.yields)
      (void → Completes (.selftestSliceEnd d errors eye) s (fun t =>
        freed t ∧ t = { s with test := t.test } ∧ t.test.tested = s.test.tested ∧ t.test.found = s.test.found)) ∧
      (¬ void → good → Completes (.selftestSliceEnd d errors eye) s (fun t => freed t ∧
        t = { s with test := t.test } ∧ t.test.found = s.test.found ∧ t.test.testedNs x = s.test.testedNs x + ns ∧
        ∀ y, y ≠ x → t.test.testedNs y = s.test.testedNs y)) ∧
      (¬ void → ¬ good → Completes (.selftestSliceEnd d errors eye) s (fun t =>
        vget t.test.found k = vget s.test.found k + 1 ∧ vget t.test.slices k = vget s.test.slices k + 1 ∧
        t.mem = s.mem)))) ∧
  (∀ (s : State) (k : Fin 4),
    let live := s.testing = true ∧ s.test.tests k = true
    let done := s.test.tested.filter (fun e => testClass e.1 == k && decide (testNs k ≤ e.2.1))
    (live → Completes (.selftestPassEnd k) s (fun t => t = { s with test := t.test } ∧ vget t.test.last k = s.time ∧
      (k ≠ 3 → fld (vget t.test.cls k) 52 12 = 1000 * (done.filter (·.2.2)).length / testItems k % 4096) ∧
      fld (vget t.test.cls k) 0 52 = fld (vget s.test.cls k) 0 52 ∧
      ∀ e, e ∈ t.test.tested ↔ e ∈ s.test.tested ∧ e ∉ done)) ∧
    (¬ live → exec (.selftestPassEnd k) s = .next s)) ∧
  (∀ (s : State) (r : PinReading) (row col : Byte),
    let live := s.testing = true ∧ s.test.tests 3 = true
    let fails := fun (g : Bool) => Completes (.pinCheck r row col) s (fun t => t = { s with test := t.test } ∧
      vget t.test.found 3 = vget s.test.found 3 + 1 ∧
      (bit s.test.pinFault 31 = true → t.test.pinFault = s.test.pinFault) ∧
      (bit s.test.pinFault 31 = false → bit t.test.pinFault 31 = true ∧ bit t.test.pinFault 30 = g ∧
        fld t.test.pinFault 8 8 = row.toNat ∧ fld t.test.pinFault 0 8 = col.toNat))
    (¬ live → exec (.pinCheck r row col) s = .next s) ∧
    (∀ driven pad, live → r = .land driven pad → (driven = pad → exec (.pinCheck r row col) s = .next s) ∧
      (driven ≠ pad → fails false)) ∧
    (∀ gnd i share load, live → r = .group gnd i share load →
      let f := landShare gnd i
      let out := 760 < load ∧ f < 4 * max (share - f) (f - share)
      let k : Fin 32 := Fin.ofNat 32 (16 * bnat gnd + i.val)
      let set := fun (v : Option (Word64 × Bool)) => { s with test := { s.test with pinOut := vset s.test.pinOut k v } }
      (¬ out → exec (.pinCheck r row col) s = .next (set none)) ∧
      (out → vget s.test.pinOut k = none → exec (.pinCheck r row col) s = .next (set (some (s.time, false)))) ∧
      (∀ t0 told, out → vget s.test.pinOut k = some (t0, told) →
        ((told = true ∨ s.time.toNat < t0.toNat + 10000000000) → exec (.pinCheck r row col) s = .next s) ∧
        (told = false → t0.toNat + 10000000000 ≤ s.time.toNat → fails true)))) ∧
  (∀ (s : State) (b : Requester) (v : Word32), isCtx b = false → s.regsUp = true →
    (s.test.unlocked 0 = true → exec (.slCtlWrite b v) s = .next { s with test := { s.test with
      slCtl := v &&& 0xFFFC0000, slLat := if bit (v &&& 0xFFFC0000) 31 then Config.slLatency (v &&& 0xFFFC0000) else 0 } }) ∧
    (s.test.unlocked 0 = false → Completes (.slCtlWrite b v) s (fun t => t = { s with faults := t.faults }))) ∧
  (∀ (s : State) (data : List Bool),
    let loads := fun (ir : Byte) (dr : List Bool) =>
      { s with test := { s.test with tapIr := ir, tapDr := dr, ijtag := s.test.ijtag && ir == 0x20 } }
    let idcode := (List.range 32).map (bit (0x157049CB : Word32) ·)
    (s.start.aux = true →
      exec .tapIdcode s = .next (loads 0x01 idcode) ∧ exec .tapReset s = .next (loads 0x01 idcode) ∧
      exec .tapBypass s = .next (loads 0xFF [false]) ∧
      Completes (.tapSamplePreload data) s (fun t => t.test.tapIr = 0x02 ∧ t.test.boundary = data ∧
        t.test.tapDr.length = data.length ∧ t.cells = s.cells) ∧
      (s.start.v12 = true → exec .tapExtest s = .next (loads 0xFF [false]) ∧
        exec .tapClamp s = .next (loads 0xFF [false]) ∧ exec .tapHighz s = .next (loads 0xFF [false])) ∧
      (s.start.v12 = false → exec .tapClamp s = .next (loads 0x04 [false]) ∧
        exec .tapHighz s = .next (loads 0x05 [false]) ∧
        Completes (.tapExtest) s (fun t => t.test.tapIr = 0x03 ∧ t.test.tapDr.length = s.test.boundary.length ∧
          t.test.boundary = s.test.boundary ∧ t.cells = s.cells)) ∧
      (s.test.unlocked 2 = true → Completes (.tapIjtag) s (fun t => t.test.tapIr = 0x20 ∧ t.test.ijtag = true ∧
        t = { s with test := t.test })) ∧
      (s.test.unlocked 2 = false → Completes (.tapIjtag) s (fun t => t.test.tapIr = 0xFF ∧ t.test.ijtag = false ∧
        t = { s with test := t.test, faults := t.faults }))) ∧
    (s.start.aux = false → ∀ i ∈ [Instr.tapIdcode, .tapSamplePreload data, .tapIjtag, .tapBypass, .tapReset],
      exec i s = .next s)) ∧
  (∀ (s : State) (a : At) (w : Word64),
    let cls : BitVec 4 := bfld w 60 4
    let op : Byte := bfld w 52 8
    ((s.cell a.cell).issues a.slot = true → s.fetchFault a = none → opcodeAllocated cls op = false →
      exec (.illegalOpcode a w) s = .next (s.coreFault a cls op 0x01 0)) ∧
    (((s.cell a.cell).issues a.slot = false ∨ opcodeAllocated cls op = true) → exec (.illegalOpcode a w) s = .next s))

/-- p0 always reads true, and an instruction that names it as a destination takes RESERVED_FIELD. Predicate 0 reads
true whatever the predicate registers hold, as an operand and as the guard of an instruction. Each instruction with a
predicate destination (sc.cmp, sc.pop, sc.cmpi, sc.fcmp) that names p0 there takes RESERVED_FIELD (code 0x02 in
CORE_FAULT) at Decode, in every context that has fetched it; only one whose own predicate is false, and whose reserved
bits are zero, retires without it (R197). (06_instruction_encoding R172) -/
def Obligations.PredicateZeroReadsTrue : Prop :=
  (∀ ps : BitVec 8, predVal ps 0 = true ∧ predTrue ⟨false, 0⟩ ps = true) ∧
  (∀ (s : State) (a : At) (p : Pred) (f : FmtS), f.pd = 0 → (s.cell a.cell).issues a.slot = true → s.fetchFault a = none →
    ((predReserved p = true ∨ predTrue p (s.slot a).ctx.p = true) →
      exec (.scCmp a p f) s = .next (s.coreFault a 1 0x0F 0x02 0)) ∧
    (f.rsv = 0 → predReserved p = false → predTrue p (s.slot a).ctx.p = false → exec (.scCmp a p f) s = .next (s.after a id))) ∧
  (∀ (s : State) (a : At) (p : Pred) (f : FmtS), f.pd = 0 → (s.cell a.cell).issues a.slot = true → s.fetchFault a = none →
    ((predReserved p = true ∨ predTrue p (s.slot a).ctx.p = true) →
      exec (.scPop a p f) s = .next (s.coreFault a 1 0x10 0x02 0)) ∧
    (f.rsv = 0 → predReserved p = false → predTrue p (s.slot a).ctx.p = false → exec (.scPop a p f) s = .next (s.after a id))) ∧
  (∀ (s : State) (a : At) (p : Pred) (f : FmtSI), f.pd = 0 → (s.cell a.cell).issues a.slot = true → s.fetchFault a = none →
    ((predReserved p = true ∨ predTrue p (s.slot a).ctx.p = true) →
      exec (.scCmpi a p f) s = .next (s.coreFault a 1 0x24 0x02 0)) ∧
    (predReserved p = false → predTrue p (s.slot a).ctx.p = false → exec (.scCmpi a p f) s = .next (s.after a id))) ∧
  (∀ (s : State) (a : At) (p : Pred) (f : FmtS), f.pd = 0 → (s.cell a.cell).issues a.slot = true → s.fetchFault a = none →
    ((predReserved p = true ∨ predTrue p (s.slot a).ctx.p = true) →
      exec (.scFcmp a p f) s = .next (s.coreFault a 1 0x38 0x02 0)) ∧
    (f.rsv = 0 → predReserved p = false → predTrue p (s.slot a).ctx.p = false → exec (.scFcmp a p f) s = .next (s.after a id)))

/-- A step runs the command at the front of the queue; with nothing queued one nanosecond passes. For every command
and state, a step of the state with that command at the front of its queue is the command's effect on the state with
the rest of the queue. On an empty queue (the model's choice, log entry 2): without AUX nothing changes; with it
global time advances by one, or by none where a slewed tick is omitted, each die's copy follows it to within 2 ns and
never goes back, and a due vector 0 message goes out; the counters of elapsed time (the hours of operation, HOLD_NS,
the clocks, held, idle, stalled and spinning cycles of each cell, and test intervals used) may count, TSB_D is
released, and nothing else changes. (01_package_architecture R28, 11_torus_fabric R383, 08_latches_contexts_partitions
R256) -/
def Obligations.StepRunsFront : Prop :=
  (∀ (c : Instr) (rest : List Instr) (s : State),
    step { s with pending := c :: rest } = exec c { s with pending := rest }) ∧
  (∀ s : State, s.pending = [] →
    (s.start.aux = false → step s = .next s) ∧
    (s.start.aux = true → ∃ t, step s = .next t ∧
      t.time = (if s.route.omitTick then s.time else s.time + 1) ∧ t.route.omitTick = false ∧
      t.start.onNs = (if s.start.coreOn then s.start.onNs + 1 else s.start.onNs) ∧
      t = { s with
            time := t.time, copies := t.copies, start := { s.start with onNs := t.start.onNs }, route := { s.route with omitTick := false }
            cells := t.cells, twins := t.twins, host := t.host, tray := { s.tray with data := none }
            test := { s.test with running := t.test.running }, power := { s.power with dies := t.power.dies } } ∧
      (∀ d, t.pwrDie d = { s.pwrDie d with mclkAt := (t.pwrDie d).mclkAt, cclkAt := (t.pwrDie d).cclkAt }) ∧
      (∀ d, (vget t.test.running d).map (fun z => { z with used := 0 }) =
        (vget s.test.running d).map (fun z => { z with used := 0 })) ∧
      vget t.copies 5 = t.time ∧
      (∀ d, d ≠ 5 → s.time.toNat + 8 < 2 ^ 64 → (vget s.copies d).toNat ≤ (vget t.copies d).toNat ∧
        t.time.toNat ≤ (vget t.copies d).toNat + 2 ∧ (vget t.copies d).toNat ≤ max (vget s.copies d).toNat (t.time.toNat + 2)) ∧
      (s.start.coreOn = false → t.cells = s.cells ∧ t.twins = s.twins ∧ t.power = s.power) ∧
      (∀ c, let r := (t.cell c).regs
        t.cell c = { s.cell c with regs := { (s.cell c).regs with
          plateHold := r.plateHold, plateIdle := r.plateIdle, coreStall := r.coreStall, latchSpin := r.latchSpin } } ∧
        ((s.cell c).regs.stall = 0 → r.coreStall = (s.cell c).regs.coreStall) ∧
        ((s.cell c).running = none → r.latchSpin = (s.cell c).regs.latchSpin)) ∧
      (s.start.coreOn = true → ∀ p, t.twin p =
        (if s.writesHeld p then { s.twin p with holdNs := (s.twin p).holdNs + 1 } else s.twin p)) ∧
      (s.host.vec0Due = false → t.host = s.host)))

/-- The word of every instruction decodes to it, every allocated word is the word of what it decodes to, and no other
word decodes. For every context: a word decodes to an instruction exactly where its CLASS and OPCODE are allocated;
the instruction then runs in that context with the predicate, CLASS and OPCODE the word holds, and its own word is
that word, so no bit is dropped. The word of any instruction, with every operand and predicate, decodes to that
instruction (a register read whose data arrives uncorrectable is the same word as one that arrives whole, and an
operand that names the other vx.rmode gives the word of that other one). Three words written out from Tables 6-2 and
6-4 decode to the instructions they stand for, and the word of all ones to none. (06_instruction_encoding R175,
06_instruction_encoding R176, 06_instruction_encoding R177, 06_instruction_encoding R178, 06_instruction_encoding
Table 6-4) -/
def Obligations.InstructionWords : Prop :=
  (∀ (a : At) (w : Word64),
    (decodeWord a w = none ↔ opcodeAllocated (wordClass w) (wordOp w) = false) ∧
    ∀ i, decodeWord a w = some i → encodeWord i = some w ∧ ∃ u, issuedOf i = some u ∧
      u.at_ = a ∧ u.p = wordPred w ∧ u.cls = wordClass w ∧ u.op = wordOp w) ∧
  (∀ (i : Instr) (u : Issued) (w : Word64), issuedOf i = some u → encodeWord i = some w →
    (∀ a p f, i ≠ .scRdreg a p ⟨f, true⟩) → decodeWord u.at_ w = some i) ∧
  (∀ a : At,
    decodeWord a 0x1010190A00000000 = some (.scAdd a ⟨false, 0⟩
      { sd := 3, sa := 4, sb := 5, sc := 0, pd := 0, rsv := 0, fn := 0 }) ∧
    decodeWord a 0x401A241C90000000 = some (.dmGet a ⟨true, 2⟩
      { q := 1, t := 2, latch := 3, len := 1, so := 4, sov := 1, fn := 0 }) ∧
    decodeWord a 0x2020100100006400 = some (.mxDrain a ⟨false, 0⟩
      { ta := 1, tb := 0, base := 0x10, count := 0, epiv := 1, epi := 2, rm := 1, flags := 0 }) ∧
    decodeWord a 0xFFFFFFFFFFFFFFFF = none)

/-- Every step keeps the package's stacked memory in its one canonical form. If the stacked memory is in canonical
form (byte addresses strictly rising, no byte listed that an unlisted one reads as, and the same of the words whose
stored bits differ from their code), and a step of the package answers a next state, whatever command stands at the
front of its queue, then the memory of that state is in canonical form. Equal contents are therefore equal data after
any run. That the form is the model's representation is log entry 4. (09_memory_system R286, 09_memory_system R298,
09_memory_system R301) -/
def Obligations.MemoryKeepsForm : Prop :=
  ∀ s t : State, s.memForm → step s = .next t → t.memForm

/-- Every step keeps each cell's store, vat and v registers in canonical form and p0 true. If in every cell the cell
store, the vat and the v registers of both contexts are in canonical form and predicate register 0 of both contexts
holds true, and a step of the package answers a next state, then the same holds in that state: no instruction, engine
event, transfer, frame, fault, context switch, start or reset ever leaves p0 false or a cell memory out of form.
(06_instruction_encoding R172, 09_memory_system R298, 08_latches_contexts_partitions R259) -/
def Obligations.CellsKeepForm : Prop :=
  ∀ s t : State, s.cellForm → step s = .next t → t.cellForm

/-- No step moves global time backwards, except where AUX is lost or the package is powered on cold. Where the command
at the front of the queue is neither AUX_LOSS nor COLD_POWER_ON (the counter lives in the AUX island and runs while
AUX is present) and the counter is not within 2^28 ns of its end, a step that answers a next state leaves global time
at its value or later. Slewing adds or omits ticks and the first lock steps forward only, chip resets and every other
command keep it, and no other effect writes it. (11_torus_fabric R383, 01_package_architecture R28) -/
def Obligations.TimeNeverDecreases : Prop :=
  ∀ s t : State, s.time.toNat + 2 ^ 28 < 2 ^ 64 → s.pending.head? ≠ some .auxLoss → s.pending.head? ≠ some .coldPowerOn →
    step s = .next t → s.time.toNat ≤ t.time.toNat

/-- The state after reset meets the invariants, with nothing queued and global time 0. State.reset has its stacked
memory and every cell in form; its queue is empty, time is 0, every slot of every cell is EMPTY, no partition's step
is open, partition 0 has every cell, and STARTUP_STATUS reads COLD with phase 0x1. Cell stores, vats and stacked
memory reading zero at reset is the model's choice (log entry 4). (17_host_management_identity R551,
06_instruction_encoding R172, 08_latches_contexts_partitions R272) -/
def Obligations.ResetMeetsInvariants : Prop :=
  State.reset.memForm ∧ State.reset.cellForm ∧ State.reset.pending = [] ∧ State.reset.time = 0 ∧
  (∀ (c : CellId) (i : SlotId), (State.reset.slot ⟨c, i⟩).state = .empty) ∧
  (∀ p : PartId, (State.reset.stepOf p).phase = .closed) ∧ (∀ c : CellId, State.reset.partOf c = some 0) ∧
  bit State.reset.start.status 9 = true ∧ fld State.reset.start.status 0 3 = 1
end

