-- ==== Sys2Proof/Laws/Bits.lean ====
section
/-!
SUPPORT. Fields of words: what a field read finds after a field write.
-/
namespace Sys2Proof.Machine

theorem testBit_fld {n : Nat} (w : BitVec n) (lo len i : Nat) :
    (fld w lo len).testBit i = (decide (i < len) && w.getLsbD (lo + i)) := by
  simp [fld, Nat.testBit_mod_two_pow, Nat.testBit_shiftRight, BitVec.testBit_toNat]

theorem getLsbD_setFld {n : Nat} (w : BitVec n) (lo len v i : Nat) (hi : i < n) :
    (setFld w lo len v).getLsbD i = if lo ≤ i ∧ i < lo + len then v.testBit (i - lo) else w.getLsbD i := by
  have e : (mask n lo len).getLsbD i = (decide (lo ≤ i ∧ i < lo + len)) := by
    simp only [mask, BitVec.getLsbD_ofNat, hi, decide_true, Bool.true_and, Nat.testBit_shiftLeft,
      Nat.testBit_two_pow_sub_one]
    by_cases h : lo ≤ i <;> simp [h]
    omega
  have e2 : (BitVec.ofNat n ((v % 2 ^ len) <<< lo)).getLsbD i =
      (decide (lo ≤ i ∧ i < lo + len) && v.testBit (i - lo)) := by
    simp only [BitVec.getLsbD_ofNat, hi, decide_true, Bool.true_and, Nat.testBit_shiftLeft,
      Nat.testBit_mod_two_pow]
    by_cases h : lo ≤ i <;> by_cases h2 : i < lo + len <;> simp [h, h2]
    · intro h3; omega
    · intro h3; omega
  simp only [setFld, BitVec.getLsbD_or, BitVec.getLsbD_and, BitVec.getLsbD_not, hi, decide_true, Bool.true_and, e, e2]
  by_cases h : lo ≤ i ∧ i < lo + len <;> simp [h]

/-- A field just written reads as the value written. -/
theorem fld_setFld_self {n : Nat} (w : BitVec n) (lo len v : Nat) (h : lo + len ≤ n) :
    fld (setFld w lo len v) lo len = v % 2 ^ len := by
  apply Nat.eq_of_testBit_eq
  intro i
  rw [testBit_fld, Nat.testBit_mod_two_pow]
  by_cases hi : i < len
  · rw [getLsbD_setFld _ _ _ _ _ (by omega)]
    simp [hi]
  · simp [hi]

/-- A field apart from the one written reads as before. -/
theorem fld_setFld_ne {n : Nat} (w : BitVec n) (lo len v lo' len' : Nat) (h : lo' + len' ≤ lo ∨ lo + len ≤ lo') :
    fld (setFld w lo len v) lo' len' = fld w lo' len' := by
  apply Nat.eq_of_testBit_eq
  intro i
  rw [testBit_fld, testBit_fld]
  by_cases hi : i < len'
  · by_cases hn : lo' + i < n
    · rw [getLsbD_setFld _ _ _ _ _ hn, if_neg (by omega)]
    · simp [BitVec.getLsbD_of_ge, Nat.le_of_not_lt hn]
  · simp [hi]

theorem bit_setFld_ne {n : Nat} (w : BitVec n) (lo len v i : Nat) (h : i < lo ∨ lo + len ≤ i) :
    bit (setFld w lo len v) i = bit w i := by
  unfold bit
  by_cases hn : i < n
  · rw [getLsbD_setFld _ _ _ _ _ hn, if_neg (by omega)]
  · simp [BitVec.getLsbD_of_ge, Nat.le_of_not_lt hn]

theorem bit_setBit_self {n : Nat} (w : BitVec n) (i : Nat) (b : Bool) (h : i < n) : bit (setBit w i b) i = b := by
  unfold bit setBit
  rw [getLsbD_setFld _ _ _ _ _ h]
  cases b <;> simp

theorem bit_setBit_ne {n : Nat} (w : BitVec n) (i j : Nat) (b : Bool) (h : i ≠ j) : bit (setBit w i b) j = bit w j :=
  bit_setFld_ne _ _ _ _ _ (by omega)

theorem fld_setBit_ne {n : Nat} (w : BitVec n) (i lo len : Nat) (b : Bool) (h : lo + len ≤ i ∨ i + 1 ≤ lo) :
    fld (setBit w i b) lo len = fld w lo len := fld_setFld_ne _ _ _ _ _ _ h

/-- The word of a field has the field's number. -/
theorem bfld_toNat {n : Nat} (w : BitVec n) (lo len : Nat) : (bfld w lo len).toNat = fld w lo len := by
  simp [bfld, fld, BitVec.extractLsb'_toNat]

theorem fld_lt {n : Nat} (w : BitVec n) (lo len : Nat) : fld w lo len < 2 ^ len := Nat.mod_lt _ (Nat.two_pow_pos _)

/-- A saturating field after an addition. -/
theorem fld_satAdd {n : Nat} (w : BitVec n) (lo len k : Nat) (h : lo + len ≤ n) :
    fld (satAdd w lo len k) lo len = min (fld w lo len + k) (2 ^ len - 1) := by
  rw [satAdd, fld_setFld_self _ _ _ _ h]
  apply Nat.mod_eq_of_lt
  have := Nat.two_pow_pos len
  omega

end Sys2Proof.Machine
end

