-- ==== Sys2Proof/Laws/Dram.lean ====
section
/-!
SUPPORT. When the regulators let a command through, which attempts of a burst fail, and when the register ring reaches
every die.
-/
namespace Sys2Proof.Machine

/-- A burst of a partition whose bucket is disabled is not held. -/
theorem bucket_free {s : State} {p : PartId} {d : Nat}
    (h : bit (vget (s.part p).stack (stackOf d)) 63 = false) : s.bucket p d = some s := by
  simp [State.bucket, h]

/-- Nor is a burst to a stack that is not at hot level. -/
theorem thermal_free {s : State} {coll : Bool} {d : Nat}
    (h : (s.stack (stackOf d)).hot = false) : s.thermal coll d = some s := by
  simp [State.thermal, h]

/-- Where nothing is regulated and nothing paid for before, every burst is admitted and nothing charged. -/
theorem admit_free {t : State} (ht : t.unhindered) : ∀ l paid,
    State.admitBursts l t [] paid true = (t.admitted, true)
  | [], paid => by simp [State.admitBursts, State.admitted, ht.2.1]
  | (none, _, _) :: rest, paid => by simp [State.admitBursts, admit_free ht rest]
  | (some p, coll, d) :: rest, paid => by
    simp [State.admitBursts, State.payBurst, bucket_free ((ht.1 (stackOf d)).2.2 p), thermal_free (ht.1 (stackOf d)).2.1,
      admit_free ht rest]

/-- Whether a list of joins leads on from a die at every step. -/
def chained : DieId → List JoinId → Bool
  | _, [] => true
  | a, k :: rest =>
    match across k a with
    | some b => chained b rest
    | none => false

/-- With every join enabled each pair of dies has a path, and each path leads on. -/
theorem paths_whole : ∀ a b : DieId, a ≠ b →
    pathsOf (allFin 8) a b ≠ [] ∧ ∀ l ∈ pathsOf (allFin 8) a b, chained a l = true := by decide +kernel

/-- Where no die runs a slice nothing yields (R561). -/
theorem yields_free {s : State} (h : ∀ d, vget s.test.running d = none) (f : TestItem → Bool) (c : Option Word64) :
    s.yields f c = false := by
  have : s.test.running.toList.any (fun r => r.any (fun z => f z.item && z.uses c (s.time.toNat / 32 * 32))) = false := by
    simp only [List.any_eq_false, Vector.mem_toList_iff]
    intro r hr
    obtain ⟨i, hi, rfl⟩ := Vector.mem_iff_getElem.mp hr
    have := h ⟨i, hi⟩
    simp only [vget] at this
    simp_all
  simp [State.yields, this]

/-- Over crossings that carry traffic a path passes now. -/
theorem pathGoes_free {s : State} (h : s.crosses) : ∀ (l : List JoinId) (a : DieId), chained a l = true → s.pathGoes a l = true
  | [], _, _ => rfl
  | k :: rest, a, hl => by
    have hd : s.dirHolds k (wayOf k a) = false := by simp [State.dirHolds, (h.1 k).2, yields_free h.2]
    cases hb : across k a with
    | none => simp [chained, hb] at hl
    | some b => simp [State.pathGoes, hd, hb, pathGoes_free h rest b (by simpa [chained, hb] using hl)]

/-- Over crossings that carry traffic every transfer between dies passes now. -/
theorem pathOpen_free {s : State} (h : s.crosses) (a b : DieId) (k : Nat) : s.pathOpen a b k = true := by
  have on : s.joinsOn = allFin 8 := by
    have : ∀ j : JoinId, (!((if j = 0 then s.xd 0 else s.xd j).off)) = true := fun j => by
      by_cases e : j = 0
      · subst e; simp [(h.1 0).1]
      · simp [e, (h.1 j).1]
    simp only [State.joinsOn, State.enabledJoins]
    exact List.filter_eq_self.mpr (fun j _ => this j)
  have late : s.joinsLate = allFin 8 := by
    simp only [State.joinsLate]
    exact List.filter_eq_self.mpr (fun j _ => by simp [(h.1 j).1])
  by_cases e : a = b
  · simp [State.pathOpen, State.diePath, pathOver, e, State.pathGoes]
  · obtain ⟨hne, hc⟩ := paths_whole a b e
    have lt : k % (pathsOf (allFin 8) a b).length < (pathsOf (allFin 8) a b).length :=
      Nat.mod_lt _ (List.length_pos_iff.mpr hne)
    have at_ : pathOver (allFin 8) a b k = some ((pathsOf (allFin 8) a b)[k % (pathsOf (allFin 8) a b).length]) := by
      simp [pathOver, e, List.getElem?_eq_getElem lt]
    simp [State.pathOpen, State.diePath, on, late, at_, pathGoes_free h _ a (hc _ (List.getElem_mem lt))]

/-- Then every burst can be moved. -/
theorem movable_free {s : State} (h : s.unhindered) (a : DieId) (l : List (Option PartId × Bool × Nat)) :
    s.movable a l = true := by
  simp only [State.movable, List.all_eq_true]
  intro b _
  simp [State.queuedAt, (h.1 _).1, State.burstHolds, yields_free h.2.2.2.2, State.pathBoth, pathOpen_free h.2.2.2]

/-- A gated command then has its effect at once. -/
theorem gated_free {s t : State} {f : State → Res} {a : DieId} (h : f s = .next t) (hs : s.unhindered) (ht : t.unhindered) :
    s.gated a f = .next t.admitted := by
  simp [State.gated, h, movable_free hs, State.letBursts, ht.2.1, admit_free ht]

/-- An attempt whose words arrive whole fails where its CRC does not (R302). -/
theorem crcFails_whole (m : ProtMem) (line : Nat) (c : BitVec 16) : m.crcFails line ⟨[], c⟩ = decide (c ≠ 0) := by
  simp only [ProtMem.crcFails, ProtMem.flipBits, List.foldl_nil, List.isEmpty_nil, Bool.true_and]
  by_cases h : c = 0
  · simp [h]
  · have : ∀ k : BitVec 16, (k != k ^^^ c) = true := fun k => by
      simp only [bne_iff_ne, ne_eq]
      intro e
      exact h (by have := congrArg (k ^^^ ·) e; simpa [← BitVec.xor_assoc] using this.symm)
    simp [this, h]

/-- The joins of a ring with at most one disabled. -/
theorem joins_whole : ∀ j : BitVec 6, 5 ≤ popCount j → j ∈ [63#6, 62#6, 61#6, 59#6, 55#6, 47#6, 31#6] := by decide

/-- With at most one join disabled, one of the two directions between any dies is whole. -/
theorem ring_whole : ∀ j ∈ [63#6, 62#6, 61#6, 59#6, 55#6, 47#6, 31#6], ∀ a b : DieId,
    ((ringHops a b).all (fun k => bit j k.val) || (ringHops b a).all (fun k => bit j k.val)) = true := by decide

/-- A whole ring reaches every die (R25). -/
theorem ringReaches_whole {s : State} (h : s.ringWhole = true) (r : Requester) (d : DieId) : s.ringReaches r d = true := by
  have w := ring_whole _ (joins_whole _ (by simpa [State.ringWhole] using h)) (entryDie r) d
  simp only [State.ringReaches, Routing.ringWay]
  split
  · rfl
  · rename_i h1
    split
    · rfl
    · rename_i h2
      simp only [Bool.not_eq_true] at h1 h2
      simp only [h2, Bool.or_false, Bool.not_false, Bool.true_or, Bool.and_true] at w h1
      simp [w] at h1

end Sys2Proof.Machine
end

