-- ==== Sys2Proof/Laws/State.lean ====
section
/-!
SUPPORT. What each update of the state leaves: one lemma a field and update, and what the changed entry reads as.
-/
namespace Sys2Proof.Machine

/-! ### Arrays -/

@[simp] theorem vget_vset_self {α : Type} {n : Nat} (v : Vector α n) (i : Fin n) (x : α) : vget (vset v i x) i = x := by
  simp [vget, vset]

theorem vget_vset_ne {α : Type} {n : Nat} (v : Vector α n) (i j : Fin n) (x : α) (h : i ≠ j) :
    vget (vset v i x) j = vget v j := by
  have h' : i.val ≠ j.val := fun e => h (Fin.ext e)
  simp [vget, vset, Vector.getElem_set, h']

@[simp] theorem vget_vmod_self {α : Type} {n : Nat} (v : Vector α n) (i : Fin n) (f : α → α) :
    vget (vmod v i f) i = f (vget v i) := by simp [vmod]

theorem vget_vmod_ne {α : Type} {n : Nat} (v : Vector α n) (i j : Fin n) (f : α → α) (h : i ≠ j) :
    vget (vmod v i f) j = vget v j := by simp [vmod, vget_vset_ne _ _ _ _ h]

@[simp] theorem vset_vget_self {α : Type} {n : Nat} (v : Vector α n) (i : Fin n) : vset v i (vget v i) = v := by
  apply Vector.ext
  intro j hj
  simp only [vset, vget, Vector.getElem_set]
  split
  · next h => subst h; rfl
  · rfl

@[simp] theorem vset_vset_self {α : Type} {n : Nat} (v : Vector α n) (i : Fin n) (x y : α) :
    vset (vset v i x) i y = vset v i y := by
  apply Vector.ext
  intro j hj
  simp only [vset, Vector.getElem_set]
  split <;> rfl

/-! ### The changed entry -/

@[simp] theorem setCell_cell_self (s : State) (c : CellId) (x : Cell) : (s.setCell c x).cell c = x := by
  simp [State.setCell, State.cell]

theorem setCell_cell_ne (s : State) (c d : CellId) (x : Cell) (h : c ≠ d) : (s.setCell c x).cell d = s.cell d := by
  simp [State.setCell, State.cell, vget_vset_ne _ _ _ _ h]

@[simp] theorem modCell_cell_self (s : State) (c : CellId) (f : Cell → Cell) : (s.modCell c f).cell c = f (s.cell c) := by
  simp [State.modCell]

theorem modCell_cell_ne (s : State) (c d : CellId) (f : Cell → Cell) (h : c ≠ d) :
    (s.modCell c f).cell d = s.cell d := by simp [State.modCell, setCell_cell_ne _ _ _ _ h]

@[simp] theorem modCell_modCell (s : State) (c : CellId) (f g : Cell → Cell) :
    (s.modCell c f).modCell c g = s.modCell c (fun x => g (f x)) := by
  simp [State.modCell, State.setCell, State.cell]

@[simp] theorem modSlot_slot_self (x : Cell) (i : SlotId) (f : Slot → Slot) : (x.modSlot i f).slot i = f (x.slot i) := by
  simp [Cell.modSlot, Cell.slot]

theorem modSlot_slot_ne (x : Cell) (i j : SlotId) (f : Slot → Slot) (h : i ≠ j) : (x.modSlot i f).slot j = x.slot j := by
  simp [Cell.modSlot, Cell.slot, vget_vmod_ne _ _ _ _ h]

@[simp] theorem setLatch_latch_self (x : Cell) (l : BitVec 6) (v : Latch) : (x.setLatch l v).latch l = v := by
  simp [Cell.setLatch, Cell.latch]

theorem setLatch_latch_ne (x : Cell) (l k : BitVec 6) (v : Latch) (h : l ≠ k) : (x.setLatch l v).latch k = x.latch k := by
  have h' : l.toFin ≠ k.toFin := fun e => h (BitVec.eq_of_toFin_eq e)
  simp [Cell.setLatch, Cell.latch, vget_vset_ne _ _ _ _ h']

@[simp] theorem modStep_stepOf_self (s : State) (p : PartId) (f : Step → Step) : (s.modStep p f).stepOf p = f (s.stepOf p) := by
  simp [State.modStep, State.stepOf]

theorem modStep_stepOf_ne (s : State) (p q : PartId) (f : Step → Step) (h : p ≠ q) :
    (s.modStep p f).stepOf q = s.stepOf q := by simp [State.modStep, State.stepOf, vget_vmod_ne _ _ _ _ h]

@[simp] theorem modPart_part_self (s : State) (p : PartId) (f : Part → Part) : (s.modPart p f).part p = f (s.part p) := by
  simp [State.modPart, State.part]

theorem modPart_part_ne (s : State) (p q : PartId) (f : Part → Part) (h : p ≠ q) : (s.modPart p f).part q = s.part q := by
  simp [State.modPart, State.part, vget_vmod_ne _ _ _ _ h]

@[simp] theorem modStack_stack_self (s : State) (n : StackId) (f : Stack → Stack) :
    (s.modStack n f).stack n = f (s.stack n) := by simp [State.modStack, State.stack]

theorem modStack_stack_ne (s : State) (n m : StackId) (f : Stack → Stack) (h : n ≠ m) :
    (s.modStack n f).stack m = s.stack m := by simp [State.modStack, State.stack, vget_vmod_ne _ _ _ _ h]

@[simp] theorem modGroup_group_self (s : State) (g : Fin 256) (f : GradGroup → GradGroup) :
    (s.modGroup g f).group g = f (s.group g) := by simp [State.modGroup, State.group]

@[simp] theorem modTwin_twin_self (s : State) (p : PartId) (f : Twin → Twin) : (s.modTwin p f).twin p = f (s.twin p) := by
  simp [State.modTwin, State.twin]

@[simp] theorem modSheet_sheet_self (s : State) (p : PartId) (f : Sheet → Sheet) :
    (s.modSheet p f).sheet p = f (s.sheet p) := by simp [State.modSheet, State.sheet]

@[simp] theorem modPort_port_self (s : State) (k : PortId) (f : Port → Port) : (s.modPort k f).port k = f (s.port k) := by
  simp [State.modPort, State.port]

@[simp] theorem modFab_fab_self (s : State) (d : FabId) (f : Fab → Fab) : (s.modFab d f).fab d = f (s.fab d) := by
  simp [State.modFab, State.fab]

@[simp] theorem modRegs_slot (x : Cell) (f : CellRegs → CellRegs) (i : SlotId) : (x.modRegs f).slot i = x.slot i := rfl
@[simp] theorem modEng_slot (x : Cell) (f : Engines → Engines) (i : SlotId) : (x.modEng f).slot i = x.slot i := rfl
@[simp] theorem setLatch_slot (x : Cell) (l : BitVec 6) (v : Latch) (i : SlotId) : (x.setLatch l v).slot i = x.slot i := rfl
@[simp] theorem modRegs_latch (x : Cell) (f : CellRegs → CellRegs) (l : BitVec 6) : (x.modRegs f).latch l = x.latch l := rfl
@[simp] theorem modEng_latch (x : Cell) (f : Engines → Engines) (l : BitVec 6) : (x.modEng f).latch l = x.latch l := rfl
@[simp] theorem modSlot_latch (x : Cell) (i : SlotId) (f : Slot → Slot) (l : BitVec 6) : (x.modSlot i f).latch l = x.latch l :=
  rfl

@[simp] theorem modRegs_regs (x : Cell) (f : CellRegs → CellRegs) : (x.modRegs f).regs = f x.regs := rfl
@[simp] theorem modEng_eng (x : Cell) (f : Engines → Engines) : (x.modEng f).eng = f x.eng := rfl

/-! ### Every other field of the state -/

@[simp] theorem setCell_pending (s : State) (c : CellId) (x : Cell) : (s.setCell c x).pending = s.pending := rfl
@[simp] theorem setCell_freeCtr (s : State) (c : CellId) (x : Cell) : (s.setCell c x).freeCtr = s.freeCtr := rfl
@[simp] theorem setCell_time (s : State) (c : CellId) (x : Cell) : (s.setCell c x).time = s.time := rfl
@[simp] theorem setCell_steps (s : State) (c : CellId) (x : Cell) : (s.setCell c x).steps = s.steps := rfl
@[simp] theorem setCell_parts (s : State) (c : CellId) (x : Cell) : (s.setCell c x).parts = s.parts := rfl
@[simp] theorem setCell_partCtl (s : State) (c : CellId) (x : Cell) : (s.setCell c x).partCtl = s.partCtl := rfl
@[simp] theorem setCell_groups (s : State) (c : CellId) (x : Cell) : (s.setCell c x).groups = s.groups := rfl
@[simp] theorem setCell_stackSet (s : State) (c : CellId) (x : Cell) : (s.setCell c x).stackSet = s.stackSet := rfl
@[simp] theorem setCell_mem (s : State) (c : CellId) (x : Cell) : (s.setCell c x).mem = s.mem := rfl
@[simp] theorem setCell_xds (s : State) (c : CellId) (x : Cell) : (s.setCell c x).xds = s.xds := rfl
@[simp] theorem setCell_ports (s : State) (c : CellId) (x : Cell) : (s.setCell c x).ports = s.ports := rfl
@[simp] theorem setCell_fabs (s : State) (c : CellId) (x : Cell) : (s.setCell c x).fabs = s.fabs := rfl
@[simp] theorem setCell_route (s : State) (c : CellId) (x : Cell) : (s.setCell c x).route = s.route := rfl
@[simp] theorem setCell_coll (s : State) (c : CellId) (x : Cell) : (s.setCell c x).coll = s.coll := rfl
@[simp] theorem setCell_hsp (s : State) (c : CellId) (x : Cell) : (s.setCell c x).hsp = s.hsp := rfl
@[simp] theorem setCell_sheets (s : State) (c : CellId) (x : Cell) : (s.setCell c x).sheets = s.sheets := rfl
@[simp] theorem setCell_twins (s : State) (c : CellId) (x : Cell) : (s.setCell c x).twins = s.twins := rfl
@[simp] theorem setCell_faults (s : State) (c : CellId) (x : Cell) : (s.setCell c x).faults = s.faults := rfl
@[simp] theorem setCell_power (s : State) (c : CellId) (x : Cell) : (s.setCell c x).power = s.power := rfl
@[simp] theorem setCell_host (s : State) (c : CellId) (x : Cell) : (s.setCell c x).host = s.host := rfl
@[simp] theorem setCell_mgmt (s : State) (c : CellId) (x : Cell) : (s.setCell c x).mgmt = s.mgmt := rfl
@[simp] theorem setCell_tray (s : State) (c : CellId) (x : Cell) : (s.setCell c x).tray = s.tray := rfl
@[simp] theorem setCell_test (s : State) (c : CellId) (x : Cell) : (s.setCell c x).test = s.test := rfl
@[simp] theorem setCell_start (s : State) (c : CellId) (x : Cell) : (s.setCell c x).start = s.start := rfl
@[simp] theorem modCell_pending (s : State) (c : CellId) (f : Cell → Cell) : (s.modCell c f).pending = s.pending := rfl
@[simp] theorem modCell_freeCtr (s : State) (c : CellId) (f : Cell → Cell) : (s.modCell c f).freeCtr = s.freeCtr := rfl
@[simp] theorem modCell_time (s : State) (c : CellId) (f : Cell → Cell) : (s.modCell c f).time = s.time := rfl
@[simp] theorem modCell_steps (s : State) (c : CellId) (f : Cell → Cell) : (s.modCell c f).steps = s.steps := rfl
@[simp] theorem modCell_parts (s : State) (c : CellId) (f : Cell → Cell) : (s.modCell c f).parts = s.parts := rfl
@[simp] theorem modCell_partCtl (s : State) (c : CellId) (f : Cell → Cell) : (s.modCell c f).partCtl = s.partCtl := rfl
@[simp] theorem modCell_groups (s : State) (c : CellId) (f : Cell → Cell) : (s.modCell c f).groups = s.groups := rfl
@[simp] theorem modCell_stackSet (s : State) (c : CellId) (f : Cell → Cell) : (s.modCell c f).stackSet = s.stackSet := rfl
@[simp] theorem modCell_mem (s : State) (c : CellId) (f : Cell → Cell) : (s.modCell c f).mem = s.mem := rfl
@[simp] theorem modCell_xds (s : State) (c : CellId) (f : Cell → Cell) : (s.modCell c f).xds = s.xds := rfl
@[simp] theorem modCell_ports (s : State) (c : CellId) (f : Cell → Cell) : (s.modCell c f).ports = s.ports := rfl
@[simp] theorem modCell_fabs (s : State) (c : CellId) (f : Cell → Cell) : (s.modCell c f).fabs = s.fabs := rfl
@[simp] theorem modCell_route (s : State) (c : CellId) (f : Cell → Cell) : (s.modCell c f).route = s.route := rfl
@[simp] theorem modCell_coll (s : State) (c : CellId) (f : Cell → Cell) : (s.modCell c f).coll = s.coll := rfl
@[simp] theorem modCell_hsp (s : State) (c : CellId) (f : Cell → Cell) : (s.modCell c f).hsp = s.hsp := rfl
@[simp] theorem modCell_sheets (s : State) (c : CellId) (f : Cell → Cell) : (s.modCell c f).sheets = s.sheets := rfl
@[simp] theorem modCell_twins (s : State) (c : CellId) (f : Cell → Cell) : (s.modCell c f).twins = s.twins := rfl
@[simp] theorem modCell_faults (s : State) (c : CellId) (f : Cell → Cell) : (s.modCell c f).faults = s.faults := rfl
@[simp] theorem modCell_power (s : State) (c : CellId) (f : Cell → Cell) : (s.modCell c f).power = s.power := rfl
@[simp] theorem modCell_host (s : State) (c : CellId) (f : Cell → Cell) : (s.modCell c f).host = s.host := rfl
@[simp] theorem modCell_mgmt (s : State) (c : CellId) (f : Cell → Cell) : (s.modCell c f).mgmt = s.mgmt := rfl
@[simp] theorem modCell_tray (s : State) (c : CellId) (f : Cell → Cell) : (s.modCell c f).tray = s.tray := rfl
@[simp] theorem modCell_test (s : State) (c : CellId) (f : Cell → Cell) : (s.modCell c f).test = s.test := rfl
@[simp] theorem modCell_start (s : State) (c : CellId) (f : Cell → Cell) : (s.modCell c f).start = s.start := rfl
@[simp] theorem modSlot_pending (s : State) (a : At) (f : Slot → Slot) : (s.modSlot a f).pending = s.pending := rfl
@[simp] theorem modSlot_freeCtr (s : State) (a : At) (f : Slot → Slot) : (s.modSlot a f).freeCtr = s.freeCtr := rfl
@[simp] theorem modSlot_time (s : State) (a : At) (f : Slot → Slot) : (s.modSlot a f).time = s.time := rfl
@[simp] theorem modSlot_steps (s : State) (a : At) (f : Slot → Slot) : (s.modSlot a f).steps = s.steps := rfl
@[simp] theorem modSlot_parts (s : State) (a : At) (f : Slot → Slot) : (s.modSlot a f).parts = s.parts := rfl
@[simp] theorem modSlot_partCtl (s : State) (a : At) (f : Slot → Slot) : (s.modSlot a f).partCtl = s.partCtl := rfl
@[simp] theorem modSlot_groups (s : State) (a : At) (f : Slot → Slot) : (s.modSlot a f).groups = s.groups := rfl
@[simp] theorem modSlot_stackSet (s : State) (a : At) (f : Slot → Slot) : (s.modSlot a f).stackSet = s.stackSet := rfl
@[simp] theorem modSlot_mem (s : State) (a : At) (f : Slot → Slot) : (s.modSlot a f).mem = s.mem := rfl
@[simp] theorem modSlot_xds (s : State) (a : At) (f : Slot → Slot) : (s.modSlot a f).xds = s.xds := rfl
@[simp] theorem modSlot_ports (s : State) (a : At) (f : Slot → Slot) : (s.modSlot a f).ports = s.ports := rfl
@[simp] theorem modSlot_fabs (s : State) (a : At) (f : Slot → Slot) : (s.modSlot a f).fabs = s.fabs := rfl
@[simp] theorem modSlot_route (s : State) (a : At) (f : Slot → Slot) : (s.modSlot a f).route = s.route := rfl
@[simp] theorem modSlot_coll (s : State) (a : At) (f : Slot → Slot) : (s.modSlot a f).coll = s.coll := rfl
@[simp] theorem modSlot_hsp (s : State) (a : At) (f : Slot → Slot) : (s.modSlot a f).hsp = s.hsp := rfl
@[simp] theorem modSlot_sheets (s : State) (a : At) (f : Slot → Slot) : (s.modSlot a f).sheets = s.sheets := rfl
@[simp] theorem modSlot_twins (s : State) (a : At) (f : Slot → Slot) : (s.modSlot a f).twins = s.twins := rfl
@[simp] theorem modSlot_faults (s : State) (a : At) (f : Slot → Slot) : (s.modSlot a f).faults = s.faults := rfl
@[simp] theorem modSlot_power (s : State) (a : At) (f : Slot → Slot) : (s.modSlot a f).power = s.power := rfl
@[simp] theorem modSlot_host (s : State) (a : At) (f : Slot → Slot) : (s.modSlot a f).host = s.host := rfl
@[simp] theorem modSlot_mgmt (s : State) (a : At) (f : Slot → Slot) : (s.modSlot a f).mgmt = s.mgmt := rfl
@[simp] theorem modSlot_tray (s : State) (a : At) (f : Slot → Slot) : (s.modSlot a f).tray = s.tray := rfl
@[simp] theorem modSlot_test (s : State) (a : At) (f : Slot → Slot) : (s.modSlot a f).test = s.test := rfl
@[simp] theorem modSlot_start (s : State) (a : At) (f : Slot → Slot) : (s.modSlot a f).start = s.start := rfl
@[simp] theorem modCtx_pending (s : State) (a : At) (f : Ctx → Ctx) : (s.modCtx a f).pending = s.pending := rfl
@[simp] theorem modCtx_freeCtr (s : State) (a : At) (f : Ctx → Ctx) : (s.modCtx a f).freeCtr = s.freeCtr := rfl
@[simp] theorem modCtx_time (s : State) (a : At) (f : Ctx → Ctx) : (s.modCtx a f).time = s.time := rfl
@[simp] theorem modCtx_steps (s : State) (a : At) (f : Ctx → Ctx) : (s.modCtx a f).steps = s.steps := rfl
@[simp] theorem modCtx_parts (s : State) (a : At) (f : Ctx → Ctx) : (s.modCtx a f).parts = s.parts := rfl
@[simp] theorem modCtx_partCtl (s : State) (a : At) (f : Ctx → Ctx) : (s.modCtx a f).partCtl = s.partCtl := rfl
@[simp] theorem modCtx_groups (s : State) (a : At) (f : Ctx → Ctx) : (s.modCtx a f).groups = s.groups := rfl
@[simp] theorem modCtx_stackSet (s : State) (a : At) (f : Ctx → Ctx) : (s.modCtx a f).stackSet = s.stackSet := rfl
@[simp] theorem modCtx_mem (s : State) (a : At) (f : Ctx → Ctx) : (s.modCtx a f).mem = s.mem := rfl
@[simp] theorem modCtx_xds (s : State) (a : At) (f : Ctx → Ctx) : (s.modCtx a f).xds = s.xds := rfl
@[simp] theorem modCtx_ports (s : State) (a : At) (f : Ctx → Ctx) : (s.modCtx a f).ports = s.ports := rfl
@[simp] theorem modCtx_fabs (s : State) (a : At) (f : Ctx → Ctx) : (s.modCtx a f).fabs = s.fabs := rfl
@[simp] theorem modCtx_route (s : State) (a : At) (f : Ctx → Ctx) : (s.modCtx a f).route = s.route := rfl
@[simp] theorem modCtx_coll (s : State) (a : At) (f : Ctx → Ctx) : (s.modCtx a f).coll = s.coll := rfl
@[simp] theorem modCtx_hsp (s : State) (a : At) (f : Ctx → Ctx) : (s.modCtx a f).hsp = s.hsp := rfl
@[simp] theorem modCtx_sheets (s : State) (a : At) (f : Ctx → Ctx) : (s.modCtx a f).sheets = s.sheets := rfl
@[simp] theorem modCtx_twins (s : State) (a : At) (f : Ctx → Ctx) : (s.modCtx a f).twins = s.twins := rfl
@[simp] theorem modCtx_faults (s : State) (a : At) (f : Ctx → Ctx) : (s.modCtx a f).faults = s.faults := rfl
@[simp] theorem modCtx_power (s : State) (a : At) (f : Ctx → Ctx) : (s.modCtx a f).power = s.power := rfl
@[simp] theorem modCtx_host (s : State) (a : At) (f : Ctx → Ctx) : (s.modCtx a f).host = s.host := rfl
@[simp] theorem modCtx_mgmt (s : State) (a : At) (f : Ctx → Ctx) : (s.modCtx a f).mgmt = s.mgmt := rfl
@[simp] theorem modCtx_tray (s : State) (a : At) (f : Ctx → Ctx) : (s.modCtx a f).tray = s.tray := rfl
@[simp] theorem modCtx_test (s : State) (a : At) (f : Ctx → Ctx) : (s.modCtx a f).test = s.test := rfl
@[simp] theorem modCtx_start (s : State) (a : At) (f : Ctx → Ctx) : (s.modCtx a f).start = s.start := rfl
@[simp] theorem countIssue_pending (s : State) (a : At) : (s.countIssue a).pending = s.pending := rfl
@[simp] theorem countIssue_freeCtr (s : State) (a : At) : (s.countIssue a).freeCtr = s.freeCtr := rfl
@[simp] theorem countIssue_time (s : State) (a : At) : (s.countIssue a).time = s.time := rfl
@[simp] theorem countIssue_steps (s : State) (a : At) : (s.countIssue a).steps = s.steps := rfl
@[simp] theorem countIssue_parts (s : State) (a : At) : (s.countIssue a).parts = s.parts := rfl
@[simp] theorem countIssue_partCtl (s : State) (a : At) : (s.countIssue a).partCtl = s.partCtl := rfl
@[simp] theorem countIssue_groups (s : State) (a : At) : (s.countIssue a).groups = s.groups := rfl
@[simp] theorem countIssue_stackSet (s : State) (a : At) : (s.countIssue a).stackSet = s.stackSet := rfl
@[simp] theorem countIssue_mem (s : State) (a : At) : (s.countIssue a).mem = s.mem := rfl
@[simp] theorem countIssue_xds (s : State) (a : At) : (s.countIssue a).xds = s.xds := rfl
@[simp] theorem countIssue_ports (s : State) (a : At) : (s.countIssue a).ports = s.ports := rfl
@[simp] theorem countIssue_fabs (s : State) (a : At) : (s.countIssue a).fabs = s.fabs := rfl
@[simp] theorem countIssue_route (s : State) (a : At) : (s.countIssue a).route = s.route := rfl
@[simp] theorem countIssue_coll (s : State) (a : At) : (s.countIssue a).coll = s.coll := rfl
@[simp] theorem countIssue_hsp (s : State) (a : At) : (s.countIssue a).hsp = s.hsp := rfl
@[simp] theorem countIssue_sheets (s : State) (a : At) : (s.countIssue a).sheets = s.sheets := rfl
@[simp] theorem countIssue_twins (s : State) (a : At) : (s.countIssue a).twins = s.twins := rfl
@[simp] theorem countIssue_faults (s : State) (a : At) : (s.countIssue a).faults = s.faults := rfl
@[simp] theorem countIssue_power (s : State) (a : At) : (s.countIssue a).power = s.power := rfl
@[simp] theorem countIssue_host (s : State) (a : At) : (s.countIssue a).host = s.host := rfl
@[simp] theorem countIssue_mgmt (s : State) (a : At) : (s.countIssue a).mgmt = s.mgmt := rfl
@[simp] theorem countIssue_tray (s : State) (a : At) : (s.countIssue a).tray = s.tray := rfl
@[simp] theorem countIssue_test (s : State) (a : At) : (s.countIssue a).test = s.test := rfl
@[simp] theorem countIssue_start (s : State) (a : At) : (s.countIssue a).start = s.start := rfl
@[simp] theorem stall_pending (s : State) (a : At) (k : BitVec 4) : (s.stall a k).pending = s.pending := rfl
@[simp] theorem stall_freeCtr (s : State) (a : At) (k : BitVec 4) : (s.stall a k).freeCtr = s.freeCtr := rfl
@[simp] theorem stall_time (s : State) (a : At) (k : BitVec 4) : (s.stall a k).time = s.time := rfl
@[simp] theorem stall_steps (s : State) (a : At) (k : BitVec 4) : (s.stall a k).steps = s.steps := rfl
@[simp] theorem stall_parts (s : State) (a : At) (k : BitVec 4) : (s.stall a k).parts = s.parts := rfl
@[simp] theorem stall_partCtl (s : State) (a : At) (k : BitVec 4) : (s.stall a k).partCtl = s.partCtl := rfl
@[simp] theorem stall_groups (s : State) (a : At) (k : BitVec 4) : (s.stall a k).groups = s.groups := rfl
@[simp] theorem stall_stackSet (s : State) (a : At) (k : BitVec 4) : (s.stall a k).stackSet = s.stackSet := rfl
@[simp] theorem stall_mem (s : State) (a : At) (k : BitVec 4) : (s.stall a k).mem = s.mem := rfl
@[simp] theorem stall_xds (s : State) (a : At) (k : BitVec 4) : (s.stall a k).xds = s.xds := rfl
@[simp] theorem stall_ports (s : State) (a : At) (k : BitVec 4) : (s.stall a k).ports = s.ports := rfl
@[simp] theorem stall_fabs (s : State) (a : At) (k : BitVec 4) : (s.stall a k).fabs = s.fabs := rfl
@[simp] theorem stall_route (s : State) (a : At) (k : BitVec 4) : (s.stall a k).route = s.route := rfl
@[simp] theorem stall_coll (s : State) (a : At) (k : BitVec 4) : (s.stall a k).coll = s.coll := rfl
@[simp] theorem stall_hsp (s : State) (a : At) (k : BitVec 4) : (s.stall a k).hsp = s.hsp := rfl
@[simp] theorem stall_sheets (s : State) (a : At) (k : BitVec 4) : (s.stall a k).sheets = s.sheets := rfl
@[simp] theorem stall_twins (s : State) (a : At) (k : BitVec 4) : (s.stall a k).twins = s.twins := rfl
@[simp] theorem stall_faults (s : State) (a : At) (k : BitVec 4) : (s.stall a k).faults = s.faults := rfl
@[simp] theorem stall_power (s : State) (a : At) (k : BitVec 4) : (s.stall a k).power = s.power := rfl
@[simp] theorem stall_host (s : State) (a : At) (k : BitVec 4) : (s.stall a k).host = s.host := rfl
@[simp] theorem stall_mgmt (s : State) (a : At) (k : BitVec 4) : (s.stall a k).mgmt = s.mgmt := rfl
@[simp] theorem stall_tray (s : State) (a : At) (k : BitVec 4) : (s.stall a k).tray = s.tray := rfl
@[simp] theorem stall_test (s : State) (a : At) (k : BitVec 4) : (s.stall a k).test = s.test := rfl
@[simp] theorem stall_start (s : State) (a : At) (k : BitVec 4) : (s.stall a k).start = s.start := rfl
@[simp] theorem retire_pending (s : State) (a : At) : (s.retire a).pending = s.pending := rfl
@[simp] theorem retire_freeCtr (s : State) (a : At) : (s.retire a).freeCtr = s.freeCtr := rfl
@[simp] theorem retire_time (s : State) (a : At) : (s.retire a).time = s.time := rfl
@[simp] theorem retire_steps (s : State) (a : At) : (s.retire a).steps = s.steps := rfl
@[simp] theorem retire_parts (s : State) (a : At) : (s.retire a).parts = s.parts := rfl
@[simp] theorem retire_partCtl (s : State) (a : At) : (s.retire a).partCtl = s.partCtl := rfl
@[simp] theorem retire_groups (s : State) (a : At) : (s.retire a).groups = s.groups := rfl
@[simp] theorem retire_stackSet (s : State) (a : At) : (s.retire a).stackSet = s.stackSet := rfl
@[simp] theorem retire_mem (s : State) (a : At) : (s.retire a).mem = s.mem := rfl
@[simp] theorem retire_xds (s : State) (a : At) : (s.retire a).xds = s.xds := rfl
@[simp] theorem retire_ports (s : State) (a : At) : (s.retire a).ports = s.ports := rfl
@[simp] theorem retire_fabs (s : State) (a : At) : (s.retire a).fabs = s.fabs := rfl
@[simp] theorem retire_route (s : State) (a : At) : (s.retire a).route = s.route := rfl
@[simp] theorem retire_coll (s : State) (a : At) : (s.retire a).coll = s.coll := rfl
@[simp] theorem retire_hsp (s : State) (a : At) : (s.retire a).hsp = s.hsp := rfl
@[simp] theorem retire_sheets (s : State) (a : At) : (s.retire a).sheets = s.sheets := rfl
@[simp] theorem retire_twins (s : State) (a : At) : (s.retire a).twins = s.twins := rfl
@[simp] theorem retire_faults (s : State) (a : At) : (s.retire a).faults = s.faults := rfl
@[simp] theorem retire_power (s : State) (a : At) : (s.retire a).power = s.power := rfl
@[simp] theorem retire_host (s : State) (a : At) : (s.retire a).host = s.host := rfl
@[simp] theorem retire_mgmt (s : State) (a : At) : (s.retire a).mgmt = s.mgmt := rfl
@[simp] theorem retire_tray (s : State) (a : At) : (s.retire a).tray = s.tray := rfl
@[simp] theorem retire_test (s : State) (a : At) : (s.retire a).test = s.test := rfl
@[simp] theorem retire_start (s : State) (a : At) : (s.retire a).start = s.start := rfl
@[simp] theorem setGrain_pending (s : State) (a : At) (g : Grain) : (s.setGrain a g).pending = s.pending := rfl
@[simp] theorem setGrain_freeCtr (s : State) (a : At) (g : Grain) : (s.setGrain a g).freeCtr = s.freeCtr := rfl
@[simp] theorem setGrain_time (s : State) (a : At) (g : Grain) : (s.setGrain a g).time = s.time := rfl
@[simp] theorem setGrain_steps (s : State) (a : At) (g : Grain) : (s.setGrain a g).steps = s.steps := rfl
@[simp] theorem setGrain_parts (s : State) (a : At) (g : Grain) : (s.setGrain a g).parts = s.parts := rfl
@[simp] theorem setGrain_partCtl (s : State) (a : At) (g : Grain) : (s.setGrain a g).partCtl = s.partCtl := rfl
@[simp] theorem setGrain_groups (s : State) (a : At) (g : Grain) : (s.setGrain a g).groups = s.groups := rfl
@[simp] theorem setGrain_stackSet (s : State) (a : At) (g : Grain) : (s.setGrain a g).stackSet = s.stackSet := rfl
@[simp] theorem setGrain_mem (s : State) (a : At) (g : Grain) : (s.setGrain a g).mem = s.mem := rfl
@[simp] theorem setGrain_xds (s : State) (a : At) (g : Grain) : (s.setGrain a g).xds = s.xds := rfl
@[simp] theorem setGrain_ports (s : State) (a : At) (g : Grain) : (s.setGrain a g).ports = s.ports := rfl
@[simp] theorem setGrain_fabs (s : State) (a : At) (g : Grain) : (s.setGrain a g).fabs = s.fabs := rfl
@[simp] theorem setGrain_route (s : State) (a : At) (g : Grain) : (s.setGrain a g).route = s.route := rfl
@[simp] theorem setGrain_coll (s : State) (a : At) (g : Grain) : (s.setGrain a g).coll = s.coll := rfl
@[simp] theorem setGrain_hsp (s : State) (a : At) (g : Grain) : (s.setGrain a g).hsp = s.hsp := rfl
@[simp] theorem setGrain_sheets (s : State) (a : At) (g : Grain) : (s.setGrain a g).sheets = s.sheets := rfl
@[simp] theorem setGrain_twins (s : State) (a : At) (g : Grain) : (s.setGrain a g).twins = s.twins := rfl
@[simp] theorem setGrain_faults (s : State) (a : At) (g : Grain) : (s.setGrain a g).faults = s.faults := rfl
@[simp] theorem setGrain_power (s : State) (a : At) (g : Grain) : (s.setGrain a g).power = s.power := rfl
@[simp] theorem setGrain_host (s : State) (a : At) (g : Grain) : (s.setGrain a g).host = s.host := rfl
@[simp] theorem setGrain_mgmt (s : State) (a : At) (g : Grain) : (s.setGrain a g).mgmt = s.mgmt := rfl
@[simp] theorem setGrain_tray (s : State) (a : At) (g : Grain) : (s.setGrain a g).tray = s.tray := rfl
@[simp] theorem setGrain_test (s : State) (a : At) (g : Grain) : (s.setGrain a g).test = s.test := rfl
@[simp] theorem setGrain_start (s : State) (a : At) (g : Grain) : (s.setGrain a g).start = s.start := rfl
@[simp] theorem signal_pending (s : State) (c : CellId) (l : BitVec 6) (n : Word32) (hw : Bool) : (s.signal c l n hw).pending = s.pending := rfl
@[simp] theorem signal_freeCtr (s : State) (c : CellId) (l : BitVec 6) (n : Word32) (hw : Bool) : (s.signal c l n hw).freeCtr = s.freeCtr := rfl
@[simp] theorem signal_time (s : State) (c : CellId) (l : BitVec 6) (n : Word32) (hw : Bool) : (s.signal c l n hw).time = s.time := rfl
@[simp] theorem signal_steps (s : State) (c : CellId) (l : BitVec 6) (n : Word32) (hw : Bool) : (s.signal c l n hw).steps = s.steps := rfl
@[simp] theorem signal_parts (s : State) (c : CellId) (l : BitVec 6) (n : Word32) (hw : Bool) : (s.signal c l n hw).parts = s.parts := rfl
@[simp] theorem signal_partCtl (s : State) (c : CellId) (l : BitVec 6) (n : Word32) (hw : Bool) : (s.signal c l n hw).partCtl = s.partCtl := rfl
@[simp] theorem signal_groups (s : State) (c : CellId) (l : BitVec 6) (n : Word32) (hw : Bool) : (s.signal c l n hw).groups = s.groups := rfl
@[simp] theorem signal_stackSet (s : State) (c : CellId) (l : BitVec 6) (n : Word32) (hw : Bool) : (s.signal c l n hw).stackSet = s.stackSet := rfl
@[simp] theorem signal_mem (s : State) (c : CellId) (l : BitVec 6) (n : Word32) (hw : Bool) : (s.signal c l n hw).mem = s.mem := rfl
@[simp] theorem signal_xds (s : State) (c : CellId) (l : BitVec 6) (n : Word32) (hw : Bool) : (s.signal c l n hw).xds = s.xds := rfl
@[simp] theorem signal_ports (s : State) (c : CellId) (l : BitVec 6) (n : Word32) (hw : Bool) : (s.signal c l n hw).ports = s.ports := rfl
@[simp] theorem signal_fabs (s : State) (c : CellId) (l : BitVec 6) (n : Word32) (hw : Bool) : (s.signal c l n hw).fabs = s.fabs := rfl
@[simp] theorem signal_route (s : State) (c : CellId) (l : BitVec 6) (n : Word32) (hw : Bool) : (s.signal c l n hw).route = s.route := rfl
@[simp] theorem signal_coll (s : State) (c : CellId) (l : BitVec 6) (n : Word32) (hw : Bool) : (s.signal c l n hw).coll = s.coll := rfl
@[simp] theorem signal_hsp (s : State) (c : CellId) (l : BitVec 6) (n : Word32) (hw : Bool) : (s.signal c l n hw).hsp = s.hsp := rfl
@[simp] theorem signal_sheets (s : State) (c : CellId) (l : BitVec 6) (n : Word32) (hw : Bool) : (s.signal c l n hw).sheets = s.sheets := rfl
@[simp] theorem signal_twins (s : State) (c : CellId) (l : BitVec 6) (n : Word32) (hw : Bool) : (s.signal c l n hw).twins = s.twins := rfl
@[simp] theorem signal_faults (s : State) (c : CellId) (l : BitVec 6) (n : Word32) (hw : Bool) : (s.signal c l n hw).faults = s.faults := rfl
@[simp] theorem signal_power (s : State) (c : CellId) (l : BitVec 6) (n : Word32) (hw : Bool) : (s.signal c l n hw).power = s.power := rfl
@[simp] theorem signal_host (s : State) (c : CellId) (l : BitVec 6) (n : Word32) (hw : Bool) : (s.signal c l n hw).host = s.host := rfl
@[simp] theorem signal_mgmt (s : State) (c : CellId) (l : BitVec 6) (n : Word32) (hw : Bool) : (s.signal c l n hw).mgmt = s.mgmt := rfl
@[simp] theorem signal_tray (s : State) (c : CellId) (l : BitVec 6) (n : Word32) (hw : Bool) : (s.signal c l n hw).tray = s.tray := rfl
@[simp] theorem signal_test (s : State) (c : CellId) (l : BitVec 6) (n : Word32) (hw : Bool) : (s.signal c l n hw).test = s.test := rfl
@[simp] theorem signal_start (s : State) (c : CellId) (l : BitVec 6) (n : Word32) (hw : Bool) : (s.signal c l n hw).start = s.start := rfl
@[simp] theorem after_pending (s : State) (a : At) (g : Ctx → Ctx) : (s.after a g).pending = s.pending := rfl
@[simp] theorem after_freeCtr (s : State) (a : At) (g : Ctx → Ctx) : (s.after a g).freeCtr = s.freeCtr := rfl
@[simp] theorem after_time (s : State) (a : At) (g : Ctx → Ctx) : (s.after a g).time = s.time := rfl
@[simp] theorem after_steps (s : State) (a : At) (g : Ctx → Ctx) : (s.after a g).steps = s.steps := rfl
@[simp] theorem after_parts (s : State) (a : At) (g : Ctx → Ctx) : (s.after a g).parts = s.parts := rfl
@[simp] theorem after_partCtl (s : State) (a : At) (g : Ctx → Ctx) : (s.after a g).partCtl = s.partCtl := rfl
@[simp] theorem after_groups (s : State) (a : At) (g : Ctx → Ctx) : (s.after a g).groups = s.groups := rfl
@[simp] theorem after_stackSet (s : State) (a : At) (g : Ctx → Ctx) : (s.after a g).stackSet = s.stackSet := rfl
@[simp] theorem after_mem (s : State) (a : At) (g : Ctx → Ctx) : (s.after a g).mem = s.mem := rfl
@[simp] theorem after_xds (s : State) (a : At) (g : Ctx → Ctx) : (s.after a g).xds = s.xds := rfl
@[simp] theorem after_ports (s : State) (a : At) (g : Ctx → Ctx) : (s.after a g).ports = s.ports := rfl
@[simp] theorem after_fabs (s : State) (a : At) (g : Ctx → Ctx) : (s.after a g).fabs = s.fabs := rfl
@[simp] theorem after_route (s : State) (a : At) (g : Ctx → Ctx) : (s.after a g).route = s.route := rfl
@[simp] theorem after_coll (s : State) (a : At) (g : Ctx → Ctx) : (s.after a g).coll = s.coll := rfl
@[simp] theorem after_hsp (s : State) (a : At) (g : Ctx → Ctx) : (s.after a g).hsp = s.hsp := rfl
@[simp] theorem after_sheets (s : State) (a : At) (g : Ctx → Ctx) : (s.after a g).sheets = s.sheets := rfl
@[simp] theorem after_twins (s : State) (a : At) (g : Ctx → Ctx) : (s.after a g).twins = s.twins := rfl
@[simp] theorem after_faults (s : State) (a : At) (g : Ctx → Ctx) : (s.after a g).faults = s.faults := rfl
@[simp] theorem after_power (s : State) (a : At) (g : Ctx → Ctx) : (s.after a g).power = s.power := rfl
@[simp] theorem after_host (s : State) (a : At) (g : Ctx → Ctx) : (s.after a g).host = s.host := rfl
@[simp] theorem after_mgmt (s : State) (a : At) (g : Ctx → Ctx) : (s.after a g).mgmt = s.mgmt := rfl
@[simp] theorem after_tray (s : State) (a : At) (g : Ctx → Ctx) : (s.after a g).tray = s.tray := rfl
@[simp] theorem after_test (s : State) (a : At) (g : Ctx → Ctx) : (s.after a g).test = s.test := rfl
@[simp] theorem after_start (s : State) (a : At) (g : Ctx → Ctx) : (s.after a g).start = s.start := rfl
@[simp] theorem queued_pending (s : State) (a : At) (f : Engines → Engines) : (s.queued a f).pending = s.pending := rfl
@[simp] theorem queued_freeCtr (s : State) (a : At) (f : Engines → Engines) : (s.queued a f).freeCtr = s.freeCtr := rfl
@[simp] theorem queued_time (s : State) (a : At) (f : Engines → Engines) : (s.queued a f).time = s.time := rfl
@[simp] theorem queued_steps (s : State) (a : At) (f : Engines → Engines) : (s.queued a f).steps = s.steps := rfl
@[simp] theorem queued_parts (s : State) (a : At) (f : Engines → Engines) : (s.queued a f).parts = s.parts := rfl
@[simp] theorem queued_partCtl (s : State) (a : At) (f : Engines → Engines) : (s.queued a f).partCtl = s.partCtl := rfl
@[simp] theorem queued_groups (s : State) (a : At) (f : Engines → Engines) : (s.queued a f).groups = s.groups := rfl
@[simp] theorem queued_stackSet (s : State) (a : At) (f : Engines → Engines) : (s.queued a f).stackSet = s.stackSet := rfl
@[simp] theorem queued_mem (s : State) (a : At) (f : Engines → Engines) : (s.queued a f).mem = s.mem := rfl
@[simp] theorem queued_xds (s : State) (a : At) (f : Engines → Engines) : (s.queued a f).xds = s.xds := rfl
@[simp] theorem queued_ports (s : State) (a : At) (f : Engines → Engines) : (s.queued a f).ports = s.ports := rfl
@[simp] theorem queued_fabs (s : State) (a : At) (f : Engines → Engines) : (s.queued a f).fabs = s.fabs := rfl
@[simp] theorem queued_route (s : State) (a : At) (f : Engines → Engines) : (s.queued a f).route = s.route := rfl
@[simp] theorem queued_coll (s : State) (a : At) (f : Engines → Engines) : (s.queued a f).coll = s.coll := rfl
@[simp] theorem queued_hsp (s : State) (a : At) (f : Engines → Engines) : (s.queued a f).hsp = s.hsp := rfl
@[simp] theorem queued_sheets (s : State) (a : At) (f : Engines → Engines) : (s.queued a f).sheets = s.sheets := rfl
@[simp] theorem queued_twins (s : State) (a : At) (f : Engines → Engines) : (s.queued a f).twins = s.twins := rfl
@[simp] theorem queued_faults (s : State) (a : At) (f : Engines → Engines) : (s.queued a f).faults = s.faults := rfl
@[simp] theorem queued_power (s : State) (a : At) (f : Engines → Engines) : (s.queued a f).power = s.power := rfl
@[simp] theorem queued_host (s : State) (a : At) (f : Engines → Engines) : (s.queued a f).host = s.host := rfl
@[simp] theorem queued_mgmt (s : State) (a : At) (f : Engines → Engines) : (s.queued a f).mgmt = s.mgmt := rfl
@[simp] theorem queued_tray (s : State) (a : At) (f : Engines → Engines) : (s.queued a f).tray = s.tray := rfl
@[simp] theorem queued_test (s : State) (a : At) (f : Engines → Engines) : (s.queued a f).test = s.test := rfl
@[simp] theorem queued_start (s : State) (a : At) (f : Engines → Engines) : (s.queued a f).start = s.start := rfl
@[simp] theorem modStep_pending (s : State) (p : PartId) (f : Step → Step) : (s.modStep p f).pending = s.pending := rfl
@[simp] theorem modStep_freeCtr (s : State) (p : PartId) (f : Step → Step) : (s.modStep p f).freeCtr = s.freeCtr := rfl
@[simp] theorem modStep_time (s : State) (p : PartId) (f : Step → Step) : (s.modStep p f).time = s.time := rfl
@[simp] theorem modStep_cells (s : State) (p : PartId) (f : Step → Step) : (s.modStep p f).cells = s.cells := rfl
@[simp] theorem modStep_parts (s : State) (p : PartId) (f : Step → Step) : (s.modStep p f).parts = s.parts := rfl
@[simp] theorem modStep_partCtl (s : State) (p : PartId) (f : Step → Step) : (s.modStep p f).partCtl = s.partCtl := rfl
@[simp] theorem modStep_groups (s : State) (p : PartId) (f : Step → Step) : (s.modStep p f).groups = s.groups := rfl
@[simp] theorem modStep_stackSet (s : State) (p : PartId) (f : Step → Step) : (s.modStep p f).stackSet = s.stackSet := rfl
@[simp] theorem modStep_mem (s : State) (p : PartId) (f : Step → Step) : (s.modStep p f).mem = s.mem := rfl
@[simp] theorem modStep_xds (s : State) (p : PartId) (f : Step → Step) : (s.modStep p f).xds = s.xds := rfl
@[simp] theorem modStep_ports (s : State) (p : PartId) (f : Step → Step) : (s.modStep p f).ports = s.ports := rfl
@[simp] theorem modStep_fabs (s : State) (p : PartId) (f : Step → Step) : (s.modStep p f).fabs = s.fabs := rfl
@[simp] theorem modStep_route (s : State) (p : PartId) (f : Step → Step) : (s.modStep p f).route = s.route := rfl
@[simp] theorem modStep_coll (s : State) (p : PartId) (f : Step → Step) : (s.modStep p f).coll = s.coll := rfl
@[simp] theorem modStep_hsp (s : State) (p : PartId) (f : Step → Step) : (s.modStep p f).hsp = s.hsp := rfl
@[simp] theorem modStep_sheets (s : State) (p : PartId) (f : Step → Step) : (s.modStep p f).sheets = s.sheets := rfl
@[simp] theorem modStep_twins (s : State) (p : PartId) (f : Step → Step) : (s.modStep p f).twins = s.twins := rfl
@[simp] theorem modStep_faults (s : State) (p : PartId) (f : Step → Step) : (s.modStep p f).faults = s.faults := rfl
@[simp] theorem modStep_power (s : State) (p : PartId) (f : Step → Step) : (s.modStep p f).power = s.power := rfl
@[simp] theorem modStep_host (s : State) (p : PartId) (f : Step → Step) : (s.modStep p f).host = s.host := rfl
@[simp] theorem modStep_mgmt (s : State) (p : PartId) (f : Step → Step) : (s.modStep p f).mgmt = s.mgmt := rfl
@[simp] theorem modStep_tray (s : State) (p : PartId) (f : Step → Step) : (s.modStep p f).tray = s.tray := rfl
@[simp] theorem modStep_test (s : State) (p : PartId) (f : Step → Step) : (s.modStep p f).test = s.test := rfl
@[simp] theorem modStep_start (s : State) (p : PartId) (f : Step → Step) : (s.modStep p f).start = s.start := rfl
@[simp] theorem modPart_pending (s : State) (p : PartId) (f : Part → Part) : (s.modPart p f).pending = s.pending := rfl
@[simp] theorem modPart_freeCtr (s : State) (p : PartId) (f : Part → Part) : (s.modPart p f).freeCtr = s.freeCtr := rfl
@[simp] theorem modPart_time (s : State) (p : PartId) (f : Part → Part) : (s.modPart p f).time = s.time := rfl
@[simp] theorem modPart_cells (s : State) (p : PartId) (f : Part → Part) : (s.modPart p f).cells = s.cells := rfl
@[simp] theorem modPart_steps (s : State) (p : PartId) (f : Part → Part) : (s.modPart p f).steps = s.steps := rfl
@[simp] theorem modPart_partCtl (s : State) (p : PartId) (f : Part → Part) : (s.modPart p f).partCtl = s.partCtl := rfl
@[simp] theorem modPart_groups (s : State) (p : PartId) (f : Part → Part) : (s.modPart p f).groups = s.groups := rfl
@[simp] theorem modPart_stackSet (s : State) (p : PartId) (f : Part → Part) : (s.modPart p f).stackSet = s.stackSet := rfl
@[simp] theorem modPart_mem (s : State) (p : PartId) (f : Part → Part) : (s.modPart p f).mem = s.mem := rfl
@[simp] theorem modPart_xds (s : State) (p : PartId) (f : Part → Part) : (s.modPart p f).xds = s.xds := rfl
@[simp] theorem modPart_ports (s : State) (p : PartId) (f : Part → Part) : (s.modPart p f).ports = s.ports := rfl
@[simp] theorem modPart_fabs (s : State) (p : PartId) (f : Part → Part) : (s.modPart p f).fabs = s.fabs := rfl
@[simp] theorem modPart_route (s : State) (p : PartId) (f : Part → Part) : (s.modPart p f).route = s.route := rfl
@[simp] theorem modPart_coll (s : State) (p : PartId) (f : Part → Part) : (s.modPart p f).coll = s.coll := rfl
@[simp] theorem modPart_hsp (s : State) (p : PartId) (f : Part → Part) : (s.modPart p f).hsp = s.hsp := rfl
@[simp] theorem modPart_sheets (s : State) (p : PartId) (f : Part → Part) : (s.modPart p f).sheets = s.sheets := rfl
@[simp] theorem modPart_twins (s : State) (p : PartId) (f : Part → Part) : (s.modPart p f).twins = s.twins := rfl
@[simp] theorem modPart_faults (s : State) (p : PartId) (f : Part → Part) : (s.modPart p f).faults = s.faults := rfl
@[simp] theorem modPart_power (s : State) (p : PartId) (f : Part → Part) : (s.modPart p f).power = s.power := rfl
@[simp] theorem modPart_host (s : State) (p : PartId) (f : Part → Part) : (s.modPart p f).host = s.host := rfl
@[simp] theorem modPart_mgmt (s : State) (p : PartId) (f : Part → Part) : (s.modPart p f).mgmt = s.mgmt := rfl
@[simp] theorem modPart_tray (s : State) (p : PartId) (f : Part → Part) : (s.modPart p f).tray = s.tray := rfl
@[simp] theorem modPart_test (s : State) (p : PartId) (f : Part → Part) : (s.modPart p f).test = s.test := rfl
@[simp] theorem modPart_start (s : State) (p : PartId) (f : Part → Part) : (s.modPart p f).start = s.start := rfl
@[simp] theorem modStack_pending (s : State) (n : StackId) (f : Stack → Stack) : (s.modStack n f).pending = s.pending := rfl
@[simp] theorem modStack_freeCtr (s : State) (n : StackId) (f : Stack → Stack) : (s.modStack n f).freeCtr = s.freeCtr := rfl
@[simp] theorem modStack_time (s : State) (n : StackId) (f : Stack → Stack) : (s.modStack n f).time = s.time := rfl
@[simp] theorem modStack_cells (s : State) (n : StackId) (f : Stack → Stack) : (s.modStack n f).cells = s.cells := rfl
@[simp] theorem modStack_steps (s : State) (n : StackId) (f : Stack → Stack) : (s.modStack n f).steps = s.steps := rfl
@[simp] theorem modStack_parts (s : State) (n : StackId) (f : Stack → Stack) : (s.modStack n f).parts = s.parts := rfl
@[simp] theorem modStack_partCtl (s : State) (n : StackId) (f : Stack → Stack) : (s.modStack n f).partCtl = s.partCtl := rfl
@[simp] theorem modStack_groups (s : State) (n : StackId) (f : Stack → Stack) : (s.modStack n f).groups = s.groups := rfl
@[simp] theorem modStack_mem (s : State) (n : StackId) (f : Stack → Stack) : (s.modStack n f).mem = s.mem := rfl
@[simp] theorem modStack_xds (s : State) (n : StackId) (f : Stack → Stack) : (s.modStack n f).xds = s.xds := rfl
@[simp] theorem modStack_ports (s : State) (n : StackId) (f : Stack → Stack) : (s.modStack n f).ports = s.ports := rfl
@[simp] theorem modStack_fabs (s : State) (n : StackId) (f : Stack → Stack) : (s.modStack n f).fabs = s.fabs := rfl
@[simp] theorem modStack_route (s : State) (n : StackId) (f : Stack → Stack) : (s.modStack n f).route = s.route := rfl
@[simp] theorem modStack_coll (s : State) (n : StackId) (f : Stack → Stack) : (s.modStack n f).coll = s.coll := rfl
@[simp] theorem modStack_hsp (s : State) (n : StackId) (f : Stack → Stack) : (s.modStack n f).hsp = s.hsp := rfl
@[simp] theorem modStack_sheets (s : State) (n : StackId) (f : Stack → Stack) : (s.modStack n f).sheets = s.sheets := rfl
@[simp] theorem modStack_twins (s : State) (n : StackId) (f : Stack → Stack) : (s.modStack n f).twins = s.twins := rfl
@[simp] theorem modStack_faults (s : State) (n : StackId) (f : Stack → Stack) : (s.modStack n f).faults = s.faults := rfl
@[simp] theorem modStack_power (s : State) (n : StackId) (f : Stack → Stack) : (s.modStack n f).power = s.power := rfl
@[simp] theorem modStack_host (s : State) (n : StackId) (f : Stack → Stack) : (s.modStack n f).host = s.host := rfl
@[simp] theorem modStack_mgmt (s : State) (n : StackId) (f : Stack → Stack) : (s.modStack n f).mgmt = s.mgmt := rfl
@[simp] theorem modStack_tray (s : State) (n : StackId) (f : Stack → Stack) : (s.modStack n f).tray = s.tray := rfl
@[simp] theorem modStack_test (s : State) (n : StackId) (f : Stack → Stack) : (s.modStack n f).test = s.test := rfl
@[simp] theorem modStack_start (s : State) (n : StackId) (f : Stack → Stack) : (s.modStack n f).start = s.start := rfl
@[simp] theorem modGroup_pending (s : State) (g : Fin 256) (f : GradGroup → GradGroup) : (s.modGroup g f).pending = s.pending := rfl
@[simp] theorem modGroup_freeCtr (s : State) (g : Fin 256) (f : GradGroup → GradGroup) : (s.modGroup g f).freeCtr = s.freeCtr := rfl
@[simp] theorem modGroup_time (s : State) (g : Fin 256) (f : GradGroup → GradGroup) : (s.modGroup g f).time = s.time := rfl
@[simp] theorem modGroup_cells (s : State) (g : Fin 256) (f : GradGroup → GradGroup) : (s.modGroup g f).cells = s.cells := rfl
@[simp] theorem modGroup_steps (s : State) (g : Fin 256) (f : GradGroup → GradGroup) : (s.modGroup g f).steps = s.steps := rfl
@[simp] theorem modGroup_parts (s : State) (g : Fin 256) (f : GradGroup → GradGroup) : (s.modGroup g f).parts = s.parts := rfl
@[simp] theorem modGroup_partCtl (s : State) (g : Fin 256) (f : GradGroup → GradGroup) : (s.modGroup g f).partCtl = s.partCtl := rfl
@[simp] theorem modGroup_stackSet (s : State) (g : Fin 256) (f : GradGroup → GradGroup) : (s.modGroup g f).stackSet = s.stackSet := rfl
@[simp] theorem modGroup_mem (s : State) (g : Fin 256) (f : GradGroup → GradGroup) : (s.modGroup g f).mem = s.mem := rfl
@[simp] theorem modGroup_xds (s : State) (g : Fin 256) (f : GradGroup → GradGroup) : (s.modGroup g f).xds = s.xds := rfl
@[simp] theorem modGroup_ports (s : State) (g : Fin 256) (f : GradGroup → GradGroup) : (s.modGroup g f).ports = s.ports := rfl
@[simp] theorem modGroup_fabs (s : State) (g : Fin 256) (f : GradGroup → GradGroup) : (s.modGroup g f).fabs = s.fabs := rfl
@[simp] theorem modGroup_route (s : State) (g : Fin 256) (f : GradGroup → GradGroup) : (s.modGroup g f).route = s.route := rfl
@[simp] theorem modGroup_coll (s : State) (g : Fin 256) (f : GradGroup → GradGroup) : (s.modGroup g f).coll = s.coll := rfl
@[simp] theorem modGroup_hsp (s : State) (g : Fin 256) (f : GradGroup → GradGroup) : (s.modGroup g f).hsp = s.hsp := rfl
@[simp] theorem modGroup_sheets (s : State) (g : Fin 256) (f : GradGroup → GradGroup) : (s.modGroup g f).sheets = s.sheets := rfl
@[simp] theorem modGroup_twins (s : State) (g : Fin 256) (f : GradGroup → GradGroup) : (s.modGroup g f).twins = s.twins := rfl
@[simp] theorem modGroup_faults (s : State) (g : Fin 256) (f : GradGroup → GradGroup) : (s.modGroup g f).faults = s.faults := rfl
@[simp] theorem modGroup_power (s : State) (g : Fin 256) (f : GradGroup → GradGroup) : (s.modGroup g f).power = s.power := rfl
@[simp] theorem modGroup_host (s : State) (g : Fin 256) (f : GradGroup → GradGroup) : (s.modGroup g f).host = s.host := rfl
@[simp] theorem modGroup_mgmt (s : State) (g : Fin 256) (f : GradGroup → GradGroup) : (s.modGroup g f).mgmt = s.mgmt := rfl
@[simp] theorem modGroup_tray (s : State) (g : Fin 256) (f : GradGroup → GradGroup) : (s.modGroup g f).tray = s.tray := rfl
@[simp] theorem modGroup_test (s : State) (g : Fin 256) (f : GradGroup → GradGroup) : (s.modGroup g f).test = s.test := rfl
@[simp] theorem modGroup_start (s : State) (g : Fin 256) (f : GradGroup → GradGroup) : (s.modGroup g f).start = s.start := rfl
@[simp] theorem modTwin_pending (s : State) (p : PartId) (f : Twin → Twin) : (s.modTwin p f).pending = s.pending := rfl
@[simp] theorem modTwin_freeCtr (s : State) (p : PartId) (f : Twin → Twin) : (s.modTwin p f).freeCtr = s.freeCtr := rfl
@[simp] theorem modTwin_time (s : State) (p : PartId) (f : Twin → Twin) : (s.modTwin p f).time = s.time := rfl
@[simp] theorem modTwin_cells (s : State) (p : PartId) (f : Twin → Twin) : (s.modTwin p f).cells = s.cells := rfl
@[simp] theorem modTwin_steps (s : State) (p : PartId) (f : Twin → Twin) : (s.modTwin p f).steps = s.steps := rfl
@[simp] theorem modTwin_parts (s : State) (p : PartId) (f : Twin → Twin) : (s.modTwin p f).parts = s.parts := rfl
@[simp] theorem modTwin_partCtl (s : State) (p : PartId) (f : Twin → Twin) : (s.modTwin p f).partCtl = s.partCtl := rfl
@[simp] theorem modTwin_groups (s : State) (p : PartId) (f : Twin → Twin) : (s.modTwin p f).groups = s.groups := rfl
@[simp] theorem modTwin_stackSet (s : State) (p : PartId) (f : Twin → Twin) : (s.modTwin p f).stackSet = s.stackSet := rfl
@[simp] theorem modTwin_mem (s : State) (p : PartId) (f : Twin → Twin) : (s.modTwin p f).mem = s.mem := rfl
@[simp] theorem modTwin_xds (s : State) (p : PartId) (f : Twin → Twin) : (s.modTwin p f).xds = s.xds := rfl
@[simp] theorem modTwin_ports (s : State) (p : PartId) (f : Twin → Twin) : (s.modTwin p f).ports = s.ports := rfl
@[simp] theorem modTwin_fabs (s : State) (p : PartId) (f : Twin → Twin) : (s.modTwin p f).fabs = s.fabs := rfl
@[simp] theorem modTwin_route (s : State) (p : PartId) (f : Twin → Twin) : (s.modTwin p f).route = s.route := rfl
@[simp] theorem modTwin_coll (s : State) (p : PartId) (f : Twin → Twin) : (s.modTwin p f).coll = s.coll := rfl
@[simp] theorem modTwin_hsp (s : State) (p : PartId) (f : Twin → Twin) : (s.modTwin p f).hsp = s.hsp := rfl
@[simp] theorem modTwin_sheets (s : State) (p : PartId) (f : Twin → Twin) : (s.modTwin p f).sheets = s.sheets := rfl
@[simp] theorem modTwin_faults (s : State) (p : PartId) (f : Twin → Twin) : (s.modTwin p f).faults = s.faults := rfl
@[simp] theorem modTwin_power (s : State) (p : PartId) (f : Twin → Twin) : (s.modTwin p f).power = s.power := rfl
@[simp] theorem modTwin_host (s : State) (p : PartId) (f : Twin → Twin) : (s.modTwin p f).host = s.host := rfl
@[simp] theorem modTwin_mgmt (s : State) (p : PartId) (f : Twin → Twin) : (s.modTwin p f).mgmt = s.mgmt := rfl
@[simp] theorem modTwin_tray (s : State) (p : PartId) (f : Twin → Twin) : (s.modTwin p f).tray = s.tray := rfl
@[simp] theorem modTwin_test (s : State) (p : PartId) (f : Twin → Twin) : (s.modTwin p f).test = s.test := rfl
@[simp] theorem modTwin_start (s : State) (p : PartId) (f : Twin → Twin) : (s.modTwin p f).start = s.start := rfl
@[simp] theorem modSheet_pending (s : State) (p : PartId) (f : Sheet → Sheet) : (s.modSheet p f).pending = s.pending := rfl
@[simp] theorem modSheet_freeCtr (s : State) (p : PartId) (f : Sheet → Sheet) : (s.modSheet p f).freeCtr = s.freeCtr := rfl
@[simp] theorem modSheet_time (s : State) (p : PartId) (f : Sheet → Sheet) : (s.modSheet p f).time = s.time := rfl
@[simp] theorem modSheet_cells (s : State) (p : PartId) (f : Sheet → Sheet) : (s.modSheet p f).cells = s.cells := rfl
@[simp] theorem modSheet_steps (s : State) (p : PartId) (f : Sheet → Sheet) : (s.modSheet p f).steps = s.steps := rfl
@[simp] theorem modSheet_parts (s : State) (p : PartId) (f : Sheet → Sheet) : (s.modSheet p f).parts = s.parts := rfl
@[simp] theorem modSheet_partCtl (s : State) (p : PartId) (f : Sheet → Sheet) : (s.modSheet p f).partCtl = s.partCtl := rfl
@[simp] theorem modSheet_groups (s : State) (p : PartId) (f : Sheet → Sheet) : (s.modSheet p f).groups = s.groups := rfl
@[simp] theorem modSheet_stackSet (s : State) (p : PartId) (f : Sheet → Sheet) : (s.modSheet p f).stackSet = s.stackSet := rfl
@[simp] theorem modSheet_mem (s : State) (p : PartId) (f : Sheet → Sheet) : (s.modSheet p f).mem = s.mem := rfl
@[simp] theorem modSheet_xds (s : State) (p : PartId) (f : Sheet → Sheet) : (s.modSheet p f).xds = s.xds := rfl
@[simp] theorem modSheet_ports (s : State) (p : PartId) (f : Sheet → Sheet) : (s.modSheet p f).ports = s.ports := rfl
@[simp] theorem modSheet_fabs (s : State) (p : PartId) (f : Sheet → Sheet) : (s.modSheet p f).fabs = s.fabs := rfl
@[simp] theorem modSheet_route (s : State) (p : PartId) (f : Sheet → Sheet) : (s.modSheet p f).route = s.route := rfl
@[simp] theorem modSheet_coll (s : State) (p : PartId) (f : Sheet → Sheet) : (s.modSheet p f).coll = s.coll := rfl
@[simp] theorem modSheet_hsp (s : State) (p : PartId) (f : Sheet → Sheet) : (s.modSheet p f).hsp = s.hsp := rfl
@[simp] theorem modSheet_twins (s : State) (p : PartId) (f : Sheet → Sheet) : (s.modSheet p f).twins = s.twins := rfl
@[simp] theorem modSheet_faults (s : State) (p : PartId) (f : Sheet → Sheet) : (s.modSheet p f).faults = s.faults := rfl
@[simp] theorem modSheet_power (s : State) (p : PartId) (f : Sheet → Sheet) : (s.modSheet p f).power = s.power := rfl
@[simp] theorem modSheet_host (s : State) (p : PartId) (f : Sheet → Sheet) : (s.modSheet p f).host = s.host := rfl
@[simp] theorem modSheet_mgmt (s : State) (p : PartId) (f : Sheet → Sheet) : (s.modSheet p f).mgmt = s.mgmt := rfl
@[simp] theorem modSheet_tray (s : State) (p : PartId) (f : Sheet → Sheet) : (s.modSheet p f).tray = s.tray := rfl
@[simp] theorem modSheet_test (s : State) (p : PartId) (f : Sheet → Sheet) : (s.modSheet p f).test = s.test := rfl
@[simp] theorem modSheet_start (s : State) (p : PartId) (f : Sheet → Sheet) : (s.modSheet p f).start = s.start := rfl
@[simp] theorem modPort_pending (s : State) (k : PortId) (f : Port → Port) : (s.modPort k f).pending = s.pending := rfl
@[simp] theorem modPort_freeCtr (s : State) (k : PortId) (f : Port → Port) : (s.modPort k f).freeCtr = s.freeCtr := rfl
@[simp] theorem modPort_time (s : State) (k : PortId) (f : Port → Port) : (s.modPort k f).time = s.time := rfl
@[simp] theorem modPort_cells (s : State) (k : PortId) (f : Port → Port) : (s.modPort k f).cells = s.cells := rfl
@[simp] theorem modPort_steps (s : State) (k : PortId) (f : Port → Port) : (s.modPort k f).steps = s.steps := rfl
@[simp] theorem modPort_parts (s : State) (k : PortId) (f : Port → Port) : (s.modPort k f).parts = s.parts := rfl
@[simp] theorem modPort_partCtl (s : State) (k : PortId) (f : Port → Port) : (s.modPort k f).partCtl = s.partCtl := rfl
@[simp] theorem modPort_groups (s : State) (k : PortId) (f : Port → Port) : (s.modPort k f).groups = s.groups := rfl
@[simp] theorem modPort_stackSet (s : State) (k : PortId) (f : Port → Port) : (s.modPort k f).stackSet = s.stackSet := rfl
@[simp] theorem modPort_mem (s : State) (k : PortId) (f : Port → Port) : (s.modPort k f).mem = s.mem := rfl
@[simp] theorem modPort_xds (s : State) (k : PortId) (f : Port → Port) : (s.modPort k f).xds = s.xds := rfl
@[simp] theorem modPort_fabs (s : State) (k : PortId) (f : Port → Port) : (s.modPort k f).fabs = s.fabs := rfl
@[simp] theorem modPort_route (s : State) (k : PortId) (f : Port → Port) : (s.modPort k f).route = s.route := rfl
@[simp] theorem modPort_coll (s : State) (k : PortId) (f : Port → Port) : (s.modPort k f).coll = s.coll := rfl
@[simp] theorem modPort_hsp (s : State) (k : PortId) (f : Port → Port) : (s.modPort k f).hsp = s.hsp := rfl
@[simp] theorem modPort_sheets (s : State) (k : PortId) (f : Port → Port) : (s.modPort k f).sheets = s.sheets := rfl
@[simp] theorem modPort_twins (s : State) (k : PortId) (f : Port → Port) : (s.modPort k f).twins = s.twins := rfl
@[simp] theorem modPort_faults (s : State) (k : PortId) (f : Port → Port) : (s.modPort k f).faults = s.faults := rfl
@[simp] theorem modPort_power (s : State) (k : PortId) (f : Port → Port) : (s.modPort k f).power = s.power := rfl
@[simp] theorem modPort_host (s : State) (k : PortId) (f : Port → Port) : (s.modPort k f).host = s.host := rfl
@[simp] theorem modPort_mgmt (s : State) (k : PortId) (f : Port → Port) : (s.modPort k f).mgmt = s.mgmt := rfl
@[simp] theorem modPort_tray (s : State) (k : PortId) (f : Port → Port) : (s.modPort k f).tray = s.tray := rfl
@[simp] theorem modPort_test (s : State) (k : PortId) (f : Port → Port) : (s.modPort k f).test = s.test := rfl
@[simp] theorem modPort_start (s : State) (k : PortId) (f : Port → Port) : (s.modPort k f).start = s.start := rfl
@[simp] theorem modFab_pending (s : State) (d : FabId) (f : Fab → Fab) : (s.modFab d f).pending = s.pending := rfl
@[simp] theorem modFab_freeCtr (s : State) (d : FabId) (f : Fab → Fab) : (s.modFab d f).freeCtr = s.freeCtr := rfl
@[simp] theorem modFab_time (s : State) (d : FabId) (f : Fab → Fab) : (s.modFab d f).time = s.time := rfl
@[simp] theorem modFab_cells (s : State) (d : FabId) (f : Fab → Fab) : (s.modFab d f).cells = s.cells := rfl
@[simp] theorem modFab_steps (s : State) (d : FabId) (f : Fab → Fab) : (s.modFab d f).steps = s.steps := rfl
@[simp] theorem modFab_parts (s : State) (d : FabId) (f : Fab → Fab) : (s.modFab d f).parts = s.parts := rfl
@[simp] theorem modFab_partCtl (s : State) (d : FabId) (f : Fab → Fab) : (s.modFab d f).partCtl = s.partCtl := rfl
@[simp] theorem modFab_groups (s : State) (d : FabId) (f : Fab → Fab) : (s.modFab d f).groups = s.groups := rfl
@[simp] theorem modFab_stackSet (s : State) (d : FabId) (f : Fab → Fab) : (s.modFab d f).stackSet = s.stackSet := rfl
@[simp] theorem modFab_mem (s : State) (d : FabId) (f : Fab → Fab) : (s.modFab d f).mem = s.mem := rfl
@[simp] theorem modFab_xds (s : State) (d : FabId) (f : Fab → Fab) : (s.modFab d f).xds = s.xds := rfl
@[simp] theorem modFab_ports (s : State) (d : FabId) (f : Fab → Fab) : (s.modFab d f).ports = s.ports := rfl
@[simp] theorem modFab_route (s : State) (d : FabId) (f : Fab → Fab) : (s.modFab d f).route = s.route := rfl
@[simp] theorem modFab_coll (s : State) (d : FabId) (f : Fab → Fab) : (s.modFab d f).coll = s.coll := rfl
@[simp] theorem modFab_hsp (s : State) (d : FabId) (f : Fab → Fab) : (s.modFab d f).hsp = s.hsp := rfl
@[simp] theorem modFab_sheets (s : State) (d : FabId) (f : Fab → Fab) : (s.modFab d f).sheets = s.sheets := rfl
@[simp] theorem modFab_twins (s : State) (d : FabId) (f : Fab → Fab) : (s.modFab d f).twins = s.twins := rfl
@[simp] theorem modFab_faults (s : State) (d : FabId) (f : Fab → Fab) : (s.modFab d f).faults = s.faults := rfl
@[simp] theorem modFab_power (s : State) (d : FabId) (f : Fab → Fab) : (s.modFab d f).power = s.power := rfl
@[simp] theorem modFab_host (s : State) (d : FabId) (f : Fab → Fab) : (s.modFab d f).host = s.host := rfl
@[simp] theorem modFab_mgmt (s : State) (d : FabId) (f : Fab → Fab) : (s.modFab d f).mgmt = s.mgmt := rfl
@[simp] theorem modFab_tray (s : State) (d : FabId) (f : Fab → Fab) : (s.modFab d f).tray = s.tray := rfl
@[simp] theorem modFab_test (s : State) (d : FabId) (f : Fab → Fab) : (s.modFab d f).test = s.test := rfl
@[simp] theorem modFab_start (s : State) (d : FabId) (f : Fab → Fab) : (s.modFab d f).start = s.start := rfl
@[simp] theorem report_pending (s : State) (r : ErrRec) : (s.report r).pending = s.pending := rfl
@[simp] theorem report_freeCtr (s : State) (r : ErrRec) : (s.report r).freeCtr = s.freeCtr := rfl
@[simp] theorem report_time (s : State) (r : ErrRec) : (s.report r).time = s.time := rfl
@[simp] theorem report_cells (s : State) (r : ErrRec) : (s.report r).cells = s.cells := rfl
@[simp] theorem report_steps (s : State) (r : ErrRec) : (s.report r).steps = s.steps := rfl
@[simp] theorem report_parts (s : State) (r : ErrRec) : (s.report r).parts = s.parts := rfl
@[simp] theorem report_partCtl (s : State) (r : ErrRec) : (s.report r).partCtl = s.partCtl := rfl
@[simp] theorem report_groups (s : State) (r : ErrRec) : (s.report r).groups = s.groups := rfl
@[simp] theorem report_stackSet (s : State) (r : ErrRec) : (s.report r).stackSet = s.stackSet := rfl
@[simp] theorem report_mem (s : State) (r : ErrRec) : (s.report r).mem = s.mem := rfl
@[simp] theorem report_xds (s : State) (r : ErrRec) : (s.report r).xds = s.xds := rfl
@[simp] theorem report_ports (s : State) (r : ErrRec) : (s.report r).ports = s.ports := rfl
@[simp] theorem report_fabs (s : State) (r : ErrRec) : (s.report r).fabs = s.fabs := rfl
@[simp] theorem report_route (s : State) (r : ErrRec) : (s.report r).route = s.route := rfl
@[simp] theorem report_coll (s : State) (r : ErrRec) : (s.report r).coll = s.coll := rfl
@[simp] theorem report_hsp (s : State) (r : ErrRec) : (s.report r).hsp = s.hsp := rfl
@[simp] theorem report_sheets (s : State) (r : ErrRec) : (s.report r).sheets = s.sheets := rfl
@[simp] theorem report_twins (s : State) (r : ErrRec) : (s.report r).twins = s.twins := rfl
@[simp] theorem report_power (s : State) (r : ErrRec) : (s.report r).power = s.power := rfl
@[simp] theorem report_host (s : State) (r : ErrRec) : (s.report r).host = s.host := rfl
@[simp] theorem report_mgmt (s : State) (r : ErrRec) : (s.report r).mgmt = s.mgmt := rfl
@[simp] theorem report_tray (s : State) (r : ErrRec) : (s.report r).tray = s.tray := rfl
@[simp] theorem report_test (s : State) (r : ErrRec) : (s.report r).test = s.test := rfl
@[simp] theorem report_start (s : State) (r : ErrRec) : (s.report r).start = s.start := rfl

/-! ### Every other field of a cell -/

@[simp] theorem cell_modSlot_regs (x : Cell) (i : SlotId) (f : Slot → Slot) : (x.modSlot i f).regs = x.regs := rfl
@[simp] theorem cell_modSlot_store (x : Cell) (i : SlotId) (f : Slot → Slot) : (x.modSlot i f).store = x.store := rfl
@[simp] theorem cell_modSlot_vat (x : Cell) (i : SlotId) (f : Slot → Slot) : (x.modSlot i f).vat = x.vat := rfl
@[simp] theorem cell_modSlot_vatLive (x : Cell) (i : SlotId) (f : Slot → Slot) : (x.modSlot i f).vatLive = x.vatLive := rfl
@[simp] theorem cell_modSlot_eng (x : Cell) (i : SlotId) (f : Slot → Slot) : (x.modSlot i f).eng = x.eng := rfl
@[simp] theorem cell_modSlot_latches (x : Cell) (i : SlotId) (f : Slot → Slot) : (x.modSlot i f).latches = x.latches := rfl
@[simp] theorem cell_modSlot_signals (x : Cell) (i : SlotId) (f : Slot → Slot) : (x.modSlot i f).signals = x.signals := rfl
@[simp] theorem cell_modSlot_running (x : Cell) (i : SlotId) (f : Slot → Slot) : (x.modSlot i f).running = x.running := rfl
@[simp] theorem cell_modSlot_switch (x : Cell) (i : SlotId) (f : Slot → Slot) : (x.modSlot i f).switch = x.switch := rfl
@[simp] theorem cell_modSlot_grace (x : Cell) (i : SlotId) (f : Slot → Slot) : (x.modSlot i f).grace = x.grace := rfl
@[simp] theorem cell_modSlot_stopBits (x : Cell) (i : SlotId) (f : Slot → Slot) : (x.modSlot i f).stopBits = x.stopBits := rfl
@[simp] theorem cell_modSlot_frozen (x : Cell) (i : SlotId) (f : Slot → Slot) : (x.modSlot i f).frozen = x.frozen := rfl
@[simp] theorem cell_modRegs_store (x : Cell) (f : CellRegs → CellRegs) : (x.modRegs f).store = x.store := rfl
@[simp] theorem cell_modRegs_vat (x : Cell) (f : CellRegs → CellRegs) : (x.modRegs f).vat = x.vat := rfl
@[simp] theorem cell_modRegs_vatLive (x : Cell) (f : CellRegs → CellRegs) : (x.modRegs f).vatLive = x.vatLive := rfl
@[simp] theorem cell_modRegs_eng (x : Cell) (f : CellRegs → CellRegs) : (x.modRegs f).eng = x.eng := rfl
@[simp] theorem cell_modRegs_slots (x : Cell) (f : CellRegs → CellRegs) : (x.modRegs f).slots = x.slots := rfl
@[simp] theorem cell_modRegs_latches (x : Cell) (f : CellRegs → CellRegs) : (x.modRegs f).latches = x.latches := rfl
@[simp] theorem cell_modRegs_signals (x : Cell) (f : CellRegs → CellRegs) : (x.modRegs f).signals = x.signals := rfl
@[simp] theorem cell_modRegs_running (x : Cell) (f : CellRegs → CellRegs) : (x.modRegs f).running = x.running := rfl
@[simp] theorem cell_modRegs_switch (x : Cell) (f : CellRegs → CellRegs) : (x.modRegs f).switch = x.switch := rfl
@[simp] theorem cell_modRegs_grace (x : Cell) (f : CellRegs → CellRegs) : (x.modRegs f).grace = x.grace := rfl
@[simp] theorem cell_modRegs_stopBits (x : Cell) (f : CellRegs → CellRegs) : (x.modRegs f).stopBits = x.stopBits := rfl
@[simp] theorem cell_modRegs_frozen (x : Cell) (f : CellRegs → CellRegs) : (x.modRegs f).frozen = x.frozen := rfl
@[simp] theorem cell_modEng_regs (x : Cell) (f : Engines → Engines) : (x.modEng f).regs = x.regs := rfl
@[simp] theorem cell_modEng_store (x : Cell) (f : Engines → Engines) : (x.modEng f).store = x.store := rfl
@[simp] theorem cell_modEng_vat (x : Cell) (f : Engines → Engines) : (x.modEng f).vat = x.vat := rfl
@[simp] theorem cell_modEng_vatLive (x : Cell) (f : Engines → Engines) : (x.modEng f).vatLive = x.vatLive := rfl
@[simp] theorem cell_modEng_slots (x : Cell) (f : Engines → Engines) : (x.modEng f).slots = x.slots := rfl
@[simp] theorem cell_modEng_latches (x : Cell) (f : Engines → Engines) : (x.modEng f).latches = x.latches := rfl
@[simp] theorem cell_modEng_signals (x : Cell) (f : Engines → Engines) : (x.modEng f).signals = x.signals := rfl
@[simp] theorem cell_modEng_running (x : Cell) (f : Engines → Engines) : (x.modEng f).running = x.running := rfl
@[simp] theorem cell_modEng_switch (x : Cell) (f : Engines → Engines) : (x.modEng f).switch = x.switch := rfl
@[simp] theorem cell_modEng_grace (x : Cell) (f : Engines → Engines) : (x.modEng f).grace = x.grace := rfl
@[simp] theorem cell_modEng_stopBits (x : Cell) (f : Engines → Engines) : (x.modEng f).stopBits = x.stopBits := rfl
@[simp] theorem cell_modEng_frozen (x : Cell) (f : Engines → Engines) : (x.modEng f).frozen = x.frozen := rfl
@[simp] theorem cell_setLatch_regs (x : Cell) (l : BitVec 6) (v : Latch) : (x.setLatch l v).regs = x.regs := rfl
@[simp] theorem cell_setLatch_store (x : Cell) (l : BitVec 6) (v : Latch) : (x.setLatch l v).store = x.store := rfl
@[simp] theorem cell_setLatch_vat (x : Cell) (l : BitVec 6) (v : Latch) : (x.setLatch l v).vat = x.vat := rfl
@[simp] theorem cell_setLatch_vatLive (x : Cell) (l : BitVec 6) (v : Latch) : (x.setLatch l v).vatLive = x.vatLive := rfl
@[simp] theorem cell_setLatch_eng (x : Cell) (l : BitVec 6) (v : Latch) : (x.setLatch l v).eng = x.eng := rfl
@[simp] theorem cell_setLatch_slots (x : Cell) (l : BitVec 6) (v : Latch) : (x.setLatch l v).slots = x.slots := rfl
@[simp] theorem cell_setLatch_signals (x : Cell) (l : BitVec 6) (v : Latch) : (x.setLatch l v).signals = x.signals := rfl
@[simp] theorem cell_setLatch_running (x : Cell) (l : BitVec 6) (v : Latch) : (x.setLatch l v).running = x.running := rfl
@[simp] theorem cell_setLatch_switch (x : Cell) (l : BitVec 6) (v : Latch) : (x.setLatch l v).switch = x.switch := rfl
@[simp] theorem cell_setLatch_grace (x : Cell) (l : BitVec 6) (v : Latch) : (x.setLatch l v).grace = x.grace := rfl
@[simp] theorem cell_setLatch_stopBits (x : Cell) (l : BitVec 6) (v : Latch) : (x.setLatch l v).stopBits = x.stopBits := rfl
@[simp] theorem cell_setLatch_frozen (x : Cell) (l : BitVec 6) (v : Latch) : (x.setLatch l v).frozen = x.frozen := rfl

/-! ### Taking an instruction -/

/-- An instruction that comes to Read does its work (Table 5-8). -/
theorem issue_takes {s : State} {a : At} {p : Pred} {cls : BitVec 4} {op : Byte} {ok : Checks} {names : List (BitVec 5)}
    (h : s.takesWord ⟨a, p, cls, op, ok, names⟩) (body : State → Res) : s.issue a p cls op ok names body = body s := by
  simp only [State.takesWord, Bool.and_eq_true, Option.isNone_iff_eq_none, Bool.not_eq_true'] at h
  obtain ⟨⟨⟨⟨⟨⟨h1, h2⟩, h3⟩, h4⟩, h5⟩, h6⟩, h7⟩ := h
  simp only [State.issue]
  rw [h1, h2]
  simp [h3, h4, h5, h6, h7]

/-- The one cell an instruction that changes its context changes. -/
theorem after_eq (s : State) (a : At) (g : Ctx → Ctx) : s.after a g = s.modCell a.cell (fun x =>
    (x.modRegs (fun r => { r with coreIssue := r.coreIssue + 1, stall := 0 })).modSlot a.slot
      (fun y => Slot.retire { y with ctx := g y.ctx })) := by
  simp [State.after, State.retire, State.modCtx, State.countIssue, State.modSlot, Cell.modSlot, vmod]

/-- What an instruction that changes its context leaves. -/
theorem finish_eq (s : State) (a : At) (f : Ctx → Ctx) : s.finish a f = .next (s.after a f) := rfl

/-- What a fault at Read or later leaves. -/
theorem trap_eq (s : State) (a : At) (cls : BitVec 4) (op code : Byte) (ad : Word64) :
    s.trap a cls op code ad = .next (s.faulted a cls op code ad) := rfl

/-- What a dispatch leaves. -/
theorem dispatch_eq (s : State) (a : At) (f : Engines → Engines) : s.dispatch a f = .next (s.queued a f) := rfl

end Sys2Proof.Machine
end

