-- ==== Sys2Proof/Laws/Exec.lean ====
section
/-!
SUPPORT. One lemma a command: what exec calls for it.
-/
namespace Sys2Proof.Machine

@[simp] theorem exec_scAdd (at_ : At) (p : Pred) (f : FmtS) (s : State) :
    exec (.scAdd at_ p f) s = execScAdd at_ p f s := rfl
@[simp] theorem exec_scSub (at_ : At) (p : Pred) (f : FmtS) (s : State) :
    exec (.scSub at_ p f) s = execScSub at_ p f s := rfl
@[simp] theorem exec_scMul (at_ : At) (p : Pred) (f : FmtS) (s : State) :
    exec (.scMul at_ p f) s = execScMul at_ p f s := rfl
@[simp] theorem exec_scMulhu (at_ : At) (p : Pred) (f : FmtS) (s : State) :
    exec (.scMulhu at_ p f) s = execScMulhu at_ p f s := rfl
@[simp] theorem exec_scDiv (at_ : At) (p : Pred) (f : FmtS) (s : State) :
    exec (.scDiv at_ p f) s = execScDiv at_ p f s := rfl
@[simp] theorem exec_scDivu (at_ : At) (p : Pred) (f : FmtS) (s : State) :
    exec (.scDivu at_ p f) s = execScDivu at_ p f s := rfl
@[simp] theorem exec_scRem (at_ : At) (p : Pred) (f : FmtS) (s : State) :
    exec (.scRem at_ p f) s = execScRem at_ p f s := rfl
@[simp] theorem exec_scRemu (at_ : At) (p : Pred) (f : FmtS) (s : State) :
    exec (.scRemu at_ p f) s = execScRemu at_ p f s := rfl
@[simp] theorem exec_scAnd (at_ : At) (p : Pred) (f : FmtS) (s : State) :
    exec (.scAnd at_ p f) s = execScAnd at_ p f s := rfl
@[simp] theorem exec_scOr (at_ : At) (p : Pred) (f : FmtS) (s : State) :
    exec (.scOr at_ p f) s = execScOr at_ p f s := rfl
@[simp] theorem exec_scXor (at_ : At) (p : Pred) (f : FmtS) (s : State) :
    exec (.scXor at_ p f) s = execScXor at_ p f s := rfl
@[simp] theorem exec_scShl (at_ : At) (p : Pred) (f : FmtS) (s : State) :
    exec (.scShl at_ p f) s = execScShl at_ p f s := rfl
@[simp] theorem exec_scShr (at_ : At) (p : Pred) (f : FmtS) (s : State) :
    exec (.scShr at_ p f) s = execScShr at_ p f s := rfl
@[simp] theorem exec_scSar (at_ : At) (p : Pred) (f : FmtS) (s : State) :
    exec (.scSar at_ p f) s = execScSar at_ p f s := rfl
@[simp] theorem exec_scCmp (at_ : At) (p : Pred) (f : FmtS) (s : State) :
    exec (.scCmp at_ p f) s = execScCmp at_ p f s := rfl
@[simp] theorem exec_scPop (at_ : At) (p : Pred) (f : FmtS) (s : State) :
    exec (.scPop at_ p f) s = execScPop at_ p f s := rfl
@[simp] theorem exec_scAddi (at_ : At) (p : Pred) (f : FmtSI) (s : State) :
    exec (.scAddi at_ p f) s = execScAddi at_ p f s := rfl
@[simp] theorem exec_scAndi (at_ : At) (p : Pred) (f : FmtSI) (s : State) :
    exec (.scAndi at_ p f) s = execScAndi at_ p f s := rfl
@[simp] theorem exec_scOri (at_ : At) (p : Pred) (f : FmtSI) (s : State) :
    exec (.scOri at_ p f) s = execScOri at_ p f s := rfl
@[simp] theorem exec_scXori (at_ : At) (p : Pred) (f : FmtSI) (s : State) :
    exec (.scXori at_ p f) s = execScXori at_ p f s := rfl
@[simp] theorem exec_scCmpi (at_ : At) (p : Pred) (f : FmtSI) (s : State) :
    exec (.scCmpi at_ p f) s = execScCmpi at_ p f s := rfl
@[simp] theorem exec_scMovi (at_ : At) (p : Pred) (f : FmtSI) (s : State) :
    exec (.scMovi at_ p f) s = execScMovi at_ p f s := rfl
@[simp] theorem exec_scLdhi (at_ : At) (p : Pred) (f : FmtSI) (s : State) :
    exec (.scLdhi at_ p f) s = execScLdhi at_ p f s := rfl
@[simp] theorem exec_scShi (at_ : At) (p : Pred) (f : FmtSI) (s : State) :
    exec (.scShi at_ p f) s = execScShi at_ p f s := rfl
@[simp] theorem exec_scFadd (at_ : At) (p : Pred) (f : FmtS) (s : State) :
    exec (.scFadd at_ p f) s = execScFadd at_ p f s := rfl
@[simp] theorem exec_scFsub (at_ : At) (p : Pred) (f : FmtS) (s : State) :
    exec (.scFsub at_ p f) s = execScFsub at_ p f s := rfl
@[simp] theorem exec_scFmul (at_ : At) (p : Pred) (f : FmtS) (s : State) :
    exec (.scFmul at_ p f) s = execScFmul at_ p f s := rfl
@[simp] theorem exec_scFfma (at_ : At) (p : Pred) (f : FmtS) (s : State) :
    exec (.scFfma at_ p f) s = execScFfma at_ p f s := rfl
@[simp] theorem exec_scFdiv (at_ : At) (p : Pred) (f : FmtS) (s : State) :
    exec (.scFdiv at_ p f) s = execScFdiv at_ p f s := rfl
@[simp] theorem exec_scFsqrt (at_ : At) (p : Pred) (f : FmtS) (s : State) :
    exec (.scFsqrt at_ p f) s = execScFsqrt at_ p f s := rfl
@[simp] theorem exec_scFrcp (at_ : At) (p : Pred) (f : FmtS) (s : State) :
    exec (.scFrcp at_ p f) s = execScFrcp at_ p f s := rfl
@[simp] theorem exec_scFtr (at_ : At) (p : Pred) (f : FmtS) (s : State) :
    exec (.scFtr at_ p f) s = execScFtr at_ p f s := rfl
@[simp] theorem exec_scFcmp (at_ : At) (p : Pred) (f : FmtS) (s : State) :
    exec (.scFcmp at_ p f) s = execScFcmp at_ p f s := rfl
@[simp] theorem exec_scFcvt (at_ : At) (p : Pred) (f : FmtS) (s : State) :
    exec (.scFcvt at_ p f) s = execScFcvt at_ p f s := rfl
@[simp] theorem exec_scLd (at_ : At) (p : Pred) (f : FmtSI) (s : State) :
    exec (.scLd at_ p f) s = execScLd at_ p f s := rfl
@[simp] theorem exec_scSt (at_ : At) (p : Pred) (f : FmtSI) (s : State) :
    exec (.scSt at_ p f) s = execScSt at_ p f s := rfl
@[simp] theorem exec_scRdreg (at_ : At) (p : Pred) (f : RingRead) (s : State) :
    exec (.scRdreg at_ p f) s = execScRdreg at_ p f s := rfl
@[simp] theorem exec_scWrreg (at_ : At) (p : Pred) (f : FmtSI) (s : State) :
    exec (.scWrreg at_ p f) s = execScWrreg at_ p f s := rfl
@[simp] theorem exec_scTld (at_ : At) (p : Pred) (f : FmtS) (s : State) :
    exec (.scTld at_ p f) s = execScTld at_ p f s := rfl
@[simp] theorem exec_scTst (at_ : At) (p : Pred) (f : FmtS) (s : State) :
    exec (.scTst at_ p f) s = execScTst at_ p f s := rfl
@[simp] theorem exec_scTset (at_ : At) (p : Pred) (f : FmtS) (s : State) :
    exec (.scTset at_ p f) s = execScTset at_ p f s := rfl
@[simp] theorem exec_scTbase (at_ : At) (p : Pred) (f : FmtS) (s : State) :
    exec (.scTbase at_ p f) s = execScTbase at_ p f s := rfl
@[simp] theorem exec_scQld (at_ : At) (p : Pred) (f : FmtS) (s : State) :
    exec (.scQld at_ p f) s = execScQld at_ p f s := rfl
@[simp] theorem exec_scQst (at_ : At) (p : Pred) (f : FmtS) (s : State) :
    exec (.scQst at_ p f) s = execScQst at_ p f s := rfl
@[simp] theorem exec_scQset (at_ : At) (p : Pred) (f : FmtS) (s : State) :
    exec (.scQset at_ p f) s = execScQset at_ p f s := rfl
@[simp] theorem exec_scQaddr (at_ : At) (p : Pred) (f : FmtS) (s : State) :
    exec (.scQaddr at_ p f) s = execScQaddr at_ p f s := rfl
@[simp] theorem exec_scBr (at_ : At) (p : Pred) (f : FmtSB) (s : State) :
    exec (.scBr at_ p f) s = execScBr at_ p f s := rfl
@[simp] theorem exec_scBri (at_ : At) (p : Pred) (f : FmtSB) (s : State) :
    exec (.scBri at_ p f) s = execScBri at_ p f s := rfl
@[simp] theorem exec_scCall (at_ : At) (p : Pred) (f : FmtSB) (s : State) :
    exec (.scCall at_ p f) s = execScCall at_ p f s := rfl
@[simp] theorem exec_scNop (at_ : At) (p : Pred) (f : FmtS) (s : State) :
    exec (.scNop at_ p f) s = execScNop at_ p f s := rfl
@[simp] theorem exec_scExit (at_ : At) (p : Pred) (f : FmtS) (s : State) :
    exec (.scExit at_ p f) s = execScExit at_ p f s := rfl
@[simp] theorem exec_scTime (at_ : At) (p : Pred) (f : FmtS) (s : State) :
    exec (.scTime at_ p f) s = execScTime at_ p f s := rfl
@[simp] theorem exec_scId (at_ : At) (p : Pred) (f : FmtS) (s : State) :
    exec (.scId at_ p f) s = execScId at_ p f s := rfl
@[simp] theorem exec_faultStopComplete (at_ : At) (s : State) :
    exec (.faultStopComplete at_) s = execFaultStopComplete at_ s := rfl
@[simp] theorem exec_mxMma (at_ : At) (p : Pred) (f : FmtM) (s : State) :
    exec (.mxMma at_ p f) s = execMxMma at_ p f s := rfl
@[simp] theorem exec_mxDrain (at_ : At) (p : Pred) (f : FmtM) (s : State) :
    exec (.mxDrain at_ p f) s = execMxDrain at_ p f s := rfl
@[simp] theorem exec_mxVsave (at_ : At) (p : Pred) (f : FmtM) (s : State) :
    exec (.mxVsave at_ p f) s = execMxVsave at_ p f s := rfl
@[simp] theorem exec_mxVload (at_ : At) (p : Pred) (f : FmtM) (s : State) :
    exec (.mxVload at_ p f) s = execMxVload at_ p f s := rfl
@[simp] theorem exec_mxVfree (at_ : At) (p : Pred) (f : FmtM) (s : State) :
    exec (.mxVfree at_ p f) s = execMxVfree at_ p f s := rfl
@[simp] theorem exec_plateIssue (c : CellId) (s : State) :
    exec (.plateIssue c) s = execPlateIssue c s := rfl
@[simp] theorem exec_stationaryTileLoaded (c : CellId) (s : State) :
    exec (.stationaryTileLoaded c) s = execStationaryTileLoaded c s := rfl
@[simp] theorem exec_plateRowCycle (c : CellId) (s : State) :
    exec (.plateRowCycle c) s = execPlateRowCycle c s := rfl
@[simp] theorem exec_vatPromotion (c : CellId) (s : State) :
    exec (.vatPromotion c) s = execVatPromotion c s := rfl
@[simp] theorem exec_vatRowTransfer (c : CellId) (s : State) :
    exec (.vatRowTransfer c) s = execVatRowTransfer c s := rfl
@[simp] theorem exec_vatClearDone (c : CellId) (s : State) :
    exec (.vatClearDone c) s = execVatClearDone c s := rfl
@[simp] theorem exec_vatApertureAccess (by_ : Requester) (c : CellId) (isWrite : Bool) (offset : BitVec 21) (data : Word32) (s : State) :
    exec (.vatApertureAccess by_ c isWrite offset data) s = execVatApertureAccess by_ c isWrite offset data s := rfl
@[simp] theorem exec_vxAdd (at_ : At) (p : Pred) (f : FmtV) (s : State) :
    exec (.vxAdd at_ p f) s = execVxAdd at_ p f s := rfl
@[simp] theorem exec_vxSub (at_ : At) (p : Pred) (f : FmtV) (s : State) :
    exec (.vxSub at_ p f) s = execVxSub at_ p f s := rfl
@[simp] theorem exec_vxMul (at_ : At) (p : Pred) (f : FmtV) (s : State) :
    exec (.vxMul at_ p f) s = execVxMul at_ p f s := rfl
@[simp] theorem exec_vxFma (at_ : At) (p : Pred) (f : FmtV) (s : State) :
    exec (.vxFma at_ p f) s = execVxFma at_ p f s := rfl
@[simp] theorem exec_vxNeg (at_ : At) (p : Pred) (f : FmtV) (s : State) :
    exec (.vxNeg at_ p f) s = execVxNeg at_ p f s := rfl
@[simp] theorem exec_vxAbs (at_ : At) (p : Pred) (f : FmtV) (s : State) :
    exec (.vxAbs at_ p f) s = execVxAbs at_ p f s := rfl
@[simp] theorem exec_vxMin (at_ : At) (p : Pred) (f : FmtV) (s : State) :
    exec (.vxMin at_ p f) s = execVxMin at_ p f s := rfl
@[simp] theorem exec_vxMax (at_ : At) (p : Pred) (f : FmtV) (s : State) :
    exec (.vxMax at_ p f) s = execVxMax at_ p f s := rfl
@[simp] theorem exec_vxSel (at_ : At) (p : Pred) (f : FmtV) (s : State) :
    exec (.vxSel at_ p f) s = execVxSel at_ p f s := rfl
@[simp] theorem exec_vxCmp (at_ : At) (p : Pred) (f : FmtV) (s : State) :
    exec (.vxCmp at_ p f) s = execVxCmp at_ p f s := rfl
@[simp] theorem exec_vxCvt (at_ : At) (p : Pred) (f : FmtV) (s : State) :
    exec (.vxCvt at_ p f) s = execVxCvt at_ p f s := rfl
@[simp] theorem exec_vxDiv (at_ : At) (p : Pred) (f : FmtV) (s : State) :
    exec (.vxDiv at_ p f) s = execVxDiv at_ p f s := rfl
@[simp] theorem exec_vxSqrt (at_ : At) (p : Pred) (f : FmtV) (s : State) :
    exec (.vxSqrt at_ p f) s = execVxSqrt at_ p f s := rfl
@[simp] theorem exec_vxRecip (at_ : At) (p : Pred) (f : FmtV) (s : State) :
    exec (.vxRecip at_ p f) s = execVxRecip at_ p f s := rfl
@[simp] theorem exec_vxRsqrt (at_ : At) (p : Pred) (f : FmtV) (s : State) :
    exec (.vxRsqrt at_ p f) s = execVxRsqrt at_ p f s := rfl
@[simp] theorem exec_vxExp (at_ : At) (p : Pred) (f : FmtV) (s : State) :
    exec (.vxExp at_ p f) s = execVxExp at_ p f s := rfl
@[simp] theorem exec_vxExp2 (at_ : At) (p : Pred) (f : FmtV) (s : State) :
    exec (.vxExp2 at_ p f) s = execVxExp2 at_ p f s := rfl
@[simp] theorem exec_vxLog (at_ : At) (p : Pred) (f : FmtV) (s : State) :
    exec (.vxLog at_ p f) s = execVxLog at_ p f s := rfl
@[simp] theorem exec_vxLog2 (at_ : At) (p : Pred) (f : FmtV) (s : State) :
    exec (.vxLog2 at_ p f) s = execVxLog2 at_ p f s := rfl
@[simp] theorem exec_vxTanh (at_ : At) (p : Pred) (f : FmtV) (s : State) :
    exec (.vxTanh at_ p f) s = execVxTanh at_ p f s := rfl
@[simp] theorem exec_vxSigmoid (at_ : At) (p : Pred) (f : FmtV) (s : State) :
    exec (.vxSigmoid at_ p f) s = execVxSigmoid at_ p f s := rfl
@[simp] theorem exec_vxErf (at_ : At) (p : Pred) (f : FmtV) (s : State) :
    exec (.vxErf at_ p f) s = execVxErf at_ p f s := rfl
@[simp] theorem exec_vxSegred (at_ : At) (p : Pred) (f : FmtV) (s : State) :
    exec (.vxSegred at_ p f) s = execVxSegred at_ p f s := rfl
@[simp] theorem exec_vxBcast (at_ : At) (p : Pred) (f : FmtV) (s : State) :
    exec (.vxBcast at_ p f) s = execVxBcast at_ p f s := rfl
@[simp] theorem exec_vxGrain (at_ : At) (p : Pred) (f : FmtV) (s : State) :
    exec (.vxGrain at_ p f) s = execVxGrain at_ p f s := rfl
@[simp] theorem exec_vxGskip (at_ : At) (p : Pred) (f : FmtV) (s : State) :
    exec (.vxGskip at_ p f) s = execVxGskip at_ p f s := rfl
@[simp] theorem exec_vxSumm (at_ : At) (p : Pred) (f : FmtV) (s : State) :
    exec (.vxSumm at_ p f) s = execVxSumm at_ p f s := rfl
@[simp] theorem exec_vxCrc64 (at_ : At) (p : Pred) (f : FmtV) (s : State) :
    exec (.vxCrc64 at_ p f) s = execVxCrc64 at_ p f s := rfl
@[simp] theorem exec_vxSha256 (at_ : At) (p : Pred) (f : FmtV) (s : State) :
    exec (.vxSha256 at_ p f) s = execVxSha256 at_ p f s := rfl
@[simp] theorem exec_vxOptstep (at_ : At) (p : Pred) (f : FmtVI) (s : State) :
    exec (.vxOptstep at_ p f) s = execVxOptstep at_ p f s := rfl
@[simp] theorem exec_vxRmodeEnter (at_ : At) (p : Pred) (f : FmtVI) (s : State) :
    exec (.vxRmodeEnter at_ p f) s = execVxRmodeEnter at_ p f s := rfl
@[simp] theorem exec_vxRmodeLeave (at_ : At) (p : Pred) (f : FmtVI) (s : State) :
    exec (.vxRmodeLeave at_ p f) s = execVxRmodeLeave at_ p f s := rfl
@[simp] theorem exec_vxAddi (at_ : At) (p : Pred) (f : FmtVI) (s : State) :
    exec (.vxAddi at_ p f) s = execVxAddi at_ p f s := rfl
@[simp] theorem exec_vxSubi (at_ : At) (p : Pred) (f : FmtVI) (s : State) :
    exec (.vxSubi at_ p f) s = execVxSubi at_ p f s := rfl
@[simp] theorem exec_vxMuli (at_ : At) (p : Pred) (f : FmtVI) (s : State) :
    exec (.vxMuli at_ p f) s = execVxMuli at_ p f s := rfl
@[simp] theorem exec_vxFmai (at_ : At) (p : Pred) (f : FmtVI) (s : State) :
    exec (.vxFmai at_ p f) s = execVxFmai at_ p f s := rfl
@[simp] theorem exec_vxMini (at_ : At) (p : Pred) (f : FmtVI) (s : State) :
    exec (.vxMini at_ p f) s = execVxMini at_ p f s := rfl
@[simp] theorem exec_vxMaxi (at_ : At) (p : Pred) (f : FmtVI) (s : State) :
    exec (.vxMaxi at_ p f) s = execVxMaxi at_ p f s := rfl
@[simp] theorem exec_vectorIssue (c : CellId) (s : State) :
    exec (.vectorIssue c) s = execVectorIssue c s := rfl
@[simp] theorem exec_vxBeatRetire (c : CellId) (s : State) :
    exec (.vxBeatRetire c) s = execVxBeatRetire c s := rfl
@[simp] theorem exec_summaryResult (c : CellId) (s : State) :
    exec (.summaryResult c) s = execSummaryResult c s := rfl
@[simp] theorem exec_optstepBlock (c : CellId) (s : State) :
    exec (.optstepBlock c) s = execOptstepBlock c s := rfl
@[simp] theorem exec_dmGet (at_ : At) (p : Pred) (f : FmtQ) (s : State) :
    exec (.dmGet at_ p f) s = execDmGet at_ p f s := rfl
@[simp] theorem exec_dmPut (at_ : At) (p : Pred) (f : FmtQ) (s : State) :
    exec (.dmPut at_ p f) s = execDmPut at_ p f s := rfl
@[simp] theorem exec_dmCopy (at_ : At) (p : Pred) (f : FmtQ) (s : State) :
    exec (.dmCopy at_ p f) s = execDmCopy at_ p f s := rfl
@[simp] theorem exec_moverIssue (c : CellId) (s : State) :
    exec (.moverIssue c) s = execMoverIssue c s := rfl
@[simp] theorem exec_dmTransferComplete (c : CellId) (ix : Fin 8) (s : State) :
    exec (.dmTransferComplete c ix) s = execDmTransferComplete c ix s := rfl
@[simp] theorem exec_clAg (at_ : At) (p : Pred) (f : FmtQ) (s : State) :
    exec (.clAg at_ p f) s = execClAg at_ p f s := rfl
@[simp] theorem exec_clRs (at_ : At) (p : Pred) (f : FmtQ) (s : State) :
    exec (.clRs at_ p f) s = execClRs at_ p f s := rfl
@[simp] theorem exec_clAr (at_ : At) (p : Pred) (f : FmtQ) (s : State) :
    exec (.clAr at_ p f) s = execClAr at_ p f s := rfl
@[simp] theorem exec_clA2a (at_ : At) (p : Pred) (f : FmtQ) (s : State) :
    exec (.clA2a at_ p f) s = execClA2a at_ p f s := rfl
@[simp] theorem exec_clBcast (at_ : At) (p : Pred) (f : FmtQ) (s : State) :
    exec (.clBcast at_ p f) s = execClBcast at_ p f s := rfl
@[simp] theorem exec_clBar (at_ : At) (p : Pred) (f : FmtQ) (s : State) :
    exec (.clBar at_ p f) s = execClBar at_ p f s := rfl
@[simp] theorem exec_clUntag (at_ : At) (p : Pred) (f : FmtQ) (s : State) :
    exec (.clUntag at_ p f) s = execClUntag at_ p f s := rfl
@[simp] theorem exec_collectiveQueueIssue (c : CellId) (s : State) :
    exec (.collectiveQueueIssue c) s = execCollectiveQueueIssue c s := rfl
@[simp] theorem exec_syInit (at_ : At) (p : Pred) (f : FmtY) (s : State) :
    exec (.syInit at_ p f) s = execSyInit at_ p f s := rfl
@[simp] theorem exec_sySignal (at_ : At) (p : Pred) (f : FmtY) (s : State) :
    exec (.sySignal at_ p f) s = execSySignal at_ p f s := rfl
@[simp] theorem exec_syWait (at_ : At) (p : Pred) (f : FmtY) (s : State) :
    exec (.syWait at_ p f) s = execSyWait at_ p f s := rfl
@[simp] theorem exec_syPoll (at_ : At) (p : Pred) (f : FmtY) (s : State) :
    exec (.syPoll at_ p f) s = execSyPoll at_ p f s := rfl
@[simp] theorem exec_syFence (at_ : At) (p : Pred) (f : FmtY) (s : State) :
    exec (.syFence at_ p f) s = execSyFence at_ p f s := rfl
@[simp] theorem exec_syYield (at_ : At) (p : Pred) (f : FmtY) (s : State) :
    exec (.syYield at_ p f) s = execSyYield at_ p f s := rfl
@[simp] theorem exec_syRsignal (at_ : At) (p : Pred) (f : FmtY) (s : State) :
    exec (.syRsignal at_ p f) s = execSyRsignal at_ p f s := rfl
@[simp] theorem exec_latchSignalArrive (c : CellId) (s : State) :
    exec (.latchSignalArrive c) s = execLatchSignalArrive c s := rfl
@[simp] theorem exec_latchWaitReturn (at_ : At) (s : State) :
    exec (.latchWaitReturn at_) s = execLatchWaitReturn at_ s := rfl
@[simp] theorem exec_stOpen (at_ : At) (p : Pred) (f : FmtY) (s : State) :
    exec (.stOpen at_ p f) s = execStOpen at_ p f s := rfl
@[simp] theorem exec_stOpenRelease (c : CellId) (s : State) :
    exec (.stOpenRelease c) s = execStOpenRelease c s := rfl
@[simp] theorem exec_stStop (at_ : At) (p : Pred) (f : FmtY) (s : State) :
    exec (.stStop at_ p f) s = execStStop at_ p f s := rfl
@[simp] theorem exec_stopBarrierComplete (p : PartId) (s : State) :
    exec (.stopBarrierComplete p) s = execStopBarrierComplete p s := rfl
@[simp] theorem exec_stFix (at_ : At) (p : Pred) (f : FmtY) (s : State) :
    exec (.stFix at_ p f) s = execStFix at_ p f s := rfl
@[simp] theorem exec_fixBarrierComplete (p : PartId) (s : State) :
    exec (.fixBarrierComplete p) s = execFixBarrierComplete p s := rfl
@[simp] theorem exec_fixCommitAdvance (p : PartId) (s : State) :
    exec (.fixCommitAdvance p) s = execFixCommitAdvance p s := rfl
@[simp] theorem exec_stepBoundary (p : PartId) (s : State) :
    exec (.stepBoundary p) s = execStepBoundary p s := rfl
@[simp] theorem exec_stSeed (at_ : At) (p : Pred) (f : FmtY) (s : State) :
    exec (.stSeed at_ p f) s = execStSeed at_ p f s := rfl
@[simp] theorem exec_trMark (at_ : At) (p : Pred) (f : FmtY) (s : State) :
    exec (.trMark at_ p f) s = execTrMark at_ p f s := rfl
@[simp] theorem exec_trVal (at_ : At) (p : Pred) (f : FmtY) (s : State) :
    exec (.trVal at_ p f) s = execTrVal at_ p f s := rfl
@[simp] theorem exec_trCtr (at_ : At) (p : Pred) (f : FmtY) (s : State) :
    exec (.trCtr at_ p f) s = execTrCtr at_ p f s := rfl
@[simp] theorem exec_traceRecordWrite (c : CellId) (s : State) :
    exec (.traceRecordWrite c) s = execTraceRecordWrite c s := rfl
@[simp] theorem exec_verdictArrival (p : PartId) (tag : Word32) (reduced : BitVec 16) (s : State) :
    exec (.verdictArrival p tag reduced) s = execVerdictArrival p tag reduced s := rfl
@[simp] theorem exec_verdictTimeout (p : PartId) (s : State) :
    exec (.verdictTimeout p) s = execVerdictTimeout p s := rfl
@[simp] theorem exec_twinAckTimeout (p : PartId) (s : State) :
    exec (.twinAckTimeout p) s = execTwinAckTimeout p s := rfl
@[simp] theorem exec_ctxStart (by_ : Requester) (c : CellId) (ix : SlotId) (v : Word64) (s : State) :
    exec (.ctxStart by_ c ix v) s = execCtxStart by_ c ix v s := rfl
@[simp] theorem exec_contextSwitch (c : CellId) (s : State) :
    exec (.contextSwitch c) s = execContextSwitch c s := rfl
@[simp] theorem exec_contextWake (c : CellId) (ix : SlotId) (s : State) :
    exec (.contextWake c ix) s = execContextWake c ix s := rfl
@[simp] theorem exec_contextRunStart (c : CellId) (s : State) :
    exec (.contextRunStart c) s = execContextRunStart c s := rfl
@[simp] theorem exec_graceExpiry (c : CellId) (s : State) :
    exec (.graceExpiry c) s = execGraceExpiry c s := rfl
@[simp] theorem exec_partApply (by_ : Requester) (s : State) :
    exec (.partApply by_) s = execPartApply by_ s := rfl
@[simp] theorem exec_slotCfgWrite (by_ : Requester) (c : CellId) (v : Word32) (s : State) :
    exec (.slotCfgWrite by_ c v) s = execSlotCfgWrite by_ c v s := rfl
@[simp] theorem exec_isaCtlWrite (by_ : Requester) (c : CellId) (ix : SlotId) (v : Word64) (s : State) :
    exec (.isaCtlWrite by_ c ix v) s = execIsaCtlWrite by_ c ix v s := rfl
@[simp] theorem exec_plateCfgWrite (by_ : Requester) (c : CellId) (v : Word32) (s : State) :
    exec (.plateCfgWrite by_ c v) s = execPlateCfgWrite by_ c v s := rfl
@[simp] theorem exec_plateDbgEnWrite (by_ : Requester) (c : CellId) (v : Word32) (s : State) :
    exec (.plateDbgEnWrite by_ c v) s = execPlateDbgEnWrite by_ c v s := rfl
@[simp] theorem exec_grainLaneBaseWrite (by_ : Requester) (c : CellId) (ix : SlotId) (v : Word32) (s : State) :
    exec (.grainLaneBaseWrite by_ c ix v) s = execGrainLaneBaseWrite by_ c ix v s := rfl
@[simp] theorem exec_ctxCtlWrite (by_ : Requester) (c : CellId) (ix : SlotId) (wakeTime : Bool) (v : Word64) (s : State) :
    exec (.ctxCtlWrite by_ c ix wakeTime v) s = execCtxCtlWrite by_ c ix wakeTime v s := rfl
@[simp] theorem exec_stepRegWrite (by_ : Requester) (p : PartId) (r : Fin 5) (v : Word64) (s : State) :
    exec (.stepRegWrite by_ p r v) s = execStepRegWrite by_ p r v s := rfl
@[simp] theorem exec_cfgApply (by_ : Requester) (p : PartId) (s : State) :
    exec (.cfgApply by_ p) s = execCfgApply by_ p s := rfl
@[simp] theorem exec_registerWrite (by_ : Requester) (offset : BitVec 28) (bytes8 : Bool) (v : Word64) (s : State) :
    exec (.registerWrite by_ offset bytes8 v) s = execRegisterWrite by_ offset bytes8 v s := rfl
@[simp] theorem exec_bar0Access (req : HostReq) (offset : BitVec 28) (len : Nat) (v : Word64) (s : State) :
    exec (.bar0Access req offset len v) s = execBar0Access req offset len v s := rfl
@[simp] theorem exec_dramBurstServe (n : StackId) (b : BurstErrs) (tries : List WireTry) (s : State) :
    exec (.dramBurstServe n b tries) s = execDramBurstServe n b tries s := rfl
@[simp] theorem exec_eccWriteback (n : StackId) (ch : ChanId) (s : State) :
    exec (.eccWriteback n ch) s = execEccWriteback n ch s := rfl
@[simp] theorem exec_regulatorTick (s : State) :
    exec (.regulatorTick) s = execRegulatorTick s := rfl
@[simp] theorem exec_patrolScrub (n : StackId) (ch : ChanId) (flips : List (Fin 64 × BitVec 39)) (tries : List WireTry) (s : State) :
    exec (.patrolScrub n ch flips tries) s = execPatrolScrub n ch flips tries s := rfl
@[simp] theorem exec_eccWindowEnd (n : StackId) (ch : ChanId) (s : State) :
    exec (.eccWindowEnd n ch) s = execEccWindowEnd n ch s := rfl
@[simp] theorem exec_stackTempReading (n : StackId) (sensors : Vector (BitVec 16) 4) (s : State) :
    exec (.stackTempReading n sensors) s = execStackTempReading n sensors s := rfl
@[simp] theorem exec_stackConnectionFail (n : StackId) (w : StackWire) (s : State) :
    exec (.stackConnectionFail n w) s = execStackConnectionFail n w s := rfl
@[simp] theorem exec_mapoutReqWrite (by_ : Requester) (n : StackId) (v : Word32) (s : State) :
    exec (.mapoutReqWrite by_ n v) s = execMapoutReqWrite by_ n v s := rfl
@[simp] theorem exec_pageMark (by_ : Requester) (v : Word64) (s : State) :
    exec (.pageMark by_ v) s = execPageMark by_ v s := rfl
@[simp] theorem exec_pageUnmark (by_ : Requester) (v : Word64) (s : State) :
    exec (.pageUnmark by_ v) s = execPageUnmark by_ v s := rfl
@[simp] theorem exec_pageCmdDone (s : State) :
    exec (.pageCmdDone) s = execPageCmdDone s := rfl
@[simp] theorem exec_memBringupWrite (by_ : Requester) (v : Word32) (s : State) :
    exec (.memBringupWrite by_ v) s = execMemBringupWrite by_ v s := rfl
@[simp] theorem exec_memMarginWrite (by_ : Requester) (n : StackId) (v : Word32) (s : State) :
    exec (.memMarginWrite by_ n v) s = execMemMarginWrite by_ n v s := rfl
@[simp] theorem exec_stPatGo (by_ : Requester) (v : Word64) (s : State) :
    exec (.stPatGo by_ v) s = execStPatGo by_ v s := rfl
@[simp] theorem exec_stPatDone (s : State) :
    exec (.stPatDone) s = execStPatDone s := rfl
@[simp] theorem exec_xdBeatReceive (j : JoinId) (dir : Fin 2) (beat : Beat) (s : State) :
    exec (.xdBeatReceive j dir beat) s = execXdBeatReceive j dir beat s := rfl
@[simp] theorem exec_xdErrorWindow (j : JoinId) (dir : Fin 2) (s : State) :
    exec (.xdErrorWindow j dir) s = execXdErrorWindow j dir s := rfl
@[simp] theorem exec_xdClockLoss (j : JoinId) (dir : Fin 2) (group : BitVec 6) (alternate : Bool) (s : State) :
    exec (.xdClockLoss j dir group alternate) s = execXdClockLoss j dir group alternate s := rfl
@[simp] theorem exec_xdSteer (j : JoinId) (dir : Fin 2) (group : BitVec 6) (wire : BitVec 7) (swt : BitVec 3) (s : State) :
    exec (.xdSteer j dir group wire swt) s = execXdSteer j dir group wire swt s := rfl
@[simp] theorem exec_xdHalf (j : JoinId) (dir : Fin 2) (half : Fin 2) (swt : BitVec 3) (s : State) :
    exec (.xdHalf j dir half swt) s = execXdHalf j dir half swt s := rfl
@[simp] theorem exec_xdDisable (j : JoinId) (swt : BitVec 3) (s : State) :
    exec (.xdDisable j swt) s = execXdDisable j swt s := rfl
@[simp] theorem exec_xdSwitch (j : JoinId) (dir : Fin 2) (s : State) :
    exec (.xdSwitch j dir) s = execXdSwitch j dir s := rfl
@[simp] theorem exec_xdForceWrite (by_ : Requester) (j : JoinId) (v : Word32) (s : State) :
    exec (.xdForceWrite by_ j v) s = execXdForceWrite by_ j v s := rfl
@[simp] theorem exec_frameReceive (k : PortId) (f : Frame) (s : State) :
    exec (.frameReceive k f) s = execFrameReceive k f s := rfl
@[simp] theorem exec_linkReplay (r : Replay) (s : State) :
    exec (.linkReplay r) s = execLinkReplay r s := rfl
@[simp] theorem exec_laneErrorWindow (k : PortId) (errors : LaneErrs) (s : State) :
    exec (.laneErrorWindow k errors) s = execLaneErrorWindow k errors s := rfl
@[simp] theorem exec_routerSlot (d : FabId) (s : State) :
    exec (.routerSlot d) s = execRouterSlot d s := rfl
@[simp] theorem exec_frameInject (d : FabId) (s : State) :
    exec (.frameInject d) s = execFrameInject d s := rfl
@[simp] theorem exec_starveHoldoffEnd (d : FabId) (s : State) :
    exec (.starveHoldoffEnd d) s = execStarveHoldoffEnd d s := rfl
@[simp] theorem exec_streamDeliver (d : FabId) (ix : Nat) (s : State) :
    exec (.streamDeliver d ix) s = execStreamDeliver d ix s := rfl
@[simp] theorem exec_robGap (d : FabId) (ix : Nat) (s : State) :
    exec (.robGap d ix) s = execRobGap d ix s := rfl
@[simp] theorem exec_reqRead (d : FabId) (s : State) :
    exec (.reqRead d) s = execReqRead d s := rfl
@[simp] theorem exec_rspData (d : FabId) (s : State) :
    exec (.rspData d) s = execRspData d s := rfl
@[simp] theorem exec_rspCredit (d : FabId) (s : State) :
    exec (.rspCredit d) s = execRspCredit d s := rfl
@[simp] theorem exec_putWrite (d : FabId) (s : State) :
    exec (.putWrite d) s = execPutWrite d s := rfl
@[simp] theorem exec_deadEndReturn (d : FabId) (s : State) :
    exec (.deadEndReturn d) s = execDeadEndReturn d s := rfl
@[simp] theorem exec_sourceSlotTimeout (d : FabId) (ix : Nat) (s : State) :
    exec (.sourceSlotTimeout d ix) s = execSourceSlotTimeout d ix s := rfl
@[simp] theorem exec_creditFlush (d : FabId) (s : State) :
    exec (.creditFlush d) s = execCreditFlush d s := rfl
@[simp] theorem exec_mntMreq (s : State) :
    exec (.mntMreq) s = execMntMreq s := rfl
@[simp] theorem exec_mntMrsp (s : State) :
    exec (.mntMrsp) s = execMntMrsp s := rfl
@[simp] theorem exec_mntMpost (s : State) :
    exec (.mntMpost) s = execMntMpost s := rfl
@[simp] theorem exec_grantWrite (by_ : Requester) (d : FabId) (tx : Bool) (ix : Fin 4096) (v : Word64) (s : State) :
    exec (.grantWrite by_ d tx ix v) s = execGrantWrite by_ d tx ix v s := rfl
@[simp] theorem exec_fabricCfgWrite (by_ : Requester) (r : FabricCfgReg) (v : Word32) (s : State) :
    exec (.fabricCfgWrite by_ r v) s = execFabricCfgWrite by_ r v s := rfl
@[simp] theorem exec_routeSlotWrite (by_ : Requester) (ix : Fin 2) (target : RouteTarget) (w : SlotWord) (s : State) :
    exec (.routeSlotWrite by_ ix target w) s = execRouteSlotWrite by_ ix target w s := rfl
@[simp] theorem exec_routeSeal (by_ : Requester) (ix : Fin 2) (s : State) :
    exec (.routeSeal by_ ix) s = execRouteSeal by_ ix s := rfl
@[simp] theorem exec_routeRetire (by_ : Requester) (ix : Fin 2) (s : State) :
    exec (.routeRetire by_ ix) s = execRouteRetire by_ ix s := rfl
@[simp] theorem exec_routeApply (by_ : Requester) (ix : Fin 2) (s : State) :
    exec (.routeApply by_ ix) s = execRouteApply by_ ix s := rfl
@[simp] theorem exec_routeDrainTimer (ix : Fin 2) (s : State) :
    exec (.routeDrainTimer ix) s = execRouteDrainTimer ix s := rfl
@[simp] theorem exec_darkslideClose (s : State) :
    exec (.darkslideClose) s = execDarkslideClose s := rfl
@[simp] theorem exec_darkslideForward (k : PortId) (f : Frame) (s : State) :
    exec (.darkslideForward k f) s = execDarkslideForward k f s := rfl
@[simp] theorem exec_darkslideOpen (pair : Fin 6) (s : State) :
    exec (.darkslideOpen pair) s = execDarkslideOpen pair s := rfl
@[simp] theorem exec_bypassFail (island : Fin 2) (s : State) :
    exec (.bypassFail island) s = execBypassFail island s := rfl
@[simp] theorem exec_portTrainStage (k : PortId) (partner : PortPartner) (s : State) :
    exec (.portTrainStage k partner) s = execPortTrainStage k partner s := rfl
@[simp] theorem exec_timeWord (k : PortId) (t1 t2 t3 t4 : Word64) (depth : BitVec 7) (partnerLocked : Bool) (s : State) :
    exec (.timeWord k t1 t2 t3 t4 depth partnerLocked) s = execTimeWord k t1 t2 t3 t4 depth partnerLocked s := rfl
@[simp] theorem exec_timeWordInsert (k : PortId) (s : State) :
    exec (.timeWordInsert k) s = execTimeWordInsert k s := rfl
@[simp] theorem exec_timeSlew (s : State) :
    exec (.timeSlew) s = execTimeSlew s := rfl
@[simp] theorem exec_timeParentSelect (s : State) :
    exec (.timeParentSelect) s = execTimeParentSelect s := rfl
@[simp] theorem exec_collArm (by_ : Requester) (ix : Fin 4096) (s : State) :
    exec (.collArm by_ ix) s = execCollArm by_ ix s := rfl
@[simp] theorem exec_collDisarm (by_ : Requester) (ix : Fin 4096) (s : State) :
    exec (.collDisarm by_ ix) s = execCollDisarm by_ ix s := rfl
@[simp] theorem exec_collArrival (d : FabId) (s : State) :
    exec (.collArrival d) s = execCollArrival d s := rfl
@[simp] theorem exec_collReady (d : FabId) (s : State) :
    exec (.collReady d) s = execCollReady d s := rfl
@[simp] theorem exec_collDataFrame (d : FabId) (s : State) :
    exec (.collDataFrame d) s = execCollDataFrame d s := rfl
@[simp] theorem exec_collTagFrame (d : FabId) (s : State) :
    exec (.collTagFrame d) s = execCollTagFrame d s := rfl
@[simp] theorem exec_collArriveRecord (s : State) :
    exec (.collArriveRecord) s = execCollArriveRecord s := rfl
@[simp] theorem exec_collInstanceEnd (ix : Fin 4096) (s : State) :
    exec (.collInstanceEnd ix) s = execCollInstanceEnd ix s := rfl
@[simp] theorem exec_sideRecordSend (p : PartId) (s : State) :
    exec (.sideRecordSend p) s = execSideRecordSend p s := rfl
@[simp] theorem exec_sideRecordReceive (s : State) :
    exec (.sideRecordReceive) s = execSideRecordReceive s := rfl
@[simp] theorem exec_tableBuildComplete (p : PartId) (s : State) :
    exec (.tableBuildComplete p) s = execTableBuildComplete p s := rfl
@[simp] theorem exec_xlegRecord (s : State) :
    exec (.xlegRecord) s = execXlegRecord s := rfl
@[simp] theorem exec_collProgressTimeout (ix : Fin 4096) (s : State) :
    exec (.collProgressTimeout ix) s = execCollProgressTimeout ix s := rfl
@[simp] theorem exec_colldTagOutClear (by_ : Requester) (ix : Fin 4096) (s : State) :
    exec (.colldTagOutClear by_ ix) s = execColldTagOutClear by_ ix s := rfl
@[simp] theorem exec_twinArm (by_ : Requester) (p : PartId) (s : State) :
    exec (.twinArm by_ p) s = execTwinArm by_ p s := rfl
@[simp] theorem exec_twinRestart (by_ : Requester) (p : PartId) (s : State) :
    exec (.twinRestart by_ p) s = execTwinRestart by_ p s := rfl
@[simp] theorem exec_twinRefix (by_ : Requester) (p : PartId) (s : State) :
    exec (.twinRefix by_ p) s = execTwinRefix by_ p s := rfl
@[simp] theorem exec_hello (p : PartId) (s : State) :
    exec (.hello p) s = execHello p s := rfl
@[simp] theorem exec_pageAck (p : PartId) (s : State) :
    exec (.pageAck p) s = execPageAck p s := rfl
@[simp] theorem exec_resend (p : PartId) (s : State) :
    exec (.resend p) s = execResend p s := rfl
@[simp] theorem exec_manifest (p : PartId) (s : State) :
    exec (.manifest p) s = execManifest p s := rfl
@[simp] theorem exec_negDone (p : PartId) (s : State) :
    exec (.negDone p) s = execNegDone p s := rfl
@[simp] theorem exec_bodyAck (p : PartId) (s : State) :
    exec (.bodyAck p) s = execBodyAck p s := rfl
@[simp] theorem exec_seal (p : PartId) (s : State) :
    exec (.seal p) s = execSeal p s := rfl
@[simp] theorem exec_sealAck (p : PartId) (s : State) :
    exec (.sealAck p) s = execSealAck p s := rfl
@[simp] theorem exec_probe (p : PartId) (s : State) :
    exec (.probe p) s = execProbe p s := rfl
@[simp] theorem exec_probeTimer (p : PartId) (s : State) :
    exec (.probeTimer p) s = execProbeTimer p s := rfl
@[simp] theorem exec_twinPageSend (p : PartId) (s : State) :
    exec (.twinPageSend p) s = execTwinPageSend p s := rfl
@[simp] theorem exec_twinClaim (p : PartId) (s : State) :
    exec (.twinClaim p) s = execTwinClaim p s := rfl
@[simp] theorem exec_firstTouchCopy (p : PartId) (slot : Nat) (s : State) :
    exec (.firstTouchCopy p slot) s = execFirstTouchCopy p slot s := rfl
@[simp] theorem exec_restorePages (by_ : Requester) (p : PartId) (sel : Fin 2) (s : State) :
    exec (.restorePages by_ p sel) s = execRestorePages by_ p sel s := rfl
@[simp] theorem exec_restoreRecord (by_ : Requester) (p : PartId) (sel : Fin 2) (s : State) :
    exec (.restoreRecord by_ p sel) s = execRestoreRecord by_ p sel s := rfl
@[simp] theorem exec_restoreTables (by_ : Requester) (p : PartId) (s : State) :
    exec (.restoreTables by_ p) s = execRestoreTables by_ p s := rfl
@[simp] theorem exec_restoreDone (p : PartId) (data : RestoreData) (s : State) :
    exec (.restoreDone p data) s = execRestoreDone p data s := rfl
@[simp] theorem exec_sheetArm (by_ : Requester) (p : PartId) (s : State) :
    exec (.sheetArm by_ p) s = execSheetArm by_ p s := rfl
@[simp] theorem exec_sheetCancel (by_ : Requester) (p : PartId) (s : State) :
    exec (.sheetCancel by_ p) s = execSheetCancel by_ p s := rfl
@[simp] theorem exec_hspPiece (toHost : Bool) (s : State) :
    exec (.hspPiece toHost) s = execHspPiece toHost s := rfl
@[simp] theorem exec_hspReadCompletion (ok : Bool) (data : List Byte) (s : State) :
    exec (.hspReadCompletion ok data) s = execHspReadCompletion ok data s := rfl
@[simp] theorem exec_hostRegionWrite (by_ : Requester) (ix : Fin 4096) (cfg : Bool) (v : Word64) (s : State) :
    exec (.hostRegionWrite by_ ix cfg v) s = execHostRegionWrite by_ ix cfg v s := rfl
@[simp] theorem exec_doorbell (ix : Fin 256) (v : Word64) (s : State) :
    exec (.doorbell ix v) s = execDoorbell ix v s := rfl
@[simp] theorem exec_doorbellCfgWrite (by_ : Requester) (ix : Fin 256) (v : Word32) (s : State) :
    exec (.doorbellCfgWrite by_ ix v) s = execDoorbellCfgWrite by_ ix v s := rfl
@[simp] theorem exec_mboxGo (request : List Byte) (s : State) :
    exec (.mboxGo request) s = execMboxGo request s := rfl
@[simp] theorem exec_mboxTake (s : State) :
    exec (.mboxTake) s = execMboxTake s := rfl
@[simp] theorem exec_getInfo (s : State) :
    exec (.getInfo) s = execGetInfo s := rfl
@[simp] theorem exec_logRead (s : State) :
    exec (.logRead) s = execLogRead s := rfl
@[simp] theorem exec_fruRead (s : State) :
    exec (.fruRead) s = execFruRead s := rfl
@[simp] theorem exec_fruWrite (s : State) :
    exec (.fruWrite) s = execFruWrite s := rfl
@[simp] theorem exec_fwWrite (s : State) :
    exec (.fwWrite) s = execFwWrite s := rfl
@[simp] theorem exec_fwActivate (s : State) :
    exec (.fwActivate) s = execFwActivate s := rfl
@[simp] theorem exec_anchorSet (s : State) :
    exec (.anchorSet) s = execAnchorSet s := rfl
@[simp] theorem exec_getNonce (s : State) :
    exec (.getNonce) s = execGetNonce s := rfl
@[simp] theorem exec_debugUnlock (s : State) :
    exec (.debugUnlock) s = execDebugUnlock s := rfl
@[simp] theorem exec_debugLock (s : State) :
    exec (.debugLock) s = execDebugLock s := rfl
@[simp] theorem exec_debugUnlockEnd (s : State) :
    exec (.debugUnlockEnd) s = execDebugUnlockEnd s := rfl
@[simp] theorem exec_mboxReply (s : State) :
    exec (.mboxReply) s = execMboxReply s := rfl
@[simp] theorem exec_errorRecordDeliver (s : State) :
    exec (.errorRecordDeliver) s = execErrorRecordDeliver s := rfl
@[simp] theorem exec_hcpNotify (by_ : Requester) (p : PartId) (s : State) :
    exec (.hcpNotify by_ p) s = execHcpNotify by_ p s := rfl
@[simp] theorem exec_pciePortReset (hsp : Bool) (s : State) :
    exec (.pciePortReset hsp) s = execPciePortReset hsp s := rfl
@[simp] theorem exec_functionLevelReset (hsp : Bool) (s : State) :
    exec (.functionLevelReset hsp) s = execFunctionLevelReset hsp s := rfl
@[simp] theorem exec_spdmGetVersion (req : List Byte) (s : State) :
    exec (.spdmGetVersion req) s = execSpdmGetVersion req s := rfl
@[simp] theorem exec_spdmGetCapabilities (req : List Byte) (s : State) :
    exec (.spdmGetCapabilities req) s = execSpdmGetCapabilities req s := rfl
@[simp] theorem exec_spdmNegotiateAlgorithms (req : List Byte) (s : State) :
    exec (.spdmNegotiateAlgorithms req) s = execSpdmNegotiateAlgorithms req s := rfl
@[simp] theorem exec_spdmGetDigests (req : List Byte) (s : State) :
    exec (.spdmGetDigests req) s = execSpdmGetDigests req s := rfl
@[simp] theorem exec_spdmGetCertificate (req : List Byte) (s : State) :
    exec (.spdmGetCertificate req) s = execSpdmGetCertificate req s := rfl
@[simp] theorem exec_spdmChallenge (req : List Byte) (s : State) :
    exec (.spdmChallenge req) s = execSpdmChallenge req s := rfl
@[simp] theorem exec_spdmGetMeasurements (req : List Byte) (s : State) :
    exec (.spdmGetMeasurements req) s = execSpdmGetMeasurements req s := rfl
@[simp] theorem exec_tsbRead (word : BitVec 10) (s : State) :
    exec (.tsbRead word) s = execTsbRead word s := rfl
@[simp] theorem exec_tsbWrite (word : BitVec 10) (v : BitVec 16) (s : State) :
    exec (.tsbWrite word v) s = execTsbWrite word v s := rfl
@[simp] theorem exec_emergWWrite (v : BitVec 16) (s : State) :
    exec (.emergWWrite v) s = execEmergWWrite v s := rfl
@[simp] theorem exec_tsbShadowRefresh (s : State) :
    exec (.tsbShadowRefresh) s = execTsbShadowRefresh s := rfl
@[simp] theorem exec_smbusOffsetWrite (w : SmbusWrite) (data : List Byte) (s : State) :
    exec (.smbusOffsetWrite w data) s = execSmbusOffsetWrite w data s := rfl
@[simp] theorem exec_smbusRead (r : SmbusRead) (s : State) :
    exec (.smbusRead r) s = execSmbusRead r s := rfl
@[simp] theorem exec_fruStoreCommit (s : State) :
    exec (.fruStoreCommit) s = execFruStoreCommit s := rfl
@[simp] theorem exec_mgmtHeartbeatMiss (s : State) :
    exec (.mgmtHeartbeatMiss) s = execMgmtHeartbeatMiss s := rfl
@[simp] theorem exec_mgmtRestart (s : State) :
    exec (.mgmtRestart) s = execMgmtRestart s := rfl
@[simp] theorem exec_coldPowerOn (s : State) :
    exec (.coldPowerOn) s = execColdPowerOn s := rfl
@[simp] theorem exec_startupPhaseEnd (s : State) :
    exec (.startupPhaseEnd) s = execStartupPhaseEnd s := rfl
@[simp] theorem exec_stackTrained (n : StackId) (temp : BitVec 16) (s : State) :
    exec (.stackTrained n temp) s = execStackTrained n temp s := rfl
@[simp] theorem exec_input12vFault (s : State) :
    exec (.input12vFault) s = execInput12vFault s := rfl
@[simp] theorem exec_auxLoss (s : State) :
    exec (.auxLoss) s = execAuxLoss s := rfl
@[simp] theorem exec_watchdogSample (s : State) :
    exec (.watchdogSample) s = execWatchdogSample s := rfl
@[simp] theorem exec_waitLimit (at_ : At) (s : State) :
    exec (.waitLimit at_) s = execWaitLimit at_ s := rfl
@[simp] theorem exec_stopHoldExpiry (at_ : At) (s : State) :
    exec (.stopHoldExpiry at_) s = execStopHoldExpiry at_ s := rfl
@[simp] theorem exec_abortHoldExpiry (p : PartId) (s : State) :
    exec (.abortHoldExpiry p) s = execAbortHoldExpiry p s := rfl
@[simp] theorem exec_resetCmdContext (by_ : Requester) (at_ : At) (s : State) :
    exec (.resetCmdContext by_ at_) s = execResetCmdContext by_ at_ s := rfl
@[simp] theorem exec_resetCmdEngine (by_ : Requester) (c : CellId) (e : BitVec 4) (s : State) :
    exec (.resetCmdEngine by_ c e) s = execResetCmdEngine by_ c e s := rfl
@[simp] theorem exec_resetCmdPartition (by_ : Requester) (p : PartId) (s : State) :
    exec (.resetCmdPartition by_ p) s = execResetCmdPartition by_ p s := rfl
@[simp] theorem exec_resetCmdChip (by_ : Requester) (s : State) :
    exec (.resetCmdChip by_) s = execResetCmdChip by_ s := rfl
@[simp] theorem exec_resetCmdPowerCycle (by_ : Requester) (s : State) :
    exec (.resetCmdPowerCycle by_) s = execResetCmdPowerCycle by_ s := rfl
@[simp] theorem exec_contextReset (at_ : At) (s : State) :
    exec (.contextReset at_) s = execContextReset at_ s := rfl
@[simp] theorem exec_engineReset (c : CellId) (e : BitVec 4) (s : State) :
    exec (.engineReset c e) s = execEngineReset c e s := rfl
@[simp] theorem exec_partitionReset (p : PartId) (s : State) :
    exec (.partitionReset p) s = execPartitionReset p s := rfl
@[simp] theorem exec_chipReset (s : State) :
    exec (.chipReset) s = execChipReset s := rfl
@[simp] theorem exec_chipResetPhaseEnd (s : State) :
    exec (.chipResetPhaseEnd) s = execChipResetPhaseEnd s := rfl
@[simp] theorem exec_powerCycleReq (s : State) :
    exec (.powerCycleReq) s = execPowerCycleReq s := rfl
@[simp] theorem exec_resetDone (ix : Nat) (s : State) :
    exec (.resetDone ix) s = execResetDone ix s := rfl
@[simp] theorem exec_resetEscalation (ix : Nat) (s : State) :
    exec (.resetEscalation ix) s = execResetEscalation ix s := rfl
@[simp] theorem exec_meterActivityReport (d : DieId) (s : State) :
    exec (.meterActivityReport d) s = execMeterActivityReport d s := rfl
@[simp] theorem exec_meterCalibration (inputMv : BitVec 16) (railMa : Vector (BitVec 32) 6) (s : State) :
    exec (.meterCalibration inputMv railMa) s = execMeterCalibration inputMv railMa s := rfl
@[simp] theorem exec_meterSignatureWindow (s : State) :
    exec (.meterSignatureWindow) s = execMeterSignatureWindow s := rfl
@[simp] theorem exec_capLoop (inputMv : BitVec 16) (s : State) :
    exec (.capLoop inputMv) s = execCapLoop inputMv s := rfl
@[simp] theorem exec_pointChangeDone (d : DieId) (s : State) :
    exec (.pointChangeDone d) s = execPointChangeDone d s := rfl
@[simp] theorem exec_pwrApply (by_ : Requester) (s : State) :
    exec (.pwrApply by_) s = execPwrApply by_ s := rfl
@[simp] theorem exec_pwrEmergWrite (by_ : Requester) (v : Word32) (s : State) :
    exec (.pwrEmergWrite by_ v) s = execPwrEmergWrite by_ v s := rfl
@[simp] theorem exec_droopDetect (d : DieId) (mv : BitVec 8) (s : State) :
    exec (.droopDetect d mv) s = execDroopDetect d mv s := rfl
@[simp] theorem exec_droopRelease (d : DieId) (s : State) :
    exec (.droopRelease d) s = execDroopRelease d s := rfl
@[simp] theorem exec_junctionReading (d : DieId) (tempC8 : Vector (BitVec 16) 16) (s : State) :
    exec (.junctionReading d tempC8) s = execJunctionReading d tempC8 s := rfl
@[simp] theorem exec_ageingReading (d : DieId) (slackPs : Vector (BitVec 16) 64) (s : State) :
    exec (.ageingReading d slackPs) s = execAgeingReading d slackPs s := rfl
@[simp] theorem exec_ageingReplan (d : DieId) (s : State) :
    exec (.ageingReplan d) s = execAgeingReplan d s := rfl
@[simp] theorem exec_ageCfgWrite (by_ : Requester) (v : Word32) (s : State) :
    exec (.ageCfgWrite by_ v) s = execAgeCfgWrite by_ v s := rfl
@[simp] theorem exec_selftestSliceStart (item : TestItem) (s : State) :
    exec (.selftestSliceStart item) s = execSelftestSliceStart item s := rfl
@[simp] theorem exec_selftestSliceEnd (d : DieId) (errors : Nat) (eye : LaneEye) (s : State) :
    exec (.selftestSliceEnd d errors eye) s = execSelftestSliceEnd d errors eye s := rfl
@[simp] theorem exec_selftestRotation (item : TestItem) (s : State) :
    exec (.selftestRotation item) s = execSelftestRotation item s := rfl
@[simp] theorem exec_selftestPassEnd (k : Fin 4) (s : State) :
    exec (.selftestPassEnd k) s = execSelftestPassEnd k s := rfl
@[simp] theorem exec_pinCheck (r : PinReading) (row col : Byte) (s : State) :
    exec (.pinCheck r row col) s = execPinCheck r row col s := rfl
@[simp] theorem exec_slCtlWrite (by_ : Requester) (v : Word32) (s : State) :
    exec (.slCtlWrite by_ v) s = execSlCtlWrite by_ v s := rfl
@[simp] theorem exec_tapIdcode (s : State) :
    exec (.tapIdcode) s = execTapIdcode s := rfl
@[simp] theorem exec_tapSamplePreload (data : List Bool) (s : State) :
    exec (.tapSamplePreload data) s = execTapSamplePreload data s := rfl
@[simp] theorem exec_tapExtest (s : State) :
    exec (.tapExtest) s = execTapExtest s := rfl
@[simp] theorem exec_tapClamp (s : State) :
    exec (.tapClamp) s = execTapClamp s := rfl
@[simp] theorem exec_tapHighz (s : State) :
    exec (.tapHighz) s = execTapHighz s := rfl
@[simp] theorem exec_tapIjtag (s : State) :
    exec (.tapIjtag) s = execTapIjtag s := rfl
@[simp] theorem exec_tapBypass (s : State) :
    exec (.tapBypass) s = execTapBypass s := rfl
@[simp] theorem exec_tapReset (s : State) :
    exec (.tapReset) s = execTapReset s := rfl
@[simp] theorem exec_illegalOpcode (at_ : At) (word : Word64) (s : State) :
    exec (.illegalOpcode at_ word) s = execIllegalOpcode at_ word s := rfl
@[simp] theorem exec_laneLockLoss (k : PortId) (s : State) :
    exec (.laneLockLoss k) s = execLaneLockLoss k s := rfl
@[simp] theorem exec_pcieLinkUp (hsp : Bool) (s : State) :
    exec (.pcieLinkUp hsp) s = execPcieLinkUp hsp s := rfl
@[simp] theorem exec_helloTimeout (p : PartId) (s : State) :
    exec (.helloTimeout p) s = execHelloTimeout p s := rfl
@[simp] theorem exec_bypassSelfTestPass (s : State) :
    exec (.bypassSelfTestPass) s = execBypassSelfTestPass s := rfl
@[simp] theorem exec_registerRingJoinFail (x : RingFail) (s : State) :
    exec (.registerRingJoinFail x) s = execRegisterRingJoinFail x s := rfl

end Sys2Proof.Machine
end

