-- ==== Sys2Proof/Laws/Issue.lean ====
section
/-!
SUPPORT. What each shared operation of the instructions does where the instruction comes to Read.
-/
namespace Sys2Proof.Machine

/-- The word of a command that executes. -/
theorem takes_word {s : State} {i : Instr} {w : Issued} (h : s.takes i) (e : issuedOf i = some w) : s.takesWord w := by
  simpa [State.takes, e] using h

/-- The fields of an instruction that executes are allocated. -/
theorem takesWord_ok {s : State} {w : Issued} (h : s.takesWord w) : w.ok.fmt = true ∧ w.ok.code = true := by
  simp only [State.takesWord, Bool.and_eq_true] at h
  exact ⟨h.1.1.1.1.2, h.1.1.1.2⟩

theorem intOp_takes {s : State} {a : At} {p : Pred} {f : FmtS} {op : Byte}
    (h : s.takesWord ⟨a, p, 1, op, ⟨f.rsv == 0, fmtSOk f true true true false false && fnOk f.fn 0⟩, [f.sd, f.sa, f.sb]⟩)
    (g : Word64 → Word64 → Word64) :
    s.intOp a p f op g = .next (s.after a (·.setS f.sd (g (s.sreg a f.sa) (s.sreg a f.sb)))) := by
  simp only [State.intOp, issue_takes h]; rfl

theorem immOp_takes {s : State} {a : At} {p : Pred} {f : FmtSI} {op : Byte} {ok : Checks} {names : List (BitVec 5)}
    (h : s.takesWord ⟨a, p, 1, op, ok, names⟩) (g : Word64 → Word32 → Word64) :
    s.immOp a p f op ok names g = .next (s.after a (·.setS f.sd (g (s.sreg a f.sa) f.imm))) := by
  simp only [State.immOp, issue_takes h]; rfl

theorem fltOp_takes {s : State} {a : At} {p : Pred} {f : FmtS} {op : Byte} {ok : Checks} {names : List (BitVec 5)}
    (h : s.takesWord ⟨a, p, 1, op, ok, names⟩) (g : State → Word32) :
    s.fltOp a p f op ok names g = .next (s.after a (·.setS f.sd ((g s).zeroExtend 64))) := by
  simp only [State.fltOp, issue_takes h]; rfl

/-- A cell store access that is not held, lies in the slot's part and is aligned does its work. -/
theorem memOp_takes {s : State} {a : At} {p : Pred} {op : Byte} {ok : Checks} {names : List (BitVec 5)}
    (h : s.takesWord ⟨a, p, 1, op, ok, names⟩) (n : Nat) (addr : State → Word64) (wr : Bool) (body : State → Nat → Res)
    (h1 : (s.cell a.cell).rangesHeld a.cell s.isLocal a.slot ((s.cell a.cell).slot a.slot).seqNext
      [((addr s).toNat, n, wr)] = false)
    (h2 : (s.cell a.cell).inPart a.slot (addr s).toNat n = true) (h3 : (addr s).toNat % n = 0) :
    s.memOp a p op ok names n addr wr body = body s (addr s).toNat := by
  simp only [State.memOp, issue_takes h]
  simp [h1, h2, h3]

/-- A cell store access outside the slot's part. -/
theorem memOp_bounds {s : State} {a : At} {p : Pred} {op : Byte} {ok : Checks} {names : List (BitVec 5)}
    (h : s.takesWord ⟨a, p, 1, op, ok, names⟩) (n : Nat) (addr : State → Word64) (wr : Bool) (body : State → Nat → Res)
    (h1 : (s.cell a.cell).rangesHeld a.cell s.isLocal a.slot ((s.cell a.cell).slot a.slot).seqNext
      [((addr s).toNat, n, wr)] = false)
    (h2 : (s.cell a.cell).inPart a.slot (addr s).toNat n = false) :
    s.memOp a p op ok names n addr wr body = .next (s.faulted a 1 op 4 (addr s)) := by
  simp only [State.memOp, issue_takes h]
  simp [h1, h2]; rfl

/-- A cell store access in the slot's part whose address is not a multiple of its size. -/
theorem memOp_misaligned {s : State} {a : At} {p : Pred} {op : Byte} {ok : Checks} {names : List (BitVec 5)}
    (h : s.takesWord ⟨a, p, 1, op, ok, names⟩) (n : Nat) (addr : State → Word64) (wr : Bool) (body : State → Nat → Res)
    (h1 : (s.cell a.cell).rangesHeld a.cell s.isLocal a.slot ((s.cell a.cell).slot a.slot).seqNext
      [((addr s).toNat, n, wr)] = false)
    (h2 : (s.cell a.cell).inPart a.slot (addr s).toNat n = true) (h3 : (addr s).toNat % n ≠ 0) :
    s.memOp a p op ok names n addr wr body = .next (s.faulted a 1 op 5 (addr s)) := by
  simp only [State.memOp, issue_takes h]
  simp [h1, h2, h3]; rfl

/-- A branch to a word of the slot's part. -/
theorem branchTo_in (s : State) (a : At) (op : Byte) (i : Int) (t : Nat) (g : Ctx → Ctx) (e : i = t)
    (h : (s.cell a.cell).inPart a.slot (8 * t) 8 = true) : s.branchTo a op i g =
    .next ((s.countIssue a).modSlot a (fun x =>
      { x with ctx := { g x.ctx with pc := BitVec.ofNat 20 t }, seqNext := x.seqNext + 1 })) := by
  subst e
  unfold State.branchTo
  rw [if_neg (by simp [h])]; rfl

/-- A branch out of the slot's part. -/
theorem branchTo_out (s : State) (a : At) (op : Byte) (i : Int) (g : Ctx → Ctx)
    (h : i < 0 ∨ (s.cell a.cell).inPart a.slot (8 * i.toNat) 8 = false) :
    s.branchTo a op i g = .next (s.faulted a 1 op 6 0) := by
  unfold State.branchTo
  rw [if_pos (by rcases h with h | h <;> simp [h])]; rfl

/-- A dm instruction that executes. -/
theorem dmDispatch_takes {s : State} {a : At} {p : Pred} {f : FmtQ} {op : Byte}
    (h : s.takesWord ⟨a, p, 4, op, ⟨true, true⟩, if f.sov = 1 then [f.so] else []⟩) (ut cp : Bool) :
    s.dmDispatch a p f op ut cp =
      let qd2 := if cp then s.qreg a (bfld f.fn 24 3) else 0
      let td := if ut then s.treg a f.t else 0
      if !(qdescGood (s.qreg a f.q)) || (cp && !(qdescGood qd2)) || (ut && !(tileGood td)) then
        .next (s.faulted a 4 op 0x03 0)
      else if 32 ≤ (s.cell a.cell).eng.moverQ.length then .next (s.stall a 0x3)
      else .next (s.queued a (fun e => { e with moverQ := e.moverQ ++
        [⟨s.dispatchTag a 4 op, op, f, s.qreg a f.q, qd2, td, if f.sov = 1 then s.sreg a f.so else 0⟩] })) := by
  simp only [State.dmDispatch, issue_takes h]; rfl

/-- A cl instruction that executes. -/
theorem clDispatch_takes {s : State} {a : At} {p : Pred} {f : FmtQ} {op : Byte}
    (h : s.takesWord ⟨a, p, 6, op, ⟨true, true⟩, []⟩) :
    s.clDispatch a p f op =
      if !(qdescGood (s.qreg a f.q)) then .next (s.faulted a 6 op 0x03 0)
      else if 16 ≤ (s.cell a.cell).eng.clQ.length then .next (s.stall a 0x4)
      else .next (s.queued a (fun e => { e with clQ := e.clQ ++ [⟨s.dispatchTag a 6 op, op, f, s.qreg a f.q⟩] })) := by
  simp only [State.clDispatch, issue_takes h]; rfl

/-- Writing back the grain state a slot has changes nothing. -/
theorem setGrain_self (s : State) (a : At) : s.setGrain a (s.slot a).grain = s := by
  simp only [State.setGrain, State.modSlot, State.modCell, Cell.modSlot, vmod, State.setCell, State.cell]
  have h : vset (vget s.cells a.cell).slots a.slot { vget (vget s.cells a.cell).slots a.slot with
      grain := (s.slot a).grain } = (vget s.cells a.cell).slots := vset_vget_self _ _
  rw [h, vset_vget_self]

/-- An mx instruction that executes; only a drain that converts under SR changes the draw counters. -/
theorem mxDispatch_takes {s : State} {a : At} {p : Pred} {f : FmtM} {op : Byte} {k : MxKind} {ua ub : Bool}
    (h : s.takesWord ⟨a, p, 2, op, ⟨true, true⟩, []⟩) :
    s.mxDispatch a p f k op ua ub =
      let m := s.mxInstr a f k op ua ub
      let n := (s.cell a.cell).scoreboard a.slot
      if (ua && !(tileGood m.ta)) || (ub && !(tileGood m.tb)) then .next (s.faulted a 2 op 0x03 0)
      else if 64 ≤ (s.cell a.cell).eng.plateQ.length then .next (s.stall a 0x1)
      else if 16 ≤ n ∨ 16 < n + m.entries 0 (!((s.cell a.cell).residRngs m).isEmpty) then .next (s.stall a 0xA)
      else
        let t := tileOf m.ta
        let dg := if k = .drain ∧ drainDraws f ∧ m.tag.phaseBad = false then
            (s.slot a).grain.reserve 128 (fun l => if l < t.lcols then t.lrows else 0)
          else ((s.slot a).grain.plain, (s.slot a).grain)
        .next ((s.setGrain a dg.2).queued a (fun e => { e with plateQ := e.plateQ ++ [{ m with draw := dg.1 }] })) := by
  unfold State.mxDispatch
  rw [issue_takes h]; rfl

/-- What a reservation captures and leaves (R154). -/
theorem reserve_fields (g : Grain) (n : Nat) (need : Nat → Nat) :
    (g.reserve n need).1.start = g.counters ∧ (g.reserve n need).1.laneBase = g.keyBase ∧
    (g.reserve n need).1.seqSlot = g.seqSlot ∧ (g.reserve n need).1.jobSeed = g.jobSeed ∧
    (g.reserve n need).1.stepIndex = g.stepIndex ∧
    (g.reserve n need).2 = { g with counters := (g.reserve n need).2.counters } := by
  refine ⟨?_, ?_, ?_, ?_, ?_, ?_⟩ <;> dsimp only [Grain.reserve] <;> split <;> rfl

/-- A vx instruction that executes. -/
theorem vxDispatch_takes {s : State} {a : At} {p : Pred} {m : VxInstr}
    (h : s.takesWord ⟨a, p, 3, m.op, vxOk m, vxNames m⟩) :
    s.vxDispatch a p m.op m =
      if ([m.d, m.a, m.b, m.c].map (specOf m.vi)).any (s.specBad a) then .next (s.faulted a 3 m.op 0x03 0)
      else if 32 ≤ (s.cell a.cell).eng.vecQ.length then .next (s.stall a 0x2)
      else
        let at_ := fun (b : BitVec 7) => specOf m.vi b
        let outside := match s.phaseFor a with | some ph => ph != .closed | none => false
        let m1 : VxInstr := { m with
          tag := { s.dispatchTag a 3 m.op with
            phaseBad := (s.dispatchTag a 3 m.op).phaseBad || ((m.op == 0x41 && bit m.imm 0) && outside) },
          descs := #v[s.specDesc a (at_ m.d), s.specDesc a (at_ m.a), s.specDesc a (at_ m.b), s.specDesc a (at_ m.c)],
          svals := #v[s.specReg a (at_ m.d), s.specReg a (at_ m.a), s.specReg a (at_ m.b), s.specReg a (at_ m.c)] }
        let dg := m1.reserve (s.slot a).grain
        let s1 := s.setGrain a dg.2
        .next ((if m.op = 0x40 then s1.modCell a.cell (fun y => y.modRegs (fun r => { r with optStatus := 0 })) else s1).queued
          a (fun e => { e with vecQ := e.vecQ ++ [{ m1 with draw := dg.1 }] })) := by
  unfold State.vxDispatch
  exact issue_takes h _

/-- What a vx instruction's reservation leaves (R154). -/
theorem vx_reserve_fields (m : VxInstr) (g : Grain) :
    (m.reserve g).2 = { g with counters := (m.reserve g).2.counters } := by
  unfold VxInstr.reserve
  repeat' split
  all_goals first | rfl | exact (reserve_fields _ _ _).2.2.2.2.2

/-- A vx command goes through the shared dispatch. -/
theorem vectorWord_exec (i : Instr) (s : State) (a : At) (p : Pred) (m : VxInstr) (h : vectorWord i = some (a, p, m)) :
    exec i s = s.vxDispatch a p m.op m ∧ issuedOf i = some ⟨a, p, 3, m.op, vxOk m, vxNames m⟩ := by
  cases i
  all_goals first
    | (injection h with h
       injection h with h1 h
       injection h with h2 h
       subst h1 h2 h
       exact ⟨rfl, rfl⟩)
    | exact absurd h (by simp only [vectorWord, reduceCtorEq, not_false_eq_true])

/-- Every instruction goes through the shared checks of Table 5-8: its body is what it does from Read on. -/
theorem issue_shape (i : Instr) (s : State) (w : Issued) (h : issuedOf i = some w) :
    ∃ body, exec i s = s.issue w.at_ w.p w.cls w.op w.ok w.names body := by
  cases i
  all_goals first
    | (injection h with h
       subst h
       simp only [
    exec_scAdd, exec_scSub, exec_scMul, exec_scMulhu, exec_scDiv, exec_scDivu, exec_scRem, exec_scRemu, exec_scAnd,
    exec_scOr, exec_scXor, exec_scShl, exec_scShr, exec_scSar, exec_scCmp, exec_scPop, exec_scAddi, exec_scAndi,
    exec_scOri, exec_scXori, exec_scCmpi, exec_scMovi, exec_scLdhi, exec_scShi, exec_scFadd, exec_scFsub,
    exec_scFmul, exec_scFfma, exec_scFdiv, exec_scFsqrt, exec_scFrcp, exec_scFtr, exec_scFcmp, exec_scFcvt,
    exec_scLd, exec_scSt, exec_scRdreg, exec_scWrreg, exec_scTld, exec_scTst, exec_scTset, exec_scTbase,
    exec_scQld, exec_scQst, exec_scQset, exec_scQaddr, exec_scBr, exec_scBri, exec_scCall, exec_scNop, exec_scExit,
    exec_scTime, exec_scId, exec_mxMma, exec_mxDrain, exec_mxVsave, exec_mxVload, exec_mxVfree, exec_vxAdd,
    exec_vxSub, exec_vxMul, exec_vxFma, exec_vxNeg, exec_vxAbs, exec_vxMin, exec_vxMax, exec_vxSel, exec_vxCmp,
    exec_vxCvt, exec_vxDiv, exec_vxSqrt, exec_vxRecip, exec_vxRsqrt, exec_vxExp, exec_vxExp2, exec_vxLog,
    exec_vxLog2, exec_vxTanh, exec_vxSigmoid, exec_vxErf, exec_vxSegred, exec_vxBcast, exec_vxGrain, exec_vxGskip,
    exec_vxSumm, exec_vxCrc64, exec_vxSha256, exec_vxOptstep, exec_vxRmodeEnter, exec_vxRmodeLeave, exec_vxAddi,
    exec_vxSubi, exec_vxMuli, exec_vxFmai, exec_vxMini, exec_vxMaxi, exec_dmGet, exec_dmPut, exec_dmCopy,
    exec_clAg, exec_clRs, exec_clAr, exec_clA2a, exec_clBcast, exec_clBar, exec_clUntag, exec_syInit,
    exec_sySignal, exec_syWait, exec_syPoll, exec_syFence, exec_syYield, exec_syRsignal, exec_stOpen, exec_stStop,
    exec_stFix, exec_stSeed, exec_trMark, exec_trVal, exec_trCtr, execScAdd, execScSub, execScMul, execScMulhu,
    execScDiv, execScDivu, execScRem, execScRemu, execScAnd, execScOr, execScXor, execScShl, execScShr, execScSar,
    execScCmp, execScPop, execScAddi, execScAndi, execScOri, execScXori, execScCmpi, execScMovi, execScLdhi,
    execScShi, execScFadd, execScFsub, execScFmul, execScFfma, execScFdiv, execScFsqrt, execScFrcp, execScFtr,
    execScFcmp, execScFcvt, execScLd, execScSt, execScRdreg, execScWrreg, execScTld, execScTst, execScTset,
    execScTbase, execScQld, execScQst, execScQset, execScQaddr, execScBr, execScBri, execScCall, execScNop,
    execScExit, execScTime, execScId, execMxMma, execMxDrain, execMxVsave, execMxVload, execMxVfree, execVxAdd,
    execVxSub, execVxMul, execVxFma, execVxNeg, execVxAbs, execVxMin, execVxMax, execVxSel, execVxCmp, execVxCvt,
    execVxDiv, execVxSqrt, execVxRecip, execVxRsqrt, execVxExp, execVxExp2, execVxLog, execVxLog2, execVxTanh,
    execVxSigmoid, execVxErf, execVxSegred, execVxBcast, execVxGrain, execVxGskip, execVxSumm, execVxCrc64,
    execVxSha256, execVxOptstep, execVxRmodeEnter, execVxRmodeLeave, execVxAddi, execVxSubi, execVxMuli,
    execVxFmai, execVxMini, execVxMaxi, execDmGet, execDmPut, execDmCopy, execClAg, execClRs, execClAr, execClA2a,
    execClBcast, execClBar, execClUntag, execSyInit, execSySignal, execSyWait, execSyPoll, execSyFence,
    execSyYield, execSyRsignal, execStOpen, execStStop, execStFix, execStSeed, execTrMark, execTrVal, execTrCtr,
    State.intOp, State.immOp, State.fltOp, State.memOp, State.mxDispatch, State.vDispatch, State.viDispatch,
    State.vxDispatch, State.dmDispatch, State.clDispatch]
       exact ⟨_, rfl⟩)
    | exact absurd h (by simp only [issuedOf, reduceCtorEq, not_false_eq_true])

end Sys2Proof.Machine
end

