-- ==== Sys2Proof/Laws/Store.lean ====
section
/-!
SUPPORT. Reading a sparse store after a write, and that every operation on a store keeps its canonical form.
-/
namespace Sys2Proof.Machine

section
variable {β : Type} [DecidableEq β] {d : β}

theorem Sparse.wfFrom_mono {m : Sparse β} {i j : Nat} (h : Sparse.wfFrom d j m) (hij : i ≤ j) : Sparse.wfFrom d i m := by
  cases m with
  | nil => rfl
  | cons e r =>
    simp only [Sparse.wfFrom, Bool.and_eq_true, decide_eq_true_eq] at h ⊢
    exact ⟨⟨by omega, h.1.2⟩, h.2⟩

/-- Below the first key everything reads as the default. -/
theorem Sparse.get_lt {m : Sparse β} {lo k : Nat} (h : Sparse.wfFrom d lo m) (hk : k < lo) : Sparse.get d m k = d := by
  cases m with
  | nil => rfl
  | cons e r =>
    simp only [Sparse.wfFrom, Bool.and_eq_true, decide_eq_true_eq] at h
    simp only [Sparse.get]
    rw [if_neg (by omega), if_pos (by omega)]

/-- Reading after a write. -/
theorem Sparse.get_set {m : Sparse β} {lo : Nat} (h : Sparse.wfFrom d lo m) (k j : Nat) (v : β) :
    Sparse.get d (Sparse.set d m k v) j = if j = k then v else Sparse.get d m j := by
  induction m generalizing lo with
  | nil =>
    simp only [Sparse.set]
    split
    · next hv => simp [Sparse.get, hv]
    · by_cases hj : j = k <;> simp [Sparse.get, hj]
  | cons e r ih =>
    obtain ⟨a, w⟩ := e
    simp only [Sparse.wfFrom, Bool.and_eq_true, decide_eq_true_eq] at h
    obtain ⟨⟨h1, h2⟩, h3⟩ := h
    simp only [Sparse.set]
    by_cases hk : k < a
    · rw [if_pos hk]
      split
      · next hv =>
        subst hv
        by_cases hj : j = k
        · rw [if_pos hj]; simp only [Sparse.get]; rw [if_neg (by omega), if_pos (by omega)]
        · rw [if_neg hj]
      · simp only [Sparse.get]
        by_cases hj : j = k
        · simp [hj]
        · rw [if_neg hj, if_neg hj]
          by_cases hl : j < k
          · rw [if_pos hl, if_neg (by omega), if_pos (by omega)]
          · rw [if_neg hl]
    · rw [if_neg hk]
      by_cases hk2 : k = a
      · rw [if_pos hk2]
        subst hk2
        split
        · next hv =>
          subst hv
          by_cases hj : j = k
          · rw [if_pos hj]; exact Sparse.get_lt h3 (by omega)
          · rw [if_neg hj]; simp only [Sparse.get]; rw [if_neg hj]
            by_cases hl : j < k
            · rw [if_pos hl]; exact Sparse.get_lt h3 (by omega)
            · rw [if_neg hl]
        · simp only [Sparse.get]
          by_cases hj : j = k <;> simp [hj]
      · rw [if_neg hk2]
        simp only [Sparse.get]
        by_cases hj : j = a
        · rw [if_pos hj, if_neg (by omega), if_pos hj]
        · rw [if_neg hj, if_neg hj]
          by_cases hl : j < a
          · rw [if_pos hl, if_neg (by omega), if_pos hl]
          · rw [if_neg hl, if_neg hl, ih h3]

theorem Sparse.set_wfFrom {m : Sparse β} {lo k : Nat} {v : β} (h : Sparse.wfFrom d lo m) (hk : lo ≤ k) :
    Sparse.wfFrom d lo (Sparse.set d m k v) := by
  induction m generalizing lo with
  | nil =>
    simp only [Sparse.set]
    split
    · rfl
    · next hv => simp [Sparse.wfFrom, hv, hk]
  | cons e r ih =>
    obtain ⟨a, w⟩ := e
    simp only [Sparse.wfFrom, Bool.and_eq_true, decide_eq_true_eq] at h
    obtain ⟨⟨h1, h2⟩, h3⟩ := h
    simp only [Sparse.set]
    split
    · split
      · simp [Sparse.wfFrom, h1, h2, h3]
      · next hka hv =>
        simp only [Sparse.wfFrom, Bool.and_eq_true, decide_eq_true_eq]
        exact ⟨⟨hk, hv⟩, ⟨by omega, h2⟩, h3⟩
    · split
      · split
        · exact Sparse.wfFrom_mono h3 (by omega)
        · next hka hv =>
          simp only [Sparse.wfFrom, Bool.and_eq_true, decide_eq_true_eq]
          exact ⟨⟨hk, hv⟩, by rw [‹k = a›]; exact h3⟩
      · simp only [Sparse.wfFrom, Bool.and_eq_true, decide_eq_true_eq]
        exact ⟨⟨h1, h2⟩, ih h3 (by omega)⟩

/-- A write keeps the canonical form. -/
theorem Sparse.set_wf {m : Sparse β} (h : Sparse.wf d m) (k : Nat) (v : β) : Sparse.wf d (Sparse.set d m k v) :=
  Sparse.set_wfFrom h (Nat.zero_le _)

theorem Sparse.filter_wfFrom {m : Sparse β} {lo : Nat} (p : Nat × β → Bool) (h : Sparse.wfFrom d lo m) :
    Sparse.wfFrom d lo (m.filter p) := by
  induction m generalizing lo with
  | nil => rfl
  | cons e r ih =>
    simp only [Sparse.wfFrom, Bool.and_eq_true, decide_eq_true_eq] at h
    simp only [List.filter_cons]
    split
    · simp only [Sparse.wfFrom, Bool.and_eq_true, decide_eq_true_eq]
      exact ⟨h.1, ih h.2⟩
    · exact Sparse.wfFrom_mono (ih h.2) (by omega)

/-- Removing entries keeps the canonical form. -/
theorem Sparse.filter_wf {m : Sparse β} (p : Nat × β → Bool) (h : Sparse.wf d m) : Sparse.wf d (m.filter p) :=
  Sparse.filter_wfFrom p h

end

namespace ProtMem

theorem wf_iff (m : ProtMem) : m.wf ↔ Sparse.wf (0 : Byte) m.bytes ∧ Sparse.wf (0 : BitVec 39) m.marks := by
  simp [wf]

theorem putBytes_wf {m : ProtMem} (h : m.wf) (a : Nat) (bs : List Byte) : (m.putBytes a bs).wf := by
  induction bs generalizing m a with
  | nil => exact h
  | cons b r ih =>
    rw [wf_iff] at h
    exact ih (m := ⟨Sparse.set 0 m.bytes a b, m.marks⟩) ((wf_iff _).2 ⟨Sparse.set_wf h.1 _ _, h.2⟩) _

theorem setDiff_wf {m : ProtMem} (h : m.wf) (w : Nat) (x : BitVec 39) : (m.setDiff w x).wf := by
  rw [wf_iff] at h ⊢
  exact ⟨h.1, Sparse.set_wf h.2 _ _⟩

theorem mergeWord_wf {m : ProtMem} (h : m.wf) (w : Nat) : (m.mergeWord w).wf := by
  unfold mergeWord
  split
  · exact h
  · exact setDiff_wf (putBytes_wf h _ _) _ _

theorem clearDiffs_wf {m : ProtMem} (h : m.wf) (w n : Nat) : (m.clearDiffs w n).wf := by
  rw [wf_iff] at h ⊢
  exact ⟨h.1, Sparse.filter_wf _ h.2⟩

/-- A write keeps the canonical form of a protected memory. -/
theorem write_wf {m : ProtMem} (h : m.wf) (a : Nat) (bs : List Byte) : (m.write a bs).wf := by
  unfold write
  dsimp only
  refine putBytes_wf (clearDiffs_wf ?_ _ _) _ _
  split <;> split <;> first | exact h | exact mergeWord_wf h _ | exact mergeWord_wf (mergeWord_wf h _) _

theorem poison_wf {m : ProtMem} (h : m.wf) (w : Nat) : (m.poison w).wf := setDiff_wf h _ _

theorem poisonAll_wf {m : ProtMem} (h : m.wf) (ws : List Nat) : (m.poisonAll ws).wf := by
  unfold poisonAll
  induction ws generalizing m with
  | nil => exact h
  | cons w r ih => exact ih (poison_wf h w)

theorem zeroRange_wf {m : ProtMem} (h : m.wf) (a n : Nat) : (m.zeroRange a n).wf := by
  rw [wf_iff] at h ⊢
  exact ⟨Sparse.filter_wf _ h.1, Sparse.filter_wf _ h.2⟩

/-- A memory in which nothing is listed is in canonical form. -/
theorem empty_wf : ProtMem.empty.wf := rfl

/-- The byte held at an address after a write. -/
theorem byte_putBytes {m : ProtMem} (h : m.wf) (a : Nat) (bs : List Byte) (b : Nat) :
    (m.putBytes a bs).byte b = if a ≤ b ∧ b < a + bs.length then bs.getD (b - a) 0 else m.byte b := by
  induction bs generalizing m a with
  | nil =>
    simp only [putBytes, List.length_nil]
    rw [if_neg (by omega)]
  | cons x r ih =>
    rw [wf_iff] at h
    have hw : (⟨Sparse.set 0 m.bytes a x, m.marks⟩ : ProtMem).wf := (wf_iff _).2 ⟨Sparse.set_wf h.1 _ _, h.2⟩
    simp only [putBytes]
    rw [ih hw]
    simp only [byte, List.length_cons]
    rw [Sparse.get_set h.1]
    by_cases hb : b = a
    · subst hb; rw [if_neg (by omega), if_pos rfl, if_pos (by omega)]; simp
    · rw [if_neg hb]
      by_cases hr : a ≤ b ∧ b < a + (r.length + 1)
      · rw [if_pos hr, if_pos (by omega)]
        obtain ⟨k, hk⟩ : ∃ k, b - a = k + 1 := ⟨b - a - 1, by omega⟩
        have : b - (a + 1) = k := by omega
        rw [hk, this]; simp
      · rw [if_neg hr, if_neg (by omega)]

theorem marks_putBytes (m : ProtMem) (a : Nat) (bs : List Byte) : (m.putBytes a bs).marks = m.marks := by
  induction bs generalizing m a with
  | nil => rfl
  | cons x r ih => simp only [putBytes]; rw [ih]

end ProtMem
end Sys2Proof.Machine
end

