-- ==== Sys2Proof/Tests/Slice0.lean ====
section
/-!
SUPPORT. Tests: ill-formed commands that WellFormed refuses, worked values of the specification's tables and examples,
and for each statement a state and operands that meet its hypotheses.
-/
open Sys2Proof Sys2Proof.Machine
set_option Elab.async false
namespace Sys2Proof.Tests

/-! ### The control core -/

/-- Reset with the cores powered and out of reset. -/
def up : State := { State.reset with start := { Startup.reset with coreOn := true } }

/-- A cell whose context of slot `i` runs. -/
def runCell (i : SlotId) (x : Cell) : Cell := { x.modSlot i (fun y => { y with state := .running }) with running := some i }

/-- Slot 0 of cell 0 runs. -/
def run0 : State := up.modCell 0 (runCell 0)

/-- Slot 1 of cell 0 runs. -/
def run1 : State := up.modCell 0 (runCell 1)

def at0 : At := ⟨0, 0⟩
def always : Pred := ⟨false, 0⟩
def fS : FmtS := ⟨1, 2, 3, 0, 0, 0, 0⟩
def fSI : FmtSI := ⟨1, 2, 0, 0, 7⟩

/-- An F32 tile of one element at the start of the cell store. -/
def tileF32 : BitVec 256 := BitVec.ofNat 256 (2 ^ 159 + 32 * 2 ^ 96)

/-- A queue descriptor of a local transfer of 32 bytes. -/
def queueD : BitVec 256 := BitVec.ofNat 256 (2 ^ 223 + 2 ^ 124 + 32 * 2 ^ 64)

/-- Descriptors and addresses in the registers of slot 0 of cell 0. -/
def ready0 : State := run0.modCtx at0 (fun x => { x with
  t := Vector.replicate 16 tileF32, q := Vector.replicate 8 queueD, s := vset x.s 2 0x100 })

theorem witness_ScalarIntegerAndImmediateResults :
    (∀ i ∈ [Instr.scAdd at0 always fS, .scSub at0 always fS, .scMul at0 always fS, .scMulhu at0 always fS,
      .scDiv at0 always fS, .scDivu at0 always fS, .scRem at0 always fS, .scRemu at0 always fS, .scAnd at0 always fS,
      .scOr at0 always fS, .scXor at0 always fS, .scShl at0 always fS, .scShr at0 always fS, .scSar at0 always fS],
      run0.takes i = true) ∧
    (∀ i ∈ [Instr.scAddi at0 always fSI, .scAndi at0 always fSI, .scOri at0 always fSI, .scXori at0 always fSI,
      .scMovi at0 always { fSI with sa := 0 }, .scLdhi at0 always fSI, .scShi at0 always fSI,
      .scShi at0 always { fSI with fn := 1 }, .scShi at0 always { fSI with fn := 2 }], run0.takes i = true) := by decide

theorem witness_ScalarFloatResults :
    let f1 : FmtS := { fS with sb := 0 }
    (∀ i ∈ [Instr.scFadd at0 always fS, .scFsub at0 always fS, .scFmul at0 always fS, .scFfma at0 always { fS with sc := 4 },
      .scFdiv at0 always fS, .scFsqrt at0 always f1, .scFrcp at0 always f1, .scFrcp at0 always { f1 with fn := 1 },
      .scFtr at0 always f1, .scFcvt at0 always f1, .scFcvt at0 always { f1 with fn := 1 },
      .scFcvt at0 always { f1 with fn := 2 }, .scFcvt at0 always { f1 with fn := 3 }], run0.takes i = true) ∧
    f32 0x7FC00000 = .nan ∧ f32 0xFF800000 = .inf true ∧ f32 0x7F800000 = .inf false ∧
    f32 0x3F800000 = .fin false 8388608 (-23) ∧ (f32 0x3F800000).toInt .rtz = some 1 := by decide

theorem witness_PredicateAndDescriptorResults :
    let cmp : FmtS := ⟨0, 2, 3, 0, 1, 0, 5⟩
    (∀ i ∈ [Instr.scCmp at0 always cmp, .scCmpi at0 always ⟨0, 2, 1, 5, 7⟩, .scFcmp at0 always { cmp with fn := 4 },
      .scPop at0 always ⟨0, 0, 0, 0, 7, 0, 0xFF⟩, .scTset at0 always { fS with sc := 4 }, .scTbase at0 always fS,
      .scQset at0 always { fS with sc := 4 }, .scQaddr at0 always fS, .scNop at0 always ⟨0, 0, 0, 0, 0, 0, 0⟩,
      .scTime at0 always ⟨31, 0, 0, 0, 0, 0, 0⟩, .scId at0 always ⟨31, 0, 0, 0, 0, 0, 0⟩], run0.takes i = true) ∧
    f32 (0x7FC00000 : Word32) = .nan := by decide

/-- Each case of the checks: a slot that does not issue, a PC outside the part, a poisoned word, a reserved field, a
reserved predicate, a false predicate, a pending register. -/
theorem witness_DecodeAndPredicateRules :
    let i := Instr.scAdd at0 always fS
    let far := run0.modCtx at0 (fun x => { x with pc := 0xFFFFF })
    let bad := run0.modCell 0 (fun x => { x with store := x.store.poison 0 })
    let held := run0.modCell 0 (fun x => x.modEng (fun e => { e with results := [⟨0, 0, 2, 0⟩] }))
    (issuedOf i).isSome = true ∧ (up.cell 0).issues 0 = false ∧
    ((far.cell 0).issues 0 = true ∧ far.fetchFault at0 = some 0x04) ∧
    ((bad.cell 0).issues 0 = true ∧ bad.fetchFault at0 = some 0x08) ∧
    ((run0.cell 0).issues 0 = true ∧ run0.fetchFault at0 = none) ∧
    (issuedOf (.scAdd at0 always { fS with rsv := 1 })).map (·.ok.fmt) = some false ∧
    (issuedOf (.scAdd at0 always { fS with fn := 1 })).map (fun w => (w.ok.fmt, w.ok.code)) = some (true, false) ∧
    (issuedOf i).map (fun w => (w.ok.fmt, w.ok.code)) = some (true, true) ∧ predReserved ⟨true, 0⟩ = true ∧ bit (run0.slot at0).ctx.p 1 = false ∧ predReserved ⟨true, 1⟩ = false ∧
    predTrue ⟨true, 1⟩ (run0.slot at0).ctx.p = true ∧
    ((held.cell 0).issues 0 = true ∧ held.fetchFault at0 = none ∧ (held.cell 0).pendingS 0 2 = true) := by decide

theorem witness_CellStoreAccessResults :
    let x := ready0.cell 0
    let bad := ready0.modCell 0 (fun y => { y with store := y.store.poison 64 })
    let f1 : FmtS := ⟨1, 2, 0, 0, 0, 0, 0⟩
    let f0 : FmtSI := { fSI with imm := 0 }
    (∀ i ∈ [Instr.scLd at0 always f0, .scSt at0 always f0, .scTld at0 always f1, .scTst at0 always f1,
      .scQld at0 always f1, .scQst at0 always f1], ready0.takes i = true ∧ bad.takes i = true) ∧
    (ready0.sreg at0 2).toNat = 0x100 ∧
    (∀ n ∈ [8, 32], x.inPart 0 0x100 n = true ∧ 0x100 % n = 0 ∧ x.store.anyPoison 0x100 n = false ∧
      (bad.cell 0).store.anyPoison 0x100 n = true ∧ (∀ w ∈ [true, false],
        x.rangesHeld 0 ready0.isLocal 0 (x.slot 0).seqNext [(0x100, n, w)] = false ∧
        x.rangesHeld 0 ready0.isLocal 0 (x.slot 0).seqNext [(0x5FFFFF, n, w)] = false ∧
        x.rangesHeld 0 ready0.isLocal 0 (x.slot 0).seqNext [(0x101, n, w)] = false) ∧
      x.inPart 0 0x5FFFFF n = false ∧ x.inPart 0 0x101 n = true ∧ 0x101 % n ≠ 0) := by decide

theorem witness_StoredWordsAndTheirCode : ProtMem.empty.wf = true ∧ (0x5FFFFC : Nat) % 4 = 0 ∧ ([1, 2, 3, 4] : List Byte).length % 4 = 0 := by
  decide

theorem witness_BranchesAndContextEnd :
    let x := run0.cell 0
    let b : FmtSB := ⟨0, 0, 1⟩
    let low := run0.modCell 0 (fun y => { y with vatLive := 1 })
    let busy := run0.modCell 0 (fun y => y.modEng (fun e => { e with clPending := [(0, 0, false)] }))
    (∀ i ∈ [Instr.scBr at0 always b, .scCall at0 always b, .scBr at0 always { b with offset := 0xFFFFFFFF },
      .scBri at0 always ⟨2, 0, 0⟩, .scExit at0 always ⟨0, 0, 0, 0, 0, 0, 0⟩], run0.takes i = true) ∧
    x.inPart 0 8 8 = true ∧ ((0 : Nat) : Int) + (0xFFFFFFFF : Word32).toInt < 0 ∧ (run0.sreg at0 2).toNat = 8 * 0 ∧
    x.inPart 0 0 8 = true ∧ (ready0.modCtx at0 (·.setS 2 0x600000)).takes (.scBri at0 always ⟨2, 0, 0⟩) = true ∧
    x.inPart 0 0x600000 8 = false ∧ x.allBusy 0 = false ∧ x.vatAnyLive = false ∧
    low.takes (.scExit at0 always ⟨0, 0, 0, 0, 0, 0, 0⟩) = true ∧ (low.cell 0).vatAnyLive = true ∧
    busy.takes (.scExit at0 always ⟨0, 0, 0, 0, 0, 0, 0⟩) = true ∧ (busy.cell 0).allBusy 0 = true := by decide +kernel

/-! ### Queues and engines of a cell -/

def fM : FmtM := ⟨1, 2, 0, 0, 0, 0, 0, 0⟩
def fMOf (k : MxKind) : FmtM := if k = .mma then fM else if k = .vfree then ⟨0, 0, 0, 1, 0, 0, 0, 0⟩ else ⟨1, 0, 0, 0, 0, 0, 0, 0⟩
/-- An F32 tile of one row of 128 elements. -/
def tileRow : BitVec 256 := BitVec.ofNat 256 (2 ^ 159 + 512 * 2 ^ 96 + 127 * 2 ^ 80)
def mxGood (k : MxKind) : MxInstr :=
  if k = .vsave ∨ k = .vload then ⟨⟨0, 0, 2, 1, 0, 0, false⟩, k, fMOf k, tileRow, 0, Draw.none⟩
  else ⟨⟨0, 0, 2, 1, 0, 0, false⟩, k, fMOf k, tileF32, tileF32, Draw.none⟩
def fV : FmtV := ⟨0x60, 0x61, 0x42, 0x7F, 0, 0, 0⟩
def fQ : FmtQ := ⟨1, 2, 5, 0, 2, 1, 0⟩
def tag0 (cls : BitVec 4) (op : Byte) : Tag := ⟨0, 0, cls, op, 0, 0, false⟩
def onEng (s : State) (f : Engines → Engines) : State := s.modCell 0 (fun x => x.modEng f)
def mx (k : MxKind) (f : FmtM) : MxInstr := ⟨tag0 2 1, k, f, tileF32, tileF32, Draw.none⟩
def mxRun (k : MxKind) : MxRun := ⟨mx k fM, 0, 8, none, [], 0, 0, 0, 0, [], false⟩
/-- The plate's copy of the one slice of B of an instruction of slot 0. -/
def bTile : StatTile := ⟨0, 0, 0, [[readLogical (up.cell 0).store (tileOf tileF32) 0 0]]⟩
def badTile (s : State) : State := s.modCtx at0 (·.setT 1 0)

theorem witness_PlateAndVectorDispatch :
    let full := onEng ready0 (fun e => { e with plateQ := List.replicate 64 (mx .vfree fM) })
    let many := onEng ready0 (fun e => { e with plateQ := List.replicate 8 (mx .mma fM) })
    let i := Instr.mxMma at0 always fM
    (∀ j ∈ [i, .mxDrain at0 always (fMOf .drain), .mxVsave at0 always (fMOf .vsave), .mxVload at0 always (fMOf .vload),
      .mxVfree at0 always (fMOf .vfree)],
      ready0.takes j = true) ∧
    tileGood (ready0.treg at0 1) = true ∧ tileGood (ready0.treg at0 2) = true ∧
    (ready0.cell 0).scoreboard 0 + 2 ≤ 16 ∧ (ready0.cell 0).eng.plateQ.length < 64 ∧
    ((badTile ready0).takes i = true ∧ tileGood ((badTile ready0).treg at0 1) = false) ∧
    (full.takes i = true ∧ tileGood (full.treg at0 1) = true ∧ 64 ≤ (full.cell 0).eng.plateQ.length) ∧
    (many.takes i = true ∧ tileGood (many.treg at0 1) = true ∧ (many.cell 0).eng.plateQ.length < 64 ∧
      14 < (many.cell 0).scoreboard 0) := by decide

theorem witness_PlateAndVectorDispatch_vector :
    let i := Instr.vxFma at0 always fV
    let full := onEng ready0 (fun e => { e with
      vecQ := List.replicate 32 ⟨tag0 3 1, 1, false, 0, 1, 2, 3, 0, 0, 0, 0, Vector.replicate 4 0, Vector.replicate 4 0, Draw.none⟩ })
    (vectorWord i).isSome = true ∧ ready0.takes i = true ∧ [(0x60 : BitVec 7), 0x61, 0x42, 0x7F].map (specOf false) =
      [.stream 0, .stream 1, .scalar 2, .none] ∧
    (∀ t : BitVec 4, t = 0 ∨ t = 1 → tileGood (ready0.treg at0 t) = true) ∧ (ready0.cell 0).eng.vecQ.length < 32 ∧
    ((badTile ready0).takes i = true ∧ tileGood ((badTile ready0).treg at0 1) = false) ∧
    (full.takes i = true ∧ tileGood (full.treg at0 1) = true ∧ 32 ≤ (full.cell 0).eng.vecQ.length) ∧
    ready0.takes (.vxOptstep at0 always ⟨0x7F, 0x70, 0, 0x100⟩) = true := by decide

theorem witness_MoverAndCollectiveDispatch :
    let bad := ready0.modCtx at0 (·.setQ 1 0)
    (∀ i ∈ [Instr.dmGet at0 always fQ, .dmPut at0 always fQ, .dmCopy at0 always fQ, .clAg at0 always fQ, .clRs at0 always fQ,
      .clAr at0 always fQ, .clA2a at0 always fQ, .clBcast at0 always fQ, .clBar at0 always fQ, .clUntag at0 always fQ],
      ready0.takes i = true ∧ bad.takes i = true) ∧
    qdescGood (ready0.qreg at0 1) = true ∧ qdescGood (ready0.qreg at0 0) = true ∧ tileGood (ready0.treg at0 2) = true ∧
    (ready0.cell 0).eng.moverQ.length < 32 ∧ (ready0.cell 0).eng.clQ.length < 16 ∧ qdescGood (bad.qreg at0 1) = false := by
  decide

theorem witness_PlateQueueStarts :
    let good := fun (k : MxKind) =>
      let m := mxGood k
      let s := onEng up (fun e => { e with plateQ := [m] })
      let ep := s.epilogue 0 m
      (s.cell 0).rangesHeld 0 s.isLocal m.tag.slot m.tag.seq ((s.cell 0).queuedRngs m) = false ∧
        m.fault (s.cell 0) ep.1 ep.2.2 = none
    let load := onEng up (fun e => { e with plateRun := [mxRun .mma] })
    let early := onEng up (fun e => { e with plateQ := [mxGood .mma] })
    let two := onEng up (fun e => { e with tiles := [bTile, bTile] })
    (∀ k ∈ [MxKind.mma, .vsave, .vload, .drain, .vfree], good k) ∧
    ((mx .vfree { fM with base := 4095, count := 2 }).fault (up.cell 0) none 0).isSome = true ∧
    ((load.cell 0).eng.plateRun = [] ++ mxRun .mma :: [] ∧ (load.cell 0).eng.tiles.length < 2 ∧ (mxRun .mma).tiles = 0 ∧
      0 < (mxRun .mma).ins.slices ∧ (readLogical (up.cell 0).store (tileOf tileF32) 0 0).poison = false) ∧
    ((early.cell 0).eng.plateQ = [] ++ mxGood .mma :: [] ∧ (early.cell 0).eng.tilesOf (mxGood .mma) = [] ∧
      (mxGood .mma).fault (early.cell 0) none 0 = none ∧
      (early.cell 0).rangesHeld 0 early.isLocal 0 0 (tileRngs (mxGood .mma).tb false) = false) ∧
    2 ≤ (two.cell 0).eng.tiles.length := by decide +kernel

theorem witness_RowCycleAndPromotion :
    let r : MxRun := { mxRun .mma with tiles := 1 }
    let s := onEng up (fun e => { e with plateRun := [r], tiles := [bTile] })
    let fl : InFlight := ⟨0, tag0 2 1, 0, 4095, false, [[0x3F800000], [0x40000000]], false, []⟩
    let w := onEng up (fun e => { e with inflight := [fl] })
    let p := w.modCell 0 (fun x => { x with vat := x.vat.poison (4095 * 128) })
    ((s.cell 0).eng.plateRun = [] ++ r :: [] ∧ r.ins.kind = .mma ∧ r.slice < r.slices ∧
      ((s.cell 0).eng.tilesOf r.ins).find? (fun t => t.slice == r.slice) = some bTile ∧ (s.cell 0).eng.inflight.length < 184 ∧
      bTile.cols = (List.range (tileOf r.ins.tb).lcols).map (fun j => (List.range 1).map (fun k =>
        readLogical (s.cell 0).store (tileOf r.ins.tb) k j)) ∧
      (s.cell 0).eng.vatClear = false ∧ rowHeldForMma [] (r.ins.f.base.toNat + r.row) = false ∧
      (readLogical (s.cell 0).store (tileOf r.ins.ta) 0 0).poison = false ∧
      (readLogical (s.cell 0).store (tileOf r.ins.tb) 0 0).poison = false) ∧
    ((w.cell 0).eng.inflight = fl :: [] ∧ fl.row < 4096 ∧ (vatEntry (w.cell 0).vat fl.row 0).2 = false) ∧
    ((p.cell 0).vat.wf = true ∧ fl.first = false ∧ (vatEntry (p.cell 0).vat fl.row 0).2 = true) := by decide +kernel

theorem witness_VatTransfersApertureAndFaults :
    let with_ := fun (k : MxKind) => onEng up (fun e => { e with plateRun := [mxRun k] })
    let dbg := up.modCell 0 (fun x => x.modRegs (fun r => { r with plateDbg := 1 }))
    let stop := run0.modSlot at0 (fun y => { y with stopping := true })
    let fix := stop.modStep 0 (fun t => { t with status := setFld t.status 0 3 3 })
    (∀ k ∈ [MxKind.vsave, .vload, .drain], (with_ k |>.cell 0).eng.plateRun = [] ++ mxRun k :: []) ∧
    drainHeld [] (up.cell 0).eng.inflight (mxRun .vsave) = false ∧ vloadHeld [] (up.cell 0).eng.inflight (mxRun .vload) = false ∧
    (∀ j < 128, (vatEntry (up.cell 0).vat 0 j).2 = false ∧ ((up.cell 0).store.readWord j).2.poisoned = false) ∧
    (drainedEntries (up.cell 0) (mxRun .drain) 1).2 = false ∧ (up.cell 0).eng.vecRun = none ∧
    (let p := (with_ .vsave).modCell 0 (fun x => { x with vat := x.vat.poison 0 })
     (p.cell 0).eng.plateRun = [] ++ mxRun .vsave :: [] ∧ drainHeld [] (p.cell 0).eng.inflight (mxRun .vsave) = false ∧
       (vatEntry (p.cell 0).vat 0 0).2 = true) ∧
    bit (dbg.cell 0).regs.plateDbg 0 = true ∧ bit (up.cell 0).regs.plateDbg 0 = false ∧
    (∀ s ∈ [stop, fix], (s.slot at0).stopping = true ∧ (s.slot at0).state ≠ .stopped ∧ (s.slot at0).state ≠ .empty ∧
      (s.cell 0).eng.startedBusy 0 = false ∧ (s.cell 0).running = some 0) ∧
    stop.phaseFor at0 ≠ some .fix ∧ fix.phaseFor at0 = some .fix ∧ fix.partOf 0 = some 0 := by decide +kernel

def vx (op : Byte) (d a b c : BitVec 7) : VxInstr :=
  ⟨tag0 3 op, op, false, d, a, b, c, 0, 0, 0, 0, Vector.replicate 4 tileF32, Vector.replicate 4 0, Draw.none⟩
def vxQ (m : VxInstr) : State := onEng up (fun e => { e with vecQ := [m] })
def vxRun (m : VxInstr) : VxRun := ⟨m, 256, 256, 0, Vector.replicate 3 [], [], 0⟩

/-- An optimizer descriptor of one block with planes at 1 GiB (Table 5-6). -/
def optDesc : List Byte :=
  (List.range 8).flatMap (fun _ => leBytes 8 0x40000000) ++ leBytes 8 64 ++ leBytes 8 0 ++ List.replicate 48 0
def optCell (s : State) : State := s.modCell 0 (fun x => { x with store := x.store.write 0x100000 optDesc })
def optInstr : VxInstr := { vx 0x40 0x7F 0x7F 0x7F 0x7F with vi := true, imm := 0x100000 }
def inPhase (s : State) (n : Nat) : State := s.modStep 0 (fun t => { t with status := setFld t.status 0 3 n })
def committed (s : State) : State := s.modStep 0 (fun t => { t with status := setBit t.status 4 true })

theorem witness_VectorQueueIssues :
    let rm := fun (k : Word32) => { vx 0x41 0x7F 0x7F 0x7F 0x7F with vi := true, imm := k }
    let ok := fun (m : VxInstr) => ((vxQ m).cell 0).vecHeld 0 (vxQ m).isLocal m = false ∧ m.fault (vxQ m) 0 = none
    let live := (vxQ (rm 1)).modCell 0 (fun x => { x with vatLive := 1 })
    let held := onEng (vxQ (vx 1 0 1 2 0x7F)) (fun e => { e with vecRun := some (vxRun (vx 1 0 1 2 0x7F)) })
    (ok (vx 1 0 1 2 0x7F) ∧ (vx 1 0 1 2 0x7F).fun_ = .add) ∧ (ok (rm 1) ∧ (rm 1).fun_ = .rmode ∧ bit (rm 1).imm 0 = true) ∧
    ((live.cell 0).vatAnyLive = true ∧ (rm 1).fault live 0 = none) ∧ (up.cell 0).vatAnyLive = false ∧
    bit (rm 0).imm 0 = false ∧ (onEng up (fun e => { e with restore := true }) |>.cell 0).eng.restore = true ∧
    (held.cell 0).vecHeld 0 held.isLocal (vx 1 0 1 2 0x7F) = true ∧
    ({ vx 1 0 1 2 0x7F with rm := 3 }.fault up 0).isSome = true := by decide +kernel

theorem witness_VectorQueueIssues_optimizer :
    let s := optCell (vxQ optInstr)
    let fix := committed (inPhase s 3)
    optInstr.fun_ = .optstep ∧ s.partOf 0 = some 0 ∧ optInstr.fault fix 0 = none ∧
    optDescFault (s.cell 0) 0 (fld optInstr.imm 0 23) = none ∧ (optDescFault (up.cell 0) 0 (fld optInstr.imm 0 23)).isSome = true ∧
    (inPhase s 4 |>.stepOf 0).phase = .aborted ∧ (s.stepOf 0).commit = false ∧
    ((fix.stepOf 0).phase ≠ .aborted ∧ (fix.stepOf 0).commit = true) := by decide +kernel

theorem witness_VectorElementResults :
    (∀ f ∈ [(vxRun (vx 1 0 1 2 0x7F)), vxRun { vx 1 0 1 2 0x7F with fmt := 1 }, vxRun { vx 1 0 1 2 0x7F with fmt := 2 }],
      f.ins.fun_ = .add) ∧
    ([1, 2, 3, 4, 5, 6, 7, 8, 9, 10, 11, 16, 17, 18, 19].map (fun (n : Nat) => (vx (BitVec.ofNat 8 n) 0 1 2 0x7F).fun_) =
      [.add, .sub, .mul, .fma, .neg, .abs, .min, .max, .sel, .cmp, .cvt, .div, .sqrt, .recip, .rsqrt]) ∧
    (vx 0x18 0 1 0x7F 0x7F).fun_ = .trans .exp ∧ (vx 0x28 0 0x7F 0x7F 0x7F).fun_ = .grain ∧
    [(0 : BitVec 4), 1, 2, 9].map (fun k => ({ vx 1 0 1 2 0x7F with fmt := k } : VxInstr).dstFmt) = [.f32, .w16, .h16, .u32] := by
  decide

theorem witness_VxBeatRetires :
    let r := vxRun (vx 1 0 1 2 0x7F)
    let s := onEng up (fun e => { e with vecRun := some r })
    (s.cell 0).eng.vecRun = some r ∧ s.unhindered ∧ r.elems ≤ (r.beat + 1) * r.lanes ∧ ¬ ({ r with elems := 257 } : VxRun).elems ≤ 1 * r.lanes ∧
    r.ins.fun_.elementwise = true ∧ r.ins.dst = .reg 0 ∧ (vxRun (vx 1 0x60 1 2 0x7F)).ins.dst = .stream 0 ∧
    (let q := (vx 0x30 0x41 1 0x7F 0x7F); q.fun_ = .summ ∧ q.dst = .scalar 1 ∧ q.destS = some 1) ∧
    (let q := (vx 0x38 0x41 0x60 0x7F 0x7F); q.fun_ = .crc64 ∧ q.dst = .scalar 1 ∧ q.destS = some 1) ∧
    (let q := (vx 0x39 0 0x60 0x7F 0x7F); q.fun_ = .sha256 ∧ q.dst = .reg 0) := by decide +kernel

def optRun0 : OptRun := ⟨optInstr, optDesc, 0, 0x3F800000, 0x3F800000, false, false, []⟩
def optState : State := committed (inPhase (optCell (onEng up (fun e => { e with optRun := some optRun0 }))) 3)
def trainedAll (s : State) : State := { s with stackSet := s.stackSet.map (fun k => { k with trained := true }) }
def optKind (b : OptBlock) : Nat :=
  match b with
  | .refused _ _ => 1
  | .write _ => 2
  | .poisoned _ => 3
  | .withheld => 4
  | .nonfinite => 5

/-- Each outcome of a block: beyond the partition, unready memory, flag BLEED, a quotient of zeros, a block that passes. -/
theorem witness_OptimizerBlocks :
    let t := trainedAll optState
    let one : OptRun := { optRun0 with desc := optDesc.set 0x70 1 }
    let far : OptRun := { optRun0 with desc := optDesc.set 7 0xFF }
    let with_ := fun (r : OptRun) => onEng t (fun e => { e with optRun := some r })
    (∀ r ∈ [one, far, optRun0], ((with_ r).cell 0).eng.optRun = some r ∧ (with_ r).partOf 0 = some 0 ∧
      (with_ r).phase 0 ≠ .aborted ∧ r.poisoned = false ∧ r.block = 0) ∧
    (inPhase t 4).phase 0 = .aborted ∧ optKind (far.decide_ (with_ far) 0) = 1 ∧ optKind (one.decide_ (with_ one) 0) = 2 ∧
    t.unhindered ∧ one.heldSlots (with_ one) 0 = [] ∧ optKind (optRun0.decide_ optState 0) = 3 ∧
    optKind (one.decide_ ((with_ one).dramWrite .other 0x40000000 [3, 3, 3, 3]) 0) = 4 ∧
    optKind (optRun0.decide_ t 0) = 5 ∧ optRun0.single = false ∧ one.single = true := by decide +kernel

/-! ### Mover, collective queue, latches -/

/-- A queue descriptor: address, kind, length less one, deadline. -/
def qd (a kind n dl : Nat) : BitVec 256 := BitVec.ofNat 256 (a + n * 2 ^ 64 + kind * 2 ^ 124 + dl * 2 ^ 128 + 2 ^ 223)
def window (c off : Nat) : Nat := 0xFFFF * 2 ^ 48 + windowBase + c * 0x800000 + off
def dm (op : Byte) (a b : BitVec 256) : DmInstr := ⟨tag0 4 op, op, ⟨1, 2, 5, 0, 0, 0, 0⟩, a, b, tileF32, 0⟩
def dmRun (m : DmInstr) : DmRun := ⟨m, 0, 0, [], 0, 0, 0, false, false⟩
/-- A copy of 32 bytes from cell 0 to cell 1. -/
def copy01 : DmInstr := { dm 3 (qd (window 0 0) 2 31 0) (qd (window 1 64) 2 31 0) with f := ⟨1, 2, 5, 0, 0, 0, 0⟩ }
def clIns (kind : Nat) : ClInstr := ⟨tag0 5 1, 1, ⟨1, 0, 5, 0, 0, 0, 0⟩, qd 0 kind 31 0⟩

theorem witness_MoverAndCollectiveIssue :
    let early := dm 1 (qd 0 1 31 5) 0
    let late := { dm 1 (qd 4096 1 31 9) 0 with td := tileF32 + 4096 }
    let s := onEng up (fun e => { e with moverQ := [late, early] })
    let bad := onEng up (fun e => { e with moverQ := [{ early with tag := { early.tag with phaseBad := true } }] })
    let full := onEng s (fun e => { e with xfers := Vector.replicate 8 (some (dmRun early)) })
    (vget (s.cell 0).eng.xfers 0 = none ∧ (∀ k : Fin 8, k < 0 → (vget (s.cell 0).eng.xfers k).isSome = true)) ∧
    (s.cell 0).dmReady s 0 = [(0, late), (1, early)] ∧ early.rank < late.rank ∧ early.fault s 0 = none ∧
    ((bad.cell 0).dmReady bad 0).length = 1 ∧ (bad.cell 0).eng.moverQ.all (fun m => (m.fault bad 0).isSome) = true ∧
    (up.cell 0).dmReady up 0 = [] ∧ (∀ i : Fin 8, (vget (full.cell 0).eng.xfers i).isSome = true) ∧
    (clIns 4).fault (onEng up (fun e => { e with clQ := [clIns 4] })) = none ∧
    ((clIns 1).fault (onEng up (fun e => { e with clQ := [clIns 1] }))).isSome = true := by decide +kernel

theorem witness_CopyBetweenCellStores :
    let s := up.setXfer 0 0 (some (dmRun copy01))
    let done := fun (d : Bool) => up.setXfer 0 0 (some { dmRun copy01 with finished := true, discarded := d, moved := 32 })
    let ext := up.setXfer 0 0 (some (dmRun (dm 1 (qd (0xFFFF * 2 ^ 48) 1 31 0) 0)))
    s.xfer 0 0 = some (dmRun copy01) ∧ copy01.total = 32 ∧
    (∀ k < 32, copy01.sides s 0 k = (.store 0 (0 + k), .store 1 (64 + k))) ∧
    (s.cell 0).store.anyPoison 0 32 = false ∧ (s.cell 1).store.wf = true ∧
    ((done true).xfer 0 0).isSome = true ∧ ((done false).xfer 0 0).isSome = true ∧ (qdescOf copy01.qd).deadline.toNat ≤ 0 ∧
    (ext.xfer 0 0).isSome = true ∧ (dm 1 (qd (0xFFFF * 2 ^ 48) 1 31 0) 0).sides ext 0 0 = (.dram 0, .store 0 0) := by decide +kernel

def owned (s : State) (c : CellId) (l : BitVec 6) (n : Word32) (i : SlotId) : State :=
  s.modCell c (fun x => x.setLatch l ⟨n, some (i, 0)⟩)

theorem witness_LatchesSignalsAndWaits :
    let y : FmtY := ⟨5, 2, 4, 1⟩
    let i0 : FmtY := ⟨5, 0, 0, 1⟩
    let fence : FmtY := ⟨0, 0, 0, 1⟩
    let none_ : FmtY := ⟨0, 0, 0, 0⟩
    let other := owned run0 0 5 1 1
    let mine := owned run0 0 5 1 0
    let far := run0.modPart 0 (fun p => { p with cells := 1 })
    let far1 := far.modCtx at0 (·.setS 2 1)
    let busy := onEng run0 (fun e => { e with plateQ := [mx .mma fM] })
    let live := run0.modCell 0 (fun x => { x with vatLive := 1 })
    (∀ s ∈ [run0, other, mine], s.takes (.syInit at0 always i0) = true ∧ s.takes (.sySignal at0 always i0) = true ∧
      s.takes (.syRsignal at0 always { i0 with sa := 2 }) = true ∧ s.takes (.syWait at0 always { i0 with sd := 4 }) = true ∧
      s.takes (.syPoll at0 always { i0 with sd := 4, imm := 0 }) = true ∧ s.writesPending at0 = false) ∧
    ((run0.cell 0).latch 5).owner = none ∧ ((other.cell 0).latch 5).owner = some (1, 0) ∧
    far1.takes (.syRsignal at0 always { i0 with sa := 2 }) = true ∧ far1.partOf 1 ≠ far1.partOf 0 ∧
    run0.latchOwned 0 5 = false ∧ mine.latchOwned 0 5 = true ∧ ((mine.cell 0).latch 5).count = 1 ∧
    (∀ s ∈ [run0, busy, live], s.takes (.syFence at0 always fence) = true ∧ s.takes (.syYield at0 always none_) = true) ∧
    (run0.cell 0).fenceHeld 0 1 = false ∧ (busy.cell 0).fenceHeld 0 1 = true ∧ run0.yieldHeld at0 = false ∧
    (run0.cell 0).vatAnyLive = false ∧ live.yieldHeld at0 = false ∧ (live.cell 0).vatAnyLive = true ∧
    run0.takes (.syInit at0 always { i0 with latch := 63 }) = true ∧
    run0.takes (.syWait at0 always { i0 with latch := 60, sd := 4 }) = true ∧
    run0.takes (.syPoll at0 always ⟨61, 0, 4, 0⟩) = true ∧ run0.takes (.syWait at0 always { i0 with latch := 62, sd := 4 }) = true ∧
    y.latch.toNat < 60 := by decide +kernel

theorem witness_LatchesSignalsAndWaits_arrival :
    let sig := fun (s : State) (l : BitVec 6) (st : Bool) => s.modCell 0 (fun x => { x with signals := [⟨l, 1, st, none⟩] })
    let dis := up.modStep 0 (fun t => { t with armed := false })
    let w := fun (n : Word32) => (owned run0 0 5 1 0).modSlot at0 (fun x => { x with wait := .latch 5 n 4 })
    ((sig (owned up 0 5 1 0) 5 false).cell 0).signals = [⟨5, 1, false, none⟩] ∧ ((up.cell 0).latch 5).owner = none ∧
    ((sig up 60 true).cell 0).signals = [⟨60, 1, true, none⟩] ∧ (up.stepOf 0).armed = true ∧ (dis.stepOf 0).armed = false ∧
    ((w 1).slot at0).wait = .latch 5 1 4 ∧ (w 1).latchOwned 0 5 = true ∧ (((w 2).cell 0).latch 5).count.toNat < 2 := by
  decide +kernel

/-! ### The step -/

/-- Slot 1 of cell 0 runs in the upper half of the cell store. -/
def run1b : State := (run1.modCell 0 (fun x => x.modRegs (fun r => { r with slotCfg := 48 }))).modCtx ⟨0, 1⟩
  (fun x => { x with pc := 0x60000 })


def yNone : FmtY := ⟨0, 0, 0, 0⟩

theorem witness_StepOpens :
    let dis := run0.modStep 0 (fun t => { t with armed := false })
    let c1 : State := up.modCell 1 (runCell 0)
    let w := (owned up 0 60 1 0).modSlot at0 (fun x => { x with wait := .stOpen })
    run0.partOf 0 = some 0 ∧ run0.takes (.stOpen at0 always yNone) = true ∧ (run0.stepOf 0).armed = true ∧
    run0.leadOf 0 = some 0 ∧ run0.closed 0 = true ∧
    (inPhase run0 1).takes (.stOpen at0 always yNone) = true ∧ (inPhase run0 1).closed 0 = false ∧
    c1.takes (.stOpen ⟨1, 0⟩ always yNone) = true ∧ c1.leadOf 0 ≠ some 1 ∧ c1.partOf 1 = some 0 ∧
    run1b.takes (.stOpen ⟨0, 1⟩ always yNone) = true ∧ dis.takes (.stOpen at0 always yNone) = true ∧
    (dis.stepOf 0).armed = false ∧ (w.slot at0).wait = .stOpen ∧ ((w.cell 0).latch 60).count.toNat = 1 := by decide +kernel

theorem witness_StepStopsAndFixes :
    let c1 : State := up.modCell 1 (runCell 0)
    let lead := fun (l : BitVec 6) (w : Wait) => (owned run0 0 l 64 0).modSlot at0 (fun x => { x with wait := w })
    let stopped := inPhase (lead 61 .stStop) 1
    let fixed := inPhase (lead 63 .stFix) 3
    let tagged := { fixed with coll := { fixed.coll with descs := [(0, { fixed.colld 0 with tagOut := true })] } }
    run0.leadOf 0 = some 0 ∧ c1.leadOf 0 = some 0 ∧
    (∀ n ∈ [1, 3], (inPhase run0 n).takes (.stStop at0 always yNone) = true ∧ (inPhase run0 n).takes (.stFix at0 always yNone) = true ∧
      (inPhase c1 n).takes (.stStop ⟨1, 0⟩ always yNone) = true ∧ (inPhase c1 n).takes (.stFix ⟨1, 0⟩ always yNone) = true) ∧
    (inPhase run0 1).phase 0 = .expose ∧ (inPhase run0 3).phase 0 = .fix ∧ (up.cell 0).eng.stopHeld 0 = false ∧
    (up.cell 0).eng.vecBusy 0 = false ∧ (up.cell 0).eng.moverBusy 0 = false ∧ (up.stepOf 0).armed = true ∧
    (stopped.phase 0 = .expose ∧ ((stopped.cell 0).slot 0).wait = .stStop ∧ (stopped.cellsOf 0).length = 64 ∧
      ((stopped.cell 0).latch 61).count = 64 ∧ (stopped.stepOf 0).refix = false) ∧
    (fixed.phase 0 = .fix ∧ (fixed.stepOf 0).stage = .idle ∧ ((fixed.cell 0).slot 0).wait = .stFix ∧
      ((fixed.cell 0).latch 63).count = 64 ∧ fixed.tagsOut 0 = false ∧ (fixed.stepOf 0).commit = false ∧
      ((committed fixed).stepOf 0).commit = true ∧ tagged.tagsOut 0 = true) := by decide +kernel

/-- The twin engine of partition 0 is on. -/
def twinned (s : State) : State :=
  (s.modStep 0 (fun t => { t with ctl := setBit t.ctl 1 true })).modTwin 0 (fun t => { t with status := 0x20000000 })

theorem witness_FixAdvanceAndBoundary :
    let stage := fun (s : State) (g : FixStage) => (inPhase s 3).modStep 0 (fun t => { t with stage := g })
    let twin := (twinned (stage up .waitNegative)).modTwin 0 (fun t => { t with negDone := 7 })
    let w := stage up .waitNegative
    let b := stage up .sealWait
    let seed := Instr.stSeed at0 always ⟨0, 2, 4, 0⟩
    let bub := run1b
    (w.phase 0 = .fix ∧ (w.stepOf 0).stage = .waitNegative ∧ w.twinOn 0 = false) ∧
    (twin.phase 0 = .fix ∧ twin.twinOn 0 = true ∧ (twin.stepOf 0).refix = false ∧ (twin.twin 0).hasNegative (twin.stepOf 0).updateCount = false ∧
      ((twin.modTwin 0 (fun t => { t with negHeld := true, negDone := 0 })).twin 0).hasNegative 0 = true) ∧
    ((b.stepOf 0).stage = .sealWait ∧ b.twinOn 0 = false ∧ b.buildPending 0 = false) ∧
    (∀ s ∈ [inPhase run0 1, run0], s.takes (.stSeed at0 always ⟨0, 2, 0, 0⟩) = true) ∧
    (inPhase run0 1).phase 0 = .expose ∧ ((inPhase run0 1).slot at0).openDone = false ∧
    (((inPhase run0 1).modSlot at0 (fun y => { y with openDone := true })).takes (.stSeed at0 always ⟨0, 2, 0, 0⟩)) = true ∧
    run0.phase 0 ≠ .expose ∧ bub.takes (.stSeed ⟨0, 1⟩ always ⟨0, 2, 4, 0⟩) = true ∧ issuedOf seed ≠ none := by decide +kernel

theorem witness_VerdictsAndTimeouts :
    let stop := inPhase up 2
    let fix := twinned ((inPhase up 3).modStep 0 (fun t => { t with stage := .sealWait }))
    ((stop.stepOf 0).phase = .stop ∧ (0 : Word32) = bfld (stop.stepOf 0).index 0 32 ∧ (stop.stepOf 0).valid = false ∧
      (stop.stepOf 0).delivered = none ∧ (stop.stepOf 0).poisonFound = false ∧ stop.bodyWaits 0 = false) ∧
    (5 : Word32) ≠ bfld (stop.stepOf 0).index 0 32 ∧ stop.verdictAwaited 0 = true ∧ up.verdictAwaited 0 = false ∧
    ((fix.stepOf 0).phase = .fix ∧ fix.waitsOnTwin 0 = true) ∧ up.waitsOnTwin 0 = false := by decide +kernel

theorem witness_TraceRecords :
    let rc : TraceRec := ⟨1, 2, 3, 4, 5⟩
    let on := fun (s : State) (v : Word32) => s.modCell 0 (fun x => x.modRegs (fun r => { r with traceCtl := v }))
    let q := fun (s : State) (n : Nat) => onEng s (fun e => { e with traceQ := List.replicate n rc })
    let m := Instr.trMark at0 always ⟨0, 0, 0, 7⟩
    let v := Instr.trVal at0 always ⟨0, 2, 0, 7⟩
    let k := Instr.trCtr at0 always ⟨3, 0, 0, 7⟩
    (∀ i ∈ [m, v, k], run0.takes i = true ∧ (q (on run0 0x80000000) 15).takes i = true ∧ (q (on run0 0x80000000) 16).takes i = true) ∧
    bit (run0.cell 0).regs.traceCtl 31 = false ∧
    (let s := q (on up 0xC00C0000) 1
     bit (s.cell 0).regs.traceCtl 30 = true ∧ s.reaches (s.partD 0) 0 32 = true ∧ (s.checkWrite .other 0 32).1 = .ok) ∧
    (let s := (q (on up 0x80000000) 1).modCell 0 (fun x => x.modRegs (fun r => { r with traceHead := 128 }))
     bit (s.cell 0).regs.traceCtl 30 = false ∧ 2 ^ (min (max (fld (s.cell 0).regs.traceCtl 16 5) 12) 30) / 32 = 128) ∧
    (let s := up.modCell 0 (fun x => x.modRegs (fun r => { r with traceBase := 0xFFFFFFFFF000 }))
     s.reaches (s.partD 0) 0xFFFFFFFFF000 32 = false) ∧ up.unhindered := by decide +kernel

theorem witness_ContextSwitchesAndStarts :
    let yielded := run0.modCell 0 (fun x => { x with switch := .yield 0 })
    let dorm := fun (w : WakeCond) => up.modSlot at0 (fun y => { y with state := .dormant, wake := w })
    let rdy := fun (i : SlotId) => up.modSlot ⟨0, i⟩ (fun y => { y with state := .ready })
    let gr := run1.modCell 0 (fun x => { x with grace := true })
    (yielded.cell 0).switch = .yield 0 ∧ (yielded.slot at0).wake = .none ∧ (up.cell 0).switch = .none ∧
    ((dorm .none).wakeHolds 0 ((dorm .none).slot at0) = true) ∧ ((dorm (.latch 5)).wakeHolds 0 ((dorm (.latch 5)).slot at0) = false) ∧
    (((rdy 0).cell 0).running = none ∧ ((rdy 0).slot at0).ready = true ∧ ((rdy 1).slot at0).ready = false ∧ ((rdy 1).slot ⟨0, 1⟩).ready = true) ∧
    (run0.cell 0).running ≠ none ∧ ((gr.cell 0).grace = true ∧ (gr.cell 0).running = some 1 ∧ gr.faults.resets = []) ∧
    up.regsUp = true ∧ bit (0x100000 : Word64) 20 = true ∧ up.startRefused 0 0 0x100000 = false ∧ run0.startRefused 0 0 0x100000 = true := by
  decide +kernel

/-! ### Registers -/

theorem witness_RegisterAccessRules :
    (closedWrite (.partApply .host) = some (.host, 4) ∧ isCtx .host = false ∧ State.reset.coreUp = false) ∧
    closedWrite (.ctxStart (.ctx 0 0) 0 0 0) = some (.ctx 0 0, 0) ∧ auxWriter (.ageCfgWrite (.ctx 1 0) 0) = some (.ctx 1 0) := by decide +kernel

theorem witness_StepCountersWrite : isCtx .host = false ∧ up.regsUp = true ∧ up.phase 1 = .closed ∧ (inPhase up 1).phase 0 ≠ .closed := by
  decide +kernel

theorem witness_PartitionApply :
    let two := up.modPart 1 (fun p => { p with cellsPending := 2 })
    let moved := two.modPart 0 (fun p => { p with cellsPending := 1 })
    (∃ p q : PartId, p ≠ q ∧ (two.part p).cellsPending &&& (two.part q).cellsPending ≠ 0) ∧
    (¬ ∃ p q : PartId, p ≠ q ∧ (moved.part p).cellsPending &&& (moved.part q).cellsPending ≠ 0) ∧
    up.regsUp = true ∧ moved.applyBlockers = [] ∧ (inPhase moved 1).applyBlockers = [0] ∧ up.phase 0 = .closed ∧ (inPhase up 1).phase 0 ≠ .closed := by
  decide +kernel

theorem witness_CellRegisterWrites :
    let unlocked := { up with test := { up.test with stDebug := 0x10002 } }
    up.regsUp = true ∧ (∀ j, (up.slot ⟨0, j⟩).state = .empty) ∧ (run0.slot ⟨0, 0⟩).state ≠ .empty ∧ fld (1 : Word64) 0 4 ≤ 1 ∧ fld (1 : Word64) 32 32 = 0 ∧
    (up.cell 0).running = none ∧ (run0.cell 0).running = some 0 ∧ up.test.plateUnlocked = false ∧
    unlocked.test.plateUnlocked = true ∧ (unlocked.cell 0).eng.plateQ = [] ∧ run0.partOf 0 ≠ none := by decide +kernel

/-- SA holds 0x50 and IMM is 0 (a register a context writes), 8 (one it only reads), 1 (misaligned). -/
theorem witness_RegisterMapAccess :
    (∀ i ∈ [0, 8, 1], (run0.modCtx at0 (·.setS 2 0x50)).takes (.scRdreg at0 always ⟨⟨1, 2, 0, 0, BitVec.ofNat 32 i⟩, i == 0⟩) = true ∧
      (run0.modCtx at0 (·.setS 2 0x50)).takes (.scWrreg at0 always ⟨1, 2, 0, 0, BitVec.ofNat 32 i⟩) = true) ∧
    run0.ringWhole = true ∧ ({ up with host := { up.host with hcpUp := true } } : State).host.hcpUp = true := by decide +kernel

/-- The map's place of an offset: byte in the register, 64 bits wide, AUX, open to a context's read and write. -/
def mapView (o : Nat) : List Nat :=
  match regAccess o with
  | none => []
  | some r => r.low :: [r.entry.wide, r.entry.aux, r.entry.rd run0 (.ctx 0 0), r.entry.wr run0 (.ctx 0 0)].map Bool.toNat

theorem witness_RegisterMapAccess_offsets :
    [0x50, 0x58, 0x51, 0xB0, 0x80].map mapView =
      [[0, 0, 0, 1, 1], [0, 0, 0, 1, 0], [1, 0, 0, 1, 1], [0, 1, 0, 0, 0], [0, 1, 0, 1, 1]] := by decide +kernel

/-! ### Memory -/

/-- A get of a row of eight F32 elements. -/
def dmGet256 : DmInstr := { dm 1 (qd (0xFFFF * 2 ^ 48) 1 31 0) 0 with td := BitVec.ofNat 256 (2 ^ 159 + 32 * 2 ^ 96 + 7 * 2 ^ 80) }
def reqOf (w : Bool) : MemReq := ⟨0, false, true, true, false, 0, 0, w, 0, 0, 0, 32, if w then List.replicate 32 7 else []⟩
/-- A transfer with one admitted request of 32 bytes at a trained stack. -/
def burst (w : Bool) (m : DmInstr) : State :=
  ((trainedAll up).modStack 0 (fun x => { x with requests := [reqOf w] })).setXfer 0 0 (some (dmRun m))

theorem witness_MemoryBursts :
    let put : DmInstr := { dmGet256 with op := 2 }
    ((up.stack 0).requests = [] ∧ (up.stack 0).fenced = false ∧ ((trainedAll up).stack 0).trained = true) ∧
    (∀ s ∈ [burst false dmGet256, burst true put],
      (s.stack 0).trained = true ∧ (s.stack 0).fenced = false ∧ s.direct 0 = some 0 ∧ stackOf 0 = 0 ∧
      (vget (s.stack 0).channels (s.chanOf 0)).broken = [] ∧ s.margined 0 (s.chanOf 0) = false ∧
      s.pathBoth (dieOf 0) (stackDie 0) (0 / 4096) = true ∧ s.burstHolds 0 = false ∧ s.beatsTaken ∧ (reqOf true).own = false ∧
      s.writeRefused .other 0 32 = false) ∧
    ((burst false dmGet256).stack 0).requests[0]? = some (reqOf false) ∧ ((burst true put).stack 0).requests[0]? = some (reqOf true) ∧
    dmGet256.sides (burst false dmGet256) 0 0 = (.dram 0, .store 0 0) ∧
    dmGet256.part (burst false dmGet256) 0 0 32 = [(0, 32)] ∧ (burst false dmGet256).mem.dram.marked 0 256 = [] := by
  decide +kernel

/-- A request held back by a self-test of its channel or by a crossing that pauses, and one made for its errors alone. -/
theorem witness_MemoryBursts_held :
    let s := burst false dmGet256
    let own := s.modStack 0 (fun x => { x with requests := [{ reqOf false with own := true }] })
    let test : State := { s with test := { s.test with running := Vector.replicate 6 (some ⟨.conn 0 (s.chanOf 0) 0, false, false, 0, 0⟩) } }
    let far := s.modStack 0 (fun x => { x with requests := [{ reqOf false with cell := 63 }] })
    let shut : State := { far with xds := far.xds.map (fun x => { x with dirs := x.dirs.map (fun y => { y with resume := 1 }) }) }
    (s.stack 0).nextRequest = some (0, reqOf false) ∧ (own.stack 0).nextRequest = some (0, { reqOf false with own := true }) ∧
    own.burstHolds 0 = false ∧ (test.stack 0).nextRequest = some (0, reqOf false) ∧ test.burstHolds 0 = true ∧
    (shut.stack 0).nextRequest = some (0, { reqOf false with cell := 63 }) ∧
    shut.pathBoth (dieOf 63) (stackDie 0) (0 / 4096) = false := by decide +kernel

/-- Attempts whose CRC arrives changed: one and then a good one, or four. -/
theorem witness_MemoryBursts_retries (m : ProtMem) : m.attempts 0 [] = (0, []) ∧
    m.attempts 0 [⟨[], 1⟩, ⟨[], 0⟩] = (1, []) ∧ (m.attempts 0 (List.replicate 4 ⟨[], 1⟩)).1 = 4 := by
  refine ⟨rfl, ?_, ?_⟩ <;> simp [ProtMem.attempts, List.replicate, crcFails_whole]

/-- The page of the request was marked persistent after it was queued. -/
theorem witness_MemoryBursts_refused :
    ((burst true { dmGet256 with op := 2 }).modStack 0 (fun x => { x with
      pages := (pageGranules 0).map (fun g => (g.2, 1)) })).writeRefused .other 0 32 = true := by decide +kernel


theorem witness_ScrubRegulatorsAndTemperature :
    let ch := fun (s : State) (f : Channel → Channel) => s.modStack 0 (fun x => x.modCh 0 f)
    let t := trainedAll up
    let on := { t with mem := { t.mem with scrubCtl := 0x80000000 } }
    let at_ := fun (n : Word32) => up.modStack 0 (fun x => { x with therm := n })
    ((vget ((ch up (fun y => { y with writeBack := [0] })).stack 0).channels 0).writeBack = [0] ∧ (up.stack 0).fenced = false ∧
      up.mem.dram.wf = true) ∧
    (vget (up.stack 0).channels 0).writeBack = [] ∧
    ((on.stack 0).wire = none ∧ (vget (on.stack 0).channels 0).broken = [] ∧ 0 = on.chanOf 0 ∧ stackOf 0 = 0) ∧
    (on.scrubs 0 = true ∧ on.scrubAddr 0 0 (vget (on.stack 0).channels 0).scrub = some 0) ∧ up.scrubs 0 = false ∧
    (∀ n, (up.stack n).requests = []) ∧ (∀ k ∈ [0, 1, 2, 3], fld ((at_ (BitVec.ofNat 32 (k * 65536))).stack 0).therm 16 2 = k) ∧
    (∀ T ∈ [(680 : Int), 760, 840, 841, 663, 743, 679, 759], ∃ i : Fin 4, (vget (Vector.replicate 4 (BitVec.ofInt 16 T)) i).toInt = T) := by decide +kernel

/-- A connection that carries a channel's data, one in rotation, and a channel whose spares are all used. -/
theorem witness_ScrubRegulatorsAndTemperature_connections :
    let ch := fun (s : State) (f : Channel → Channel) => s.modStack 0 (fun x => x.modCh 0 f)
    (let y := vget (up.stack 0).channels 0; (5 : Fin 318) ∉ y.failed ∧ (5 : Fin 318) ∉ y.broken ∧ up.heldConns 0 0 = [] ∧
      (315 : Fin 318) ∉ y.committed ∧ (314 : Fin 318) ∉ y.committed ∧ (314 : Fin 318) ∉ y.failed) ∧
    (let y := vget ((ch up (fun y => { y with committed := [314, 315, 316, 317], failed := [0, 1, 2, 3] })).stack 0).channels 0
     (5 : Fin 318) ∉ y.failed ∧ (∀ m ∈ allFin 318, 314 ≤ m.val → m ∈ y.committed) ∧ (3 : Fin 318) ∈ y.failed) ∧
    ({ up with test := { up.test with rotation := [(.conn 0 0 5, 314)] } } : State).heldConns 0 0 = [(5, 314)] := by decide +kernel

theorem witness_MemoryRegistersAndPages :
    let bring := { up with mem := { up.mem with memCtl := 1 } }
    let run := { bring with test := { bring.test with patStat := 0x80000000, pat := some 0 } }
    let cmd : Word64 := BitVec.ofNat 64 (2 ^ 62)
    let busy := { up with mem := { up.mem with pageStatus := 0x80000000, pageCmd := some cmd } }
    let st1 := bring.modStack 1 (fun x => { x with mappedOut := 1 })
    up.regsUp = true ∧ up.allClosed = true ∧ up.allEmpty = true ∧ run0.allEmpty = false ∧ (inPhase up 1).allClosed = false ∧
    bit bring.mem.memCtl 0 = true ∧ bit up.mem.memCtl 0 = false ∧ bit run.test.patStat 31 = true ∧ run.test.pat = some 0 ∧
    bit bring.test.patStat 31 = false ∧ (bring.stack 0).fenced = false ∧ bit (bring.stack 0).mappedOut 0 = false ∧
    bit (st1.stack 1).mappedOut 0 = true ∧ bit busy.mem.pageStatus 31 = true ∧ bit up.mem.pageStatus 31 = false ∧
    up.phase (cmdPart cmd) = .closed ∧ (inPhase up 1).phase (cmdPart cmd) ≠ .closed ∧ cmdCount cmd = 1 ∧
    ¬ 2 ^ 20 < fld cmd 21 20 + cmdCount cmd ∧ up.pageConflict (cmdPart cmd) (cmdPage cmd 0) = false ∧
    2 ^ 20 < fld (BitVec.ofNat 64 (2 ^ 62 + 1048575 * 2 ^ 21 + 2)) 21 20 + cmdCount (BitVec.ofNat 64 (2 ^ 62 + 1048575 * 2 ^ 21 + 2)) ∧
    busy.mem.pageCmd = some cmd ∧ (∀ n, Sparse.wf (0 : BitVec 4) (busy.stack n).pages = true) := by decide +kernel

/-! ### Crossings, links and routers -/

def beat (ctl : Word32) : Beat := ⟨(List.replicate 128 (5 : Word32)).map eccCode, (eccCode ctl).zeroExtend 64⟩
def joined (s : State) : State := s.modXd 0 (fun x => { x with trained := true })

theorem witness_CrossingBeats :
    let off := (joined up).modXd 0 (fun x => { x with disabled := true })
    ((joined up).xd 0 |>.dir 0).paused 0 = false ∧ (∀ c : Fin 3, 0 < vget ((joined up).xd 0 |>.dir 0).credits c) ∧
    ((joined up).modXdDir 0 0 (fun x => { x with resume := 1 }) |>.xd 0 |>.dir 0).paused 0 = true ∧
    (vget ((joined up).modXdDir 0 0 (fun x => { x with credits := Vector.replicate 3 0 }) |>.xd 0 |>.dir 0).credits 1 = 0) ∧
    (beat 0).words.length = 128 ∧ (off.xd 0).off = true ∧ ((joined up).xd 0).off = false ∧ ((joined up).xd 0).trained = true ∧
    ((up.modXd 0 (fun x => { x with trained := false })).xd 0).trained = false ∧
    fld (0x80040000 ||| 0x00100000 : Word32) 16 2 = 0 ∧
    (eccDecode (bfld ({ beat 0 with control := 3 } : Beat).control 0 39)).2.poisoned = true := by decide +kernel

theorem witness_CrossingRepairs :
    let s := joined up
    let pend := fun (op : XdOp) => s.modXdDir 0 0 (fun x => { x with pending := some (op, 0) })
    let cnt := { s.modXdDir 0 0 (fun x => { x with windowCe := [(3 * 128 + 5, 70000)] }) with time := 1024 }
    let forced := s.modXd 0 (fun x => { x with ctl := 0x40000000, dirs := x.dirs.map (fun y => { y with forced := 1 }) })
    let calm := fun (s : State) (j : JoinId) => (s.xd j).off = false ∧ (∀ e : Fin 2, ((s.xd j).dir e).forced = bfld (s.xd j).ctl 30 2) ∧
      ∀ e : Fin 2, ((s.xd j).dir e).waiting = [] ∧ ((s.xd j).dir e).pending = none ∧ ((s.xd j).dir e).resume.toNat ≤ s.time.toNat
    (s.xd 0).off = false ∧ ((s.xd 0).dir 0).pending = none ∧ (pend .disable |>.xd 0).off = false ∧
    (∀ op ∈ [XdOp.steer 3 5, .steer 3 0x7C, .steer 3 0x7D, .steer 3 79, .half 0, .half 1, .disable],
      ((pend op |>.xd 0).dir 0).pending = some (op, 0) ∧ (∀ e : Fin 2, ((pend op |>.xd 0).dir e).waiting = []) ∧
      (∀ e : Fin 2, ((pend op |>.xd 0).dir e).forced = bfld (pend op |>.xd 0).ctl 30 2) ∧
      connected ((pend op).enabledJoins 0 ((pend op).xd 0)) = true) ∧
    steerOk 0 3 79 = true ∧ steerOk 0 3 0x7C = false ∧ s.time.toNat % 1024 = 0 ∧ cnt.time.toNat % 1024 = 0 ∧
    ((cnt.xd 0).dir 0).window + 1 = cnt.time.toNat / 1024 ∧ ((cnt.xd 0).dir 0).told = [] ∧
    calm s 0 ∧ ((s.xd 0).dir 0).windowCe = [] ∧ calm cnt 0 ∧ ((cnt.xd 0).dir 0).forced = 0 ∧ ((cnt.xd 0).dir 0).width = 0 ∧
    ((cnt.xd 0).dir 0).windowCe = [(3 * 128 + 5, 70000)] ∧ max (fld (cnt.xd 0).ctl 0 16) 1 ≤ 70000 ∧
    bit ((cnt.xd 0).dir 0).spareUsed 3 = false ∧ Sparse.get 0x7F ((cnt.xd 0).dir 0).steered 3 = 0x7F ∧
    calm s 4 ∧ ((s.xd 4).dir 0).forced = 0 ∧ bit ((s.xd 4).dir 0).altClk 2 = false ∧ bit ((s.xd 4).dir 0).altBad 2 = false ∧
    calm forced 0 ∧ bfld (0x40000000 : Word32) 30 2 = ((forced.xd 0).dir 0).forced ∧
    connected (forced.joinsComing 0 { forced.xd 0 with ctl := 0x40000000 }) = true ∧ s.regsUp = true := by decide +kernel

/-- A join whose loss leaves a die unreachable: all others but the other bridges are off. -/
theorem witness_CrossingRepairs_force :
    let s := { joined up with xds := (joined up).xds.mapIdx (fun i x => if i = 0 ∨ i = 4 then x else { x with disabled := true }) }
    connected (s.joinsComing 0 { s.xd 0 with ctl := 0xC0000000 }) = false ∧
    connected (s.enabledJoins 0 { s.xd 0 with disabled := true }) = false ∧ s.faults.resets = [] ∧
    connected ((joined up).joinsComing 0 { (joined up).xd 0 with ctl := 0xC0000000 }) = true := by decide +kernel

def portUp (k : PortId) (s : State) : State := s.modPort k (fun x => { x with status := setBit x.status 31 true, lanes := List.range 8, outLanes := List.range 8 })
/-- A frame of a header, its CRC field from a number, and a payload of zeros. -/
def frameWith (h : BitVec 256) (f : Word32 → Word32) : Frame :=
  ⟨setFld h 224 32 (f (frameCrc ⟨h, List.replicate 256 0⟩)).toNat, List.replicate 256 0⟩

theorem leBytes_mod : ∀ n v w : Nat, v % 256 ^ n = w % 256 ^ n → leBytes n v = leBytes n w
  | 0, _, _, _ => rfl
  | n + 1, v, w, h => by
    have h0 : v % 256 = w % 256 := by
      have := congrArg (· % 256) h
      simpa [Nat.pow_succ, Nat.mod_mul_left_mod] using this
    have h1 : v / 256 % 256 ^ n = w / 256 % 256 ^ n := by
      have := congrArg (· / 256) h
      rwa [Nat.pow_succ, Nat.mul_comm, Nat.mod_mul_right_div_self, Nat.mod_mul_right_div_self] at this
    simp only [leBytes]
    rw [leBytes_mod n _ _ h1]
    congr 1
    exact BitVec.eq_of_toNat_eq (by simpa using h0)

theorem frameWith_crc (h : BitVec 256) (f : Word32 → Word32) :
    frameCrc (frameWith h f) = frameCrc ⟨h, List.replicate 256 0⟩ ∧
    bfld (frameWith h f).header 224 32 = f (frameCrc ⟨h, List.replicate 256 0⟩) ∧
    (∀ lo len, lo + len ≤ 224 → fld (frameWith h f).header lo len = fld h lo len) ∧
    (∀ i, i < 224 → bit (frameWith h f).header i = bit h i) := by
  refine ⟨?_, ?_, fun lo len hl => ?_, fun i hi => ?_⟩
  · have key : ∀ v, leBytes 28 (setFld h 224 32 v).toNat = leBytes 28 h.toNat := fun v =>
      leBytes_mod 28 _ _ (by simpa [fld] using fld_setFld_ne h 224 32 v 0 224 (by omega))
    exact congrArg (fun l => crc32 (l ++ List.replicate 256 0)) (key _)
  · have key : ∀ c : Word32, bfld (setFld h 224 32 c.toNat) 224 32 = c := fun c => by
      apply BitVec.eq_of_toNat_eq
      have := fld_setFld_self h 224 32 c.toNat (by omega)
      simp only [fld] at this
      simp only [bfld, BitVec.extractLsb'_toNat, this]
      exact Nat.mod_eq_of_lt (BitVec.isLt _)
    exact key _
  · exact fld_setFld_ne _ _ _ _ _ _ (by omega)
  · exact bit_setFld_ne _ _ _ _ _ (by omega)

theorem compl_ne (c : Word32) : c ≠ ~~~c := fun h => by
  have h := congrArg (fun w : Word32 => w.getLsbD 0) h
  simp at h

theorem bfld_of_fld {n : Nat} {w v : BitVec n} {lo len : Nat} (h : fld w lo len = fld v lo len) :
    bfld w lo len = bfld v lo len := BitVec.eq_of_toNat_eq (by simpa [bfld, fld] using h)

theorem witness_LinkLayer :
    let s := portUp 0 up
    let s := { s with route := { s.route with darkClosed := 0 } }
    let ask := s.modPort 0 (fun x => { x with replayAsk := true })
    let full := ask.modPort 0 (fun x => { x with reserved := 100000 })
    (let shut := { ask with route := { ask.route with darkClosed := 1 } }
     (shut.port 0).replayAsk = true ∧ shut.dark 0 = true) ∧ ask.dark 0 = false ∧
    (s.port 0).up = true ∧ (up.port 0).up = false ∧ (ask.port 0).replayAsk = true ∧ ask.canReserve 0 = true ∧ full.canReserve 0 = false ∧
    s.canReserve 0 = true ∧ s.heldLanes 0 = [] ∧ max (fld (s.port 0).ctl 0 16) 1 ≤ 65535 ∧ (∀ out ∈ [false, true],
      bit ((s.port 0).failedOf out) 2 = false ∧ ((s.port 0).lanesOf out).idxOf? 2 = some 2 ∧ 8 ∉ (s.port 0).lanesOf out ∧
      bit ((s.port 0).failedOf out) 8 = false ∧ (∀ n < 8, n ∈ (s.port 0).lanesOf out)) := by decide +kernel

theorem witness_LinkLayer_frames :
    let s := (portUp 0 up).modPort 0 (fun x => { x with lack := 0xFF })
    let open_ := { s with route := { s.route with darkClosed := 0 } }
    let good := frameWith 1 id
    let bad := frameWith 1 (~~~ ·)
    good.payload.length = 256 ∧ bad.payload.length = 256 ∧ open_.dark 0 = false ∧ (open_.port 0).lnakRun < 16 ∧
    (open_.port 0).lack + 1 = 0 ∧ frLseq good = 0 ∧ frCls good ≠ 0 ∧ bit good.header 31 = false ∧
    bit good.header 208 = false ∧ frameCrc good = bfld good.header 224 32 ∧ frameCrc bad ≠ bfld bad.header 224 32 := by
  intro s open_ good bad
  obtain ⟨h1, h2, h3, h4⟩ := frameWith_crc 1 id
  obtain ⟨b1, b2, -, -⟩ := frameWith_crc 1 (~~~ ·)
  refine ⟨List.length_replicate, List.length_replicate, by decide +kernel, by decide +kernel, by decide +kernel,
    (bfld_of_fld (h3 192 8 (by omega))).trans (by decide), by rw [show frCls good = _ from h3 0 4 (by omega)]; decide,
    (h4 31 (by omega)).trans (by decide), (h4 208 (by omega)).trans (by decide), h1.trans h2.symm,
    fun h => compl_ne _ (b1.symm.trans (h.trans b2))⟩

def partner (node : BitVec 16) (p : BitVec 4) : PortPartner := ⟨node, p, 3, 0, false, 0, 0, 0, [], [], 0⟩

theorem witness_PortTraining :
    let id_ := { up with route := { up.route with nodeId := 0x80000000 } }
    let s := fun (n : Nat) => id_.modPort 0 (fun x => { x with ctl := 0x80000000, status := setFld x.status 20 4 n })
    let auth := (s 4).modPort 0 (fun x => { x with ctl := 0xC0000000 })
    (∀ n ∈ [0, 1, 2, 3, 4, 5, 6], fld ((s n).port 0).status 20 4 = n) ∧ bit ((s 0).port 0).ctl 31 = true ∧
    bit (s 0).route.nodeId 31 = true ∧ bit ((up.modPort 0 (fun x => { x with ctl := 0 })).port 0).ctl 31 = false ∧ ((s 2).port 0).failedLanes = 0 ∧ ((s 2).port 0).outFailed = 0 ∧
    (partner 1 4).port.toNat = (mate 0).val ∧ (s 3).partnerAt 0 (partner 1 4).node 1 = true ∧
    (s 3).partnerAt 0 (partner 5 4).node 1 = false ∧ (s 3).partnerAt 0 (partner 5 4).node 2 = false ∧
    ({ partner 1 4 with genMax := 4 } : PortPartner).genMax.toNat = 4 ∧ bit (auth.port 0).ctl 30 = true ∧
    bit (partner 1 4).features 0 = false ∧ bit ({ partner 1 4 with features := 1 } : PortPartner).features 0 = true ∧
    bit ((s 4).port 0).ctl 30 = false := by decide +kernel

theorem witness_TimeBase :
    let s := (portUp 0 up).modPort 0 (fun x => { x with depthSeen := 3 })
    let lock := fun (w : Word64) => { up with route := { up.route with timeStatus := setBit w 43 true } }
    (s.port 0).up = true ∧ (up.port 0).up = false ∧ up.time.toNat < 2 ^ 63 ∧ s.route.master = false ∧
    ((s.port 0).up = true ∧ (s.port 0).depthSeen.toNat < 128) ∧ (∀ m, m ≠ 0 → (s.port m).up = false) ∧
    (∀ k, ¬ ((up.port k).up = true ∧ (up.port k).depthSeen.toNat < 128)) ∧
    ({ up with route := { up.route with timeCtl := 0xFFFFFFFF } } : State).route.master = true ∧
    bit up.route.timeStatus 43 = false ∧ bit (lock 1).route.timeStatus 43 = true ∧ (lock 1).route.master = false ∧
    0 < (bfld (lock 1).route.timeStatus 0 32).toInt ∧ (bfld (lock 0xFFFFFFFF).route.timeStatus 0 32).toInt < 0 ∧
    (lock 1).route.slewAt = none ∧ ({ (lock 1).route with slewAt := some 0 } : Routing).slewAt = some 0 ∧ (lock 1).time.toNat < (0 : Word64).toNat + 1000 := by decide +kernel

/-- Routing slot 0 ACTIVE, every node its own image, all ports up. -/
def routed (s : State) : State :=
  { s with
    ports := s.ports.map (fun x => { x with status := 0xC0000000 }),
    route := { s.route with darkClosed := 0, slots := vset s.route.slots 0 ⟨0x8FFF0000, [(0, 0x80000000), (1, 0x80000001)], [], .active⟩ } }
def onFab (s : State) (d : FabId) (f : Fab → Fab) : State := s.modFab d f
/-- A frame of class `cls`, kind `kind` with 32 bytes from node `src` to node `dst`, endpoints 0. -/
def fr (cls kind : Nat) (st : BitVec 4) (src dst : BitVec 16) : Frame :=
  ⟨mkHeader cls kind 0 st 0 0 0 32 src dst 0 0, List.replicate 256 0⟩
def arrive (s : State) (f : Frame) : State := onFab s 0 (fun x => { x with arrivals := [(0, f)] })

theorem witness_RouterSlots :
    let r := routed up
    let old := { arrive r (fr 3 0 0 1 0) with time := 0x8000000 }
    let cut := { arrive r (fr 3 0 0 0 1) with ports := (arrive r (fr 3 0 0 0 1)).ports.map (fun x => { x with busy := 1 }) }
    let none_ := fun (s : State) => { s with xds := s.xds.map (fun (x : Xd) => ({ x with disabled := true } : Xd)) }
    let retired := { arrive r (fr 3 0 0 0 1) with route := { r.route with slots := vset r.route.slots 0 ⟨0x8FFF0000, [], [], .retired⟩ } }
    let good := fun (s : State) => (s.productivePorts 0 (s.rslot 0) 1).filter (((portsOf 0).filter (s.outFree 0 ·)).contains ·)
    (∀ m, (old.port m).lateLanes = []) ∧ (∀ m, (cut.port m).lateLanes = []) ∧
    ((old.fab 0).arrivals = [(0, fr 3 0 0 1 0)] ∧ (old.fab 0).hold = [] ∧ (old.fab 0).reentry = [] ∧ (old.fab 0).inject = [] ∧
      old.route.ageMax ≤ old.age (fr 3 0 0 1 0)) ∧
    ((arrive r (fr 3 0 0 1 0)).age (fr 3 0 0 1 0) < r.route.ageMax ∧ frDst (fr 3 0 0 1 0) = r.nodeId ∧
      serves 0 (frDep (fr 3 0 0 1 0)) = true ∧ r.delivers 0 (fr 3 0 0 1 0) = true ∧ frStatus (fr 3 0 1 1 0) = 1 ∧ frCls (fr 5 0 0 1 0) = 5 ∧
      (r.fab 0).streams.any (·.of (fr 3 0 0 1 0)) = false ∧ serves 1 (frDep (fr 3 0 0 1 0)) = false ∧ r.crossOutputs 0 ≠ [] ∧
      old.beatsTaken ∧ cut.beatsTaken) ∧
    (frDst (fr 3 0 0 0 1) ≠ r.nodeId ∧ (retired.rslot (frEpoch (fr 3 0 0 0 1))).state = .retired ∧
      (r.rslot (frEpoch (fr 3 0 0 0 1))).state ≠ .retired) ∧
    good (arrive r (fr 3 0 0 0 1)) ≠ [] ∧ good cut = [] ∧ (portsOf 0).filter (cut.outFree 0 ·) = [] ∧
    (none_ cut).crossOutputs 0 = [] ∧
    (let m := { none_ r with route := { r.route with slots := vset r.route.slots 0 ⟨0x01000000, [], [], .active⟩ } }
     bit (m.rslot 0).cfg 31 = false ∧ m.crossOutputs 0 = [] ∧ (m.productivePorts 0 (m.rslot 0) 1) = [] ∧
      (portsOf 0).filter (m.outFree 0 ·) ≠ []) := by decide +kernel

theorem witness_RouterSlots_inject :
    let r := routed up
    let inj := onFab r 0 (fun x => { x with inject := [fr 3 0 0 0 1] })
    let held := onFab inj 0 (fun x => { x with hold := [fr 3 0 0 0 1] })
    let out := fun (o : OutFrame) => onFab r 0 (fun x => { x with outbox := [o], grantTx := [(3, 0xB000004000000001)] })
    let o1 : OutFrame := ⟨fr 3 0 0 0 1, .none, some 3, some 1⟩
    let o2 : OutFrame := ⟨fr 2 1 0 0 1, .none, none, none⟩
    (∀ m, (inj.port m).lateLanes = []) ∧ (inj.fab 0).inject = [fr 3 0 0 0 1] ∧ (held.fab 0).hold ≠ [] ∧ (inj.fab 0).holdoff = false ∧ r.route.active = some 0 ∧
    ((inj.productivePorts 0 (inj.rslot 0) 1).filter (((portsOf 0).filter (inj.outFree 0 ·)).contains ·)) ≠ [] ∧
    (inj.fab 0).wayOf (fr 3 0 0 0 1) = none ∧ r.beatsTaken ∧
    (∀ o ∈ [o1, o2], ((out o).fab 0).outbox = [o] ∧ (out o).injectable 0 o = true ∧
      Sparse.wf (0 : Word64) ((out o).fab 0).grantTx = true ∧ (out o).destination 0 o = some 1) ∧ (out o1).grantOf 0 o1 = some 3 ∧
    0 < fld (Sparse.get 0 ((out o1).fab 0).grantTx 3) 0 16 ∧ up.route.active = none := by decide +kernel

def stream0 : Stream := ⟨3, 0, 1, 0, 0, some 0, [fr 3 0 0 1 0], 2, 7, 0⟩
def slot0 (cls : Nat) : SrcSlot := ⟨fr cls 0 0 0 1, .none, some 3, false⟩
/-- A CREDIT frame that covers the frame of `slot0 cls`. -/
def creditFor (cls : Nat) : Frame :=
  ⟨mkHeader 2 1 0 0 0 0 0 16 1 0 0 0, leBytes 8 (cls * 2 ^ 36) ++ List.replicate 248 0⟩

theorem witness_StreamsAndCredits :
    let r := routed up
    let s := onFab r 0 (fun x => { x with streams := [stream0] })
    let gap := onFab r 0 (fun x => { x with streams := [{ stream0 with expected := some 0xFFFFFFF0 }] })
    let c := fun (cls : Nat) => onFab r 0 (fun x => { x with
      delivered := [creditFor cls], slots := [slot0 cls], grantTx := [(3, 0x8000004000000001)] })
    let dead := onFab r 0 (fun x => { x with delivered := [fr 3 0 1 1 0], slots := [slot0 3] })
    ((s.fab 0).streams[0]? = some stream0 ∧ stream0.expected = some 0) ∧
    ((gap.fab 0).streams.map (·.earliest) = [some 0]) ∧ ((s.fab 0).credits = [] ∧ usesCredits stream0.cls.toNat = true ∧ 0 < stream0.unreported) ∧
    (∀ cls ∈ [1, 3], let f := creditFor cls
      let w := BitVec.ofNat 64 (field f.payload 0 8)
      let z := slot0 cls
      ((c cls).fab 0).delivered = [f] ∧ frCls f = 2 ∧ frKind f = 1 ∧ frLen f = 16 ∧ field f.payload 8 8 = 0 ∧
      Sparse.wf (0 : Word64) ((c cls).fab 0).grantTx = true ∧ ((c cls).fab 0).slots = [z] ∧ z.waitRsp = false ∧ z.use = .none ∧ fld w 36 4 = frCls z.frame ∧
      bfld w 32 4 = frChan z.frame ∧ frSrc f = frDst z.frame ∧ bfld w 40 3 = frDep z.frame ∧ frDep f = frSep z.frame ∧
      notLater (frSeq z.frame) (bfld w 0 32) = true ∧ fld (Sparse.get 0 ((c cls).fab 0).grantTx 3) 0 16 < 65535 ∧
      bfld w 48 4 = (0 : BitVec 4)) ∧
    ((dead.fab 0).delivered.head? = some (fr 3 0 1 1 0) ∧ frStatus (fr 3 0 1 1 0) = 1 ∧ frCls (fr 3 0 1 1 0) ≠ 5 ∧
      (dead.modFab 0 (fun x => { x with delivered := x.delivered.erase (fr 3 0 1 1 0) })).slotOf (fr 3 0 1 1 0) = some (0, slot0 3) ∧
      (dead.fab 0).slots[0]? = some (slot0 3) ∧ (∀ u, Sparse.wf (0 : Word64) (dead.fab u).grantTx = true ∧ Sparse.wf false (dead.fab u).sosDone = true)) ∧
    (r.fab 0).slots[0]? = none ∧ (r.fab 0).delivered = [] ∧ (r.fab 0).streams[0]? = none := by decide +kernel

/-- A frame to an address. -/
def frA (cls kind a : Nat) : Frame := ⟨mkHeader cls kind 0 0 0 0 0 32 1 0 0 a, List.replicate 256 0⟩

theorem witness_TorusRequests :
    let r := routed up
    let got := fun (f : Frame) => onFab r 0 (fun x => { x with delivered := [f] })
    let win := windowBase + 0x800000
    let rsp := fun (z : SrcSlot) => onFab (got (fr 2 0 0 1 0)) 0 (fun x => { x with slots := [z] })
    let far := dm 1 (qd (2 ^ 48) 1 31 0) 0
    let mv := r.setXfer 0 0 (some (dmRun far))
    let askd := r.modSheet 0 (fun x => { x with asked := true })
    let mnt := fun (k : Nat) => { r with mgmt := { r.mgmt with mntIn := [fr 5 k 0 1 0] } }
    (∀ a ∈ [0, win, windowBase + 0x7FFFF0], ((got (frA 1 0 a)).fab 0).delivered = [frA 1 0 a] ∧ frCls (frA 1 0 a) = 1 ∧
      frKind (frA 1 0 a) = 0 ∧ frAddr (frA 1 0 a) = a ∧ frLen (frA 1 0 a) = 32) ∧
    r.remoteCell 0 win 32 = some (1, 0) ∧ r.remoteCell 0 (windowBase + 0x7FFFF0) 32 = none ∧ r.reaches 0 0 32 = true ∧
    r.reaches 0 0x500000000000 32 = false ∧
    (frCls (frA 3 0 win) = 3 ∧ frKind (frA 3 0 win) = 0 ∧ (frData (frA 3 0 win)).length = 32 ∧ r.inRanges 0 0x500000000000 32 = false) ∧
    r.unhindered ∧ r.beatsTaken ∧ (askd.sheet 0).asked = true ∧
    (mv.xfer 0 0 = some (dmRun far) ∧ far.sides mv 0 0 = (.remote 1 0, .store 0 0) ∧ far.part mv 0 0 1 = [(0, 1)]) ∧
    (∀ z ∈ [slot0 1, { slot0 1 with use := .sheet 0 0 }, { slot0 1 with use := .mover 0 0 0 1 }],
      ((rsp z).fab 0).slots = [z] ∧ frCls z.frame = 1 ∧ frTag z.frame = frTag (fr 2 0 0 1 0) ∧ frDst z.frame = frSrc (fr 2 0 0 1 0) ∧
      frStatus (fr 2 0 0 1 0) = 0) ∧
    (∀ k ∈ [0, 1, 2], (mnt k).mgmt.mntIn = [fr 5 k 0 1 0] ∧ frKind (fr 5 k 0 1 0) = k) := by decide +kernel

theorem witness_FabricConfiguration :
    let st := fun (q : RouteState) => { up with route := { up.route with slots := vset up.route.slots 0 ⟨0x8FFF0000, [], [], q⟩ } }
    let g := fun (w : Word64) => onFab up 0 (fun x => { x with grantTx := Sparse.set 0 [] 3 w })
    (∀ q ∈ [RouteState.retired, .valid, .active, .draining, .drained], (vget (st q).route.slots 0).state = q) ∧
    up.regsUp = true ∧ (vget (st .retired).route.slots 0).begun = [] ∧
    (st .valid).phase (st .valid).route.part = .closed ∧ (inPhase (st .valid) 1).phase (st .valid).route.part ≠ .closed ∧
    (∀ j : Fin 2, j ≠ 0 → (vget (st .valid).route.slots j).state ≠ .valid) ∧ (∀ j : Fin 2, (vget up.route.slots j).state ≠ .valid) ∧
    (∀ w ∈ [0, 2 ^ 63 + 2 ^ 22, 2 ^ 63], Sparse.wf (0 : Word64) ((g (BitVec.ofNat 64 w)).fab 0).grantTx = true ∧
      Sparse.get 0 ((g (BitVec.ofNat 64 w)).fab 0).grantTx 3 = BitVec.ofNat 64 w) ∧
    up.allPortsDown = true ∧ (portUp 0 up).allPortsDown = false := by decide +kernel

theorem witness_FabricConfiguration_darkslide :
    let aux := { State.reset with start := { State.reset.start with aux := true } }
    let opened := { aux with route := { aux.route with darkClosed := 0 } }
    let calm := { routed up with start := { up.start with aux := true, coreOn := true }, route := { (routed up).route with darkClosed := 0x3F } }
    let cause := fun (s : State) => s.start.aux = true ∧ (s.faults.chipPhase.isSome = true ∨ s.start.coreOn = false ∨ s.route.active = none)
    (cause opened ∧ opened.route.darkClosed ≠ 0x3F) ∧ aux.route.darkClosed = 0x3F ∧
    (¬ cause calm ∧ bit calm.route.darkClosed 0 = true ∧ ∀ k ∈ pairPorts 0, (calm.port k).up = true) ∧
    ((calm.port 0).up = true ∧ calm.canReserve 0 = true ∧ (aux.port 0).up = false) ∧
    (∃ k ∈ pairPorts 0, (aux.port k).up = false) ∧ aux.dark 0 = true ∧ opened.dark 0 = false := by decide +kernel

/-- A write of the host to a register of FD1 crosses the register ring from FD0. -/
theorem witness_FabricConfiguration_ring :
    up.route.ringWay (entryDie .host) 5 = some [0, 1, 2] ∧ (0 : Fin 6) ∈ [(0 : Fin 6), 1, 2] ∧ (3 : Fin 6) ∉ [(0 : Fin 6), 1, 2] := by
  decide +kernel

/-- A frame the darkslide passes to the mate port (node 1 here), turns back (node 0 here), or drops (of class 2). -/
theorem witness_FabricConfiguration_forward (s : State) (hs : (s.port 0).lack = 0xFF) :
    (∀ h : BitVec 256, h = 1 ∨ h = 2 → (frameWith h id).payload.length = 256 ∧
      ((s.port 0).receive (frameWith h id)).2 = some (frameWith h id) ∧ frDst (frameWith h id) = 0) ∧
    notReturned (frameWith 1 id) = false ∧ notReturned (frameWith 2 id) = true := by
  have low : ∀ h : BitVec 256, h = 1 ∨ h = 2 → frLseq (frameWith h id) = 0 ∧ frDst (frameWith h id) = 0 ∧
      frCls (frameWith h id) = h.toNat ∧ frKind (frameWith h id) = 0 ∧ frStatus (frameWith h id) = 0 := by
    intro h hh
    obtain ⟨-, -, h3, -⟩ := frameWith_crc h id
    refine ⟨(bfld_of_fld (h3 192 8 (by omega))).trans ?_, (bfld_of_fld (h3 48 16 (by omega))).trans ?_,
      (h3 0 4 (by omega)).trans ?_, (h3 16 4 (by omega)).trans ?_, (bfld_of_fld (h3 12 4 (by omega))).trans ?_⟩ <;>
    obtain rfl | rfl := hh <;> decide
  refine ⟨fun h hh => ⟨List.length_replicate, ?_, (low h hh).2.1⟩, ?_, ?_⟩
  · obtain ⟨h1, h2, -, -⟩ := frameWith_crc h id
    have hc : frameCrc (frameWith h id) = bfld (frameWith h id).header 224 32 := h1.trans h2.symm
    have hz : frCls (frameWith h id) ≠ 0 := by rw [(low h hh).2.2.1]; obtain rfl | rfl := hh <;> decide
    have hq : frLseq (frameWith h id) = (s.port 0).lack + 1 := by rw [(low h hh).1, hs]; decide
    simp only [Port.receive]
    rw [if_neg (not_not.mpr hc), if_neg hz, if_pos hq]
  · obtain ⟨-, -, h1, h2, h3⟩ := low 1 (.inl rfl)
    simp only [notReturned, h1, h2, h3]; decide
  · obtain ⟨-, -, h1, h2, h3⟩ := low 2 (.inr rfl)
    simp only [notReturned, h1, h2, h3]; decide

/-! ### Collectives -/

/-- A descriptor's 128 bytes: OP, DTYPE, N 2, own index 0, one arrival, 16 credits, on the Y axis. -/
def collWords (op dtype : Nat) : Vector Word64 16 :=
  vset (vset (Vector.replicate 16 0) 0 (BitVec.ofNat 64 (op + 256 + dtype * 2 ^ 16 + 2 * 2 ^ 32))) 1 (BitVec.ofNat 64 (1 + 16 * 2 ^ 32))
def inst0 (lens : List Nat) : Instance :=
  ⟨[], 0, 0, 0x40000000, 64, lens, [], 0, [], [], [], 0, 0, 0, [], [], false, [], [], []⟩
def withColl (x : Colld) : State := (trainedAll (routed up)).setColld 0 x
def coll (op dtype : Nat) (st : CollState) : Colld := { Colld.reset with words := collWords op dtype, state := st }
def running (op dtype : Nat) (lens : List Nat) : Colld := { coll op dtype .active with now := some (inst0 lens) }
/-- A cl instruction of an operation on descriptor 0 (kind 4). -/
def clArr (op : Byte) : ClArrival := ⟨0, ⟨tag0 5 op, op, ⟨1, 0, 5, 0, 0, 0, 0⟩, qd 0 4 31 0⟩⟩
/-- A COL frame from node 1 on descriptor 0 with a tag. -/
def colFr (kind : Nat) (tag : BitVec 16) (bs : List Byte) : Frame := ⟨mkHeader 4 kind 0 0 0 4 4 32 1 0 tag 0, padPayload bs⟩

theorem witness_CollectiveControl :
    let ok := fun (x : Colld) => Sparse.wf Colld.reset (withColl x).coll.descs = true ∧ (withColl x).colld 0 = x
    let axisTwo := (withColl (coll 6 0 .idle)).setColld 16 (coll 6 0 .armed)
    let big := (withColl (coll 6 0 .idle)).modFab 0 (fun x => { x with robCfg := 16384 })
    let fits := fun (s : State) (f : FabId) => withinRob ((s.reserved f).1 + (s.colld 0).desc.streams f * (s.colld 0).desc.credits,
      (s.reserved f).2 + (s.colld 0).desc.streams f)
    (∀ st ∈ [CollState.idle, .armed, .active, .failed], ok (coll 6 0 st)) ∧ (withColl (coll 6 0 .idle)).regsUp = true ∧ (coll 6 0 .idle).desc.good (withColl (coll 6 0 .idle)) = true ∧
    (coll 7 0 .idle).desc.good (withColl (coll 7 0 .idle)) = false ∧
    ((axisTwo.colld 16).state ≠ .idle ∧ (axisTwo.colld 16).desc.axis = (axisTwo.colld 0).desc.axis ∧ 16 % 16 = 0 % 16) ∧
    fits (withColl (coll 6 0 .idle)) 0 = true ∧ fits (withColl (coll 6 0 .idle)) 1 = true ∧ fits big 0 = false := by
  decide +kernel

theorem witness_CollectiveControl_noClash :
    ¬ ∃ j ≠ 0, ((withColl (coll 6 0 .idle)).colld j).state ≠ .idle ∧
      ((withColl (coll 6 0 .idle)).colld j).desc.axis = (coll 6 0 .idle).desc.axis ∧ j % 16 = 0 % 16 := by
  rintro ⟨j, hj, h, -⟩
  apply h
  have : (withColl (coll 6 0 .idle)).coll.descs = [(0, coll 6 0 .idle)] := by decide +kernel
  simp only [State.colld, this, Sparse.get]
  rw [if_neg (by omega), if_neg (by omega)]
  rfl

theorem witness_CollectiveControl_arrivals :
    let s := fun (x : Colld) (op : Byte) => { withColl x with coll := { (withColl x).coll with inbox := vset (withColl x).coll.inbox 0 [clArr op] } }
    let wide := { coll 6 0 .armed with words := vset (collWords 6 0) 1 (BitVec.ofNat 64 (2 + 16 * 2 ^ 32)) }
    (∀ op ∈ [(6 : Nat), 7], let a := clArr (BitVec.ofNat 8 op)
      vget (s (coll 6 0 .armed) (BitVec.ofNat 8 op)).coll.inbox 0 = [a] ∧ (qdescOf a.ins.qd).handle = 0 ∧
      (s (coll 6 0 .armed) (BitVec.ofNat 8 op)).partOf a.cell = some (coll 6 0 .armed).desc.part) ∧
    (wide.state = .armed ∧ wide.arrived.length + 1 < wide.desc.arriveN) ∧
    ((coll 6 0 .armed).desc.op = 6 ∧ (coll 6 0 .armed).desc.good (withColl (coll 6 0 .armed)) = true ∧ (withColl (coll 6 0 .armed)).unhindered ∧ (coll 6 0 .armed).desc.arriveN = 1 ∧
      ∀ k < (coll 6 0 .armed).desc.n, ((withColl (coll 6 0 .armed)).member (coll 6 0 .armed).desc k).isSome = true) := by decide +kernel

theorem witness_CollectiveControl_messages :
    let s := fun (x : Colld) (f : Frame) => onFab (withColl x) 0 (fun y => { y with delivered := [f] })
    let rdy := colFr 1 0 (leBytes 8 0)
    let wrong := colFr 1 0 (leBytes 8 5)
    let arr := colFr 5 0 (leBytes 8 0)
    let tag := colFr 2 1 (leBytes 8 9)
    let r := inst0 []
    let gather := running 1 0 []
    (∀ f ∈ [rdy, wrong, arr, tag], ((s gather f).fab 0).delivered = [f] ∧ frCls f = 4 ∧ 4 ≤ (frDep f).toNat ∧ frAddr f % 2 ^ 24 = 0 ∧
      (s gather f).indexOf gather.desc (frSrc f) = some 1 ∧ field f.payload 0 8 ≠ (gather.inst + 1).toNat) ∧
    [rdy, wrong, arr, tag].map frKind = [1, 1, 5, 2] ∧ field rdy.payload 0 8 = gather.inst.toNat ∧
    field rdy.payload 8 4 = (r.crc gather.desc).toNat ∧ field wrong.payload 0 8 ≠ gather.inst.toNat ∧
    gather.desc.n ≤ (frTag tag).toNat + 1 ∧ bit r.fn 0 = false ∧ bit r.fn 1 = false ∧
    bit ({ r with fn := 1 } : Instance).fn 0 = true ∧ field tag.payload 0 8 ≠ r.stamp.toNat ∧ field tag.payload 8 8 ∉ r.stale ∧
    1 ∈ ({ r with readies := [1] } : Instance).readies ∧ gather.desc.op ≠ 4 ∧ (running 4 0 []).desc.op = 4 ∧
    ({ r with recvLens := [0, 4] } : Instance).lacks 1 = true := by
  decide +kernel

theorem witness_CollectiveControl_end :
    let x := running 6 0 []
    let s := withColl x
    let done := { x with now := some { inst0 [] with arrives := [1], readies := [1] } }
    (s.colld 0).now = some (inst0 []) ∧ s.collComplete 0 x.desc (inst0 []) = false ∧ x.desc.op ≠ 2 ∧
    (withColl done).collComplete 0 x.desc { inst0 [] with arrives := [1], readies := [1] } = true ∧
    ((withColl (coll 6 0 .armed)).colld 0).now = none ∧ s.unhindered ∧ (withColl done).unhindered := by decide +kernel

theorem witness_CollectiveData :
    let f := colFr 0 1 [1, 2, 3, 4]
    let frames := fun (x : Colld) => onFab (withColl x) 0 (fun y => { y with delivered := [f] })
    let g := running 1 0 [64, 64]
    let s := frames g
    let d := g.desc
    let r := inst0 [64, 64]
    let asc := s.halfOf d r 1 0 f
    let j := (d.me + 2 * d.n - 1) % d.n
    let q := running 2 2 [64, 64]
    let u := frames q
    let jr := (q.desc.me + 2 * q.desc.n - 1 - 1) % q.desc.n
    (s.fab 0).delivered = [f] ∧ frCls f = 4 ∧ 4 ≤ (frDep f).toNat ∧ frKind f = 0 ∧ frAddr f % 2 ^ 24 = 0 ∧ g.now = some r ∧ frStatus f = 0 ∧ d.n ≤ (frTag f).toNat + 1 ∧ s.unhindered ∧
    asc = true ∧ d.op = 1 ∧ frAddr f / 2 ^ 24 < d.halfFrames (r.lenAt j) asc ∧ 0 < (d.piece r j asc 0).len ∧
    (s.checkWrite .other (r.base + (d.piece r j asc 0).off) 64).1 = .ok ∧ (d.piece r j asc 0).len = 64 ∧
    s.reaches d.part (r.base + (d.piece r j asc 0).off) 64 = true ∧
    (q.desc.op = 2 ∧ q.desc.dtype = 2 ∧ (frTag f).toNat + 1 = q.desc.n ∧ u.halfOf q.desc r 1 0 f = true ∧
      0 < q.desc.halfFrames (r.lenAt jr) true ∧ (q.desc.piece r jr true 0).len = 64 ∧
      (u.bufRead q.desc.part (r.base + (q.desc.piece r jr true 0).off) 64).2 = [] ∧
      (u.checkWrite .other (r.base + (q.desc.piece r jr true 0).off) 64).1 = .ok ∧
      u.reaches q.desc.part (r.base + (q.desc.piece r jr true 0).off) 64 = true) := by decide +kernel

/-- The local bytes of the reduction above read without a correctable error either. -/
theorem witness_CollectiveData_clean :
    let u := withColl (running 2 2 [64, 64])
    u.dramNote none false 128 64 = u ∧ 64 + ((u.colld 0).desc.piece (inst0 [64, 64]) 1 true 0).off = 128 := by
  intro u
  refine ⟨?_, by decide +kernel⟩
  have hp : pieces 128 64 = [(128, 64)] := by decide +kernel
  have hd : u.direct 128 = some 128 := by decide +kernel
  have hs : (u.stack (stackOf 128)).silent = false := by decide +kernel
  have hw : u.wireTries 128 = [] := by decide +kernel
  have hm : u.margined (stackOf 128) (u.chanOf 128) = false := by decide +kernel
  have hk : (u.seen 128).marked (128 / 256 * 256) 256 = [] := by decide +kernel
  have hc : u.crossed none false 128 128 (0, []) = u := by
    simp only [State.crossed, hw, State.marginBurst, hm, State.burstCrc, if_true, Bool.false_eq_true, if_false]
  simp only [State.dramNote, hp, List.foldl_cons, List.foldl_nil, hd, hs, Bool.false_eq_true, if_false, State.noteBurst,
    State.wire, hw, hc, hk, show ((0 : Nat) = 4) = False from by simp]

def side0 : SideRun := ⟨0, [0, 0], [], 0, [], [], false, some 0, [], false, false, none⟩

theorem witness_CollectiveData_records :
    let x := { coll 2 1 .armed with side := some side0 }
    let s := inPhase (withColl x) 2
    let ready := s.modStep 0 (fun t => { t with stopWord := some 1 })
    let sent := (withColl { x with side := some { side0 with sent := true } }).modStep 0 (fun t => { t with stopWord := some 1 })
    let got := fun (f : Frame) => onFab (withColl (coll 2 1 .armed)) 0 (fun y => { y with delivered := [f] })
    let rec1 := colFr 3 0 []
    let rec2 := colFr 4 0 []
    ready.sideOf 0 = some (0, side0) ∧ ready.unhindered ∧ sent.unhindered ∧ (ready.stepOf 0).stopWord = some 1 ∧ (ready.colld 0).records = [] ∧ 2 ≤ (ready.colld 0).desc.n ∧
    (ready.colld 0).side = some side0 ∧ (sent.sideOf 0).map (·.2.sent) = some true ∧
    (∀ f ∈ [rec1, rec2], ((got f).fab 0).delivered = [f] ∧ frCls f = 4 ∧ 4 ≤ (frDep f).toNat ∧ frAddr f % 2 ^ 24 = 0 ∧ ((got f).colld 0).state = .armed ∧
      (got f).indexOf ((got f).colld 0).desc (frSrc f) = some 1 ∧ ((got f).colld 0).records = [] ∧ (got f).sideOf 0 = none) ∧
    frKind rec1 = 3 ∧ (frData rec1).length < 0x40 + 8 * (coll 2 1 .armed).desc.gCount ∧ frKind rec2 = 4 ∧ 16 ≤ (frData rec2).length ∧
    0x40 + 8 * (coll 2 1 .armed).desc.gCount ≤ (List.replicate 64 (0 : Byte) ++ frData rec1).length ∧
    field (List.replicate 64 (0 : Byte) ++ frData rec1) 4 4 = fld ((got rec1).stepOf 0).index 0 32 ∧
    side0.yResult = some 0 ∧ (side0.allFlags x.desc).isSome = true ∧
    ({ side0 with yResult := none } : SideRun).yResult = none ∧ up.sideOf 0 = none := by decide +kernel

/-- Nothing holds bursts back where a record arrives or no verdict collective runs. -/
theorem witness_CollectiveData_free :
    (onFab (withColl (coll 2 1 .armed)) 0 (fun y => { y with delivered := [colFr 3 0 []] })).unhindered ∧ up.unhindered ∧
    ((withColl { coll 2 1 .armed with side := some side0 }).colld 0).now = none := by decide +kernel

/-! ### Twins -/

/-- TX grants to endpoints 4 and 5 of node 1. -/
def linked (s : State) : State :=
  let w := fun (ep : Nat) => BitVec.ofNat 64 (2 ^ 63 + 3 * 2 ^ 60 + ep * 2 ^ 57 + ep * 2 ^ 54 + 2 ^ 38 + 1)
  (onFab s 0 (fun x => { x with grantTx := [(0, w 4)] })).modFab 1 (fun x => { x with grantTx := [(0, w 5)] })
def onTwin (s : State) (f : Twin → Twin) : State := s.modTwin 0 f
def twin1 : State := onTwin (linked (routed up)) (fun t => { t with peer := 1 })
/-- A mailbox message of a type with fields. -/
def msg (ty : Byte) (b1 : Byte) (w2 n4 c8 n16 n24 : Nat) : TwinMsg :=
  [ty, b1] ++ leBytes 2 w2 ++ leBytes 4 n4 ++ leBytes 8 c8 ++ leBytes 8 n16 ++ leBytes 8 n24 ++ List.replicate 32 0

theorem witness_TwinOwner :
    let st := fun (n : Nat) => onTwin twin1 (fun t => { t with status := setFld t.status 29 3 n })
    let listed := (trainedAll (onTwin twin1 (fun t => { t with listN := 1, list := 0x40000000 }))).dramWrite .other 0x40000000 (leBytes 8 0 ++ leBytes 4 1)
    let marked := listed.modStack 0 (fun x => { x with pages := (pageGranules 0).map (fun g => (g.2, 1)) })
    let wait := onTwin twin1 (fun t => { t with helloWait := true, slots := [0] })
    let mail := fun (s : State) (m : TwinMsg) => onTwin s (fun t => { t with inbox := [m] })
    let hello := msg 1 0 1 1 0 1 1
    twin1.regsUp = true ∧ twin1.unhindered ∧ wait.unhindered ∧ (∀ n ∈ [0, 1, 2, 3], ((st n).twin 0).stateCode = n) ∧ up.phase 0 = .closed ∧ (inPhase up 1).phase 0 ≠ .closed ∧
    ((twin1.twin 0).helloWait = false ∧ twin1.twinList 0 = none) ∧ listed.twinList 0 = none ∧ marked.twinList 0 = some [0] ∧
    ((marked.physical 1).isSome = true ∧ ((marked.fab 0).txGrant 3 4 4 1).isSome = true) ∧
    (wait.twin 0).helloWait = true ∧ ((mail wait hello).twin 0).inbox = [hello] ∧ hello.head? = some 1 ∧ field hello 24 8 ≠ 0 ∧
    (field hello 2 2 = fld (wait.twin 0).peer 0 16 ∧ field hello 1 1 = 0 ∧ field hello 4 4 = (wait.twin 0).slots.length ∧
      (wait.twin 0).slots.length ≤ field hello 16 4) ∧ field (msg 1 0 2 1 0 1 1) 2 2 ≠ fld (wait.twin 0).peer 0 16 ∧
    twin1.refixGood 0 = false ∧ (wait.twin 0).restoreAsk = false ∧
    (∀ k : Fin 2, (vget (twin1.twin 0).buffers k).state = 0 ∧ twin1.manifestHeld 0 k = false) := by decide +kernel

theorem witness_TwinOwner_stream :
    let on := onTwin (twinned twin1) (fun t => { t with streaming := some 0, negDone := 7, slots := [0, 0x200000] })
    let mail := fun (m : TwinMsg) => onTwin on (fun t => { t with inbox := [m] })
    let ack := msg 2 1 0 0 0 1 0
    let again := msg 3 0 0 1 0 0 0
    let third := onTwin on (fun t => { t with resent := [(1, 3)] })
    let held := onTwin on (fun t => { t with held := [1] })
    let free := onTwin on (fun t => { t with ctl := setFld t.ctl 0 16 0 })
    let rate := onTwin on (fun t => { t with ctl := setFld t.ctl 0 16 1, bucket := 0 })
    let full := onTwin rate (fun t => { t with bucket := 10 * 2 ^ 21 })
    let wait := (onTwin (twinned twin1) (fun t => { t with negDone := 7 })).modStep 0 (fun t => { t with stage := .waitNegative })
    on.unhindered ∧ on.streams 0 = some 0 ∧ (on.twin 0).resendQ = [] ∧ on.twinWaiting 0 (fun m => m ≥ 0x100000) = false ∧ (on.twin 0).nextSlot = 0 ∧
    free.twinUnlimited 0 = true ∧ rate.twinUnlimited 0 = false ∧ pageTokens ≤ ((full.twinFill 0).twin 0).bucket ∧
    ((rate.twinFill 0).twin 0).bucket < pageTokens ∧ (rate.twin 0).background = some 0 ∧ on.streamOf 0 = some 0 ∧
    (on.twin 0).page 0 = .unsent ∧ up.streams 0 = none ∧ ((on.physical 1).isSome = true ∧ ((on.fab 0).txGrant 3 4 4 1).isSome = true) ∧
    (∀ m ∈ [ack, again], ((mail m).twin 0).inbox = [m] ∧ field m 8 8 = 0) ∧ ack.head? = some 2 ∧ field ack 1 1 = 1 ∧ field ack 16 2 = 1 ∧
    (on.twin 0).page 1 ≠ .acked ∧ again.head? = some 3 ∧ field again 4 4 = 1 ∧ Sparse.get 0 (on.twin 0).resent 1 < 3 ∧
    3 ≤ Sparse.get 0 (third.twin 0).resent 1 ∧ (third.stepOf 0).delivered = none ∧
    ([5, 6, 8, 9].map (fun (n : Nat) => (msg (BitVec.ofNat 8 n) 0 0 0 0 0 0).head?) = [some 5, some 6, some 8, some 9]) ∧
    field (msg 6 0 0 0 0 0 0) 8 8 = (on.stepOf 0).index.toNat ∧
    ((onTwin on (fun t => { t with bodyStep := some 0 })).twin 0).bodyStep = some (on.stepOf 0).index ∧ ((on.sheet 0).stateCode ≠ 2) ∧
    wait.waitsOnTwin 0 = true ∧ up.waitsOnTwin 0 = false ∧ 1 ∈ (held.twin 0).held ∧ (held.twin 0).page 1 = .unsent ∧
    (held.twin 0).pageState = [] ∧ 1 ∉ (on.twin 0).held ∧ (up.twin 0).inbox = [] := by decide +kernel

theorem witness_TwinHolderAndRestore :
    let buf := onTwin twin1 (fun t => { t with buffers := vset t.buffers 0 ⟨1, 0, 1, []⟩ })
    let claim := onTwin buf (fun t => { t with claims := [(0, 0, 5)] })
    let man := msg 4 0 0 0 0 0 0
    let sealMsg := fun (v : Nat) => msg 7 0 0 v 0 0 0
    let recd := onTwin twin1 (fun t => { t with records := vset t.records 0 ⟨true, 0, 0, false, false⟩ })
    let mail := fun (s : State) (m : TwinMsg) => onTwin s (fun t => { t with inbox := [m] })
    claim.unhindered ∧ recd.unhindered ∧ (claim.twin 0).claims = [(0, 0, 5)] ∧ ((claim.physical 1).isSome = true ∧ ((claim.fab 0).txGrant 3 4 4 1).isSome = true ∧
      (claim.twin 0).peerBase % 256 = 0) ∧ (vget (claim.twin 0).buffers (bufOf 0)).state = 1 ∧ (vget (claim.twin 0).buffers (bufOf 0)).count = 0 ∧
    (up.twin 0).claims = [] ∧ ((mail buf man).twin 0).inbox = [man] ∧ man.head? = some 4 ∧ field man 8 8 = 0 ∧
    (vget ((mail twin1 man).twin 0).buffers (bufOf 0)).state ≠ 1 ∧
    (∀ v ∈ [0, 1], ((mail recd (sealMsg v)).twin 0).inbox = [sealMsg v] ∧ (sealMsg v).head? = some 7 ∧
      (vget ((mail recd (sealMsg v)).twin 0).records 0).used = true ∧
      (vget ((mail recd (sealMsg v)).twin 0).records 0).step = BitVec.ofNat 64 (field (sealMsg v) 8 8) ∧
      (vget ((mail recd (sealMsg v)).twin 0).records 1).used = false) ∧ skips 0 = false ∧ skips 1 = true := by decide +kernel

theorem witness_TwinHolderAndRestore_commands :
    let on := fun (r : Restore) => onTwin twin1 (fun t => { t with restore := r, restoreStat := 0x80000000 })
    let ask := onTwin (on (.record 1)) (fun t => { t with restoreAsk := true })
    let mail := fun (m : TwinMsg) => onTwin ask (fun t => { t with inbox := [m] })
    let size := fun (s : State) => (((s.groupsOf 0).filter (fun g => (s.group g).enabled)).map (fun g => 4 * (s.group g).blocks.toNat)).sum
    (twin1.phase 0 = .closed ∧ bit (twin1.twin 0).restoreStat 31 = false) ∧ bit ((on .tables).twin 0).restoreStat 31 = true ∧
    ((twin1.physical 1).isSome = true ∧ ((twin1.fab 0).txGrant 3 4 4 1).isSome = true) ∧
    ((up.fab 0).txGrant 3 4 4 (bfld (up.twin 0).peer 0 16)).isSome = false ∧ (up.stepOf 0).delivered = none ∧
    (∀ r ∈ [Restore.record 1, .tables, .pages 0], ((on r).twin 0).restore = r ∧ (on r).restoreWaits 0 = false ∧ (on r).unhindered) ∧
    (twin1.twin 0).restore = .none ∧ ask.restoreWaits 0 = true ∧ (ask.twin 0).helloWait = false ∧
    (∀ m ∈ [msg 1 0 2 1 0 1 1, msg 1 1 1 1 0 1 1], ((mail m).twin 0).inbox = [m] ∧ m.head? = some 1 ∧ field m 24 1 ≠ 0) ∧
    field (msg 1 0 2 1 0 1 1) 2 2 ≠ fld (ask.twin 0).peer 0 16 ∧ field (msg 1 1 1 1 0 1 1) 1 1 ≠ 0 ∧
    ((on (.record 1)).twin 0).gotBytes (((on (.record 1)).twin 0).peers.record 1) 0 = some [] ∧
    (on (.record 1)).mgmtHeld 0 (pagesOf 0 0) = [] ∧ size (on .tables) = 0 ∧ ([1] : List Byte).length ≠ size (on .tables) := by
  decide +kernel

theorem piecesFrom_mem : ∀ (fuel a len : Nat) (x : Nat × Nat), x ∈ piecesFrom fuel a len → x.1 < a + len ∧ x.2 ≤ 256
  | 0, _, _, _, h => by simp [piecesFrom] at h
  | fuel + 1, a, len, x, h => by
    unfold piecesFrom at h
    split at h
    · simp at h
    · obtain rfl | h := List.mem_cons.mp h
      · dsimp only; omega
      · have := piecesFrom_mem fuel _ _ x h
        omega

/-- A burst of zeros. -/
def zeros256 : List Byte := List.replicate 256 0

/-- A fold of reads that all came whole and zero gives zeros. -/
theorem foldl_zeros (got : List (Nat × List Byte × Bool)) : ∀ (l : List (Nat × Nat)) (n : Nat),
    (∀ x ∈ l, x.2 ≤ 256 ∧ got.find? (fun e => e.1 == x.1) = some (x.1, zeros256, false)) →
    ∃ m, l.foldl (fun (r : Option (List Byte)) x =>
      match r, got.find? (fun e => e.1 == x.1) with
      | some bs, some e => if e.2.2 then none else some (bs ++ e.2.1.take x.2)
      | _, _ => none) (some (List.replicate n 0)) = some (List.replicate m 0)
  | [], n, _ => ⟨n, rfl⟩
  | x :: l, n, h => by
    obtain ⟨h1, h2⟩ := h x (List.mem_cons_self ..)
    obtain ⟨m, hm⟩ := foldl_zeros got l (n + x.2) (fun y hy => h y (List.mem_cons_of_mem _ hy))
    refine ⟨m, ?_⟩
    have e : List.replicate n (0 : Byte) ++ zeros256.take x.2 = List.replicate (n + x.2) 0 := by
      rw [zeros256, List.take_replicate, Nat.min_eq_left h1, List.replicate_append_replicate]
    rw [List.foldl_cons, h2, ← hm, ← e]
    rfl

/-- With nothing read of a range that is not empty there is nothing to write. -/
theorem witness_TwinHolderAndRestore_lost (a : Nat) : (up.twin 0).gotBytes a (1 * 2 ^ 21) = none := by
  have hg : (up.twin 0).restoreGot = [] := by decide +kernel
  have stays : ∀ l : List (Nat × Nat), l.foldl (fun (r : Option (List Byte)) x =>
      match r, ([] : List (Nat × List Byte × Bool)).find? (fun e => e.1 == x.1) with
      | some bs, some e => if e.2.2 then none else some (bs ++ e.2.1.take x.2)
      | _, _ => none) none = none := fun l => by
    induction l with
    | nil => rfl
    | cons x l ih => rw [List.foldl_cons]; exact ih
  unfold Twin.gotBytes pieces
  rw [hg, show 1 * 2 ^ 21 / 256 + 2 = 8193 + 1 from rfl]
  unfold piecesFrom
  rw [if_neg (by decide), List.foldl_cons]
  exact stays _

theorem crc64_zeros (n : Nat) : crc64 (List.replicate n 0) = 0 := by
  unfold crc64 crc64From
  induction n with
  | zero => rfl
  | succ n ih =>
    rw [List.replicate_succ, List.foldl_cons]
    exact (congrArg (fun c => List.foldl _ c _) (by decide)).trans ih

/-- What a restore of one listed page has read: a manifest, a digest list, and the page, all zeros. -/
def restoreMan (digest : Nat) : List Byte :=
  leBytes 8 (2 * 2 ^ 40) ++ List.replicate 16 0 ++ leBytes 8 1 ++ sha256 (leBytes 8 digest) ++ List.replicate 192 0
def restoreDig (digest : Nat) : List Byte := leBytes 8 digest ++ List.replicate 248 0
def restoreRead (digest : Nat) : List (Nat × List Byte × Bool) :=
  [(2 ^ 22, restoreMan digest, false), (2 ^ 22 + 0x200000, restoreDig digest, false)] ++
  (pieces 0 (2 ^ 21)).map (fun x => (x.1, zeros256, false))
def listed0 : State :=
  ((trainedAll twin1).dramWrite .other 0x40000000 (leBytes 8 0 ++ leBytes 4 1)).modStack 0
    (fun x => { x with pages := (pageGranules 0).map (fun g => (g.2, 1)) })
def restoring (got : List (Nat × List Byte × Bool)) : State :=
  onTwin listed0 (fun t => { t with listN := 1, list := 0x40000000, restore := .pages 0, peerBase := 0, peerPages := 1, restoreGot := got })

theorem restoring_got (g : List (Nat × List Byte × Bool)) : ((restoring g).twin 0).restoreGot = g ∧
    ((restoring g).twin 0).peers.page 0 0 = 0 := by
  unfold restoring onTwin
  rw [modTwin_twin_self]
  exact ⟨rfl, by simp only [Twin.peers, HoldArea.page, Nat.zero_mul, Nat.add_zero]⟩

theorem witness_TwinHolderAndRestore_page (d : Nat) (hd : d = 0 ∨ d = 1) :
    let s := restoring (restoreRead d)
    let w := s.twin 0
    let m := (w.gotBytes (w.peers.manifest 0) 0x100).getD []
    let list := slice ((w.gotBytes (w.peers.digest 0 0) 256).getD []) 0 8
    s.unhindered ∧ s.restoreWaits 0 = false ∧ w.restore = .pages 0 ∧ s.listPages w.list w.listN = some [0] ∧ s.mgmtHeld 0 [0] = [] ∧
    (field m 5 1 = 2 ∧ field m 0x18 4 = 1 ∧ sha256 list = slice m 0x20 32) ∧
    s.pageInside 0 = true ∧ s.pageMarked 0 0 = true ∧
    ∃ bs, w.gotBytes (w.peers.page 0 0) (2 ^ 21) = some bs ∧ (field list 0 8 = (crc64 bs).toNat ↔ d = 0) := by
  have page : ∃ n, ((restoring (restoreRead d)).twin 0).gotBytes (((restoring (restoreRead d)).twin 0).peers.page 0 0) (2 ^ 21) =
      some (List.replicate n 0) := by
    obtain ⟨hg, hp⟩ := restoring_got (restoreRead d)
    unfold Twin.gotBytes
    rw [hg, hp]
    refine foldl_zeros (restoreRead d) (pieces 0 (2 ^ 21)) 0 (fun x hx => ?_)
    have hb := piecesFrom_mem _ _ _ x hx
    refine ⟨hb.2, ?_⟩
    have h1 : ((2 ^ 22 == x.1) = false) ∧ ((2 ^ 22 + 0x200000 == x.1) = false) := by
      constructor <;> · simp only [beq_eq_false_iff_ne]; omega
    unfold restoreRead
    simp only [List.cons_append, List.nil_append, List.find?_cons, h1.1, h1.2, List.find?_map]
    have : ∃ y, (pieces 0 (2 ^ 21)).find? ((fun (e : Nat × List Byte × Bool) => e.1 == x.1) ∘ fun x => (x.1, zeros256, false)) = some y ∧
        y.1 = x.1 := by
      have hs : ((pieces 0 (2 ^ 21)).find? ((fun (e : Nat × List Byte × Bool) => e.1 == x.1) ∘
          fun x => (x.1, zeros256, false))).isSome = true := List.find?_isSome.mpr ⟨x, hx, by simp⟩
      obtain ⟨y, hy⟩ := Option.isSome_iff_exists.mp hs
      exact ⟨y, hy, by simpa using List.find?_some hy⟩
    obtain ⟨y, hy, he⟩ := this
    rw [hy]
    simp [he]
  obtain ⟨n, hn⟩ := page
  have rest : ∀ d ∈ [0, 1],
      let s := restoring (restoreRead d)
      let w := s.twin 0
      let m := (w.gotBytes (w.peers.manifest 0) 0x100).getD []
      let list := slice ((w.gotBytes (w.peers.digest 0 0) 256).getD []) 0 8
      (s.unhindered ∧ s.restoreWaits 0 = false ∧ w.restore = .pages 0 ∧ s.listPages w.list w.listN = some [0] ∧ s.mgmtHeld 0 [0] = []) ∧
      (field m 5 1 = 2 ∧ field m 0x18 4 = 1 ∧ sha256 list = slice m 0x20 32) ∧
      (s.pageInside 0 = true ∧ s.pageMarked 0 0 = true) ∧ field list 0 8 = d := by decide +kernel
  obtain ⟨h1, h2, h3, h4⟩ := rest d (by simpa using hd)
  refine ⟨h1.1, h1.2.1, h1.2.2.1, h1.2.2.2.1, h1.2.2.2.2, h2, h3.1, h3.2, _, hn, ?_⟩
  rw [h4, crc64_zeros]
  rfl

/-- A restore whose manifest has not come verifies nothing. -/
theorem witness_TwinHolderAndRestore_manifest :
    let s := restoring []
    s.listPages (s.twin 0).list (s.twin 0).listN = some [0] ∧
    ((s.twin 0).gotBytes ((s.twin 0).peers.manifest 0) 0x100).getD [] = [] ∧ field ([] : List Byte) 5 1 ≠ 2 := by decide +kernel

/-! ### Host, management and tray -/

def onHost (s : State) (f : HostIf → HostIf) : State := { s with host := f s.host }
def onSheet (s : State) (f : Sheet → Sheet) : State := { s with sheets := vmod s.sheets 0 f }
def portsUp (s : State) : State := onHost s (fun h => { h with hcpUp := true, hspUp := true })

theorem witness_SheetsAndHostPort :
    let st := fun (n : Nat) => onSheet up (fun x => { x with status := setFld x.status 29 3 n })
    let listed := (trainedAll (onSheet up (fun x => { x with listN := 1, list := 0x40000000 }))).dramWrite .other 0x40000000 (leBytes 8 0 ++ leBytes 4 1)
    let marked := listed.modStack 0 (fun x => { x with pages := (pageGranules 0).map (fun g => (g.2, 1)) })
    let passed := (onSheet marked (fun x => { x with atCount := 2 })).modStep 0 (fun t => { t with updateCount := 2 })
    let region : Word64 × Word64 := (0, BitVec.ofNat 64 (2 ^ 63 + 3 * 2 ^ 61 + 4095))
    let ship := onHost (onSheet (portsUp marked) (fun x => { x with status := setFld 0 29 3 2, ctl := 0, pages := [0] }))
      (fun h => { h with region := [(0, region)] })
    (∀ n ∈ [0, 1, 2], ((st n).sheet 0).stateCode = n) ∧ up.sheetPages 0 = none ∧ marked.sheetPages 0 = some [0] ∧
    (marked.sheet 0).atCount = 0 ∧ ((passed.sheet 0).atCount ≠ 0 ∧ (passed.sheet 0).atCount.toNat ≤ (passed.stepOf 0).updateCount.toNat ∧
      passed.sheetPages 0 = some [0]) ∧
    (ship.unhindered ∧ ship.host.hspUp = true ∧ (ship.sheet 0).stateCode = 2 ∧ bit (ship.sheet 0).status 28 = false ∧ fld (ship.sheet 0).ctl 0 8 = 0 ∧
      ship.hsp.toHost = [] ∧ (∀ q : PartId, q ≠ 0 → (ship.sheet q).stateCode ≠ 2) ∧
      ship.regionOpen 0 (fld (ship.sheet 0).host 40 24) true (ship.sheetBus (ship.sheet 0) 0) 4096 = true ∧
      (ship.sheet 0).piece + 1 < 512 * (ship.sheet 0).pages.length) := by decide +kernel

theorem witness_SheetsAndHostPort_transfers :
    let h : HspXfer := ⟨0, 0, 0, 0, 0, 32, 0, 0, false, 0⟩
    let m : DmInstr := { dmGet256 with qd := qd 0 3 31 0 }
    let region : Word64 × Word64 := (0, BitVec.ofNat 64 (2 ^ 63 + 3 * 2 ^ 61 + 4095))
    let base := onHost (portsUp (up.setXfer 0 0 (some (dmRun m)))) (fun x => { x with region := [(0, region)] })
    let s := { base with hsp := { base.hsp with toPkg := [h] } }
    let rd := { base with hsp := { base.hsp with reads := [⟨0, 0, 0, 32, 0⟩] } }
    (s.host.hspUp = true ∧ s.hsp.toHost = [] ∧ s.hsp.toPkg = [h] ∧ s.hsp.reads = [] ∧ s.xfer 0 0 = some (dmRun m) ∧
      (m.sides s 0 0).1 = .host 0 ∧ h.piece = 32 ∧ s.hspOpen false h m h.piece = true ∧ s.unhindered) ∧
    (rd.hsp.reads = [⟨0, 0, 0, 32, 0⟩] ∧ rd.xfer 0 0 = some (dmRun m) ∧ (m.sides rd 0 0).2 = .store 0 0 ∧
      m.part rd 0 0 32 = [(0, 32)] ∧ (List.replicate 32 (0 : Byte)).length = 32 ∧ ([] : List Byte).length ≠ 32) := by decide +kernel

theorem witness_SheetsAndHostPort_registers :
    let en := onHost up (fun h => { h with region := [(0, 0, 2 ^ 63)], doorbell := [(0, 0x80000005)] })
    let rec0 : ErrRec := (up.errRec 0 (sysStatus 5) .event)
    let q := { up with faults := { up.faults with queues := vset up.faults.queues 2 [rec0] } }
    let boot := { portsUp up with start := { up.start with status := 3, coreOn := true } }
    bit (up.region 0).2 63 = false ∧ bit (en.region 0).2 63 = true ∧ bit (en.doorbellCfg 0) 31 = true ∧ bit (up.doorbellCfg 0) 31 = false ∧
    en.partOf (bfld (en.doorbellCfg 0) 8 6).toFin = some (bfld (en.doorbellCfg 0) 14 2).toFin ∧ up.host.hcpUp = false ∧
    up.faults.oldest = none ∧ q.faults.oldest = some (2, rec0) ∧ vget q.faults.overflow 2 = 0 ∧
    boot.fd0Booted = true ∧ State.reset.fd0Booted = false := by decide +kernel

/-- A request of a command with a payload, taken by the running management core. -/
def asked (cmd : Nat) (b : List Byte) : State :=
  let s := onHost up (fun h => { h with
    hcpUp := true, mboxCtl := 2, request := leBytes 2 cmd ++ leBytes 2 0 ++ leBytes 4 b.length ++ leBytes 8 0 ++ b })
  { s with mgmt := { s.mgmt with running := true } }

theorem witness_MailboxCommands :
    let idle := portsUp up
    let go := onHost (asked 1 []) (fun h => { h with mboxCtl := 1 })
    let answered := onHost (asked 1 []) (fun h => { h with answer := some [] })
    let ports := { asked 7 [0, 0, 0, 0] with ports := (asked 7 [0, 0, 0, 0]).ports.map (fun (x : Port) => ({ x with status := 0x80000000 } : Port)) }
    (idle.host.hcpUp = true ∧ idle.host.busy = false ∧ idle.host.done = false) ∧ ((asked 1 []).host.busy = true) ∧
    (go.host.go = true ∧ go.mgmt.running = true) ∧ up.host.go = false ∧ answered.host.answer = some [] ∧
    (asked 9 []).host.cmd = 9 ∧ ((asked 8 [3]).host.cmd = 8 ∧ 2 < (asked 8 [3]).tokenOp.toNat) ∧
    (∀ k ∈ [1, 2, 3, 4, 5, 6, 7, 8], (asked k (List.replicate 60 0)).mboxPending k = true ∧
      (asked k (List.replicate 60 0)).host.payload = some (List.replicate 60 0)) ∧
    (asked 1 []).mboxPending 2 = false ∧
    (let b := leBytes 4 0x1000 ++ [7, 7]
     (asked 4 b).host.payload = some b ∧ field b 0 4 = 0x1000 ∧ Sparse.wf (0 : Byte) (asked 4 b).tray.stored.fru = true) ∧
    Sparse.wf (0 : Byte) (vget (asked 5 []).mgmt.banks (asked 5 []).mgmt.inactive).image = true ∧
    ((asked 7 [0, 0, 0, 0]).allClosed && (asked 7 [0, 0, 0, 0]).allPortsDown) = true ∧ (ports.allClosed && ports.allPortsDown) = false ∧
    bit ((leBytes 4 1).getD 0 0) 0 = true ∧ (asked 8 [0]).mboxPending 8 = true ∧ (asked 8 [2]).host.payload = some [2] := by decide +kernel

/-- The lengths are counted by lemmas: the list is long. -/
theorem witness_MailboxCommands_token :
    let w := leBytes 2 1 ++ leBytes 2 1 ++ leBytes 4 60 ++ leBytes 8 idSerial.toNat ++ List.replicate 248 0
    let b := (1 : Byte) :: w
    let s := asked 8 (1 :: List.replicate 264 0)
    s.mboxPending 8 = true ∧ s.host.payload = some (1 :: List.replicate 264 0) ∧ 0x109 ≤ (1 :: List.replicate 264 (0 : Byte)).length ∧
    field (List.replicate 264 (0 : Byte)) 0 2 ≠ 1 ∧ b.length = 0x109 := by
  refine ⟨by decide +kernel, by decide +kernel, by rw [List.length_cons, List.length_replicate], by decide +kernel, ?_⟩
  rw [List.length_cons, List.length_append, List.length_append, List.length_append, List.length_append, List.length_replicate]
  decide

theorem witness_TrayAndAttestation :
    let aux := { up with start := { up.start with aux := true } }
    let store := { aux with tray := { aux.tray with smStore := some (0x1000, [1, 2]) } }
    let run := { up with mgmt := { up.mgmt with running := true } }
    (State.reset.start.aux = true ∨ ({ up with start := { up.start with aux := false } } : State).start.aux = false) ∧
    aux.start.aux = true ∧ store.tray.smStore = some (0x1000, [1, 2]) ∧ aux.tray.smStore = none ∧ Sparse.wf (0 : Byte) aux.tray.fru = true ∧
    aux.tray.smAddr.toNat + 256 ≤ 0x2000 ∧ (store.mgmt.running = true ∧ run.mgmt.running = true) ∧
    ((bfld (0x1FFF : BitVec 16) 0 13 : BitVec 13).toNat + ([1] : List Byte).length ≤ 0x2000 ∧ (bfld (0x0FFF : BitVec 16) 0 13 : BitVec 13).toNat < 0x1000) ∧ run.mgmt.running = true ∧ run.start.coreOn = true ∧ run.faults.chipPhase = none ∧
    Sparse.wf (0 : BitVec 16) run.tray.words = true ∧ ({ up with mgmt := { up.mgmt with running := false } } : State).mgmt.running = false := by decide +kernel

/-- A transaction for another target, and a write whose PEC is wrong. -/
theorem witness_TrayAndAttestation_smbus : (0 : BitVec 7) ≠ smbusTarget ∧ (∀ x : Byte, x + 1 ≠ x) := by
  refine ⟨fun h => ?_, by decide⟩
  have := congrArg (·.getLsbD 6) h
  rw [smbusTarget, BitVec.getLsbD_append] at this
  revert this
  decide

/-- Each request of the exchange, at a responder that is ready and has agreed a version and algorithms, or not. -/
theorem witness_TrayAndAttestation_spdm :
    let ready := { portsUp up with
      mgmt := { up.mgmt with running := true }, start := { up.start with coreOn := true, status := setFld up.start.status 0 3 5 } }
    let agreed := { ready with mgmt := { ready.mgmt with spdmVer := 0x12, spdmAlg := true } }
    let q := fun (code p1 p2 : Byte) => [0x12, code, p1, p2] ++ List.replicate 60 (0xFF : Byte)
    (ready.mgmt.running = true ∧ ready.host.hcpUp = true ∧ ready.hostVisible = true ∧ ready.mgmt.spdmWait = none) ∧
    (let down := { ready with mgmt := { ready.mgmt with running := false } }
     down.hostVisible = true ∧ down.host.hcpUp = true ∧ down.mgmt.spdmWait = none ∧ down.mgmt.running = false) ∧ up.host.hcpUp = false ∧ ready.mgmt.spdmVer = 0 ∧ agreed.mgmt.spdmVer = 0x12 ∧ agreed.mgmt.spdmAlg = true ∧
    (∀ c ∈ [(0x84 : Nat), 0xE1, 0xE3, 0x81, 0x82, 0x83, 0xE0], 4 ≤ (q (BitVec.ofNat 8 c) 0 0xFF).length ∧
      ((q (BitVec.ofNat 8 c) 0 0xFF).getD 1 0).toNat = c ∧ ((q (BitVec.ofNat 8 c) 0 0xFF).getD 0 0).toNat = agreed.mgmt.spdmVer) ∧
    (field (q 0xE3 0 0) 8 4 / 128 % 2 = 1 ∧ field (q 0xE3 0 0) 12 4 / 2 % 2 = 1) ∧ (q 0x82 0 0).getD 2 0 = 0 ∧
    bit ((q 0xE0 1 0xFF).getD 2 0) 0 = true ∧ bit ((q 0xE0 0 0xFF).getD 2 0) 0 = false := by decide +kernel

/-! ### Resets, supplies, power and self-test -/

def resetting (l : ResetLevel) (d : Bool) (s : State) : State :=
  { s with faults := { s.faults with resets := [⟨l, 0, 0, 1, 0, 1, 0, d, 0⟩] } }

theorem witness_ResetLadder :
    let ph := fun (k : Fin 8) => { up with faults := { up.faults with chipPhase := some k } }
    let wait := run0.modSlot at0 (fun x => { x with wait := .latch 5 1 4 })
    let lim := { wait with faults := { wait.faults with faultCfg := 2 ^ 48 } }
    let auto := { up with mgmt := { up.mgmt with running := true }, faults := { up.faults with faultCfg := 0 } }
    let off := { auto with faults := { auto.faults with faultCfg := 1 } }
    let stopped := auto.modSlot at0 (fun x => { x with state := .stopped })
    up.faults.resets = [] ∧ (0xF : BitVec 4).toNat > 3 ∧ (lim.slot at0).wait = .latch 5 1 4 ∧ fld lim.faults.faultCfg 48 16 ≠ 0 ∧
    auto.autoReset = true ∧ (stopped.slot at0).state = .stopped ∧ (inPhase auto 4).phase 0 = .aborted ∧ off.autoReset = false ∧
    (∀ l ∈ [ResetLevel.context, .engine, .partition, .chip, .powerCycle], (resetting l false up).faults.resets.map (·.level) = [l] ∧
      (resetting l false up).faults.resets.map (·.done) = [false] ∧ (resetting l true up).faults.resets.map (·.done) = [true]) ∧
    (∀ k : Fin 8, (ph k).faults.chipPhase = some k) ∧ (ph 5).memReady = false ∧ (trainedAll (ph 5)).memReady = true ∧
    up.faults.chipPhase = none ∧ up.ringWhole = true ∧ (up.start.held = 0) ∧
    ({ up with start := { up.start with held := 1 } } : State).start.held ≠ 0 ∧ fld up.start.status 0 3 ≠ 6 ∧
    (let ready := resetting .powerCycle true { up with start := { up.start with status := 6 } }
     ready.faults.resets.map (·.level) = [ResetLevel.powerCycle] ∧ fld ready.start.status 0 3 = 6) ∧
    (∀ p k, (vget (up.twin p).buffers k).state ≠ 1) ∧ (∀ p, up.phase p = .fix → (up.stepOf p).commit = false) := by decide +kernel

theorem witness_ResetLadder_watchdog :
    let hung := up.modStack 3 (fun x => { x with requests := [reqOf false], bursts := 4 })
    let s := { hung with time := 10000000, faults := { hung.faults with progress := [((Watched.stack 3).key, 5)], sampled := [] } }
    s.faults.chipPhase = none ∧ s.faults.resets = [] ∧ (s.watch (.stack 3)).1 = true ∧ Sparse.wf 0 s.faults.progress = true ∧
    Sparse.wf 0 s.faults.sampled = true ∧ (s.watch (.stack 3)).2 + 1 = Sparse.get 0 s.faults.progress (Watched.stack 3).key ∧
    Sparse.get 0 s.faults.sampled (Watched.stack 3).key + s.faults.wdogNs ≤ s.time.toNat ∧
    (∀ c : CellId, (∀ e : Fin 6, (s.watch (.cell c e)).1 = false) ∧ (s.watch (.latches c)).1 = false) ∧ (∀ n : StackId, n ≠ 3 → (s.watch (.stack n)).1 = false) ∧
    (∀ j, (s.watch (.join j)).1 = false) ∧ (∀ f, (s.watch (.router f)).1 = false ∧ (s.watch (.coll f)).1 = false) ∧
    (∀ p, (s.watch (.twin p)).1 = false ∧ (s.watch (.sheet p)).1 = false) ∧ (s.watch .hsp).1 = false ∧
    (s.watch .hcp).1 = false ∧ (s.watch .mgmt).1 = false ∧ (s.watch .meter).1 = false := by decide +kernel

theorem witness_SuppliesAndStart :
    let aux := { State.reset with start := { State.reset.start with aux := true } }
    let none_ := { State.reset with start := { State.reset.start with aux := false } }
    let ph := fun (n : Nat) => { aux with start := { aux.start with status := setFld aux.start.status 0 3 n } }
    let fence := (ph 5).modStack 0 (fun x => { x with therm := setBit x.therm 31 true })
    aux.start.aux = true ∧ none_.start.aux = false ∧ aux.faults.resets = [] ∧ aux.faults.chipPhase = none ∧
    (∀ n ∈ [1, 2, 3, 4, 5, 6], fld (ph n).start.status 0 3 = n) ∧ (ph 5).memReady = false ∧ (trainedAll (ph 5)).memReady = true ∧
    (fence.stack 0).fenced = true ∧ ((ph 5).stack 0).fenced = false ∧ Sparse.wf (0 : Byte) aux.mem.dram.bytes = true ∧
    fld (ph 2).start.status 0 3 ≠ 5 ∧ aux.start.held = 0 ∧
    ({ aux with start := { aux.start with held := 1 } } : State).start.held ≠ 0 ∧
    (∀ n ∈ [2, 3, 4, 5], ({ ph n with mgmt := { (ph n).mgmt with running := false } } : State).mgmt.running = false ∧ (ph n).mgmt.running = true) ∧
    (∀ k, ((ph 5).port k).training = false) ∧
    (((ph 5).modPort 0 (fun x => { x with ctl := 0x80000000, status := setFld x.status 20 4 2 })).port 0).training = true := by
  decide +kernel

/-- Each die's report and logic test is good or is not: the model leaves which free. -/
theorem witness_SuppliesAndStart_dies (n : Nat) :
    ((∀ d, dieGood d n = true) ∨ ∃ d, dieGood d n = false) ∧
    ((∀ d : DieId, Config.logicGood d.val n = true) ∨ ∃ d : DieId, Config.logicGood d.val n = false) := by
  constructor <;>
  · rw [Classical.or_iff_not_imp_right]
    intro h d
    by_contra hd
    exact h ⟨d, by simpa using hd⟩

theorem witness_PowerAndAgeing :
    let die := fun (f : PwrDie → PwrDie) => { up with power := { up.power with dies := vmod up.power.dies 0 f } }
    let aim := die (fun x => { x with target := some 3 })
    let warm := die (fun x => { x with status := setFld x.status 28 4 5 })
    let hot := { warm with power := { warm.power with
      meter := warm.power.meter.map (fun (m : MeterDie) => ({ m with sensors := vset m.sensors 3 2000 } : MeterDie)) } }
    let droop := die (fun x => { x with droopStretch := 2 })
    let cap := die (fun x => { x with capStretch := 1 })
    (aim.pwrDie 0).target = some 3 ∧ (up.pwrDie 0).target = none ∧ hot.power.tjLimit ≤ hot.junction 0 ∧
    0 < (droop.pwrDie 0).droopStretch ∧ (up.pwrDie 0).droopStretch = 0 ∧ (cap.pwrDie 0).throttled = true ∧ (let calm := { up with power := { up.power with dies := up.power.dies.map (fun (x : PwrDie) => ({ x with status := setFld x.status 28 4 14 } : PwrDie)) } }
      ∀ d, (calm.pwrDie d).throttled = false) ∧ 0 < (hot.pwrDie 0).point ∧ up.ringWhole = true ∧
    ((up.start.hours - (vget up.power.ages 0).planned).toNat < 24 ∧
      24 ≤ ((24 : BitVec 32) - 0).toNat) ∧ 11400 ≤ (12000 : BitVec 16).toNat ∧
    max (fld (up.pwrDie 0).cfg 16 8) 10 < 255 ∧ up.phase (bfld up.power.ctl 29 2).toFin = .closed ∧
    (inPhase up 1).phase (bfld up.power.ctl 29 2).toFin ≠ .closed ∧ up.allClosed = true ∧ (inPhase up 1).allClosed = false ∧
    up.faults.chipPhase = none ∧ 4 ≤ (4 : DieId).val := by decide +kernel

theorem witness_SelfTestAndAccess :
    let base := portUp 0 { up with
      start := { up.start with status := setFld up.start.status 0 3 6, aux := true },
      power := { up.power with ctl := 0xFF },
      test := { up.test with ctl := 0x8F000000 } }
    let lane : TestItem := .lane 0 2
    let other : TestItem := .lane 0 9
    let rot := { base with test := { base.test with rotation := [(lane, 8)] } }
    let done := { rot with test := { rot.test with tested := [(lane, testNs 0, true)] } }
    let can := fun (s : State) (x : TestItem) => testExists x = true ∧ s.testing = true ∧ s.test.tests (testClass x) = true ∧ s.testPaused x = false
    can base lane ∧ can base other ∧ base.inService lane = true ∧ base.inService other = false ∧ base.freeSpare lane = some 8 ∧
    base.testsInPlace other = true ∧ vget base.test.running (testDie lane) = none ∧
    (let w := { rot with time := BitVec.ofNat 64 (16000 * (testDie lane).val) }
     sliceWindow w.time (testDie lane) = true ∧ w.test.sliceLoad + w.test.sliceMw (testClass lane) ≤ 1000 * fld w.power.ctl 0 8 ∧
       w.test.rotated lane = true ∧ vget w.test.running (testDie lane) = none) ∧
    rot.test.rotation = [(lane, 8)] ∧ rot.test.complete lane = false ∧ done.test.complete lane = true ∧ up.testing = false := by
  decide +kernel

/-- A slice of a lane that counts whole, one of a connection in yield mode, and one that became void. -/
theorem witness_SelfTestAndAccess_slices :
    let base := portUp 0 { up with
      start := { up.start with status := setFld up.start.status 0 3 6 }, test := { up.test with ctl := 0x8F000000, limit := 0x1805 } }
    let run := fun (x : TestItem) (v full : Bool) => { base with test := { base.test with
      running := vset base.test.running (testDie x) (some ⟨x, v, full, 0, 7⟩) } }
    (∀ x ∈ [TestItem.lane 0 2, .conn 0 0 5], ∀ v ∈ [true, false],
      vget (run x v false).test.running (testDie x) = some ⟨x, v, false, 0, 7⟩ ∧ (run x v false).testing = true ∧
      (run x v false).test.tests (testClass x) = true ∧ (run x v false).testPaused x = false) ∧
    testClass (.lane 0 2) = 0 ∧ testClass (.conn 0 0 5) ≠ 0 ∧ base.test.testedNs (.conn 0 0 5) + 32 * 7 < testNs 2 ∧
    fld base.test.limit 8 8 ≤ 24 ∧ fld base.test.limit 0 8 ≤ 5 ∧ ¬ fld base.test.limit 8 8 ≤ 23 ∧
    base.test.tests 3 = true ∧ base.testing = true ∧ ({ up with test := { up.test with ctl := 0 } } : State).test.tests 3 = false ∧ bit base.test.pinFault 31 = false ∧
    vget base.test.pinOut 0 = none := by decide +kernel

/-- A land group's share out by over a quarter (0 of a fused share above 0) at 761 W, and not out at 760 W; the share of
a group is never zero. -/
theorem witness_SelfTestAndAccess_pins (gnd : Bool) (i : Fin 16) :
    (760 < 761 ∧ landShare gnd i < 4 * max (0 - landShare gnd i) (landShare gnd i - 0)) ∧
    ¬ (760 < 760 ∧ landShare gnd i < 4 * max (0 - landShare gnd i) (landShare gnd i - 0)) ∧
    ¬ (760 < 761 ∧ landShare gnd i < 4 * max (landShare gnd i - landShare gnd i) (landShare gnd i - landShare gnd i)) ∧
    (0 : Word64).toNat + 10000000000 ≤ (10000000000 : Word64).toNat ∧ ((9999999999 : Word64).toNat < (0 : Word64).toNat + 10000000000) := by
  have h : 0 < landShare gnd i := by unfold landShare; omega
  refine ⟨⟨by omega, by omega⟩, by omega, by omega, by decide, by decide⟩

theorem witness_SelfTestAndAccess_access :
    let aux := { up with start := { up.start with aux := true } }
    let unl := { aux with test := { aux.test with stDebug := 0x10007 } }
    up.test.unlocked 0 = false ∧ unl.test.unlocked 0 = true ∧ unl.test.unlocked 2 = true ∧ aux.test.unlocked 2 = false ∧
    aux.start.aux = true ∧ ({ aux with start := { aux.start with v12 := true } } : State).start.v12 = true ∧
    ((run0.cell 0).issues 0 = true ∧ run0.fetchFault at0 = none ∧ opcodeAllocated 0 0 = false ∧ opcodeAllocated 1 1 = true) ∧
    (up.cell 0).issues 0 = false := by decide +kernel

/-! ### Step and invariants -/

theorem witness_PredicateZeroReadsTrue :
    (run0.cell 0).issues 0 = true ∧ run0.fetchFault at0 = none ∧ (⟨0, 2, 3, 0, 0, 0, 5⟩ : FmtS).pd = 0 ∧
    predTrue always (run0.slot at0).ctx.p = true ∧ predReserved ⟨false, 1⟩ = false ∧
    predTrue ⟨false, 1⟩ (run0.slot at0).ctx.p = false ∧ (⟨0, 2, 3, 0, 0, 0, 5⟩ : FmtS).rsv = 0 ∧
    (⟨0, 2, 0, 0, 5⟩ : FmtSI).pd = 0 := by
  decide +kernel

theorem witness_StepRunsFront :
    State.reset.pending = [] ∧ up.start.coreOn = true ∧ State.reset.start.coreOn = false ∧
    ({ up with start := { up.start with aux := false } } : State).start.aux = false ∧
    ({ up with start := { up.start with aux := true } } : State).start.aux = true := by decide

/-- A step of a running slot from a state in form that answers a next state. -/
theorem witness_MemoryKeepsForm :
    State.reset.memForm ∧ ∃ t, step { ready0 with pending := [.scAdd at0 always fS] } = .next t :=
  ⟨by unfold State.memForm; decide +kernel, _, rfl⟩

theorem witness_CellsKeepForm :
    State.reset.cellForm ∧ ∃ t, step { State.reset with pending := [.resetCmdChip .mgmt] } = .next t :=
  ⟨by unfold State.cellForm Cell.form Ctx.form; decide +kernel, _, rfl⟩

theorem witness_TimeNeverDecreases :
    State.reset.time.toNat + 2 ^ 28 < 2 ^ 64 ∧ State.reset.pending.head? ≠ some .auxLoss ∧ State.reset.pending.head? ≠ some .coldPowerOn ∧
    ∃ t, step State.reset = .next t := ⟨by decide, by decide, by decide, _, rfl⟩

/-! ### Well-formed commands: each check refuses an ill-formed term -/

theorem test_wf_beat : (Instr.xdBeatReceive 0 0 ⟨List.replicate 128 0, 0⟩).wf = true ∧
    (Instr.xdBeatReceive 0 0 ⟨List.replicate 127 0, 0⟩).wf = false := by decide +kernel

theorem test_wf_frame : (Instr.frameReceive 0 ⟨0, List.replicate 256 0⟩).wf = true ∧ (Instr.frameReceive 0 ⟨0, [0]⟩).wf = false ∧
    (Instr.darkslideForward 0 ⟨0, List.replicate 256 0⟩).wf = true ∧ (Instr.darkslideForward 0 ⟨0, []⟩).wf = false := by decide +kernel

theorem test_wf_sizes : (Instr.mboxGo (List.replicate 4096 0)).wf = true ∧ (Instr.mboxGo (List.replicate 4097 0)).wf = false ∧
    (Instr.bar0Access ⟨false, .bar0, true⟩ 0 4 0).wf = true ∧ (Instr.bar0Access ⟨false, .bar0, true⟩ 0 0 0).wf = false ∧
    (Instr.bar0Access ⟨false, .bar0, true⟩ 0 4097 0).wf = false := by decide +kernel

theorem test_wf_words : (Instr.dramBurstServe 0 ⟨0, [(1, 3), (2, 3)]⟩ []).wf = true ∧
    (Instr.dramBurstServe 0 ⟨0, [(1, 3), (1, 1)]⟩ []).wf = false ∧ (Instr.patrolScrub 0 0 [(1, 3), (1, 1)] []).wf = false := by decide +kernel

theorem test_wf_partner (q : PortPartner) (h : q.port = 12) : (Instr.portTrainStage 0 q).wf = false := by
  simp [Instr.wf, h]

/-- An ill-formed frame stops by name and changes nothing. -/
theorem test_ill_formed_stops : exec (.frameReceive 0 ⟨0, [0]⟩) up = .fault .illFormed := by rfl

/-! ### Worked values of the specification -/

/-- R298's example: the check field of 1.0, and the syndrome of a flip of bit 27. -/
theorem test_ecc_example : eccCode 0x3F800000 = 0x403F800000 ∧ syndrome (0x403F800000 ^^^ 0x0008000000) = 0x52 ∧
    eccDecode (0x403F800000 ^^^ 0x0008000000) = (0x3F800000, .fixedData 27) := by decide +kernel

/-- R453's check value: the CRC of the nine ASCII bytes "123456789". -/
theorem test_crc64_check : crc64 [0x31, 0x32, 0x33, 0x34, 0x35, 0x36, 0x37, 0x38, 0x39] = 0x6C40DF5F0B497347 := by decide +kernel

/-- Table 3-11, in units of 2⁻⁶⁰: 1.4 × 10⁻⁵ is 7,516 under 0x71 and 15,032 under 0x70; 4.10 × 10⁻⁵ leaves 0x70. -/
theorem test_g16_example : encG16 .rne 0x71 (.fin false 16140901064496 (-60)) = (7516, .ok) ∧
    encG16 .rne 0x70 (.fin false 16140901064496 (-60)) = (15032, .ok) ∧
    (encG16 .rne 0x70 (.fin false 47269781688880 (-60))).2 = .bleed := by decide +kernel

/-- R155: 0x3F35_04F3 is the F32 value nearest the square root of a half. -/
theorem test_sqrt_half : fsqrt 0x3F000000 = 0x3F3504F3 := by decide +kernel

/-- Table 9-3: striped address 0x2007_A5C3_6040 is direct address 0x00C0_7A5C_3040. -/
theorem test_stripe_example : unstripe (0x2007A5C36040 - stripedBase) = 0x00C07A5C3040 ∧
    Stack.reset.channelOf 0x7A5C3040 = (16, 64151872) ∧
    ({ Stack.reset with mappedOut := 0x2000 } : Stack).channelOf 0x7A5C3040 = (5, 66221376) := by decide +kernel

/-- Whether a step answers a next state with a property. -/
def nextHas (s : State) (p : State → Bool) : Bool :=
  match step s with
  | .next t => p t
  | _ => false

/-- Chapter 7: sc.ldhi s9, s9, 0x2000 after sc.movi s9, 0 gives the base of the striped view. -/
theorem test_ldhi_example :
    nextHas { run0 with pending := [.scLdhi at0 always ⟨9, 9, 0, 0, 0x2000⟩] } (fun t => t.sreg at0 9 == 0x200000000000) = true := by decide +kernel

/-- An instruction advances the PC by one word and no other slot's. -/
theorem test_pc_advances :
    nextHas { run0 with pending := [.scAdd at0 always fS] }
      (fun t => (t.slot at0).ctx.pc == 1 && (t.slot ⟨0, 1⟩).ctx.pc == 0 && t.pending.isEmpty) = true := by decide +kernel

/-- With nothing queued, global time advances by a nanosecond (R28). -/
theorem test_idle_counts : nextHas State.reset (fun t => t.time == 1) = true := by decide +kernel

/-- sc.addi s2, s3, #-1 under p1, its word laid out from Tables 6-2 and 6-4. -/
theorem test_word_addi :
    decodeWord at0 0x120110C0FFFFFFFF = some (.scAddi at0 ⟨false, 1⟩ ⟨2, 3, 0, 0, 0xFFFFFFFF⟩) ∧
    encodeWord (.scAddi at0 ⟨false, 1⟩ ⟨2, 3, 0, 0, 0xFFFFFFFF⟩) = some 0x120110C0FFFFFFFF := by decide +kernel

end Sys2Proof.Tests
end

section
/-!
SUPPORT. What one nanosecond with nothing queued changes: the stages of `idleTick`, one equation a stage, and the
counters it may advance.
-/
namespace Sys2Proof.Machine

/-! ### The step -/

theorem step_nil {s : State} (h : s.pending = []) : step s = .next (idleTick s) := by simp [step, h]

theorem step_cons (c : Instr) (rest : List Instr) (s : State) :
    step { s with pending := c :: rest } = exec c { s with pending := rest } := rfl

/-! ### Global time and its copies (R28, R383, R512) -/

/-- FD1's copy is the counter itself. -/
theorem keepCopies_copies_five (s : State) : vget s.keepCopies.copies 5 = s.time := by
  simp [State.keepCopies, vget]

/-- Another die's copy is the later of what it read and a value within 2 ns of the counter. -/
theorem keepCopies_copies_ne {s : State} {d : DieId} (hd : d ≠ 5) (ht : s.time.toNat + 2 < 2 ^ 64) :
    ∃ near, s.time.toNat ≤ near + 2 ∧ near ≤ s.time.toNat + 2 ∧
      (vget s.keepCopies.copies d).toNat = max (vget s.copies d).toNat near := by
  have hv : d.val ≠ 5 := fun e => hd (Fin.ext e)
  have hc := (vget s.copies d).isLt
  refine ⟨s.time.toNat + (Config.copyError d.val s.time.toNat % 5) - 2, by omega, by omega, ?_⟩
  simp only [vget] at hc
  simp only [State.keepCopies, vget, Vector.getElem_ofFn, hv, if_false, BitVec.toNat_ofNat]
  exact Nat.mod_eq_of_lt (by omega)

/-- The hours of operation count, the omitted tick is spent, and the copies follow the counter. -/
theorem advanceTime_eq (s : State) : s.advanceTime = ({ s with
    time := if s.route.omitTick then s.time else s.time + 1
    start := { s.start with onNs := if s.start.coreOn then s.start.onNs + 1 else s.start.onNs }
    route := { s.route with omitTick := false } } : State).keepCopies := by
  have hr (h : s.route.omitTick = false) : { s.route with omitTick := false } = s.route := by rw [← h]
  unfold State.advanceTime State.stepTime
  cases ho : s.route.omitTick with
  | true => split <;> rfl
  | false => rw [hr ho]; split <;> rfl

theorem advanceTime_time (s : State) :
    s.advanceTime.time = if s.route.omitTick then s.time else s.time + 1 := by
  rw [advanceTime_eq]; rfl

theorem advanceTime_copies (s : State) :
    s.advanceTime.copies = ({ s with time := s.advanceTime.time } : State).keepCopies.copies := by
  rw [advanceTime_time, advanceTime_eq]; rfl

theorem advanceTime_toNat_le (s : State) :
    s.advanceTime.time.toNat ≤ s.time.toNat + 1 := by
  rw [advanceTime_time]
  split
  · omega
  · rw [BitVec.toNat_add]; exact Nat.mod_le _ _

/-- No copy goes back, and each is within 2 ns of the counter or waits for it. -/
theorem advanceTime_copies_bounds {s : State} {d : DieId} (hd : d ≠ 5) (h : s.time.toNat + 8 < 2 ^ 64) :
    (vget s.copies d).toNat ≤ (vget s.advanceTime.copies d).toNat ∧
      s.advanceTime.time.toNat ≤ (vget s.advanceTime.copies d).toNat + 2 ∧
      (vget s.advanceTime.copies d).toNat ≤ max (vget s.copies d).toNat (s.advanceTime.time.toNat + 2) := by
  have hle := advanceTime_toNat_le s
  obtain ⟨near, hlo, hhi, hmax⟩ :=
    keepCopies_copies_ne (s := { s with time := s.advanceTime.time }) hd (by simp only; omega)
  rw [advanceTime_copies, hmax]
  simp only at hlo hhi ⊢
  omega

theorem advanceTime_coreOn (s : State) : s.advanceTime.start.coreOn = s.start.coreOn := by rw [advanceTime_eq]; rfl
theorem advanceTime_cell (s : State) (c : CellId) : s.advanceTime.cell c = s.cell c := by rw [advanceTime_eq]; rfl
theorem advanceTime_twin (s : State) (p : PartId) : s.advanceTime.twin p = s.twin p := by rw [advanceTime_eq]; rfl
theorem advanceTime_pwrDie (s : State) (d : Fin 4) : s.advanceTime.pwrDie d = s.pwrDie d := by rw [advanceTime_eq]; rfl
theorem advanceTime_cells (s : State) : s.advanceTime.cells = s.cells := by rw [advanceTime_eq]; rfl
theorem advanceTime_twins (s : State) : s.advanceTime.twins = s.twins := by rw [advanceTime_eq]; rfl
theorem advanceTime_power (s : State) : s.advanceTime.power = s.power := by rw [advanceTime_eq]; rfl
theorem advanceTime_test (s : State) : s.advanceTime.test = s.test := by rw [advanceTime_eq]; rfl
theorem advanceTime_host (s : State) : s.advanceTime.host = s.host := by rw [advanceTime_eq]; rfl
theorem advanceTime_writesHeld (s : State) (p : PartId) : s.advanceTime.writesHeld p = s.writesHeld p := by
  rw [advanceTime_eq]; rfl

/-! ### The counters of a nanosecond -/

/-- Counting time leaves all but the cells, the twin engines and the power state. -/
theorem countTime_eq (s : State) : s.countTime = { s with
    cells := s.countTime.cells, twins := s.countTime.twins, power := s.countTime.power } := by
  unfold State.countTime
  split <;> rfl

theorem countTime_test (s : State) : s.countTime.test = s.test := by rw [countTime_eq]
theorem countTime_host (s : State) : s.countTime.host = s.host := by rw [countTime_eq]

/-- Of the power state only the compute dies count. -/
theorem countTime_power (s : State) : s.countTime.power = { s.power with dies := s.countTime.power.dies } := by
  unfold State.countTime
  split <;> rfl

/-- Without the core rails nothing counts. -/
theorem countTime_off {s : State} (h : s.start.coreOn = false) : s.countTime = s := by simp [State.countTime, h]

theorem countTime_cell_on {s : State} (h : s.start.coreOn = true) (c : CellId) :
    s.countTime.cell c = { s.cell c with regs := s.countCycles c } := by
  simp [State.countTime, State.cell, vget, h]

theorem countTime_twin_on {s : State} (h : s.start.coreOn = true) (p : PartId) :
    s.countTime.twin p = if s.writesHeld p then { s.twin p with holdNs := (s.twin p).holdNs + 1 } else s.twin p := by
  simp [State.countTime, State.twin, vget, h]

theorem countTime_pwrDie (s : State) (d : Fin 4) : s.countTime.pwrDie d =
    { s.pwrDie d with mclkAt := (s.countTime.pwrDie d).mclkAt, cclkAt := (s.countTime.pwrDie d).cclkAt } := by
  cases h : s.start.coreOn
  · rw [countTime_off h]
  · simp [State.countTime, State.pwrDie, vget, h]

/-- Of a cell only the four cycle counters count. -/
theorem countTime_cell (s : State) (c : CellId) : s.countTime.cell c = { s.cell c with regs := { (s.cell c).regs with
    plateHold := (s.countTime.cell c).regs.plateHold, plateIdle := (s.countTime.cell c).regs.plateIdle
    coreStall := (s.countTime.cell c).regs.coreStall, latchSpin := (s.countTime.cell c).regs.latchSpin } } := by
  cases h : s.start.coreOn
  · rw [countTime_off h]
  · rw [countTime_cell_on h]; rfl

/-- Stalled cycles count only under a reason to stall. -/
theorem countTime_coreStall {s : State} {c : CellId} (h : (s.cell c).regs.stall = 0) :
    (s.countTime.cell c).regs.coreStall = (s.cell c).regs.coreStall := by
  cases hc : s.start.coreOn
  · rw [countTime_off hc]
  · rw [countTime_cell_on hc]; simp [State.countCycles, h]

/-- Spinning cycles count only in a running context. -/
theorem countTime_latchSpin {s : State} {c : CellId} (h : (s.cell c).running = none) :
    (s.countTime.cell c).regs.latchSpin = (s.cell c).regs.latchSpin := by
  cases hc : s.start.coreOn
  · rw [countTime_off hc]
  · rw [countTime_cell_on hc]; simp [State.countCycles, Cell.spins, h]

theorem tsbRelease_test (s : State) : s.tsbRelease.test = s.test := rfl
theorem tsbRelease_host (s : State) : s.tsbRelease.host = s.host := rfl

/-- The end of a test interval leaves all but the self-test state. -/
theorem countYields_eq (s : State) : s.countYields = { s with test := s.countYields.test } := by
  simp only [State.countYields]
  split <;> rfl

theorem countYields_host (s : State) : s.countYields.host = s.host := by rw [countYields_eq]

/-- Of the self-test state only the running slices count. -/
theorem countYields_test (s : State) : s.countYields.test = { s.test with running := s.countYields.test.running } := by
  simp only [State.countYields]
  split <;> rfl

/-- Of a running slice only the test intervals it used count. -/
theorem countYields_running (s : State) (d : DieId) :
    (vget s.countYields.test.running d).map (fun z => { z with used := 0 }) =
      (vget s.test.running d).map (fun z => { z with used := 0 }) := by
  simp only [State.countYields]
  split
  · rfl
  · cases hr : vget s.test.running d with
    | none => simp_all [State.modTest, vget]
    | some z =>
      simp only [vget] at hr
      simp only [State.modTest, vget, Vector.getElem_map, hr, Option.map_some]
      split <;> rfl

/-! ### Vector 0 (R529) -/

theorem raiseVector_eq (s : State) (v : Fin 16) : s.raiseVector v = { s with host := (s.raiseVector v).host } := by
  unfold State.raiseVector
  split
  · rfl
  · split <;> rfl

/-- The message falls due, or is raised and its time noted. -/
theorem vector0_cases (s : State) :
    s.vector0 = { s with host := { s.host with vec0Due := true } } ∨
    s.vector0 = ({ s with host := { s.host with vec0Due := false, vec0At := some s.time } } : State).raiseVector 0 := by
  simp only [State.vector0]
  split
  · exact Or.inr rfl
  · split
    · exact Or.inl rfl
    · exact Or.inr rfl

/-- A message of vector 0, sent or due, changes the Host Control Port only. -/
theorem vector0_eq (s : State) : s.vector0 = { s with host := s.vector0.host } := by
  obtain h | h := vector0_cases s <;> rw [h]
  exact raiseVector_eq _ _

/-! ### One nanosecond -/

theorem idleTick_off {s : State} (h : s.start.aux = false) : idleTick s = s := by simp [idleTick, h]

/-- A due message changes the Host Control Port only. -/
theorem idleTick_host {s : State} (h : s.start.aux = true) :
    idleTick s = { s.advanceTime.countTime.tsbRelease.countYields with host := (idleTick s).host } := by
  simp only [idleTick, h, Bool.true_eq_false, if_false]
  split
  · exact vector0_eq _
  · rfl

/-- One nanosecond is its stages: time advances, the counters count, TSB_D is released, a test interval may end, and a
due message of vector 0 goes out. -/
theorem idleTick_eq {s : State} (h : s.start.aux = true) : idleTick s = { s with
    time := s.advanceTime.time, copies := s.advanceTime.copies
    start := s.advanceTime.start, route := s.advanceTime.route
    cells := s.advanceTime.countTime.cells, twins := s.advanceTime.countTime.twins
    power := s.advanceTime.countTime.power, tray := { s.tray with data := none }
    test := s.advanceTime.countTime.tsbRelease.countYields.test, host := (idleTick s).host } := by
  let test := s.advanceTime.countTime.tsbRelease.countYields.test
  let host := (idleTick s).host
  let c := s.advanceTime.countTime
  calc idleTick s
    _ = { s.advanceTime.countTime.tsbRelease.countYields with host } := idleTick_host h
    _ = { s.advanceTime.countTime.tsbRelease with test, host } :=
      congrArg (fun z : State => { z with host }) (countYields_eq _)
    _ = { s.advanceTime with
          cells := c.cells, twins := c.twins, power := c.power
          tray := { s.advanceTime.tray with data := none }, test, host } :=
      congrArg (fun z : State => { z with tray := { z.tray with data := none }, test, host }) (countTime_eq _)
    _ = _ :=
      congrArg (fun z : State => { z with
        time := s.advanceTime.time, copies := s.advanceTime.copies
        start := s.advanceTime.start, route := s.advanceTime.route
        cells := c.cells, twins := c.twins, power := c.power
        tray := { z.tray with data := none }, test, host }) (advanceTime_eq _)

theorem idleTick_time {s : State} (h : s.start.aux = true) :
    (idleTick s).time = if s.route.omitTick then s.time else s.time + 1 := by
  rw [idleTick_eq h]; exact advanceTime_time s

theorem idleTick_onNs {s : State} (h : s.start.aux = true) :
    (idleTick s).start.onNs = if s.start.coreOn then s.start.onNs + 1 else s.start.onNs := by
  rw [idleTick_eq h, advanceTime_eq]; rfl

theorem idleTick_copies {s : State} (h : s.start.aux = true) : (idleTick s).copies = s.advanceTime.copies := by
  rw [idleTick_eq h]

theorem idleTick_cells {s : State} (h : s.start.aux = true) : (idleTick s).cells = s.advanceTime.countTime.cells := by
  rw [idleTick_eq h]

theorem idleTick_cell {s : State} (h : s.start.aux = true) (c : CellId) :
    (idleTick s).cell c = s.advanceTime.countTime.cell c := by rw [State.cell, idleTick_cells h]; rfl

theorem idleTick_twins {s : State} (h : s.start.aux = true) : (idleTick s).twins = s.advanceTime.countTime.twins := by
  rw [idleTick_eq h]

theorem idleTick_power {s : State} (h : s.start.aux = true) : (idleTick s).power = s.advanceTime.countTime.power := by
  rw [idleTick_eq h]

theorem idleTick_test {s : State} (h : s.start.aux = true) :
    (idleTick s).test = s.advanceTime.countTime.tsbRelease.countYields.test := by rw [idleTick_eq h]

/-- Nothing changes but the counters of elapsed time, TSB_D and the Host Control Port. -/
theorem idleTick_frame {s : State} (h : s.start.aux = true) : idleTick s = { s with
    time := (idleTick s).time, copies := (idleTick s).copies
    start := { s.start with onNs := (idleTick s).start.onNs }, route := { s.route with omitTick := false }
    cells := (idleTick s).cells, twins := (idleTick s).twins, host := (idleTick s).host
    tray := { s.tray with data := none }, test := { s.test with running := (idleTick s).test.running }
    power := { s.power with dies := (idleTick s).power.dies } } := by
  have hstart : s.advanceTime.start = { s.start with onNs := (idleTick s).start.onNs } := by
    rw [idleTick_onNs h, advanceTime_eq]; rfl
  have hroute : s.advanceTime.route = { s.route with omitTick := false } := by rw [advanceTime_eq]; rfl
  have hpower : (idleTick s).power = { s.power with dies := (idleTick s).power.dies } := by
    rw [idleTick_power h, countTime_power, advanceTime_power]
  have htest : (idleTick s).test = { s.test with running := (idleTick s).test.running } := by
    rw [idleTick_test h, countYields_test, tsbRelease_test, countTime_test, advanceTime_test]
  rw [← hstart, ← hroute, ← hpower, ← htest, idleTick_time h, ← advanceTime_time, idleTick_copies h, idleTick_cells h,
    idleTick_twins h, idleTick_power h, idleTick_test h]
  exact idleTick_eq h

/-- Of a cell only its four cycle counters count, and only where it holds, idles, stalls or spins. -/
theorem idleTick_cell_counts {s : State} (h : s.start.aux = true) (c : CellId) :
    (idleTick s).cell c = { s.cell c with regs := { (s.cell c).regs with
      plateHold := ((idleTick s).cell c).regs.plateHold, plateIdle := ((idleTick s).cell c).regs.plateIdle
      coreStall := ((idleTick s).cell c).regs.coreStall, latchSpin := ((idleTick s).cell c).regs.latchSpin } } := by
  rw [idleTick_cell h]
  conv_lhs => rw [countTime_cell, advanceTime_cell]

theorem idleTick_coreStall {s : State} (h : s.start.aux = true) {c : CellId} (hc : (s.cell c).regs.stall = 0) :
    ((idleTick s).cell c).regs.coreStall = (s.cell c).regs.coreStall := by
  rw [idleTick_cell h, countTime_coreStall (by rwa [advanceTime_cell]), advanceTime_cell]

theorem idleTick_latchSpin {s : State} (h : s.start.aux = true) {c : CellId} (hc : (s.cell c).running = none) :
    ((idleTick s).cell c).regs.latchSpin = (s.cell c).regs.latchSpin := by
  rw [idleTick_cell h, countTime_latchSpin (by rwa [advanceTime_cell]), advanceTime_cell]

/-- HOLD_NS counts for the partitions whose writes are held. -/
theorem idleTick_twin {s : State} (h : s.start.aux = true) (hc : s.start.coreOn = true) (p : PartId) :
    (idleTick s).twin p =
      if s.writesHeld p then { s.twin p with holdNs := (s.twin p).holdNs + 1 } else s.twin p := by
  have ht : (idleTick s).twin p = s.advanceTime.countTime.twin p := by rw [State.twin, idleTick_twins h]; rfl
  rw [ht, countTime_twin_on (by rwa [advanceTime_coreOn]), advanceTime_writesHeld, advanceTime_twin]

/-- Without the core rails no cell, twin engine or clock counts. -/
theorem idleTick_core_off {s : State} (h : s.start.aux = true) (hc : s.start.coreOn = false) :
    (idleTick s).cells = s.cells ∧ (idleTick s).twins = s.twins ∧ (idleTick s).power = s.power := by
  have hoff : s.advanceTime.countTime = s.advanceTime := countTime_off (by rwa [advanceTime_coreOn])
  rw [idleTick_cells h, idleTick_twins h, idleTick_power h, hoff]
  exact ⟨advanceTime_cells s, advanceTime_twins s, advanceTime_power s⟩

theorem idleTick_pwrDie {s : State} (h : s.start.aux = true) (d : Fin 4) : (idleTick s).pwrDie d =
    { s.pwrDie d with mclkAt := ((idleTick s).pwrDie d).mclkAt, cclkAt := ((idleTick s).pwrDie d).cclkAt } := by
  have hd : (idleTick s).pwrDie d = s.advanceTime.countTime.pwrDie d := by rw [State.pwrDie, idleTick_power h]; rfl
  rw [hd]
  conv_lhs => rw [countTime_pwrDie, advanceTime_pwrDie]

theorem idleTick_running {s : State} (h : s.start.aux = true) (d : DieId) :
    (vget (idleTick s).test.running d).map (fun z => { z with used := 0 }) =
      (vget s.test.running d).map (fun z => { z with used := 0 }) := by
  rw [idleTick_test h, countYields_running, tsbRelease_test, countTime_test, advanceTime_test]

theorem idleTick_copies_five {s : State} (h : s.start.aux = true) : vget (idleTick s).copies 5 = (idleTick s).time := by
  rw [idleTick_copies h, advanceTime_copies, keepCopies_copies_five, idleTick_time h, ← advanceTime_time]

/-- With no message of vector 0 due the Host Control Port is left alone. -/
theorem idleTick_host_quiet {s : State} (h : s.start.aux = true) (hv : s.host.vec0Due = false) :
    (idleTick s).host = s.host := by
  have hs : s.advanceTime.countTime.tsbRelease.countYields.host = s.host := by
    rw [countYields_host, tsbRelease_host, countTime_host, advanceTime_host]
  simp [idleTick, h, hs, hv]

end Sys2Proof.Machine
end

section
/-!
One step of the package.
-/
namespace Sys2Proof.Machine

/-- Settles O55: the front command by definition, the empty queue by the stages of `idleTick`. -/
theorem stepRunsFront : Obligations.StepRunsFront := by
  refine ⟨step_cons, fun s hq => ⟨fun ha => ?_, fun ha => ⟨idleTick s, step_nil hq, ?_⟩⟩⟩
  · rw [step_nil hq, idleTick_off ha]
  · have htime : s.advanceTime.time = (idleTick s).time := by rw [idleTick_time ha, advanceTime_time]
    refine ⟨idleTick_time ha, by rw [idleTick_frame ha], idleTick_onNs ha, idleTick_frame ha, idleTick_pwrDie ha,
      idleTick_running ha, idleTick_copies_five ha, fun d hd ht => ?_, idleTick_core_off ha,
      fun c => ⟨idleTick_cell_counts ha c, idleTick_coreStall ha, idleTick_latchSpin ha⟩, idleTick_twin ha,
      idleTick_host_quiet ha⟩
    rw [idleTick_copies ha, ← htime]
    exact advanceTime_copies_bounds hd ht

end Sys2Proof.Machine
end

section
/-!
SUPPORT. Folds over cells and steps: what an update that a fold repeats leaves unchanged, the cells of a partition, and
fields of words written as a field.
-/
namespace Sys2Proof.Machine

/-! ### Folds and arrays -/

/-- What every step of a fold leaves, the fold leaves. -/
theorem foldl_keeps {σ α β : Type} (k : σ → β) {f : σ → α → σ} (h : ∀ t a, k (f t a) = k t) :
    ∀ (l : List α) (s : σ), k (l.foldl f s) = k s
  | [], _ => rfl
  | a :: l, s => (foldl_keeps k h l (f s a)).trans (h s a)

/-- The same where a step leaves it only for the members of the list, and only while it has been left. -/
theorem foldl_keeps_mem {σ α β : Type} (k : σ → β) {f : σ → α → σ} {s : σ} (l : List α)
    (h : ∀ t, k t = k s → ∀ a ∈ l, k (f t a) = k t) : k (l.foldl f s) = k s :=
  List.foldlRecOn l f (motive := fun t => k t = k s) rfl (fun t ht a ha => (h t ht a ha).trans ht)

/-- A view of an array that a change of one entry does not show. -/
theorem map_vmod {α β : Type} {n : Nat} (k : α → β) (v : Vector α n) (i : Fin n) {f : α → α}
    (h : k (f (vget v i)) = k (vget v i)) : (vmod v i f).map k = v.map k := by
  apply Vector.ext
  intro j hj
  simp only [Vector.getElem_map, vmod, vset, Vector.getElem_set]
  split
  · next e => subst e; exact h
  · rfl

theorem vget_map {α β : Type} {n : Nat} (k : α → β) (v : Vector α n) (i : Fin n) : vget (v.map k) i = k (vget v i) := by
  simp [vget]

/-! ### Fields -/

/-- A bit of the field just written. -/
theorem bit_setFld_in {n : Nat} (w : BitVec n) (lo len v i : Nat) (hn : i < n) (h : lo ≤ i ∧ i < lo + len) :
    bit (setFld w lo len v) i = v.testBit (i - lo) := by
  rw [bit, getLsbD_setFld _ _ _ _ _ hn, if_pos h]

/-- A word written to a field of its width reads back. -/
theorem bfld_setFld_self {n len : Nat} (w : BitVec n) (lo : Nat) (v : BitVec len) (h : lo + len ≤ n) :
    bfld (setFld w lo len v.toNat) lo len = v := by
  apply BitVec.eq_of_toNat_eq
  rw [bfld_toNat, fld_setFld_self _ _ _ _ h, Nat.mod_eq_of_lt v.isLt]

/-! ### Cells -/

/-- A change of a cell leaves of every cell what it leaves of that one. -/
theorem modCell_cell_keeps {β : Type} (k : Cell → β) {f : Cell → Cell} (h : ∀ x, k (f x) = k x) (s : State) (c d : CellId) :
    k ((s.modCell c f).cell d) = k (s.cell d) := by
  by_cases e : c = d
  · subst e; rw [modCell_cell_self, h]
  · rw [modCell_cell_ne _ _ _ _ e]

/-- A change of a slot leaves of every cell what does not depend on its slots. -/
theorem modSlot_cell_keeps {β : Type} (k : Cell → β) {f : Slot → Slot} {a : At} (h : ∀ x : Cell, k (x.modSlot a.slot f) = k x)
    (s : State) (d : CellId) : k ((s.modSlot a f).cell d) = k (s.cell d) := modCell_cell_keeps k h s a.cell d

@[simp] theorem modSlot_slot (s : State) (a : At) (f : Slot → Slot) : (s.modSlot a f).slot a = f (s.slot a) := by
  simp [State.modSlot, State.slot]

@[simp] theorem retire_slot (s : State) (a : At) : (s.retire a).slot a = (s.slot a).retire := modSlot_slot s a _

/-- One change of many cells, each once. -/
theorem foldl_modCell_cell (f : Cell → Cell) (d : CellId) : ∀ (l : List CellId) (s : State), l.Nodup →
    (l.foldl (fun t c => t.modCell c f) s).cell d = if d ∈ l then f (s.cell d) else s.cell d
  | [], _, _ => rfl
  | c :: l, s, h => by
    obtain ⟨hc, hl⟩ := List.nodup_cons.mp h
    rw [List.foldl_cons, foldl_modCell_cell f d l _ hl]
    by_cases e : d = c
    · subst e; simp [hc]
    · rw [modCell_cell_ne _ _ _ _ (Ne.symm e)]; simp [e]

/-- Changes of cells change the cells only. -/
theorem foldl_modCell_eq (f : Cell → Cell) : ∀ (l : List CellId) (s : State),
    l.foldl (fun t c => t.modCell c f) s = { s with cells := (l.foldl (fun t c => t.modCell c f) s).cells }
  | [], _ => rfl
  | c :: l, s => foldl_modCell_eq f l (s.modCell c f)

/-! ### The cells of a partition -/

theorem mem_cellsOf {s : State} {p : PartId} {c : CellId} : c ∈ s.cellsOf p ↔ bit (s.part p).cells c.val = true := by
  simp [State.cellsOf, allFin]

theorem cellsOf_nodup (s : State) (p : PartId) : (s.cellsOf p).Nodup := (List.nodup_finRange 64).filter _

/-- The cells of a partition are those its mask names. -/
theorem cellsOf_congr {s t : State} {p : PartId} (h : (t.part p).cells = (s.part p).cells) : t.cellsOf p = s.cellsOf p := by
  simp only [State.cellsOf, h]

/-- A cell is a cell of the partition that holds it. -/
theorem mem_cellsOf_of_partOf {s : State} {c : CellId} {p : PartId} (h : s.partOf c = some p) : c ∈ s.cellsOf p :=
  mem_cellsOf.mpr (by simpa using List.find?_some h)

/-- A step signal is on its way to every cell of the partition. -/
theorem signalAll_cell (s : State) (p : PartId) (l : BitVec 6) (c : CellId) : (s.signalAll p l).cell c =
    if c ∈ s.cellsOf p then { s.cell c with signals := (s.cell c).signals ++ [⟨l, 1, true, none⟩] } else s.cell c :=
  foldl_modCell_cell _ c _ s (cellsOf_nodup s p)

/-- Signals change the cells only. -/
theorem signalAll_eq (s : State) (p : PartId) (l : BitVec 6) :
    s.signalAll p l = { s with cells := (s.signalAll p l).cells } := foldl_modCell_eq _ _ s

/-! ### Steps -/

/-- A change of one step, by the array of steps. -/
theorem stepOf_of_steps {s t : State} {p : PartId} {f : Step → Step} (h : t.steps = vmod s.steps p f) :
    t.stepOf p = f (s.stepOf p) ∧ ∀ q, q ≠ p → t.stepOf q = s.stepOf q := by
  simp only [State.stepOf, h]
  exact ⟨vget_vmod_self .., fun q hq => vget_vmod_ne _ _ _ _ (Ne.symm hq)⟩

/-! ### Register writes from outside (R25, R587) -/

/-- A write of the host or the management path, the core reachable, has its effect. -/
theorem regWrite_outside {s : State} {b : Requester} (hb : isCtx b = false) (h : s.regsUp = true) (die : DieId) (open_ : Bool)
    (f : State → State) : s.regWrite b die open_ f = .next (f s) := by
  simp only [State.regsUp, Bool.and_eq_true] at h
  obtain ⟨hup, hring⟩ := h
  have go : (s.coreUp && s.ringReaches b die) = true := by rw [hup, ringReaches_whole hring]; rfl
  cases b with
  | ctx c i => simp [isCtx] at hb
  | host => exact if_pos go
  | mgmt => exact if_pos go

end Sys2Proof.Machine
end

section
/-!
Writes of the STEP counters.
-/
namespace Sys2Proof.Machine

theorem closed_iff {s : State} {p : PartId} : s.closed p = true ↔ s.phase p = .closed := by simp [State.closed]

/-- In CLOSED the register named takes the value. -/
theorem stepRegOp_closed {s : State} {p : PartId} (h : s.phase p = .closed) (r : Fin 5) (v : Word64) :
    s.stepRegOp p r v = s.modStep p (fun t =>
      if r = 0 then { t with index := v } else if r = 1 then { t with updateCount := v }
      else if r = 2 then { t with skipCount := v } else if r = 3 then { t with inputPos := v }
      else { t with jobSeed := v }) := by
  rw [State.stepRegOp, if_pos (closed_iff.mpr h)]
  fin_cases r <;> rfl

/-- In any other phase the write is refused with its record. -/
theorem stepRegOp_refused {s : State} {p : PartId} (h : s.phase p ≠ .closed) (r : Fin 5) (v : Word64) :
    s.stepRegOp p r v = s.report { (s.errRec 4 (sysStatus 0x05) .event).withPart s p with engine := 0x0F } :=
  if_neg (mt closed_iff.mp h)

/-- Settles O28: a write from outside reaches the STEP block, which takes it in CLOSED only. -/
theorem stepCountersWrite : Obligations.StepCountersWrite := by
  intro s b p r v hb hup
  have hexec : exec (.stepRegWrite b p r v) s = .next (s.stepRegOp p r v) := by
    rw [exec_stepRegWrite, execStepRegWrite, regWrite_outside hb hup]
  exact ⟨fun h => by rw [hexec, stepRegOp_closed h], fun h => by rw [hexec, stepRegOp_refused h]⟩

end Sys2Proof.Machine
end

section
/-!
SUPPORT. What the traffic of a twin engine leaves: cells, steps, partitions and DRAM, while no verdict can arrive.
-/
namespace Sys2Proof.Machine

/-- What the traffic of the twin engines does not touch. -/
def State.sansTwin (s : State) : Vector Cell 64 × Vector Step 4 × Vector Part 4 × MemCtl :=
  (s.cells, s.steps, s.parts, s.mem)

theorem sansTwin_eq_iff {s t : State} :
    t.sansTwin = s.sansTwin ↔ t.cells = s.cells ∧ t.steps = s.steps ∧ t.parts = s.parts ∧ t.mem = s.mem := by
  simp [State.sansTwin]

theorem modTwin_sansTwin (s : State) (p : PartId) (f : Twin → Twin) : (s.modTwin p f).sansTwin = s.sansTwin := rfl
theorem withRoute_sansTwin (s : State) (r : Routing) : ({ s with route := r } : State).sansTwin = s.sansTwin := rfl
theorem twinEvent_sansTwin (s : State) (p : PartId) (code : Byte) (n : Nat) : (s.twinEvent p code n).sansTwin = s.sansTwin :=
  rfl

/-- A verdict that is held arrives in STOP only. -/
theorem verdictRelease_eq_self {s : State} {p : PartId} (h : s.phase p ≠ .stop) : s.verdictRelease p = s := by
  unfold State.verdictRelease
  split
  · rfl
  · rw [if_pos (Or.inr h)]

theorem twinLost_sansTwin {s : State} {p : PartId} (h : s.phase p ≠ .stop) : (s.twinLost p).sansTwin = s.sansTwin := by
  unfold State.twinLost
  split
  · rfl
  · rw [verdictRelease_eq_self (by exact h)]; rfl

theorem twinAbsent_sansTwin {s : State} {p : PartId} (h : s.phase p ≠ .stop) : (s.twinAbsent p).sansTwin = s.sansTwin := by
  let s1 := if (s.twin p).restore = .none then s else s.restoreEnd p 3 0
  have h1 : s1.sansTwin = s.sansTwin := by dsimp only [s1]; split <;> rfl
  have hp : s1.phase p ≠ .stop := by
    rw [State.phase, State.stepOf, (sansTwin_eq_iff.mp h1).2.1]; exact h
  show (if (s1.twin p).helloWait then s1.mispaired p 1 else s1.twinLost p).sansTwin = s.sansTwin
  split
  · exact h1
  · rw [twinLost_sansTwin hp, h1]

theorem twinPut_sansTwin {s : State} {p : PartId} (h : s.phase p ≠ .stop) (f : FabId) (a : Nat) (bs : List Byte)
    (bad : List Nat) (mark : Nat) : (s.twinPut p f a bs bad mark).sansTwin = s.sansTwin := by
  dsimp only [State.twinPut]
  split
  · exact twinAbsent_sansTwin h
  · rfl

/-- Sealing the record of a step. -/
theorem sealSend_sansTwin {s : State} {p : PartId} (h : s.phase p ≠ .stop) : (s.sealSend p).sansTwin = s.sansTwin := by
  unfold State.sealSend State.twinMsg
  split
  · exact twinPut_sansTwin (by exact h) ..
  · rfl

/-- Starting the stream of a negative. -/
theorem streamOpen_sansTwin (s : State) (p : PartId) : (s.streamOpen p).sansTwin = s.sansTwin := by
  dsimp only [State.streamOpen]
  split <;> rfl

/-- Marking pages as streamed or not. -/
theorem setStreamed_sansTwin (s : State) (page : Nat) (b : Bool) : (s.setStreamed page b).sansTwin = s.sansTwin :=
  foldl_keeps State.sansTwin (by intros; rfl) _ s

/-- Ending the stream of a negative. -/
theorem streamReset_sansTwin (s : State) (p : PartId) : (s.streamReset p).sansTwin = s.sansTwin := by
  dsimp only [State.streamReset]
  rw [modTwin_sansTwin, foldl_keeps _ (fun t pg => setStreamed_sansTwin t pg false)]
  split <;> rfl

end Sys2Proof.Machine
end

section
/-!
st.open (Table 2-2, R38, R56, R93, R245): what opening a step leaves in the step, in the cells of its partition and
elsewhere.
-/
namespace Sys2Proof.Machine

/-- The step of a partition that has just opened (Table 2-2). -/
def Step.opened (t : Step) : Step :=
  { t.setPhase .expose with
    verdict := 0
    status := setFld (setFld (setFld t.status 0 3 1) 3 2 0) 8 7 0
    stage := .idle, stopWord := none, delivered := none, fade := false, poisonFound := false }

/-- A cell whose step has just opened, FADE pending or not (R56, R93). -/
def Cell.opened (fade : Bool) (x : Cell) : Cell :=
  { (x.modSlot 0 (fun z => { z with grain := { z.grain with seeded := false }, openDone := false })).setLatch 62 ⟨0, none⟩ with
    frozen := false, stopBits := if fade then setBit (0 : BitVec 16) 4 true else 0 }

/-- The state with the step, the collectives and the cells of a partition opened, before its twin engine and its step
signals. -/
def State.opening (s : State) (p : PartId) : State :=
  let s3 := ((s.modStep p Step.opened).modPart p (fun x => { x with collSide := 0, verdictSeen := false })).mapColld
    (fun x => if x.desc.part = p then { x with side := none } else x)
  (s3.cellsOf p).foldl (fun t c => t.modCell c (Cell.opened (s.stepOf p).fade)) s3

/-- Opening a step opens step and cells, then the twin engine's stream, and signals latch 60. -/
theorem stepOpen_stages (s : State) (p : PartId) :
    ∃ u : State, s.stepOpen p = u.signalAll p 60 ∧ u.sansTwin = (s.opening p).sansTwin := by
  refine ⟨_, rfl, ?_⟩
  rw [streamOpen_sansTwin, withRoute_sansTwin, apply_ite State.sansTwin, twinEvent_sansTwin, modTwin_sansTwin, ite_self,
    modTwin_sansTwin]
  rfl

theorem opening_cellsOf (s : State) (p : PartId) :
    ((s.modStep p Step.opened).modPart p (fun x => { x with collSide := 0, verdictSeen := false })).cellsOf p =
      s.cellsOf p := cellsOf_congr (by rw [modPart_part_self]; rfl)

theorem opening_cell (s : State) (p : PartId) (c : CellId) :
    (s.opening p).cell c = if c ∈ s.cellsOf p then (s.cell c).opened (s.stepOf p).fade else s.cell c := by
  rw [← opening_cellsOf]
  exact foldl_modCell_cell _ c _ _ (cellsOf_nodup _ p)

/-- Opening changes cells, steps, partitions and collectives only. -/
theorem opening_frame (s : State) (p : PartId) : (s.opening p).steps = vmod s.steps p Step.opened ∧
    (s.opening p).mem = s.mem ∧ ((s.opening p).part p).cells = (s.part p).cells := by
  rw [State.opening, foldl_modCell_eq]
  exact ⟨rfl, rfl, by simp [State.part, State.modPart, State.mapColld, State.modStep]⟩

theorem stepOpen_cell (s : State) (p : PartId) (c : CellId) : (s.stepOpen p).cell c =
    if c ∈ s.cellsOf p then
      { (s.cell c).opened (s.stepOf p).fade with signals := (s.cell c).signals ++ [⟨60, 1, true, none⟩] }
    else s.cell c := by
  obtain ⟨u, hu, hk⟩ := stepOpen_stages s p
  obtain ⟨hcells, -, hparts, -⟩ := sansTwin_eq_iff.mp hk
  have hc : u.cell c = (s.opening p).cell c := by simp only [State.cell, hcells]
  have hof : u.cellsOf p = s.cellsOf p := cellsOf_congr (by simp only [State.part, hparts]; exact (opening_frame s p).2.2)
  rw [hu, signalAll_cell, hof, hc, opening_cell]
  split <;> rfl

theorem stepOpen_steps (s : State) (p : PartId) : (s.stepOpen p).steps = vmod s.steps p Step.opened := by
  obtain ⟨u, hu, hk⟩ := stepOpen_stages s p
  rw [hu, signalAll_eq]
  exact (sansTwin_eq_iff.mp hk).2.1.trans (opening_frame s p).1

theorem stepOpen_mem (s : State) (p : PartId) : (s.stepOpen p).mem = s.mem := by
  obtain ⟨u, hu, hk⟩ := stepOpen_stages s p
  rw [hu, signalAll_eq]
  exact (sansTwin_eq_iff.mp hk).2.2.2.trans (opening_frame s p).2.1

/-- An opened step is in EXPOSE, with no verdict (R56). -/
theorem opened_status (t : Step) :
    t.opened.phase = .expose ∧ fld t.opened.status 0 3 = 1 ∧ t.opened.valid = false ∧ t.opened.commit = false := by
  have h1 : fld t.opened.status 0 3 = 1 := by
    rw [Step.opened, fld_setFld_ne _ _ _ _ _ _ (by decide), fld_setFld_ne _ _ _ _ _ _ (by decide),
      fld_setFld_self _ _ _ _ (by decide)]
    rfl
  have h2 : ∀ i, 3 ≤ i ∧ i < 3 + 2 → bit t.opened.status i = false := fun i hi => by
    rw [Step.opened, bit_setFld_ne _ _ _ _ _ (by omega), bit_setFld_in _ _ _ _ _ (by omega) hi, Nat.zero_testBit]
  exact ⟨by rw [Step.phase, h1]; rfl, h1, h2 3 (by decide), h2 4 (by decide)⟩

/-- A fault of an st instruction that leaves the step as it is. -/
theorem stPhaseFault_none (s : State) (a : At) (op : Byte) :
    s.stPhaseFault a op none = .next (s.faulted a 7 op 0x0A 0) := rfl

/-- st.open from Read on. -/
theorem stOpen_takes {s : State} {a : At} {p : Pred} {f : FmtY} {q : PartId} (h : s.takes (.stOpen a p f))
    (hq : s.partOf a.cell = some q) : exec (.stOpen a p f) s =
      if a.slot ≠ 0 then s.stPhaseFault a 0x01 none
      else if (s.stepOf q).armed = false then s.stPhaseFault a 0x01 (some q)
      else if s.leadOf q = some a.cell then
        if s.closed q then
          .next ((((s.countIssue a).stepOpen q).modSlot a (fun x => { x with openDone := true })).retire a)
        else s.hold a 0x7
      else .next (((s.countIssue a).stall a 0x7).modSlot a (fun x => { x with wait := .stOpen })) := by
  rw [exec_stOpen, execStOpen, issue_takes (takes_word h rfl)]
  simp only [hq]

/-- Counting an issue changes the registers of a cell only. -/
theorem countIssue_cell_keeps {β : Type} (k : Cell → β) (h : ∀ (x : Cell) (f : CellRegs → CellRegs), k (x.modRegs f) = k x)
    (s : State) (a : At) (d : CellId) : k ((s.countIssue a).cell d) = k (s.cell d) :=
  modCell_cell_keeps k (fun x => h x _) s a.cell d

/-- What opening a cell leaves of it, opening a step leaves of every cell. -/
theorem stepOpen_cell_keeps {β : Type} (k : Cell → β)
    (h : ∀ (x : Cell) (b : Bool) (l : List Signal), k { x.opened b with signals := l } = k x) (s : State) (p : PartId)
    (d : CellId) : k ((s.stepOpen p).cell d) = k (s.cell d) := by
  rw [stepOpen_cell]
  split
  · exact h ..
  · rfl

/-- The state after the lead cell's st.open in CLOSED. -/
def State.openedBy (s : State) (a : At) (q : PartId) : State :=
  (((s.countIssue a).stepOpen q).modSlot a (fun x => { x with openDone := true })).retire a

/-- The slot that opened the step is not seen in a view of a cell that does not look at its slots. -/
theorem openedBy_cell_keeps {β : Type} (k : Cell → β) {a : At} (h : ∀ x : Cell, ∀ f : Slot → Slot, k (x.modSlot a.slot f) = k x)
    (s : State) (q : PartId) (d : CellId) :
    k ((s.openedBy a q).cell d) = k (((s.countIssue a).stepOpen q).cell d) :=
  (modSlot_cell_keeps k (fun x => h x _) _ d).trans (modSlot_cell_keeps k (fun x => h x _) _ d)

/-- What st.open leaves of a cell of its partition. -/
theorem openedBy_cell {s : State} {a : At} {q : PartId} (ha : a.slot = 0) {c : CellId} (hc : c ∈ s.cellsOf q) :
    let x := (s.openedBy a q).cell c
    x.frozen = false ∧ (x.latch 62).count = 0 ∧ x.stopBits = (if (s.stepOf q).fade then 0x10 else 0) ∧
      (x.slot 0).grain.seeded = false ∧ ⟨60, 1, true, none⟩ ∈ x.signals := by
  have hopen := stepOpen_cell (s.countIssue a) q c
  rw [if_pos (show c ∈ (s.countIssue a).cellsOf q from hc)] at hopen
  have hseed : (((s.openedBy a q).cell c).slot 0).grain.seeded =
      ((((s.countIssue a).stepOpen q).cell c).slot 0).grain.seeded := by
    refine (modSlot_cell_keeps (fun x => (x.slot 0).grain.seeded) (fun x => ?_) _ c).trans
      (modSlot_cell_keeps (fun x => (x.slot 0).grain.seeded) (fun x => ?_) _ c)
    · rw [ha, modSlot_slot_self]; rfl
    · rw [ha, modSlot_slot_self]
  refine ⟨?_, ?_, ?_, ?_, ?_⟩
  · rw [openedBy_cell_keeps Cell.frozen (fun _ _ => rfl), hopen]; rfl
  · rw [openedBy_cell_keeps (fun x => (x.latch 62).count) (fun _ _ => rfl), hopen]
    exact congrArg Latch.count (setLatch_latch_self ..)
  · rw [openedBy_cell_keeps Cell.stopBits (fun _ _ => rfl), hopen]; rfl
  · rw [hseed, hopen]
    exact congrArg (fun z : Slot => z.grain.seeded) (modSlot_slot_self ..)
  · rw [openedBy_cell_keeps Cell.signals (fun _ _ => rfl), hopen]; simp

/-- What st.open leaves of the slot that executes it. -/
theorem openedBy_slot {s : State} {a : At} {q : PartId} (ha : a.slot = 0) :
    ((s.openedBy a q).slot a).ctx.pc = (s.slot a).ctx.pc + 1 ∧ ((s.openedBy a q).slot a).openDone = true := by
  have hctx : (((s.countIssue a).stepOpen q).slot a).ctx = (s.slot a).ctx :=
    (stepOpen_cell_keeps (fun x => (x.slot a.slot).ctx) (fun x b l => by
      show ((x.modSlot 0 _).slot a.slot).ctx = _
      rw [ha, modSlot_slot_self]) _ q a.cell).trans
      (countIssue_cell_keeps (fun x => (x.slot a.slot).ctx) (fun _ _ => rfl) s a a.cell)
  rw [State.openedBy, retire_slot, modSlot_slot]
  exact ⟨congrArg (fun z : Ctx => z.pc + 1) hctx, rfl⟩

theorem openedBy_steps (s : State) (a : At) (q : PartId) : (s.openedBy a q).steps = vmod s.steps q Step.opened :=
  stepOpen_steps (s.countIssue a) q

theorem openedBy_mem (s : State) (a : At) (q : PartId) : (s.openedBy a q).mem = s.mem :=
  stepOpen_mem (s.countIssue a) q

/-- Opening a step leaves what the engines hold of every cell. -/
theorem openedBy_store (s : State) (a : At) (q : PartId) (c : CellId) :
    ((s.openedBy a q).cell c).store = (s.cell c).store ∧ ((s.openedBy a q).cell c).vat = (s.cell c).vat := by
  have keeps : ∀ k : Cell → ProtMem, (∀ x f, k (x.modSlot a.slot f) = k x) →
      (∀ x b l, k { x.opened b with signals := l } = k x) → (∀ x f, k (x.modRegs f) = k x) →
      k ((s.openedBy a q).cell c) = k (s.cell c) := fun k h1 h2 h3 =>
    ((openedBy_cell_keeps k h1 s q c).trans (stepOpen_cell_keeps k h2 _ q c)).trans (countIssue_cell_keeps k h3 s a c)
  exact ⟨keeps Cell.store (fun _ _ => rfl) (fun _ _ _ => rfl) (fun _ _ => rfl),
    keeps Cell.vat (fun _ _ => rfl) (fun _ _ _ => rfl) (fun _ _ => rfl)⟩

/-- st.open of the lead cell in CLOSED opens the step. -/
theorem stOpen_opens {s : State} {a : At} {p : Pred} {f : FmtY} {q : PartId} (h : s.takes (.stOpen a p f))
    (hq : s.partOf a.cell = some q) (ha : a.slot = 0) (harm : (s.stepOf q).armed = true) (hlead : s.leadOf q = some a.cell)
    (hclosed : s.closed q = true) : exec (.stOpen a p f) s = .next (s.openedBy a q) := by
  rw [stOpen_takes h hq, if_neg (by simp [ha]), if_neg (by simp [harm]), if_pos hlead, if_pos hclosed]
  rfl

/-- A held st.open goes on once latch 60 has a count, and takes one. -/
theorem stOpenRelease_goes {s : State} {c : CellId} (hw : (s.slot ⟨c, 0⟩).wait = .stOpen)
    (hl : 1 ≤ ((s.cell c).latch 60).count.toNat) : exec (.stOpenRelease c) s = .next
      ((((s.stall ⟨c, 0⟩ 0).modCell c (fun x => x.setLatch 60 { (s.cell c).latch 60 with
        count := ((s.cell c).latch 60).count - 1 })).modSlot ⟨c, 0⟩ (fun x => { x with openDone := true })).retire ⟨c, 0⟩) := by
  rw [exec_stOpenRelease]
  exact if_pos ⟨hw, hl⟩

/-- Otherwise nothing is released. -/
theorem stOpenRelease_waits {s : State} {c : CellId} (h : (s.slot ⟨c, 0⟩).wait ≠ .stOpen ∨ ((s.cell c).latch 60).count = 0) :
    exec (.stOpenRelease c) s = .next s := by
  rw [exec_stOpenRelease]
  refine if_neg (fun ⟨hw, hl⟩ => ?_)
  rcases h with h | h
  · exact h hw
  · rw [h] at hl; exact absurd hl (by decide)

/-- Settles O21: the cases of st.open, the opened step and cells of `openedBy`, and the release by latch 60. -/
theorem stepOpens : Obligations.StepOpens := by
  intro s a p f q hq
  refine ⟨fun h => ⟨fun ha harm hlead hclosed => ⟨_, stOpen_opens h hq ha harm hlead hclosed, ?_⟩,
    fun ha harm hlead hclosed => ?_, fun ha harm hlead => ?_, fun ha => ?_, fun ha harm => ?_⟩,
    fun c => ⟨stOpenRelease_goes, stOpenRelease_waits⟩⟩
  · obtain ⟨hstep, hothers⟩ := stepOf_of_steps (openedBy_steps s a q)
    obtain ⟨hphase, hfld, hvalid, hcommit⟩ := opened_status (s.stepOf q)
    obtain ⟨hpc, hdone⟩ := openedBy_slot (s := s) (q := q) ha
    rw [hstep]
    refine ⟨hphase, hfld, hvalid, hcommit, rfl, rfl, rfl, harm, hpc, hdone,
      fun c hc => openedBy_cell ha (mem_cellsOf_of_partOf hc), openedBy_store s a q, openedBy_mem s a q, hothers⟩
  · rw [stOpen_takes h hq, if_neg (by simp [ha]), if_neg (by simp [harm]), if_pos hlead, if_neg (by simp [hclosed])]
    rfl
  · rw [stOpen_takes h hq, if_neg (by simp [ha]), if_neg (by simp [harm]), if_neg hlead]
  · rw [stOpen_takes h hq, if_pos (by simp [ha]), stPhaseFault_none]
  · rw [stOpen_takes h hq, if_neg (by simp [ha]), if_pos harm]
    rfl

end Sys2Proof.Machine
end

section
/-!
st.stop and st.fix (Table 2-2, R38, R43, R44, R46, R48, R49): arrivals at the lead cell's barriers, and what the last one
does.
-/
namespace Sys2Proof.Machine

/-! ### Arrivals -/

/-- st.stop from Read on. -/
theorem stStop_takes {s : State} {a : At} {p : Pred} {f : FmtY} {q : PartId} {lead : CellId}
    (h : s.takes (.stStop a p f)) (hq : s.partOf a.cell = some q) (hlead : s.leadOf q = some lead) :
    exec (.stStop a p f) s =
      if a.slot ≠ 0 ∨ s.phase q ≠ .expose then s.stPhaseFault a 0x02 none
      else if (s.cell a.cell).eng.stopHeld a.slot then s.hold a 0x9
      else
        let s1 := s.modCell a.cell (·.freeze (bit f.imm 0))
        if some lead = some a.cell then .next (s1.leadArrives a q 61 .stStop)
        else .next (((s1.countIssue a).signal lead 61 1 true).retire a) := by
  rw [exec_stStop, execStStop, issue_takes (takes_word h rfl)]
  simp only [hq, hlead]

/-- st.fix from Read on. -/
theorem stFix_takes {s : State} {a : At} {p : Pred} {f : FmtY} {q : PartId} {lead : CellId}
    (h : s.takes (.stFix a p f)) (hq : s.partOf a.cell = some q) (hlead : s.leadOf q = some lead) :
    exec (.stFix a p f) s =
      if a.slot ≠ 0 ∨ s.phase q ≠ .fix then s.stPhaseFault a 0x03 none
      else if (s.cell a.cell).eng.vecBusy a.slot || (s.cell a.cell).eng.moverBusy a.slot then s.hold a 0
      else if some lead = some a.cell then .next (s.leadArrives a q 63 .stFix)
      else .next (((s.countIssue a).signal lead 63 1 true).retire a) := by
  rw [exec_stFix, execStFix, issue_takes (takes_word h rfl)]
  simp only [hq, hlead]

/-- With the step latches armed the lead cell's latch takes its arrival, and it waits. -/
theorem leadArrives_armed {s : State} {a : At} {q : PartId} (h : (s.stepOf q).armed = true) (l : BitVec 6) (w : Wait) :
    s.leadArrives a q l w = (((s.countIssue a).stall a 0x7).modCell a.cell (fun y =>
        y.setLatch l { (s.cell a.cell).latch l with
          count := BitVec.ofNat 32 (min (((s.cell a.cell).latch l).count.toNat + 1) (2 ^ 32 - 1)) })).modSlot a
      (fun y => { y with wait := w }) := if_pos h

/-- Freezing the stop bits leaves the latches. -/
theorem freeze_latch (s : State) (a : At) (b : Bool) (l : BitVec 6) :
    ((s.modCell a.cell (·.freeze b)).cell a.cell).latch l = (s.cell a.cell).latch l :=
  modCell_cell_keeps (fun x => x.latch l) (by intros; rfl) s a.cell a.cell

/-! ### Barriers -/

/-- The lead cell waits at a barrier that has every arrival. -/
theorem barrierFull_eq {s : State} {p : PartId} {c : CellId} {l : BitVec 6} {w : Wait} (hc : s.leadOf p = some c)
    (hw : ((s.cell c).slot 0).wait = w) (hl : (s.cellsOf p).length ≤ ((s.cell c).latch l).count.toNat) :
    s.barrierFull p l w = some c := by
  simp only [State.barrierFull, hc]
  exact if_pos ⟨hw, hl⟩

/-- What the lead cell holds once it has gone on. -/
theorem leadGoesOn_cell (s : State) (c : CellId) :
    (s.leadGoesOn c).cell c = { (s.cell c).modSlot 0 Slot.retire with regs := { (s.cell c).regs with stall := 0 } } :=
  modCell_cell_self ..

theorem leadGoesOn_slot (s : State) (c : CellId) : ((s.leadGoesOn c).cell c).slot 0 = ((s.cell c).slot 0).retire := by
  rw [leadGoesOn_cell]; exact modSlot_slot_self ..

theorem leadGoesOn_latch (s : State) (c : CellId) (l : BitVec 6) :
    ((s.leadGoesOn c).cell c).latch l = (s.cell c).latch l := by rw [leadGoesOn_cell]; rfl

theorem leadGoesOn_store (s : State) (c d : CellId) : ((s.leadGoesOn c).cell d).store = (s.cell d).store :=
  modCell_cell_keeps Cell.store (by intros; rfl) s c d

theorem takeArrivals_latch (s : State) (p : PartId) (c : CellId) (l : BitVec 6) :
    (((s.takeArrivals p c l).cell c).latch l).count =
      ((s.cell c).latch l).count - BitVec.ofNat 32 (s.cellsOf p).length := by
  rw [State.takeArrivals, modCell_cell_self, setLatch_latch_self]; rfl

theorem takeArrivals_slot (s : State) (p : PartId) (c : CellId) (l : BitVec 6) (d : CellId) (i : SlotId) :
    ((s.takeArrivals p c l).cell d).slot i = (s.cell d).slot i :=
  modCell_cell_keeps (fun x => x.slot i) (by intros; rfl) s c d

theorem takeArrivals_store (s : State) (p : PartId) (c : CellId) (l : BitVec 6) (d : CellId) :
    ((s.takeArrivals p c l).cell d).store = (s.cell d).store := modCell_cell_keeps Cell.store (by intros; rfl) s c d

/-! ### The last arrival at st.stop -/

/-- The step with the stop bits of its partition (R44). -/
def Step.stopped (w : BitVec 16) (t : Step) : Step :=
  { t.setPhase .stop with verdict := setFld t.verdict 16 16 w.toNat, stopWord := some w }

/-- The state after the last arrival at st.stop, a refix aside. -/
def State.stoppedAt (s : State) (p : PartId) (c : CellId) : State :=
  ((s.takeArrivals p c 61).modStep p (Step.stopped (s.partStop p))).leadGoesOn c

theorem stopBarrierComplete_full {s : State} {p : PartId} {c : CellId} (h : s.phase p = .expose)
    (hfull : s.barrierFull p 61 .stStop = some c) (hrefix : (s.stepOf p).refix = false) :
    exec (.stopBarrierComplete p) s = .next (s.stoppedAt p c) := by
  rw [exec_stopBarrierComplete, execStopBarrierComplete, if_neg (by simp [h])]
  simp only [hfull]
  rw [if_neg (by simp [hrefix])]
  rfl

theorem stopBarrierComplete_out_of_phase {s : State} {p : PartId} (h : s.phase p ≠ .expose) :
    exec (.stopBarrierComplete p) s = .next s := by
  rw [exec_stopBarrierComplete]; exact if_pos h

/-- A stopped step is in STOP and its verdict holds the stop bits (R44). -/
theorem stopped_fields (w : BitVec 16) (t : Step) : (t.stopped w).phase = .stop ∧ fld (t.stopped w).status 0 3 = 2 ∧
    (t.stopped w).stopWord = some w ∧ bfld (t.stopped w).verdict 16 16 = w := by
  have h : fld (t.stopped w).status 0 3 = 2 := fld_setFld_self _ _ _ _ (by decide)
  exact ⟨by rw [Step.phase, h]; rfl, h, rfl, bfld_setFld_self _ _ _ (by decide)⟩

theorem stoppedAt_steps (s : State) (p : PartId) (c : CellId) :
    (s.stoppedAt p c).steps = vmod s.steps p (Step.stopped (s.partStop p)) := rfl

/-! ### The last arrival at st.fix -/

/-- The last arrival at st.fix in FIX, before the boundary procedure has begun. -/
theorem fixBarrierComplete_full {s : State} {p : PartId} {c : CellId} (h : s.phase p = .fix)
    (hstage : (s.stepOf p).stage = .idle) (hfull : s.barrierFull p 63 .stFix = some c) :
    exec (.fixBarrierComplete p) s =
      if s.tagsOut p then
        .next (((s.instrEvent c ((s.slot ⟨c, 0⟩).tag 0 7 0x03 false) .core 0x0B 0 0).modCell c (fun y => y.setLatch 63
          { (s.cell c).latch 63 with count := ((s.cell c).latch 63).count - 1 })).leadGoesOn c)
      else if (s.stepOf p).commit then
        .next ((s.takeArrivals p c 63).modStep p (fun t => { t with stage := .waitNegative }))
      else
        let s2 := (s.takeArrivals p c 63).modStep p (fun t => { t with stage := .sealWait })
        .next (if (s.stepOf p).refix then s2 else s2.sealSend p) := by
  rw [exec_fixBarrierComplete, execFixBarrierComplete, if_neg (by simp [h, hstage])]
  simp only [hfull]

/-- A skip goes on to its seal, and nothing but the arrivals and the stage changes beside the twin engine. -/
theorem sealWait_sansTwin {s : State} {p : PartId} {b : Bool} (h : s.phase p = .fix) :
    let s2 := s.modStep p (fun t => { t with stage := .sealWait })
    (if b then s2 else s2.sealSend p).sansTwin = s2.sansTwin := by
  have h2 : (s.modStep p (fun t => { t with stage := .sealWait })).phase p ≠ .stop := by
    rw [State.phase, modStep_stepOf_self]
    exact fun e => by rw [show s.phase p = .stop from e] at h; cases h
  dsimp only
  split
  · rfl
  · exact sealSend_sansTwin h2

end Sys2Proof.Machine
end

section
/-!
Stopping a step and entering its boundary procedure.
-/
namespace Sys2Proof.Machine

/-- Settles O22: arrivals at the two barriers, and what the last of them does. -/
theorem stepStopsAndFixes : Obligations.StepStopsAndFixes := by
  refine ⟨fun s a p f q lead hq hlead ha => ⟨fun h => ⟨fun hp hheld => ⟨fun hne => ?_, fun he harm => ?_⟩, fun hp => ?_⟩,
    fun h => ⟨fun hp hvec hmov => ⟨fun hne => ?_, fun he harm => ?_⟩, fun hp => ?_⟩⟩,
    fun s q c hc => ⟨fun hp hw hl hrefix => ?_, stopBarrierComplete_out_of_phase, fun hp hstage hw hl =>
      ⟨fun htags hcommit => ?_, fun htags hcommit => ?_, fun htags => ?_⟩⟩⟩
  · rw [stStop_takes h hq hlead, if_neg (by simp [ha, hp]), if_neg (by simp [ha, hheld]), if_neg (by simpa using hne)]
    rfl
  · subst he
    rw [stStop_takes h hq hlead, if_neg (by simp [ha, hp]), if_neg (by simp [ha, hheld]), if_pos rfl,
      leadArrives_armed (by exact harm), freeze_latch]
    rfl
  · rw [stStop_takes h hq hlead, if_pos (Or.inr hp), stPhaseFault_none]
  · rw [stFix_takes h hq hlead, if_neg (by simp [ha, hp]), if_neg (by simp [ha, hvec, hmov]), if_neg (by simpa using hne)]
    rfl
  · subst he
    rw [stFix_takes h hq hlead, if_neg (by simp [ha, hp]), if_neg (by simp [ha, hvec, hmov]), if_pos rfl,
      leadArrives_armed harm]
  · rw [stFix_takes h hq hlead, if_pos (Or.inr hp), stPhaseFault_none]
  · refine ⟨_, stopBarrierComplete_full hp (barrierFull_eq hc hw hl) hrefix, ?_⟩
    obtain ⟨hstep, hothers⟩ := stepOf_of_steps (stoppedAt_steps s q c)
    have hslot : ((s.stoppedAt q c).cell c).slot 0 = ((s.cell c).slot 0).retire :=
      (leadGoesOn_slot ..).trans (congrArg Slot.retire (takeArrivals_slot s q c 61 c 0))
    obtain ⟨hphase, hfld, hword, hverdict⟩ := stopped_fields (s.partStop q) (s.stepOf q)
    rw [hstep, hslot]
    refine ⟨hphase, hfld, hword, hverdict, (congrArg Latch.count (leadGoesOn_latch ..)).trans (takeArrivals_latch s q c 61),
      rfl, rfl, fun d => (leadGoesOn_store ..).trans (takeArrivals_store s q c 61 d), rfl, hothers⟩
  · rw [fixBarrierComplete_full hp hstage (barrierFull_eq hc hw hl), if_neg (by simp [htags]), if_pos hcommit]
    rfl
  · refine ⟨_, (fixBarrierComplete_full hp hstage (barrierFull_eq hc hw hl)).trans ((if_neg (by simp [htags])).trans
      (if_neg (by simp [hcommit]))), ?_⟩
    obtain ⟨hcells, hsteps, -, hmem⟩ := sansTwin_eq_iff.mp
      (sealWait_sansTwin (s := s.takeArrivals q c 63) (p := q) (b := (s.stepOf q).refix) hp)
    obtain ⟨hstep, -⟩ := stepOf_of_steps (s := s) (p := q) (f := fun t => { t with stage := .sealWait }) hsteps
    exact ⟨congrArg Step.stage hstep, hcells, hmem, (congrArg Step.phase hstep).trans hp⟩
  · refine ⟨_, (fixBarrierComplete_full hp hstage (barrierFull_eq hc hw hl)).trans (if_pos htags), ?_, ?_, rfl, rfl⟩
    · rw [leadGoesOn_latch, modCell_cell_self, setLatch_latch_self]
    · rw [leadGoesOn_slot]; rfl

end Sys2Proof.Machine
end

section
/-!
SUPPORT. What a read by the step logic leaves: every cell, and of every step all but what a poisoned word may note.
-/
namespace Sys2Proof.Machine

/-- A step without what reads and applies may change of it: FADE pending, poison found and CTL. -/
def Step.settled (t : Step) : Step := { t with ctl := 0, fade := false, poisonFound := false }

/-- The cells, and the steps as far as neither reads nor applies change them. -/
def State.settled (s : State) : Vector Cell 64 × Vector Step 4 := (s.cells, s.steps.map Step.settled)

/-- A change of a step that only reads and applies make. -/
theorem modStep_settled {f : Step → Step} (h : ∀ t, (f t).settled = t.settled) (s : State) (p : PartId) :
    (s.modStep p f).settled = s.settled := congrArg (Prod.mk s.cells) (map_vmod Step.settled s.steps p (h _))

theorem settled_iff {s t : State} (h : t.settled = s.settled) :
    t.cells = s.cells ∧ ∀ p, (t.stepOf p).settled = (s.stepOf p).settled := by
  obtain ⟨hcells, hsteps⟩ := Prod.ext_iff.mp h
  refine ⟨hcells, fun p => ?_⟩
  have h := congrArg (vget · p) hsteps
  simp only [State.settled, vget_map] at h
  exact h

/-- A part of a step that reads and applies do not change. -/
theorem of_settled {β : Type} (k : Step → β) (hk : ∀ t, k t.settled = k t) {x y : Step} (h : y.settled = x.settled) :
    k y = k x := by rw [← hk y, h, hk x]

/-! ### Records and resets -/

theorem startReset_settled (s : State) (lvl : ResetLevel) (c : CellId) (i : SlotId) (e : BitVec 4) (p : PartId)
    (cause : BitVec 4) : (s.startReset lvl c i e p cause).settled = s.settled := by
  dsimp only [State.startReset]
  split <;> rfl

theorem raiseVector_settled (s : State) (v : Fin 16) : (s.raiseVector v).settled = s.settled := by
  rw [raiseVector_eq]; rfl

theorem chipFault_settled (s : State) : s.chipFault.settled = s.settled := by
  rw [State.chipFault, startReset_settled, State.alertSet]
  split
  · rfl
  · exact raiseVector_settled ..

/-- Poison found in persistent state is noted in the step, or starts a reset. -/
theorem persistPoison_settled (s : State) (p : PartId) (ad : Nat) (who : Option At) (b : Bool) :
    (s.persistPoison p ad who b).settled = s.settled := by
  dsimp only [State.persistPoison]
  split
  · rfl
  · split
    · exact startReset_settled ..
    · exact startReset_settled ..
    · exact modStep_settled (by intros; rfl) ..
    · exact modStep_settled (by intros; rfl) ..
    · rfl

/-! ### Bursts -/

theorem countCe_settled (s : State) (n : StackId) (ch : ChanId) (ad : Nat) (syn : Word32) :
    (s.countCe n ch ad syn).settled = s.settled := by
  dsimp only [State.countCe]
  split <;> rfl

theorem marginBurst_settled (s : State) (n : StackId) (ch : ChanId) : (s.marginBurst n ch).settled = s.settled := by
  unfold State.marginBurst
  split <;> rfl

theorem burstCrc_settled (s : State) (n : StackId) (ch : ChanId) (view d : Nat) (who : Option At) (wr : Bool) (k : Nat) :
    (s.burstCrc n ch view d who wr k).settled = s.settled := by
  dsimp only [State.burstCrc]
  have note : ∀ (t u : State) (b : Bool), t.settled = s.settled → u.settled = s.settled →
      (if b then t else u).settled = s.settled := fun t u b ht hu => by split <;> assumption
  split
  · rfl
  · split
    · exact note _ _ _ rfl rfl
    · split
      · exact (chipFault_settled _).trans (note _ _ _ rfl rfl)
      · exact note _ _ _ rfl rfl

theorem crossed_settled (s : State) (who : Option At) (wr : Bool) (view d : Nat) (w : Nat × List (Fin 64 × BitVec 39)) :
    (s.crossed who wr view d w).settled = s.settled := by
  have h := (burstCrc_settled (s.marginBurst (stackOf d) (s.chanOf d)) (stackOf d) (s.chanOf d) view d who wr w.1).trans
    (marginBurst_settled ..)
  dsimp only [State.crossed]
  split <;> exact h

/-- A word read is accounted for in its stack, as poison, or as poison found. -/
theorem noteWord_settled (s : State) (who : Option At) (opt pend : Bool) (view d : Nat) (m : BitVec 39) :
    (s.noteWord who opt pend view d m).settled = s.settled := by
  have bad : ∀ t : State, t.settled = s.settled → (match s.persistOwner d with
      | some p => t.persistPoison p view who opt
      | none => t).settled = s.settled := fun t ht => by
    split
    · exact (persistPoison_settled ..).trans ht
    · exact ht
  dsimp only [State.noteWord]
  split
  · split <;> rfl
  · split
    · rfl
    · exact bad _ rfl
    · exact bad _ rfl
    · split
      · rfl
      · exact countCe_settled ..

theorem noteBurst_settled (s : State) (who : Option At) (opt : Bool) (view d : Nat) :
    (s.noteBurst who opt view d).settled = s.settled := by
  dsimp only [State.noteBurst]
  split
  · exact crossed_settled ..
  · exact (foldl_keeps State.settled (by intros; exact noteWord_settled ..) _ _).trans (crossed_settled ..)

theorem dramNote_settled (s : State) (who : Option At) (opt : Bool) (a len : Nat) :
    (s.dramNote who opt a len).settled = s.settled := by
  refine foldl_keeps State.settled (fun t q => ?_) _ s
  split
  · rfl
  · split
    · rfl
    · exact noteBurst_settled ..

/-! ### The queues of the stack controllers -/

theorem bucket_settled {s t : State} {p : PartId} {d : Nat} (h : s.bucket p d = some t) : t.settled = s.settled := by
  dsimp only [State.bucket] at h
  split at h
  · cases h; rfl
  · split at h
    · cases h; rfl
    · split at h
      · cases h; rfl
      · cases h

theorem thermal_settled {s t : State} {b : Bool} {d : Nat} (h : s.thermal b d = some t) : t.settled = s.settled := by
  dsimp only [State.thermal] at h
  split at h
  · cases h; rfl
  · split at h
    · cases h; rfl
    · cases h

theorem bucketAdmit_settled (s : State) (n : StackId) (i : Nat) : (s.bucketAdmit n i).settled = s.settled := by
  unfold State.bucketAdmit
  split
  · rfl
  · split
    · rfl
    · split
      · rfl
      · next h => have hs := bucket_settled h; exact hs

theorem thermAdmit_settled (s : State) (n : StackId) (i : Nat) : (s.thermAdmit n i).settled = s.settled := by
  unfold State.thermAdmit
  split
  · rfl
  · split
    · rfl
    · split
      · rfl
      · next h => have hs := thermal_settled h; exact hs

theorem enqueue_settled (s : State) (r : MemReq) : (s.enqueue r).settled = s.settled :=
  (thermAdmit_settled ..).trans (bucketAdmit_settled ..)

/-- A read by the step logic leaves cells and steps, poison found aside. -/
theorem looks_settled (s : State) (p : PartId) (a len : Nat) : (s.looks p a len).settled = s.settled := by
  refine (foldl_keeps State.settled (fun t q => ?_) _ _).trans (dramNote_settled ..)
  split
  · rfl
  · exact enqueue_settled ..

theorem listLooks_settled (s : State) (p : PartId) (l : Word64) (n : Word32) : (s.listLooks p l n).settled = s.settled := by
  dsimp only [State.listLooks]
  split
  · rfl
  · exact looks_settled ..

end Sys2Proof.Machine
end

section
/-!
SUPPORT. What the groups, the applies and the contact sheet of a boundary leave (R48, R52, R90, R95, R430): of cells and
steps, and of DRAM where they have nothing to read.
-/
namespace Sys2Proof.Machine

/-! ### Cells and steps -/

theorem recount_settled (s : State) (g : Fin 256) : (s.recount g).settled = s.settled := looks_settled ..

theorem checkGroup_settled (s : State) (g : Fin 256) : (s.checkGroup g).settled = s.settled := by
  dsimp only [State.checkGroup]
  split
  · rfl
  · split <;> rfl

theorem flipGroup_settled (s : State) (g : Fin 256) : (s.flipGroup g).settled = s.settled := by
  dsimp only [State.flipGroup]
  split
  · rfl
  · split
    · rfl
    · exact modStep_settled (by intros; rfl) ..

/-- The apply of a partition's own values. -/
theorem applyPart_settled (s : State) (p : PartId) : (s.applyPart p).settled = s.settled := by
  refine (foldl_keeps State.settled (fun t g => ?_) _ _).trans (modStep_settled (by intros; rfl) s p)
  dsimp only
  split
  · exact (recount_settled ..).trans (checkGroup_settled ..)
  · exact checkGroup_settled ..

theorem routeApply_settled (s : State) : s.routeApply.settled = s.settled := by
  dsimp only [State.routeApply]
  split <;> rfl

theorem boundaryApply_settled (s : State) (p : PartId) : (s.boundaryApply p).settled = s.settled := by
  have route : ∀ (t : State) (b : Bool), (if b then t.routeApply else t).settled = t.settled := fun t b => by
    split
    · exact routeApply_settled t
    · rfl
  have power : ∀ (t : State) (b : Bool), (if b then t.powerApply else t).settled = t.settled := fun t b => by
    split <;> rfl
  exact (power ..).trans ((route ..).trans (applyPart_settled s p))

theorem sheetWriteTrailer_settled (s : State) (p : PartId) (k : Nat) : (s.sheetWriteTrailer p k).settled = s.settled := by
  dsimp only [State.sheetWriteTrailer]
  split <;> rfl

theorem sheetFail_settled (s : State) (p : PartId) (k : Nat) : (s.sheetFail p k).settled = s.settled := by
  show State.settled (if k = 6 then s else s.sheetWriteTrailer p k) = _
  split
  · rfl
  · exact sheetWriteTrailer_settled ..

/-- Taking a contact sheet reads its page list. -/
theorem sheetTake_settled (s : State) (p : PartId) : (s.sheetTake p).settled = s.settled := by
  dsimp only [State.sheetTake]
  split
  · split
    · exact (sheetFail_settled ..).trans (listLooks_settled ..)
    · split
      · exact listLooks_settled ..
      · exact (sheetFail_settled ..).trans (listLooks_settled ..)
  · rfl

/-! ### DRAM -/

/-- A group without its status. -/
def GradGroup.sansStatus (x : GradGroup) : GradGroup := { x with status := 0 }

/-- DRAM, the contact sheets, and the groups without their status. -/
def State.quiet (s : State) : ProtMem × Vector Sheet 4 × Vector GradGroup 256 :=
  (s.mem.dram, s.sheets, s.groups.map GradGroup.sansStatus)

theorem group_of_quiet {s t : State} (h : t.quiet = s.quiet) (g : Fin 256) :
    (t.group g).sansStatus = (s.group g).sansStatus := by
  simpa [State.quiet, State.group, vget_map] using congrArg (fun z => vget z.2.2 g) h

theorem dirty_of_quiet {s t : State} (h : t.quiet = s.quiet) (g : Fin 256) : (t.group g).dirty = (s.group g).dirty :=
  (congrArg GradGroup.dirty (group_of_quiet h g) :)

theorem groupsOf_of_quiet {s t : State} (h : t.quiet = s.quiet) (p : PartId) : t.groupsOf p = s.groupsOf p :=
  List.filter_congr (fun g _ => by
    rw [show (t.group g).part = (s.group g).part from (congrArg GradGroup.part (group_of_quiet h g) :)])

/-- A change of a group's status. -/
theorem modGroup_quiet {s : State} {g : Fin 256} {f : GradGroup → GradGroup}
    (h : (f (s.group g)).sansStatus = (s.group g).sansStatus) : (s.modGroup g f).quiet = s.quiet :=
  congrArg (fun v => (s.mem.dram, s.sheets, v)) (map_vmod GradGroup.sansStatus s.groups g h)

theorem flipGroup_quiet (s : State) (g : Fin 256) : (s.flipGroup g).quiet = s.quiet := by
  have h1 : ∀ f : GradGroup → Word64, (s.modGroup g (fun y => { y with status := f y })).quiet = s.quiet := fun f =>
    modGroup_quiet rfl
  dsimp only [State.flipGroup]
  split
  · rfl
  · split
    · exact h1 _
    · exact (modGroup_quiet (by rfl)).trans (h1 _)

theorem checkGroup_quiet (s : State) (g : Fin 256) : (s.checkGroup g).quiet = s.quiet := by
  dsimp only [State.checkGroup]
  split
  · rfl
  · split
    · exact modGroup_quiet rfl
    · exact modGroup_quiet (s := s) (g := g) (f := fun y => { y with status := setBit y.status 3 true }) rfl

/-- An apply changes no group whose pending values are its active ones. -/
theorem install_clean {x : GradGroup} (h : x.dirty = false) : x.install.sansStatus = x.sansStatus := by
  simp only [GradGroup.dirty, Bool.or_eq_false_iff, bne_eq_false_iff_eq] at h
  obtain ⟨⟨hcfg, hbase⟩, hblocks⟩ := h
  simp [GradGroup.install, GradGroup.sansStatus, hcfg, hbase, hblocks]

/-- An apply with no group to change reads nothing. -/
theorem applyPart_quiet {s : State} {p : PartId} (h : ∀ g ∈ s.groupsOf p, (s.group g).dirty = false) :
    (s.applyPart p).quiet = s.quiet := by
  refine foldl_keeps_mem State.quiet (s.groupsOf p) (fun t ht g hg => ?_)
  have hclean : (t.group g).dirty = false := (dirty_of_quiet ht g).trans (h g hg)
  dsimp only
  rw [h g hg, Bool.false_and, if_neg (by decide)]
  exact (checkGroup_quiet ..).trans (modGroup_quiet (install_clean hclean))

theorem boundaryApply_quiet {s : State} {p : PartId} (h : ∀ g ∈ s.groupsOf p, (s.group g).dirty = false) :
    (s.boundaryApply p).quiet = s.quiet := by
  have route : ∀ (t : State) (b : Bool), (if b then t.routeApply else t).quiet = t.quiet := fun t b => by
    dsimp only [State.routeApply]
    split
    · split <;> rfl
    · rfl
  have power : ∀ (t : State) (b : Bool), (if b then t.powerApply else t).quiet = t.quiet := fun t b => by
    split <;> rfl
  exact (power ..).trans ((route ..).trans (applyPart_quiet h))

/-- A sheet that is not ARMED is not taken. -/
theorem sheetTake_unarmed {s : State} {p : PartId} (h : (s.sheet p).stateCode ≠ 1) : s.sheetTake p = s :=
  if_neg (fun hs => h hs.1)

end Sys2Proof.Machine
end

section
/-!
A committed Fix and the step boundary (R48, R49, R51, R53), and the seed of a step's grain (R56, R151, R153).
-/
namespace Sys2Proof.Machine

/-! ### The boundary -/

/-- The groups of a partition at its boundary: flipped by a commit, discarded by a skip, left by a refix. -/
def State.boundaryGroups (s : State) (p : PartId) : State :=
  let t := s.stepOf p
  if t.refix then s
  else if t.commit then (s.groupsOf p).foldl State.flipGroup s
  else (s.groupsOf p).foldl State.unbuildGroup s

/-- What a boundary does before it closes the step: the groups flip or are discarded, the pending values apply, and a
contact sheet is taken. -/
def State.boundaryWork (s : State) (p : PartId) : State :=
  let s2 := (s.boundaryGroups p).boundaryApply p
  if (s.stepOf p).commit then s2.sheetTake p else s2

/-- The step once its boundary has closed it. -/
def Step.closes (t : Step) : Step :=
  { t.setPhase .closed with
    index := t.index + 1
    inputPos := t.inputPos + 1
    skipCount := if t.commit then t.skipCount else t.skipCount + 1
    stage := .idle
    refix := false
    status := setFld (setFld t.status 0 3 0) 8 7 0 }

/-- What a flip and a discard of each group leave, a boundary's groups leave. -/
theorem boundaryGroups_keep {β : Type} (k : State → β) (hflip : ∀ t g, k (State.flipGroup t g) = k t)
    (hunbuild : ∀ t g, k (State.unbuildGroup t g) = k t) (s : State) (p : PartId) : k (s.boundaryGroups p) = k s := by
  dsimp only [State.boundaryGroups]
  split
  · rfl
  · split
    · exact foldl_keeps k hflip _ s
    · exact foldl_keeps k hunbuild _ s

theorem boundaryWork_settled (s : State) (p : PartId) : (s.boundaryWork p).settled = s.settled := by
  have h := (boundaryApply_settled _ p).trans
    (boundaryGroups_keep State.settled flipGroup_settled (by intros; rfl) s p)
  dsimp only [State.boundaryWork]
  split
  · exact (sheetTake_settled ..).trans h
  · exact h

/-- With no group to be applied and no sheet to be taken a boundary reads nothing. -/
theorem boundaryWork_dram {s : State} {p : PartId} (hgroups : ∀ g ∈ s.groupsOf p, (s.group g).dirty = false)
    (hsheet : (s.stepOf p).commit = false ∨ (s.sheet p).stateCode ≠ 1) :
    (s.boundaryWork p).mem.dram = s.mem.dram := by
  have h1 := boundaryGroups_keep State.quiet flipGroup_quiet (fun t g => modGroup_quiet rfl) s p
  have h2 := (boundaryApply_quiet (p := p) (fun g hg => (dirty_of_quiet h1 g).trans
    (hgroups g (by rwa [groupsOf_of_quiet h1] at hg)))).trans h1
  have hdram := congrArg Prod.fst h2
  dsimp only [State.boundaryWork]
  split
  · next hcommit =>
    rw [sheetTake_unarmed]
    · exact hdram
    · rw [State.sheet, show ((s.boundaryGroups p).boundaryApply p).sheets = s.sheets from congrArg (fun z => z.2.1) h2]
      exact hsheet.resolve_left (by simp [hcommit])
  · exact hdram

theorem boundary_steps (s : State) (p : PartId) : (s.boundary p).steps = vmod (s.boundaryWork p).steps p Step.closes :=
  foldl_keeps State.steps (by intros; dsimp only; split <;> rfl) _ _

theorem boundary_mem (s : State) (p : PartId) : (s.boundary p).mem = (s.boundaryWork p).mem :=
  foldl_keeps State.mem (by intros; dsimp only; split <;> rfl) _ _

theorem boundary_store (s : State) (p : PartId) (c : CellId) : ((s.boundary p).cell c).store = (s.cell c).store := by
  refine (foldl_keeps (fun t : State => (t.cell c).store) (fun t d => ?_) _ _).trans
    (congrArg (fun v => (vget v c).store) (settled_iff (boundaryWork_settled s p)).1)
  dsimp only
  split
  · exact modCell_cell_keeps Cell.store (by intros; rfl) t d c
  · rfl

/-- A boundary closes its step, and leaves every other one, what reads and applies change aside. -/
theorem boundary_stepOf (s : State) (p : PartId) : ((s.boundary p).stepOf p).settled = (s.stepOf p).closes.settled ∧
    ∀ q, q ≠ p → ((s.boundary p).stepOf q).settled = (s.stepOf q).settled := by
  obtain ⟨-, hwork⟩ := settled_iff (boundaryWork_settled s p)
  obtain ⟨hself, hothers⟩ := stepOf_of_steps (boundary_steps s p)
  refine ⟨?_, fun q hq => ?_⟩
  · rw [hself]; exact congrArg Step.closes (hwork p)
  · rw [hothers q hq, hwork q]

/-- A closed step keeps VALID and COMMIT. -/
theorem closes_status (t : Step) : t.closes.phase = .closed ∧ fld t.closes.status 0 3 = 0 ∧ t.closes.valid = t.valid ∧
    t.closes.commit = t.commit := by
  have h : fld t.closes.status 0 3 = 0 := by
    rw [Step.closes, fld_setFld_ne _ _ _ _ _ _ (by decide), fld_setFld_self _ _ _ _ (by decide)]
    rfl
  have hbit : ∀ i, 3 ≤ i ∧ i < 8 → bit t.closes.status i = bit t.status i := fun i hi => by
    rw [Step.closes, bit_setFld_ne _ _ _ _ _ (by omega), bit_setFld_ne _ _ _ _ _ (by omega)]
  exact ⟨by rw [Step.phase, h]; rfl, h, hbit 3 (by decide), hbit 4 (by decide)⟩

theorem stepBoundary_goes {s : State} {p : PartId} (hp : s.phase p = .fix) (hstage : (s.stepOf p).stage = .sealWait)
    (hseal : s.twinOn p = false ∨ (s.stepOf p).refix = true ∨ (s.twin p).sealAck = true) (hb : s.buildPending p = false) :
    exec (.stepBoundary p) s = .next (s.boundary p) := by
  rw [exec_stepBoundary]; exact if_pos ⟨hp, hstage, hseal, hb⟩

theorem stepBoundary_waits {s : State} {p : PartId} (hb : s.buildPending p = true) :
    exec (.stepBoundary p) s = .next s := by
  rw [exec_stepBoundary]; exact if_neg (fun h => by simp [hb] at h)

/-! ### The update count -/

/-- The step whose commit has advanced its update count. -/
def Step.advanced (t : Step) : Step := { t with updateCount := t.updateCount + 1, stage := .sealWait }

/-- The state after the update count has advanced. -/
def State.advanced (s : State) (p : PartId) : State :=
  let s1 := (s.modStep p Step.advanced).streamReset p
  if (s.stepOf p).refix then s1 else s1.sealSend p

theorem fixCommitAdvance_goes {s : State} {p : PartId} (hp : s.phase p = .fix)
    (hstage : (s.stepOf p).stage = .waitNegative)
    (hneg : s.twinOn p = false ∨ (s.stepOf p).refix = true ∨ (s.twin p).hasNegative (s.stepOf p).updateCount = true) :
    exec (.fixCommitAdvance p) s = .next (s.advanced p) := by
  rw [exec_fixCommitAdvance]; exact if_pos ⟨hp, hstage, hneg⟩

theorem fixCommitAdvance_waits {s : State} {p : PartId} (htwin : s.twinOn p = true) (hrefix : (s.stepOf p).refix = false)
    (hneg : (s.twin p).hasNegative (s.stepOf p).updateCount = false) : exec (.fixCommitAdvance p) s = .next s := by
  rw [exec_fixCommitAdvance]; exact if_neg (fun h => by simp [htwin, hrefix, hneg] at h)

/-- Beside the twin engine the advance of the update count changes its step only. -/
theorem advanced_sansTwin {s : State} {p : PartId} (hp : s.phase p = .fix) :
    (s.advanced p).sansTwin = (s.modStep p Step.advanced).sansTwin := by
  have hreset := streamReset_sansTwin (s.modStep p Step.advanced) p
  have hphase : ((s.modStep p Step.advanced).streamReset p).phase p ≠ .stop := by
    rw [State.phase, State.stepOf, (sansTwin_eq_iff.mp hreset).2.1]
    change ((s.modStep p Step.advanced).stepOf p).phase ≠ .stop
    rw [modStep_stepOf_self]
    exact fun e => by rw [show s.phase p = .stop from e] at hp; cases hp
  dsimp only [State.advanced]
  split
  · exact hreset
  · exact (sealSend_sansTwin hphase).trans hreset

/-! ### st.seed -/

/-- The state after st.seed: the slot's grain has its seed (R151). -/
def State.seededBy (s : State) (a : At) (f : FmtY) (job ix : Word64) : State :=
  ((s.countIssue a).setGrain a { (s.slot a).grain with
    seeded := true, seqSlot := bfld (s.sreg a f.sa) 0 32, jobSeed := job, stepIndex := ix,
    keyBase := (s.slot a).grain.laneBase, counters := [] }).retire a

/-- st.seed of the bubble slot takes its seed from two registers. -/
theorem stSeed_bubble {s : State} {a : At} {p : Pred} {f : FmtY} (h : s.takes (.stSeed a p f)) (ha : a.slot = 1) :
    exec (.stSeed a p f) s = .next (s.seededBy a f (s.sreg a f.sd) (s.sreg a (f.sd + 1))) := by
  rw [exec_stSeed, execStSeed]
  dsimp only
  rw [issue_takes (takes_word h rfl), if_pos (by simp [ha])]
  rfl

/-- st.seed of the foreground slot takes it from the step it opened. -/
theorem stSeed_foreground {s : State} {a : At} {p : Pred} {f : FmtY} {q : PartId} (h : s.takes (.stSeed a p f))
    (ha : a.slot = 0) (hq : s.partOf a.cell = some q) : exec (.stSeed a p f) s =
      if s.phase q ≠ .expose then s.stPhaseFault a 0x04 none
      else if (s.slot a).openDone = false then s.trap a 7 0x04 0x0D 0
      else .next (s.seededBy a f (s.stepOf q).jobSeed (s.stepOf q).index) := by
  rw [exec_stSeed, execStSeed]
  dsimp only
  rw [issue_takes (takes_word h rfl), if_neg (by simp [ha])]
  simp only [hq]
  rfl

/-- Settles O23: the advance of the update count, the boundary over `boundary_stepOf`, and the seed of the grain. -/
theorem fixAdvanceAndBoundary : Obligations.FixAdvanceAndBoundary := by
  refine ⟨fun s p hp => ⟨fun hstage hneg => ⟨_, fixCommitAdvance_goes hp hstage hneg, ?_⟩,
    fun _ => fixCommitAdvance_waits, fun hstage hseal hb => ⟨_, stepBoundary_goes hp hstage hseal hb, ?_⟩,
    fun _ => stepBoundary_waits⟩, fun s a p f h => ⟨stSeed_bubble h, fun q ha hq =>
      ⟨fun hp hdone => ?_, fun hp hdone => ?_, fun hp => ?_⟩⟩⟩
  · obtain ⟨hcells, hsteps, -, hmem⟩ := sansTwin_eq_iff.mp (advanced_sansTwin hp)
    obtain ⟨hself, hothers⟩ := stepOf_of_steps (s := s) (f := Step.advanced) hsteps
    exact ⟨hself, hothers, hmem, hcells⟩
  · obtain ⟨hself, hothers⟩ := boundary_stepOf s p
    obtain ⟨hphase, hfld, hvalid, hcommit⟩ := closes_status (s.stepOf p)
    have closes : ∀ {β : Type} (k : Step → β), (∀ t, k t.settled = k t) →
        k ((s.boundary p).stepOf p) = k (s.stepOf p).closes := fun k hk => of_settled k hk hself
    exact ⟨(closes Step.phase (fun _ => rfl)).trans hphase,
      (closes (fun t => fld t.status 0 3) (fun _ => rfl)).trans hfld,
      closes Step.index (fun _ => rfl), closes Step.inputPos (fun _ => rfl), closes Step.skipCount (fun _ => rfl),
      closes Step.updateCount (fun _ => rfl), closes Step.verdict (fun _ => rfl),
      (closes Step.valid (fun _ => rfl)).trans hvalid, (closes Step.commit (fun _ => rfl)).trans hcommit,
      closes Step.jobSeed (fun _ => rfl),
      fun hgroups hsheet => (congrArg MemCtl.dram (boundary_mem s p)).trans (boundaryWork_dram hgroups hsheet),
      boundary_store s p, fun q hq => ⟨of_settled Step.index (fun _ => rfl) (hothers q hq),
        of_settled Step.phase (fun _ => rfl) (hothers q hq)⟩⟩
  · rw [stSeed_foreground h ha hq, if_neg (by simp [hp]), if_neg (by simp [hdone])]
    rfl
  · rw [stSeed_foreground h ha hq, if_neg (by simp [hp]), if_pos hdone, trap_eq]
  · rw [stSeed_foreground h ha hq, if_pos hp, stPhaseFault_none]

end Sys2Proof.Machine
end

section
/-!
SUPPORT. The code of R298 is linear, so what a read finds depends on the stored difference alone; reading a protected
memory after an aligned write of whole words and after poison marks.
-/
namespace Sys2Proof.Machine

/-! ### Syndromes (R298 to R300) -/

/-- The XOR of a start value and the columns of the listed bits that are 1. -/
def syndromeOver (w : BitVec 39) (l : List Nat) (c : BitVec 7) : BitVec 7 :=
  (l.filter (bit w ·)).foldl (fun c i => c ^^^ eccColumns.getD i 0) c

theorem syndromeOver_cons (w : BitVec 39) (i : Nat) (l : List Nat) (c : BitVec 7) :
    syndromeOver w (i :: l) c = syndromeOver w l (c ^^^ if bit w i then eccColumns.getD i 0 else 0) := by
  simp only [syndromeOver, List.filter_cons]
  cases bit w i
  · exact congrArg (List.foldl _ · _) BitVec.xor_zero.symm
  · rfl

/-- The column of a bit of a sum of two words. -/
theorem column_xor (x y : BitVec 39) (i : Nat) (k : BitVec 7) :
    (if bit (x ^^^ y) i then k else 0) = (if bit x i then k else 0) ^^^ (if bit y i then k else 0) := by
  have hbit : bit (x ^^^ y) i = (bit x i ^^ bit y i) := BitVec.getLsbD_xor
  rw [hbit]
  cases bit x i <;> cases bit y i <;> simp

theorem syndromeOver_xor (x y : BitVec 39) : ∀ (l : List Nat) (a b : BitVec 7),
    syndromeOver (x ^^^ y) l (a ^^^ b) = syndromeOver x l a ^^^ syndromeOver y l b
  | [], _, _ => rfl
  | i :: l, a, b => by
    rw [syndromeOver_cons, syndromeOver_cons, syndromeOver_cons, ← syndromeOver_xor x y l, column_xor]
    exact congrArg (syndromeOver _ l) (by ac_rfl)

theorem syndrome_xor (x y : BitVec 39) : syndrome (x ^^^ y) = syndrome x ^^^ syndrome y := syndromeOver_xor x y _ 0 0

/-- The columns of the check bits are unit vectors. -/
theorem syndrome_check : ∀ c : BitVec 7, syndrome (c ++ 0#32) = c := by decide +kernel

theorem eccCode_eq_xor (d : Word32) : eccCode d = (eccCheck d ++ 0#32) ^^^ d.zeroExtend 39 := by
  apply BitVec.eq_of_getLsbD_eq
  intro i hi
  simp only [eccCode, BitVec.getLsbD_xor, BitVec.getLsbD_append, BitVec.getLsbD_setWidth]
  by_cases h : i < 32
  · simp [h, hi]
  · simp [h, BitVec.getLsbD_of_ge d i (by omega)]

@[simp] theorem syndrome_eccCode (d : Word32) : syndrome (eccCode d) = 0 := by
  rw [eccCode_eq_xor, syndrome_xor, syndrome_check]
  exact BitVec.xor_self

theorem syndrome_zero : syndrome 0 = 0 := syndrome_check 0

theorem syndrome_poisonDiff : syndrome poisonDiff = 0x7F := syndrome_check 0x7F

theorem eccDecode_snd (w : BitVec 39) : (eccDecode w).2 = classify (syndrome w) := by
  unfold eccDecode
  dsimp only
  split <;> rfl

/-! ### Sparse stores -/

/-- A key that is not listed reads as the default. -/
theorem Sparse.get_of_forall_ne {β : Type} {d : β} {k : Nat} : ∀ {m : Sparse β}, (∀ e ∈ m, e.1 ≠ k) →
    Sparse.get d m k = d
  | [], _ => rfl
  | (a, v) :: rest, h => by
    obtain ⟨ha, hrest⟩ := List.forall_mem_cons.mp h
    rw [Sparse.get, if_neg (Ne.symm ha), Sparse.get_of_forall_ne hrest, ite_self]

/-! ### Words of a protected memory -/

namespace ProtMem

/-- What a read finds depends on the stored difference alone. -/
theorem readWord_snd (m : ProtMem) (w : Nat) : (m.readWord w).2 = classify (syndrome (m.diff w)) := by
  unfold readWord
  split
  · next h => rw [h, syndrome_zero]; rfl
  · rw [eccDecode_snd, syndrome_xor, syndrome_eccCode]
    exact congrArg classify BitVec.zero_xor

theorem readWord_of_diff_zero {m : ProtMem} {w : Nat} (h : m.diff w = 0) : m.readWord w = (m.dataWord w, .good) := if_pos h

theorem rawBytes_congr {m m' : ProtMem} (h : m'.bytes = m.bytes) (a : Nat) : ∀ n, m'.rawBytes a n = m.rawBytes a n
  | 0 => rfl
  | n + 1 => by rw [rawBytes, rawBytes, rawBytes_congr h _ n, byte, byte, h]

/-- A read depends on the difference and the bytes of its word. -/
theorem readWord_congr {m m' : ProtMem} {w : Nat} (hbytes : m'.bytes = m.bytes) (hdiff : m'.diff w = m.diff w) :
    m'.readWord w = m.readWord w := by
  simp only [readWord, dataWord, hdiff, rawBytes_congr hbytes]

/-! ### Poison marks -/

theorem diff_poison {m : ProtMem} (h : m.wf) (w v : Nat) : (m.poison w).diff v = if v = w then poisonDiff else m.diff v :=
  Sparse.get_set ((wf_iff m).mp h).2 w v poisonDiff

@[simp] theorem bytes_poisonAll (m : ProtMem) (ws : List Nat) : (m.poisonAll ws).bytes = m.bytes :=
  foldl_keeps ProtMem.bytes (f := poison) (fun _ _ => rfl) ws m

theorem diff_poisonAll {m : ProtMem} (h : m.wf) (ws : List Nat) (v : Nat) :
    (m.poisonAll ws).diff v = if v ∈ ws then poisonDiff else m.diff v := by
  induction ws generalizing m with
  | nil => rfl
  | cons w ws ih =>
    refine (ih (poison_wf h w)).trans ?_
    rw [diff_poison h]
    by_cases hv : v = w <;> simp [hv]

theorem readWord_poisonAll_of_notMem {m : ProtMem} (h : m.wf) {ws : List Nat} {v : Nat} (hv : v ∉ ws) :
    (m.poisonAll ws).readWord v = m.readWord v :=
  readWord_congr (bytes_poisonAll m ws) (by rw [diff_poisonAll h, if_neg hv])

theorem readWord_poisonAll_of_mem {m : ProtMem} (h : m.wf) {ws : List Nat} {v : Nat} (hv : v ∈ ws) :
    ((m.poisonAll ws).readWord v).2.poisoned = true := by
  rw [readWord_snd, diff_poisonAll h, if_pos hv, syndrome_poisonDiff]
  rfl

/-! ### Aligned writes (R301) -/

/-- A write of whole words merges none. -/
theorem write_aligned (m : ProtMem) (w : Nat) {n : Nat} {bs : List Byte} (h : bs.length = 4 * n) :
    m.write (4 * w) bs = (m.clearDiffs w n).putBytes (4 * w) bs := by
  have h1 : (4 * w + 3) / 4 = w := by omega
  simp [write, h, h1, ← Nat.mul_add]

theorem diff_clearDiffs {m : ProtMem} {w n v : Nat} (h : w ≤ v ∧ v < w + n) : (m.clearDiffs w n).diff v = 0 := by
  refine Sparse.get_of_forall_ne fun e he hev => ?_
  obtain ⟨-, hkept⟩ := List.mem_filter.mp he
  simp [hev, h] at hkept

theorem diff_putBytes (m : ProtMem) (a : Nat) (bs : List Byte) (v : Nat) : (m.putBytes a bs).diff v = m.diff v := by
  simp only [diff, marks_putBytes]

/-- The bytes held within a range just stored. -/
theorem rawBytes_putBytes {m : ProtMem} (h : m.wf) (a : Nat) (bs : List Byte) : ∀ n i, i + n ≤ bs.length →
    (m.putBytes a bs).rawBytes (a + i) n = (bs.drop i).take n
  | 0, _, _ => rfl
  | n + 1, i, hi => by
    rw [rawBytes, byte_putBytes h, if_pos (by omega), Nat.add_assoc, rawBytes_putBytes h a bs n (i + 1) (by omega),
      List.drop_eq_getElem_cons (by omega : i < bs.length), List.take_succ_cons, Nat.add_sub_cancel_left,
      List.getD_eq_getElem]

end ProtMem

/-! ### Words as bytes -/

@[simp] theorem length_leBytes : ∀ n v : Nat, (leBytes n v).length = n
  | 0, _ => rfl
  | n + 1, v => congrArg (· + 1) (length_leBytes n (v / 256))

theorem ofLe_leBytes : ∀ n v : Nat, ofLe (leBytes n v) = v % 256 ^ n
  | 0, v => (Nat.mod_one v).symm
  | n + 1, v => by
    rw [leBytes, ofLe, ofLe_leBytes n, Nat.pow_succ', Nat.mod_mul]
    rfl

/-- The bytes of a list of words. -/
def wordBytes (ws : List Word32) : List Byte := ws.flatMap (fun w => leBytes 4 w.toNat)

theorem wordBytes_cons (w : Word32) (ws : List Word32) : wordBytes (w :: ws) = leBytes 4 w.toNat ++ wordBytes ws :=
  List.flatMap_cons

@[simp] theorem length_wordBytes : ∀ ws : List Word32, (wordBytes ws).length = 4 * ws.length
  | [] => rfl
  | w :: ws => by
    rw [wordBytes_cons, List.length_append, length_leBytes, length_wordBytes, List.length_cons]
    omega

/-- The bytes of one word of a list. -/
theorem take_drop_wordBytes : ∀ (ws : List Word32) (j : Nat) (h : j < ws.length),
    ((wordBytes ws).drop (4 * j)).take 4 = leBytes 4 ws[j].toNat
  | w :: ws, 0, _ => by
    rw [wordBytes_cons, Nat.mul_zero, List.drop_zero, List.take_left' (length_leBytes 4 _)]
    rfl
  | w :: ws, j + 1, h => by
    have h4 : (leBytes 4 w.toNat).length = 4 := length_leBytes 4 _
    rw [wordBytes_cons, show 4 * (j + 1) = (leBytes 4 w.toNat).length + 4 * j by omega, List.drop_append,
      List.drop_of_length_le (by omega), List.nil_append, Nat.add_sub_cancel_left,
      take_drop_wordBytes ws j (Nat.lt_of_succ_lt_succ h)]
    rfl

namespace ProtMem

/-- Words just written read back, with nothing found. -/
theorem readWord_write_words {m : ProtMem} (h : m.wf) (w : Nat) {ws : List Word32} {j : Nat} (hj : j < ws.length) :
    (m.write (4 * w) (wordBytes ws)).readWord (w + j) = (ws[j], .good) := by
  have hwf := clearDiffs_wf h w ws.length
  have hdata : ((m.clearDiffs w ws.length).putBytes (4 * w) (wordBytes ws)).dataWord (w + j) = ws[j] := by
    rw [dataWord, Nat.mul_add, rawBytes_putBytes hwf _ _ _ _ (by rw [length_wordBytes]; omega), take_drop_wordBytes ws j hj,
      ofLe_leBytes]
    exact BitVec.eq_of_toNat_eq (by simp [ws[j].isLt])
  rw [write_aligned m w (length_wordBytes ws), readWord_of_diff_zero, hdata]
  rw [diff_putBytes, diff_clearDiffs (by omega)]

end ProtMem

/-! ### Vat entries -/

theorem vatPut_wf {v : ProtMem} (h : v.wf) (r j : Nat) (ws : List Word32) : (vatPut v r j ws).wf := ProtMem.write_wf h _ _

/-- Entries of a row just written from column 0 on. -/
theorem vatEntry_vatPut {v : ProtMem} (h : v.wf) (r : Nat) {ws : List Word32} {j : Nat} (hj : j < ws.length) :
    vatEntry (vatPut v r 0 ws) r j = (ws[j], false) := by
  have haddr : vatAddr r 0 = 4 * (r * 128) := by unfold vatAddr; omega
  have hread := ProtMem.readWord_write_words h (r * 128) hj
  simp only [vatEntry, vatPut, haddr]
  rw [← wordBytes, hread]
  rfl

end Sys2Proof.Machine
end

section
/-!
SUPPORT. Row-cycles: the sums of a row in the in-flight window, and what PLATE_ROW_CYCLE leaves where no operand word is
poisoned and no vat release waits.
-/
namespace Sys2Proof.Machine

/-! ### Lists -/

theorem lmod_append_cons {α : Type} (r : α) (after : List α) (f : α → α) : ∀ before : List α,
    lmod (before ++ r :: after) before.length f = before ++ f r :: after
  | [] => rfl
  | b :: before => congrArg (b :: ·) (lmod_append_cons r after f before)

theorem eraseIdx_append_cons {α : Type} (before : List α) (r : α) (after : List α) :
    (before ++ r :: after).eraseIdx before.length = before ++ after := by
  rw [List.eraseIdx_append_of_length_le le_rfl, Nat.sub_self]
  rfl

theorem findIdx?_append_cons {α : Type} {p : α → Bool} {before : List α} {r : α} (after : List α)
    (hbefore : ∀ q ∈ before, p q = false) (hr : p r = true) :
    (before ++ r :: after).findIdx? p = some before.length := by
  rw [List.findIdx?_append, List.findIdx?_eq_none_iff.mpr hbefore, List.findIdx?_cons, hr]
  simp

/-- Changes that agree on the cell are the same change. -/
theorem modCell_congr {s : State} {c : CellId} {f g : Cell → Cell} (h : f (s.cell c) = g (s.cell c)) :
    s.modCell c f = s.modCell c g := by rw [State.modCell, h, State.modCell]

/-! ### Vat releases -/

theorem settleFrees_of_noFree (infl : List InFlight) : ∀ (runs before : List MxRun),
    (∀ q ∈ runs, q.ins.kind ≠ .vfree) → settleFrees infl before runs = ([], runs)
  | [], _, _ => rfl
  | r :: runs, before, h => by
    obtain ⟨hr, hruns⟩ := List.forall_mem_cons.mp h
    rw [settleFrees, settleFrees_of_noFree infl runs _ hruns]
    exact if_neg hr

/-- Where no vat release waits, none takes effect. -/
theorem freed_of_noFree {x : Cell} (h : ∀ q ∈ x.eng.plateRun, q.ins.kind ≠ .vfree) : x.freed = x := by
  rw [Cell.freed, settleFrees_of_noFree _ _ _ h]
  rfl

/-! ### Group sums -/

/-- The leaves outside a slice do not matter. -/
theorem groupSums_congr {node : Flt} {kp kEnd : Nat} {f g : Nat → FpNum} : ∀ (n k0 : Nat),
    (∀ k, k0 ≤ k → k < kEnd → f k = g k) → groupSums node kp k0 kEnd f n = groupSums node kp k0 kEnd g n
  | 0, _, _ => rfl
  | n + 1, k0, h => by
    have hleaves : (fun i => if k0 + i < kEnd then f (k0 + i) else FpNum.zero) =
        fun i => if k0 + i < kEnd then g (k0 + i) else FpNum.zero := by
      funext i
      split
      · next hi => exact h _ (Nat.le_add_right ..) hi
      · rfl
    simp only [groupSums, hleaves, groupSums_congr n (k0 + kp) fun k hk => h k (by omega)]

/-- How many groups a slice has does not depend on the leaves. -/
theorem length_groupSums (node : Flt) (kp kEnd : Nat) (f g : Nat → FpNum) : ∀ n k0 : Nat,
    (groupSums node kp k0 kEnd f n).length = (groupSums node kp k0 kEnd g n).length
  | 0, _ => rfl
  | n + 1, k0 => by
    rw [groupSums, groupSums]
    split
    · rfl
    · exact congrArg (· + 1) (length_groupSums node kp kEnd f g n (k0 + kp))

theorem length_groupSums_le (node : Flt) (kp kEnd : Nat) (f : Nat → FpNum) : ∀ n k0 : Nat,
    (groupSums node kp k0 kEnd f n).length ≤ n
  | 0, _ => Nat.le_refl 0
  | n + 1, k0 => by
    rw [groupSums]
    split
    · exact Nat.zero_le _
    · exact Nat.succ_le_succ (length_groupSums_le node kp kEnd f n (k0 + kp))

/-- Group `g` of every column that has one; none where no column has. -/
def groupRow (sums : List (List Word32)) (g : Nat) : Option (List Word32) :=
  let row := sums.filterMap (fun l => l[g]?)
  if row.isEmpty then none else some row

/-- Column sums of one length have every group below it, one sum a column. -/
theorem groupRow_lt {sums : List (List Word32)} {len g : Nat} (hlen : ∀ l ∈ sums, l.length = len) (hne : sums ≠ [])
    (hg : g < len) : groupRow sums g = some (sums.map (fun l => l.getD g 0)) := by
  have hrow : sums.filterMap (fun l => l[g]?) = sums.map (fun l => l.getD g 0) := by
    rw [← List.filterMap_eq_map']
    refine List.filterMap_congr fun l hl => ?_
    have hgl : g < l.length := (hlen l hl).symm ▸ hg
    rw [List.getElem?_eq_getElem hgl, List.getD_eq_getElem _ _ hgl]
  simp [groupRow, hrow, hne]

/-- They have no group beyond it. -/
theorem groupRow_ge {sums : List (List Word32)} {len g : Nat} (hlen : ∀ l ∈ sums, l.length = len) (hg : len ≤ g) :
    groupRow sums g = none := by
  have hrow : sums.filterMap (fun l => l[g]?) = [] :=
    List.filterMap_eq_nil_iff.mpr fun l hl => List.getElem?_eq_none ((hlen l hl).symm ▸ hg)
  simp [groupRow, hrow]

/-- The groups of a row-cycle are its column sums transposed. -/
theorem filterMap_groupRow {sums : List (List Word32)} {len n : Nat} (hlen : ∀ l ∈ sums, l.length = len) (hn : len ≤ n)
    (hne : sums ≠ []) :
    (List.range n).filterMap (groupRow sums) = (List.range len).map (fun g => sums.map (fun l => l.getD g 0)) := by
  obtain ⟨d, rfl⟩ := Nat.exists_eq_add_of_le hn
  have hbeyond : ((List.range d).map (len + ·)).filterMap (groupRow sums) = [] := by
    refine List.filterMap_eq_nil_iff.mpr fun g hg => ?_
    obtain ⟨i, -, rfl⟩ := List.mem_map.mp hg
    exact groupRow_ge hlen (Nat.le_add_right ..)
  rw [List.range_add, List.filterMap_append, hbeyond, List.append_nil, ← List.filterMap_eq_map']
  exact List.filterMap_congr fun g hg => groupRow_lt hlen hne (List.mem_range.mp hg)

/-- Entry `j` of group `g` is group `g` of column `j`. -/
theorem getElem?_filterMap_groupRow {sums : List (List Word32)} {len n : Nat} (hlen : ∀ l ∈ sums, l.length = len)
    (hn : len ≤ n) {j : Nat} (hj : j < sums.length) (g : Nat) :
    ((((List.range n).filterMap (groupRow sums))[g]?).getD [])[j]? = sums[j][g]? := by
  have hcol : sums[j].length = len := hlen _ (List.getElem_mem hj)
  rw [filterMap_groupRow hlen hn (List.ne_nil_of_length_pos (Nat.zero_lt_of_lt hj))]
  by_cases hg : g < len
  · simp [hg, hj, hcol]
  · simp [hg, hcol]

/-! ### The operands of a row-cycle -/

/-- The elements of the next A row over the next slice. -/
def MxRun.aRow (r : MxRun) (store : ProtMem) : List Read :=
  (List.range (r.ins.sliceEnd r.slice - r.slice * 128)).map
    (fun k => readLogical store (tileOf r.ins.ta) r.row (r.slice * 128 + k))

/-- A slice that is to come is not empty. -/
theorem slice_lt_sliceEnd {r : MxRun} (h : r.slice < r.slices) : r.slice * 128 < r.ins.sliceEnd r.slice := by
  simp only [MxRun.slices, MxInstr.slices] at h
  rw [MxInstr.sliceEnd]
  omega

/-- One entry of a row-cycle (R97 level 1, R98, R114): a group of the products of an A row with a column of B. -/
theorem rowSums_entry {r : MxRun} {t : StatTile} {av : Nat → Read} {bv : Nat → Nat → Read} {n cols : Nat}
    (hn : r.ins.sliceEnd r.slice = r.slice * 128 + n)
    (ht : t.cols = (List.range cols).map (fun j => (List.range n).map (fun k => bv k j))) {j : Nat} (hj : j < cols) (g : Nat) :
    (((r.rowSums ((List.range n).map av) t)[g]?).getD [])[j]? =
      (groupSums (if (tileOf r.ins.ta).elem = .f32 then F32 else A22) r.kp (r.slice * 128) (r.slice * 128 + n) (fun k =>
        ((tileOf r.ins.ta).elem.dec (av (k - r.slice * 128)).code (av (k - r.slice * 128)).second).mul
          ((tileOf r.ins.tb).elem.dec (bv (k - r.slice * 128) j).code (bv (k - r.slice * 128) j).second))
        (128 / r.kp))[g]? := by
  have hcols : j < t.cols.length := by simp [ht, hj]
  let node := if (tileOf r.ins.ta).elem = .f32 then F32 else A22
  refine (getElem?_filterMap_groupRow (n := 128 / r.kp) (fun l hl => ?_)
    (length_groupSums_le node r.kp (r.ins.sliceEnd r.slice) (fun _ => FpNum.zero) _ (r.slice * 128))
    (by rw [List.length_map]; exact hcols) g).trans ?_
  · obtain ⟨col, -, rfl⟩ := List.mem_map.mp hl
    exact length_groupSums _ _ _ _ (fun _ => FpNum.zero) _ _
  · rw [List.getElem_map, hn]
    refine congrArg (·[g]?) (groupSums_congr _ _ fun k hk hend => ?_)
    have hk' : k - r.slice * 128 < n := by omega
    simp [ht, hk']

/-- What a row-cycle with no poisoned operand puts into the in-flight window. -/
def MxRun.rowInFlight (r : MxRun) (store : ProtMem) (t : StatTile) : InFlight :=
  ⟨r.ins.tag.slot, r.ins.tag, r.order, r.ins.f.base.toNat + r.row, r.slice == 0 && !(bit r.ins.f.flags 0),
    r.rowSums (r.aRow store) t, false, []⟩

/-- The started instructions once an mx.mma has taken a row-cycle: it stands at its next row or slice, or has finished. -/
def MxRun.afterRow (r : MxRun) : List MxRun :=
  if r.row + 1 < (tileOf r.ins.ta).lrows then [{ r with row := r.row + 1 }]
  else if r.slice + 1 < r.slices then [{ r with row := 0, slice := r.slice + 1 }] else []

theorem afterRow_ins {r q : MxRun} (h : q ∈ r.afterRow) : q.ins = r.ins := by
  unfold MxRun.afterRow at h
  split at h
  · rw [List.mem_singleton.mp h]
  · split at h
    · rw [List.mem_singleton.mp h]
    · exact absurd h List.not_mem_nil

/-- PLATE_ROW and PLATE_MAC after a row-cycle of `macs` products, both also counted at the rate of a class. -/
def CellRegs.countRow (y : CellRegs) (k : Fin 4) (macs : Nat) : CellRegs :=
  { y with
    plateRow := y.plateRow + 1,
    classRow := vmod y.classRow k (· + 1),
    classMac := vmod y.classMac k (· + BitVec.ofNat 64 macs),
    plateMac := y.plateMac + BitVec.ofNat 64 macs }

theorem nextRow_of_lt {r : MxRun} (h : r.row + 1 < (tileOf r.ins.ta).lrows) :
    r.nextRow false = { r with row := r.row + 1 } := by
  rw [MxRun.nextRow, if_pos h, Bool.or_false]

theorem nextRow_of_ge {r : MxRun} (h : ¬ r.row + 1 < (tileOf r.ins.ta).lrows) :
    r.nextRow false = { r with row := 0, slice := r.slice + 1 } := by
  rw [MxRun.nextRow, if_neg h, Bool.or_false]

/-- A row-cycle moves to the next row within the slice exactly where a row is left. -/
theorem nextRow_slice (r : MxRun) {β : Type} (a b : β) :
    (if (r.nextRow false).slice = r.slice then a else b) = if r.row + 1 < (tileOf r.ins.ta).lrows then a else b := by
  by_cases h : r.row + 1 < (tileOf r.ins.ta).lrows
  · rw [nextRow_of_lt h, if_pos rfl, if_pos h]
  · rw [nextRow_of_ge h, if_neg (Nat.succ_ne_self _), if_neg h]

/-- The queue of started instructions after a row-cycle of one of them. -/
theorem nextRow_runs {r : MxRun} (h : r.slice < r.slices) (before after : List MxRun) :
    (if (r.nextRow false).slices ≤ (r.nextRow false).slice then (before ++ r :: after).eraseIdx before.length
      else lmod (before ++ r :: after) before.length (fun _ => r.nextRow false)) = before ++ r.afterRow ++ after := by
  rw [eraseIdx_append_cons, lmod_append_cons, MxRun.afterRow]
  by_cases hrow : r.row + 1 < (tileOf r.ins.ta).lrows
  · rw [nextRow_of_lt hrow, if_pos hrow]
    exact (if_neg (Nat.not_le_of_lt h)).trans (by simp)
  · rw [nextRow_of_ge hrow, if_neg hrow]
    by_cases hslice : r.slice + 1 < r.slices
    · rw [if_pos hslice]
      exact (if_neg (Nat.not_le_of_lt hslice)).trans (by simp)
    · rw [if_neg hslice]
      exact (if_pos (Nat.le_of_not_lt hslice)).trans (by simp)

/-- A poison-free stationary tile has no column to mark. -/
theorem badCols_nil {cols : List (List Read)} (h : ∀ col ∈ cols, ∀ q ∈ col, q.poison = false) :
    (List.range cols.length).filter (fun j => ((cols[j]?).getD []).any (·.poison)) = [] := by
  refine List.filter_eq_nil_iff.mpr fun j hj => ?_
  have hlt := List.mem_range.mp hj
  rw [List.getElem?_eq_getElem hlt, Option.getD_some, Bool.not_eq_true, List.any_eq_false]
  exact fun q hq => by rw [h _ (List.getElem_mem hlt) q hq]; exact Bool.false_ne_true

/-- PLATE_ROW_CYCLE of the first started mx.mma (the oldest takes the row-cycle: log entry 11), with no operand word
poisoned. -/
theorem plateRowCycle_streams {s : State} {c : CellId} {before after : List MxRun} {r : MxRun} {t : StatTile}
    (hfree : ∀ q ∈ (s.cell c).eng.plateRun, q.ins.kind ≠ .vfree)
    (hruns : (s.cell c).eng.plateRun = before ++ r :: after) (hbefore : ∀ q ∈ before, q.ins.kind ≠ .mma)
    (hmma : r.ins.kind = .mma) (hslice : r.slice < r.slices)
    (htile : ((s.cell c).eng.tilesOf r.ins).find? (fun t => t.slice == r.slice) = some t)
    (hclear : (s.cell c).eng.vatClear = false) (hroom : (s.cell c).eng.inflight.length < 184)
    (hheld : rowHeldForMma before (r.ins.f.base.toNat + r.row) = false)
    (hA : ∀ q ∈ r.aRow (s.cell c).store, q.poison = false) (hB : ∀ col ∈ t.cols, ∀ q ∈ col, q.poison = false) :
    exec (.plateRowCycle c) s = .next (s.modCell c (fun y => { y with
      eng := { y.eng with
        inflight := y.eng.inflight ++ [r.rowInFlight (s.cell c).store t],
        plateRun := before ++ r.afterRow ++ after,
        tiles := if r.row + 1 < (tileOf r.ins.ta).lrows then y.eng.tiles else y.eng.tiles.filter (fun q => q != t) },
      regs := y.regs.countRow (rateClass (tileOf r.ins.ta) (tileOf r.ins.tb))
        ((r.ins.sliceEnd r.slice - r.slice * 128) * t.cols.length) })) := by
  have hfind : (s.cell c).eng.plateRun.findIdx? (fun r => r.ins.kind == .mma) = some before.length := by
    rw [hruns]
    exact findIdx?_append_cons after (fun q hq => beq_eq_false_iff_ne.mpr (hbefore q hq)) (beq_iff_eq.mpr hmma)
  have hget : (s.cell c).eng.plateRun[before.length]? = some r := by simp [hruns]
  have htake : (s.cell c).eng.plateRun.take before.length = before := by simp [hruns]
  have hgoes : ¬ (rowHeldForMma before (r.ins.f.base.toNat + r.row) = true ∨ (s.cell c).eng.vatClear = true ∨
      184 ≤ (s.cell c).eng.inflight.length) := by simp [hheld, hclear, hroom]
  have hbad : (r.aRow (s.cell c).store).any (·.poison) = false := by
    rw [List.any_eq_false]
    exact fun q hq => by rw [hA q hq]; exact Bool.false_ne_true
  have hleft : ∀ q ∈ before ++ r.afterRow ++ after, q.ins.kind ≠ .vfree := fun q hq => by
    rw [List.append_assoc, List.mem_append, List.mem_append] at hq
    rw [hruns] at hfree
    rcases hq with hq | hq | hq
    · exact hfree q (by simp [hq])
    · rw [afterRow_ins hq, hmma]; decide
    · exact hfree q (by simp [hq])
  rw [exec_plateRowCycle, execPlateRowCycle]
  simp only [hfind, hget, htile, htake, if_neg hgoes]
  rw [← MxRun.aRow, hbad, Bool.false_and, if_neg Bool.false_ne_true]
  refine congrArg Host.Outcome.next (modCell_congr ?_)
  rw [badCols_nil hB, nextRow_slice, hruns, nextRow_runs hslice, List.length_range]
  exact freed_of_noFree hleft

end Sys2Proof.Machine
end

section
/-!
A row of A over one slice, and the promotion of its groups.
-/
namespace Sys2Proof.Machine

/-! ### Promotions -/

/-- What recording a poisoned word leaves of the cell. -/
theorem poisonEvent_cell (s : State) (c : CellId) (t : Tag) (src : Src) (code : Byte) (w : Option (Nat × BitVec 39)) :
    (s.poisonEvent c t src code w).cell c = (s.cell c).modRegs (·.noteFault src code) := modCell_cell_self ..

/-- The entries a row of the window is promoted into. -/
def InFlight.width (fl : InFlight) : Nat := match fl.groups with | g :: _ => g.length | [] => 0

theorem InFlight.width_eq (fl : InFlight) : fl.width = ((fl.groups[0]?).getD []).length := by
  rw [InFlight.width]
  cases fl.groups <;> rfl

/-- Whether a promotion reads a poisoned vat word (R119): one that overwrites reads none. -/
def Cell.readsPoison (x : Cell) (fl : InFlight) : Bool :=
  !fl.first && ((List.range fl.width).map (vatEntry x.vat fl.row)).any (·.2)

/-- The entries a promotion writes: its groups added in ascending order, NaN where a poisoned word takes part. -/
def Cell.promoted (x : Cell) (fl : InFlight) : List Word32 :=
  let sums := promoteGroups fl.first (((List.range fl.width).map (vatEntry x.vat fl.row)).map (·.1)) fl.groups
  (List.range fl.width).map (fun j =>
    if x.readsPoison fl || fl.poison || fl.badCols.contains j then nanF32 else (sums[j]?).getD 0)

/-- The entries of a row from `n` on, as word numbers of the vat. -/
def rowTail (row n : Nat) : List Nat := (List.range (128 - n)).map (fun j => row * 128 + n + j)

/-- The vat after a promotion: one that reads a poisoned word poisons the entries of its row that it does not write. -/
def Cell.promotedVat (x : Cell) (fl : InFlight) : ProtMem :=
  if x.readsPoison fl then (vatPut x.vat fl.row 0 (x.promoted fl)).poisonAll (rowTail fl.row fl.width)
  else vatPut x.vat fl.row 0 (x.promoted fl)

/-- A cell once the oldest row of its window is promoted into a vat. -/
def Cell.promotedTo (y : Cell) (fl : InFlight) (rest : List InFlight) (vat : ProtMem) : Cell :=
  { y with vat := vat, vatLive := setBit y.vatLive fl.row true, eng := { y.eng with inflight := rest } }

/-- VAT_PROMOTION of the oldest row of the window. -/
theorem vatPromotion_eq {s : State} {c : CellId} {fl : InFlight} {rest : List InFlight}
    (hfree : ∀ q ∈ (s.cell c).eng.plateRun, q.ins.kind ≠ .vfree) (hfl : (s.cell c).eng.inflight = fl :: rest) :
    let t := s.modCell c (fun y => y.promotedTo fl rest ((s.cell c).promotedVat fl))
    exec (.vatPromotion c) s = .next (if (s.cell c).readsPoison fl then
      t.poisonEvent c fl.tag .plate 0x08 (vatPoison (s.cell c).vat fl.row fl.width) else t) := by
  have hcell : s.modCell c (fun y => (y.promotedTo fl rest ((s.cell c).promotedVat fl)).freed) =
      s.modCell c (fun y => y.promotedTo fl rest ((s.cell c).promotedVat fl)) := modCell_congr (freed_of_noFree hfree)
  dsimp only
  rw [exec_vatPromotion, execVatPromotion, ← hcell]
  simp only [hfl]
  rfl

theorem readsPoison_eq_true {x : Cell} {fl : InFlight} :
    x.readsPoison fl = true ↔ fl.first = false ∧ ∃ j < fl.width, (vatEntry x.vat fl.row j).2 = true := by
  simp [Cell.readsPoison]

theorem mem_rowTail {row n j : Nat} (hj : j < 128) : row * 128 + j ∈ rowTail row n ↔ n ≤ j := by
  simp only [rowTail, List.mem_map, List.mem_range]
  constructor
  · rintro ⟨i, hi, he⟩
    omega
  · exact fun h => ⟨j - n, by omega, by omega⟩

/-- What a promotion that reads a poisoned word makes of its row (R119): NaN where it writes, poison elsewhere. -/
theorem promotedVat_of_readsPoison {x : Cell} {fl : InFlight} (hbad : x.readsPoison fl = true) (hwf : x.vat.wf)
    (hwidth : fl.width ≤ 128) :
    (∀ j < fl.width, vatEntry (x.promotedVat fl) fl.row j = (nanF32, false)) ∧
      ∀ j, fl.width ≤ j → j < 128 → (vatEntry (x.promotedVat fl) fl.row j).2 = true := by
  have hput := vatPut_wf hwf fl.row 0 (x.promoted fl)
  rw [Cell.promotedVat, if_pos hbad]
  refine ⟨fun j hj => ?_, fun j hle hlt => ProtMem.readWord_poisonAll_of_mem hput ((mem_rowTail hlt).mpr hle)⟩
  have hlen : j < (x.promoted fl).length := by simp [Cell.promoted, hj]
  have hnan : (x.promoted fl)[j] = nanF32 := by simp [Cell.promoted, hbad]
  have hout : fl.row * 128 + j ∉ rowTail fl.row fl.width :=
    mt (mem_rowTail (Nat.lt_of_lt_of_le hj hwidth)).mp (Nat.not_le_of_lt hj)
  calc vatEntry _ fl.row j
      = vatEntry (vatPut x.vat fl.row 0 (x.promoted fl)) fl.row j := by
        rw [vatEntry, ProtMem.readWord_poisonAll_of_notMem hput hout, vatEntry]
    _ = (nanF32, false) := by rw [vatEntry_vatPut hwf fl.row hlen, hnan]

/-- A promotion that reads no poisoned word is one write of its entries. -/
theorem promotedVat_of_clean {x : Cell} {fl : InFlight} (hgood : x.readsPoison fl = false) :
    x.promotedVat fl = vatPut x.vat fl.row 0 ((List.range fl.width).map (fun j =>
      if fl.poison || fl.badCols.contains j then nanF32
      else ((promoteGroups fl.first ((List.range fl.width).map (fun j => (vatEntry x.vat fl.row j).1))
        fl.groups)[j]?).getD 0)) := by
  rw [Cell.promotedVat, if_neg (by simp [hgood])]
  simp only [Cell.promoted, hgood, Bool.false_or, List.map_map]
  rfl

/-- Settles O12: the row-cycle by `plateRowCycle_streams` and `rowSums_entry`, the promotion by `vatPromotion_eq`. The
oldest started mx.mma takes the row-cycle (log entry 11); a poisoned A row makes the entries 0 to N − 1 NaN (log entry
58). -/
theorem rowCycleAndPromotion : Obligations.RowCycleAndPromotion := by
  intro s c x hfree
  refine ⟨?_, fun fl rest hfl hrow => ?_, fun _ _ _ _ => rfl, fun _ _ => rfl⟩
  · intro before r after t bv hruns hbefore hmma hslice htile hclear hroom hheld ta tb k0 n av ht hA hB
    have hend : r.ins.sliceEnd r.slice = r.slice * 128 + n := by
      have hn : n = r.ins.sliceEnd r.slice - r.slice * 128 := rfl
      have hlt := slice_lt_sliceEnd hslice
      omega
    have hcols : t.cols.length = tb.lcols := by rw [ht, List.length_map, List.length_range]
    have hArow : ∀ q ∈ r.aRow x.store, q.poison = false := fun q hq => by
      obtain ⟨k, hk, rfl⟩ := List.mem_map.mp hq
      exact hA k (List.mem_range.mp hk)
    have hBcols : ∀ col ∈ t.cols, ∀ q ∈ col, q.poison = false := fun col hcol q hq => by
      rw [ht] at hcol
      obtain ⟨j, hj, rfl⟩ := List.mem_map.mp hcol
      obtain ⟨k, hk, rfl⟩ := List.mem_map.mp hq
      exact hB k (List.mem_range.mp hk) j (List.mem_range.mp hj)
    refine ⟨r.rowInFlight x.store t, ?_, rfl, rfl, rfl, rfl, rfl, fun g j hj => rowSums_entry hend ht hj g⟩
    rw [plateRowCycle_streams hfree hruns hbefore hmma hslice htile hclear hroom hheld hArow hBcols, hcols]
    rfl
  · simp only [← fl.width_eq]
    refine ⟨fun hclean => ?_, fun hfirst hn hwf hpoison => ?_⟩
    · have hgood : x.readsPoison fl = false := by
        rw [← Bool.not_eq_true, readsPoison_eq_true]
        rintro ⟨hfirst, j, hj, hp⟩
        rcases hclean with h | h
        · simp [h] at hfirst
        · simp [h j hj] at hp
      rw [vatPromotion_eq hfree hfl, if_neg (by simp [x, ← hgood]), promotedVat_of_clean hgood]
      exact congrArg Host.Outcome.next (modCell_congr rfl)
    · have hbad : x.readsPoison fl = true := readsPoison_eq_true.mpr ⟨hfirst, hpoison⟩
      obtain ⟨hnan, hmarks⟩ := promotedVat_of_readsPoison hbad hwf hn
      refine ⟨_, (vatPromotion_eq hfree hfl).trans (congrArg Host.Outcome.next (if_pos hbad)), ?_⟩
      dsimp only
      rw [poisonEvent_cell, modCell_cell_self]
      exact ⟨rfl, bit_setBit_self _ _ _ hrow, hnan, hmarks⟩

end Sys2Proof.Machine
end

section
/-!
SUPPORT. The plate queue: what PLATE_ISSUE makes of the oldest instruction, the rows a vat release frees as it starts,
and the stationary tile the B streamer loads.
-/
namespace Sys2Proof.Machine

/-! ### Live bits -/

/-- The live bits once some rows are freed. -/
def clearRows (live : BitVec 4096) (rows : List Nat) : BitVec 4096 := rows.foldl (fun w row => setBit w row false) live

theorem bit_clearRows {row : Nat} (hrow : row < 4096) : ∀ (rows : List Nat) (live : BitVec 4096),
    bit (clearRows live rows) row = (bit live row && !rows.contains row)
  | [], live => by simp [clearRows]
  | r :: rows, live => by
    refine (bit_clearRows hrow rows (setBit live r false)).trans ?_
    by_cases h : row = r
    · subst h; simp [bit_setBit_self live row false hrow]
    · simp [bit_setBit_ne live r row false (Ne.symm h), h]

/-! ### A vat release that starts -/

/-- A row that no started instruction has still to touch and that is not in the in-flight window is not held. -/
theorem rowHeld_eq_false {runs : List MxRun} {infl : List InFlight} {row : Nat} (order : Nat)
    (hinfl : ∀ q ∈ infl, q.row ≠ row) (hruns : ∀ q ∈ runs, q.pendingRow row = false) :
    rowHeld runs infl order row = false := by
  have hwindow : infl.any (fun f => f.row == row && decide (f.order < order)) = false :=
    List.any_eq_false.mpr fun q hq => by simp [hinfl q hq]
  have hmma : runs.any (fun q => q.ins.kind == .mma && q.pendingRow row) = false :=
    List.any_eq_false.mpr fun q hq => by simp [hruns q hq]
  have hpending : runs.any (fun q => q.pendingRow row) = false := List.any_eq_false.mpr fun q hq => by simp [hruns q hq]
  rw [rowHeld, awaitsPromotion, hwindow, hmma, hpending]
  rfl

/-- Behind instructions that are no releases, a release none of whose rows is held frees them all and is done. -/
theorem settleFrees_append_free {infl : List InFlight} {r : MxRun} (hkind : r.ins.kind = .vfree) :
    ∀ runs before : List MxRun, (∀ q ∈ runs, q.ins.kind ≠ .vfree) →
      (∀ row ∈ r.frees, rowHeld (before ++ runs) infl r.order row = false) →
      settleFrees infl before (runs ++ [r]) = (r.frees, runs)
  | [], before, _, hheld => by
    rw [List.append_nil] at hheld
    have hnone : r.frees.filter (fun row => rowHeld before infl r.order row) = [] :=
      List.filter_eq_nil_iff.mpr fun row hrow => by simp [hheld row hrow]
    have hall : r.frees.filter (not ∘ fun row => rowHeld before infl r.order row) = r.frees :=
      List.filter_eq_self.mpr fun row hrow => by simp [hheld row hrow]
    simp [settleFrees, hkind, List.partition_eq_filter_filter, hnone, hall]
  | q :: runs, before, hfree, hheld => by
    obtain ⟨hq, hruns⟩ := List.forall_mem_cons.mp hfree
    have hrest := settleFrees_append_free (infl := infl) hkind runs (before ++ [q]) hruns (by simpa using hheld)
    rw [List.cons_append, settleFrees, hrest]
    exact if_neg hq

/-- The started instructions and live bits such a release leaves. -/
theorem freed_append_free {x : Cell} {runs : List MxRun} {r : MxRun} (hx : x.eng.plateRun = runs ++ [r])
    (hkind : r.ins.kind = .vfree) (hfree : ∀ q ∈ runs, q.ins.kind ≠ .vfree)
    (hheld : ∀ row ∈ r.frees, rowHeld runs x.eng.inflight r.order row = false) :
    x.freed = { x with vatLive := clearRows x.vatLive r.frees, eng := { x.eng with plateRun := runs } } := by
  rw [Cell.freed, hx, settleFrees_append_free hkind runs [] hfree hheld]
  rfl

/-! ### The oldest instruction of the plate queue -/

/-- A cell whose oldest mx instruction leaves the queue and joins the started ones. -/
def Cell.startMx (x : Cell) (rest : List MxInstr) (r : MxRun) : Cell :=
  x.modEng (fun e => { e with plateQ := rest, plateNext := e.plateNext + 1, plateRun := e.plateRun ++ [r] })

theorem mem_mxRun_frees {x : Cell} {m : MxInstr} {ep : Option Word64 × List (Word32 × Bool) × BitVec 256}
    (hkind : m.kind = .vfree) {row : Nat} :
    row ∈ (x.mxRun m ep).frees ↔ m.f.base.toNat ≤ row ∧ row < m.f.base.toNat + m.f.count.toNat := by
  simp only [Cell.mxRun, MxInstr.rows, if_pos hkind, List.mem_map, List.mem_range]
  constructor
  · rintro ⟨i, hi, rfl⟩
    omega
  · exact fun h => ⟨row - m.f.base.toNat, by omega, by omega⟩

section
variable {s : State} {c : CellId} {m : MxInstr} {rest : List MxInstr}
  (hq : (s.cell c).eng.plateQ = m :: rest) (hclear : (s.cell c).eng.vatClear = false)
  (hrestore : (s.cell c).eng.restore = false)
  (hheld : (s.cell c).rangesHeld c s.isLocal m.tag.slot m.tag.seq ((s.cell c).queuedRngs m) = false)
include hq hclear hrestore hheld

/-- PLATE_ISSUE of an instruction without an issue fault. -/
theorem plateIssue_starts (hfault : m.fault (s.cell c) (s.epilogue c m).1 (s.epilogue c m).2.2 = none) :
    exec (.plateIssue c) s =
      .next (s.modCell c (fun y => (y.startMx rest ((s.cell c).mxRun m (s.epilogue c m))).freed)) := by
  rw [exec_plateIssue, execPlateIssue]
  simp [hq, hclear, hrestore, hheld, hfault, Cell.startMx]

/-- PLATE_ISSUE of an instruction with an issue fault (Table 4-8): it goes, with the tiles loaded for it. -/
theorem plateIssue_refuses {code : Byte}
    (hfault : m.fault (s.cell c) (s.epilogue c m).1 (s.epilogue c m).2.2 = some code) :
    exec (.plateIssue c) s = .next ((s.modCell c (fun y => y.modEng (fun e => { e with
      plateQ := rest,
      tiles := e.tiles.filter (fun t => !(((s.cell c).eng.tilesOf m).contains t)) }))).instrFault c m.tag .plate code 0) := by
  rw [exec_plateIssue, execPlateIssue]
  simp [hq, hclear, hrestore, hheld, hfault]

end

/-! ### The B streamer -/

/-- The started instructions once one more tile is loaded for the one at a place. -/
def countTile (runs : List MxRun) : Option Nat → List MxRun
  | some i => lmod runs i (fun r => { r with tiles := r.tiles + 1 })
  | none => runs

/-- The tile of the first started mx.mma that has one to load comes next. -/
theorem nextTile_of_started {x : Cell} {c : CellId} {loc : BitVec 16 → Bool} {before after : List MxRun} {r : MxRun}
    (hruns : x.eng.plateRun = before ++ r :: after) (hmma : r.ins.kind = .mma) (htiles : r.tiles < r.ins.slices)
    (hbefore : ∀ q ∈ before, q.ins.kind = .mma → q.slices ≤ q.tiles) :
    x.nextTile c loc = some (r.ins, r.tiles, some before.length) := by
  have hfind : x.eng.plateRun.findIdx? (fun r => r.ins.kind == .mma && decide (r.tiles < r.slices)) = some before.length := by
    rw [hruns]
    exact findIdx?_append_cons after (fun q hq => by simpa using hbefore q hq) (by simp [hmma, MxRun.slices, htiles])
  have hget : x.eng.plateRun[before.length]? = some r := by simp [hruns]
  simp [Cell.nextTile, hfind, hget]

/-- Where every started mx.mma has its tiles, the first tile of the next mx.mma in the queue comes next. -/
theorem nextTile_of_queued {x : Cell} {c : CellId} {loc : BitVec 16 → Bool} {q1 q2 : List MxInstr} {m : MxInstr}
    (hruns : ∀ q ∈ x.eng.plateRun, q.ins.kind = .mma → q.slices ≤ q.tiles) (hq : x.eng.plateQ = q1 ++ m :: q2)
    (hq1 : ∀ q ∈ q1, q.kind ≠ .mma) (hmma : m.kind = .mma) (htiles : x.eng.tilesOf m = [])
    (hrestore : x.eng.restore = false) (hfault : m.fault x none 0 = none)
    (hheld : x.rangesHeld c loc m.tag.slot m.tag.seq (tileRngs m.tb false) = false) :
    x.nextTile c loc = some (m, 0, none) := by
  have hnone : x.eng.plateRun.findIdx? (fun r => r.ins.kind == .mma && decide (r.tiles < r.slices)) = none :=
    List.findIdx?_eq_none_iff.mpr fun q hq => by simpa using hruns q hq
  have hskip : q1.find? (fun m => m.kind == .mma) = none := List.find?_eq_none.mpr fun q hq => by simpa using hq1 q hq
  have hfind : x.eng.plateQ.find? (fun m => m.kind == .mma) = some m := by
    rw [hq, List.find?_append, hskip, Option.none_or, List.find?_cons, beq_iff_eq.mpr hmma]
  simp only [Cell.nextTile, hnone, hfind, htiles, hrestore, hfault, hheld]
  rfl

/-- STATIONARY_TILE_LOADED of a tile none of whose words is poisoned. -/
theorem stationaryTileLoaded_loads {s : State} {c : CellId} {m : MxInstr} {slice : Nat} {place : Option Nat}
    (hroom : (s.cell c).eng.tiles.length < 2) (hnext : (s.cell c).nextTile c s.isLocal = some (m, slice, place))
    (hgood : ∀ col ∈ (m.statTile (s.cell c).store slice).cols, ∀ q ∈ col, q.poison = false) :
    exec (.stationaryTileLoaded c) s = .next (s.modCell c (fun y => y.modEng (fun e => { e with
      tiles := e.tiles ++ [m.statTile (s.cell c).store slice], plateRun := countTile e.plateRun place }))) := by
  have hbad : (m.statTile (s.cell c).store slice).cols.any (fun l => l.any (·.poison)) = false :=
    List.any_eq_false.mpr fun col hcol => by simpa using hgood col hcol
  rw [exec_stationaryTileLoaded, execStationaryTileLoaded]
  simp only [if_neg (Nat.not_le_of_lt hroom), hnext, hbad, Bool.false_and, Bool.or_false, if_neg Bool.false_ne_true]
  cases place <;> rfl

end Sys2Proof.Machine
end

section
/-!
The plate queue starts its oldest instruction, and the B streamer loads a tile.
-/
namespace Sys2Proof.Machine

/-- With no release among the started instructions, one that is none either just joins them. -/
theorem startMx_freed_of_ne_vfree {x : Cell} {rest : List MxInstr} {r : MxRun}
    (hfree : ∀ q ∈ x.eng.plateRun, q.ins.kind ≠ .vfree) (hr : r.ins.kind ≠ .vfree) :
    (x.startMx rest r).freed = x.startMx rest r := by
  refine freed_of_noFree fun q hq => ?_
  rcases List.mem_append.mp hq with hq | hq
  · exact hfree q hq
  · rw [List.mem_singleton.mp hq]
    exact hr

/-- A release whose rows no one touches any more frees them all and does not stay (R125, R225). -/
theorem startMx_freed_of_vfree {x : Cell} {rest : List MxInstr} {m : MxInstr}
    {ep : Option Word64 × List (Word32 × Bool) × BitVec 256} (hfree : ∀ q ∈ x.eng.plateRun, q.ins.kind ≠ .vfree)
    (hm : m.kind = .vfree)
    (hrows : ∀ row, m.f.base.toNat ≤ row → row < m.f.base.toNat + m.f.count.toNat →
      (∀ q ∈ x.eng.inflight, q.row ≠ row) ∧ ∀ q ∈ x.eng.plateRun, q.pendingRow row = false) :
    (x.startMx rest (x.mxRun m ep)).freed = { x.modEng (fun e => { e with plateQ := rest, plateNext := e.plateNext + 1 }) with
      vatLive := clearRows x.vatLive (x.mxRun m ep).frees } := by
  refine freed_append_free (runs := x.eng.plateRun) rfl hm hfree fun row hrow => ?_
  obtain ⟨hlo, hhi⟩ := (mem_mxRun_frees hm).mp hrow
  obtain ⟨hinfl, hruns⟩ := hrows row hlo hhi
  exact rowHeld_eq_false _ hinfl hruns

/-- The live bits a release clears are those of the rows it names. -/
theorem bit_clearRows_mxRun {x : Cell} {m : MxInstr} {ep : Option Word64 × List (Word32 × Bool) × BitVec 256}
    (hm : m.kind = .vfree) {row : Nat} (hrow : row < 4096) :
    bit (clearRows x.vatLive (x.mxRun m ep).frees) row = (bit x.vatLive row &&
      !(decide (m.f.base.toNat ≤ row) && decide (row < m.f.base.toNat + m.f.count.toNat))) := by
  rw [bit_clearRows hrow, List.contains_eq_mem, ← Bool.decide_and, decide_eq_decide.mpr (mem_mxRun_frees hm)]

/-- Settles O11: PLATE_ISSUE by `plateIssue_starts` and `plateIssue_refuses`, a release by `startMx_freed_of_vfree`, and
the tiles by `stationaryTileLoaded_loads`. Which instruction the B streamer serves is the model's choice (log entry 11). -/
theorem plateQueueStarts : Obligations.PlateQueueStarts := by
  intro s c x eng noFree
  refine ⟨?_, ?_, fun hfull => if_pos hfull, rfl⟩
  · intro m rest hq hclear hrestore ep hheld
    refine ⟨fun hfault => ?_, fun code hfault => plateIssue_refuses hq hclear hrestore hheld hfault⟩
    have hexec := plateIssue_starts hq hclear hrestore hheld hfault
    refine ⟨⟨_, hexec, ?_⟩, fun hkind hno => ⟨x.mxRun m ep, ?_, rfl, rfl, rfl, rfl, rfl, rfl, rfl, rfl, rfl⟩,
      fun hkind hno hrows => ⟨clearRows x.vatLive (x.mxRun m ep).frees, ?_, fun row hrow => bit_clearRows_mxRun hkind hrow⟩⟩
    · dsimp only
      rw [modCell_cell_self]
      exact ⟨rfl, rfl, rfl, fun d hd => modCell_cell_ne _ _ _ _ (Ne.symm hd), rfl⟩
    · exact hexec.trans (congrArg Host.Outcome.next (modCell_congr (startMx_freed_of_ne_vfree hno hkind)))
    · exact hexec.trans (congrArg Host.Outcome.next (modCell_congr (startMx_freed_of_vfree hno hkind hrows)))
  · intro m slice runs hroom hwhich tb n hgood
    obtain ⟨place, hnext, hcount⟩ : ∃ place, x.nextTile c s.isLocal = some (m, slice, place) ∧
        countTile x.eng.plateRun place = runs := by
      rcases hwhich with ⟨before, r, after, hruns, rfl, rfl, hmma, hslice, hbefore, rfl⟩ |
        ⟨q1, q2, hq, hq1, hmma, rfl, htiles, hrestore, hfault, hheld, hall, rfl⟩
      · exact ⟨some before.length, nextTile_of_started hruns hmma hslice hbefore,
          by rw [hruns, countTile, lmod_append_cons]⟩
      · exact ⟨none, nextTile_of_queued hall hq hq1 hmma htiles hrestore hfault hheld, rfl⟩
    have hcols : ∀ col ∈ (m.statTile x.store slice).cols, ∀ q ∈ col, q.poison = false := fun col hcol q hq => by
      obtain ⟨j, hj, rfl⟩ := List.mem_map.mp hcol
      obtain ⟨k, hk, rfl⟩ := List.mem_map.mp hq
      exact hgood j (List.mem_range.mp hj) k (List.mem_range.mp hk)
    refine ⟨m.statTile x.store slice, ?_, rfl, rfl, rfl, rfl⟩
    rw [stationaryTileLoaded_loads hroom hnext hcols, ← hcount]
    exact congrArg Host.Outcome.next (modCell_congr rfl)

end Sys2Proof.Machine
end

section
/-!
The dispatch of dm and cl instructions to the mover queue and the collective queue.
-/
namespace Sys2Proof.Machine

section
variable {s : State} {a : At} {p : Pred} {f : FmtQ} {op : Byte} {ut cp : Bool}

/-- A dm instruction with good descriptors and room joins the mover queue. -/
theorem dmDispatch_joins (h : s.takesWord ⟨a, p, 4, op, ⟨true, true⟩, if f.sov = 1 then [f.so] else []⟩)
    (hroom : (s.cell a.cell).eng.moverQ.length < 32) (hq : qdescGood (s.qreg a f.q) = true)
    (ht : ut = true → tileGood (s.treg a f.t) = true) (hq2 : cp = true → qdescGood (s.qreg a (bfld f.fn 24 3)) = true) :
    s.dmDispatch a p f op ut cp = .next (s.queued a (fun e => { e with moverQ := e.moverQ ++
      [⟨s.dispatchTag a 4 op, op, f, s.qreg a f.q, if cp then s.qreg a (bfld f.fn 24 3) else 0,
        if ut then s.treg a f.t else 0, if f.sov = 1 then s.sreg a f.so else 0⟩] })) := by
  have hcopy : (cp && !(qdescGood (if cp then s.qreg a (bfld f.fn 24 3) else 0))) = false := by
    cases cp <;> simp [hq2]
  have htile : (ut && !(tileGood (if ut then s.treg a f.t else 0))) = false := by
    cases ut <;> simp [ht]
  rw [dmDispatch_takes h]
  dsimp only
  rw [hq, hcopy, htile, if_neg (by decide), if_neg (Nat.not_le_of_lt hroom)]

/-- A dm instruction whose queue descriptor fails R193 takes TILE_DESC. -/
theorem dmDispatch_refuses (h : s.takesWord ⟨a, p, 4, op, ⟨true, true⟩, if f.sov = 1 then [f.so] else []⟩)
    (hq : qdescGood (s.qreg a f.q) = false) : s.dmDispatch a p f op ut cp = .next (s.faulted a 4 op 0x03 0) := by
  rw [dmDispatch_takes h]
  simp [hq]

/-- A cl instruction with a good descriptor and room joins the collective queue. -/
theorem clDispatch_joins (h : s.takesWord ⟨a, p, 6, op, ⟨true, true⟩, []⟩)
    (hroom : (s.cell a.cell).eng.clQ.length < 16) (hq : qdescGood (s.qreg a f.q) = true) :
    s.clDispatch a p f op =
      .next (s.queued a (fun e => { e with clQ := e.clQ ++ [⟨s.dispatchTag a 6 op, op, f, s.qreg a f.q⟩] })) := by
  rw [clDispatch_takes h, hq, if_neg (by decide), if_neg (Nat.not_le_of_lt hroom)]

/-- A cl instruction whose descriptor fails R193 takes TILE_DESC. -/
theorem clDispatch_refuses (h : s.takesWord ⟨a, p, 6, op, ⟨true, true⟩, []⟩) (hq : qdescGood (s.qreg a f.q) = false) :
    s.clDispatch a p f op = .next (s.faulted a 6 op 0x03 0) := by
  rw [clDispatch_takes h, hq, if_pos (by decide)]

end

/-- Settles O10: each instruction goes through the dispatch of its class, by `dmDispatch_joins`, `clDispatch_joins` and
their refusals. -/
theorem moverAndCollectiveDispatch : Obligations.MoverAndCollectiveDispatch := by
  intro s a p f e so mv cl
  refine ⟨fun hroom hq ht => ⟨fun h => ?_, fun h => ?_⟩, fun hroom hq hq2 h => ?_, fun hroom hq => ?_, fun hq => ?_⟩
  · exact dmDispatch_joins (takes_word h rfl) hroom hq (fun _ => ht) nofun
  · exact dmDispatch_joins (takes_word h rfl) hroom hq (fun _ => ht) nofun
  · exact dmDispatch_joins (takes_word h rfl) hroom hq nofun (fun _ => hq2)
  · and_intros <;> exact fun h => clDispatch_joins (takes_word h rfl) hroom hq
  · refine ⟨?dmGet, ?dmPut, ?dmCopy, ?cl⟩
    case cl => and_intros <;> exact fun h => clDispatch_refuses (takes_word h rfl) hq
    all_goals exact fun h => dmDispatch_refuses (takes_word h rfl) hq

end Sys2Proof.Machine
end

section
/-!
The mover and the collective queue issue: the startable transfer of least rank, and the oldest cl instruction.
-/
namespace Sys2Proof.Machine

/-! ### The mover queue (R236, R237) -/

/-- The best entry of a list is one of it. -/
theorem bestRank_mem : ∀ {l : List (Nat × DmInstr)} {p : Nat × DmInstr}, bestRank l = some p → p ∈ l
  | q :: l, p, h => by
    rw [bestRank] at h
    split at h
    · exact Option.some.inj h ▸ List.mem_cons_self
    · next r hr =>
      split at h
      · exact Option.some.inj h ▸ List.mem_cons_of_mem q (bestRank_mem hr)
      · exact Option.some.inj h ▸ List.mem_cons_self

/-- The first entry of least rank is the best one. -/
theorem bestRank_append_cons {p : Nat × DmInstr} {l2 : List (Nat × DmInstr)} (hl2 : ∀ q ∈ l2, p.2.rank ≤ q.2.rank) :
    ∀ {l1 : List (Nat × DmInstr)}, (∀ q ∈ l1, p.2.rank < q.2.rank) → bestRank (l1 ++ p :: l2) = some p
  | [], _ => by
    rw [List.nil_append, bestRank]
    split
    · rfl
    · next q hq => exact if_neg (Nat.not_lt.mpr (hl2 q (bestRank_mem hq)))
  | r :: l1, hl1 => by
    obtain ⟨hr, hl1⟩ := List.forall_mem_cons.mp hl1
    rw [List.cons_append, bestRank, bestRank_append_cons hl2 hl1]
    exact if_pos hr

/-- The lowest number that passes a test is found. -/
theorem find?_allFin {n : Nat} {p : Fin n → Bool} {i : Fin n} (hi : p i = true) (hlow : ∀ k, k < i → p k = false) :
    (allFin n).find? p = some i := by
  refine List.find?_eq_some_iff_getElem.mpr ⟨hi, i.val, by simp [allFin], by simp [allFin], fun k hk => ?_⟩
  simp [allFin, hlow ⟨k, hk.trans i.isLt⟩ hk]

/-- What may start stands in the queue, at the place given. -/
theorem dmReady_getElem? {x : Cell} {s : State} {c : CellId} {j : Nat} {m : DmInstr} (h : (j, m) ∈ x.dmReady s c) :
    x.eng.moverQ[j]? = some m := by
  obtain ⟨q, hq, hpair⟩ := List.mem_map.mp h
  obtain ⟨rfl, rfl⟩ := Prod.ext_iff.mp hpair
  exact List.mem_zipIdx_iff_getElem?.mp (List.mem_of_mem_filter hq)

section
variable {s : State} {c : CellId} {i : Fin 8} {l1 l2 : List (Nat × DmInstr)} {j : Nat} {m : DmInstr}
  (hfree : vget (s.cell c).eng.xfers i = none) (hlow : ∀ k, k < i → (vget (s.cell c).eng.xfers k).isSome = true)
  (hready : (s.cell c).dmReady s c = l1 ++ (j, m) :: l2) (hl1 : ∀ q ∈ l1, m.rank < q.2.rank)
  (hl2 : ∀ q ∈ l2, m.rank ≤ q.2.rank)
include hfree hlow hready hl1 hl2

/-- MOVER_ISSUE takes the first startable transfer of least rank to the lowest free entry. -/
theorem moverIssue_takes : (allFin 8).find? (fun i => (vget (s.cell c).eng.xfers i).isNone) = some i ∧
    bestRank ((s.cell c).dmReady s c) = some (j, m) :=
  ⟨find?_allFin (Option.isNone_iff_eq_none.mpr hfree) fun k hk => Option.isNone_eq_false_iff.mpr (hlow k hk),
    hready ▸ bestRank_append_cons (p := (j, m)) hl2 hl1⟩

/-- Without an issue fault it starts there. -/
theorem moverIssue_starts (hfault : m.fault s c = none) : exec (.moverIssue c) s =
    .next (((s.modCell c (fun y => y.modEng (fun e => { e with moverQ := e.moverQ.eraseIdx j }))).setXfer c i
      (some ⟨m, 0, 0, [], 0, 0, 0, false, false⟩)).dmStart c i m) := by
  obtain ⟨hentry, hbest⟩ := moverIssue_takes hfree hlow hready hl1 hl2
  rw [exec_moverIssue, execMoverIssue]
  simp only [hentry, hbest, hfault]

/-- With one (Table 7-9) it goes. -/
theorem moverIssue_refuses {code : Byte} (hfault : m.fault s c = some code) : exec (.moverIssue c) s =
    .next ((s.modCell c (fun y => y.modEng (fun e => { e with moverQ := e.moverQ.eraseIdx j }))).instrFault c m.tag .mover
      code 0) := by
  obtain ⟨hentry, hbest⟩ := moverIssue_takes hfree hlow hready hl1 hl2
  rw [exec_moverIssue, execMoverIssue]
  simp only [hentry, hbest, hfault]

end

/-- With nothing startable or no free entry MOVER_ISSUE changes nothing. -/
theorem moverIssue_waits {s : State} {c : CellId}
    (h : (s.cell c).dmReady s c = [] ∨ ∀ i, (vget (s.cell c).eng.xfers i).isSome = true) :
    exec (.moverIssue c) s = .next s := by
  rw [exec_moverIssue, execMoverIssue]
  rcases h with hnone | hfull
  · have hbest : bestRank ((s.cell c).dmReady s c) = none := by rw [hnone, bestRank]
    simp only [hbest]
    cases (allFin 8).find? (fun i => (vget (s.cell c).eng.xfers i).isNone) <;> rfl
  · have hentry : (allFin 8).find? (fun i => (vget (s.cell c).eng.xfers i).isNone) = none :=
      List.find?_eq_none.mpr fun k _ => by rw [Option.isNone_eq_false_iff.mpr (hfull k)]; exact Bool.false_ne_true
    simp only [hentry]

/-! ### The collective queue (R240) -/

/-- A cell whose oldest cl instruction leaves the queue and becomes outstanding. -/
def Cell.issueCl (x : Cell) (rest : List ClInstr) (m : ClInstr) : Cell :=
  x.modEng (fun e => { e with clQ := rest, clPending := e.clPending ++ [(m.tag.slot, m.tag.seq, false)] })

section
variable {s : State} {c : CellId} {m : ClInstr} {rest : List ClInstr} (hq : (s.cell c).eng.clQ = m :: rest)
  (hgoes : (s.cell c).eng.restore = false ∨ m.tag.slot = 0)
include hq hgoes

/-- The oldest cl instruction leaves the queue where the restore mode does not hold it (R144). -/
theorem collectiveQueueIssue_takes : (s.cell c).eng.clQ.find? (fun m => !((s.cell c).bubbleHeld m.tag.slot)) = some m ∧
    s.modCell c (fun x => x.modEng (fun e => { e with clQ := e.clQ.erase m })) =
      s.modCell c (fun x => x.modEng (fun e => { e with clQ := rest })) := by
  have hheld : (s.cell c).bubbleHeld m.tag.slot = false := by
    rcases hgoes with h | h <;> simp [Cell.bubbleHeld, h]
  refine ⟨by rw [hq, List.find?_cons, hheld]; rfl, modCell_congr ?_⟩
  dsimp only [Cell.modEng]
  rw [hq, List.erase_cons_head]

/-- Without an issue fault it is outstanding, and in the inbox of the fabric die that serves its compute die. -/
theorem collectiveQueueIssue_goes (hfault : m.fault s = none) : exec (.collectiveQueueIssue c) s =
    .next { s.modCell c (·.issueCl rest m) with
      coll := { s.coll with inbox := vmod s.coll.inbox (fabOf (cellEndpoint c)) (fun l => l ++ [⟨c, m⟩]) } } := by
  obtain ⟨hfind, hrest⟩ := collectiveQueueIssue_takes hq hgoes
  rw [exec_collectiveQueueIssue, execCollectiveQueueIssue]
  simp only [hfind, hrest, hfault, modCell_modCell]
  rfl

/-- With one (Table 7-12) it goes. -/
theorem collectiveQueueIssue_refuses {code : Byte} (hfault : m.fault s = some code) : exec (.collectiveQueueIssue c) s =
    .next ((s.modCell c (fun x => x.modEng (fun e => { e with clQ := rest }))).instrFault c m.tag .coll code 0) := by
  obtain ⟨hfind, hrest⟩ := collectiveQueueIssue_takes hq hgoes
  rw [exec_collectiveQueueIssue, execCollectiveQueueIssue]
  simp only [hfind, hrest, hfault]

end

/-- Settles O18: MOVER_ISSUE by `moverIssue_starts`, `moverIssue_refuses` and `moverIssue_waits`, COLLECTIVE_QUEUE_ISSUE
by `collectiveQueueIssue_goes` and `collectiveQueueIssue_refuses`. -/
theorem moverAndCollectiveIssue : Obligations.MoverAndCollectiveIssue := by
  intro s c x
  refine ⟨fun i l1 l2 j m hfree hlow hready hl1 hl2 => ⟨moverIssue_starts hfree hlow hready hl1 hl2,
      fun code => moverIssue_refuses hfree hlow hready hl1 hl2⟩, moverIssue_waits, fun j m => dmReady_getElem?, ?_⟩
  intro m rest hq hgoes
  refine ⟨fun hfault => ⟨_, collectiveQueueIssue_goes hq hgoes hfault, rfl, fun d hd => ?_, ?_, rfl, ?_, fun f hf => ?_⟩,
    fun code => collectiveQueueIssue_refuses hq hgoes⟩
  · exact modCell_cell_ne s c d (·.issueCl rest m) (Ne.symm hd)
  · exact modCell_cell_self s c (·.issueCl rest m)
  · exact vget_vmod_self ..
  · exact vget_vmod_ne _ _ _ _ (Ne.symm hf)

end Sys2Proof.Machine
end

section
/-!
The vector queue: which instruction it issues next, and what becomes of that instruction.
-/
namespace Sys2Proof.Machine

/-! ### The next instruction (R205) -/

/-- Entries of slots already met are passed over. -/
theorem firstHead_seen {α : Type} {slot : α → Fin 2} {ok : α → Bool} {m : α} {after : List α} :
    ∀ {first : List α} {seen : List (Fin 2)}, (∀ q ∈ first, slot q ∈ seen ∧ slot q ≠ slot m) → slot m ∉ seen →
      ok m = true → firstHead slot ok seen (first ++ m :: after) = some first.length
  | [], seen, _, hm, hok => by
    rw [List.nil_append, firstHead, hok, if_pos (by simp [hm])]; rfl
  | q :: first, seen, hfirst, hm, hok => by
    obtain ⟨⟨hq, hne⟩, hrest⟩ := List.forall_mem_cons.mp hfirst
    have hnext := firstHead_seen (after := after) (seen := slot q :: seen)
      (fun r hr => ⟨List.mem_cons_of_mem _ (hrest r hr).1, (hrest r hr).2⟩) (by simp [hm, Ne.symm hne]) hok
    rw [List.cons_append, firstHead, hnext, if_neg (by simp [hq])]; rfl

/-- The oldest of a slot goes where the other slot's oldest, before it, is not ready. -/
theorem firstHead_append_cons {α : Type} {slot : α → Fin 2} {ok : α → Bool} {first after : List α} {m : α}
    (hslots : ∀ q ∈ first, slot q ≠ slot m) (hheld : ∀ q, first.head? = some q → ok q = false) (hok : ok m = true) :
    firstHead slot ok [] (first ++ m :: after) = some first.length := by
  cases first with
  | nil => exact firstHead_seen nofun nofun hok
  | cons q first =>
    obtain ⟨hq, hrest⟩ := List.forall_mem_cons.mp hslots
    have hnext := firstHead_seen (after := after) (seen := [slot q])
      (fun r hr => ⟨by rw [List.mem_singleton]; have := hrest r hr; omega, hrest r hr⟩) (by simpa using Ne.symm hq) hok
    rw [List.cons_append, firstHead, hnext, hheld q rfl, if_neg (by simp)]; rfl

/-- Where none is ready none goes. -/
theorem firstHead_none {α : Type} {slot : α → Fin 2} {ok : α → Bool} : ∀ {l : List α} {seen : List (Fin 2)},
    (∀ q ∈ l, ok q = false) → firstHead slot ok seen l = none
  | [], _, _ => rfl
  | q :: l, seen, h => by
    obtain ⟨hq, hl⟩ := List.forall_mem_cons.mp h
    rw [firstHead, hq, firstHead_none hl, Bool.and_false, if_neg (by decide)]; rfl

/-- Where every instruction is held nothing issues. -/
theorem vectorIssue_waits {s : State} {c : CellId} (h : ∀ q ∈ (s.cell c).eng.vecQ, (s.cell c).vecHeld c s.isLocal q = true) :
    exec (.vectorIssue c) s = .next s := by
  have hnone : (s.cell c).vecNext c s.isLocal = none := firstHead_none fun q hq => by rw [h q hq]; rfl
  rw [exec_vectorIssue, execVectorIssue]
  simp only [hnone]

/-- An instruction that issues leaves the vector queue. -/
def State.vecTaken (s : State) (c : CellId) (rest : List VxInstr) : State :=
  s.modCell c (fun y => y.modEng (fun e => { e with vecQ := rest }))

section
variable {s : State} {c : CellId} {first after : List VxInstr} {m : VxInstr}
  (hq : (s.cell c).eng.vecQ = first ++ m :: after) (hslots : ∀ q ∈ first, q.tag.slot ≠ m.tag.slot)
  (hheld : ∀ q, first.head? = some q → (s.cell c).vecHeld c s.isLocal q = true)
  (hgoes : (s.cell c).vecHeld c s.isLocal m = false)
include hq hslots hheld hgoes

/-- VECTOR_ISSUE takes the oldest instruction of a slot, the older where neither slot's is held. -/
theorem vectorIssue_takes : exec (.vectorIssue c) s =
    match m.fault s c with
    | some code => .next ((s.vecTaken c (first ++ after)).instrFault c m.tag .vector code 0)
    | none =>
      match m.fun_ with
      | .optstep => .next ((s.vecTaken c (first ++ after)).startOpt c m)
      | .rmode => .next ((s.vecTaken c (first ++ after)).startRmode c m)
      | .gskip => .next (s.vecTaken c (first ++ after))
      | _ => .next { (s.vecTaken c (first ++ after)).modCell c (fun y => y.modEng (fun e => { e with
          vecRun := some (m.start s c) })) with freeCtr := s.freeCtr + 1536 } := by
  have hnext : (s.cell c).vecNext c s.isLocal = some first.length := by
    rw [Cell.vecNext, hq]
    exact firstHead_append_cons hslots (fun q hfirst => by rw [hheld q hfirst]; rfl) (by rw [hgoes]; rfl)
  have hget : (s.cell c).eng.vecQ[first.length]? = some m := by rw [hq]; simp
  have hrest : s.modCell c (fun y => y.modEng (fun e => { e with vecQ := e.vecQ.eraseIdx first.length })) =
      s.vecTaken c (first ++ after) := by
    refine modCell_congr ?_
    dsimp only [Cell.modEng]
    rw [hq, eraseIdx_append_cons]
  rw [exec_vectorIssue, execVectorIssue]
  simp only [hnext, hget, hrest] <;> rfl

end

/-! ### vx.optstep and vx.rmode leave the queue (R144, R157, R159) -/

/-- vx.optstep retires at once: DONE with a further bit of OPT_STATUS. -/
def CellRegs.optDone (r : CellRegs) (k : Nat) : CellRegs := { r with optStatus := setBit (setBit r.optStatus 0 true) k true }

/-- c₁ or c₂ of a descriptor (R158) for an update count: 1 where its mode asks for no bias correction. -/
def optCorr (d : List Byte) (t o : Nat) : Word32 :=
  if bit ((d[0x70]?).getD 0) 1 && !(bit ((d[0x70]?).getD 0) 0) then biasCorr (BitVec.ofNat 32 (field d o 4)) t
  else 0x3F800000

theorem optCorr_uncorrected {d : List Byte} (h : bit ((d[0x70]?).getD 0) 1 = false) (t o : Nat) :
    optCorr d t o = 0x3F800000 := by
  rw [optCorr, h]; rfl

/-- A vx.optstep that starts, at its first block. -/
def VxInstr.optStart (m : VxInstr) (d : List Byte) (t : Nat) : OptRun :=
  ⟨m, d, 0, optCorr d t 0x54, optCorr d t 0x5C, false, false, []⟩

section
variable {s : State} {c : CellId} {m : VxInstr} {p : PartId}

theorem startOpt_refuses {code : Byte} (h : optDescFault (s.cell c) m.tag.slot (fld m.imm 0 23) = some code) :
    s.startOpt c m = s.instrFault c m.tag .vector code 0 := by
  simp only [State.startOpt, h]

variable (hp : s.partOf c = some p) (hdesc : optDescFault (s.cell c) m.tag.slot (fld m.imm 0 23) = none)
include hp hdesc

theorem startOpt_aborted (hphase : (s.stepOf p).phase = .aborted) :
    s.startOpt c m = s.modCell c (fun y => y.modRegs (·.optDone 2)) := by
  simp only [State.startOpt, hdesc, hp, hphase, if_pos] <;> rfl

theorem startOpt_skipped (hphase : (s.stepOf p).phase ≠ .aborted) (hcommit : (s.stepOf p).commit = false) :
    s.startOpt c m = s.modCell c (fun y => y.modRegs (·.optDone 1)) := by
  simp only [State.startOpt, hdesc, hp, hphase, hcommit, if_neg, if_pos, not_false_eq_true] <;> rfl

/-- Under a commit verdict it starts, and what its staging window then holds is left undefined. -/
theorem startOpt_starts (hphase : (s.stepOf p).phase ≠ .aborted) (hcommit : (s.stepOf p).commit = true) :
    let d := (s.cell c).store.read (fld m.imm 0 23) 128
    s.startOpt c m = (s.modCell c (fun y => y.modEng (fun e => { e with
      optRun := some (m.optStart d (s.countAtFix p + 1).toNat) }))).freeStore c (field d 0x48 8) (2 ^ 20) := by
  simp only [State.startOpt, hdesc, hp, hphase, hcommit, if_neg, not_false_eq_true, Bool.true_eq_false] <;> rfl

end

section
variable {s : State} {c : CellId} {m : VxInstr}

theorem startRmode_leaves (hleave : bit m.imm 0 = false) (hmode : (s.cell c).eng.restore = true) :
    s.startRmode c m = s.modCell c (fun y => (y.modEng (fun e => { e with restore := false })).clearVat) := by
  simp [State.startRmode, hleave, hmode]

theorem startRmode_enters (henter : bit m.imm 0 = true) (hlive : (s.cell c).vatAnyLive = false) :
    s.startRmode c m = s.modCell c (fun y => y.modEng (fun e => { e with restore := true })) := by
  simp [State.startRmode, henter, hlive]

theorem startRmode_refuses (henter : bit m.imm 0 = true) (hlive : (s.cell c).vatAnyLive = true) :
    s.startRmode c m = s.instrFault c m.tag .vector 0x09 0 := by
  simp [State.startRmode, henter, hlive]

end

theorem vecTaken_cell (s : State) (c : CellId) (rest : List VxInstr) :
    (s.vecTaken c rest).cell c = (s.cell c).modEng (fun e => { e with vecQ := rest }) := modCell_cell_self ..

/-- Open bytes in a cell store leave the rest of its cell. -/
theorem freeStore_cell (s : State) (c : CellId) (a n : Nat) : (s.freeStore c a n).cell c =
    { s.cell c with store := ((s.cell c).store.zeroRange a n).putBytes a (s.freeBytes n) } :=
  modCell_cell_self s c (fun x => { x with store := (x.store.zeroRange a n).putBytes a (s.freeBytes n) })

/-- A vx.optstep that starts leaves of its cell's engines and registers all but its run. -/
theorem startOpt_cell (s : State) (c : CellId) (rest : List VxInstr) (r : OptRun) (a n : Nat) :
    let t := ((s.vecTaken c rest).modCell c (fun y => y.modEng (fun e => { e with optRun := some r }))).freeStore c a n
    (t.cell c).eng = { (s.cell c).eng with vecQ := rest, optRun := some r } ∧ (t.cell c).regs = (s.cell c).regs := by
  dsimp only
  rw [freeStore_cell, modCell_cell_self, vecTaken_cell]
  exact ⟨rfl, rfl⟩

/-- Settles O14: VECTOR_ISSUE by `vectorIssue_takes` and what vx.optstep and vx.rmode do as they leave the queue, or
`vectorIssue_waits`; a result waiting by definition. That register operands are read as the instruction leaves the queue
is the model's choice (log entry 23). -/
theorem vectorQueueIssues : Obligations.VectorQueueIssues := by
  intro s c x
  refine ⟨?_, vectorIssue_waits, fun r rest hr => ?_⟩
  · intro first m after hq hslots hheld hgoes rest u
    have hexec := vectorIssue_takes hq hslots hheld hgoes
    have hcell : u.cell c = x.modEng (fun e => { e with vecQ := rest }) := vecTaken_cell s c rest
    refine ⟨fun code hfault => by rw [hexec, hfault]; rfl, fun hfault => ?_⟩
    rw [hfault] at hexec
    refine ⟨fun hopt hrmode hgskip => ?_, fun hgskip => by rw [hexec, hgskip]; rfl, fun hrmode henter hlive => ?_,
      fun hrmode henter hlive => ?_, fun hrmode hleave hmode => ?_, fun hopt p hp => ?_⟩
    · rw [hexec]
      cases hfun : m.fun_ <;> first | contradiction | rfl
    · rw [hexec, hrmode]
      exact congrArg Host.Outcome.next (startRmode_refuses henter (hcell ▸ hlive))
    · rw [hexec, hrmode]
      exact congrArg Host.Outcome.next (startRmode_enters henter (hcell ▸ hlive))
    · rw [hexec, hrmode]
      exact congrArg Host.Outcome.next (startRmode_leaves hleave (hcell ▸ hmode))
    · intro off done
      rw [hopt] at hexec
      refine ⟨fun code hdesc => ?_, fun hdesc => ⟨fun hphase => ?_, fun hphase hcommit => ?_, fun hphase hcommit => ?_⟩⟩
      · exact hexec.trans (congrArg Host.Outcome.next (startOpt_refuses (hcell ▸ hdesc)))
      · exact hexec.trans (congrArg Host.Outcome.next (startOpt_aborted hp (hcell ▸ hdesc) hphase))
      · exact hexec.trans (congrArg Host.Outcome.next (startOpt_skipped hp (hcell ▸ hdesc) hphase hcommit))
      · have hstart := startOpt_starts (m := m) (s := u) hp (hcell ▸ hdesc) hphase hcommit
        rw [hcell] at hstart
        obtain ⟨heng, hregs⟩ := startOpt_cell s c rest _ _ _
        refine ⟨_, hexec.trans (congrArg Host.Outcome.next hstart), _, congrArg Engines.optRun heng, rfl, rfl, rfl, rfl,
          congrArg Engines.vecQ heng, congrArg CellRegs.optStatus hregs, fun hmode =>
            ⟨optCorr_uncorrected hmode .., optCorr_uncorrected hmode ..⟩⟩
  · rw [exec_summaryResult, execSummaryResult, hr]

end Sys2Proof.Machine
end

section
/-!
What a vx function gives for one element (Table 5-1).
-/
namespace Sys2Proof.Machine

/-! ### Rounding (R84, R85, R141) -/

/-- The codes of RM; SR takes the low 16 bits of the grain word. -/
theorem rmOf_eq (rm : BitVec 2) (w : Word32) :
    rmOf rm w = if rm = 0 then .rne else if rm = 1 then .rtz else .sr (bfld w 0 16) := by
  unfold rmOf
  split
  · next h => rw [if_pos (BitVec.eq_of_toNat_eq h)]
  · next h =>
    obtain rfl : rm = 1 := BitVec.eq_of_toNat_eq h
    rfl
  · next h0 h1 => rw [if_neg fun h => h0 (congrArg BitVec.toNat h), if_neg fun h => h1 (congrArg BitVec.toNat h)]

/-- The functions that round an exact function of the elements of their sources. -/
def VxFn.pointwise : VxFn → Bool
  | .grain | .cmp | .sel | .cvt | .segred | .bcast => false
  | _ => true

section
variable {r : VxRun} {m : ProtMem} {e : Nat}

theorem exact_of_pointwise (h : r.ins.fun_.pointwise = true) :
    r.exact m e = r.ins.fun_.exact (r.value m 0 e) (r.value m 1 e) (r.value m 2 e) := by
  unfold VxRun.exact
  split
  · next hf => rw [hf] at h; contradiction
  · next hf => rw [hf] at h; contradiction
  · next hf => rw [hf] at h; contradiction
  · rfl

/-- Their code is written. -/
theorem plain_of_pointwise (h : r.ins.fun_.pointwise = true) : r.plain m e = (r.plainCode m e, 0, false, false) := by
  have hcopy : r.ins.copies = false := by
    rw [VxInstr.copies, beq_eq_false_iff_ne.mpr fun hf => by rw [hf] at h; contradiction, Bool.false_and]
  unfold VxRun.plain
  split
  · next hf => rw [hf] at h; contradiction
  · next hf => rw [hf] at h; contradiction
  · next hf => rw [hf] at h; contradiction
  · exact if_neg (Bool.eq_false_iff.mp hcopy)

theorem plainCode_f32 (hd : r.ins.dstFmt = .f32) :
    r.plainCode m e = F32.enc (if r.ins.fun_ = .cvt then r.round e else .rne) (r.exact m e) := by
  simp only [VxRun.plainCode, hd]

theorem plainCode_w16 (hd : r.ins.dstFmt = .w16) : r.plainCode m e =
    W16.enc (r.round e) (if r.ins.fun_.wide && !r.ins.vi then r.exact m e else F32.rnd (r.exact m e)) := by
  simp only [VxRun.plainCode, hd, VxRun.f32Result]

theorem plainCode_h16 (hd : r.ins.dstFmt = .h16) : r.plainCode m e =
    H16.enc (r.round e) (if r.ins.fun_.wide && !r.ins.vi then r.exact m e else F32.rnd (r.exact m e)) := by
  simp only [VxRun.plainCode, hd, VxRun.f32Result]

/-! ### Conversions (R228) -/

theorem copies_iff (hf : r.ins.fun_ = .cvt) : r.ins.copies = true ↔ r.ins.srcFmt 0 = r.ins.dstFmt := by
  simp [VxInstr.copies, hf]

theorem plain_cvt_same (hf : r.ins.fun_ = .cvt) (h : r.ins.srcFmt 0 = r.ins.dstFmt) :
    r.plain m e = ((r.read m 0 e).code, (r.read m 0 e).second, r.wordsBad m e) := by
  simp only [VxRun.plain, hf, (copies_iff hf).mpr h, if_true]

theorem plain_cvt_ne (hf : r.ins.fun_ = .cvt) (h : r.ins.srcFmt 0 ≠ r.ins.dstFmt) :
    r.plain m e = (r.plainCode m e, 0, false, false) := by
  have hcopy : r.ins.copies = false := Bool.eq_false_iff.mpr (mt (copies_iff hf).mp h)
  simp only [VxRun.plain, hf, hcopy, Bool.false_eq_true, if_false]

theorem exact_cvt (hf : r.ins.fun_ = .cvt) : r.exact m e = r.value m 0 e := by
  simp only [VxRun.exact, hf, VxFn.exact]

/-! ### vx.sel (R230) -/

theorem exact_sel (hf : r.ins.fun_ = .sel) : r.exact m e = r.value m (r.chosen m e) e := by
  simp only [VxRun.exact, hf]

theorem plain_sel (hf : r.ins.fun_ = .sel) : (r.plain m e).1 =
    if r.ins.selRaw (r.chosen m e) then (r.read m (r.chosen m e) e).code else r.plainCode m e := by
  simp only [VxRun.plain, hf]

/-- A source of the destination's format, which is without blocks, is written bit for bit. -/
theorem selRaw_same {k : Fin 3} (h : r.ins.srcFmt k = r.ins.dstFmt) (hblock : r.ins.dstFmt.block = 0) :
    r.ins.selRaw k = true := by
  simp [VxInstr.selRaw, h, hblock]

/-- A source of another format is converted to an F32 destination. -/
theorem selRaw_f32 {k : Fin 3} (h : r.ins.srcFmt k ≠ .f32) (hd : r.ins.dstFmt = .f32) : r.ins.selRaw k = false := by
  have hbroadcast : (match (r.ins.src k).1 with | .scalar _ => Elem.f32 == .u32 || Elem.f32 == .u8 | _ => false) = false := by
    split <;> rfl
  rw [VxInstr.selRaw, hd, beq_eq_false_iff_ne.mpr h]
  exact hbroadcast

theorem plain_sel_same (hf : r.ins.fun_ = .sel) (h : r.ins.srcFmt (r.chosen m e) = r.ins.dstFmt)
    (hblock : r.ins.dstFmt.block = 0) : (r.plain m e).1 = (r.read m (r.chosen m e) e).code :=
  (plain_sel hf).trans (if_pos (selRaw_same h hblock))

theorem plain_sel_f32 (hf : r.ins.fun_ = .sel) (h : r.ins.srcFmt (r.chosen m e) ≠ .f32) (hd : r.ins.dstFmt = .f32) :
    (r.plain m e).1 = F32.enc .rne (r.value m (r.chosen m e) e) := by
  rw [plain_sel hf, selRaw_f32 h hd, if_neg Bool.false_ne_true, plainCode_f32 hd, exact_sel hf, hf, if_neg (by decide)]

/-! ### vx.cmp and vx.grain -/

theorem plain_cmp (hf : r.ins.fun_ = .cmp) (hgood : r.poisoned m e = false) :
    r.plain m e = (r.cmpBits m e, 0, false, false) := by
  simp only [VxRun.plain, hf, hgood, Bool.false_eq_true, if_false]

theorem plain_cmp_poisoned_w16 (hf : r.ins.fun_ = .cmp) (hbad : r.poisoned m e = true) (hd : r.ins.dstFmt = .w16) :
    r.plain m e = (W16.enc .rne .nan, 0, false, false) := by
  simp only [VxRun.plain, hf, hbad, hd, if_true]

theorem plain_cmp_poisoned_u32 (hf : r.ins.fun_ = .cmp) (hbad : r.poisoned m e = true) (hd : r.ins.dstFmt = .u32) :
    r.plain m e = (r.cmpBits m e, 0, true, false) := by
  simp only [VxRun.plain, hf, hbad, hd, if_true]

theorem plain_grain (hf : r.ins.fun_ = .grain) :
    (r.plain m e).1 = grainCode r.ins.dstFmt (r.ins.draw.word (e % r.lanes) (e / r.lanes)) := by
  simp only [VxRun.plain, hf]

end

/-- Settles O15: the functions of Table 5-1 by `plain_of_pointwise` and the codes of each destination format, then
conversions, vx.sel, vx.cmp and vx.grain. That vx.sel converts a source of another format is the model's choice (log
entry 62), how RM 2 draws is log entry 20. -/
theorem vectorElementResults : Obligations.VectorElementResults := by
  intro r m e a b d w rd f32
  have hround : r.round e = rd := rmOf_eq ..
  have rounds : ∀ f : VxFn, f.pointwise = true → r.ins.fun_ = f → f32 (f.exact a b d) := by
    rintro f hpoint rfl
    have hplain := plain_of_pointwise (m := m) (e := e) hpoint
    have hexact : r.exact m e = r.ins.fun_.exact a b d := exact_of_pointwise hpoint
    refine ⟨fun hd => ?_, fun hd => ?_, fun hd => ?_⟩
    · rw [hplain, plainCode_f32 hd, hexact, if_neg fun hf => by rw [hf] at hpoint; contradiction]
    · rw [hplain, ← hexact, ← hround]
      exact plainCode_w16 hd
    · rw [hplain, ← hexact, ← hround]
      exact plainCode_h16 hd
  refine ⟨rounds .add rfl, rounds .sub rfl, rounds .mul rfl, rounds .fma rfl, rounds .neg rfl, rounds .abs rfl,
    rounds .min rfl, rounds .max rfl, rounds .div rfl, rounds .sqrt rfl, rounds .recip rfl, rounds .rsqrt rfl,
    fun t => rounds (.trans t) rfl, plain_cvt_same, fun hf hsrc hd => ?_,
    fun hf => ⟨plain_sel_same hf, plain_sel_f32 hf⟩, fun hf => ⟨plain_cmp hf, plain_cmp_poisoned_w16 hf,
      fun hbad hd => by rw [plain_cmp_poisoned_u32 hf hbad hd]⟩, fun hf hd => ?_, fun hf hd => ?_⟩
  · rw [plain_cvt_ne hf (hd ▸ hsrc), ← hround]
    exact (plainCode_f32 hd).trans (by rw [if_pos hf, exact_cvt hf])
  · rw [plain_grain hf, hd]
    rfl
  · rw [plain_grain hf, hd]
    rfl

end Sys2Proof.Machine
end

section
/-!
SUPPORT. Bursts read and written for a command leave every cell and all that holds further bursts back, so that a command
that nothing holds back still has its effect once its bursts are moved.
-/
namespace Sys2Proof.Machine

/-- What a stack holds bursts back by: its queue and its hot level. -/
def Stack.holding (x : Stack) : List MemReq × Bool := (x.requests, x.hot)

/-- The cells, and all that `State.unhindered` looks at. -/
def State.holding (s : State) : Vector Cell 64 × Vector (List MemReq × Bool) 16 × Vector Part 4 ×
    List (PartId × Bool × Nat × Bool) × Coll × Vector Xd 8 × SelfTest × Word64 :=
  (s.cells, s.stackSet.map Stack.holding, s.parts, s.mem.prepaid, s.coll, s.xds, s.test, s.time)

theorem cells_of_holding {s t : State} (h : t.holding = s.holding) : t.cells = s.cells := congrArg (·.1) h

theorem cell_of_holding {s t : State} (h : t.holding = s.holding) (c : CellId) : t.cell c = s.cell c :=
  congrArg (vget · c) (cells_of_holding h)

theorem unhindered_of_holding {s t : State} (h : t.holding = s.holding) (hs : s.unhindered) : t.unhindered := by
  simp only [State.holding, Prod.mk.injEq] at h
  obtain ⟨-, hstacks, hparts, hprepaid, hcoll, hxds, htest, htime⟩ := h
  obtain ⟨hfree, hpaid, hstopped, hjoins, hslices⟩ := hs
  refine ⟨fun n => ?_, hprepaid.trans hpaid, hcoll ▸ hstopped, fun j => ?_, htest ▸ hslices⟩
  · have hn : (t.stack n).holding = (s.stack n).holding := by
      rw [State.stack, State.stack, ← vget_map Stack.holding, hstacks, vget_map]
    obtain ⟨hreq, hhot⟩ := Prod.ext_iff.mp hn
    obtain ⟨hs1, hs2, hs3⟩ := hfree n
    refine ⟨hreq.trans hs1, hhot.trans hs2, fun p => ?_⟩
    rw [State.part, hparts]
    exact hs3 p
  · rw [State.xd, hxds, htime]
    exact hjoins j

/-! ### Cells, records and resets -/

theorem modCell_unhindered (s : State) (c : CellId) (f : Cell → Cell) : (s.modCell c f).unhindered ↔ s.unhindered := Iff.rfl

theorem report_unhindered (s : State) (r : ErrRec) : (s.report r).unhindered ↔ s.unhindered := Iff.rfl

theorem instrEvent_unhindered (s : State) (c : CellId) (t : Tag) (src : Src) (code : Byte) (ad : Word64) (syn : Word32) :
    (s.instrEvent c t src code ad syn).unhindered ↔ s.unhindered := by
  rw [State.instrEvent, modCell_unhindered, report_unhindered]

theorem report_holding (s : State) (r : ErrRec) : (s.report r).holding = s.holding := rfl

theorem withDram_holding (s : State) (m : ProtMem) :
    ({ s with mem := { s.mem with dram := m } } : State).holding = s.holding := rfl

/-- A change of a stack that leaves its queue and its hot level. -/
theorem modStack_holding {f : Stack → Stack} (h : ∀ x, (f x).holding = x.holding) (s : State) (n : StackId) :
    (s.modStack n f).holding = s.holding :=
  congrArg (fun v => (s.cells, v, s.parts, s.mem.prepaid, s.coll, s.xds, s.test, s.time))
    (map_vmod Stack.holding s.stackSet n (h _))

theorem startReset_holding (s : State) (lvl : ResetLevel) (c : CellId) (i : SlotId) (e : BitVec 4) (p : PartId)
    (cause : BitVec 4) : (s.startReset lvl c i e p cause).holding = s.holding := by
  dsimp only [State.startReset]
  split <;> rfl

theorem chipFault_holding (s : State) : s.chipFault.holding = s.holding := by
  rw [State.chipFault, startReset_holding, State.alertSet]
  split
  · rfl
  · rw [raiseVector_eq]; rfl

theorem persistPoison_holding (s : State) (p : PartId) (ad : Nat) (who : Option At) (b : Bool) :
    (s.persistPoison p ad who b).holding = s.holding := by
  dsimp only [State.persistPoison]
  split
  · rfl
  · split
    · exact startReset_holding ..
    · exact startReset_holding ..
    · rfl
    · rfl
    · rfl

/-! ### Bursts read -/

theorem countCe_holding (s : State) (n : StackId) (ch : ChanId) (ad : Nat) (syn : Word32) :
    (s.countCe n ch ad syn).holding = s.holding := by
  dsimp only [State.countCe]
  split
  · rw [modStack_holding, report_holding, modStack_holding] <;> exact fun _ => rfl
  · rw [modStack_holding]; exact fun _ => rfl

theorem marginBurst_holding (s : State) (n : StackId) (ch : ChanId) : (s.marginBurst n ch).holding = s.holding := by
  unfold State.marginBurst
  split
  · rw [modStack_holding]; exact fun _ => rfl
  · rfl

theorem requestMapout_holding (s : State) (n : StackId) (ch : ChanId) : (s.requestMapout n ch).holding = s.holding := by
  rw [State.requestMapout, modStack_holding]; exact fun _ => rfl

theorem burstCrc_holding (s : State) (n : StackId) (ch : ChanId) (view d : Nat) (who : Option At) (wr : Bool) (k : Nat) :
    (s.burstCrc n ch view d who wr k).holding = s.holding := by
  have note : ∀ (t : State) (r : ErrRec) (b : Bool), (if b then t else t.report r).holding = t.holding := fun t r b => by
    split <;> rfl
  have count : ∀ (b : Bool) (x : Stack) (w : Word64), (if b then x else { x with eccCnt := w }).holding = x.holding :=
    fun b x w => by split <;> rfl
  dsimp only [State.burstCrc]
  split
  · rfl
  · split
    · rw [note, modStack_holding]; exact fun _ => rfl
    · split
      · rw [chipFault_holding, note, modStack_holding fun _ => count .., requestMapout_holding, modStack_holding]
        exact fun _ => rfl
      · rw [note, modStack_holding fun _ => count .., requestMapout_holding, modStack_holding]
        exact fun _ => rfl

theorem crossed_holding (s : State) (who : Option At) (wr : Bool) (view d : Nat) (w : Nat × List (Fin 64 × BitVec 39)) :
    (s.crossed who wr view d w).holding = s.holding := by
  dsimp only [State.crossed]
  split
  · rw [burstCrc_holding, marginBurst_holding]
  · rw [modStack_holding, State.flipBits, withDram_holding, burstCrc_holding, marginBurst_holding]
    exact fun _ => rfl

theorem noteWord_holding (s : State) (who : Option At) (opt pend : Bool) (view d : Nat) (m : BitVec 39) :
    (s.noteWord who opt pend view d m).holding = s.holding := by
  have bad : ∀ t : State, (match s.persistOwner d with
      | some p => t.persistPoison p view who opt
      | none => t).holding = t.holding := fun t => by
    split
    · exact persistPoison_holding ..
    · rfl
  dsimp only [State.noteWord]
  split
  · split
    · rw [withDram_holding, modStack_holding]; exact fun _ => rfl
    · rw [modStack_holding]; exact fun _ => rfl
  · split
    · rfl
    · refine (bad _).trans ?_
      rw [modStack_holding]; exact fun _ => rfl
    · refine (bad _).trans ?_
      rw [withDram_holding, modStack_holding, report_holding]; exact fun _ => rfl
    · split
      · rfl
      · rw [modStack_holding, countCe_holding]
        exact fun _ => rfl

theorem noteBurst_holding (s : State) (who : Option At) (opt : Bool) (view d : Nat) :
    (s.noteBurst who opt view d).holding = s.holding := by
  dsimp only [State.noteBurst]
  split
  · exact crossed_holding ..
  · exact (foldl_keeps State.holding (by intros; exact noteWord_holding ..) _ _).trans (crossed_holding ..)

theorem dramNote_holding (s : State) (who : Option At) (opt : Bool) (a len : Nat) :
    (s.dramNote who opt a len).holding = s.holding := by
  refine foldl_keeps State.holding (fun t q => ?_) _ s
  split
  · rfl
  · split
    · rfl
    · exact noteBurst_holding ..

/-! ### Bursts written -/

theorem mergeRead_holding (s : State) (view d n : Nat) : (s.mergeRead view d n).holding = s.holding := by
  dsimp only [State.mergeRead]
  split
  · rfl
  · rw [modStack_holding, noteBurst_holding]
    exact fun _ => rfl

theorem writeBurst_holding (s : State) (view d : Nat) (bs : List Byte) : (s.writeBurst view d bs).holding = s.holding := by
  dsimp only [State.writeBurst]
  split
  · rfl
  · split
    · rw [crossed_holding, modStack_holding, mergeRead_holding]
      exact fun _ => rfl
    · rw [crossed_holding, withDram_holding, modStack_holding, mergeRead_holding]
      exact fun _ => rfl

theorem dramWrite_holding (s : State) (w : Writer) (a : Nat) (bs : List Byte) : (s.dramWrite w a bs).holding = s.holding := by
  refine foldl_keeps State.holding (fun t q => ?_) _ s
  split
  · rfl
  · split
    · rfl
    · exact writeBurst_holding ..

/-! ### Bursts moved (R295) -/

/-- Bursts that a command moves are noted as moved, and nothing else. -/
theorem moves_eq (s : State) (p : Option PartId) (coll : Bool) (a len : Nat) :
    s.moves p coll a len = { s with mem := { s.mem with moved := (s.moves p coll a len).mem.moved } } := by
  refine List.foldlRecOn (pieces a len) _
    (motive := fun t : State => t = { s with mem := { s.mem with moved := t.mem.moved } }) rfl (fun t ht q _ => ?_)
  split
  · rw [ht]
  · exact ht

theorem chargeAll_eq (s : State) (p : PartId) (coll : Bool) (l : List (Nat × Nat)) :
    s.chargeAll p coll l = { s with mem := { s.mem with moved := (s.chargeAll p coll l).mem.moved } } := by
  refine List.foldlRecOn l _
    (motive := fun t : State => t = { s with mem := { s.mem with moved := t.mem.moved } }) rfl (fun t ht q _ => ?_)
  rw [State.charge, moves_eq, ht]

theorem sees_holding (s : State) (p : PartId) (coll : Bool) (who : Option At) (a len : Nat) :
    (s.sees p coll who a len).holding = s.holding := by
  rw [State.sees, State.charge, moves_eq]
  exact dramNote_holding ..

/-! ### Stop bits -/

theorem setStopIf_cell (s : State) (a : At) (b : Bool) (k : StopBit) (d : CellId) :
    (s.setStopIf a b k).cell d = { s.cell d with stopBits := ((s.setStopIf a b k).cell d).stopBits } := by
  unfold State.setStopIf State.setStop
  split
  · split
    · rfl
    · split
      · rfl
      · by_cases hd : a.cell = d
        · subst hd; rw [modCell_cell_self]
        · rw [modCell_cell_ne _ _ _ _ hd]
  · rfl

theorem setStopIf_mem (s : State) (a : At) (b : Bool) (k : StopBit) : (s.setStopIf a b k).mem = s.mem := by
  unfold State.setStopIf State.setStop
  split
  · split
    · rfl
    · split <;> rfl
  · rfl

theorem setStopIf_unhindered {s : State} (h : s.unhindered) (a : At) (b : Bool) (k : StopBit) :
    (s.setStopIf a b k).unhindered := by
  unfold State.setStopIf State.setStop
  split
  · split
    · exact h
    · split
      · exact (report_unhindered ..).mpr h
      · exact (modCell_unhindered ..).mpr h
  · exact h

/-! ### Events of the vector engine -/

/-- A cell without the fault register and the stop bits that events of the vector engine change. -/
def Cell.sansEvents (x : Cell) : Cell := { x with regs := { x.regs with vecFault := 0 }, stopBits := 0 }

theorem instrEvent_sansEvents (s : State) (c : CellId) (t : Tag) (code : Byte) (ad : Word64) (syn : Word32) (d : CellId) :
    ((s.instrEvent c t .vector code ad syn).cell d).sansEvents = (s.cell d).sansEvents :=
  modCell_cell_keeps (f := (·.modRegs (·.noteFault .vector code))) Cell.sansEvents (fun _ => rfl)
    (s.report (s.instrRec c t .vector code .event ad syn)) c d

theorem setStopIf_sansEvents (s : State) (a : At) (b : Bool) (k : StopBit) (d : CellId) :
    ((s.setStopIf a b k).cell d).sansEvents = (s.cell d).sansEvents := by
  rw [setStopIf_cell]; rfl

end Sys2Proof.Machine
end

section
/-!
The beats of a running vx instruction.
-/
namespace Sys2Proof.Machine

/-! ### What a beat leaves of its cell -/

/-- The run after a beat that is not its last. -/
def VxRun.stepped (r : VxRun) (m : ProtMem) : VxRun :=
  { r with
    beat := r.beat + 1, acc := r.accumulate m,
    flags := setBit (setBit (setBit r.flags 0 (bit r.flags 0 || (r.beatPoison m || bit r.flags 2))) 1
      (bit r.flags 1 || r.satSeen m)) 2 false }

/-- Whether the next beat is the last. -/
def VxRun.last (r : VxRun) : Bool := decide (r.elems ≤ (r.beat + 1) * r.lanes)

/-- A cell with the elements of a beat, or at the last beat the state of a digest, written to their destination; and what
the elements found. -/
def VxRun.written (r : VxRun) (s : State) (x : Cell) : Cell × List G16Flag :=
  match r.ins.fun_.elementwise, r.ins.dst with
  | true, .reg d =>
    (x.modSlot r.ins.tag.slot (fun y => { y with ctx := { y.ctx with v := r.toReg x.store y.ctx.v d } }), [])
  | true, .stream _ =>
    let o := r.toStream s x.store (tileOf (vget r.ins.descs 0))
    ({ x with store := o.1 }, o.2)
  | false, .reg d =>
    if r.last then
      (x.modSlot r.ins.tag.slot (fun y => { y with ctx := { y.ctx with
        v := y.ctx.v.write (d.val * 1024) ((r.accumulate x.store).flatMap (fun w => beBytes (bfld w 0 32))) } }), [])
    else (x, [])
  | _, _ => (x, [])

/-- The result a beat queues for an s register: the accumulated value, at the last beat. -/
def VxRun.result (r : VxRun) (m : ProtMem) : List SResult :=
  match r.ins.destS with
  | some d =>
    if r.last then
      let v := match r.accumulate m with | a :: _ => a | [] => 0
      [⟨r.ins.tag.slot, r.ins.tag.seq, d, if r.ins.fun_ = .summ then setBit v 63 (bit r.flags 1 || r.satSeen m) else v⟩]
    else []
  | none => []

/-- A cell after a beat. -/
def Cell.beat (x : Cell) (s : State) (r : VxRun) : Cell :=
  { (r.written s x).1 with
    eng := { (r.written s x).1.eng with
      vecRun := if r.last then none else some (r.stepped x.store)
      results := (r.written s x).1.eng.results ++ r.result x.store },
    regs := { (r.written s x).1.regs with
      vecBeat := (r.written s x).1.regs.vecBeat + BitVec.ofNat 64 r.ins.fun_.passes } }

/-- What a beat accounts for beside its cell: the mordant table words it reads, poison and the stop bits. -/
def VxRun.beatEvents (r : VxRun) (c : CellId) (m : ProtMem) (fl : List G16Flag) (u : State) : State :=
  let verdict := r.ins.fun_ == .summ && bit r.ins.fn 13
  let bad := r.beatPoison m || bit r.flags 2
  let u2 := r.noteTable u c
  let u3 := if bad && !(bit r.flags 0) then u2.poisonEvent c r.ins.tag .vector 0x07 (r.poisonAt m) else u2
  (u3.setStopIf ⟨c, r.ins.tag.slot⟩ (fl.contains .nonfinite || (verdict && r.nonfiniteSeen m)) .nonfinite).setStopIf
    ⟨c, r.ins.tag.slot⟩ (fl.contains .bleed || (verdict && r.satSeen m)) .bleed

theorem vxBeat_eq {s : State} {c : CellId} {r : VxRun} (h : (s.cell c).eng.vecRun = some r) : State.vxBeat c s =
    .next (r.beatEvents c (s.cell c).store (r.written s (s.cell c)).2 (s.setCell c ((s.cell c).beat s r))) := by
  simp only [State.vxBeat, h] <;> rfl

/-! ### What a beat accounts for -/

theorem noteTable_holding (r : VxRun) (u : State) (c : CellId) : (r.noteTable u c).holding = u.holding := by
  dsimp only [VxRun.noteTable]
  split
  · rfl
  · split
    · exact sees_holding ..
    · exact dramNote_holding ..

theorem noteTable_untabled {r : VxRun} (h : r.ins.tabled = false) (u : State) (c : CellId) : r.noteTable u c = u :=
  if_pos h

theorem beatEvents_sansEvents (r : VxRun) (c : CellId) (m : ProtMem) (fl : List G16Flag) (u : State) (d : CellId) :
    ((r.beatEvents c m fl u).cell d).sansEvents = (u.cell d).sansEvents := by
  dsimp only [VxRun.beatEvents]
  rw [setStopIf_sansEvents, setStopIf_sansEvents, ← cell_of_holding (noteTable_holding r u c) d]
  split
  · exact instrEvent_sansEvents ..
  · rfl

theorem beatEvents_dram {r : VxRun} (h : r.ins.tabled = false) (c : CellId) (m : ProtMem) (fl : List G16Flag) (u : State) :
    (r.beatEvents c m fl u).mem.dram = u.mem.dram := by
  dsimp only [VxRun.beatEvents]
  rw [setStopIf_mem, setStopIf_mem, noteTable_untabled h]
  split <;> rfl

theorem beatEvents_unhindered {u : State} (h : u.unhindered) (r : VxRun) (c : CellId) (m : ProtMem) (fl : List G16Flag) :
    (r.beatEvents c m fl u).unhindered := by
  have hnote : (r.noteTable u c).unhindered := unhindered_of_holding (noteTable_holding r u c) h
  refine setStopIf_unhindered (setStopIf_unhindered ?_ _ _ _) _ _ _
  split
  · exact (instrEvent_unhindered ..).mpr hnote
  · exact hnote

/-! ### VX_BEAT_RETIRE -/

/-- What a beat writes lies in the cell store and the contexts. -/
theorem written_eq (r : VxRun) (s : State) (x : Cell) :
    (r.written s x).1 = { x with store := (r.written s x).1.store, slots := (r.written s x).1.slots } := by
  unfold VxRun.written
  split
  · rfl
  · rfl
  · split <;> rfl
  · rfl

theorem beat_eq (x : Cell) (s : State) (r : VxRun) : x.beat s r =
    { x with
      store := (r.written s x).1.store, slots := (r.written s x).1.slots
      eng := { x.eng with
        vecRun := if r.last then none else some (r.stepped x.store), results := x.eng.results ++ r.result x.store }
      regs := { x.regs with vecBeat := x.regs.vecBeat + BitVec.ofNat 64 r.ins.fun_.passes } } := by
  unfold Cell.beat
  rw [written_eq]

/-- The beat is executed; where it reads a mordant table nothing holds its bursts back. -/
theorem vxBeatRetire_completes {s : State} {c : CellId} {r : VxRun} (h : (s.cell c).eng.vecRun = some r)
    (hfree : r.ins.tabled = true → s.unhindered) : ∃ t, exec (.vxBeatRetire c) s = .next t ∧
      (r.ins.tabled = false → t.mem.dram = s.mem.dram) ∧
      (t.cell c).sansEvents = ((s.cell c).beat s r).sansEvents ∧
      ∀ d, d ≠ c → (t.cell d).sansEvents = (s.cell d).sansEvents := by
  let u := s.setCell c ((s.cell c).beat s r)
  let t := r.beatEvents c (s.cell c).store (r.written s (s.cell c)).2 u
  have hbeat : State.vxBeat c s = .next t := vxBeat_eq h
  have hexec : exec (.vxBeatRetire c) s = .next (if r.ins.tabled then t.admitted else t) := by
    rw [exec_vxBeatRetire, execVxBeatRetire]
    simp only [h]
    split
    · next htab =>
      have hs : s.unhindered := hfree htab
      have hu : u.unhindered := hs
      exact gated_free hbeat hs (beatEvents_unhindered hu ..)
    · exact hbeat
  have hcell : ∀ d, ((if r.ins.tabled then t.admitted else t).cell d).sansEvents = (u.cell d).sansEvents := fun d => by
    rw [← beatEvents_sansEvents r c (s.cell c).store (r.written s (s.cell c)).2 u d]
    split <;> rfl
  refine ⟨_, hexec, fun htab => ?_, ?_, fun d hd => ?_⟩
  · rw [if_neg (Bool.eq_false_iff.mp htab)]
    exact beatEvents_dram htab c _ _ u
  · rw [hcell, setCell_cell_self]
  · rw [hcell, setCell_cell_ne _ _ _ _ (Ne.symm hd)]

/-! ### The parts of its cell -/

section
variable {r : VxRun} {s : State} {x : Cell}

/-- Only a summary or CRC-64 has an s register for its result (R149). -/
theorem result_of_elementwise (h : r.ins.fun_.elementwise = true) (m : ProtMem) : r.result m = [] := by
  have hdest : r.ins.destS = none := if_neg fun hop => by
    rcases hop with hop | hop <;> (rw [VxInstr.fun_, hop] at h; exact absurd h (by decide))
  simp only [VxRun.result, hdest]

/-- At the last beat the accumulated value, of a summary with whether a SAT was seen. -/
theorem result_of_last {d : BitVec 5} (hdest : r.ins.destS = some d) (h : r.last = true) (m : ProtMem) :
    r.result m = [⟨r.ins.tag.slot, r.ins.tag.seq, d, if r.ins.fun_ = .summ then
      setBit ((r.accumulate m).headD 0) 63 (bit r.flags 1 || r.satSeen m) else (r.accumulate m).headD 0⟩] := by
  simp only [VxRun.result, hdest, h, if_true]
  cases r.accumulate m <;> rfl

theorem result_of_not_last (h : r.last = false) (m : ProtMem) : r.result m = [] := by
  unfold VxRun.result
  split
  · rw [h]; rfl
  · rfl

theorem written_stream {k : BitVec 4} (h : r.ins.fun_.elementwise = true) (hd : r.ins.dst = .stream k) :
    (r.written s x).1 = { x with store := (r.toStream s x.store (tileOf (vget r.ins.descs 0))).1 } := by
  simp only [VxRun.written, h, hd]

theorem written_reg {d : Fin 64} (h : r.ins.fun_.elementwise = true) (hd : r.ins.dst = .reg d) :
    (r.written s x).1 = x.modSlot r.ins.tag.slot (fun y => { y with ctx := { y.ctx with v := r.toReg x.store y.ctx.v d } }) := by
  simp only [VxRun.written, h, hd]

theorem written_scalar {d : BitVec 5} (hd : r.ins.dst = .scalar d) : (r.written s x).1 = x := by
  cases h : r.ins.fun_.elementwise <;> simp only [VxRun.written, h, hd]

theorem written_digest {d : Fin 64} (h : r.ins.fun_.elementwise = false) (hd : r.ins.dst = .reg d) (hlast : r.last = true) :
    (r.written s x).1 = x.modSlot r.ins.tag.slot (fun y => { y with ctx := { y.ctx with
      v := y.ctx.v.write (d.val * 1024) ((r.accumulate x.store).flatMap (fun w => beBytes (bfld w 0 32))) } }) := by
  simp only [VxRun.written, h, hd, hlast, if_true]

theorem written_digest_open {d : Fin 64} (h : r.ins.fun_.elementwise = false) (hd : r.ins.dst = .reg d)
    (hlast : r.last = false) : (r.written s x).1 = x := by
  simp only [VxRun.written, h, hd, hlast, Bool.false_eq_true, if_false]

end

/-- Settles O16: the beat by `vxBeatRetire_completes`, its cell by `beat_eq` and what is written to each kind of
destination. The one pass of vx.summ, vx.crc64 and vx.sha256 is log entry 62, the byte order of the digest state log entry
29. -/
theorem vxBeatRetires : Obligations.VxBeatRetires := by
  intro s c r x v last hrun hfree
  obtain ⟨t, hexec, hdram, hcell, hothers⟩ := vxBeatRetire_completes hrun hfree
  rw [beat_eq] at hcell
  have hbeats : (t.cell c).regs.vecBeat = x.regs.vecBeat + BitVec.ofNat 64 r.ins.fun_.passes :=
    (congrArg (·.regs.vecBeat) hcell :)
  have hrunAfter : (t.cell c).eng.vecRun = if r.last then none else some (r.stepped x.store) :=
    (congrArg (·.eng.vecRun) hcell :)
  have hresults : (t.cell c).eng.results = x.eng.results ++ r.result x.store := (congrArg (·.eng.results) hcell :)
  have hstore : (t.cell c).store = (r.written s x).1.store := (congrArg Cell.store hcell :)
  have hv : v t = ((r.written s x).1.slot r.ins.tag.slot).ctx.v :=
    (congrArg (fun y : Cell => (y.slot r.ins.tag.slot).ctx.v) hcell :)
  have hlast : last → r.last = true := fun hl => decide_eq_true hl
  have hopen : ¬ last → r.last = false := fun hl => decide_eq_false hl
  refine ⟨t, hexec, hbeats, fun hl => ?_, fun hl => ⟨r.stepped x.store, ?_, rfl, rfl, rfl, rfl, rfl, rfl⟩,
    (congrArg Cell.vat hcell :), (congrArg Cell.vatLive hcell :), (congrArg Cell.latches hcell :), hdram,
    fun d hd => (congrArg Cell.store (hothers d hd) :), fun k hel hdst => ?_, fun d hel hdst => ?_, fun d hfun hdst hdest => ?_,
    fun d hfun hdst => ?_⟩
  · rw [hrunAfter, hlast hl, if_pos rfl]
  · rw [hrunAfter, hopen hl]; rfl
  · rw [hstore, hv, hresults, written_stream hel hdst, result_of_elementwise hel, List.append_nil]
    exact ⟨rfl, rfl, rfl⟩
  · rw [hstore, hv, hresults, written_reg hel hdst, result_of_elementwise hel, List.append_nil, modSlot_slot_self]
    exact ⟨rfl, rfl, rfl⟩
  · rw [hstore, hv, hresults, written_scalar hdst]
    refine ⟨rfl, rfl, fun hl => ?_, fun hl => ⟨_, congrArg _ (result_of_last hdest (hlast hl) _), fun y ys hacc =>
      ⟨fun hcrc => ?_, fun hsumm => ?_⟩⟩⟩
    · rw [result_of_not_last (hopen hl), List.append_nil]
    · rw [hacc, hcrc]; rfl
    · rw [hacc, if_pos hsumm]; rfl
  · have hel : r.ins.fun_.elementwise = false := by rw [hfun]; rfl
    refine ⟨?_, fun hl => ?_, fun hl => ?_⟩
    · cases hl : r.last
      · rw [hstore, written_digest_open hel hdst hl]
      · rw [hstore, written_digest hel hdst hl]; rfl
    · rw [hv, written_digest_open hel hdst (hopen hl)]; rfl
    · rw [hv, written_digest hel hdst (hlast hl), modSlot_slot_self]; rfl

end Sys2Proof.Machine
end

section
/-!
The blocks of a running vx.optstep.
-/
namespace Sys2Proof.Machine

/-! ### What a block does -/

/-- The planes a block reads: none where it is refused. -/
def OptRun.touched (r : OptRun) : OptBlock → List (Nat × Nat)
  | .refused .. => []
  | _ => r.reads

/-- The planes a block moves bursts of. -/
def OptRun.moved (r : OptRun) (what : OptBlock) : List (Nat × Nat) :=
  r.touched what ++ (match what with | .write _ => r.writes | _ => [])

/-- The state once the errors of what a block reads are accounted for. -/
def OptRun.noted (r : OptRun) (s : State) (c : CellId) (what : OptBlock) : State :=
  (r.touched what).foldl (fun t x => t.dramNote (some ⟨c, r.ins.tag.slot⟩) true (r.at_ x) x.2) s

/-- The effect of a block decided in state `s`: its record, or the planes it writes. -/
def OptRun.effect (r : OptRun) (s : State) (c : CellId) (p : PartId) (what : OptBlock) (t : State) : State :=
  match what with
  | .refused code addr => if r.recorded then t else t.instrEvent c r.ins.tag .vector code (BitVec.ofNat 64 addr) 0
  | .poisoned _ => t.instrEvent c r.ins.tag .vector 0x07 (BitVec.ofNat 64 (r.firstBad s).1) (r.firstBad s).2
  | .nonfinite => t.report { (t.errRec (dieOf c) (sysStatus 0x07) .event).withCtx t ⟨c, r.ins.tag.slot⟩ with
      engine := 0x02, addr := BitVec.ofNat 64 (r.at_ (0, 256)), origin := r.ins.tag.origin }
  | .withheld => t
  | .write es => r.store t p es

/-- The run after a block. -/
def OptRun.after (r : OptRun) (what : OptBlock) : OptRun :=
  { r with
    waits := [], block := r.block + 1
    recorded := r.recorded || (match what with | .refused .. => true | _ => false)
    poisoned := r.poisoned || (match what with | .poisoned b => b | _ => false) }

/-- A block is counted, and the step goes on to the next or retires. -/
def State.countBlock (s : State) (c : CellId) (p : PartId) (r : OptRun) (what : OptBlock) : State :=
  let t := s.modCell c (fun y => { y with
    eng := { y.eng with optRun := some r },
    regs := { y.regs with vecOptElem := y.regs.vecOptElem + 64, optStatus := optCount y.regs.optStatus what } })
  if r.base 0x40 ≤ 64 * r.block then t.retireOpt c p false r.poisoned else t

/-- The state a block leaves. -/
def OptRun.done (r : OptRun) (s : State) (c : CellId) (p : PartId) (what : OptBlock) : State :=
  ((r.effect s c p what (r.noted s c what)).chargeAll p false ((r.moved what).map (fun x => (r.at_ x, x.2)))).countBlock c p
    (r.after what) what

section
variable {s : State} {c : CellId} {r : OptRun} {p : PartId} (hrun : (s.cell c).eng.optRun = some r)
  (hp : s.partOf c = some p)
include hrun hp

theorem optstepBlock_aborted (h : s.phase p = .aborted) :
    State.optstepBlock c s = .next (s.retireOpt c p true r.poisoned) := by
  simp only [State.optstepBlock, hrun, hp, if_pos h]

theorem optstepBlock_done (h : s.phase p ≠ .aborted) {what : OptBlock} (hwhat : r.decide_ s p = what)
    (hheld : ∀ es, what = .write es → r.heldSlots s p = []) : State.optstepBlock c s = .next (r.done s c p what) := by
  simp only [State.optstepBlock, hrun, hp, if_neg h, hwhat]
  cases what with
  | write es =>
    rw [hheld es rfl]
    rfl
  | _ => rfl

/-- A write of the block waits for a first-touch copy. -/
theorem optstepBlock_waits (h : s.phase p ≠ .aborted) {es : List OptElem} (hwhat : r.decide_ s p = .write es)
    (hheld : r.heldSlots s p ≠ []) : ∃ twins, State.optstepBlock c s =
      .next ({ s with twins := twins }.modCell c (fun y => y.modEng (fun e => { e with
        optRun := some { r with waits := (r.heldSlots s p).map Prod.fst } }))) := by
  have hsome : (r.heldSlots s p).isEmpty = false := List.isEmpty_eq_false_iff.mpr hheld
  simp only [State.optstepBlock, hrun, hp, if_neg h, hwhat, hsome]
  exact ⟨_, rfl⟩

end

/-! ### What a block leaves unchanged -/

theorem noted_holding (r : OptRun) (s : State) (c : CellId) (what : OptBlock) : (r.noted s c what).holding = s.holding :=
  foldl_keeps State.holding (by intros; exact dramNote_holding ..) _ s

theorem store_holding (r : OptRun) (s : State) (p : PartId) (es : List OptElem) : (r.store s p es).holding = s.holding := by
  dsimp only [OptRun.store]
  rw [dramWrite_holding]
  split <;> simp only [dramWrite_holding]

theorem effect_unhindered {t : State} (h : t.unhindered) (r : OptRun) (s : State) (c : CellId) (p : PartId) (what : OptBlock) :
    (r.effect s c p what t).unhindered := by
  cases what with
  | refused code addr =>
    dsimp only [OptRun.effect]
    split
    · exact h
    · exact (instrEvent_unhindered ..).mpr h
  | poisoned b => exact (instrEvent_unhindered ..).mpr h
  | withheld => exact h
  | nonfinite => exact (report_unhindered ..).mpr h
  | write es => exact unhindered_of_holding (store_holding ..) h

theorem effect_sansEvents (r : OptRun) (s : State) (c : CellId) (p : PartId) (what : OptBlock) (t : State) (d : CellId) :
    ((r.effect s c p what t).cell d).sansEvents = (t.cell d).sansEvents := by
  cases what with
  | refused code addr =>
    dsimp only [OptRun.effect]
    split
    · rfl
    · exact instrEvent_sansEvents ..
  | poisoned b => exact instrEvent_sansEvents ..
  | withheld => rfl
  | nonfinite => rfl
  | write es => exact congrArg Cell.sansEvents (cell_of_holding (store_holding ..) d)

/-- Only a block that passes writes DRAM. -/
theorem effect_dram (r : OptRun) (s : State) (c : CellId) (p : PartId) {what : OptBlock} (h : ∀ es, what ≠ .write es)
    (t : State) : (r.effect s c p what t).mem.dram = t.mem.dram := by
  cases what with
  | refused code addr =>
    dsimp only [OptRun.effect]
    split <;> rfl
  | poisoned b => rfl
  | withheld => rfl
  | nonfinite => rfl
  | write es => exact absurd rfl (h es)

/-! ### Retirement -/

/-- OPT_STATUS as vx.optstep retires. -/
def Cell.optRetired (x : Cell) (stopped : Bool) : Cell :=
  { x with
    eng := { x.eng with optRun := none }
    regs := { x.regs with optStatus := setBit (setBit x.regs.optStatus 0 true) 2 stopped } }

theorem startReset_mem (s : State) (lvl : ResetLevel) (c : CellId) (i : SlotId) (e : BitVec 4) (p : PartId)
    (cause : BitVec 4) : (s.startReset lvl c i e p cause).mem = s.mem := by
  dsimp only [State.startReset]
  split <;> rfl

/-- Retirement changes the cell; what a partition reset starts with it is not done yet. -/
theorem retireOpt_holding (s : State) (c : CellId) (p : PartId) (stopped persist : Bool) :
    (s.retireOpt c p stopped persist).holding = (s.modCell c (·.optRetired stopped)).holding := by
  dsimp only [State.retireOpt]
  split
  · exact startReset_holding ..
  · rfl

theorem retireOpt_mem (s : State) (c : CellId) (p : PartId) (stopped persist : Bool) :
    (s.retireOpt c p stopped persist).mem = s.mem := by
  dsimp only [State.retireOpt]
  split
  · exact startReset_mem ..
  · rfl

theorem retireOpt_cell (s : State) (c : CellId) (p : PartId) (stopped persist : Bool) :
    (s.retireOpt c p stopped persist).cell c = (s.cell c).optRetired stopped := by
  rw [cell_of_holding (retireOpt_holding ..), modCell_cell_self]

theorem retireOpt_unhindered {s : State} (h : s.unhindered) (c : CellId) (p : PartId) (stopped persist : Bool) :
    (s.retireOpt c p stopped persist).unhindered :=
  unhindered_of_holding (retireOpt_holding ..) ((modCell_unhindered ..).mpr h)

/-! ### The count of a block -/

/-- A cell that has counted a block. -/
def Cell.optCounted (x : Cell) (r : OptRun) (what : OptBlock) : Cell :=
  { x with
    eng := { x.eng with optRun := some r }
    regs := { x.regs with vecOptElem := x.regs.vecOptElem + 64, optStatus := optCount x.regs.optStatus what } }

theorem countBlock_eq (s : State) (c : CellId) (p : PartId) (r : OptRun) (what : OptBlock) : s.countBlock c p r what =
    if r.base 0x40 ≤ 64 * r.block then (s.modCell c (·.optCounted r what)).retireOpt c p false r.poisoned
    else s.modCell c (·.optCounted r what) := rfl

theorem countBlock_mem (s : State) (c : CellId) (p : PartId) (r : OptRun) (what : OptBlock) :
    (s.countBlock c p r what).mem = s.mem := by
  rw [countBlock_eq]
  split
  · exact retireOpt_mem ..
  · rfl

theorem countBlock_unhindered {s : State} (h : s.unhindered) (c : CellId) (p : PartId) (r : OptRun) (what : OptBlock) :
    (s.countBlock c p r what).unhindered := by
  have hcount : (s.modCell c (·.optCounted r what)).unhindered := (modCell_unhindered ..).mpr h
  rw [countBlock_eq]
  split
  · exact retireOpt_unhindered hcount ..
  · exact hcount

theorem countBlock_vecOptElem (s : State) (c : CellId) (p : PartId) (r : OptRun) (what : OptBlock) :
    ((s.countBlock c p r what).cell c).regs.vecOptElem = (s.cell c).regs.vecOptElem + 64 := by
  rw [countBlock_eq]
  split
  · rw [retireOpt_cell, modCell_cell_self]; rfl
  · rw [modCell_cell_self]; rfl

/-- With blocks to come the step goes on. -/
theorem countBlock_goes_on {r : OptRun} (h : 64 * r.block < r.base 0x40) (s : State) (c : CellId) (p : PartId)
    (what : OptBlock) : (s.countBlock c p r what).cell c = (s.cell c).optCounted r what := by
  rw [countBlock_eq, if_neg (Nat.not_le_of_lt h), modCell_cell_self]

/-! ### A block as a whole -/

/-- A block is counted in VEC_OPT_ELEM and, with blocks to come, in OPT_STATUS; then the step stands at the next. -/
def OptRun.Goes (r : OptRun) (c : CellId) (x : Cell) (count : Word64) (t : State) : Prop :=
  (t.cell c).regs.vecOptElem = x.regs.vecOptElem + 64 ∧
  (64 * (r.block + 1) < r.base 0x40 → (t.cell c).regs.optStatus = count ∧
    ∃ q, (t.cell c).eng.optRun = some q ∧ q.ins = r.ins ∧ q.desc = r.desc ∧ q.block = r.block + 1 ∧
      q.c1 = r.c1 ∧ q.c2 = r.c2)

section
variable (r : OptRun) (s : State) (c : CellId) (p : PartId) (what : OptBlock)

theorem done_dram : (r.done s c p what).mem.dram = (r.effect s c p what (r.noted s c what)).mem.dram := by
  rw [OptRun.done, countBlock_mem, chargeAll_eq]

theorem done_unhindered {s : State} (h : s.unhindered) : (r.done s c p what).unhindered := by
  refine countBlock_unhindered ?_ ..
  rw [chargeAll_eq]
  exact effect_unhindered (unhindered_of_holding (noted_holding r s c what) h) ..

theorem done_goes : r.Goes c (s.cell c) (optCount (s.cell c).regs.optStatus what) (r.done s c p what) := by
  have hcell : ((r.effect s c p what (r.noted s c what)).cell c).sansEvents = (s.cell c).sansEvents := by
    rw [effect_sansEvents, cell_of_holding (noted_holding ..)]
  have helem : ((r.effect s c p what (r.noted s c what)).cell c).regs.vecOptElem = (s.cell c).regs.vecOptElem :=
    (congrArg (·.regs.vecOptElem) hcell :)
  have hstatus : ((r.effect s c p what (r.noted s c what)).cell c).regs.optStatus = (s.cell c).regs.optStatus :=
    (congrArg (·.regs.optStatus) hcell :)
  rw [OptRun.done, chargeAll_eq]
  refine ⟨?_, fun hmore => ?_⟩
  · rw [countBlock_vecOptElem]
    exact congrArg (· + 64) helem
  · rw [countBlock_goes_on (r := r.after what) hmore]
    exact ⟨congrArg (optCount · what) hstatus, _, rfl, rfl, rfl, rfl, rfl, rfl⟩

end

/-- OPTSTEP_BLOCK of a block that no write of it holds up. -/
theorem optstepBlock_completes {s : State} {c : CellId} {r : OptRun} {p : PartId} (hrun : (s.cell c).eng.optRun = some r)
    (hp : s.partOf c = some p) (hs : s.unhindered) (hphase : s.phase p ≠ .aborted) {what : OptBlock}
    (hwhat : r.decide_ s p = what) (hheld : ∀ es, what = .write es → r.heldSlots s p = []) :
    Completes (.optstepBlock c) s (fun t => t.mem.dram = (r.effect s c p what (r.noted s c what)).mem.dram ∧
      r.Goes c (s.cell c) (optCount (s.cell c).regs.optStatus what) t) := by
  refine ⟨(r.done s c p what).admitted, ?_, done_dram .., done_goes ..⟩
  exact (exec_optstepBlock c s).trans
    (gated_free (optstepBlock_done hrun hp hphase hwhat hheld) hs (done_unhindered r c p what hs))

/-- A block that does not pass leaves DRAM as reading it left it. -/
theorem optstepBlock_completes_unwritten {s : State} {c : CellId} {r : OptRun} {p : PartId}
    (hrun : (s.cell c).eng.optRun = some r) (hp : s.partOf c = some p) (hs : s.unhindered) (hphase : s.phase p ≠ .aborted)
    {what : OptBlock} (hwhat : r.decide_ s p = what) (hwrite : ∀ es, what ≠ .write es) :
    Completes (.optstepBlock c) s (fun t => t.mem.dram = (r.noted s c what).mem.dram ∧
      r.Goes c (s.cell c) (optCount (s.cell c).regs.optStatus what) t) := by
  rw [← effect_dram r s c p hwrite]
  exact optstepBlock_completes hrun hp hs hphase hwhat fun es h => absurd h (hwrite es)

/-- In ABORTED vx.optstep retires STOPPED. -/
theorem optstepBlock_stops {s : State} {c : CellId} {r : OptRun} {p : PartId} (hrun : (s.cell c).eng.optRun = some r)
    (hp : s.partOf c = some p) (hs : s.unhindered) (hphase : s.phase p = .aborted) :
    Completes (.optstepBlock c) s (fun t => t.mem.dram = s.mem.dram ∧ t.cell c = (s.cell c).optRetired true) := by
  refine ⟨(s.retireOpt c p true r.poisoned).admitted, ?_, (congrArg MemCtl.dram (retireOpt_mem s c p true r.poisoned) :),
    retireOpt_cell s c p true r.poisoned⟩
  exact (exec_optstepBlock c s).trans (gated_free (optstepBlock_aborted hrun hp hphase) hs (retireOpt_unhindered hs ..))

/-- A write that waits for a first-touch copy leaves everything but the run and what its twin engine is asked for. -/
theorem optstepBlock_holds {s : State} {c : CellId} {r : OptRun} {p : PartId} (hrun : (s.cell c).eng.optRun = some r)
    (hp : s.partOf c = some p) (hs : s.unhindered) (hphase : s.phase p ≠ .aborted) {es : List OptElem}
    (hwhat : r.decide_ s p = .write es) (hheld : r.heldSlots s p ≠ []) :
    Completes (.optstepBlock c) s (fun t => t.mem.dram = s.mem.dram ∧ t.cells = (s.modCell c (fun y => y.modEng (fun e =>
      { e with optRun := some { r with waits := (r.heldSlots s p).map Prod.fst } }))).cells) := by
  obtain ⟨twins, hblock⟩ := optstepBlock_waits hrun hp hphase hwhat hheld
  have hexec := gated_free (a := dieOf c) hblock hs ((modCell_unhindered ..).mpr hs)
  exact ⟨_, (exec_optstepBlock c s).trans hexec, rfl, rfl⟩

/-- Settles O17: a block by `optstepBlock_completes`, one that waits by `optstepBlock_holds`, ABORTED by
`optstepBlock_stops`, R158 by the definition of an element. That a held block is decided again whole is the model's choice
(log entry 25). -/
theorem optimizerBlocks : Obligations.OptimizerBlocks := by
  refine ⟨?_, ?_⟩
  · intro s c r p hrun hp hs x seen goes
    refine ⟨fun hphase hgood => ?_, fun hphase => ?_⟩
    · obtain ⟨t, hexec, hdram, hcell⟩ := optstepBlock_stops hrun hp hs hphase
      refine ⟨t, hexec, hdram, ?_⟩
      rw [hcell]
      refine ⟨rfl, ?_, bit_setBit_self _ _ _ (by decide), rfl⟩
      exact (bit_setBit_ne _ _ _ _ (by decide)).trans (bit_setBit_self _ _ _ (by decide))
    · refine ⟨fun code addr hwhat => ?_, fun b hwhat => ?_, fun hwhat => ?_, fun hwhat => ?_, fun es hwhat =>
        ⟨fun hheld => ?_, fun hheld => ?_⟩⟩
      · exact optstepBlock_completes_unwritten hrun hp hs hphase hwhat nofun
      · exact optstepBlock_completes_unwritten hrun hp hs hphase hwhat nofun
      · exact optstepBlock_completes_unwritten hrun hp hs hphase hwhat nofun
      · exact optstepBlock_completes_unwritten hrun hp hs hphase hwhat nofun
      · exact optstepBlock_completes hrun hp hs hphase hwhat fun _ _ => hheld
      · obtain ⟨t, hexec, hdram, hcells⟩ := optstepBlock_holds hrun hp hs hphase hwhat hheld
        have hcell : t.cell c = x.modEng (fun e => { e with
            optRun := some { r with waits := (r.heldSlots s p).map Prod.fst } }) :=
          (congrArg (vget · c) hcells).trans (modCell_cell_self s c _)
        refine ⟨t, hexec, hdram, by rw [hcell]; rfl, by rw [hcell]; rfl, by rw [hcell]; rfl, fun d hd => ?_⟩
        exact (congrArg (vget · d) hcells).trans (modCell_cell_ne s c d _ (Ne.symm hd))
  · intro r q mord w m1 m2 ext k g master
    refine ⟨fun hsingle => ?_, fun hsingle => ?_⟩
    · simp only [OptRun.elem, hsingle, if_true]; rfl
    · simp only [OptRun.elem, hsingle, Bool.false_eq_true, if_false]; rfl

end Sys2Proof.Machine
end

section
/-!
SUPPORT. Fields of joined words, and fields of a word joined again.
-/
namespace Sys2Proof.Machine

/-- A field that lies in the upper of two joined words. -/
theorem bfld_append_high {n m lo len : Nat} (x : BitVec n) (y : BitVec m) (h : m ≤ lo) :
    bfld (x ++ y) lo len = bfld x (lo - m) len := by
  apply BitVec.eq_of_getLsbD_eq
  intro i hi
  simp only [bfld, BitVec.getLsbD_extractLsb', BitVec.getLsbD_append, hi, decide_true, Bool.true_and]
  rw [if_neg (by omega), show lo - m + i = lo + i - m by omega]

/-- A field that lies in the lower of two joined words. -/
theorem bfld_append_low {n m lo len : Nat} (x : BitVec n) (y : BitVec m) (h : lo + len ≤ m) :
    bfld (x ++ y) lo len = bfld y lo len := by
  apply BitVec.eq_of_getLsbD_eq
  intro i hi
  simp only [bfld, BitVec.getLsbD_extractLsb', BitVec.getLsbD_append, hi, decide_true, Bool.true_and]
  rw [if_pos (by omega)]

theorem bfld_full {n : Nat} (w : BitVec n) : bfld w 0 n = w := by
  simp [bfld]

/-- Two fields of a word side by side are one field. -/
theorem bfld_append_bfld {n hi lo k len : Nat} (w : BitVec n) (h : hi = lo + k) :
    bfld w hi len ++ bfld w lo k = bfld w lo (len + k) := by
  simp only [bfld, BitVec.extractLsb'_append_extractLsb'_eq_extractLsb' h]

theorem bit_append_low {n m i : Nat} (x : BitVec n) (y : BitVec m) (h : i < m) : bit (x ++ y) i = bit y i := by
  simp [bit, BitVec.getLsbD_append, h]

theorem bit_append_high {n m i : Nat} (x : BitVec n) (y : BitVec m) (h : m ≤ i) : bit (x ++ y) i = bit x (i - m) := by
  rw [bit, BitVec.getLsbD_append, if_neg (by omega)]; rfl

theorem ofBool_bit {n : Nat} (w : BitVec n) (i : Nat) : BitVec.ofBool (bit w i) = bfld w i 1 := by
  apply BitVec.eq_of_getLsbD_eq
  intro j hj
  obtain rfl : j = 0 := by omega
  simp [bfld, bit]

/-- Joined words are equal where their parts are. -/
theorem append_inj_iff {n m : Nat} {x x' : BitVec n} {y y' : BitVec m} : x ++ y = x' ++ y' ↔ x = x' ∧ y = y' := by
  refine ⟨fun h => ⟨?_, ?_⟩, fun ⟨hx, hy⟩ => by rw [hx, hy]⟩
  · rw [← bfld_full x, ← bfld_full x', ← Nat.sub_self m, ← bfld_append_high x y le_rfl, h, bfld_append_high _ _ le_rfl]
  · rw [← bfld_full y, ← bfld_append_low x y (Nat.zero_add m).le, h, bfld_append_low _ _ (Nat.zero_add m).le, bfld_full]

end Sys2Proof.Machine
end

section
/-!
SUPPORT. The header and the operand formats of an instruction word (Tables 6-2 and 6-4).
-/
namespace Sys2Proof
open Sys2Proof.Machine

section
variable (p : Pred) (cls : BitVec 4) (op : Byte) (bits : BitVec 48)

theorem wordClass_wordOf : wordClass (wordOf p cls op bits) = cls := by
  rw [wordClass, wordOf, bfld_append_high _ _ (by decide), bfld_append_high _ _ (by decide),
    bfld_append_high _ _ (by decide), bfld_append_high _ _ (by decide)]
  exact bfld_full cls

theorem wordOp_wordOf : wordOp (wordOf p cls op bits) = op := by
  rw [wordOp, wordOf, bfld_append_high _ _ (by decide), bfld_append_high _ _ (by decide),
    bfld_append_high _ _ (by decide), bfld_append_low _ _ (by decide)]
  exact bfld_full op

theorem wordPred_wordOf : wordPred (wordOf p cls op bits) = p := by
  have hneg : bit (wordOf p cls op bits) 51 = p.neg := by
    rw [wordOf, bit_append_high _ _ (by decide), bit_append_high _ _ (by decide), bit_append_low _ _ (by decide)]
    simp [bit]
  have hpreg : bfld (wordOf p cls op bits) 48 3 = p.preg := by
    rw [wordOf, bfld_append_high _ _ (by decide), bfld_append_low _ _ (by decide)]
    exact bfld_full p.preg
  rw [wordPred, hneg, hpreg]

/-- Operand fields lie in the low 48 bits. -/
theorem bfld_wordOf {lo len : Nat} (h : lo + len ≤ 48) : bfld (wordOf p cls op bits) lo len = bfld bits lo len :=
  bfld_append_low _ _ h

end

/-- A word is its header before its operand bits. -/
theorem wordOf_self (w : Word64) : wordOf (wordPred w) (wordClass w) (wordOp w) (bfld w 0 48) = w := by
  simp only [wordOf, wordPred, wordClass, wordOp, ofBool_bit]
  iterate 4 rw [bfld_append_bfld w (by decide)]
  exact bfld_full w

/-! ### Each format is its operand bits (Table 6-4) -/

theorem FmtS.bits_ofWord (w : Word64) : (FmtS.ofWord w).bits = bfld w 0 48 := by
  simp only [FmtS.bits, FmtS.ofWord]
  iterate 6 rw [bfld_append_bfld w (by decide)]

theorem FmtS.bits_injective : Function.Injective FmtS.bits := fun f g h => by
  have h := append_inj_iff.mp h
  simp only [append_inj_iff] at h
  cases f; cases g; simp_all

theorem FmtS.ofWord_wordOf (p : Pred) (cls : BitVec 4) (op : Byte) (f : FmtS) : ofWord (wordOf p cls op f.bits) = f :=
  bits_injective (by rw [bits_ofWord, bfld_wordOf _ _ _ _ le_rfl, bfld_full])

theorem FmtSI.bits_ofWord (w : Word64) : (FmtSI.ofWord w).bits = bfld w 0 48 := by
  simp only [FmtSI.bits, FmtSI.ofWord]
  iterate 4 rw [bfld_append_bfld w (by decide)]

theorem FmtSI.bits_injective : Function.Injective FmtSI.bits := fun f g h => by
  have h := append_inj_iff.mp h
  simp only [append_inj_iff] at h
  cases f; cases g; simp_all

theorem FmtSI.ofWord_wordOf (p : Pred) (cls : BitVec 4) (op : Byte) (f : FmtSI) : ofWord (wordOf p cls op f.bits) = f :=
  bits_injective (by rw [bits_ofWord, bfld_wordOf _ _ _ _ le_rfl, bfld_full])

theorem FmtSB.bits_ofWord (w : Word64) : (FmtSB.ofWord w).bits = bfld w 0 48 := by
  simp only [FmtSB.bits, FmtSB.ofWord]
  iterate 2 rw [bfld_append_bfld w (by decide)]

theorem FmtSB.bits_injective : Function.Injective FmtSB.bits := fun f g h => by
  have h := append_inj_iff.mp h
  simp only [append_inj_iff] at h
  cases f; cases g; simp_all

theorem FmtSB.ofWord_wordOf (p : Pred) (cls : BitVec 4) (op : Byte) (f : FmtSB) : ofWord (wordOf p cls op f.bits) = f :=
  bits_injective (by rw [bits_ofWord, bfld_wordOf _ _ _ _ le_rfl, bfld_full])

theorem FmtV.bits_ofWord (w : Word64) : (FmtV.ofWord w).bits = bfld w 0 48 := by
  simp only [FmtV.bits, FmtV.ofWord]
  iterate 6 rw [bfld_append_bfld w (by decide)]

theorem FmtV.bits_injective : Function.Injective FmtV.bits := fun f g h => by
  have h := append_inj_iff.mp h
  simp only [append_inj_iff] at h
  cases f; cases g; simp_all

theorem FmtV.ofWord_wordOf (p : Pred) (cls : BitVec 4) (op : Byte) (f : FmtV) : ofWord (wordOf p cls op f.bits) = f :=
  bits_injective (by rw [bits_ofWord, bfld_wordOf _ _ _ _ le_rfl, bfld_full])

theorem FmtVI.bits_ofWord (w : Word64) : (FmtVI.ofWord w).bits = bfld w 0 48 := by
  simp only [FmtVI.bits, FmtVI.ofWord]
  iterate 3 rw [bfld_append_bfld w (by decide)]

theorem FmtVI.bits_injective : Function.Injective FmtVI.bits := fun f g h => by
  have h := append_inj_iff.mp h
  simp only [append_inj_iff] at h
  cases f; cases g; simp_all

theorem FmtVI.ofWord_wordOf (p : Pred) (cls : BitVec 4) (op : Byte) (f : FmtVI) : ofWord (wordOf p cls op f.bits) = f :=
  bits_injective (by rw [bits_ofWord, bfld_wordOf _ _ _ _ le_rfl, bfld_full])

theorem FmtM.bits_ofWord (w : Word64) : (FmtM.ofWord w).bits = bfld w 0 48 := by
  simp only [FmtM.bits, FmtM.ofWord]
  iterate 7 rw [bfld_append_bfld w (by decide)]

theorem FmtM.bits_injective : Function.Injective FmtM.bits := fun f g h => by
  have h := append_inj_iff.mp h
  simp only [append_inj_iff] at h
  cases f; cases g; simp_all

theorem FmtM.ofWord_wordOf (p : Pred) (cls : BitVec 4) (op : Byte) (f : FmtM) : ofWord (wordOf p cls op f.bits) = f :=
  bits_injective (by rw [bits_ofWord, bfld_wordOf _ _ _ _ le_rfl, bfld_full])

theorem FmtQ.bits_ofWord (w : Word64) : (FmtQ.ofWord w).bits = bfld w 0 48 := by
  simp only [FmtQ.bits, FmtQ.ofWord]
  iterate 6 rw [bfld_append_bfld w (by decide)]

theorem FmtQ.bits_injective : Function.Injective FmtQ.bits := fun f g h => by
  have h := append_inj_iff.mp h
  simp only [append_inj_iff] at h
  cases f; cases g; simp_all

theorem FmtQ.ofWord_wordOf (p : Pred) (cls : BitVec 4) (op : Byte) (f : FmtQ) : ofWord (wordOf p cls op f.bits) = f :=
  bits_injective (by rw [bits_ofWord, bfld_wordOf _ _ _ _ le_rfl, bfld_full])

theorem FmtY.bits_ofWord (w : Word64) : (FmtY.ofWord w).bits = bfld w 0 48 := by
  simp only [FmtY.bits, FmtY.ofWord]
  iterate 3 rw [bfld_append_bfld w (by decide)]

theorem FmtY.bits_injective : Function.Injective FmtY.bits := fun f g h => by
  have h := append_inj_iff.mp h
  simp only [append_inj_iff] at h
  cases f; cases g; simp_all

theorem FmtY.ofWord_wordOf (p : Pred) (cls : BitVec 4) (op : Byte) (f : FmtY) : ofWord (wordOf p cls op f.bits) = f :=
  bits_injective (by rw [bits_ofWord, bfld_wordOf _ _ _ _ le_rfl, bfld_full])

end Sys2Proof
end

section
/-!
Decoding an instruction word and encoding an instruction (R175 to R178).
-/
namespace Sys2Proof
open Sys2Proof.Machine

/-- A word spells an instruction for a context: it is the instruction's word, and the instruction runs there under the
word's predicate, CLASS and OPCODE. -/
def Spells (a : At) (w : Word64) (i : Instr) : Prop :=
  encodeWord i = some w ∧ ∃ u, issuedOf i = some u ∧ u.at_ = a ∧ u.p = wordPred w ∧ u.cls = wordClass w ∧ u.op = wordOp w

/-- It spells it where the instruction's word has the word's operands. -/
theorem spells_of {a : At} {w : Word64} {i : Instr} {cls : BitVec 4} {op : Byte} {ok : Checks} {names : List (BitVec 5)}
    {bits : BitVec 48} (hi : issuedOf i = some ⟨a, wordPred w, cls, op, ok, names⟩)
    (he : encodeWord i = some (wordOf (wordPred w) cls op bits)) (hb : bits = bfld w 0 48)
    (hc : wordClass w = cls) (ho : (wordOp w).toNat = op.toNat) : Spells a w i := by
  have ho := BitVec.eq_of_toNat_eq ho
  subst hb hc ho
  exact ⟨he.trans (congrArg some (wordOf_self w)), _, hi, rfl, rfl, rfl, rfl⟩

theorem bit_ofWord_imm (w : Word64) : bit (FmtVI.ofWord w).imm 0 = bit w 0 := by
  simp [FmtVI.ofWord, bit, bfld]

theorem decodeSc_spells {a : At} {w : Word64} {i : Instr} (hc : wordClass w = 1) (h : decodeSc a w = some i) :
    Spells a w i := by
  unfold decodeSc at h
  dsimp only at h
  split at h <;> cases h
  all_goals
    refine spells_of rfl rfl ?_ hc ‹_›
    simp only [FmtS.bits_ofWord, FmtSI.bits_ofWord, FmtSB.bits_ofWord]

theorem decodeVx_spells {a : At} {w : Word64} {i : Instr} (hc : wordClass w = 3) (h : decodeVx a w = some i) :
    Spells a w i := by
  unfold decodeVx at h
  dsimp only at h
  split at h <;> cases h
  case h_31 ho =>
    cases hb : bit w 0
    · exact spells_of rfl (if_neg (by simp [bit_ofWord_imm, hb])) (FmtVI.bits_ofWord w) hc ho
    · exact spells_of rfl (if_pos (by simp [bit_ofWord_imm, hb])) (FmtVI.bits_ofWord w) hc ho
  all_goals
    refine spells_of rfl rfl ?_ hc ‹_›
    simp only [FmtV.bits_ofWord, FmtVI.bits_ofWord]

theorem decodeSc_eq_none {a : At} {w : Word64} : decodeSc a w = none ↔ opcodeAllocated 1 (wordOp w) = false := by
  simp only [decodeSc, opcodeAllocated]
  split <;> simp_all
  omega

theorem decodeVx_eq_none {a : At} {w : Word64} : decodeVx a w = none ↔ opcodeAllocated 3 (wordOp w) = false := by
  simp only [decodeVx, opcodeAllocated]
  split <;> simp_all
  omega

theorem decodeMx_spells {a : At} {w : Word64} {i : Instr} (hc : wordClass w = 2) (h : decodeMx a w = some i) :
    Spells a w i := by
  unfold decodeMx at h
  dsimp only at h
  split at h <;> cases h
  all_goals exact spells_of rfl rfl (FmtM.bits_ofWord w) hc ‹_›

theorem decodeMx_eq_none {a : At} {w : Word64} : decodeMx a w = none ↔ opcodeAllocated 2 (wordOp w) = false := by
  simp only [decodeMx, opcodeAllocated]
  split <;> simp_all
  omega

theorem decodeDm_spells {a : At} {w : Word64} {i : Instr} (hc : wordClass w = 4) (h : decodeDm a w = some i) :
    Spells a w i := by
  unfold decodeDm at h
  dsimp only at h
  split at h <;> cases h
  all_goals exact spells_of rfl rfl (FmtQ.bits_ofWord w) hc ‹_›

theorem decodeDm_eq_none {a : At} {w : Word64} : decodeDm a w = none ↔ opcodeAllocated 4 (wordOp w) = false := by
  simp only [decodeDm, opcodeAllocated]
  split <;> simp_all
  omega

theorem decodeSy_spells {a : At} {w : Word64} {i : Instr} (hc : wordClass w = 5) (h : decodeSy a w = some i) :
    Spells a w i := by
  unfold decodeSy at h
  dsimp only at h
  split at h <;> cases h
  all_goals exact spells_of rfl rfl (FmtY.bits_ofWord w) hc ‹_›

theorem decodeSy_eq_none {a : At} {w : Word64} : decodeSy a w = none ↔ opcodeAllocated 5 (wordOp w) = false := by
  simp only [decodeSy, opcodeAllocated]
  split <;> simp_all
  omega

theorem decodeCl_spells {a : At} {w : Word64} {i : Instr} (hc : wordClass w = 6) (h : decodeCl a w = some i) :
    Spells a w i := by
  unfold decodeCl at h
  dsimp only at h
  split at h <;> cases h
  all_goals exact spells_of rfl rfl (FmtQ.bits_ofWord w) hc ‹_›

theorem decodeCl_eq_none {a : At} {w : Word64} : decodeCl a w = none ↔ opcodeAllocated 6 (wordOp w) = false := by
  simp only [decodeCl, opcodeAllocated]
  split <;> simp_all
  omega

theorem decodeSt_spells {a : At} {w : Word64} {i : Instr} (hc : wordClass w = 7) (h : decodeSt a w = some i) :
    Spells a w i := by
  unfold decodeSt at h
  dsimp only at h
  split at h <;> cases h
  all_goals exact spells_of rfl rfl (FmtY.bits_ofWord w) hc ‹_›

theorem decodeSt_eq_none {a : At} {w : Word64} : decodeSt a w = none ↔ opcodeAllocated 7 (wordOp w) = false := by
  simp only [decodeSt, opcodeAllocated]
  split <;> simp_all
  omega

theorem decodeTr_spells {a : At} {w : Word64} {i : Instr} (hc : wordClass w = 8) (h : decodeTr a w = some i) :
    Spells a w i := by
  unfold decodeTr at h
  dsimp only at h
  split at h <;> cases h
  all_goals exact spells_of rfl rfl (FmtY.bits_ofWord w) hc ‹_›

theorem decodeTr_eq_none {a : At} {w : Word64} : decodeTr a w = none ↔ opcodeAllocated 8 (wordOp w) = false := by
  simp only [decodeTr, opcodeAllocated]
  split <;> simp_all
  omega

/-- What a word decodes to it spells. -/
theorem decodeWord_spells {a : At} {w : Word64} {i : Instr} (h : decodeWord a w = some i) : Spells a w i := by
  unfold decodeWord at h
  split at h
  case h_1 hc => exact decodeSc_spells (BitVec.eq_of_toNat_eq hc) h
  case h_2 hc => exact decodeMx_spells (BitVec.eq_of_toNat_eq hc) h
  case h_3 hc => exact decodeVx_spells (BitVec.eq_of_toNat_eq hc) h
  case h_4 hc => exact decodeDm_spells (BitVec.eq_of_toNat_eq hc) h
  case h_5 hc => exact decodeSy_spells (BitVec.eq_of_toNat_eq hc) h
  case h_6 hc => exact decodeCl_spells (BitVec.eq_of_toNat_eq hc) h
  case h_7 hc => exact decodeSt_spells (BitVec.eq_of_toNat_eq hc) h
  case h_8 hc => exact decodeTr_spells (BitVec.eq_of_toNat_eq hc) h
  case h_9 => cases h

theorem decodeWord_eq_none {a : At} {w : Word64} :
    decodeWord a w = none ↔ opcodeAllocated (wordClass w) (wordOp w) = false := by
  unfold decodeWord
  split
  case h_1 hc => rw [show wordClass w = 1 from BitVec.eq_of_toNat_eq hc, decodeSc_eq_none]
  case h_2 hc => rw [show wordClass w = 2 from BitVec.eq_of_toNat_eq hc, decodeMx_eq_none]
  case h_3 hc => rw [show wordClass w = 3 from BitVec.eq_of_toNat_eq hc, decodeVx_eq_none]
  case h_4 hc => rw [show wordClass w = 4 from BitVec.eq_of_toNat_eq hc, decodeDm_eq_none]
  case h_5 hc => rw [show wordClass w = 5 from BitVec.eq_of_toNat_eq hc, decodeSy_eq_none]
  case h_6 hc => rw [show wordClass w = 6 from BitVec.eq_of_toNat_eq hc, decodeCl_eq_none]
  case h_7 hc => rw [show wordClass w = 7 from BitVec.eq_of_toNat_eq hc, decodeSt_eq_none]
  case h_8 hc => rw [show wordClass w = 8 from BitVec.eq_of_toNat_eq hc, decodeTr_eq_none]
  case h_9 => 
    refine iff_of_true rfl ?_
    unfold opcodeAllocated
    dsimp only
    split <;> first | rfl | contradiction

/-! ### The word of an instruction -/

theorem decodeWord_sc (a : At) (p : Pred) (op : Byte) (bits : BitVec 48) :
    decodeWord a (wordOf p 1 op bits) = decodeSc a (wordOf p 1 op bits) := by
  rw [decodeWord, wordClass_wordOf]; rfl

theorem decodeWord_mx (a : At) (p : Pred) (op : Byte) (bits : BitVec 48) :
    decodeWord a (wordOf p 2 op bits) = decodeMx a (wordOf p 2 op bits) := by
  rw [decodeWord, wordClass_wordOf]; rfl

theorem decodeWord_vx (a : At) (p : Pred) (op : Byte) (bits : BitVec 48) :
    decodeWord a (wordOf p 3 op bits) = decodeVx a (wordOf p 3 op bits) := by
  rw [decodeWord, wordClass_wordOf]; rfl

theorem decodeWord_dm (a : At) (p : Pred) (op : Byte) (bits : BitVec 48) :
    decodeWord a (wordOf p 4 op bits) = decodeDm a (wordOf p 4 op bits) := by
  rw [decodeWord, wordClass_wordOf]; rfl

theorem decodeWord_sy (a : At) (p : Pred) (op : Byte) (bits : BitVec 48) :
    decodeWord a (wordOf p 5 op bits) = decodeSy a (wordOf p 5 op bits) := by
  rw [decodeWord, wordClass_wordOf]; rfl

theorem decodeWord_cl (a : At) (p : Pred) (op : Byte) (bits : BitVec 48) :
    decodeWord a (wordOf p 6 op bits) = decodeCl a (wordOf p 6 op bits) := by
  rw [decodeWord, wordClass_wordOf]; rfl

theorem decodeWord_st (a : At) (p : Pred) (op : Byte) (bits : BitVec 48) :
    decodeWord a (wordOf p 7 op bits) = decodeSt a (wordOf p 7 op bits) := by
  rw [decodeWord, wordClass_wordOf]; rfl

theorem decodeWord_tr (a : At) (p : Pred) (op : Byte) (bits : BitVec 48) :
    decodeWord a (wordOf p 8 op bits) = decodeTr a (wordOf p 8 op bits) := by
  rw [decodeWord, wordClass_wordOf]; rfl

/-- The word of an instruction decodes to it. -/
theorem decodeWord_encodeWord {i : Instr} {u : Issued} {w : Word64} (hu : issuedOf i = some u) (hw : encodeWord i = some w)
    (hi : ∀ a p f, i ≠ .scRdreg a p ⟨f, true⟩) : decodeWord u.at_ w = some i := by
  cases i
  case scAdd | scSub | scMul | scMulhu | scDiv | scDivu | scRem | scRemu | scAnd | scOr | scXor | scShl | scShr |
      scSar | scCmp | scPop | scFadd | scFsub | scFmul | scFfma | scFdiv | scFsqrt | scFrcp | scFtr | scFcmp | scFcvt
      | scTld | scTst | scTset | scTbase | scQld | scQst | scQset | scQaddr | scNop | scExit | scTime | scId =>
    cases hu; cases hw
    rw [decodeWord_sc, decodeSc, wordOp_wordOf]
    exact congrArg some (by rw [wordPred_wordOf, FmtS.ofWord_wordOf])
  case scAddi | scAndi | scOri | scXori | scCmpi | scMovi | scLdhi | scShi | scLd | scSt | scWrreg =>
    cases hu; cases hw
    rw [decodeWord_sc, decodeSc, wordOp_wordOf]
    exact congrArg some (by rw [wordPred_wordOf, FmtSI.ofWord_wordOf])
  case scBr | scBri | scCall =>
    cases hu; cases hw
    rw [decodeWord_sc, decodeSc, wordOp_wordOf]
    exact congrArg some (by rw [wordPred_wordOf, FmtSB.ofWord_wordOf])
  case mxMma | mxDrain | mxVsave | mxVload | mxVfree =>
    cases hu; cases hw
    rw [decodeWord_mx, decodeMx, wordOp_wordOf]
    exact congrArg some (by rw [wordPred_wordOf, FmtM.ofWord_wordOf])
  case vxAdd | vxSub | vxMul | vxFma | vxNeg | vxAbs | vxMin | vxMax | vxSel | vxCmp | vxCvt | vxDiv | vxSqrt |
      vxRecip | vxRsqrt | vxExp | vxExp2 | vxLog | vxLog2 | vxTanh | vxSigmoid | vxErf | vxSegred | vxBcast | vxGrain
      | vxGskip | vxSumm | vxCrc64 | vxSha256 =>
    cases hu; cases hw
    rw [decodeWord_vx, decodeVx, wordOp_wordOf]
    exact congrArg some (by rw [wordPred_wordOf, FmtV.ofWord_wordOf])
  case vxOptstep | vxAddi | vxSubi | vxMuli | vxFmai | vxMini | vxMaxi =>
    cases hu; cases hw
    rw [decodeWord_vx, decodeVx, wordOp_wordOf]
    exact congrArg some (by rw [wordPred_wordOf, FmtVI.ofWord_wordOf])
  case dmGet | dmPut | dmCopy =>
    cases hu; cases hw
    rw [decodeWord_dm, decodeDm, wordOp_wordOf]
    exact congrArg some (by rw [wordPred_wordOf, FmtQ.ofWord_wordOf])
  case clAg | clRs | clAr | clA2a | clBcast | clBar | clUntag =>
    cases hu; cases hw
    rw [decodeWord_cl, decodeCl, wordOp_wordOf]
    exact congrArg some (by rw [wordPred_wordOf, FmtQ.ofWord_wordOf])
  case syInit | sySignal | syWait | syPoll | syFence | syYield | syRsignal =>
    cases hu; cases hw
    rw [decodeWord_sy, decodeSy, wordOp_wordOf]
    exact congrArg some (by rw [wordPred_wordOf, FmtY.ofWord_wordOf])
  case stOpen | stStop | stFix | stSeed =>
    cases hu; cases hw
    rw [decodeWord_st, decodeSt, wordOp_wordOf]
    exact congrArg some (by rw [wordPred_wordOf, FmtY.ofWord_wordOf])
  case trMark | trVal | trCtr =>
    cases hu; cases hw
    rw [decodeWord_tr, decodeTr, wordOp_wordOf]
    exact congrArg some (by rw [wordPred_wordOf, FmtY.ofWord_wordOf])
  case scRdreg a p f =>
    obtain ⟨f, _ | _⟩ := f
    · cases hu; cases hw
      rw [decodeWord_sc, decodeSc, wordOp_wordOf]
      exact congrArg some (by rw [wordPred_wordOf, FmtSI.ofWord_wordOf])
    · exact absurd rfl (hi a p f)
  case vxRmodeEnter a p f =>
    obtain ⟨hb, hw⟩ := Option.ite_none_right_eq_some.mp hw
    cases hu; cases hw
    rw [decodeWord_vx, decodeVx, wordOp_wordOf]
    exact congrArg some (by rw [← bit_ofWord_imm, wordPred_wordOf, FmtVI.ofWord_wordOf, if_pos hb])
  case vxRmodeLeave a p f =>
    obtain ⟨hb, hw⟩ := Option.ite_none_left_eq_some.mp hw
    cases hu; cases hw
    rw [decodeWord_vx, decodeVx, wordOp_wordOf]
    exact congrArg some (by rw [← bit_ofWord_imm, wordPred_wordOf, FmtVI.ofWord_wordOf, if_neg hb])
  all_goals cases hu

/-- Settles O56: a word is its header and its operand bits, and each format is its operand bits. -/
theorem instructionWords : Obligations.InstructionWords :=
  ⟨fun _ _ => ⟨decodeWord_eq_none, fun _ => decodeWord_spells⟩, fun _ _ _ => decodeWord_encodeWord,
    fun _ => ⟨rfl, rfl, rfl, rfl⟩⟩

end Sys2Proof
end

section
/-!
SUPPORT. The checks an instruction meets before it acts, one rule a check (Table 5-8, R177, R179, R182, R197, R217).
-/
namespace Sys2Proof.Machine

/-- Changing nothing of a context changes nothing. -/
theorem modCtx_id (s : State) (a : At) : s.modCtx a id = s := by
  have hslot : (s.cell a.cell).modSlot a.slot (fun y => { y with ctx := id y.ctx }) = s.cell a.cell :=
    congrArg (fun v => { s.cell a.cell with slots := v }) (vset_vget_self (s.cell a.cell).slots a.slot)
  rw [State.modCtx, State.modSlot, State.modCell, hslot]
  exact congrArg (fun v => { s with cells := v }) (vset_vget_self s.cells a.cell)

/-- An instruction without effect issues and goes on. -/
theorem after_id (s : State) (a : At) : s.after a id = (s.countIssue a).retire a := by
  rw [State.after, modCtx_id]

theorem predReserved_iff {p : Pred} : predReserved p = true ↔ p.neg = true ∧ p.preg = 0 := by simp [predReserved]

theorem predTrue_false_iff {p : Pred} {ps : BitVec 8} :
    predTrue p ps = false ↔ p.preg ≠ 0 ∧ bit ps p.preg.toNat = p.neg := by
  by_cases h : p.preg = 0 <;> simp [predTrue, h]

section
variable {s : State} {a : At} {p : Pred} {cls : BitVec 4} {op : Byte} {ok : Checks} {names : List (BitVec 5)}
  {body : State → Res}

/-- A slot that does not issue takes no instruction. -/
theorem issue_idle (h : (s.cell a.cell).issues a.slot = false) : s.issue a p cls op ok names body = .next s := if_pos h

variable (hi : (s.cell a.cell).issues a.slot = true)
include hi

/-- A fetch fault comes before every other check. -/
theorem issue_fetchFault {code : Byte} (hf : s.fetchFault a = some code) : s.issue a p cls op ok names body =
    if code = 0x08 then .next (s.corePoison a cls op (s.slot a).fetchAddr 8)
    else .next (s.coreFault a cls op code (BitVec.ofNat 64 (s.slot a).fetchAddr)) := by
  rw [State.issue, if_neg (by simp [hi]), hf]

variable (hf : s.fetchFault a = none)
include hf

/-- Then come the fields of the format that must be zero, and the reserved predicate. -/
theorem issue_reserved (h : ok.fmt = false ∨ predReserved p = true) :
    s.issue a p cls op ok names body = .next (s.coreFault a cls op 0x02 0) := by
  rw [State.issue, if_neg (by simp [hi]), hf]
  exact if_pos h

variable (hfmt : ok.fmt = true) (hres : predReserved p = false)
include hfmt hres

/-- A false predicate retires the instruction (R197). -/
theorem issue_predFalse (h : predTrue p (s.slot a).ctx.p = false) :
    s.issue a p cls op ok names body = .next (s.after a id) := by
  rw [State.issue, if_neg (by simp [hi]), hf, after_id]
  exact (if_neg (by simp [hfmt, hres])).trans (if_pos h)

variable (hp : predTrue p (s.slot a).ctx.p = true)
include hp

/-- Under a true one the remaining fields are checked. -/
theorem issue_code (h : ok.code = false) : s.issue a p cls op ok names body = .next (s.coreFault a cls op 0x02 0) := by
  rw [State.issue, if_neg (by simp [hi]), hf]
  exact (if_neg (by simp [hfmt, hres])).trans ((if_neg (by simp [hp])).trans (if_pos h))

/-- A pending s register holds the instruction (R149). -/
theorem issue_pending (h : ok.code = true) (hn : ∃ r ∈ names, (s.cell a.cell).pendingS a.slot r = true) :
    s.issue a p cls op ok names body = .next (s.stall a 0x5) := by
  rw [State.issue, if_neg (by simp [hi]), hf]
  exact (if_neg (by simp [hfmt, hres])).trans ((if_neg (by simp [hp])).trans ((if_neg (by simp [h])).trans
    (if_pos (List.any_eq_true.mpr hn))))

end

end Sys2Proof.Machine
end

section
/-!
What every instruction is checked for before it acts (Table 5-8), p0, the frame of an instruction that changes its context
only, and what sc.exit leaves of the latches.
-/
namespace Sys2Proof.Machine

/-- Settles O5: every instruction goes through the shared checks (`issue_shape`), one rule a check. That a false predicate
leaves code and operand fields unchecked is R197 in the order of log entry 17. -/
theorem decodeAndPredicateRules : Obligations.DecodeAndPredicateRules := by
  intro i s w hw
  obtain ⟨body, hexec⟩ := issue_shape i s w hw
  simp only [hexec]
  refine ⟨issue_idle, fun hi => ⟨issue_fetchFault hi, issue_fetchFault hi, fun hf => ⟨fun h => ?_, fun hfmt h => ?_,
    fun hfmt hres hp => ⟨issue_code hi hf hfmt hres hp, issue_pending hi hf hfmt hres hp⟩⟩⟩⟩
  · exact issue_reserved hi hf (h.imp_right predReserved_iff.mpr)
  · have hres : predReserved w.p = false := Bool.eq_false_iff.mpr fun hr => h.1 (predReserved_iff.mp hr).2
    exact issue_predFalse hi hf hfmt hres (predTrue_false_iff.mpr h)

/-- An instruction that names p0 as its destination takes RESERVED_FIELD, or retires under a false predicate. -/
theorem exec_of_code_false {i : Instr} {s : State} {a : At} {p : Pred} {cls : BitVec 4} {op : Byte} {ok : Checks}
    {names : List (BitVec 5)} (hw : issuedOf i = some ⟨a, p, cls, op, ok, names⟩)
    (hi : (s.cell a.cell).issues a.slot = true) (hf : s.fetchFault a = none) (hcode : ok.code = false) :
    ((predReserved p = true ∨ predTrue p (s.slot a).ctx.p = true) → exec i s = .next (s.coreFault a cls op 0x02 0)) ∧
    (ok.fmt = true → predReserved p = false → predTrue p (s.slot a).ctx.p = false → exec i s = .next (s.after a id)) := by
  obtain ⟨body, hexec⟩ := issue_shape i s _ hw
  rw [hexec]
  refine ⟨fun h => ?_, issue_predFalse hi hf⟩
  by_cases hr : ok.fmt = false ∨ predReserved p = true
  · exact issue_reserved hi hf hr
  · rw [not_or, Bool.not_eq_false, Bool.not_eq_true] at hr
    exact issue_code hi hf hr.1 hr.2 (h.resolve_left (by simp [hr.2])) hcode

/-- Settles O54: PD = 0 is a code that is not allocated, so a true predicate takes RESERVED_FIELD; that a false one retires
without it is derived from R197 (log entry 17). -/
theorem predicateZeroReadsTrue : Obligations.PredicateZeroReadsTrue := by
  refine ⟨fun _ => ⟨rfl, rfl⟩, fun s a p f hpd hi hf => ?_, fun s a p f hpd hi hf => ?_, fun s a p f hpd hi hf => ?_,
    fun s a p f hpd hi hf => ?_⟩
  · obtain ⟨hfault, hgo⟩ := exec_of_code_false (i := .scCmp a p f) rfl hi hf (by simp [hpd])
    exact ⟨hfault, fun h => hgo (by simp [h])⟩
  · obtain ⟨hfault, hgo⟩ := exec_of_code_false (i := .scPop a p f) rfl hi hf (by simp [hpd])
    exact ⟨hfault, fun h => hgo (by simp [h])⟩
  · obtain ⟨hfault, hgo⟩ := exec_of_code_false (i := .scCmpi a p f) rfl hi hf (by simp [hpd])
    exact ⟨hfault, hgo rfl⟩
  · obtain ⟨hfault, hgo⟩ := exec_of_code_false (i := .scFcmp a p f) rfl hi hf (by simp [hpd])
    exact ⟨hfault, fun h => hgo (by simp [h])⟩

/-- Settles O4: such an instruction changes one cell (`after_eq`), there its issue registers and one slot. -/
theorem contextChangeFrame : Obligations.ContextChangeFrame := by
  intro s a g t
  have ht : t = s.modCell a.cell (fun x => (x.modRegs (fun r => { r with coreIssue := r.coreIssue + 1, stall := 0 })).modSlot
      a.slot (fun y => Slot.retire { y with ctx := g y.ctx })) := after_eq s a g
  have hcell := congrArg (State.cell · a.cell) ht
  simp only [modCell_cell_self] at hcell
  have hslot : t.slot a = Slot.retire { s.slot a with ctx := g (s.slot a).ctx } :=
    (congrArg (Cell.slot · a.slot) hcell).trans (modSlot_slot_self ..)
  refine ⟨by rw [hslot]; rfl, by rw [hcell]; rfl, by rw [hslot]; rfl, by rw [hslot]; rfl, by rw [hslot]; rfl, ?_, ?_,
    by rw [hcell]; rfl, by rw [ht]; rfl⟩
  · intro i hi
    rw [hcell, modSlot_slot_ne _ _ _ _ hi.symm]; rfl
  · intro c hc
    rw [ht, modCell_cell_ne _ _ _ _ hc.symm]

/-- Slot 0 of cell 0 runs, its next instruction is at the start of the cell store, and it is the owner of step latch 60. No
sy.init makes this state (R251), but the statement speaks of every state. -/
def State.stepLatchOwned : State :=
  State.reset.modCell 0 (fun x =>
    { (x.modSlot 0 (fun y => { y with state := .running })).setLatch 60 ⟨0, some (0, 0)⟩ with running := some 0 })

/-- sc.exit with no operand. -/
def exitOperands : FmtS := ⟨0, 0, 0, 0, 0, 0, 0⟩

theorem stepLatchOwned_takes : State.stepLatchOwned.takes (.scExit ⟨0, 0⟩ ⟨false, 0⟩ exitOperands) = true := by decide +kernel

/-- sc.exit of that context ends it, and latch 60 keeps its owner: only general latches are abandoned. -/
theorem stepLatchOwned_exit :
    exec (.scExit ⟨0, 0⟩ ⟨false, 0⟩ exitOperands) State.stepLatchOwned =
      .next ((State.stepLatchOwned.countIssue ⟨0, 0⟩).endContext ⟨0, 0⟩ 0x1) ∧
    (((State.stepLatchOwned.countIssue ⟨0, 0⟩).endContext ⟨0, 0⟩ 0x1).cell 0).latch 60 = ⟨0, some (0, 0)⟩ := by
  refine ⟨?_, by decide +kernel⟩
  rw [exec_scExit, execScExit, issue_takes (takes_word stepLatchOwned_takes rfl)]
  exact (if_neg (by decide +kernel)).trans (if_neg (by decide +kernel))

/-- Refutes O8: sc.exit abandons the general latches of its context (R251), and the statement claims that no latch at all
is left to it; in a state where step latch 60 has an owner it keeps it. -/
theorem not_branchesAndContextEnd : ¬ Obligations.BranchesAndContextEnd := by
  intro h
  obtain ⟨-, -, -, hexit⟩ := h State.stepLatchOwned ⟨0, 0⟩ ⟨false, 0⟩ ⟨0, 0, 0⟩
  obtain ⟨hends, -, -⟩ := hexit exitOperands stepLatchOwned_takes
  obtain ⟨t, hexec, -, -, -, hlatch, -⟩ := hends (by decide +kernel) (by decide +kernel)
  obtain ⟨heval, hkept⟩ := stepLatchOwned_exit
  obtain rfl := Host.Outcome.next.inj (heval.symm.trans hexec)
  have h60 := hlatch 60
  rw [hkept] at h60
  exact absurd h60 (by decide)

end Sys2Proof.Machine
end

section
/-!
SUPPORT. What the form of a cell speaks of: cell store, vat, v registers and p0 (R172, R259, R298). A change that leaves
these leaves the form, so the lemmas below say of each state operation only that it leaves what the cells hold.
-/
namespace Sys2Proof.Machine

/-- What `Cell.form` speaks of in a slot: the v registers and p0. -/
def Slot.held (y : Slot) : ProtMem × Bool := (y.ctx.v, bit y.ctx.p 0)

/-- What it speaks of in a cell: cell store, vat, v registers and p0. -/
def Cell.held (x : Cell) : ProtMem × ProtMem × Vector (ProtMem × Bool) 2 := (x.store, x.vat, x.slots.map Slot.held)

/-- What the cells hold. -/
def held (v : Vector Cell 64) : Vector (ProtMem × ProtMem × Vector (ProtMem × Bool) 2) 64 := v.map Cell.held

theorem Slot.form_iff (y : Slot) : y.ctx.form ↔ y.held.1.wf = true ∧ y.held.2 = true := Iff.rfl

theorem Cell.form_iff (x : Cell) : x.form ↔ x.held.1.wf = true ∧ x.held.2.1.wf = true ∧
    ∀ i, (vget x.held.2.2 i).1.wf = true ∧ (vget x.held.2.2 i).2 = true := by
  simp only [Cell.form, Cell.held, vget_map, Slot.form_iff]

theorem Cell.form_congr {x y : Cell} (h : y.held = x.held) (hx : x.form) : y.form := by
  rw [Cell.form_iff, h, ← Cell.form_iff]; exact hx

theorem held_vget {v w : Vector Cell 64} (h : held w = held v) (c : CellId) : (vget w c).held = (vget v c).held := by
  have := congrArg (vget · c) h
  simpa only [held, vget_map] using this

/-- A change that leaves what the cells hold leaves them in form. -/
theorem cellForm_of_held {s t : State} (h : held t.cells = held s.cells) (hs : s.cellForm) : t.cellForm :=
  fun c => Cell.form_congr (held_vget h c) (hs c)

@[simp] theorem modCell_held (s : State) (c : CellId) {f : Cell → Cell} (h : ∀ x, (f x).held = x.held) :
    held (s.modCell c f).cells = held s.cells := map_vmod Cell.held s.cells c (h _)
@[simp] theorem setCell_held (s : State) (c : CellId) {x : Cell} (h : x.held = (s.cell c).held) :
    held (s.setCell c x).cells = held s.cells := map_vmod Cell.held s.cells c (f := fun _ => x) h
@[simp] theorem Cell.modRegs_held (x : Cell) (f : CellRegs → CellRegs) : (x.modRegs f).held = x.held := (rfl)
@[simp] theorem Cell.modEng_held (x : Cell) (f : Engines → Engines) : (x.modEng f).held = x.held := (rfl)
@[simp] theorem Cell.setLatch_held (x : Cell) (l : BitVec 6) (v : Latch) : (x.setLatch l v).held = x.held := (rfl)

@[simp] theorem Cell.modSlot_held (x : Cell) (i : SlotId) {f : Slot → Slot} (h : ∀ y, (f y).held = y.held) :
    (x.modSlot i f).held = x.held :=
  congrArg (fun v => (x.store, x.vat, v)) (map_vmod Slot.held x.slots i (h _))

/-- The slots are changed, and other fields with them. -/
@[simp] theorem Cell.held_modSlot (x : Cell) (i : SlotId) {f : Slot → Slot} (h : ∀ y, (f y).held = y.held)
    (r vl e l sg rn sw g sb fz) :
    Cell.held ⟨r, x.store, x.vat, vl, e, (x.modSlot i f).slots, l, sg, rn, sw, g, sb, fz⟩ = x.held := x.modSlot_held i h

@[simp] theorem modSlot_held (s : State) (a : At) {f : Slot → Slot} (h : ∀ y, (f y).held = y.held) :
    held (s.modSlot a f).cells = held s.cells := modCell_held s a.cell fun x => x.modSlot_held a.slot h
@[simp] theorem modCtx_held (s : State) (a : At) {f : Ctx → Ctx} (h : ∀ y, (f y).v = y.v ∧ bit (f y).p 0 = bit y.p 0) :
    held (s.modCtx a f).cells = held s.cells := modSlot_held s a fun y => by simp [Slot.held, h]
@[simp] theorem Slot.retire_held (y : Slot) : y.retire.held = y.held := (rfl)
@[simp] theorem Cell.held_eta (x : Cell) (r vl e l sg rn sw g sb fz) :
    Cell.held ⟨r, x.store, x.vat, vl, e, x.slots, l, sg, rn, sw, g, sb, fz⟩ = x.held := (rfl)
@[simp] theorem Slot.held_eta (y : Slot) (j st ec ic cf cc wt wk g w sq sp fs od) :
    Slot.held ⟨y.ctx, j, st, ec, ic, cf, cc, wt, wk, g, w, sq, sp, fs, od⟩ = y.held := (rfl)

@[simp] theorem Slot.faulted_held (y : Slot) (src : Src) (code : Byte) (t : Tag) : (y.faulted src code t).held = y.held := by
  unfold Slot.faulted; split
  · dsimp only; split <;> rfl
  · rfl

@[simp] theorem Slot.release_held (y : Slot) (l : BitVec 6) : (y.release l).held = y.held := by
  unfold Slot.release; split
  · split <;> rfl
  · rfl

@[simp] theorem Cell.choose_held (x : Cell) : x.choose.held = x.held := by
  have h (i : SlotId) : (x.modSlot i (fun y => { y with state := .running })).held = x.held := x.modSlot_held i fun _ => rfl
  unfold Cell.choose; split
  · exact h 0
  · split
    · exact h 1
    · rfl

@[simp] theorem Cell.freed_held (x : Cell) : x.freed.held = x.held := (rfl)
@[simp] theorem Cell.freeze_held (x : Cell) (b : Bool) : (x.freeze b).held = x.held := (rfl)
@[simp] theorem Cell.traceCtlOp_held (x : Cell) (v : Word32) : (x.traceCtlOp v).held = x.held := by
  dsimp only [Cell.traceCtlOp]; split <;> rfl
@[simp] theorem Ctx.setS_v (x : Ctx) (i v) : (x.setS i v).v = x.v := (rfl)
@[simp] theorem Ctx.setS_p (x : Ctx) (i v) : (x.setS i v).p = x.p := (rfl)
@[simp] theorem ite_cells {c : Prop} [Decidable c] (s t : State) :
    (if c then s else t).cells = if c then s.cells else t.cells := apply_ite State.cells c s t
@[simp] theorem ite_held {c : Prop} [Decidable c] (v w : Vector Cell 64) :
    held (if c then v else w) = if c then held v else held w := apply_ite held c v w
@[simp] theorem foldl_cells {α : Type} {f : State → α → State} (h : ∀ t a, (f t a).cells = t.cells) (l : List α) (s : State) :
    (l.foldl f s).cells = s.cells := foldl_keeps State.cells h l s
@[simp] theorem foldl_held {α : Type} {f : State → α → State} (h : ∀ t a, held (f t a).cells = held t.cells) (l : List α) (s : State) :
    held (l.foldl f s).cells = held s.cells := foldl_keeps (fun t => held t.cells) h l s

end Sys2Proof.Machine
end

section
/-!
SUPPORT. Operations that leave the cells: records, registers outside the cells, twins, frames, links, memory and host.
-/
namespace Sys2Proof.Machine

@[simp] theorem keepCopies_cells (s : State) : s.keepCopies.cells = s.cells := by simp [State.keepCopies]
@[simp] theorem stepTime_cells (s : State) (n : Nat) : (s.stepTime n).cells = s.cells := by simp [State.stepTime]
@[simp] theorem sysEvent_cells (s : State) (die : DieId) (code : Byte) (sev : Sev) (eng : Byte) :
    (s.sysEvent die code sev eng).cells = s.cells := by simp [State.sysEvent]
@[simp] theorem regIgnored_cells (s : State) (die : DieId) : (s.regIgnored die).cells = s.cells := by
  simp [State.regIgnored]
@[simp] theorem latchAbandoned_cells (s : State) (a : At) : (s.latchAbandoned a).cells = s.cells := by
  simp [State.latchAbandoned]

@[simp] theorem startReset_cells (s : State) (lvl : ResetLevel) (c : CellId) (slot : SlotId) (e : BitVec 4)
    (p : PartId) (cause : BitVec 4) : (s.startReset lvl c slot e p cause).cells = s.cells := by
  simp [State.startReset]

@[simp] theorem raiseVector_cells (s : State) (v : Fin 16) : (s.raiseVector v).cells = s.cells := by
  simp [State.raiseVector]
@[simp] theorem sendPending_cells (s : State) : s.sendPending.cells = s.cells := by simp [State.sendPending]
@[simp] theorem alertSet_cells (s : State) (i : Fin 6) : (s.alertSet i).cells = s.cells := by simp [State.alertSet]
@[simp] theorem chipFault_cells (s : State) : s.chipFault.cells = s.cells := by simp [State.chipFault]
@[simp] theorem undefineDram_cells (s : State) (a n : Nat) : (s.undefineDram a n).cells = s.cells := by
  simp [State.undefineDram]
@[simp] theorem undefinePages_cells (s : State) (p : PartId) : (s.undefinePages p).cells = s.cells := by
  simp [State.undefinePages]

@[simp] theorem abort_cells (s : State) (p : PartId) (cause : Nat) : (s.abort p cause).cells = s.cells := by
  unfold State.abort
  split <;> simp

@[simp] theorem endRotations_cells (s : State) (f : TestItem → Bool) : (s.endRotations f).cells = s.cells := by
  simp [State.endRotations]
@[simp] theorem modXd_cells (s : State) (j : JoinId) (f : Xd → Xd) : (s.modXd j f).cells = s.cells := by
  simp [State.modXd]
@[simp] theorem modXdDir_cells (s : State) (j : JoinId) (d : Fin 2) (f : XdDir → XdDir) :
    (s.modXdDir j d f).cells = s.cells := by simp [State.modXdDir]

theorem carry_cells (c : Fin 3) : ∀ (l : List JoinId) (a : DieId) (s : State), (State.carry c a l s).2.cells = s.cells
  | [], _, _ => rfl
  | j :: rest, a, s => by
    dsimp only [State.carry]
    cases vget ((s.xd j).dir (wayOf j a)).passed c <;> cases across j a
    · rfl
    · exact carry_cells c rest _ _
    · rfl
    · exact carry_cells c rest _ _

@[simp] theorem carryTo_cells (s : State) (c : Fin 3) (a b : DieId) (k : Nat) : (s.carryTo c a b k).2.cells = s.cells := by
  unfold State.carryTo
  split
  · exact carry_cells ..
  · rfl

@[simp] theorem persistPoison_cells (s : State) (p : PartId) (addr : Nat) (who : Option At) (atRetire : Bool) :
    (s.persistPoison p addr who atRetire).cells = s.cells := by
  dsimp only [State.persistPoison]
  (repeat' split) <;> simp

@[simp] theorem countCe_cells (s : State) (n : StackId) (ch : ChanId) (addr : Nat) (syn : Word32) :
    (s.countCe n ch addr syn).cells = s.cells := by simp [State.countCe]
@[simp] theorem flipBits_cells (s : State) (d : Nat) (fs : List (Fin 64 × BitVec 39)) :
    (s.flipBits d fs).cells = s.cells := by simp [State.flipBits]
@[simp] theorem requestMapout_cells (s : State) (n : StackId) (ch : ChanId) :
    (s.requestMapout n ch).cells = s.cells := by simp [State.requestMapout]

@[simp] theorem marginBurst_cells (s : State) (n : StackId) (ch : ChanId) : (s.marginBurst n ch).cells = s.cells := by
  unfold State.marginBurst
  split <;> rfl

@[simp] theorem burstCrc_cells (s : State) (n : StackId) (ch : ChanId) (view d : Nat) (who : Option At) (wr : Bool)
    (fails : Nat) : (s.burstCrc n ch view d who wr fails).cells = s.cells := by simp [State.burstCrc]

@[simp] theorem crossed_cells (s : State) (who : Option At) (wr : Bool) (view d : Nat)
    (w : Nat × List (Fin 64 × BitVec 39)) : (s.crossed who wr view d w).cells = s.cells := by
  unfold State.crossed
  split <;> simp

@[simp] theorem noteWord_cells (s : State) (who : Option At) (opt : Bool) (pend : Bool) (view d : Nat)
    (m : BitVec 39) : (s.noteWord who opt pend view d m).cells = s.cells := by
  dsimp only [State.noteWord]
  (repeat' split) <;> simp

@[simp] theorem noteBurst_cells (s : State) (who : Option At) (opt : Bool) (view d : Nat) :
    (s.noteBurst who opt view d).cells = s.cells := by simp [State.noteBurst]

@[simp] theorem dramNote_cells (s : State) (who : Option At) (opt : Bool) (a len : Nat) :
    (s.dramNote who opt a len).cells = s.cells := by
  unfold State.dramNote
  refine foldl_cells (fun t a => ?_) _ _
  split <;> simp

@[simp] theorem mergeRead_cells (s : State) (view d n : Nat) : (s.mergeRead view d n).cells = s.cells := by
  simp [State.mergeRead]
@[simp] theorem writeBurst_cells (s : State) (view d : Nat) (bs : List Byte) :
    (s.writeBurst view d bs).cells = s.cells := by simp [State.writeBurst]

@[simp] theorem dramWrite_cells (s : State) (w : Writer) (a : Nat) (bs : List Byte) :
    (s.dramWrite w a bs).cells = s.cells := by
  unfold State.dramWrite
  refine foldl_cells (fun t a => ?_) _ _
  split <;> simp

@[simp] theorem dramPoison_cells (s : State) (a : Nat) (offs : List Nat) : (s.dramPoison a offs).cells = s.cells := by
  unfold State.dramPoison
  refine foldl_cells (fun t a => ?_) _ _
  split <;> simp

theorem bucket_cells {s t : State} {p : PartId} {d : Nat} (h : s.bucket p d = some t) : t.cells = s.cells := by
  unfold State.bucket at h
  dsimp only at h
  split_ifs at h <;> cases h <;> rfl

theorem thermal_cells {s t : State} {coll : Bool} {d : Nat} (h : s.thermal coll d = some t) : t.cells = s.cells := by
  unfold State.thermal at h
  dsimp only at h
  split_ifs at h <;> cases h <;> rfl

@[simp] theorem bucketAdmit_cells (s : State) (n : StackId) (i : Nat) : (s.bucketAdmit n i).cells = s.cells := by
  unfold State.bucketAdmit
  split
  · rfl
  · split
    · rfl
    · split
      · rfl
      · next h => simp [bucket_cells h]

@[simp] theorem thermAdmit_cells (s : State) (n : StackId) (i : Nat) : (s.thermAdmit n i).cells = s.cells := by
  unfold State.thermAdmit
  split
  · rfl
  · split
    · rfl
    · split
      · rfl
      · next h => simp [thermal_cells h]

@[simp] theorem enqueue_cells (s : State) (r : MemReq) : (s.enqueue r).cells = s.cells := by simp [State.enqueue]

@[simp] theorem moves_cells (s : State) (p : Option PartId) (coll : Bool) (a len : Nat) :
    (s.moves p coll a len).cells = s.cells := by
  unfold State.moves
  refine foldl_cells (fun t a => ?_) _ _
  split <;> simp

@[simp] theorem charge_cells (s : State) (p : PartId) (coll : Bool) (a len : Nat) :
    (s.charge p coll a len).cells = s.cells := by simp [State.charge]
@[simp] theorem chargeAll_cells (s : State) (p : PartId) (coll : Bool) (l : List (Nat × Nat)) :
    (s.chargeAll p coll l).cells = s.cells := by simp [State.chargeAll]
@[simp] theorem sees_cells (s : State) (p : PartId) (coll : Bool) (who : Option At) (a len : Nat) :
    (s.sees p coll who a len).cells = s.cells := by simp [State.sees]

@[simp] theorem payBurst_cells (s : State) (p : PartId) (coll : Bool) (d : Nat) (b : Bool) :
    (s.payBurst p coll d b).1.cells = s.cells := by
  unfold State.payBurst
  split
  · rfl
  · next t h =>
    have ht : t.cells = s.cells := by
      split at h
      · cases h; rfl
      · exact bucket_cells h
    split
    · exact ht
    · next hu => exact (thermal_cells hu).trans ht

theorem admitBursts_cells : ∀ (l : List (Option PartId × Bool × Nat)) (t : State) (kept paid : List (PartId × Bool × Nat × Bool))
    (ok : Bool), (State.admitBursts l t kept paid ok).1.cells = t.cells
  | [], _, _, _, _ => rfl
  | (none, _, _) :: rest, t, kept, paid, ok => admitBursts_cells rest t kept paid ok
  | (some p, coll, d) :: rest, t, kept, paid, ok => by
    dsimp only [State.admitBursts]
    split
    · exact admitBursts_cells rest ..
    · exact (admitBursts_cells rest ..).trans (payBurst_cells ..)

@[simp] theorem letBursts_cells (t : State) (l : List (Option PartId × Bool × Nat)) : (t.letBursts l).1.cells = t.cells :=
  admitBursts_cells ..

@[simp] theorem forwarded_cells (s : State) (a len : Nat) : (s.forwarded a len).cells = s.cells := by
  refine foldl_cells (fun t q => ?_) _ s
  split
  · rfl
  · rw [foldl_cells]
    intros
    rfl

@[simp] theorem looks_cells (s : State) (p : PartId) (a len : Nat) : (s.looks p a len).cells = s.cells := by
  refine (foldl_cells (fun t q => ?_) _ _).trans (dramNote_cells ..)
  split
  · rfl
  · exact enqueue_cells ..

@[simp] theorem noteTable_cells (r : VxRun) (s : State) (c : CellId) : (r.noteTable s c).cells = s.cells := by
  dsimp only [VxRun.noteTable]
  split
  · rfl
  · split <;> simp

@[simp] theorem optStore_cells (r : OptRun) (s : State) (p : PartId) (es : List OptElem) : (r.store s p es).cells = s.cells := by
  simp [OptRun.store]
@[simp] theorem sendOut_cells (s : State) (f : FabId) (xs : List OutFrame) : (s.sendOut f xs).cells = s.cells := by
  simp [State.sendOut]
@[simp] theorem dropXfer_cells (s : State) (c : CellId) (i : Fin 8) : (s.dropXfer c i).cells = s.cells := by
  simp [State.dropXfer]

theorem dmRead_cells {s : State} {c : CellId} {i : SlotId} {x : Side} {n : Nat} {r : List Byte × Bool × State}
    (h : s.dmRead c i x n = some r) : r.2.2.cells = s.cells := by
  unfold State.dmRead at h
  split at h
  · cases h; rfl
  · split at h
    · cases h; simp
    · cases h
  · cases h

theorem dmReadPart_cells {s : State} {c : CellId} {m : DmInstr} {k n : Nat} {r : List Byte × Bool × State}
    (h : s.dmReadPart c m k n = some r) : r.2.2.cells = s.cells := by
  refine List.foldlRecOn (m.part s c k n) _ (motive := fun o => ∀ r, o = some r → r.2.2.cells = s.cells) ?_ ?_ r h
  · intro r hr; cases hr; rfl
  · intro o ho p _ r hr
    obtain ⟨b, hb, hr⟩ := Option.bind_eq_some_iff.mp hr
    obtain ⟨d, hd, rfl⟩ := Option.map_eq_some_iff.mp hr
    exact (dmRead_cells hd).trans (ho b hb)

@[simp] theorem dmHost_cells (s : State) (c : CellId) (i : Fin 8) (m : DmInstr) (toHost : Bool) :
    (s.dmHost c i m toHost).cells = s.cells := by
  unfold State.dmHost
  split <;> rfl

@[simp] theorem setAttr_cells (s : State) (g : StackId × Nat) (v : BitVec 4) : (s.setAttr g v).cells = s.cells := by
  simp [State.setAttr]
@[simp] theorem setStreamed_cells (s : State) (page : Nat) (b : Bool) : (s.setStreamed page b).cells = s.cells := by
  simp [State.setStreamed]
@[simp] theorem listLooks_cells (s : State) (p : PartId) (list : Word64) (listN : Word32) :
    (s.listLooks p list listN).cells = s.cells := by simp [State.listLooks]
@[simp] theorem sheetWriteTrailer_cells (s : State) (p : PartId) (result : Nat) :
    (s.sheetWriteTrailer p result).cells = s.cells := by simp [State.sheetWriteTrailer]
@[simp] theorem sheetEnd_cells (s : State) (p : PartId) (code result : Nat) :
    (s.sheetEnd p code result).cells = s.cells := by simp [State.sheetEnd]
@[simp] theorem sheetFail_cells (s : State) (p : PartId) (result : Nat) : (s.sheetFail p result).cells = s.cells := by
  simp [State.sheetFail]
@[simp] theorem sheetSwitch_cells (s : State) (p : PartId) : (s.sheetSwitch p).cells = s.cells := by
  simp [State.sheetSwitch]
@[simp] theorem sheetsTouched_cells (s : State) (unmark : Bool) (a n : Nat) :
    (s.sheetsTouched unmark a n).cells = s.cells := by simp [State.sheetsTouched]

@[simp] theorem sheetTake_cells (s : State) (p : PartId) : (s.sheetTake p).cells = s.cells := by
  unfold State.sheetTake
  split <;> simp

@[simp] theorem partEvent_cells (s : State) (p : PartId) (code : Byte) (sev : Sev) (eng : Byte) (detail : Nat) :
    (s.partEvent p code sev eng detail).cells = s.cells := by simp [State.partEvent]
@[simp] theorem verdictMismatch_cells (s : State) (p : PartId) : (s.verdictMismatch p).cells = s.cells := by
  simp [State.verdictMismatch]
@[simp] theorem recount_cells (s : State) (g : Fin 256) : (s.recount g).cells = s.cells := by simp [State.recount]
@[simp] theorem checkGroup_cells (s : State) (g : Fin 256) : (s.checkGroup g).cells = s.cells := by
  simp [State.checkGroup]
@[simp] theorem flipGroup_cells (s : State) (g : Fin 256) : (s.flipGroup g).cells = s.cells := by
  simp [State.flipGroup]
@[simp] theorem unbuildGroup_cells (s : State) (g : Fin 256) : (s.unbuildGroup g).cells = s.cells := by
  simp [State.unbuildGroup]
@[simp] theorem applyPart_cells (s : State) (p : PartId) : (s.applyPart p).cells = s.cells := by
  simp [State.applyPart]
@[simp] theorem routeRejected_cells (s : State) : s.routeRejected.cells = s.cells := by simp [State.routeRejected]

@[simp] theorem routeApply_cells (s : State) : s.routeApply.cells = s.cells := by
  dsimp only [State.routeApply]
  (repeat' split) <;> simp

@[simp] theorem powerApply_cells (s : State) : s.powerApply.cells = s.cells := by simp [State.powerApply]
@[simp] theorem boundaryApply_cells (s : State) (p : PartId) : (s.boundaryApply p).cells = s.cells := by
  simp [State.boundaryApply]
@[simp] theorem checkGroups_cells (s : State) : s.checkGroups.cells = s.cells := by simp [State.checkGroups]
@[simp] theorem twinEvent_cells (s : State) (p : PartId) (code : Byte) (detail : Nat) :
    (s.twinEvent p code detail).cells = s.cells := by simp [State.twinEvent]
@[simp] theorem restoreEnd_cells (s : State) (p : PartId) (result done : Nat) :
    (s.restoreEnd p result done).cells = s.cells := by simp [State.restoreEnd]
@[simp] theorem mispaired_cells (s : State) (p : PartId) (detail : Nat) : (s.mispaired p detail).cells = s.cells := by
  simp [State.mispaired]
@[simp] theorem twinRefused_cells (s : State) (p : PartId) (mark : Nat) : (s.twinRefused p mark).cells = s.cells := by
  simp [State.twinRefused]
@[simp] theorem twinOut_cells (s : State) (p : PartId) (f : FabId) (mark : Nat) (fs : List OutFrame) :
    (s.twinOut p f mark fs).cells = s.cells := by simp [State.twinOut]

theorem takeMsg_cells {s : State} {p : PartId} {type : Byte} {r : TwinMsg × State} (h : s.takeMsg p type = some r) :
    r.2.cells = s.cells := by
  unfold State.takeMsg at h
  split at h
  · split at h
    · cases h; rfl
    · cases h
  · cases h

@[simp] theorem streamOpen_cells (s : State) (p : PartId) : (s.streamOpen p).cells = s.cells := by
  simp [State.streamOpen]
@[simp] theorem twinStore_cells (s : State) (p : PartId) (a : Nat) (bs : List Byte) :
    (s.twinStore p a bs).cells = s.cells := by simp [State.twinStore]
@[simp] theorem twinFill_cells (s : State) (p : PartId) : (s.twinFill p).cells = s.cells := by simp [State.twinFill]
@[simp] theorem streamReset_cells (s : State) (p : PartId) : (s.streamReset p).cells = s.cells := by
  simp [State.streamReset]
@[simp] theorem setNegative_cells (s : State) (p : PartId) (b : Fin 2) (x : Negative) (step : Nat)
    (digest : List Byte) : (s.setNegative p b x step digest).cells = s.cells := by simp [State.setNegative]
@[simp] theorem discard_cells (s : State) (p : PartId) (b : Fin 2) : (s.discard p b).cells = s.cells := by
  simp [State.discard]
@[simp] theorem twinRestartOp_cells (s : State) (p : PartId) : (s.twinRestartOp p).cells = s.cells := by
  simp [State.twinRestartOp]
@[simp] theorem refixLooks_cells (s : State) (p : PartId) : (s.refixLooks p).cells = s.cells := by
  simp [State.refixLooks]
@[simp] theorem twinRefixOp_cells (s : State) (p : PartId) : (s.twinRefixOp p).cells = s.cells := by
  simp [State.twinRefixOp]
@[simp] theorem restoreStore_cells (s : State) (a : Nat) (bs : List Byte) : (s.restoreStore a bs).cells = s.cells := by
  simp [State.restoreStore]

/-- A restore's copy of the pages, as a function, leaves the cells alone. -/
def PagesFromKeeps (F : State → PartId → Nat → List Word64 → List Nat → Nat → State × Nat × Bool) : Prop :=
  ∀ l p b ds i s, (F s p b ds l i).1.cells = s.cells

/-- The read of the pieces is made a variable first: a page has 2^21 bytes, and a comparison of two terms that read it
would unfold every piece. -/
theorem pagesFromKeeps : PagesFromKeeps State.restorePagesFrom := by
  delta State.restorePagesFrom State.restorePagesFrom._f
  obtain ⟨got, hgot⟩ : ∃ got, got = Twin.gotBytes := ⟨_, rfl⟩
  rw [← hgot]
  intro l p b ds
  induction l with
  | nil => intro i s; rfl
  | cons pg rest ih =>
    intro i s
    dsimp only [List.brecOn, List.brecOn.go] at ih ⊢
    split
    · rfl
    · split
      · exact (ih ..).trans (restoreStore_cells ..)
      · rfl

@[simp] theorem restorePagesFrom_cells (s : State) (p : PartId) (b : Nat) (ds : List Word64) (l : List Nat) (i : Nat) :
    (s.restorePagesFrom p b ds l i).1.cells = s.cells := pagesFromKeeps l p b ds i s

@[simp] theorem restoreGroups_cells (p : PartId) :
    ∀ (l : List (Fin 256)) (bs : List Byte) (s : State), (s.restoreGroups p l bs).cells = s.cells
  | [], _, _ => rfl
  | g :: rest, bs, s => (restoreGroups_cells p rest _ _).trans (by simp)

@[simp] theorem mgmtHold_cells (s : State) (p : PartId) (l : List (Nat × Bool)) : (s.mgmtHold p l).cells = s.cells := by
  simp [State.mgmtHold]

@[simp] theorem restorePagesEnd_cells (s : State) (p : PartId) (b : Fin 2) :
    (s.restorePagesEnd p b).cells = s.cells := by
  dsimp only [State.restorePagesEnd]
  split
  · exact restoreEnd_cells ..
  · rw [restoreEnd_cells, restorePagesFrom_cells]

/-- The end of a record's restore, as a function, leaves the cells alone. -/
def RecordEndKeeps (F : State → PartId → Fin 2 → State) : Prop := ∀ s p r, (F s p r).cells = s.cells

theorem recordEndKeeps : RecordEndKeeps State.restoreRecordEnd := by
  delta State.restoreRecordEnd
  obtain ⟨got, hgot⟩ : ∃ got, got = Twin.gotBytes := ⟨_, rfl⟩
  rw [← hgot]
  intro s p r
  dsimp only
  split
  · exact restoreEnd_cells ..
  · exact (restoreEnd_cells ..).trans (restoreStore_cells ..)

@[simp] theorem restoreRecordEnd_cells (s : State) (p : PartId) (r : Fin 2) : (s.restoreRecordEnd p r).cells = s.cells :=
  recordEndKeeps s p r
@[simp] theorem consumed_cells (s : State) (d : FabId) (f : Frame) (st : BitVec 4) :
    (s.consumed d f st).cells = s.cells := by simp [State.consumed]
@[simp] theorem carryFrame_cells (s : State) (a : DieId) (path : List JoinId) (f : Frame) :
    (s.carryFrame a path f).2.cells = s.cells := carry_cells 2 path a s

theorem takeFrame_cells {s : State} {d : FabId} {cls kind : Nat} {r : Frame × State} (h : s.takeFrame d cls kind = some r) :
    r.2.cells = s.cells := by
  unfold State.takeFrame at h
  split at h
  · cases h
  · dsimp only at h
    split at h
    · cases h; simp
    · cases h; rfl

@[simp] theorem setColld_cells (s : State) (i : Nat) (x : Colld) : (s.setColld i x).cells = s.cells := by
  simp [State.setColld]
@[simp] theorem modColld_cells (s : State) (i : Nat) (f : Colld → Colld) : (s.modColld i f).cells = s.cells := by
  simp [State.modColld]
@[simp] theorem mapColld_cells (s : State) (f : Colld → Colld) : (s.mapColld f).cells = s.cells := by
  simp [State.mapColld]

@[simp] theorem pend_cells (s : State) (p : PartId) (b : StopBit) : (s.pend p b).cells = s.cells := by
  unfold State.pend
  split <;> rfl

@[simp] theorem pendFor_cells (s : State) (p : PartId) (r : Instance) (cond : Bool) (b : StopBit) :
    (s.pendFor p r cond b).cells = s.cells := by simp [State.pendFor]
@[simp] theorem colSend_cells (s : State) (os : List OutFrame) : (s.colSend os).cells = s.cells := by
  simp [State.colSend]
@[simp] theorem bufFault_cells (s : State) (i : Nat) (code : Byte) (a : Nat) :
    (s.bufFault i code a).cells = s.cells := by simp [State.bufFault]
@[simp] theorem bufSee_cells (s : State) (i : Nat) (p : PartId) (x : Nat × Nat) : (s.bufSee i p x).cells = s.cells := by
  simp [State.bufSee]
@[simp] theorem bufSeeAll_cells (s : State) (i : Nat) (p : PartId) (l : List (Nat × Nat)) :
    (s.bufSeeAll i p l).cells = s.cells := by simp [State.bufSeeAll]

@[simp] theorem bufWrite_cells (s : State) (i : Nat) (p : PartId) (a : Nat) (bs : List Byte) (bad : List Nat) :
    (s.bufWrite i p a bs bad).cells = s.cells := by
  dsimp only [State.bufWrite]
  (repeat' split) <;> simp

@[simp] theorem tableSee_cells (s : State) (d : CDesc) (x : Piece) : (s.tableSee d x).cells = s.cells := by
  simp [State.tableSee]
@[simp] theorem modInst_cells (s : State) (i : Nat) (f : Instance → Instance) : (s.modInst i f).cells = s.cells := by
  simp [State.modInst]
@[simp] theorem collDrop_cells (s : State) (i : Nat) (ready : Bool) : (s.collDrop i ready).cells = s.cells := by
  simp [State.collDrop]

@[simp] theorem collRelease_cells (s : State) (i : Nat) : (s.collRelease i).cells = s.cells := by
  unfold State.collRelease
  split <;> simp

theorem takeMessage_cells {s : State} {d : FabId} {kind : Nat} {ready : Bool} {r : Nat × Option EarlyMsg × State}
    (h : s.takeMessage d kind ready = some r) : r.2.2.cells = s.cells := by
  unfold State.takeMessage at h
  split at h
  · cases h
  · next hf =>
    have hs := takeFrame_cells hf
    dsimp only at h
    split at h
    · cases h; simpa using hs
    · split at h <;> cases h <;> simpa using hs

@[simp] theorem noteLocal_cells (s : State) (d : CDesc) (r : Instance) : (s.noteLocal d r).cells = s.cells := by
  simp [State.noteLocal]
@[simp] theorem a2aOwn_cells (s : State) (i : Nat) (d : CDesc) (r : Instance) : (s.a2aOwn i d r).cells = s.cells := by
  simp [State.a2aOwn]
@[simp] theorem collQueue_cells (s : State) (i : Nat) (fs : List (Nat × OutFrame)) :
    (s.collQueue i fs).cells = s.cells := by simp [State.collQueue]
@[simp] theorem satBlocks_cells (s : State) (i : Nat) (p : PartId) (r : Instance) (bs : List Nat) :
    (s.satBlocks i p r bs).cells = s.cells := by simp [State.satBlocks]
@[simp] theorem reduceG16_cells (s : State) (i : Nat) (d : CDesc) (r : Instance) (asc last : Bool) (t k : Nat)
    (x : Piece) (f : Frame) : (s.reduceG16 i d r asc last t k x f).cells = s.cells := by simp [State.reduceG16]

@[simp] theorem reduceMordant_cells (s : State) (i : Nat) (d : CDesc) (r : Instance) (asc last : Bool) (t k : Nat)
    (x : Piece) (f : Frame) : (s.reduceMordant i d r asc last t k x f).cells = s.cells := by
  simp [State.reduceMordant]

@[simp] theorem reduceF32_cells (s : State) (i : Nat) (d : CDesc) (r : Instance) (asc last : Bool) (t k : Nat)
    (x : Piece) (f : Frame) : (s.reduceF32 i d r asc last t k x f).cells = s.cells := by simp [State.reduceF32]
@[simp] theorem reduceFrame_cells (s : State) (i : Nat) (d : CDesc) (r : Instance) (asc : Bool) (t k : Nat)
    (f : Frame) : (s.reduceFrame i d r asc t k f).cells = s.cells := by simp [State.reduceFrame]
@[simp] theorem gatherFrame_cells (s : State) (i : Nat) (d : CDesc) (r : Instance) (asc : Bool) (t tag k : Nat)
    (f : Frame) : (s.gatherFrame i d r asc t tag k f).cells = s.cells := by simp [State.gatherFrame]
@[simp] theorem planeFrame_cells (s : State) (i : Nat) (d : CDesc) (r : SideRun) (asc : Bool) (t k : Nat)
    (f : Frame) : (s.planeFrame i d r asc t k f).cells = s.cells := by simp [State.planeFrame]
@[simp] theorem undefineChunks_cells (s : State) (d : CDesc) (r : Instance) :
    (s.undefineChunks d r).cells = s.cells := by simp [State.undefineChunks]
@[simp] theorem sendRecord_cells (s : State) (i : Nat) (d : CDesc) (kind : Nat) (bs : List Byte) :
    (s.sendRecord i d kind bs).cells = s.cells := by simp [State.sendRecord]
@[simp] theorem planeStart_cells (s : State) (i : Nat) (d : CDesc) (r : SideRun) :
    (s.planeStart i d r).cells = s.cells := by simp [State.planeStart]
@[simp] theorem dropOld_cells (s : State) (i : Nat) (p : PartId) (off : Nat) : (s.dropOld i p off).cells = s.cells := by
  simp [State.dropOld]

@[simp] theorem recordFrame_cells (s : State) (i size : Nat) (f : Frame) : (s.recordFrame i size f).cells = s.cells := by
  unfold State.recordFrame
  split <;> rfl

@[simp] theorem buildGroup_cells (s : State) (g : Fin 256) (flags : List (BitVec 2)) (own : Nat → Bool) :
    (s.buildGroup g flags own).cells = s.cells := by simp [State.buildGroup]
@[simp] theorem collResult_cells (s : State) (n : Nat) : (s.collResult n).cells = s.cells := by
  simp [State.collResult]
@[simp] theorem collArmOp_cells (s : State) (i : Nat) : (s.collArmOp i).cells = s.cells := by simp [State.collArmOp]
@[simp] theorem latchLost_cells (s : State) (c : CellId) : (s.latchLost c).cells = s.cells := by
  simp [State.latchLost]

@[simp] theorem stepRegOp_cells (s : State) (p : PartId) (r : Fin 5) (v : Word64) :
    (s.stepRegOp p r v).cells = s.cells := by
  unfold State.stepRegOp
  split <;> rfl

@[simp] theorem cfgApplyOp_cells (s : State) (p : PartId) : (s.cfgApplyOp p).cells = s.cells := by
  simp [State.cfgApplyOp]
@[simp] theorem cellEvent_cells (s : State) (c : CellId) (code : Byte) (sev : Sev) (eng : Byte) :
    (s.cellEvent c code sev eng).cells = s.cells := by simp [State.cellEvent]
@[simp] theorem partResult_cells (s : State) (r : Nat) (busy : List PartId) : (s.partResult r busy).cells = s.cells := by
  simp [State.partResult]

@[simp] theorem partApplyOp_cells (s : State) : s.partApplyOp.cells = s.cells := by
  dsimp only [State.partApplyOp]
  split
  · simp
  · split
    · simp only [checkGroups_cells, partResult_cells]
      rw [foldl_cells]
      intros
      rfl
    · simp

@[simp] theorem scrubMark_cells (s : State) (n : StackId) (ch : ChanId) (w : Nat) (syn : BitVec 7) :
    (s.scrubMark n ch w syn).cells = s.cells := by
  dsimp only [State.scrubMark]
  (repeat' split) <;> simp

@[simp] theorem scrubBurst_cells (s : State) (n : StackId) (ch : ChanId) (d : Nat) :
    (s.scrubBurst n ch d).cells = s.cells := by simp [State.scrubBurst]

@[simp] theorem fillBuckets_cells (s : State) (n : StackId) : (s.fillBuckets n).cells = s.cells := by
  dsimp only [State.fillBuckets]
  rw [ite_cells, modStack_cells, ite_self, foldl_cells]
  intros
  rfl

@[simp] theorem tickStack_cells (s : State) (n : StackId) : (s.tickStack n).cells = s.cells := by
  simp [State.tickStack]
@[simp] theorem countHeld_cells (s : State) : s.countHeld.cells = s.cells := rfl
@[simp] theorem fence_cells (s : State) (n : StackId) : (s.fence n).cells = s.cells := by simp [State.fence]
@[simp] theorem stackTemp_cells (s : State) (n : StackId) (t : Int) : (s.stackTemp n t).cells = s.cells := by
  simp [State.stackTemp]
@[simp] theorem connCommit_cells (s : State) (n : StackId) (ch : ChanId) (i m : Fin 318) :
    (s.connCommit n ch i m).cells = s.cells := by simp [State.connCommit]

@[simp] theorem connFails_cells (s : State) (n : StackId) (ch : ChanId) (i : Fin 318) :
    (s.connFails n ch i).cells = s.cells := by
  dsimp only [State.connFails]
  (repeat' split) <;> simp

@[simp] theorem mapoutReqOp_cells (s : State) (n : StackId) (v : Word32) : (s.mapoutReqOp n v).cells = s.cells := by
  simp [State.mapoutReqOp]
@[simp] theorem pageCmdOp_cells (s : State) (v : Word64) : (s.pageCmdOp v).cells = s.cells := by
  simp [State.pageCmdOp]
@[simp] theorem markPage_cells (s : State) (p : PartId) (mark : Bool) (page : Nat) :
    (s.markPage p mark page).cells = s.cells := by simp [State.markPage]
@[simp] theorem marginLocked_cells (s : State) (die : DieId) : (s.marginLocked die).cells = s.cells := by
  simp [State.marginLocked]
@[simp] theorem bringupOp_cells (s : State) (v : Word32) : (s.bringupOp v).cells = s.cells := by
  simp [State.bringupOp]

@[simp] theorem marginOp_cells (s : State) (n : StackId) (v : Word32) : (s.marginOp n v).cells = s.cells := by
  unfold State.marginOp
  split <;> rfl

@[simp] theorem xdEventOf_cells (s : State) (j : JoinId) (d : Fin 2) (kind : Nat) (sev : Sev) (act : Byte)
    (g : BitVec 6) (w syn : BitVec 7) (t : Word64) (who : Option At) :
    (s.xdEventOf j d kind sev act g w syn t who).cells = s.cells := by
  unfold State.xdEventOf
  split <;> rfl

@[simp] theorem xdEvent_cells (s : State) (j : JoinId) (d : Fin 2) (kind : Nat) (sev : Sev) (act : Byte)
    (g : BitVec 6) (w syn : BitVec 7) (t : Word64) : (s.xdEvent j d kind sev act g w syn t).cells = s.cells := by
  simp [State.xdEvent]

@[simp] theorem xdPend_cells (s : State) (j : JoinId) (d : Fin 2) (op : XdOp) : (s.xdPend j d op).cells = s.cells := by
  simp [State.xdPend]
@[simp] theorem xdPendOff_cells (s : State) (j : JoinId) (d : Fin 2) : (s.xdPendOff j d).cells = s.cells := by
  simp [State.xdPendOff]
@[simp] theorem xdGroupFails_cells (s : State) (j : JoinId) (d : Fin 2) (c : XdDecl) :
    (s.xdGroupFails j d c).cells = s.cells := by simp [State.xdGroupFails]
@[simp] theorem xdWireFails_cells (s : State) (j : JoinId) (d : Fin 2) (w : BitVec 2) (c : XdDecl) :
    (s.xdWireFails j d w c).cells = s.cells := by simp [State.xdWireFails]
@[simp] theorem xdClockFails_cells (s : State) (j : JoinId) (d : Fin 2) (c : XdDecl) :
    (s.xdClockFails j d c).cells = s.cells := by simp [State.xdClockFails]

@[simp] theorem xdHandleOne_cells (s : State) (j : JoinId) (d : Fin 2) (c : XdDecl) :
    (s.xdHandleOne j d c).cells = s.cells := by
  unfold State.xdHandleOne
  split <;> simp

@[simp] theorem xdHandle_cells (s : State) (j : JoinId) (d : Fin 2) : (s.xdHandle j d).cells = s.cells := by
  simp [State.xdHandle]
@[simp] theorem xdDeclare_cells (s : State) (j : JoinId) (d : Fin 2) (cs : List XdDecl) :
    (s.xdDeclare j d cs).cells = s.cells := by simp [State.xdDeclare]
@[simp] theorem xdCorrected_cells (s : State) (j : JoinId) (d : Fin 2) (gp : Nat × Nat) (syn : BitVec 7) :
    (s.xdCorrected j d gp syn).cells = s.cells := by simp [State.xdCorrected]

@[simp] theorem xdWord_cells (s : State) (j : JoinId) (d : Fin 2) (valid : Bool) (who : Option At) (w : Nat)
    (v : BitVec 39) : (s.xdWord j d valid who w v).cells = s.cells := by
  unfold State.xdWord
  split <;> simp

@[simp] theorem xdCtrlUe_cells (s : State) (j : JoinId) (d : Fin 2) (syn : BitVec 7) :
    (s.xdCtrlUe j d syn).cells = s.cells := by simp [State.xdCtrlUe]

@[simp] theorem xdCredit_cells (s : State) (j : JoinId) (d : Fin 2) (ctl : Word32) :
    (s.xdCredit j d ctl).cells = s.cells := by
  unfold State.xdCredit
  split <;> rfl

@[simp] theorem xdCommand_cells (s : State) (j : JoinId) (d : Fin 2) (op : XdOp) (t : Word64) :
    (s.xdCommand j d op t).cells = s.cells := by simp [State.xdCommand]

@[simp] theorem xdCommandOff_cells (s : State) (j : JoinId) (t : Word64) : (s.xdCommandOff j t).cells = s.cells := by
  unfold State.xdCommandOff
  split <;> rfl

@[simp] theorem xdRepair_cells (s : State) (j : JoinId) (d : Fin 2) (ctl : Word32) :
    (s.xdRepair j d ctl).cells = s.cells := by
  unfold State.xdRepair
  split <;> simp

@[simp] theorem xdAccept_cells (s : State) (j : JoinId) (d : Fin 2) (b : Beat) (ctl : Word32) :
    (s.xdAccept j d b ctl).cells = s.cells := by
  dsimp only [State.xdAccept]
  split <;> simp

@[simp] theorem xdCtlCount_cells (s : State) (j : JoinId) (d : Fin 2) (r : WordRead) (syn : BitVec 7) :
    (s.xdCtlCount j d r syn).cells = s.cells := by
  dsimp only [State.xdCtlCount]
  (repeat' split) <;> simp

@[simp] theorem xdIsolated_cells (s : State) (j : JoinId) (d : Fin 2) : (s.xdIsolated j d).cells = s.cells := by
  simp [State.xdIsolated]

@[simp] theorem xdApply_cells (s : State) (j : JoinId) (d : Fin 2) (op : XdOp) (t : Word64) :
    (s.xdApply j d op t).cells = s.cells := by
  unfold State.xdApply
  split <;> simp

@[simp] theorem xdForceOp_cells (s : State) (j : JoinId) (v : Word32) : (s.xdForceOp j v).cells = s.cells := by
  simp [State.xdForceOp]
@[simp] theorem portDown_cells (s : State) (k : PortId) (retrain : Bool) : (s.portDown k retrain).cells = s.cells := by
  simp [State.portDown]
@[simp] theorem retrain_cells (s : State) (k : PortId) : (s.retrain k).cells = s.cells := by simp [State.retrain]
@[simp] theorem replays_cells (s : State) (k : PortId) : (s.replays k).cells = s.cells := by simp [State.replays]
@[simp] theorem partnerRestarts_cells (s : State) (k : PortId) : (s.partnerRestarts k).cells = s.cells := by
  simp [State.partnerRestarts]
@[simp] theorem laneEnds_cells (s : State) (k : PortId) (l : Nat) : (s.laneEnds k l).cells = s.cells := by
  simp [State.laneEnds]

@[simp] theorem laneDeclared_cells (s : State) (k : PortId) (l : Nat) : (s.laneDeclared k l).cells = s.cells := by
  dsimp only [State.laneDeclared]
  (repeat' split) <;> simp

@[simp] theorem laneAgreed_cells (s : State) (k : PortId) (l : Nat) : (s.laneAgreed k l).cells = s.cells := by
  unfold State.laneAgreed
  split <;> simp

@[simp] theorem laneLate_cells (s : State) (k : PortId) : (s.laneLate k).cells = s.cells := by
  unfold State.laneLate
  split <;> simp

@[simp] theorem trainRefused_cells (s : State) (k : PortId) (code : Byte) : (s.trainRefused k code).cells = s.cells := by
  simp [State.trainRefused]
@[simp] theorem trainIdent_cells (s : State) (k : PortId) (q : PortPartner) : (s.trainIdent k q).cells = s.cells := by
  simp [State.trainIdent]
@[simp] theorem trainAuth_cells (s : State) (k : PortId) (q : PortPartner) : (s.trainAuth k q).cells = s.cells := by
  simp [State.trainAuth]
@[simp] theorem trainLane_cells (s : State) (k : PortId) : (s.trainLane k).cells = s.cells := by
  simp [State.trainLane]

@[simp] theorem trainSelect_cells (s : State) (k : PortId) (bad outBad : BitVec 10) :
    (s.trainSelect k bad outBad).cells = s.cells := by
  dsimp only [State.trainSelect]
  (repeat' split) <;> simp

@[simp] theorem trainActive_cells (s : State) (k : PortId) (asym : Int) : (s.trainActive k asym).cells = s.cells := by
  unfold State.trainActive
  split <;> rfl

@[simp] theorem closeDark_cells (s : State) : s.closeDark.cells = s.cells := by simp [State.closeDark]

@[simp] theorem darkReturn_cells (s : State) (k : PortId) (f : Frame) : (s.darkReturn k f).cells = s.cells := by
  unfold State.darkReturn
  split <;> rfl

@[simp] theorem islandRetrain_cells (s : State) (k : PortId) : (s.islandRetrain k).cells = s.cells := by
  simp [State.islandRetrain]
@[simp] theorem islandEmpties_cells (s : State) (k : PortId) : (s.islandEmpties k).cells = s.cells := by
  simp [State.islandEmpties]

@[simp] theorem chooseParent_cells (s : State) : s.chooseParent.cells = s.cells := by
  dsimp only [State.chooseParent]
  (repeat' split) <;> simp

@[simp] theorem firstLockStep_cells (s : State) : s.firstLockStep.cells = s.cells := by
  unfold State.firstLockStep
  split <;> rfl

@[simp] theorem eject_cells (s : State) (d : FabId) (f : Frame) : (s.eject d f).cells = s.cells := by
  simp [State.eject]
@[simp] theorem fabEvent_cells (s : State) (d : FabId) (code : Byte) : (s.fabEvent d code).cells = s.cells := by
  simp [State.fabEvent]

@[simp] theorem portTick_cells (s : State) (d : FabId) (used : Bool) (entered : List Frame) (k : PortId) :
    (s.portTick d used entered k).cells = s.cells := by
  unfold State.portTick
  split <;> rfl

@[simp] theorem toInject_cells (s : State) (d : FabId) (f : Frame) : (s.toInject d f).cells = s.cells := by
  dsimp only [State.toInject]
  split
  · exact carryFrame_cells ..
  · rfl

@[simp] theorem mntBooked_cells (s : State) (f : Frame) : (s.mntBooked f).cells = s.cells := by
  dsimp only [State.mntBooked]
  (repeat' split) <;> simp

@[simp] theorem remoteRead_cells (s : State) (p : PartId) (a n : Nat) : (s.remoteRead p a n).2.2.cells = s.cells := by
  dsimp only [State.remoteRead]
  split
  · split <;> rfl
  · split
    · simp
    · rfl

@[simp] theorem twinTakes_cells (s : State) (p : PartId) (a : Nat) (bs : List Byte) :
    (s.twinTakes p a bs).cells = s.cells := by simp [State.twinTakes]
@[simp] theorem putRefused_cells (s : State) (p : PartId) (a : Nat) : (s.putRefused p a).cells = s.cells := by
  simp [State.putRefused]

@[simp] theorem remoteDram_cells (s : State) (p : PartId) (f : Frame) (a : Nat) (bs : List Byte) :
    (s.remoteDram p f a bs).2.cells = s.cells := by
  dsimp only [State.remoteDram]
  split
  · rfl
  · simp
  · dsimp only; split_ifs <;> simp

theorem takeMnt_cells {s : State} {kind : Nat} {r : Frame × State} (h : s.takeMnt kind = some r) : r.2.cells = s.cells := by
  unfold State.takeMnt at h
  split at h <;> cases h
  rfl

@[simp] theorem grantStreams_cells (s : State) (d : FabId) (v : Word64) : (s.grantStreams d v).cells = s.cells := by
  unfold State.grantStreams
  split <;> rfl

@[simp] theorem grantOp_cells (s : State) (d : FabId) (tx : Bool) (i : Nat) (v : Word64) :
    (s.grantOp d tx i v).cells = s.cells := by simp [State.grantOp]

@[simp] theorem robCfgOp_cells (s : State) (d : FabId) (v : Word32) : (s.robCfgOp d v).cells = s.cells := by
  unfold State.robCfgOp
  split <;> rfl

@[simp] theorem fabricCfgOp_cells (s : State) (r : FabricCfgReg) (v : Word32) : (s.fabricCfgOp r v).cells = s.cells := by
  dsimp only [State.fabricCfgOp]
  (repeat' split) <;> simp

@[simp] theorem modRslot_cells (s : State) (i : Fin 2) (f : RouteSlot → RouteSlot) :
    (s.modRslot i f).cells = s.cells := by simp [State.modRslot]

@[simp] theorem routeSlotOp_cells (s : State) (i : Fin 2) (t : RouteTarget) (v : Word64) :
    (s.routeSlotOp i t v).cells = s.cells := by
  unfold State.routeSlotOp
  split <;> rfl

@[simp] theorem routeSlotBegin_cells (s : State) (i : Fin 2) (t : RouteTarget) (v : Word64) :
    (s.routeSlotBegin i t v).cells = s.cells := by
  unfold State.routeSlotBegin
  split <;> rfl

@[simp] theorem routeName_cells (s : State) (i : Fin 2) : (s.routeName i).cells = s.cells := by simp [State.routeName]

@[simp] theorem sealOp_cells (s : State) (i : Fin 2) : (s.sealOp i).cells = s.cells := by
  unfold State.sealOp
  split <;> rfl

@[simp] theorem retireOp_cells (s : State) (i : Fin 2) : (s.retireOp i).cells = s.cells := by
  unfold State.retireOp
  split <;> rfl

@[simp] theorem routeApplyOp_cells (s : State) : s.routeApplyOp.cells = s.cells := by simp [State.routeApplyOp]
@[simp] theorem routeCtlOp_cells (s : State) (v : Word32) : (s.routeCtlOp v).cells = s.cells := by
  simp [State.routeCtlOp]
@[simp] theorem sheetBusy_cells (s : State) (p : PartId) : (s.sheetBusy p).cells = s.cells := by
  simp [State.sheetBusy]

@[simp] theorem sheetSet_cells (s : State) (p : PartId) (f : Sheet → Sheet) : (s.sheetSet p f).cells = s.cells := by
  unfold State.sheetSet
  split <;> rfl

@[simp] theorem sheetArmOp_cells (s : State) (p : PartId) : (s.sheetArmOp p).cells = s.cells := by
  simp [State.sheetArmOp]
@[simp] theorem sheetCancelOp_cells (s : State) (p : PartId) : (s.sheetCancelOp p).cells = s.cells := by
  simp [State.sheetCancelOp]
@[simp] theorem sheetCtlOp_cells (s : State) (p : PartId) (v : Word32) : (s.sheetCtlOp p v).cells = s.cells := by
  simp [State.sheetCtlOp]
@[simp] theorem sheetFill_cells (s : State) (p : PartId) : (s.sheetFill p).cells = s.cells := by
  simp [State.sheetFill]

@[simp] theorem sheetAsk_cells (s : State) (p : PartId) : (s.sheetAsk p).cells = s.cells := by
  unfold State.sheetAsk
  split <;> simp

@[simp] theorem sheetPiece_cells (s : State) (p : PartId) : (s.sheetPiece p).2.2.cells = s.cells := by
  dsimp only [State.sheetPiece]
  split <;> simp

@[simp] theorem sheetFinish_cells (s : State) (p : PartId) : (s.sheetFinish p).cells = s.cells := by
  simp [State.sheetFinish]

@[simp] theorem sheetServe_cells (s : State) (p : PartId) : (s.sheetServe p).cells = s.cells := by
  dsimp only [State.sheetServe]
  split
  · rw [sheetFinish_cells]; exact sheetPiece_cells s p
  · simp

@[simp] theorem hspQueue_cells (s : State) (toHost : Bool) (f : List HspXfer → List HspXfer) :
    (s.hspQueue toHost f).cells = s.cells := by
  unfold State.hspQueue
  split <;> rfl

@[simp] theorem hspAtRisk_cells (s : State) (c : CellId) (i : Fin 8) : (s.hspAtRisk c i).cells = s.cells := by
  simp [State.hspAtRisk]
@[simp] theorem regionOp_cells (s : State) (i : Fin 4096) (cfg : Bool) (v : Word64) :
    (s.regionOp i cfg v).cells = s.cells := by simp [State.regionOp]
@[simp] theorem vector0_cells (s : State) : s.vector0.cells = s.cells := by simp [State.vector0]
@[simp] theorem ringPut_cells (s : State) (e : Word64 × List Byte) : (s.ringPut e).cells = s.cells := by
  simp [State.ringPut]
@[simp] theorem ringDeliver_cells (s : State) : s.ringDeliver.cells = s.cells := by simp [State.ringDeliver]
@[simp] theorem overflowRecord_cells (s : State) (d : Fin 6) : (s.overflowRecord d).cells = s.cells := by
  simp [State.overflowRecord]

@[simp] theorem doorbellOp_cells (s : State) (i : Fin 256) (v : Word32) : (s.doorbellOp i v).cells = s.cells := by
  unfold State.doorbellOp
  split <;> rfl

@[simp] theorem mboxCtlOp_cells (s : State) (v : Word64) : (s.mboxCtlOp v).cells = s.cells := by
  simp [State.mboxCtlOp]
@[simp] theorem powerCycleAsk_cells (s : State) : s.powerCycleAsk.cells = s.cells := by simp [State.powerCycleAsk]

@[simp] theorem unlock_cells (s : State) (t : List Byte) : (s.unlock t).2.2.cells = s.cells := by
  dsimp only [State.unlock]
  split_ifs <;> rfl

@[simp] theorem notifyOp_cells (s : State) (p : PartId) : (s.notifyOp p).cells = s.cells := by simp [State.notifyOp]
@[simp] theorem hcpReset_cells (s : State) : s.hcpReset.cells = s.cells := by simp [State.hcpReset]
@[simp] theorem modPower_cells (s : State) (f : Power → Power) : (s.modPower f).cells = s.cells := by
  simp [State.modPower]
@[simp] theorem modMeter_cells (s : State) (d : DieId) (f : MeterDie → MeterDie) : (s.modMeter d f).cells = s.cells := by
  simp [State.modMeter]
@[simp] theorem modPwrDie_cells (s : State) (d : Fin 4) (f : PwrDie → PwrDie) : (s.modPwrDie d f).cells = s.cells := by
  simp [State.modPwrDie]
@[simp] theorem loadRails_cells (s : State) : s.loadRails.cells = s.cells := by simp [State.loadRails]
@[simp] theorem calibrate_cells (s : State) (d : DieId) (mw : Nat) : (s.calibrate d mw).cells = s.cells := by
  simp [State.calibrate]
@[simp] theorem aim_cells (s : State) (d : Fin 4) (p reason : Nat) : (s.aim d p reason).cells = s.cells := by
  simp [State.aim]
@[simp] theorem countThrottle_cells (s : State) (d : Fin 4) : (s.countThrottle d).cells = s.cells := by
  simp [State.countThrottle]

@[simp] theorem powerApplyOp_cells (s : State) : s.powerApplyOp.cells = s.cells := by
  unfold State.powerApplyOp
  split <;> rfl

@[simp] theorem emergWrite_cells (s : State) (v : BitVec 16) (src : BitVec 2) :
    (s.emergWrite v src).cells = s.cells := by
  unfold State.emergWrite
  split <;> rfl

@[simp] theorem modAge_cells (s : State) (d : DieId) (f : Age → Age) : (s.modAge d f).cells = s.cells := by
  simp [State.modAge]

@[simp] theorem replan_cells (s : State) (d : DieId) (slack : Nat → Nat) (atReset : Bool) :
    (s.replan d slack atReset).cells = s.cells := by
  dsimp only [State.replan]
  (repeat' split) <;> simp

@[simp] theorem ageCfgOp_cells (s : State) (v : Word32) : (s.ageCfgOp v).cells = s.cells := by
  unfold State.ageCfgOp
  split <;> rfl

@[simp] theorem tsbRelease_cells (s : State) : s.tsbRelease.cells = s.cells := by simp [State.tsbRelease]
@[simp] theorem tsbWriteOp_cells (s : State) (word : BitVec 10) (v : BitVec 16) :
    (s.tsbWriteOp word v).cells = s.cells := by simp [State.tsbWriteOp]
@[simp] theorem smbusNack_cells (s : State) : s.smbusNack.cells = s.cells := by simp [State.smbusNack]
@[simp] theorem spdmAnswer_cells (s : State) (req rsp : List Byte) : (s.spdmAnswer req rsp).cells = s.cells := by
  simp [State.spdmAnswer]
@[simp] theorem spdmError_cells (s : State) (code : Byte) : (s.spdmError code).cells = s.cells := by
  simp [State.spdmError]

theorem spdmServe_cells (s : State) (req : List Byte) (code : Byte) (alg : Bool) {f : State → State}
    (hf : (f s).cells = s.cells) : (s.spdmServe req code alg f).cells = s.cells := by
  unfold State.spdmServe
  split_ifs <;> simp [hf]

@[simp] theorem spdmVersion_cells (req : List Byte) (s : State) : (State.spdmVersion req s).cells = s.cells := by
  unfold State.spdmVersion
  split <;> rfl

@[simp] theorem spdmCapabilities_cells (req : List Byte) (s : State) :
    (State.spdmCapabilities req s).cells = s.cells := by simp [State.spdmCapabilities]

@[simp] theorem spdmAlgorithms_cells (req : List Byte) (s : State) : (State.spdmAlgorithms req s).cells = s.cells := by
  refine spdmServe_cells _ _ _ _ ?_
  dsimp only
  split <;> simp

@[simp] theorem spdmDigests_cells (req : List Byte) (s : State) : (State.spdmDigests req s).cells = s.cells := by
  exact spdmServe_cells _ _ _ _ (by simp)

@[simp] theorem spdmCertificate_cells (req : List Byte) (s : State) : (State.spdmCertificate req s).cells = s.cells := by
  refine spdmServe_cells _ _ _ _ ?_
  dsimp only
  split <;> simp

@[simp] theorem spdmSigned_cells (s : State) (req body : List Byte) : (s.spdmSigned req body).cells = s.cells := by
  simp [State.spdmSigned]

@[simp] theorem spdmProve_cells (req : List Byte) (s : State) : (State.spdmProve req s).cells = s.cells := by
  refine spdmServe_cells _ _ _ _ ?_
  dsimp only
  split <;> simp

@[simp] theorem spdmMeasure_cells (req : List Byte) (s : State) : (State.spdmMeasure req s).cells = s.cells := by
  refine spdmServe_cells _ _ _ _ ?_
  dsimp only
  split
  · simp
  · split <;> simp

@[simp] theorem spdmResume_cells (s : State) : s.spdmResume.cells = s.cells := by
  dsimp only [State.spdmResume]
  (repeat' split) <;> simp

@[simp] theorem modFaults_cells (s : State) (f : Faults → Faults) : (s.modFaults f).cells = s.cells := by
  simp [State.modFaults]
@[simp] theorem resetDone_cells (s : State) (r : Reset) : (s.resetDone r).cells = s.cells := by simp [State.resetDone]
@[simp] theorem resetSheet_cells (s : State) (p : PartId) : (s.resetSheet p).cells = s.cells := by
  simp [State.resetSheet]

@[simp] theorem emptyFilling_cells (s : State) : s.emptyFilling.cells = s.cells := by
  refine foldl_cells (fun t p => foldl_cells (fun u b => ?_) _ t) _ s
  split <;> simp

@[simp] theorem setPhaseNo_cells (s : State) (n : Nat) : (s.setPhaseNo n).cells = s.cells := by
  simp [State.setPhaseNo]
@[simp] theorem trainWith_cells (s : State) (f : XdDir → Word64 → Word64) : (s.trainWith f).cells = s.cells := by
  simp [State.trainWith]
@[simp] theorem trainJoins_cells (s : State) : s.trainJoins.cells = s.cells := by simp [State.trainJoins]
@[simp] theorem holdDies_cells (s : State) (good : DieId → Bool) : (s.holdDies good).cells = s.cells := by
  simp [State.holdDies]
@[simp] theorem dieReports_cells (s : State) : s.dieReports.cells = s.cells := by simp [State.dieReports]
@[simp] theorem logicTest_cells (s : State) : s.logicTest.cells = s.cells := by simp [State.logicTest]
@[simp] theorem resetCmdEngineOp_cells (s : State) (c : CellId) (e : BitVec 4) :
    (s.resetCmdEngineOp c e).cells = s.cells := by simp [State.resetCmdEngineOp]

@[simp] theorem resetCmdOp_cells (s : State) (v : Word32) : (s.resetCmdOp v).cells = s.cells := by
  unfold State.resetCmdOp
  split <;> simp

@[simp] theorem hang_cells (s : State) (w : Watched) : (s.hang w).cells = s.cells := by
  dsimp only [State.hang]
  split
  · rw [foldl_cells (by simp), report_cells]
  · simp

@[simp] theorem sampleOne_cells (s : State) (w : Watched) : (s.sampleOne w).cells = s.cells := by
  simp [State.sampleOne]
@[simp] theorem loadFuses_cells (s : State) : s.loadFuses.cells = s.cells := by simp [State.loadFuses]
@[simp] theorem trainDir_cells (s : State) (j : JoinId) (d : Fin 2) : (s.trainDir j d).cells = s.cells := by
  simp [State.trainDir]
@[simp] theorem trainJoinsFull_cells (s : State) : s.trainJoinsFull.cells = s.cells := by simp [State.trainJoinsFull]
@[simp] theorem startGoes_cells (s : State) (n : Nat) : (s.startGoes n).cells = s.cells := by simp [State.startGoes]
@[simp] theorem zeroStack_cells (s : State) (n : StackId) : (s.zeroStack n).cells = s.cells := by
  simp [State.zeroStack]
@[simp] theorem modTest_cells (s : State) (f : SelfTest → SelfTest) : (s.modTest f).cells = s.cells := by
  simp [State.modTest]

@[simp] theorem testFails_cells (s : State) (x : TestItem) : (s.testFails x).cells = s.cells := by
  unfold State.testFails
  split <;> simp

@[simp] theorem countYields_cells (s : State) : s.countYields.cells = s.cells := by simp [State.countYields]

@[simp] theorem testSwitch_cells (s : State) (x : TestItem) (spare : Nat) (back : Bool) :
    (s.testSwitch x spare back).cells = s.cells := by
  unfold State.testSwitch
  split <;> rfl

@[simp] theorem patOp_cells (s : State) (v : Word64) : (s.patOp v).cells = s.cells := by simp [State.patOp]
@[simp] theorem debugLocked_cells (s : State) : s.debugLocked.cells = s.cells := by simp [State.debugLocked]
@[simp] theorem slCtlOp_cells (s : State) (v : Word32) : (s.slCtlOp v).cells = s.cells := by simp [State.slCtlOp]

@[simp] theorem slSelOp_cells (s : State) (j : Fin 32) (v : Word32) : (s.slSelOp j v).cells = s.cells := by
  unfold State.slSelOp
  split <;> rfl

@[simp] theorem tapLoad_cells (s : State) (ir : Byte) (dr : List Bool) : (s.tapLoad ir dr).cells = s.cells := by
  unfold State.tapLoad
  split <;> rfl

@[simp] theorem tapPass_cells (s : State) : s.tapPass.cells = s.cells := by simp [State.tapPass]

@[simp] theorem colldWordOp_cells (s : State) (i : Nat) (w : Fin 16) (v : Word64) :
    (s.colldWordOp i w v).cells = s.cells := by
  unfold State.colldWordOp
  split <;> rfl

@[simp] theorem ringBaseOp_cells (s : State) (v : Word64) : (s.ringBaseOp v).cells = s.cells := by
  unfold State.ringBaseOp
  split <;> rfl

@[simp] theorem ringCtlOp_cells (s : State) (v : Word32) : (s.ringCtlOp v).cells = s.cells := by
  simp [State.ringCtlOp]
@[simp] theorem pwrCtlOp_cells (s : State) (v : Word32) : (s.pwrCtlOp v).cells = s.cells := by simp [State.pwrCtlOp]
@[simp] theorem countsAtFix_cells (s : State) : s.countsAtFix.cells = s.cells := rfl
@[simp] theorem completes_cells (s : State) (v : Option Word64) : (s.completes v).cells = s.cells := by
  simp [State.completes]
@[simp] theorem config_cells (s : State) (hsp write : Bool) (o len : Nat) (v : Word64) :
    (s.config hsp write o len v).cells = s.cells := by simp [State.config]

end Sys2Proof.Machine
end

section
/-!
SUPPORT. Operations that change a cell but not what it holds: faults, stalls, latches, grains, transfers, step phases.
-/
namespace Sys2Proof.Machine

@[simp] theorem signal_held (s : State) (c : CellId) (l : BitVec 6) (n : Word32) (hw : Bool) :
    held (s.signal c l n hw).cells = held s.cells := by simp [State.signal]
@[simp] theorem signalAll_held (s : State) (p : PartId) (l : BitVec 6) :
    held (s.signalAll p l).cells = held s.cells := by simp [State.signalAll]
@[simp] theorem releaseWaiters_held (s : State) (c : CellId) (l : BitVec 6) :
    held (s.releaseWaiters c l).cells = held s.cells := by simp [State.releaseWaiters]
@[simp] theorem abandonLatch_held (s : State) (c : CellId) (l : BitVec 6) :
    held (s.abandonLatch c l).cells = held s.cells := by simp [State.abandonLatch]
@[simp] theorem abandonLatches_held (s : State) (a : At) (keep : Option (BitVec 6)) :
    held (s.abandonLatches a keep).cells = held s.cells := by simp [State.abandonLatches]
@[simp] theorem instrEvent_held (s : State) (c : CellId) (t : Tag) (src : Src) (code : Byte) (addr : Word64)
    (syn : Word32) : held (s.instrEvent c t src code addr syn).cells = held s.cells := by simp [State.instrEvent]

@[simp] theorem instrFaultSyn_held (s : State) (c : CellId) (t : Tag) (src : Src) (code : Byte) (addr : Word64)
    (syn : Word32) : held (s.instrFaultSyn c t src code addr syn).cells = held s.cells := by
  simp [State.instrFaultSyn]

@[simp] theorem instrFault_held (s : State) (c : CellId) (t : Tag) (src : Src) (code : Byte) (addr : Word64) :
    held (s.instrFault c t src code addr).cells = held s.cells := by simp [State.instrFault]
@[simp] theorem requestReturn_held (s : State) (c : CellId) : held (s.requestReturn c).cells = held s.cells := by
  simp [State.requestReturn]

@[simp] theorem abandonStep_held (s : State) (p : PartId) : held (s.abandonStep p).cells = held s.cells := by
  unfold State.abandonStep
  split
  · rfl
  · refine (foldl_held (fun t c => ?_) _ _).trans (by simp)
    dsimp only
    split
    · simp
    · split <;> simp
    · split <;> simp
    · simp

@[simp] theorem poisonEvent_held (s : State) (c : CellId) (t : Tag) (src : Src) (code : Byte)
    (w : Option (Nat × BitVec 39)) : held (s.poisonEvent c t src code w).cells = held s.cells := by
  simp [State.poisonEvent]

@[simp] theorem setStop_held (s : State) (a : At) (b : StopBit) : held (s.setStop a b).cells = held s.cells := by
  simp [State.setStop]
@[simp] theorem setStopIf_held (s : State) (a : At) (cond : Bool) (b : StopBit) :
    held (s.setStopIf a cond b).cells = held s.cells := by simp [State.setStopIf]
@[simp] theorem coreFault_held (s : State) (a : At) (cls : BitVec 4) (op : Byte) (code : Byte) (addr : Word64) :
    held (s.coreFault a cls op code addr).cells = held s.cells := by simp [State.coreFault]
@[simp] theorem corePoison_held (s : State) (a : At) (cls : BitVec 4) (op : Byte) (ad n : Nat) :
    held (s.corePoison a cls op ad n).cells = held s.cells := by simp [State.corePoison]
@[simp] theorem countIssue_held (s : State) (a : At) : held (s.countIssue a).cells = held s.cells := by
  simp [State.countIssue]
@[simp] theorem stall_held (s : State) (a : At) (code : BitVec 4) : held (s.stall a code).cells = held s.cells := by
  simp [State.stall]
@[simp] theorem retire_held (s : State) (a : At) : held (s.retire a).cells = held s.cells := by simp [State.retire]
@[simp] theorem setGrain_held (s : State) (a : At) (g : Grain) : held (s.setGrain a g).cells = held s.cells := by
  simp [State.setGrain]
@[simp] theorem retireOpt_held (s : State) (c : CellId) (p : PartId) (stopped persist : Bool) :
    held (s.retireOpt c p stopped persist).cells = held s.cells := by simp [State.retireOpt]
@[simp] theorem setXfer_held (s : State) (c : CellId) (i : Fin 8) (r : Option DmRun) :
    held (s.setXfer c i r).cells = held s.cells := by simp [State.setXfer]

@[simp] theorem modXfer_held (s : State) (c : CellId) (i : Fin 8) (f : DmRun → DmRun) :
    held (s.modXfer c i f).cells = held s.cells := by
  unfold State.modXfer
  split <;> simp

@[simp] theorem dmFail_held (s : State) (c : CellId) (i : Fin 8) (code : Byte) (addr : Word64) :
    held (s.dmFail c i code addr).cells = held s.cells := by simp [State.dmFail]
@[simp] theorem dmMoved_held (s : State) (c : CellId) (i : Fin 8) (n : Nat) :
    held (s.dmMoved c i n).cells = held s.cells := by simp [State.dmMoved]
@[simp] theorem dmReturned_held (s : State) (c : CellId) (i : Fin 8) : held (s.dmReturned c i).cells = held s.cells := by
  simp [State.dmReturned]

@[simp] theorem dmAsk_held (s : State) (c : CellId) (i : Fin 8) (k a n : Nat) (write : Bool) (bs : List Byte) :
    held (s.dmAsk c i k a n write bs).cells = held s.cells := by
  dsimp only [State.dmAsk]
  (repeat' split) <;> simp

@[simp] theorem dmNext_held (s : State) (c : CellId) (i : Fin 8) : held (s.dmNext c i).cells = held s.cells := by
  dsimp only [State.dmNext]
  (repeat' split) <;> simp

@[simp] theorem dmPullAll_held (s : State) (c : CellId) (i : Fin 8) (m : DmInstr) :
    held (s.dmPullAll c i m).cells = held s.cells := by simp [State.dmPullAll]
@[simp] theorem completion_held (s : State) (c : CellId) (i : SlotId) (f : FmtQ) :
    held (s.completion c i f).cells = held s.cells := by simp [State.completion]
@[simp] theorem verdictWrite_held (s : State) (p : PartId) (tag : Word32) (red : BitVec 16) :
    held (s.verdictWrite p tag red).cells = held s.cells := by simp [State.verdictWrite]
@[simp] theorem verdictIn_held (s : State) (p : PartId) (tag : Word32) (red : BitVec 16) :
    held (s.verdictIn p tag red).cells = held s.cells := by simp [State.verdictIn]

@[simp] theorem verdictRelease_held (s : State) (p : PartId) : held (s.verdictRelease p).cells = held s.cells := by
  unfold State.verdictRelease
  split <;> simp

@[simp] theorem boundary_held (s : State) (p : PartId) : held (s.boundary p).cells = held s.cells := by
  dsimp only [State.boundary]
  refine (foldl_held (fun t c => ?_) _ _).trans (by simp)
  split <;> simp

@[simp] theorem regDenied_held (s : State) (a : At) (op : Byte) : held (s.regDenied a op).cells = held s.cells := by
  simp [State.regDenied]
@[simp] theorem twinLost_held (s : State) (p : PartId) : held (s.twinLost p).cells = held s.cells := by
  simp [State.twinLost]
@[simp] theorem twinAbsent_held (s : State) (p : PartId) : held (s.twinAbsent p).cells = held s.cells := by
  simp [State.twinAbsent]
@[simp] theorem twinPut_held (s : State) (p : PartId) (f : FabId) (a : Nat) (bs : List Byte) (bad : List Nat)
    (mark : Nat) : held (s.twinPut p f a bs bad mark).cells = held s.cells := by simp [State.twinPut]
@[simp] theorem twinMsg_held (s : State) (p : PartId) (mark : Nat) (bs : List Byte) :
    held (s.twinMsg p mark bs).cells = held s.cells := by simp [State.twinMsg]

@[simp] theorem twinArmOp_held (s : State) (p : PartId) : held (s.twinArmOp p).cells = held s.cells := by
  unfold State.twinArmOp
  split <;> simp

@[simp] theorem restoreReads_held (s : State) (p : PartId) : held (s.restoreReads p).cells = held s.cells := by
  unfold State.restoreReads
  split <;> simp

@[simp] theorem sendSlot_held (s : State) (p : PartId) (i : Nat) (count : Word64) (mark : Nat) :
    held (s.sendSlot p i count mark).cells = held s.cells := by simp [State.sendSlot]
@[simp] theorem sendManifest_held (s : State) (p : PartId) (c : Word64) :
    held (s.sendManifest p c).cells = held s.cells := by simp [State.sendManifest]

@[simp] theorem bodySend_held (s : State) (p : PartId) (blocks : Nat) (grad gmord flags : List Byte) :
    held (s.bodySend p blocks grad gmord flags).cells = held s.cells := by
  dsimp only [State.bodySend]
  (repeat' split) <;> simp

@[simp] theorem sealSend_held (s : State) (p : PartId) : held (s.sealSend p).cells = held s.cells := by
  simp [State.sealSend]

@[simp] theorem bodyClaim_held (s : State) (p : PartId) (r : Fin 2) (digest : Word64) :
    held (s.bodyClaim p r digest).cells = held s.cells := by
  unfold State.bodyClaim
  obtain ⟨read, hread⟩ : ∃ read, read = State.dramBytes := ⟨_, rfl⟩
  rw [← hread]
  dsimp only
  split
  · simp
  · split <;> simp

@[simp] theorem restoreCmd_held (s : State) (p : PartId) (r : Restore) :
    held (s.restoreCmd p r).cells = held s.cells := by simp [State.restoreCmd]
@[simp] theorem clEvent_held (s : State) (a : ClArrival) (code : Byte) (detail : Nat) :
    held (s.clEvent a code detail).cells = held s.cells := by simp [State.clEvent]

@[simp] theorem clDoneAt_held (s : State) (a : ClArrival) (status : Byte) (addr : Nat) (events : List (Byte × Nat)) :
    held (s.clDoneAt a status addr events).cells = held s.cells := by
  dsimp only [State.clDoneAt]
  (repeat' split) <;> simp

@[simp] theorem clDone_held (s : State) (a : ClArrival) (status : Byte) (events : List (Byte × Nat)) :
    held (s.clDone a status events).cells = held s.cells := by simp [State.clDone]

@[simp] theorem foldl_modFab_cells {f : State → FabId → Fab → Fab} (l : List FabId) (s : State) :
    (l.foldl (fun t e => t.modFab e (f t e)) s).cells = s.cells :=
  foldl_cells (f := fun t e => t.modFab e (f t e)) (fun _ _ => rfl) l s

@[simp] theorem collEndAt_held (s : State) (i : Nat) (status : Byte) (addr : Nat) :
    held (s.collEndAt i status addr).cells = held s.cells := by
  unfold State.collEndAt
  dsimp only
  split
  · rfl
  · simp

@[simp] theorem collEnd_held (s : State) (i : Nat) (status : Byte) : held (s.collEnd i status).cells = held s.cells := by
  simp [State.collEnd]

@[simp] theorem collSettle_held (s : State) : held s.collSettle.cells = held s.cells := by
  unfold State.collSettle
  split
  · rfl
  · refine (foldl_held (fun t c => ?_) _ _).trans rfl
    dsimp only
    split <;> simp

@[simp] theorem collDeadEnd_held (s : State) (i : Nat) : held (s.collDeadEnd i).cells = held s.cells := by
  dsimp only [State.collDeadEnd]
  (repeat' split) <;> simp

@[simp] theorem collMeet_held (s : State) (i : Nat) (m : EarlyMsg) : held (s.collMeet i m).cells = held s.cells := by
  unfold State.collMeet
  dsimp only
  split
  · rfl
  · split
    · split
      · simp
      · rw [collRelease_cells]
        split <;> simp
    · simp

@[simp] theorem collMessage_held (s : State) (i : Nat) (m : EarlyMsg) :
    held (s.collMessage i m).cells = held s.cells := by
  dsimp only [State.collMessage]
  (repeat' split) <;> simp

@[simp] theorem staleShard_held (s : State) (i owner : Nat) : held (s.staleShard i owner).cells = held s.cells := by
  unfold State.staleShard
  split <;> simp

@[simp] theorem collStart_held (s : State) (i : Nat) (arrivals : List ClArrival) :
    held (s.collStart i arrivals).cells = held s.cells := by
  unfold State.collStart
  extract_lets x d early
  split
  · rfl
  · extract_lets q lens r s1 s2 s3 s4 s5 s5' s6 s7 s8 s9
    have h1 : s1.cells = s.cells := by simp [s1]
    have h2 : s2.cells = s.cells := by simp only [s2]; split <;> simp [h1]
    have h3 : s3.cells = s.cells := by simp only [s3]; split <;> simp [h2]
    have h4 : s4.cells = s.cells := by simp only [s4]; split <;> simp [h3]
    have h6 : s6.cells = s.cells := by simp [s6, s5', s5, h4]
    have h7 : s7.cells = s.cells := by simp only [s7]; split <;> simp [h6]
    have h8 : s8.cells = s.cells := by simp only [s8]; split <;> simp [h7]
    have h9 : held s9.cells = held s.cells := by simp only [s9]; split <;> simp [h8]
    split
    · simp [h1]
    · split
      · simp [h9]
      · simp [h1]

@[simp] theorem a2aFrame_held (s : State) (i : Nat) (d : CDesc) (r : Instance) (j k : Nat) (f : Frame) :
    held (s.a2aFrame i d r j k f).cells = held s.cells := by simp [State.a2aFrame]

@[simp] theorem dataFrame_held (s : State) (i : Nat) (d : CDesc) (r : Instance) (t k : Nat) (f : Frame) :
    held (s.dataFrame i d r t k f).cells = held s.cells := by
  dsimp only [State.dataFrame]
  (repeat' split) <;> simp

@[simp] theorem flagBlocks_held (s : State) (i : Nat) (d : CDesc) (r : Instance) :
    held (s.flagBlocks i d r).cells = held s.cells := by simp [State.flagBlocks]
@[simp] theorem verdictKnown_held (s : State) (i : Nat) (p : PartId) (w : BitVec 16) :
    held (s.verdictKnown i p w).cells = held s.cells := by simp [State.verdictKnown]

@[simp] theorem xlegTry_held (s : State) (i xi : Nat) (p : PartId) : held (s.xlegTry i xi p).cells = held s.cells := by
  unfold State.xlegTry
  split <;> simp

@[simp] theorem xlegEnter_held (s : State) (i : Nat) (d : CDesc) (w : BitVec 16) :
    held (s.xlegEnter i d w).cells = held s.cells := by simp [State.xlegEnter]

@[simp] theorem sideTry_held (s : State) (i : Nat) : held (s.sideTry i).cells = held s.cells := by
  dsimp only [State.sideTry]
  (repeat' split) <;> simp

@[simp] theorem collDisarmOp_held (s : State) (i : Nat) : held (s.collDisarmOp i).cells = held s.cells := by
  dsimp only [State.collDisarmOp]
  (repeat' split) <;> simp

@[simp] theorem stepOpen_held (s : State) (p : PartId) : held (s.stepOpen p).cells = held s.cells := by
  unfold State.stepOpen
  extract_lets fade s1 s2 s3 s4 on code s5 s6
  have h4 : held s4.cells = held s.cells := by
    refine (foldl_held (fun t c => ?_) _ _).trans (by simp [s3, s2, s1])
    exact modCell_held t c fun x => by simp
  have h6 : s6.cells = s4.cells := by
    simp only [s6, s5]
    split <;> simp
  simp [h6, h4]

@[simp] theorem leadArrives_held (s : State) (a : At) (q : PartId) (l : BitVec 6) (w : Wait) :
    held (s.leadArrives a q l w).cells = held s.cells := by simp [State.leadArrives]
@[simp] theorem takeArrivals_held (s : State) (p : PartId) (c : CellId) (l : BitVec 6) :
    held (s.takeArrivals p c l).cells = held s.cells := by simp [State.takeArrivals]
@[simp] theorem leadGoesOn_held (s : State) (c : CellId) : held (s.leadGoesOn c).cells = held s.cells := by
  simp [State.leadGoesOn]
@[simp] theorem traceRefused_held (s : State) (c : CellId) (code : Byte) (addr : Nat) :
    held (s.traceRefused c code addr).cells = held s.cells := by simp [State.traceRefused]
@[simp] theorem slotCfgOp_held (s : State) (c : CellId) (v : Word32) : held (s.slotCfgOp c v).cells = held s.cells := by
  simp [State.slotCfgOp]
@[simp] theorem isaCtlOp_held (s : State) (c : CellId) (i : SlotId) (v : Word64) :
    held (s.isaCtlOp c i v).cells = held s.cells := by simp [State.isaCtlOp]
@[simp] theorem activeRegOp_held (s : State) (by_ : Requester) (c : CellId) (f : CellRegs → CellRegs) :
    held (s.activeRegOp by_ c f).cells = held s.cells := by simp [State.activeRegOp]
@[simp] theorem plateCfgOp_held (s : State) (by_ : Requester) (c : CellId) (v : Word32) :
    held (s.plateCfgOp by_ c v).cells = held s.cells := by simp [State.plateCfgOp]
@[simp] theorem plateDbgOp_held (s : State) (c : CellId) (v : Word32) :
    held (s.plateDbgOp c v).cells = held s.cells := by simp [State.plateDbgOp]

theorem slotRegOp_held (s : State) (by_ : Requester) (c : CellId) (i : SlotId) {f : Slot → Slot}
    (h : ∀ y, (f y).held = y.held) : held (s.slotRegOp by_ c i f).cells = held s.cells := by
  unfold State.slotRegOp
  split <;> simp [h]

@[simp] theorem laneBaseOp_held (s : State) (by_ : Requester) (c : CellId) (i : SlotId) (v : Word32) :
    held (s.laneBaseOp by_ c i v).cells = held s.cells := slotRegOp_held s by_ c i fun _ => rfl

@[simp] theorem ctxCtlOp_held (s : State) (by_ : Requester) (c : CellId) (i : SlotId) (wakeTime : Bool) (v : Word64) :
    held (s.ctxCtlOp by_ c i wakeTime v).cells = held s.cells := by
  refine slotRegOp_held s by_ c i fun y => ?_
  split <;> rfl

@[simp] theorem serveWrite_held (s : State) (r : MemReq) : held (s.serveWrite r).cells = held s.cells := by
  simp [State.serveWrite]

@[simp] theorem useFails_held (s : State) (u : FrameUse) (st : BitVec 4) :
    held (s.useFails u st).cells = held s.cells := by
  unfold State.useFails
  split <;> simp

@[simp] theorem useDone_held (s : State) (u : FrameUse) : held (s.useDone u).cells = held s.cells := by
  unfold State.useDone
  split <;> simp

@[simp] theorem takeCredit_held (s : State) (d : FabId) (node : BitVec 16) (sep : BitVec 3) (e : Word64) :
    held (s.takeCredit d node sep e).cells = held s.cells := by simp [State.takeCredit]
@[simp] theorem ring_held (s : State) (i : Fin 256) (v : Word64) : held (s.ring i v).cells = held s.cells := by
  simp [State.ring]

@[simp] theorem endUnlock_held (s : State) : held s.endUnlock.cells = held s.cells := by
  unfold State.endUnlock
  split
  · simp only [held, Vector.map_map]
    rfl
  · rfl

@[simp] theorem hspReset_held (s : State) : held s.hspReset.cells = held s.cells := by simp [State.hspReset]

@[simp] theorem throttleWindow_held (s : State) : held s.throttleWindow.cells = held s.cells := by
  unfold State.throttleWindow
  split
  · refine (foldl_held (fun t c => ?_) _ _).trans (by simp)
    split
    · split <;> simp
    · rfl
  · rfl

@[simp] theorem cancelXfers_held (s : State) (a : At) : held (s.cancelXfers a).cells = held s.cells := by
  unfold State.cancelXfers
  refine foldl_held (fun t a => ?_) _ _
  split <;> simp

@[simp] theorem cancelCl_held (s : State) (a : At) : held (s.cancelCl a).cells = held s.cells := by
  simp [State.cancelCl]

@[simp] theorem collCmdOp_held (s : State) (v : Word32) : held (s.collCmdOp v).cells = held s.cells := by
  unfold State.collCmdOp
  split <;> simp

theorem twinSet_held (s : State) (p : PartId) {f : State → State} (hf : held (f s).cells = held s.cells) :
    held (s.twinSet p f).cells = held s.cells := by
  unfold State.twinSet
  split <;> simp [hf]

@[simp] theorem twinCtlOp_held (s : State) (p : PartId) (v : Word32) : held (s.twinCtlOp p v).cells = held s.cells := by
  refine twinSet_held _ _ ?_
  simp

@[simp] theorem restoreOp_held (s : State) (p : PartId) (v : Word32) : held (s.restoreOp p v).cells = held s.cells := by
  unfold State.restoreOp
  dsimp only
  split
  · exact twinSet_held _ _ (restoreCmd_held ..)
  · exact twinSet_held _ _ (restoreCmd_held ..)
  · exact twinSet_held _ _ (restoreCmd_held ..)
  · rfl

@[simp] theorem modCellRegs_held (s : State) (c : CellId) (f : CellRegs → CellRegs) :
    held (s.modCellRegs c f).cells = held s.cells := by simp [State.modCellRegs]
@[simp] theorem bar2_held (s : State) (write : Bool) (o len : Nat) (v : Word64) :
    held (s.bar2 write o len v).cells = held s.cells := by simp [State.bar2]

@[simp] theorem readAgain_held (s : State) (w : RegFlight) (a : RegAccess) (sd : BitVec 5) :
    held (s.readAgain w a sd).cells = held s.cells := by
  unfold State.readAgain
  split <;> simp

@[simp] theorem countTime_held (s : State) : held s.countTime.cells = held s.cells := by
  unfold State.countTime
  split
  · rfl
  · refine Vector.ext fun i h => ?_
    simp only [held, Vector.getElem_map, Vector.getElem_ofFn]
    rfl

end Sys2Proof.Machine
end

section
/-!
SUPPORT. Results of a command: what issue, memory access, dispatch and register writes do to what the cells hold.
-/
namespace Sys2Proof.Machine

/-- A result of a command on `s` that leaves what the cells of `s` hold. -/
def Keeps (s : State) : Res → Prop
  | .next t => held t.cells = held s.cells
  | _ => True

/-- A result whose next state, if there is one, has every cell in form. -/
def Forms : Res → Prop
  | .next t => t.cellForm
  | _ => True

@[simp] theorem keeps_next (s t : State) : Keeps s (.next t) = (held t.cells = held s.cells) := rfl
@[simp] theorem keeps_fault (s : State) (f : Fault) : Keeps s (.fault f) = True := rfl
@[simp] theorem keeps_refused (s : State) (r : Refusal) : Keeps s (.refused r) = True := rfl
@[simp] theorem forms_next (t : State) : Forms (.next t) = t.cellForm := rfl
@[simp] theorem keeps_ite (s : State) {c : Prop} [Decidable c] (a b : Res) :
    Keeps s (if c then a else b) = if c then Keeps s a else Keeps s b := apply_ite (Keeps s) c a b
@[simp] theorem forms_ite {c : Prop} [Decidable c] (a b : Res) :
    Forms (if c then a else b) = if c then Forms a else Forms b := apply_ite Forms c a b

theorem keeps_of_ite {s : State} {c : Prop} [Decidable c] {a b : Res} (ha : Keeps s a) (hb : Keeps s b) :
    Keeps s (if c then a else b) := by
  split
  · exact ha
  · exact hb

theorem Keeps.forms {s : State} {r : Res} (h : Keeps s r) (hs : s.cellForm) : Forms r := by
  cases r with
  | next t => exact cellForm_of_held h hs
  | fault f => trivial
  | refused r => trivial

theorem Keeps.trans {s t : State} {r : Res} (h : Keeps t r) (ht : held t.cells = held s.cells) : Keeps s r := by
  cases r with
  | next u => exact Eq.trans h ht
  | fault f => trivial
  | refused r => trivial

@[simp] theorem hold_keeps (s : State) (a : At) (code : BitVec 4) : Keeps s (s.hold a code) := by simp [State.hold]
@[simp] theorem trap_keeps (s : State) (a : At) (cls : BitVec 4) (op code : Byte) (addr : Word64) :
    Keeps s (s.trap a cls op code addr) := by simp [State.trap]
@[simp] theorem dispatch_keeps (s : State) (a : At) (f : Engines → Engines) : Keeps s (s.dispatch a f) := by
  simp [State.dispatch]
@[simp] theorem finish_keeps (s : State) (a : At) {f : Ctx → Ctx} (h : ∀ y, (f y).v = y.v ∧ bit (f y).p 0 = bit y.p 0) :
    Keeps s (s.finish a f) := by simp [State.finish, h]
@[simp] theorem Ctx.setT_v (x : Ctx) (i : BitVec 4) (v : BitVec 256) : (x.setT i v).v = x.v := (rfl)
@[simp] theorem Ctx.setT_p (x : Ctx) (i : BitVec 4) (v : BitVec 256) : (x.setT i v).p = x.p := (rfl)
@[simp] theorem Ctx.setQ_v (x : Ctx) (i : BitVec 3) (v : BitVec 256) : (x.setQ i v).v = x.v := (rfl)
@[simp] theorem Ctx.setQ_p (x : Ctx) (i : BitVec 3) (v : BitVec 256) : (x.setQ i v).p = x.p := (rfl)

/-- An instruction does not change the cells before it acts, and acts only where its codes are allocated. -/
theorem issue_keeps {s : State} {a : At} {p : Pred} {cls : BitVec 4} {op : Byte} {ok : Checks} {names : List (BitVec 5)}
    {body : State → Res} (h : ok.code = true → Keeps s (body s)) : Keeps s (s.issue a p cls op ok names body) := by
  unfold State.issue
  split
  · rfl
  · split
    · split <;> simp
    · split
      · simp
      · split
        · simp
        · split
          · simp
          · next hc =>
            split
            · simp
            · exact h (by simpa using hc)

theorem issue_forms {s : State} {a : At} {p : Pred} {cls : BitVec 4} {op : Byte} {ok : Checks} {names : List (BitVec 5)}
    {body : State → Res} (hs : s.cellForm) (h : ok.code = true → Forms (body s)) :
    Forms (s.issue a p cls op ok names body) := by
  have hk (r : Res) : Keeps s r → Forms r := fun h => h.forms hs
  unfold State.issue
  split
  · exact hs
  · split
    · split <;> exact hk _ (by simp)
    · split
      · exact hk _ (by simp)
      · split
        · exact hk _ (by simp)
        · split
          · exact hk _ (by simp)
          · next hc =>
            split
            · exact hk _ (by simp)
            · exact h (by simpa using hc)

@[simp] theorem intOp_keeps (s : State) (a : At) (p : Pred) (f : FmtS) (op : Byte) (g : Word64 → Word64 → Word64) :
    Keeps s (s.intOp a p f op g) := issue_keeps fun _ => by simp
@[simp] theorem immOp_keeps (s : State) (a : At) (p : Pred) (f : FmtSI) (op : Byte) (ok : Checks) (names : List (BitVec 5))
    (g : Word64 → Word32 → Word64) : Keeps s (s.immOp a p f op ok names g) := issue_keeps fun _ => by simp
@[simp] theorem fltOp_keeps (s : State) (a : At) (p : Pred) (f : FmtS) (op : Byte) (ok : Checks) (names : List (BitVec 5))
    (g : State → Word32) : Keeps s (s.fltOp a p f op ok names g) := issue_keeps fun _ => by simp

@[simp] theorem loadOp_keeps (s : State) (a : At) (op : Byte) (ad n : Nat) {f : Nat → Ctx → Ctx}
    (h : ∀ k y, (f k y).v = y.v ∧ bit (f k y).p 0 = bit y.p 0) : Keeps s (s.loadOp a op ad n f) := by
  unfold State.loadOp
  split
  · simp
  · exact finish_keeps s a (h _)

theorem memOp_keeps {s : State} {a : At} {p : Pred} {op : Byte} {ok : Checks} {names : List (BitVec 5)} {n : Nat}
    {addr : State → Word64} {wr : Bool} {body : State → Nat → Res} (h : ∀ k, Keeps s (body s k)) :
    Keeps s (s.memOp a p op ok names n addr wr body) := by
  refine issue_keeps fun _ => ?_
  dsimp only
  (repeat' split) <;> simp [h]

theorem memOp_forms {s : State} {a : At} {p : Pred} {op : Byte} {ok : Checks} {names : List (BitVec 5)} {n : Nat}
    {addr : State → Word64} {wr : Bool} {body : State → Nat → Res} (hs : s.cellForm) (h : ∀ k, Forms (body s k)) :
    Forms (s.memOp a p op ok names n addr wr body) := by
  refine issue_forms hs fun _ => ?_
  dsimp only
  split
  · exact (hold_keeps ..).forms hs
  · split
    · exact (trap_keeps ..).forms hs
    · split
      · exact (trap_keeps ..).forms hs
      · exact h _

@[simp] theorem branchTo_keeps (s : State) (a : At) (op : Byte) (t : Int) {f : Ctx → Ctx}
    (h : ∀ y, (f y).v = y.v ∧ bit (f y).p 0 = bit y.p 0) : Keeps s (s.branchTo a op t f) := by
  unfold State.branchTo
  split
  · simp
  · refine (modSlot_held _ a fun y => ?_).trans (countIssue_held s a)
    simp [Slot.held, h]

@[simp] theorem mxDispatch_keeps (s : State) (a : At) (p : Pred) (f : FmtM) (kind : MxKind) (op : Byte) (useA useB : Bool) :
    Keeps s (s.mxDispatch a p f kind op useA useB) := by
  refine issue_keeps fun _ => ?_
  have h (g : Grain) (e : Engines → Engines) : Keeps s ((s.setGrain a g).dispatch a e) := (dispatch_keeps ..).trans (by simp)
  simp [h]

@[simp] theorem vxDispatch_keeps (s : State) (a : At) (p : Pred) (op : Byte) (m : VxInstr) : Keeps s (s.vxDispatch a p op m) := by
  unfold State.vxDispatch
  refine issue_keeps fun _ => ?_
  dsimp only
  refine keeps_of_ite (by simp) (keeps_of_ite (by simp) ((dispatch_keeps ..).trans ?_))
  split <;> simp

@[simp] theorem vDispatch_keeps (s : State) (a : At) (p : Pred) (op : Byte) (f : FmtV) : Keeps s (s.vDispatch a p op f) :=
  vxDispatch_keeps ..
@[simp] theorem viDispatch_keeps (s : State) (a : At) (p : Pred) (op : Byte) (f : FmtVI) : Keeps s (s.viDispatch a p op f) :=
  vxDispatch_keeps ..
@[simp] theorem dmDispatch_keeps (s : State) (a : At) (p : Pred) (f : FmtQ) (op : Byte) (useT copy : Bool) :
    Keeps s (s.dmDispatch a p f op useT copy) := issue_keeps fun _ => by simp
@[simp] theorem clDispatch_keeps (s : State) (a : At) (p : Pred) (f : FmtQ) (op : Byte) : Keeps s (s.clDispatch a p f op) :=
  issue_keeps fun _ => by simp
@[simp] theorem trDispatch_keeps (s : State) (a : At) (op : Byte) (value : Word64) (imm : Word32) :
    Keeps s (s.trDispatch a op value imm) := by simp [State.trDispatch]

@[simp] theorem stPhaseFault_keeps (s : State) (a : At) (op : Byte) (q : Option PartId) : Keeps s (s.stPhaseFault a op q) := by
  unfold State.stPhaseFault
  dsimp only
  split <;> simp

/-! ### Register writes -/

theorem regWrite_keeps {s : State} {by_ : Requester} {die : DieId} {o : Bool} {f : State → State}
    (h : held (f s).cells = held s.cells) : Keeps s (s.regWrite by_ die o f) := by
  unfold State.regWrite
  split
  · split
    · simp [State.regDenied]
    · split <;> simp [h]
  · split <;> simp [h]

theorem regWrite_forms {s : State} {by_ : Requester} {die : DieId} {o : Bool} {f : State → State}
    (hs : s.cellForm) (h : (f s).cellForm) : Forms (s.regWrite by_ die o f) := by
  unfold State.regWrite
  split
  · split
    · exact cellForm_of_held (by simp) hs
    · split
      · exact h
      · exact cellForm_of_held (by simp) hs
  · split
    · exact h
    · exact cellForm_of_held (by simp) hs

theorem auxWrite_keeps {s : State} {by_ : Requester} {f : State → State} (h : held (f s).cells = held s.cells) :
    Keeps s (s.auxWrite by_ f) := by
  unfold State.auxWrite
  split
  · simp
  · split <;> simp [h]

theorem twinWrite_keeps {s : State} {by_ : Requester} {p : PartId} {f : State → State} (h : held (f s).cells = held s.cells) :
    Keeps s (s.twinWrite by_ p f) := by
  refine regWrite_keeps ?_
  split <;> simp [h]

theorem ctxReg_keeps {s : State} {a : At} {f : FmtSI} {op : Byte} {ok : RegEntry → Bool} {body : RegAccess → Res}
    (h : ∀ r, Keeps s (body r)) : Keeps s (s.ctxReg a f op ok body) := by
  unfold State.ctxReg
  dsimp only
  split <;> simp [h]

/-! ### Bursts, collectives and the mailbox -/

theorem gated_keeps {s : State} {a : DieId} {f : State → Res} (h : Keeps s (f s)) : Keeps s (s.gated a f) := by
  unfold State.gated
  split
  · next t ht =>
    rw [ht] at h
    split
    · rfl
    · dsimp only
      split
      · simpa using h
      · simp
  · exact h

theorem gated_forms {s : State} {a : DieId} {f : State → Res} (hs : s.cellForm) (h : Forms (f s)) : Forms (s.gated a f) := by
  unfold State.gated
  split
  · next t ht =>
    rw [ht] at h
    split
    · exact hs
    · dsimp only
      split
      · exact cellForm_of_held (by simp) h
      · exact cellForm_of_held (by simp) hs
  · exact h

theorem settled_keeps {s : State} {f : State → Res} (h : Keeps s (f s)) : Keeps s (settled f s) := by
  unfold settled
  split
  · next t ht =>
    rw [ht] at h
    simpa using h
  · exact h

theorem mboxServe_keeps {s : State} {cmd least : Nat} {f : List Byte → State → Nat × List Byte × State}
    (h : ∀ b, held (f b s).2.2.cells = held s.cells) : Keeps s (s.mboxServe cmd least f) := by
  unfold State.mboxServe
  split
  · dsimp only
    split
    · split <;> simp [h]
    · rfl
  · rfl

theorem spdmTake_keeps {s : State} {code : Byte} {req : List Byte} {f : State → State} (h : (f s).cells = s.cells) :
    Keeps s (s.spdmTake code req f) := by
  unfold State.spdmTake
  split
  · rfl
  · split <;> simp [h]

theorem optstepBlock_keeps (c : CellId) (s : State) : Keeps s (State.optstepBlock c s) := by
  unfold State.optstepBlock
  split
  · next r p _ _ =>
    extract_lets what held' asks at_ touched s0 w rec s1 moved s1' isRef persist r' s2
    clear_value what
    have h0 : s0.cells = s.cells := by simp [s0]
    have h1 : held s1.cells = held s.cells := by
      simp only [s1]
      split <;> simp [h0]
    have h2 : held s2.cells = held s.cells := by simp [s2, s1', h1]
    simp [h2]
  · simp

theorem collArrival_keeps (d : FabId) (s : State) : Keeps s (State.collArrival d s) := by
  unfold State.collArrival
  (repeat' split) <;> simp

theorem collData_keeps (e : FabId) (s : State) : Keeps s (State.collData e s) := by
  unfold State.collData
  split
  · simp
  · next hf =>
    have hc := takeFrame_cells hf
    dsimp only at hc ⊢
    refine keeps_of_ite (by simp [hc]) ?_
    split <;> simp [hc]

theorem instanceEnd_keeps (i : Fin 4096) (s : State) : Keeps s (State.instanceEnd i s) := by
  unfold State.instanceEnd
  dsimp only
  split
  · simp
  · exact keeps_of_ite (by simp) (by simp)

theorem sideSend_keeps (p : PartId) (s : State) : Keeps s (State.sideSend p s) := by
  unfold State.sideSend
  (repeat' split) <;> simp

theorem sideReceive_keeps (s : State) : Keeps s (State.sideReceive s) := by
  unfold State.sideReceive
  split
  · simp
  · next hf =>
    have hc := takeFrame_cells hf
    dsimp only at hc
    simp [hc]

theorem tableBuild_keeps (p : PartId) (s : State) : Keeps s (State.tableBuild p s) := by
  unfold State.tableBuild
  split
  · simp
  · dsimp only
    split
    · simp
    · simp

theorem traceWrite_keeps (c : CellId) (s : State) : Keeps s (State.traceWrite c s) := by
  unfold State.traceWrite
  split
  · simp
  · refine keeps_of_ite (by simp) (keeps_of_ite (by simp) ?_)
    split <;> simp

@[simp] theorem idleTick_held (s : State) : held (idleTick s).cells = held s.cells := by
  simp [idleTick, advanceTime_cells]

end Sys2Proof.Machine
end

section
/-!
SUPPORT. The commands that leave what the cells hold, in the order of `Instr`.
-/
namespace Sys2Proof.Machine

theorem execScAdd_keeps (a : At) (p : Pred) (f : FmtS) (s : State) : Keeps s (execScAdd a p f s) := intOp_keeps ..
theorem execScSub_keeps (a : At) (p : Pred) (f : FmtS) (s : State) : Keeps s (execScSub a p f s) := intOp_keeps ..
theorem execScMul_keeps (a : At) (p : Pred) (f : FmtS) (s : State) : Keeps s (execScMul a p f s) := intOp_keeps ..
theorem execScMulhu_keeps (a : At) (p : Pred) (f : FmtS) (s : State) : Keeps s (execScMulhu a p f s) := intOp_keeps ..
theorem execScDiv_keeps (a : At) (p : Pred) (f : FmtS) (s : State) : Keeps s (execScDiv a p f s) := intOp_keeps ..
theorem execScDivu_keeps (a : At) (p : Pred) (f : FmtS) (s : State) : Keeps s (execScDivu a p f s) := intOp_keeps ..
theorem execScRem_keeps (a : At) (p : Pred) (f : FmtS) (s : State) : Keeps s (execScRem a p f s) := intOp_keeps ..
theorem execScRemu_keeps (a : At) (p : Pred) (f : FmtS) (s : State) : Keeps s (execScRemu a p f s) := intOp_keeps ..
theorem execScAnd_keeps (a : At) (p : Pred) (f : FmtS) (s : State) : Keeps s (execScAnd a p f s) := intOp_keeps ..
theorem execScOr_keeps (a : At) (p : Pred) (f : FmtS) (s : State) : Keeps s (execScOr a p f s) := intOp_keeps ..
theorem execScXor_keeps (a : At) (p : Pred) (f : FmtS) (s : State) : Keeps s (execScXor a p f s) := intOp_keeps ..
theorem execScShl_keeps (a : At) (p : Pred) (f : FmtS) (s : State) : Keeps s (execScShl a p f s) := intOp_keeps ..
theorem execScShr_keeps (a : At) (p : Pred) (f : FmtS) (s : State) : Keeps s (execScShr a p f s) := intOp_keeps ..
theorem execScSar_keeps (a : At) (p : Pred) (f : FmtS) (s : State) : Keeps s (execScSar a p f s) := intOp_keeps ..
theorem execScAddi_keeps (a : At) (p : Pred) (f : FmtSI) (s : State) : Keeps s (execScAddi a p f s) := immOp_keeps ..
theorem execScAndi_keeps (a : At) (p : Pred) (f : FmtSI) (s : State) : Keeps s (execScAndi a p f s) := immOp_keeps ..
theorem execScOri_keeps (a : At) (p : Pred) (f : FmtSI) (s : State) : Keeps s (execScOri a p f s) := immOp_keeps ..
theorem execScXori_keeps (a : At) (p : Pred) (f : FmtSI) (s : State) : Keeps s (execScXori a p f s) := immOp_keeps ..
theorem execScMovi_keeps (a : At) (p : Pred) (f : FmtSI) (s : State) : Keeps s (execScMovi a p f s) := immOp_keeps ..
theorem execScLdhi_keeps (a : At) (p : Pred) (f : FmtSI) (s : State) : Keeps s (execScLdhi a p f s) := immOp_keeps ..
theorem execScShi_keeps (a : At) (p : Pred) (f : FmtSI) (s : State) : Keeps s (execScShi a p f s) := immOp_keeps ..
theorem execScFadd_keeps (a : At) (p : Pred) (f : FmtS) (s : State) : Keeps s (execScFadd a p f s) := fltOp_keeps ..
theorem execScFsub_keeps (a : At) (p : Pred) (f : FmtS) (s : State) : Keeps s (execScFsub a p f s) := fltOp_keeps ..
theorem execScFmul_keeps (a : At) (p : Pred) (f : FmtS) (s : State) : Keeps s (execScFmul a p f s) := fltOp_keeps ..
theorem execScFfma_keeps (a : At) (p : Pred) (f : FmtS) (s : State) : Keeps s (execScFfma a p f s) := fltOp_keeps ..
theorem execScFdiv_keeps (a : At) (p : Pred) (f : FmtS) (s : State) : Keeps s (execScFdiv a p f s) := fltOp_keeps ..
theorem execScFsqrt_keeps (a : At) (p : Pred) (f : FmtS) (s : State) : Keeps s (execScFsqrt a p f s) := fltOp_keeps ..
theorem execScFrcp_keeps (a : At) (p : Pred) (f : FmtS) (s : State) : Keeps s (execScFrcp a p f s) := fltOp_keeps ..
theorem execScFtr_keeps (a : At) (p : Pred) (f : FmtS) (s : State) : Keeps s (execScFtr a p f s) := fltOp_keeps ..
theorem execScFcvt_keeps (a : At) (p : Pred) (f : FmtS) (s : State) : Keeps s (execScFcvt a p f s) :=
  issue_keeps fun _ => by simp
theorem execScLd_keeps (a : At) (p : Pred) (f : FmtSI) (s : State) : Keeps s (execScLd a p f s) :=
  memOp_keeps fun _ => loadOp_keeps _ _ _ _ _ (by simp)

theorem execScRdreg_keeps (a : At) (p : Pred) (x : RingRead) (s : State) : Keeps s (execScRdreg a p x s) := by
  unfold execScRdreg
  refine issue_keeps fun _ => ctxReg_keeps fun _ => ?_
  simp

theorem execScTld_keeps (a : At) (p : Pred) (f : FmtS) (s : State) : Keeps s (execScTld a p f s) :=
  memOp_keeps fun _ => loadOp_keeps _ _ _ _ _ (by simp)
theorem execScTset_keeps (a : At) (p : Pred) (f : FmtS) (s : State) : Keeps s (execScTset a p f s) :=
  issue_keeps fun _ => by simp
theorem execScTbase_keeps (a : At) (p : Pred) (f : FmtS) (s : State) : Keeps s (execScTbase a p f s) :=
  issue_keeps fun _ => by simp
theorem execScQld_keeps (a : At) (p : Pred) (f : FmtS) (s : State) : Keeps s (execScQld a p f s) :=
  memOp_keeps fun _ => loadOp_keeps _ _ _ _ _ (by simp)
theorem execScQset_keeps (a : At) (p : Pred) (f : FmtS) (s : State) : Keeps s (execScQset a p f s) :=
  issue_keeps fun _ => by simp
theorem execScQaddr_keeps (a : At) (p : Pred) (f : FmtS) (s : State) : Keeps s (execScQaddr a p f s) :=
  issue_keeps fun _ => by simp
theorem execScBr_keeps (a : At) (p : Pred) (f : FmtSB) (s : State) : Keeps s (execScBr a p f s) :=
  issue_keeps fun _ => by simp
theorem execScBri_keeps (a : At) (p : Pred) (f : FmtSB) (s : State) : Keeps s (execScBri a p f s) :=
  issue_keeps fun _ => by simp
theorem execScCall_keeps (a : At) (p : Pred) (f : FmtSB) (s : State) : Keeps s (execScCall a p f s) :=
  issue_keeps fun _ => by simp
theorem execScNop_keeps (a : At) (p : Pred) (f : FmtS) (s : State) : Keeps s (execScNop a p f s) :=
  issue_keeps fun _ => by simp
theorem execScTime_keeps (a : At) (p : Pred) (f : FmtS) (s : State) : Keeps s (execScTime a p f s) :=
  issue_keeps fun _ => by simp
theorem execScId_keeps (a : At) (p : Pred) (f : FmtS) (s : State) : Keeps s (execScId a p f s) :=
  issue_keeps fun _ => by simp
theorem execMxMma_keeps (a : At) (p : Pred) (f : FmtM) (s : State) : Keeps s (execMxMma a p f s) :=
  mxDispatch_keeps ..
theorem execMxDrain_keeps (a : At) (p : Pred) (f : FmtM) (s : State) : Keeps s (execMxDrain a p f s) :=
  mxDispatch_keeps ..
theorem execMxVsave_keeps (a : At) (p : Pred) (f : FmtM) (s : State) : Keeps s (execMxVsave a p f s) :=
  mxDispatch_keeps ..
theorem execMxVload_keeps (a : At) (p : Pred) (f : FmtM) (s : State) : Keeps s (execMxVload a p f s) :=
  mxDispatch_keeps ..
theorem execMxVfree_keeps (a : At) (p : Pred) (f : FmtM) (s : State) : Keeps s (execMxVfree a p f s) :=
  mxDispatch_keeps ..

theorem execPlateIssue_keeps (c : CellId) (s : State) : Keeps s (execPlateIssue c s) := by
  dsimp only [execPlateIssue]
  (repeat' split) <;> simp

theorem execStationaryTileLoaded_keeps (c : CellId) (s : State) : Keeps s (execStationaryTileLoaded c s) := by
  dsimp only [execStationaryTileLoaded]
  (repeat' split) <;> simp

theorem execPlateRowCycle_keeps (c : CellId) (s : State) : Keeps s (execPlateRowCycle c s) := by
  dsimp only [execPlateRowCycle]
  (repeat' split) <;> simp

theorem execVatClearDone_keeps (c : CellId) (s : State) : Keeps s (execVatClearDone c s) := by simp [execVatClearDone]
theorem execVxAdd_keeps (a : At) (p : Pred) (f : FmtV) (s : State) : Keeps s (execVxAdd a p f s) := vDispatch_keeps ..
theorem execVxSub_keeps (a : At) (p : Pred) (f : FmtV) (s : State) : Keeps s (execVxSub a p f s) := vDispatch_keeps ..
theorem execVxMul_keeps (a : At) (p : Pred) (f : FmtV) (s : State) : Keeps s (execVxMul a p f s) := vDispatch_keeps ..
theorem execVxFma_keeps (a : At) (p : Pred) (f : FmtV) (s : State) : Keeps s (execVxFma a p f s) := vDispatch_keeps ..
theorem execVxNeg_keeps (a : At) (p : Pred) (f : FmtV) (s : State) : Keeps s (execVxNeg a p f s) := vDispatch_keeps ..
theorem execVxAbs_keeps (a : At) (p : Pred) (f : FmtV) (s : State) : Keeps s (execVxAbs a p f s) := vDispatch_keeps ..
theorem execVxMin_keeps (a : At) (p : Pred) (f : FmtV) (s : State) : Keeps s (execVxMin a p f s) := vDispatch_keeps ..
theorem execVxMax_keeps (a : At) (p : Pred) (f : FmtV) (s : State) : Keeps s (execVxMax a p f s) := vDispatch_keeps ..
theorem execVxSel_keeps (a : At) (p : Pred) (f : FmtV) (s : State) : Keeps s (execVxSel a p f s) := vDispatch_keeps ..
theorem execVxCmp_keeps (a : At) (p : Pred) (f : FmtV) (s : State) : Keeps s (execVxCmp a p f s) := vDispatch_keeps ..
theorem execVxCvt_keeps (a : At) (p : Pred) (f : FmtV) (s : State) : Keeps s (execVxCvt a p f s) := vDispatch_keeps ..
theorem execVxDiv_keeps (a : At) (p : Pred) (f : FmtV) (s : State) : Keeps s (execVxDiv a p f s) := vDispatch_keeps ..
theorem execVxSqrt_keeps (a : At) (p : Pred) (f : FmtV) (s : State) : Keeps s (execVxSqrt a p f s) :=
  vDispatch_keeps ..
theorem execVxRecip_keeps (a : At) (p : Pred) (f : FmtV) (s : State) : Keeps s (execVxRecip a p f s) :=
  vDispatch_keeps ..
theorem execVxRsqrt_keeps (a : At) (p : Pred) (f : FmtV) (s : State) : Keeps s (execVxRsqrt a p f s) :=
  vDispatch_keeps ..
theorem execVxExp_keeps (a : At) (p : Pred) (f : FmtV) (s : State) : Keeps s (execVxExp a p f s) := vDispatch_keeps ..
theorem execVxExp2_keeps (a : At) (p : Pred) (f : FmtV) (s : State) : Keeps s (execVxExp2 a p f s) :=
  vDispatch_keeps ..
theorem execVxLog_keeps (a : At) (p : Pred) (f : FmtV) (s : State) : Keeps s (execVxLog a p f s) := vDispatch_keeps ..
theorem execVxLog2_keeps (a : At) (p : Pred) (f : FmtV) (s : State) : Keeps s (execVxLog2 a p f s) :=
  vDispatch_keeps ..
theorem execVxTanh_keeps (a : At) (p : Pred) (f : FmtV) (s : State) : Keeps s (execVxTanh a p f s) :=
  vDispatch_keeps ..
theorem execVxSigmoid_keeps (a : At) (p : Pred) (f : FmtV) (s : State) : Keeps s (execVxSigmoid a p f s) :=
  vDispatch_keeps ..
theorem execVxErf_keeps (a : At) (p : Pred) (f : FmtV) (s : State) : Keeps s (execVxErf a p f s) := vDispatch_keeps ..
theorem execVxSegred_keeps (a : At) (p : Pred) (f : FmtV) (s : State) : Keeps s (execVxSegred a p f s) :=
  vDispatch_keeps ..
theorem execVxBcast_keeps (a : At) (p : Pred) (f : FmtV) (s : State) : Keeps s (execVxBcast a p f s) :=
  vDispatch_keeps ..
theorem execVxGrain_keeps (a : At) (p : Pred) (f : FmtV) (s : State) : Keeps s (execVxGrain a p f s) :=
  vDispatch_keeps ..
theorem execVxGskip_keeps (a : At) (p : Pred) (f : FmtV) (s : State) : Keeps s (execVxGskip a p f s) :=
  vDispatch_keeps ..
theorem execVxSumm_keeps (a : At) (p : Pred) (f : FmtV) (s : State) : Keeps s (execVxSumm a p f s) :=
  vDispatch_keeps ..
theorem execVxCrc64_keeps (a : At) (p : Pred) (f : FmtV) (s : State) : Keeps s (execVxCrc64 a p f s) :=
  vDispatch_keeps ..
theorem execVxSha256_keeps (a : At) (p : Pred) (f : FmtV) (s : State) : Keeps s (execVxSha256 a p f s) :=
  vDispatch_keeps ..
theorem execVxOptstep_keeps (a : At) (p : Pred) (f : FmtVI) (s : State) : Keeps s (execVxOptstep a p f s) :=
  viDispatch_keeps ..
theorem execVxRmodeEnter_keeps (a : At) (p : Pred) (f : FmtVI) (s : State) : Keeps s (execVxRmodeEnter a p f s) :=
  viDispatch_keeps ..
theorem execVxRmodeLeave_keeps (a : At) (p : Pred) (f : FmtVI) (s : State) : Keeps s (execVxRmodeLeave a p f s) :=
  viDispatch_keeps ..
theorem execVxAddi_keeps (a : At) (p : Pred) (f : FmtVI) (s : State) : Keeps s (execVxAddi a p f s) :=
  viDispatch_keeps ..
theorem execVxSubi_keeps (a : At) (p : Pred) (f : FmtVI) (s : State) : Keeps s (execVxSubi a p f s) :=
  viDispatch_keeps ..
theorem execVxMuli_keeps (a : At) (p : Pred) (f : FmtVI) (s : State) : Keeps s (execVxMuli a p f s) :=
  viDispatch_keeps ..
theorem execVxFmai_keeps (a : At) (p : Pred) (f : FmtVI) (s : State) : Keeps s (execVxFmai a p f s) :=
  viDispatch_keeps ..
theorem execVxMini_keeps (a : At) (p : Pred) (f : FmtVI) (s : State) : Keeps s (execVxMini a p f s) :=
  viDispatch_keeps ..
theorem execVxMaxi_keeps (a : At) (p : Pred) (f : FmtVI) (s : State) : Keeps s (execVxMaxi a p f s) :=
  viDispatch_keeps ..

theorem execSummaryResult_keeps (c : CellId) (s : State) : Keeps s (execSummaryResult c s) := by
  unfold execSummaryResult
  split <;> simp

theorem execOptstepBlock_keeps (c : CellId) (s : State) : Keeps s (execOptstepBlock c s) :=
  gated_keeps (optstepBlock_keeps c s)
theorem execDmGet_keeps (a : At) (p : Pred) (f : FmtQ) (s : State) : Keeps s (execDmGet a p f s) :=
  dmDispatch_keeps ..
theorem execDmPut_keeps (a : At) (p : Pred) (f : FmtQ) (s : State) : Keeps s (execDmPut a p f s) :=
  dmDispatch_keeps ..
theorem execDmCopy_keeps (a : At) (p : Pred) (f : FmtQ) (s : State) : Keeps s (execDmCopy a p f s) :=
  dmDispatch_keeps ..
theorem execClAg_keeps (a : At) (p : Pred) (f : FmtQ) (s : State) : Keeps s (execClAg a p f s) := clDispatch_keeps ..
theorem execClRs_keeps (a : At) (p : Pred) (f : FmtQ) (s : State) : Keeps s (execClRs a p f s) := clDispatch_keeps ..
theorem execClAr_keeps (a : At) (p : Pred) (f : FmtQ) (s : State) : Keeps s (execClAr a p f s) := clDispatch_keeps ..
theorem execClA2a_keeps (a : At) (p : Pred) (f : FmtQ) (s : State) : Keeps s (execClA2a a p f s) :=
  clDispatch_keeps ..
theorem execClBcast_keeps (a : At) (p : Pred) (f : FmtQ) (s : State) : Keeps s (execClBcast a p f s) :=
  clDispatch_keeps ..
theorem execClBar_keeps (a : At) (p : Pred) (f : FmtQ) (s : State) : Keeps s (execClBar a p f s) :=
  clDispatch_keeps ..
theorem execClUntag_keeps (a : At) (p : Pred) (f : FmtQ) (s : State) : Keeps s (execClUntag a p f s) :=
  clDispatch_keeps ..

theorem execCollectiveQueueIssue_keeps (c : CellId) (s : State) : Keeps s (execCollectiveQueueIssue c s) := by
  dsimp only [execCollectiveQueueIssue]
  (repeat' split) <;> simp

theorem execSyInit_keeps (a : At) (p : Pred) (f : FmtY) (s : State) : Keeps s (execSyInit a p f s) := by
  refine issue_keeps fun _ => ?_
  dsimp only
  (repeat' split) <;> simp

theorem execSySignal_keeps (a : At) (p : Pred) (f : FmtY) (s : State) : Keeps s (execSySignal a p f s) :=
  issue_keeps fun _ => by simp
theorem execSyWait_keeps (a : At) (p : Pred) (f : FmtY) (s : State) : Keeps s (execSyWait a p f s) :=
  issue_keeps fun _ => by simp
theorem execSyPoll_keeps (a : At) (p : Pred) (f : FmtY) (s : State) : Keeps s (execSyPoll a p f s) :=
  issue_keeps fun _ => by simp
theorem execSyFence_keeps (a : At) (p : Pred) (f : FmtY) (s : State) : Keeps s (execSyFence a p f s) :=
  issue_keeps fun _ => by simp
theorem execSyYield_keeps (a : At) (p : Pred) (f : FmtY) (s : State) : Keeps s (execSyYield a p f s) :=
  issue_keeps fun _ => by simp
theorem execSyRsignal_keeps (a : At) (p : Pred) (f : FmtY) (s : State) : Keeps s (execSyRsignal a p f s) :=
  issue_keeps fun _ => by simp

theorem execLatchSignalArrive_keeps (c : CellId) (s : State) : Keeps s (execLatchSignalArrive c s) := by
  unfold execLatchSignalArrive
  split <;> simp

theorem execLatchWaitReturn_keeps (a : At) (s : State) : Keeps s (execLatchWaitReturn a s) := by
  unfold execLatchWaitReturn
  split <;> simp

theorem execStOpen_keeps (a : At) (p : Pred) (f : FmtY) (s : State) : Keeps s (execStOpen a p f s) := by
  refine issue_keeps fun _ => ?_
  split <;> simp

theorem execStOpenRelease_keeps (c : CellId) (s : State) : Keeps s (execStOpenRelease c s) := by
  simp [execStOpenRelease]

theorem execStStop_keeps (a : At) (p : Pred) (f : FmtY) (s : State) : Keeps s (execStStop a p f s) := by
  refine issue_keeps fun _ => ?_
  dsimp only
  (repeat' split) <;> simp

theorem execStopBarrierComplete_keeps (p : PartId) (s : State) : Keeps s (execStopBarrierComplete p s) := by
  dsimp only [execStopBarrierComplete]
  (repeat' split) <;> simp

theorem execStFix_keeps (a : At) (p : Pred) (f : FmtY) (s : State) : Keeps s (execStFix a p f s) := by
  refine issue_keeps fun _ => ?_
  dsimp only
  (repeat' split) <;> simp

theorem execFixBarrierComplete_keeps (p : PartId) (s : State) : Keeps s (execFixBarrierComplete p s) := by
  dsimp only [execFixBarrierComplete]
  (repeat' split) <;> simp

theorem execFixCommitAdvance_keeps (p : PartId) (s : State) : Keeps s (execFixCommitAdvance p s) := by
  simp [execFixCommitAdvance]
theorem execStepBoundary_keeps (p : PartId) (s : State) : Keeps s (execStepBoundary p s) := by simp [execStepBoundary]

theorem execStSeed_keeps (a : At) (p : Pred) (f : FmtY) (s : State) : Keeps s (execStSeed a p f s) := by
  unfold execStSeed
  refine issue_keeps fun _ => ?_
  dsimp only
  rw [keeps_ite]
  split
  · simp
  · split <;> simp

theorem execTrMark_keeps (a : At) (p : Pred) (f : FmtY) (s : State) : Keeps s (execTrMark a p f s) :=
  issue_keeps fun _ => by simp
theorem execTrVal_keeps (a : At) (p : Pred) (f : FmtY) (s : State) : Keeps s (execTrVal a p f s) :=
  issue_keeps fun _ => by simp
theorem execTrCtr_keeps (a : At) (p : Pred) (f : FmtY) (s : State) : Keeps s (execTrCtr a p f s) :=
  issue_keeps fun _ => by simp
theorem execTraceRecordWrite_keeps (c : CellId) (s : State) : Keeps s (execTraceRecordWrite c s) :=
  gated_keeps (traceWrite_keeps c s)
theorem execVerdictArrival_keeps (p : PartId) (tag : Word32) (reduced : BitVec 16) (s : State) :
    Keeps s (execVerdictArrival p tag reduced s) := by simp [execVerdictArrival]
theorem execVerdictTimeout_keeps (p : PartId) (s : State) : Keeps s (execVerdictTimeout p s) := by
  simp [execVerdictTimeout]
theorem execTwinAckTimeout_keeps (p : PartId) (s : State) : Keeps s (execTwinAckTimeout p s) := by
  simp [execTwinAckTimeout]
theorem execContextWake_keeps (c : CellId) (i : SlotId) (s : State) : Keeps s (execContextWake c i s) := by
  simp [execContextWake]
theorem execContextRunStart_keeps (c : CellId) (s : State) : Keeps s (execContextRunStart c s) := by
  simp [execContextRunStart]
theorem execGraceExpiry_keeps (c : CellId) (s : State) : Keeps s (execGraceExpiry c s) := by simp [execGraceExpiry]
theorem execPartApply_keeps (by_ : Requester) (s : State) : Keeps s (execPartApply by_ s) := regWrite_keeps (by simp)
theorem execSlotCfgWrite_keeps (by_ : Requester) (c : CellId) (v : Word32) (s : State) :
    Keeps s (execSlotCfgWrite by_ c v s) := regWrite_keeps (by simp)
theorem execIsaCtlWrite_keeps (by_ : Requester) (c : CellId) (i : SlotId) (v : Word64) (s : State) :
    Keeps s (execIsaCtlWrite by_ c i v s) := regWrite_keeps (by simp)
theorem execPlateCfgWrite_keeps (by_ : Requester) (c : CellId) (v : Word32) (s : State) :
    Keeps s (execPlateCfgWrite by_ c v s) := regWrite_keeps (by simp)
theorem execPlateDbgEnWrite_keeps (by_ : Requester) (c : CellId) (v : Word32) (s : State) :
    Keeps s (execPlateDbgEnWrite by_ c v s) := regWrite_keeps (by simp)
theorem execGrainLaneBaseWrite_keeps (by_ : Requester) (c : CellId) (i : SlotId) (v : Word32) (s : State) :
    Keeps s (execGrainLaneBaseWrite by_ c i v s) := regWrite_keeps (by simp)
theorem execCtxCtlWrite_keeps (by_ : Requester) (c : CellId) (i : SlotId) (wakeTime : Bool) (v : Word64) (s : State) :
    Keeps s (execCtxCtlWrite by_ c i wakeTime v s) := regWrite_keeps (by simp)
theorem execStepRegWrite_keeps (by_ : Requester) (p : PartId) (r : Fin 5) (v : Word64) (s : State) :
    Keeps s (execStepRegWrite by_ p r v s) := regWrite_keeps (by simp)
theorem execCfgApply_keeps (by_ : Requester) (p : PartId) (s : State) : Keeps s (execCfgApply by_ p s) :=
  regWrite_keeps (by simp)

theorem execEccWriteback_keeps (n : StackId) (ch : ChanId) (s : State) : Keeps s (execEccWriteback n ch s) := by
  unfold execEccWriteback
  split <;> simp

theorem execRegulatorTick_keeps (s : State) : Keeps s (execRegulatorTick s) := by simp [execRegulatorTick]

theorem execPatrolScrub_keeps (n : StackId) (ch : ChanId) (fs : List (Fin 64 × BitVec 39)) (ts : List WireTry)
    (s : State) : Keeps s (execPatrolScrub n ch fs ts s) := by
  dsimp only [execPatrolScrub]
  (repeat' split) <;> simp

theorem execEccWindowEnd_keeps (n : StackId) (ch : ChanId) (s : State) : Keeps s (execEccWindowEnd n ch s) := by
  simp [execEccWindowEnd]
theorem execStackTempReading_keeps (n : StackId) (v : Vector (BitVec 16) 4) (s : State) :
    Keeps s (execStackTempReading n v s) := by simp [execStackTempReading]
theorem execStackConnectionFail_keeps (n : StackId) (w : StackWire) (s : State) :
    Keeps s (execStackConnectionFail n w s) := by simp [execStackConnectionFail]
theorem execMapoutReqWrite_keeps (by_ : Requester) (n : StackId) (v : Word32) (s : State) :
    Keeps s (execMapoutReqWrite by_ n v s) := regWrite_keeps (by simp)
theorem execPageMark_keeps (by_ : Requester) (v : Word64) (s : State) : Keeps s (execPageMark by_ v s) :=
  regWrite_keeps (by simp)
theorem execPageUnmark_keeps (by_ : Requester) (v : Word64) (s : State) : Keeps s (execPageUnmark by_ v s) :=
  regWrite_keeps (by simp)

theorem execPageCmdDone_keeps (s : State) : Keeps s (execPageCmdDone s) := by
  unfold execPageCmdDone
  obtain ⟨touched, htouched⟩ : ∃ touched, touched = State.sheetsTouched := ⟨_, rfl⟩
  obtain ⟨marked, hmarked⟩ : ∃ marked, marked = State.markPage := ⟨_, rfl⟩
  obtain ⟨count, hcount⟩ : ∃ count, count = cmdCount := ⟨_, rfl⟩
  have ht : ∀ t mark a n, (touched t mark a n).cells = t.cells := htouched ▸ sheetsTouched_cells
  have hm : ∀ t p mark a, (marked t p mark a).cells = t.cells := hmarked ▸ markPage_cells
  rw [← htouched, ← hmarked, ← hcount]
  split
  · simp
  · rw [keeps_next]
    dsimp only
    rw [foldl_cells fun t i => hm .., ite_cells, foldl_cells fun t i => ht .., ite_self]

theorem execMemBringupWrite_keeps (by_ : Requester) (v : Word32) (s : State) :
    Keeps s (execMemBringupWrite by_ v s) := regWrite_keeps (by simp)
theorem execMemMarginWrite_keeps (by_ : Requester) (n : StackId) (v : Word32) (s : State) :
    Keeps s (execMemMarginWrite by_ n v s) := regWrite_keeps (by simp)
theorem execStPatGo_keeps (by_ : Requester) (v : Word64) (s : State) : Keeps s (execStPatGo by_ v s) :=
  regWrite_keeps (by simp)

theorem execStPatDone_keeps (s : State) : Keeps s (execStPatDone s) := by
  unfold execStPatDone
  split <;> simp

theorem execXdBeatReceive_keeps (j : JoinId) (d : Fin 2) (b : Beat) (s : State) :
    Keeps s (execXdBeatReceive j d b s) := by
  dsimp only [execXdBeatReceive]
  (repeat' split) <;> simp

theorem execXdErrorWindow_keeps (j : JoinId) (d : Fin 2) (s : State) : Keeps s (execXdErrorWindow j d s) := by
  simp [execXdErrorWindow]
theorem execXdClockLoss_keeps (j : JoinId) (d : Fin 2) (g : BitVec 6) (alt : Bool) (s : State) :
    Keeps s (execXdClockLoss j d g alt s) := by simp [execXdClockLoss]
theorem execXdSteer_keeps (j : JoinId) (d : Fin 2) (g : BitVec 6) (w : BitVec 7) (swt : BitVec 3) (s : State) :
    Keeps s (execXdSteer j d g w swt s) := by simp [execXdSteer]
theorem execXdHalf_keeps (j : JoinId) (d : Fin 2) (h : Fin 2) (swt : BitVec 3) (s : State) :
    Keeps s (execXdHalf j d h swt s) := by simp [execXdHalf]
theorem execXdDisable_keeps (j : JoinId) (swt : BitVec 3) (s : State) : Keeps s (execXdDisable j swt s) := by
  simp [execXdDisable]

theorem execXdSwitch_keeps (j : JoinId) (d : Fin 2) (s : State) : Keeps s (execXdSwitch j d s) := by
  unfold execXdSwitch
  split <;> simp

theorem execXdForceWrite_keeps (by_ : Requester) (j : JoinId) (v : Word32) (s : State) :
    Keeps s (execXdForceWrite by_ j v s) := regWrite_keeps (by simp)

theorem execFrameReceive_keeps (k : PortId) (f : Frame) (s : State) : Keeps s (execFrameReceive k f s) := by
  dsimp only [execFrameReceive]
  (repeat' split) <;> simp

theorem execLinkReplay_keeps (r : Replay) (s : State) : Keeps s (execLinkReplay r s) := by
  unfold execLinkReplay
  split <;> simp

theorem execLaneErrorWindow_keeps (k : PortId) (e : LaneErrs) (s : State) : Keeps s (execLaneErrorWindow k e s) := by
  simp [execLaneErrorWindow]

@[simp] theorem Slotting.take_cells (a : Slotting) (d : FabId) (o : Out) (f : Frame) : (a.take d o f).st.cells = a.st.cells := by
  unfold Slotting.take
  dsimp only
  split <;> simp

theorem Slotting.output_cells {a b : Slotting} {d : FabId} {esc : Bool} {f : Frame} (h : a.output d esc f = some b) :
    b.st.cells = a.st.cells := by
  unfold Slotting.output at h
  dsimp only at h
  split at h
  · cases h; simp
  · split at h
    · cases h; simp
    · split at h
      · cases h; simp
      · obtain ⟨o, _, rfl⟩ := Option.map_eq_some_iff.mp h
        simp

theorem Slotting.offer_cells {a b : Slotting} {d : FabId} {f : Frame} (h : a.offer d f = some b) :
    b.st.cells = a.st.cells := by
  unfold Slotting.offer at h
  dsimp only at h
  split at h
  · cases h; simp
  · split at h
    · obtain ⟨o, _, rfl⟩ := Option.map_eq_some_iff.mp h
      simp
    · cases h

@[simp] theorem Slotting.route_cells (a : Slotting) (d : FabId) (c : Cand) : (a.route d c).st.cells = a.st.cells := by
  unfold Slotting.route
  dsimp only
  split
  · simp
  · split
    · split <;> simp
    · split
      · simp
      · split
        · simp
        · split
          · next h => exact (output_cells h :)
          · simp

@[simp] theorem Slotting.reenter_cells (a : Slotting) (d : FabId) (f : Frame) : (a.reenter d f).st.cells = a.st.cells := by
  unfold Slotting.reenter
  dsimp only
  split
  · simp
  · split
    · simp
    · split
      · simp
      · split
        · next h =>
          split at h
          · exact (offer_cells h :)
          · exact (output_cells h :)
        · simp

@[simp] theorem Slotting.inject_cells (a : Slotting) (d : FabId) (f : Frame) : (a.inject d f).st.cells = a.st.cells := by
  unfold Slotting.inject
  dsimp only
  split
  · next h =>
    split at h
    · split at h
      · exact offer_cells h
      · obtain ⟨o, _, rfl⟩ := Option.map_eq_some_iff.mp h
        simp
    · exact offer_cells h
  · simp

theorem Slotting.foldl_cells {α : Type} {f : Slotting → α → Slotting} (h : ∀ a x, (f a x).st.cells = a.st.cells) (l : List α)
    (a : Slotting) : (l.foldl f a).st.cells = a.st.cells := foldl_keeps (fun a => a.st.cells) h l a

theorem execRouterSlot_keeps (d : FabId) (s : State) : Keeps s (execRouterSlot d s) := by
  unfold execRouterSlot
  extract_lets x pos cs starve s0 a0 a1 back a2 quiet q a3 entered s4 s5
  have h1 : a1.st.cells = s.cells := Slotting.foldl_cells (fun a c => a.route_cells d c) _ a0
  have h2 : a2.st.cells = s.cells := by
    simp only [a2]
    rw [Slotting.foldl_cells fun a f => a.reenter_cells d f, modFab_cells, h1]
  have h3 : a3.st.cells = s.cells := by
    simp only [a3]
    split
    · exact h2
    · rw [Slotting.foldl_cells fun a f => a.inject_cells d f, modFab_cells, h2]
  have h4 : s4.cells = s.cells := by simp [s4, h3]
  simp [s5, h4]

theorem execFrameInject_keeps (d : FabId) (s : State) : Keeps s (execFrameInject d s) := by
  dsimp only [execFrameInject]
  (repeat' split) <;> simp

theorem execStarveHoldoffEnd_keeps (d : FabId) (s : State) : Keeps s (execStarveHoldoffEnd d s) := by
  simp [execStarveHoldoffEnd]

theorem execStreamDeliver_keeps (d : FabId) (i : Nat) (s : State) : Keeps s (execStreamDeliver d i s) := by
  unfold execStreamDeliver
  split <;> simp

theorem execRobGap_keeps (d : FabId) (i : Nat) (s : State) : Keeps s (execRobGap d i s) := by
  dsimp only [execRobGap]
  (repeat' split) <;> simp

theorem execReqRead_keeps (d : FabId) (s : State) : Keeps s (execReqRead d s) := by
  refine gated_keeps ?_
  dsimp only
  split
  · simp
  · next h =>
    have hc := takeFrame_cells h
    dsimp only at hc
    simp [hc]

theorem execRspCredit_keeps (d : FabId) (s : State) : Keeps s (execRspCredit d s) := by
  unfold execRspCredit
  split
  · simp
  · next h =>
    have hc := takeFrame_cells h
    dsimp only at hc ⊢
    simp [hc]

theorem execDeadEndReturn_keeps (d : FabId) (s : State) : Keeps s (execDeadEndReturn d s) := by
  dsimp only [execDeadEndReturn]
  (repeat' split) <;> simp

theorem execSourceSlotTimeout_keeps (d : FabId) (i : Nat) (s : State) : Keeps s (execSourceSlotTimeout d i s) := by
  unfold execSourceSlotTimeout
  split <;> simp

theorem execCreditFlush_keeps (d : FabId) (s : State) : Keeps s (execCreditFlush d s) := by
  dsimp only [execCreditFlush]
  split <;> simp

theorem execMntMreq_keeps (s : State) : Keeps s (execMntMreq s) := by
  unfold execMntMreq
  split
  · simp
  · next h =>
    have hc := takeMnt_cells h
    dsimp only at hc ⊢
    simp [hc]

theorem execMntMrsp_keeps (s : State) : Keeps s (execMntMrsp s) := by
  unfold execMntMrsp
  split
  · simp
  · next h =>
    have hc := takeMnt_cells h
    dsimp only at hc ⊢
    simp [hc]

theorem execMntMpost_keeps (s : State) : Keeps s (execMntMpost s) := by
  unfold execMntMpost
  split
  · simp
  · next h =>
    have hc := takeMnt_cells h
    dsimp only at hc ⊢
    simp [hc]

theorem execGrantWrite_keeps (by_ : Requester) (d : FabId) (tx : Bool) (i : Fin 4096) (v : Word64) (s : State) :
    Keeps s (execGrantWrite by_ d tx i v s) := regWrite_keeps (by simp)

theorem execFabricCfgWrite_keeps (by_ : Requester) (r : FabricCfgReg) (v : Word32) (s : State) :
    Keeps s (execFabricCfgWrite by_ r v s) := by
  unfold execFabricCfgWrite
  split
  · exact regWrite_keeps (by simp)
  · exact auxWrite_keeps (by simp)

theorem execRouteSlotWrite_keeps (by_ : Requester) (i : Fin 2) (t : RouteTarget) (w : SlotWord) (s : State) :
    Keeps s (execRouteSlotWrite by_ i t w s) := regWrite_keeps (by simp)
theorem execRouteSeal_keeps (by_ : Requester) (i : Fin 2) (s : State) : Keeps s (execRouteSeal by_ i s) :=
  regWrite_keeps (by simp)
theorem execRouteRetire_keeps (by_ : Requester) (i : Fin 2) (s : State) : Keeps s (execRouteRetire by_ i s) :=
  regWrite_keeps (by simp)
theorem execRouteApply_keeps (by_ : Requester) (i : Fin 2) (s : State) : Keeps s (execRouteApply by_ i s) :=
  regWrite_keeps (by simp)
theorem execRouteDrainTimer_keeps (i : Fin 2) (s : State) : Keeps s (execRouteDrainTimer i s) := by
  simp [execRouteDrainTimer]
theorem execDarkslideClose_keeps (s : State) : Keeps s (execDarkslideClose s) := by simp [execDarkslideClose]

theorem execDarkslideForward_keeps (k : PortId) (f : Frame) (s : State) : Keeps s (execDarkslideForward k f s) := by
  unfold execDarkslideForward
  refine keeps_of_ite (by simp) (keeps_of_ite (by simp) ?_)
  dsimp only
  rw [keeps_next, ite_cells, islandRetrain_cells, ite_self, modPort_cells]
  split
  · simp
  · rw [ite_cells, darkReturn_cells, modPort_cells, modPort_cells, modPort_cells, ite_self]

theorem execDarkslideOpen_keeps (i : Fin 6) (s : State) : Keeps s (execDarkslideOpen i s) := by
  unfold execDarkslideOpen
  split
  · simp
  · exact congrArg held (foldl_cells (fun t k => islandEmpties_cells t k) _ s)

theorem execBypassFail_keeps (_island : Fin 2) (s : State) : Keeps s (execBypassFail _island s) := by
  simp [execBypassFail]

theorem execPortTrainStage_keeps (k : PortId) (q : PortPartner) (s : State) : Keeps s (execPortTrainStage k q s) := by
  dsimp only [execPortTrainStage]
  split <;> simp

theorem execTimeWord_keeps (k : PortId) (t1 t2 t3 t4 : Word64) (depth : BitVec 7) (locked : Bool) (s : State) :
    Keeps s (execTimeWord k t1 t2 t3 t4 depth locked s) := by simp [execTimeWord]
theorem execTimeWordInsert_keeps (k : PortId) (s : State) : Keeps s (execTimeWordInsert k s) := by
  simp [execTimeWordInsert]
theorem execTimeSlew_keeps (s : State) : Keeps s (execTimeSlew s) := by simp [execTimeSlew]
theorem execTimeParentSelect_keeps (s : State) : Keeps s (execTimeParentSelect s) := by simp [execTimeParentSelect]
theorem execCollArm_keeps (by_ : Requester) (i : Fin 4096) (s : State) : Keeps s (execCollArm by_ i s) :=
  regWrite_keeps (by simp)
theorem execCollDisarm_keeps (by_ : Requester) (i : Fin 4096) (s : State) : Keeps s (execCollDisarm by_ i s) :=
  regWrite_keeps (by simp)
theorem execCollArrival_keeps (d : FabId) (s : State) : Keeps s (execCollArrival d s) :=
  gated_keeps (settled_keeps (collArrival_keeps d s))

theorem execCollReady_keeps (d : FabId) (s : State) : Keeps s (execCollReady d s) := by
  unfold execCollReady
  split
  · next h => simpa using congrArg held (takeMessage_cells h)
  · next h => simpa using congrArg held (takeMessage_cells h)
  · simp

theorem execCollDataFrame_keeps (e : FabId) (s : State) : Keeps s (execCollDataFrame e s) :=
  gated_keeps (settled_keeps (collData_keeps e s))

theorem execCollTagFrame_keeps (e : FabId) (s : State) : Keeps s (execCollTagFrame e s) := by
  unfold execCollTagFrame
  split
  · simp
  · next h =>
    have hc := takeFrame_cells h
    dsimp only at hc ⊢
    split
    · simp [hc]
    · simp [hc]

theorem execCollArriveRecord_keeps (s : State) : Keeps s (execCollArriveRecord s) := by
  unfold execCollArriveRecord
  split
  · next h => simpa using congrArg held (takeMessage_cells h)
  · next h => simpa using congrArg held (takeMessage_cells h)
  · simp

theorem execCollInstanceEnd_keeps (i : Fin 4096) (s : State) : Keeps s (execCollInstanceEnd i s) :=
  gated_keeps (settled_keeps (instanceEnd_keeps i s))
theorem execSideRecordSend_keeps (p : PartId) (s : State) : Keeps s (execSideRecordSend p s) :=
  gated_keeps (settled_keeps (sideSend_keeps p s))
theorem execSideRecordReceive_keeps (s : State) : Keeps s (execSideRecordReceive s) :=
  gated_keeps (settled_keeps (sideReceive_keeps s))
theorem execTableBuildComplete_keeps (p : PartId) (s : State) : Keeps s (execTableBuildComplete p s) :=
  gated_keeps (settled_keeps (tableBuild_keeps p s))

theorem execXlegRecord_keeps (s : State) : Keeps s (execXlegRecord s) := by
  unfold execXlegRecord
  split
  · simp
  · next h =>
    have hc := takeFrame_cells h
    dsimp only at hc ⊢
    refine keeps_of_ite (by simp [hc]) ?_
    split <;> simp [hc]

theorem execCollProgressTimeout_keeps (i : Fin 4096) (s : State) : Keeps s (execCollProgressTimeout i s) := by
  simp [execCollProgressTimeout]
theorem execColldTagOutClear_keeps (by_ : Requester) (i : Fin 4096) (s : State) :
    Keeps s (execColldTagOutClear by_ i s) := regWrite_keeps (by simp)
theorem execTwinArm_keeps (by_ : Requester) (p : PartId) (s : State) : Keeps s (execTwinArm by_ p s) :=
  twinWrite_keeps (by simp)
theorem execTwinRestart_keeps (by_ : Requester) (p : PartId) (s : State) : Keeps s (execTwinRestart by_ p s) :=
  gated_keeps (twinWrite_keeps (by simp))
theorem execTwinRefix_keeps (by_ : Requester) (p : PartId) (s : State) : Keeps s (execTwinRefix by_ p s) :=
  twinWrite_keeps (by simp)

theorem execHello_keeps (p : PartId) (s : State) : Keeps s (execHello p s) := by
  unfold execHello
  split
  · simp
  · next h =>
    have hc := takeMsg_cells h
    dsimp only at hc ⊢
    simp [hc]

theorem execPageAck_keeps (p : PartId) (s : State) : Keeps s (execPageAck p s) := by
  unfold execPageAck
  split
  · simp
  · next h =>
    have hc := takeMsg_cells h
    dsimp only at hc ⊢
    split
    · simp [hc]
    · simp [hc]

theorem execResend_keeps (p : PartId) (s : State) : Keeps s (execResend p s) := by
  unfold execResend
  split
  · simp
  · next h =>
    have hc := takeMsg_cells h
    dsimp only at hc ⊢
    split
    · simp [hc]
    · simp [hc]

theorem execManifest_keeps (p : PartId) (s : State) : Keeps s (execManifest p s) := by
  unfold execManifest
  refine gated_keeps ?_
  split
  · simp
  · next h =>
    have hc := takeMsg_cells h
    refine keeps_of_ite ?_ ?_
    · rw [keeps_next, twinMsg_held, modTwin_cells, discard_cells, setNegative_cells, hc]
    · rw [keeps_next, twinMsg_held, twinEvent_cells, setNegative_cells, hc]

theorem execNegDone_keeps (p : PartId) (s : State) : Keeps s (execNegDone p s) := by
  unfold execNegDone
  split
  · simp
  · next h =>
    have hc := takeMsg_cells h
    dsimp only at hc ⊢
    simp [hc]

theorem execBodyAck_keeps (p : PartId) (s : State) : Keeps s (execBodyAck p s) := by
  unfold execBodyAck
  split
  · simp
  · next h =>
    have hc := takeMsg_cells h
    dsimp only at hc ⊢
    simp [hc]

theorem execSeal_keeps (p : PartId) (s : State) : Keeps s (execSeal p s) := by
  unfold execSeal
  refine gated_keeps ?_
  split
  · simp
  · next h =>
    have hc := takeMsg_cells h
    dsimp only
    split
    · exact congrArg held hc
    · rw [keeps_next, twinMsg_held, modTwin_cells, twinStore_cells, hc]

theorem execSealAck_keeps (p : PartId) (s : State) : Keeps s (execSealAck p s) := by
  unfold execSealAck
  split
  · simp
  · next h =>
    have hc := takeMsg_cells h
    dsimp only at hc ⊢
    simp [hc]

theorem execProbe_keeps (p : PartId) (s : State) : Keeps s (execProbe p s) := by
  unfold execProbe
  split
  · simp
  · next h =>
    have hc := takeMsg_cells h
    dsimp only at hc ⊢
    simp [hc]

theorem execProbeTimer_keeps (p : PartId) (s : State) : Keeps s (execProbeTimer p s) := by simp [execProbeTimer]

theorem execTwinPageSend_keeps (p : PartId) (s : State) : Keeps s (execTwinPageSend p s) := by
  refine gated_keeps ?_
  dsimp only
  (repeat' split) <;> simp

theorem execTwinClaim_keeps (p : PartId) (s : State) : Keeps s (execTwinClaim p s) := by
  unfold execTwinClaim
  refine gated_keeps ?_
  dsimp only
  split
  · simp
  · refine keeps_of_ite ?_ (keeps_of_ite ?_ ?_)
    · rw [keeps_next, bodyClaim_held, modTwin_cells]
    · rw [keeps_next, twinMsg_held, twinStore_cells, modTwin_cells, sees_cells, ite_cells, setNegative_cells, ite_self,
        modTwin_cells]
    · rw [keeps_next, twinMsg_held, sees_cells, ite_cells, setNegative_cells, ite_self, modTwin_cells]

theorem execFirstTouchCopy_keeps (p : PartId) (slot : Nat) (s : State) : Keeps s (execFirstTouchCopy p slot s) := by
  refine gated_keeps ?_
  dsimp only
  split <;> simp

theorem execRestorePages_keeps (by_ : Requester) (p : PartId) (sel : Fin 2) (s : State) :
    Keeps s (execRestorePages by_ p sel s) := twinWrite_keeps (by simp)
theorem execRestoreRecord_keeps (by_ : Requester) (p : PartId) (sel : Fin 2) (s : State) :
    Keeps s (execRestoreRecord by_ p sel s) := twinWrite_keeps (by simp)
theorem execRestoreTables_keeps (by_ : Requester) (p : PartId) (s : State) : Keeps s (execRestoreTables by_ p s) :=
  twinWrite_keeps (by simp)

theorem execRestoreDone_keeps (p : PartId) (data : RestoreData) (s : State) : Keeps s (execRestoreDone p data s) := by
  refine gated_keeps ?_
  dsimp only
  (repeat' split) <;> simp

theorem execSheetArm_keeps (by_ : Requester) (p : PartId) (s : State) : Keeps s (execSheetArm by_ p s) :=
  regWrite_keeps (by simp)
theorem execSheetCancel_keeps (by_ : Requester) (p : PartId) (s : State) : Keeps s (execSheetCancel by_ p s) :=
  regWrite_keeps (by simp)
theorem execHostRegionWrite_keeps (by_ : Requester) (i : Fin 4096) (cfg : Bool) (v : Word64) (s : State) :
    Keeps s (execHostRegionWrite by_ i cfg v s) := regWrite_keeps (by simp)
theorem execDoorbell_keeps (i : Fin 256) (v : Word64) (s : State) : Keeps s (execDoorbell i v s) := by
  simp [execDoorbell]
theorem execDoorbellCfgWrite_keeps (by_ : Requester) (i : Fin 256) (v : Word32) (s : State) :
    Keeps s (execDoorbellCfgWrite by_ i v s) := regWrite_keeps (by simp)
theorem execMboxGo_keeps (request : List Byte) (s : State) : Keeps s (execMboxGo request s) := by simp [execMboxGo]
theorem execMboxTake_keeps (s : State) : Keeps s (execMboxTake s) := by simp [execMboxTake]
theorem execGetInfo_keeps (s : State) : Keeps s (execGetInfo s) := mboxServe_keeps fun _ => rfl

theorem execLogRead_keeps (s : State) : Keeps s (execLogRead s) := by
  refine mboxServe_keeps fun _ => ?_
  dsimp only
  (repeat' split) <;> simp

theorem execFruRead_keeps (s : State) : Keeps s (execFruRead s) := by
  refine mboxServe_keeps fun _ => ?_
  dsimp only
  (repeat' split) <;> simp

theorem execFruWrite_keeps (s : State) : Keeps s (execFruWrite s) := by
  refine mboxServe_keeps fun _ => ?_
  dsimp only
  (repeat' split) <;> simp

theorem execFwWrite_keeps (s : State) : Keeps s (execFwWrite s) := by
  refine mboxServe_keeps fun _ => ?_
  dsimp only
  (repeat' split) <;> simp

theorem execFwActivate_keeps (s : State) : Keeps s (execFwActivate s) := by
  refine mboxServe_keeps fun _ => ?_
  dsimp only
  (repeat' split) <;> simp

theorem execAnchorSet_keeps (s : State) : Keeps s (execAnchorSet s) := by
  refine mboxServe_keeps fun _ => ?_
  dsimp only
  (repeat' split) <;> simp

theorem execGetNonce_keeps (s : State) : Keeps s (execGetNonce s) := by
  unfold execGetNonce
  split
  · exact mboxServe_keeps fun _ => by simp
  · simp

theorem execDebugUnlock_keeps (s : State) : Keeps s (execDebugUnlock s) := by
  unfold execDebugUnlock
  split
  · exact mboxServe_keeps fun _ => by simp
  · simp

theorem execDebugLock_keeps (s : State) : Keeps s (execDebugLock s) := by
  unfold execDebugLock
  split
  · exact mboxServe_keeps fun _ => by simp
  · simp

theorem execDebugUnlockEnd_keeps (s : State) : Keeps s (execDebugUnlockEnd s) := by simp [execDebugUnlockEnd]

theorem execMboxReply_keeps (s : State) : Keeps s (execMboxReply s) := by
  dsimp only [execMboxReply]
  (repeat' split) <;> simp

theorem execErrorRecordDeliver_keeps (s : State) : Keeps s (execErrorRecordDeliver s) := by
  unfold execErrorRecordDeliver
  split <;> simp

theorem execHcpNotify_keeps (by_ : Requester) (p : PartId) (s : State) : Keeps s (execHcpNotify by_ p s) :=
  regWrite_keeps (by simp)
theorem execPciePortReset_keeps (hsp : Bool) (s : State) : Keeps s (execPciePortReset hsp s) := by
  simp [execPciePortReset]
theorem execFunctionLevelReset_keeps (hsp : Bool) (s : State) : Keeps s (execFunctionLevelReset hsp s) := by
  simp [execFunctionLevelReset]
theorem execSpdmGetVersion_keeps (req : List Byte) (s : State) : Keeps s (execSpdmGetVersion req s) :=
  spdmTake_keeps (by simp)
theorem execSpdmGetCapabilities_keeps (req : List Byte) (s : State) : Keeps s (execSpdmGetCapabilities req s) :=
  spdmTake_keeps (by simp)
theorem execSpdmNegotiateAlgorithms_keeps (req : List Byte) (s : State) :
    Keeps s (execSpdmNegotiateAlgorithms req s) := spdmTake_keeps (by simp)
theorem execSpdmGetDigests_keeps (req : List Byte) (s : State) : Keeps s (execSpdmGetDigests req s) :=
  spdmTake_keeps (by simp)
theorem execSpdmGetCertificate_keeps (req : List Byte) (s : State) : Keeps s (execSpdmGetCertificate req s) :=
  spdmTake_keeps (by simp)
theorem execSpdmChallenge_keeps (req : List Byte) (s : State) : Keeps s (execSpdmChallenge req s) :=
  spdmTake_keeps (by simp)
theorem execSpdmGetMeasurements_keeps (req : List Byte) (s : State) : Keeps s (execSpdmGetMeasurements req s) :=
  spdmTake_keeps (by simp)
theorem execTsbRead_keeps (word : BitVec 10) (s : State) : Keeps s (execTsbRead word s) := by simp [execTsbRead]
theorem execTsbWrite_keeps (word : BitVec 10) (v : BitVec 16) (s : State) : Keeps s (execTsbWrite word v s) := by
  simp [execTsbWrite]
theorem execEmergWWrite_keeps (v : BitVec 16) (s : State) : Keeps s (execEmergWWrite v s) := by simp [execEmergWWrite]
theorem execTsbShadowRefresh_keeps (s : State) : Keeps s (execTsbShadowRefresh s) := by simp [execTsbShadowRefresh]
theorem execSmbusOffsetWrite_keeps (w : SmbusWrite) (data : List Byte) (s : State) :
    Keeps s (execSmbusOffsetWrite w data s) := by simp [execSmbusOffsetWrite]
theorem execSmbusRead_keeps (r : SmbusRead) (s : State) : Keeps s (execSmbusRead r s) := by simp [execSmbusRead]
theorem execFruStoreCommit_keeps (s : State) : Keeps s (execFruStoreCommit s) := by simp [execFruStoreCommit]
theorem execMgmtHeartbeatMiss_keeps (s : State) : Keeps s (execMgmtHeartbeatMiss s) := by simp [execMgmtHeartbeatMiss]

theorem execMgmtRestart_keeps (s : State) : Keeps s (execMgmtRestart s) := by
  dsimp only [execMgmtRestart]
  (repeat' split) <;> simp

theorem execStartupPhaseEnd_keeps (s : State) : Keeps s (execStartupPhaseEnd s) := by
  dsimp only [execStartupPhaseEnd]
  (repeat' split) <;> simp

theorem execStackTrained_keeps (n : StackId) (temp : BitVec 16) (s : State) : Keeps s (execStackTrained n temp s) := by
  simp [execStackTrained]
theorem execInput12vFault_keeps (s : State) : Keeps s (execInput12vFault s) := by simp [execInput12vFault]
theorem execWatchdogSample_keeps (s : State) : Keeps s (execWatchdogSample s) := by simp [execWatchdogSample]

theorem execWaitLimit_keeps (at_ : At) (s : State) : Keeps s (execWaitLimit at_ s) := by
  unfold execWaitLimit
  split <;> simp

theorem execStopHoldExpiry_keeps (at_ : At) (s : State) : Keeps s (execStopHoldExpiry at_ s) := by
  simp [execStopHoldExpiry]
theorem execAbortHoldExpiry_keeps (p : PartId) (s : State) : Keeps s (execAbortHoldExpiry p s) := by
  simp [execAbortHoldExpiry]
theorem execResetCmdContext_keeps (by_ : Requester) (at_ : At) (s : State) :
    Keeps s (execResetCmdContext by_ at_ s) := auxWrite_keeps (by simp)
theorem execResetCmdEngine_keeps (by_ : Requester) (c : CellId) (e : BitVec 4) (s : State) :
    Keeps s (execResetCmdEngine by_ c e s) := auxWrite_keeps (by simp)
theorem execResetCmdPartition_keeps (by_ : Requester) (p : PartId) (s : State) :
    Keeps s (execResetCmdPartition by_ p s) := auxWrite_keeps (by simp)
theorem execResetCmdChip_keeps (by_ : Requester) (s : State) : Keeps s (execResetCmdChip by_ s) :=
  auxWrite_keeps (by simp)
theorem execResetCmdPowerCycle_keeps (by_ : Requester) (s : State) : Keeps s (execResetCmdPowerCycle by_ s) :=
  auxWrite_keeps (by simp)

theorem execChipResetPhaseEnd_keeps (s : State) : Keeps s (execChipResetPhaseEnd s) := by
  dsimp only [execChipResetPhaseEnd]
  (repeat' split) <;> simp

theorem execPowerCycleReq_keeps (s : State) : Keeps s (execPowerCycleReq s) := by
  unfold execPowerCycleReq
  split <;> simp

theorem execResetDone_keeps (i : Nat) (s : State) : Keeps s (execResetDone i s) := by
  unfold execResetDone
  split <;> simp

theorem execResetEscalation_keeps (i : Nat) (s : State) : Keeps s (execResetEscalation i s) := by
  dsimp only [execResetEscalation]
  (repeat' split) <;> simp

theorem execMeterActivityReport_keeps (d : DieId) (s : State) : Keeps s (execMeterActivityReport d s) := by
  simp [execMeterActivityReport]
theorem execMeterCalibration_keeps (inputMv : BitVec 16) (railMa : Vector (BitVec 32) 6) (s : State) :
    Keeps s (execMeterCalibration inputMv railMa s) := by simp [execMeterCalibration]
theorem execMeterSignatureWindow_keeps (s : State) : Keeps s (execMeterSignatureWindow s) := by
  simp [execMeterSignatureWindow]
theorem execCapLoop_keeps (inputMv : BitVec 16) (s : State) : Keeps s (execCapLoop inputMv s) := by simp [execCapLoop]

theorem execPointChangeDone_keeps (d : DieId) (s : State) : Keeps s (execPointChangeDone d s) := by
  dsimp only [execPointChangeDone]
  (repeat' split) <;> simp

theorem execPwrApply_keeps (by_ : Requester) (s : State) : Keeps s (execPwrApply by_ s) := regWrite_keeps (by simp)
theorem execPwrEmergWrite_keeps (by_ : Requester) (v : Word32) (s : State) : Keeps s (execPwrEmergWrite by_ v s) :=
  regWrite_keeps (by simp)

theorem execDroopDetect_keeps (d : DieId) (mv : BitVec 8) (s : State) : Keeps s (execDroopDetect d mv s) := by
  unfold execDroopDetect
  split <;> simp

theorem execDroopRelease_keeps (d : DieId) (s : State) : Keeps s (execDroopRelease d s) := by
  unfold execDroopRelease
  split <;> simp

theorem execJunctionReading_keeps (d : DieId) (tempC8 : Vector (BitVec 16) 16) (s : State) :
    Keeps s (execJunctionReading d tempC8 s) := by simp [execJunctionReading]
theorem execAgeingReading_keeps (d : DieId) (slackPs : Vector (BitVec 16) 64) (s : State) :
    Keeps s (execAgeingReading d slackPs s) := by simp [execAgeingReading]
theorem execAgeingReplan_keeps (d : DieId) (s : State) : Keeps s (execAgeingReplan d s) := by simp [execAgeingReplan]
theorem execAgeCfgWrite_keeps (by_ : Requester) (v : Word32) (s : State) : Keeps s (execAgeCfgWrite by_ v s) :=
  auxWrite_keeps (by simp)
theorem execSelftestSliceStart_keeps (x : TestItem) (s : State) : Keeps s (execSelftestSliceStart x s) := by
  simp [execSelftestSliceStart]

theorem execSelftestSliceEnd_keeps (d : DieId) (errors : Nat) (eye : LaneEye) (s : State) :
    Keeps s (execSelftestSliceEnd d errors eye s) := by
  unfold execSelftestSliceEnd
  split <;> simp

theorem execSelftestRotation_keeps (x : TestItem) (s : State) : Keeps s (execSelftestRotation x s) := by
  dsimp only [execSelftestRotation]
  (repeat' split) <;> simp

theorem execSelftestPassEnd_keeps (k : Fin 4) (s : State) : Keeps s (execSelftestPassEnd k s) := by
  simp [execSelftestPassEnd]

theorem execPinCheck_keeps (r : PinReading) (row col : Byte) (s : State) : Keeps s (execPinCheck r row col s) := by
  dsimp only [execPinCheck]
  (repeat' split) <;> simp

theorem execSlCtlWrite_keeps (by_ : Requester) (v : Word32) (s : State) : Keeps s (execSlCtlWrite by_ v s) :=
  regWrite_keeps (by simp)
theorem execTapIdcode_keeps (s : State) : Keeps s (execTapIdcode s) := by simp [execTapIdcode]
theorem execTapSamplePreload_keeps (data : List Bool) (s : State) : Keeps s (execTapSamplePreload data s) := by
  simp [execTapSamplePreload]
theorem execTapExtest_keeps (s : State) : Keeps s (execTapExtest s) := by simp [execTapExtest]
theorem execTapClamp_keeps (s : State) : Keeps s (execTapClamp s) := by simp [execTapClamp]
theorem execTapHighz_keeps (s : State) : Keeps s (execTapHighz s) := by simp [execTapHighz]
theorem execTapIjtag_keeps (s : State) : Keeps s (execTapIjtag s) := by simp [execTapIjtag]
theorem execTapBypass_keeps (s : State) : Keeps s (execTapBypass s) := by simp [execTapBypass]
theorem execTapReset_keeps (s : State) : Keeps s (execTapReset s) := by simp [execTapReset]

theorem execIllegalOpcode_keeps (a : At) (word : Word64) (s : State) : Keeps s (execIllegalOpcode a word s) := by
  unfold execIllegalOpcode
  split <;> simp

theorem execLaneLockLoss_keeps (k : PortId) (s : State) : Keeps s (execLaneLockLoss k s) := by simp [execLaneLockLoss]
theorem execPcieLinkUp_keeps (hsp : Bool) (s : State) : Keeps s (execPcieLinkUp hsp s) := by simp [execPcieLinkUp]
theorem execHelloTimeout_keeps (p : PartId) (s : State) : Keeps s (execHelloTimeout p s) := by simp [execHelloTimeout]
theorem execBypassSelfTestPass_keeps (s : State) : Keeps s (execBypassSelfTestPass s) := by
  simp [execBypassSelfTestPass]

end Sys2Proof.Machine
end

section
/-!
SUPPORT. Operations that do change what a cell holds, and leave every cell in form.
-/
namespace Sys2Proof.Machine

/-! ### Cells -/

theorem setCell_form {s : State} (hs : s.cellForm) (c : CellId) {x : Cell} (hx : x.form) : (s.setCell c x).cellForm := by
  intro d
  rcases eq_or_ne c d with rfl | h
  · rwa [setCell_cell_self]
  · rw [setCell_cell_ne s c d x h]; exact hs d

theorem modCell_form {s : State} (hs : s.cellForm) (c : CellId) {f : Cell → Cell} (h : ∀ x, x.form → (f x).form) :
    (s.modCell c f).cellForm := setCell_form hs c (h _ (hs c))

theorem Cell.modSlot_form {x : Cell} (hx : x.form) (i : SlotId) {f : Slot → Slot}
    (h : ∀ y : Slot, y.ctx.form → (f y).ctx.form) : (x.modSlot i f).form := by
  obtain ⟨hstore, hvat, hslots⟩ := hx
  refine ⟨hstore, hvat, fun j => ?_⟩
  rcases eq_or_ne i j with rfl | hij
  · exact (congrArg (fun y : Slot => y.ctx.form) (vget_vmod_self x.slots i f)).mpr (h _ (hslots i))
  · exact (congrArg (fun y : Slot => y.ctx.form) (vget_vmod_ne x.slots i j f hij)).mpr (hslots j)

theorem modSlot_form {s : State} (hs : s.cellForm) (a : At) {f : Slot → Slot} (h : ∀ y : Slot, y.ctx.form → (f y).ctx.form) :
    (s.modSlot a f).cellForm := modCell_form hs a.cell fun _ hx => Cell.modSlot_form hx a.slot h
theorem modCtx_form {s : State} (hs : s.cellForm) (a : At) {f : Ctx → Ctx} (h : ∀ y : Ctx, y.form → (f y).form) :
    (s.modCtx a f).cellForm := modSlot_form hs a fun _ hy => h _ hy

theorem Ctx.initial_form (pc : BitVec 20) : ({ Ctx.initial with pc := pc } : Ctx).form := by
  have h : bit Ctx.initial.p 0 = true := by decide
  exact ⟨ProtMem.empty_wf, h⟩

theorem Cell.clearVat_form {x : Cell} (hx : x.form) : x.clearVat.form := ⟨hx.1, ProtMem.empty_wf, hx.2.2⟩
theorem Cell.modRegs_form {x : Cell} (hx : x.form) (f : CellRegs → CellRegs) : (x.modRegs f).form := hx
theorem Cell.choose_form {x : Cell} (hx : x.form) : x.choose.form := Cell.form_congr x.choose_held hx
theorem Cell.store_form {x : Cell} (hx : x.form) {m : ProtMem} (hm : m.wf = true) : ({ x with store := m } : Cell).form :=
  ⟨hm, hx.2⟩
theorem Cell.vat_form {x : Cell} (hx : x.form) {m : ProtMem} (hm : m.wf = true) : ({ x with vat := m } : Cell).form :=
  ⟨hx.1, hm, hx.2.2⟩

theorem Cell.reset_form : Cell.reset.form := by
  refine ⟨rfl, rfl, fun i => ?_⟩
  fin_cases i <;> exact Ctx.initial_form 0

theorem foldl_form {α : Type} {f : State → α → State} (h : ∀ t a, t.cellForm → (f t a).cellForm) (l : List α) {s : State}
    (hs : s.cellForm) : (l.foldl f s).cellForm :=
  List.foldlRecOn l f hs fun t ht a _ => h t a ht

theorem form_of_ite {c : Prop} [Decidable c] {s t : State} (hs : s.cellForm) (ht : t.cellForm) :
    (if c then s else t).cellForm := by
  split
  · exact hs
  · exact ht

theorem cellForm_of_cells {s t : State} (h : t.cells = s.cells) (hs : s.cellForm) : t.cellForm :=
  cellForm_of_held (congrArg held h) hs

/-! ### Instructions -/

theorem storeOp_form {s : State} (hs : s.cellForm) {a : At} {ad : Nat} {bs : List Byte} : Forms (s.storeOp a ad bs) := by
  refine cellForm_of_held (retire_held ..) (modCell_form (cellForm_of_held (countIssue_held s a) hs) a.cell fun x hx => ?_)
  exact Cell.store_form hx (ProtMem.write_wf hx.1 ad bs)

theorem Ctx.setP_form {x : Ctx} (hx : x.form) {k : BitVec 3} (hk : k ≠ 0) (b : Bool) : (x.setP k b).form := by
  have hk' : k.toNat ≠ 0 := fun h => hk (BitVec.eq_of_toNat_eq (by simpa using h))
  exact ⟨hx.1, (bit_setBit_ne x.p k.toNat 0 b hk').trans hx.2⟩

theorem finish_form {s : State} (hs : s.cellForm) (a : At) {f : Ctx → Ctx} (h : ∀ y : Ctx, y.form → (f y).form) :
    Forms (s.finish a f) :=
  cellForm_of_held (retire_held ..) (modCtx_form (cellForm_of_held (countIssue_held s a) hs) a h)

theorem Slot.emptied_form (y : Slot) (cause : BitVec 4) : (y.emptied cause).ctx.form := Ctx.initial_form _

theorem endContext_form {s : State} (hs : s.cellForm) {a : At} {cause : BitVec 4} : (s.endContext a cause).cellForm := by
  unfold State.endContext
  refine modCell_form ?_ a.cell fun x hx => ?_
  · split
    · exact cellForm_of_held (by simp) hs
    · exact cellForm_of_held (by simp) hs
    · exact cellForm_of_held (by simp) hs
  · have hy := Cell.modSlot_form hx a.slot fun y _ => y.emptied_form cause
    exact Cell.choose_form (Cell.modRegs_form (Cell.clearVat_form hy) _)

/-! ### Vector engine -/

theorem freeStore_form {s : State} (hs : s.cellForm) {c : CellId} {a n : Nat} : (s.freeStore c a n).cellForm :=
  modCell_form hs c fun _ hx =>
    Cell.store_form hx (ProtMem.putBytes_wf (ProtMem.zeroRange_wf hx.1 a n) a (s.freeBytes n))

theorem startOpt_form {s : State} (hs : s.cellForm) {c : CellId} {m : VxInstr} : (s.startOpt c m).cellForm := by
  unfold State.startOpt
  dsimp only
  split
  · exact cellForm_of_held (by simp) hs
  · have hopt (b : Nat) : (s.modCell c fun y => y.modRegs fun r => { r with
        optStatus := setBit (setBit r.optStatus 0 true) b true }).cellForm := cellForm_of_held (by simp) hs
    refine form_of_ite (hopt 2) (form_of_ite (hopt 1) (freeStore_form (cellForm_of_held ?_ hs)))
    simp

theorem startRmode_form {s : State} (hs : s.cellForm) {c : CellId} {m : VxInstr} : (s.startRmode c m).cellForm := by
  unfold State.startRmode
  refine form_of_ite (form_of_ite ?_ ?_) (form_of_ite ?_ hs)
  · exact cellForm_of_held (by simp) hs
  · exact cellForm_of_held (by simp) hs
  · exact modCell_form hs c fun x hx => Cell.clearVat_form hx

theorem writeBlock_wf {m : ProtMem} (h : m.wf) (t : Tile) (row k : Nat) (codes : List Nat) (md : Nat) (bads : List Nat)
    (mbad : Bool) : (writeBlock m t row k codes md bads mbad).wf := by
  have h2 : ∀ l, (((m.write (t.elemAddr row (k * t.elem.block)) (packCodes t.elem.bits codes)).write
      (t.secondAddr row (k * t.elem.block)) [BitVec.ofNat 8 md]).poisonAll l).wf :=
    ProtMem.poisonAll_wf (ProtMem.write_wf (ProtMem.write_wf h _ _) _ _)
  unfold writeBlock
  dsimp only
  split
  · exact ProtMem.poison_wf (h2 _) _
  · exact h2 _

theorem writeRun_wf {m : ProtMem} (h : m.wf) (t : Tile) (row col : Nat) (xs : List (Nat × Nat × Bool × Bool)) :
    (writeRun m t row col xs).wf := by
  unfold writeRun
  dsimp only
  refine List.foldlRecOn (motive := fun w : ProtMem => w.wf = true) _ _ ?_ fun w hw x _ => ?_
  · split
    · exact ProtMem.write_wf (ProtMem.write_wf h _ _) _ _
    · exact ProtMem.write_wf h _ _
  · have h1 : (if x.1.2.2.1 then w.poison (t.elemAddr row (col + x.2) / 4) else w).wf := by
      split
      · exact ProtMem.poison_wf hw _
      · exact hw
    split
    · exact ProtMem.poison_wf h1 _
    · exact h1

theorem VxRun.toStream_wf (r : VxRun) (s : State) {m : ProtMem} (h : m.wf) (t : Tile) : (r.toStream s m t).1.wf := by
  unfold VxRun.toStream
  dsimp only
  split
  · refine List.foldlRecOn (motive := fun w : ProtMem × List G16Flag => w.1.wf = true) _ _ h fun w hw b _ => ?_
    exact writeBlock_wf hw ..
  · refine List.foldlRecOn (motive := fun w : ProtMem => w.wf = true) _ _ h fun w hw q _ => ?_
    split
    · refine List.foldlRecOn (motive := fun w : ProtMem => w.wf = true) _ _ hw fun u hu x _ => ?_
      exact writeRun_wf hu ..
    · exact writeRun_wf hw ..

theorem VxRun.toReg_wf (r : VxRun) (m : ProtMem) {v : ProtMem} (h : v.wf) (d : Fin 64) : (r.toReg m v d).wf :=
  ProtMem.poisonAll_wf (ProtMem.write_wf h _ _) _

theorem drainRow_wf {m : ProtMem} (h : m.wf) (t : Tile) (row : Nat) (rm : BitVec 2) (word : Nat → Word32) (vs : List Word32) :
    (drainRow m t row rm word vs).1.wf := by
  unfold drainRow
  dsimp only
  split
  · exact ProtMem.write_wf (ProtMem.write_wf h _ _) _ _
  · exact ProtMem.write_wf h _ _

theorem vxBeat_form {s : State} (hs : s.cellForm) {c : CellId} : Forms (State.vxBeat c s) := by
  unfold State.vxBeat
  extract_lets x
  split
  · exact hs
  · next r _ =>
    extract_lets at_ m last bad sat acc verdict allSat r' wr v res y regs eng s1 s2 s3 s4
    have hx : x.form := hs c
    have hw : wr.1.form := by
      simp only [wr]
      split
      · exact Cell.modSlot_form hx _ fun y hy => ⟨r.toReg_wf _ hy.1 _, hy.2⟩
      · exact Cell.store_form hx (r.toStream_wf s hx.1 _)
      · split
        · exact Cell.modSlot_form hx _ fun y hy => ⟨ProtMem.write_wf hy.1 _ _, hy.2⟩
        · exact hx
      · exact hx
    have h1 : s1.cellForm := setCell_form hs c hw
    refine cellForm_of_held ?_ h1
    simp only [s4, s3, s2]
    split <;> simp

/-! ### The mover -/

theorem dmPut_form {s : State} (hs : s.cellForm) {c : CellId} {i : Fin 8} {k : Nat} {bs : List Byte} {bad : Bool} :
    (s.dmPut c i k bs bad).cellForm := by
  unfold State.dmPut
  split
  · exact hs
  · dsimp only
    split
    · exact hs
    · split
      · refine cellForm_of_held (dmFail_held ..) ?_
        split
        · exact modCell_form hs _ fun x hx => Cell.store_form hx (ProtMem.poisonAll_wf (ProtMem.write_wf hx.1 _ _) _)
        · exact hs
      · split
        · exact cellForm_of_held (dmMoved_held ..)
            (modCell_form hs _ fun x hx => Cell.store_form hx (ProtMem.write_wf hx.1 _ _))
        · exact cellForm_of_held (by simp) hs
        · exact cellForm_of_held (by simp) hs
        · exact cellForm_of_held (by simp) hs

theorem dmDeliver_form {s : State} (hs : s.cellForm) {c : CellId} {i : Fin 8} {k : Nat} {bs : List Byte} {bad : Bool} :
    (s.dmDeliver c i k bs bad).cellForm := by
  unfold State.dmDeliver
  split
  · exact hs
  · exact foldl_form (fun t p ht => dmPut_form ht) _ hs

theorem dmArrive_form {s : State} (hs : s.cellForm) {c : CellId} {i : Fin 8} {k : Nat} {bs : List Byte} {bad : Bool} :
    (s.dmArrive c i k bs bad).cellForm := by
  unfold State.dmArrive
  split
  · exact hs
  · split
    · exact cellForm_of_held (by simp) hs
    · exact dmDeliver_form hs

theorem dmPushAll_form {s : State} (hs : s.cellForm) {c : CellId} {i : Fin 8} {m : DmInstr} : (s.dmPushAll c i m).cellForm := by
  refine foldl_form (fun t kn ht => ?_) _ hs
  split
  · exact cellForm_of_held (by simp) ht
  · next h => exact dmPut_form (cellForm_of_cells (dmRead_cells h) ht)

theorem dmStart_form {s : State} (hs : s.cellForm) {c : CellId} {i : Fin 8} {m : DmInstr} : (s.dmStart c i m).cellForm := by
  have hk {t : State} (h : held t.cells = held s.cells) : t.cellForm := cellForm_of_held h hs
  unfold State.dmStart
  extract_lets sd absent out
  have hout (t : State) : held (out t).cells = held t.cells := by
    simp only [out]
    split <;> simp
  split
  · exact hk (by simp)
  · split
    · exact hk (by simp)
    · split
      · exact hk (by simp [hout])
      · split
        · exact hk (by simp [hout])
        · split
          · exact hk (hout s)
          · split
            · exact dmPushAll_form hs
            · exact hk (by simp)

theorem dmUndefine_form {s : State} (hs : s.cellForm) {c : CellId} {m : DmInstr} : (s.dmUndefine c m).cellForm := by
  refine foldl_form (fun t kn ht => ?_) _ hs
  split
  · exact freeStore_form ht
  · split
    · exact cellForm_of_held (by simp) ht
    · exact ht
  · exact ht

theorem dmStores_form {s : State} (hs : s.cellForm) {c : CellId} {i : Fin 8} {m : DmInstr} : (s.dmStores c i m).cellForm := by
  refine foldl_form (fun t kn ht => ?_) _ hs
  split
  · exact dmPut_form (cellForm_of_cells (carryTo_cells ..) ht)
  · exact ht

theorem dmEnd_form {s : State} (hs : s.cellForm) {c : CellId} {i : Fin 8} {r : DmRun} : (s.dmEnd c i r).cellForm := by
  unfold State.dmEnd
  extract_lets s1 q late sd t hsp s2
  have h1 : held s1.cells = held s.cells := setXfer_held ..
  have h2 : s2.cellForm := by
    refine cellForm_of_held ?_ hs
    simp only [s2]
    split
    · split <;> simp [t, h1]
    · exact h1
  split
  · exact cellForm_of_held h1 hs
  · split
    · exact cellForm_of_held (completion_held ..) h2
    · exact cellForm_of_held (instrFault_held ..) (dmUndefine_form h2)

/-! ### Memory, fabric and host -/

theorem serve_form {s : State} (hs : s.cellForm) {r : MemReq} : (s.serve r).cellForm := by
  unfold State.serve
  split
  · exact hs
  · refine cellForm_of_held (dmNext_held ..) ?_
    split
    · exact cellForm_of_held (serveWrite_held ..) hs
    · exact dmDeliver_form (cellForm_of_cells (by simp) hs)

theorem remoteWrite_form {s : State} (hs : s.cellForm) {f : Frame} : (s.remoteWrite f).2.cellForm := by
  unfold State.remoteWrite
  dsimp only
  split
  · split
    · exact hs
    · exact modCell_form hs _ fun x hx => Cell.store_form hx (ProtMem.poisonAll_wf (ProtMem.write_wf hx.1 _ _) _)
  · split
    · exact cellForm_of_cells (remoteDram_cells ..) hs
    · exact hs

theorem hspServe_form {s : State} (hs : s.cellForm) {toHost : Bool} {h : HspXfer} : (s.hspServe toHost h).cellForm := by
  unfold State.hspServe
  split
  · exact cellForm_of_held (by simp) hs
  · extract_lets k n sd risk s1 h' g s2 rd hsp s3
    have h1 : s1.cellForm := by
      refine cellForm_of_held ?_ hs
      simp only [s1]
      split <;> simp
    have h2 : s2.cellForm := cellForm_of_held (by simp [s2]) h1
    split
    · exact cellForm_of_held (by simp) h1
    · split
      · split
        · exact dmDeliver_form h2
        · split
          · exact cellForm_of_held (by simp) h2
          · next hr => exact dmDeliver_form (cellForm_of_cells (dmReadPart_cells hr) h2)
      · exact cellForm_of_held (by simp [s3]) h2

/-! ### Contexts and resets -/

theorem Slot.started_form (y : Slot) (i : SlotId) (v : Word64) : (y.started i v).ctx.form := Ctx.initial_form _
theorem Slot.afterReset_form (y : Slot) (cause : BitVec 4) : (y.afterReset cause).ctx.form := Ctx.initial_form _

theorem ctxStartOp_form {s : State} (hs : s.cellForm) {c : CellId} {i : SlotId} {v : Word64} : (s.ctxStartOp c i v).cellForm := by
  have h1 : (s.modSlot ⟨c, i⟩ (fun x => x.started i v)).cellForm := modSlot_form hs _ fun y _ => y.started_form i v
  unfold State.ctxStartOp
  split
  · exact hs
  · split
    · exact cellForm_of_held (by simp) hs
    · dsimp only
      split
      · exact cellForm_of_held (requestReturn_held ..) h1
      · exact h1

theorem Cell.resetSlot_form {x : Cell} (hx : x.form) (i : SlotId) (cause : BitVec 4) : (x.resetSlot i cause).form := by
  have hy : (((x.modEng (·.cancel i (x.running == some i))).modSlot i (·.afterReset cause)).modRegs
      (fun r => { r with plateDbg := 0 })).form :=
    Cell.modSlot_form hx i fun y _ => y.afterReset_form cause
  unfold Cell.resetSlot
  dsimp only
  split
  · exact (Cell.clearVat_form hy :)
  · split <;> exact hy

theorem resetContext_form {s : State} (hs : s.cellForm) {a : At} {cause : BitVec 4} : (s.resetContext a cause).cellForm := by
  unfold State.resetContext
  split
  · exact hs
  · extract_lets s1
    have h1 : s1.cellForm := by
      refine cellForm_of_held (abandonLatches_held ..) (modCell_form (cellForm_of_held ?_ hs) a.cell fun x hx =>
        Cell.resetSlot_form hx a.slot cause)
      simp
    split
    · split
      · exact cellForm_of_held (by simp) h1
      · exact h1
    · exact h1

theorem Cell.resetEngine_form {x : Cell} (hx : x.form) (e : BitVec 4) : (x.resetEngine e).form := by
  have hy : (x.clearVat.modRegs (fun r => { r with plateDbg := 0 })).form := Cell.modRegs_form (Cell.clearVat_form hx) _
  unfold Cell.resetEngine
  dsimp only
  split <;> exact hy

theorem resetCellEngine_form {s : State} (hs : s.cellForm) {c : CellId} {e : BitVec 4} : (s.resetCellEngine c e).cellForm := by
  have h1 := resetContext_form (a := ⟨c, 1⟩) (cause := 2) (resetContext_form (a := ⟨c, 0⟩) (cause := 2) hs)
  refine modCell_form ?_ c fun x hx => Cell.resetEngine_form hx e
  split
  · exact cellForm_of_held (by simp) h1
  · exact h1

theorem resetPartCell_form {s : State} (hs : s.cellForm) {c : CellId} : (s.resetPartCell c).cellForm := by
  have h1 := resetContext_form (a := ⟨c, 1⟩) (cause := 4) (resetContext_form (a := ⟨c, 0⟩) (cause := 4) hs)
  unfold State.resetPartCell
  extract_lets s1 s2
  have h2 : s2.cellForm := cellForm_of_held (by simp [s2, s1]) h1
  refine modCell_form h2 c fun x hx => ?_
  have hy : (([1, 2, 3, 0] : List (BitVec 4)).foldl Cell.resetEngine x).form :=
    List.foldlRecOn _ _ hx fun y hy e _ => Cell.resetEngine_form hy e
  refine Cell.form_congr ?_ hy
  simp [Cell.held, Slot.held]

theorem resetPartition_form {s : State} (hs : s.cellForm) {p : PartId} : (s.resetPartition p).cellForm := by
  unfold State.resetPartition
  extract_lets s0 s1 mine s2 gone s3 s4 s5 mem s5'
  have h0 : s0.cellForm := cellForm_of_cells (by simp [s0]) hs
  have h1 : s1.cellForm := foldl_form (fun t c ht => resetPartCell_form ht) _ h0
  have h2 : s2.cellForm := cellForm_of_cells (by simp [s2]) h1
  have h3 : s3.cellForm := cellForm_of_held (by simp [s3]) h2
  have h4 : s4.cellForm := h3
  have h5 : s5'.cellForm := cellForm_of_cells (by simp [s5', s5]) h4
  exact cellForm_of_cells (by simp) h5

theorem cellForm_replicate {s : State} (h : s.cells = Vector.replicate 64 Cell.reset) : s.cellForm := by
  intro c
  have : s.cell c = Cell.reset := by simp [State.cell, h, vget]
  rw [this]; exact Cell.reset_form

theorem coreReset_form (s : State) : s.coreReset.cellForm := cellForm_replicate rfl
theorem coldState_form (s : State) (aux : Bool) : (s.coldState aux).cellForm := cellForm_replicate rfl

end Sys2Proof.Machine
end

section
/-!
SUPPORT. Register writes. Every entry of the map but CTX_START leaves what the cells hold; CTX_START leaves the form.
-/
namespace Sys2Proof.Machine

/-- A write of the register leaves what the cells hold. -/
def RegEntry.Holds (e : RegEntry) : Prop := ∀ r v s, held (e.put r v s).cells = held s.cells

/-- A write of the register, if there is one, leaves what the cells hold. -/
def HoldsAll (o : Option RegEntry) : Prop := ∀ e, o = some e → e.Holds

@[simp] theorem holdsAll_none : HoldsAll none := fun _ h => nomatch h
@[simp] theorem holdsAll_some (e : RegEntry) : HoldsAll (some e) ↔ e.Holds := by simp [HoldsAll]
@[simp] theorem holdsAll_map {α : Type} (o : Option α) (f : α → RegEntry) :
    HoldsAll (o.map f) ↔ ∀ a, o = some a → (f a).Holds := by cases o <;> simp
@[simp] theorem holdsAll_bind {α : Type} (o : Option α) (f : α → Option RegEntry) :
    HoldsAll (o.bind f) ↔ ∀ a, o = some a → HoldsAll (f a) := by cases o <;> simp
@[simp] theorem holdsAll_ite {c : Prop} [Decidable c] (a b : Option RegEntry) :
    HoldsAll (if c then a else b) ↔ if c then HoldsAll a else HoldsAll b := by rw [apply_ite HoldsAll]
@[simp] theorem holdsAll_firstSome_nil : HoldsAll (firstSome []) := holdsAll_none

@[simp] theorem holdsAll_firstSome_cons (o : Option RegEntry) (l : List (Option RegEntry)) :
    HoldsAll (firstSome (o :: l)) ↔ HoldsAll o ∧ (o = none → HoldsAll (firstSome l)) := by
  cases o with
  | none => simp [firstSome]
  | some e => simp [firstSome]

@[simp] theorem ro64_holds (d : DieId) (rd : State → Requester → Bool) (get : State → Word64) : (ro64 d rd get).Holds :=
  fun _ _ s => congrArg held (regIgnored_cells s d)
@[simp] theorem ro32_holds (d : DieId) (rd : State → Requester → Bool) (get : State → Word64) : (ro32 d rd get).Holds :=
  ro64_holds d rd get
@[simp] theorem rw64_holds (d : DieId) (rd : State → Requester → Bool) (get : State → Word64) (put : Word64 → State → State) :
    (rw64 d rd get put).Holds ↔ ∀ v s, held (put v s).cells = held s.cells := ⟨fun h => h .host, fun h _ => h⟩
@[simp] theorem rw32_holds (d : DieId) (rd : State → Requester → Bool) (get : State → Word32) (put : Word32 → State → State) :
    (rw32 d rd get put).Holds ↔ ∀ (v : Word64) (s : State), held (put (bfld v 0 32) s).cells = held s.cells := ⟨fun h => h .host, fun h _ => h⟩
@[simp] theorem by_holds (e : RegEntry) (wr : State → Requester → Bool) (put : Requester → Word64 → State → State) :
    (e.by_ wr put).Holds ↔ ∀ r v s, held (put r v s).cells = held s.cells := Iff.rfl
@[simp] theorem writable_holds (e : RegEntry) (wr : State → Requester → Bool) : (e.writable wr).Holds ↔ e.Holds := Iff.rfl
@[simp] theorem shadow_holds (e : RegEntry) (pend : State → Word64) : (e.shadow pend).Holds ↔ e.Holds := Iff.rfl
@[simp] theorem inAux_holds (e : RegEntry) : e.inAux.Holds ↔ e.Holds := Iff.rfl
theorem HoldsAll.inAux {o : Option RegEntry} (h : HoldsAll o) : HoldsAll (o.map RegEntry.inAux) :=
  (holdsAll_map o _).mpr fun e he => (inAux_holds e).mpr (h e he)

@[simp] theorem cellReg1_holds (c : CellId) (o : Nat) : HoldsAll (cellReg1 c o) := by
  unfold cellReg1
  dsimp only
  split <;> simp

@[simp] theorem memReg_holds (n : StackId) (o : Nat) : HoldsAll (memReg n o) := by
  unfold memReg
  dsimp only
  split <;> simp

@[simp] theorem stepReg_holds (p : PartId) (o : Nat) : HoldsAll (stepReg p o) := by
  unfold stepReg
  dsimp only
  split <;> simp

@[simp] theorem partReg_holds (p : PartId) (o : Nat) : HoldsAll (partReg p o) := by
  unfold partReg
  dsimp only
  split <;> simp

@[simp] theorem regReg_holds (p : PartId) (o : Nat) : HoldsAll (regReg p o) := by
  unfold regReg
  dsimp only
  split <;> simp

@[simp] theorem memCtlReg_holds (o : Nat) : HoldsAll (memCtlReg o) := by
  unfold memCtlReg
  dsimp only
  split <;> simp

@[simp] theorem collReg_holds (o : Nat) : HoldsAll (collReg o) := by
  unfold collReg
  split <;> simp

@[simp] theorem collCntReg_holds (f : FabId) (o : Nat) : HoldsAll (collCntReg f o) := by
  unfold collCntReg
  split <;> simp

@[simp] theorem colldStatReg_holds (i o : Nat) : HoldsAll (colldStatReg i o) := by
  unfold colldStatReg
  split <;> simp

@[simp] theorem hspReg_holds (o : Nat) : HoldsAll (hspReg o) := by
  unfold hspReg
  split <;> simp

@[simp] theorem sheetReg_holds (p : PartId) (o : Nat) : HoldsAll (sheetReg p o) := by
  unfold sheetReg
  dsimp only
  split <;> simp

@[simp] theorem twinReg_holds (p : PartId) (o : Nat) : HoldsAll (twinReg p o) := by
  have hset (s : State) (g : Twin → Twin) : held (s.twinSet p (·.modTwin p g)).cells = held s.cells :=
    twinSet_held s p (congrArg held (modTwin_cells s p g))
  unfold twinReg
  dsimp only
  split <;> simp [hset]

@[simp] theorem hostReg_holds (o : Nat) : HoldsAll (hostReg o) := by
  unfold hostReg
  split <;> simp

@[simp] theorem groupReg_holds (g : Fin 256) (o : Nat) : HoldsAll (groupReg g o) := by
  unfold groupReg
  dsimp only
  split <;> simp

@[simp] theorem fabReg_holds (f : FabId) (o : Nat) : HoldsAll (fabReg f o) := by
  unfold fabReg
  dsimp only
  split <;> simp

@[simp] theorem portReg_holds (k : PortId) (o : Nat) : HoldsAll (portReg k o) := by
  unfold portReg
  dsimp only
  split <;> simp

@[simp] theorem routeReg_holds (o : Nat) : HoldsAll (routeReg o) := by
  unfold routeReg
  split <;> simp

@[simp] theorem meterReg_holds (o : Nat) : HoldsAll (meterReg o) := by
  unfold meterReg
  dsimp only
  split <;> simp
  intro d _
  split <;> simp

@[simp] theorem xdReg_holds (j : JoinId) (o : Nat) : HoldsAll (xdReg j o) := by
  unfold xdReg
  dsimp only
  split <;> simp

@[simp] theorem timeReg_holds (o : Nat) : HoldsAll (timeReg o) := by
  unfold timeReg
  split <;> simp

@[simp] theorem testReg_holds (o : Nat) : HoldsAll (testReg o) := by
  unfold testReg
  dsimp only
  split <;> simp
  intro d _
  split <;> simp

@[simp] theorem auxReg_holds (o : Nat) : HoldsAll (auxReg o) := by
  unfold auxReg
  refine HoldsAll.inAux ?_
  dsimp only
  split <;> simp
  intro _ d _
  split <;> simp

@[simp] theorem fd0Reg_holds (o : Nat) : HoldsAll (fd0Reg o) := by
  unfold fd0Reg
  dsimp only
  split <;> simp

@[simp] theorem fd1Reg_holds (o : Nat) : HoldsAll (fd1Reg o) := by
  unfold fd1Reg
  dsimp only
  split <;> simp

/-! The one register whose write changes what a cell holds is CTX_START, which sets up a context in form. -/

/-- A write of the register, if there is one, leaves every cell in form. -/
def KeepsAll (o : Option RegEntry) : Prop := ∀ e, o = some e → ∀ r v s, s.cellForm → (e.put r v s).cellForm

theorem HoldsAll.keeps {o : Option RegEntry} (h : HoldsAll o) : KeepsAll o :=
  fun e he r v s hs => cellForm_of_held (h e he r v s) hs

theorem keepsAll_firstSome {o : Option RegEntry} {l : List (Option RegEntry)} (ho : KeepsAll o) (hl : KeepsAll (firstSome l)) :
    KeepsAll (firstSome (o :: l)) := by
  cases o with
  | none => exact hl
  | some e => exact ho

theorem keepsAll_bind {α : Type} (o : Option α) {f : α → Option RegEntry} (h : ∀ a, KeepsAll (f a)) : KeepsAll (o.bind f) := by
  cases o with
  | none => exact holdsAll_none.keeps
  | some a => exact h a

theorem cellRegSlot_keeps (c : CellId) (i : SlotId) (base : Nat) : KeepsAll (cellRegSlot c i base) := by
  unfold cellRegSlot
  dsimp only
  split
  case h_4 =>
    rintro _ ⟨⟩ r v s hs
    exact ctxStartOp_form hs
  all_goals exact HoldsAll.keeps (by simp)

theorem cellReg_keeps (c : CellId) (o : Nat) : KeepsAll (cellReg c o) :=
  keepsAll_firstSome (cellReg1_holds c o).keeps (keepsAll_firstSome (cellRegSlot_keeps c _ _) (HoldsAll.keeps (by simp)))
theorem cdReg_keeps (d : Fin 4) (o : Nat) : KeepsAll (cdReg d o) :=
  keepsAll_firstSome (keepsAll_bind _ fun _ => cellReg_keeps _ _) (HoldsAll.keeps (by simp))

theorem regAt_keeps (o : Nat) : KeepsAll (regAt o) := by
  unfold regAt
  dsimp only
  split
  case h_1 | h_2 | h_3 | h_4 => exact cdReg_keeps _ _
  all_goals exact HoldsAll.keeps (by simp)

theorem regAccess_keeps {o : Nat} {a : RegAccess} (h : regAccess o = some a) {r : Requester} {v : Word64} {s : State}
    (hs : s.cellForm) : (a.entry.put r v s).cellForm := by
  obtain ⟨e, he, rfl⟩ := Option.map_eq_some_iff.mp h
  exact regAt_keeps _ e he r v s hs

theorem hostWrite_form {s : State} (hs : s.cellForm) {r : Requester} {o : Nat} {b : Bool} {v : Word64} :
    (s.hostWrite r o b v).cellForm := by
  have hign (d : DieId) : (s.regIgnored d).cellForm := cellForm_of_cells (regIgnored_cells s d) hs
  unfold State.hostWrite
  split
  · exact hign _
  · next a h =>
    have hp (w : Word64) : (a.entry.put r w s).cellForm := regAccess_keeps h hs
    exact form_of_ite (hign _) (form_of_ite (form_of_ite (hp _) (hign _)) (form_of_ite (hp _) (hign _)))

theorem bar0_form {s : State} (hs : s.cellForm) {write : Bool} {o len : Nat} {v : Word64} : (s.bar0 write o len v).cellForm := by
  unfold State.bar0
  exact form_of_ite (form_of_ite (hostWrite_form hs) hs) (cellForm_of_cells (by simp) hs)

end Sys2Proof.Machine
end

section
/-!
SUPPORT. The commands that change what a cell holds.
-/
namespace Sys2Proof.Machine

theorem ite_poisonAll_wf {m : ProtMem} (h : m.wf) (b : Bool) (ws : List Nat) : (if b then m.poisonAll ws else m).wf := by
  split
  · exact ProtMem.poisonAll_wf h ws
  · exact h

theorem forms_of_ite {c : Prop} [Decidable c] {a b : Res} (ha : Forms a) (hb : Forms b) : Forms (if c then a else b) := by
  split
  · exact ha
  · exact hb

theorem Cell.rows_form {x : Cell} (hx : x.form) {m v : ProtMem} (hm : m.wf = true) (hv : v.wf = true) (l : BitVec 4096) :
    ({ x with store := m, vat := v, vatLive := l } : Cell).form := ⟨hm, hv, hx.2.2⟩

/-! ### The plate and its accumulators -/

theorem execVatPromotion_form {s : State} (hs : s.cellForm) (c : CellId) : Forms (execVatPromotion c s) := by
  unfold execVatPromotion
  extract_lets x
  split
  · exact hs
  · next fl rest _ =>
    extract_lets n cur vatBad sums out vat1 vat2 s1
    have hx : x.form := hs c
    have h1 : s1.cellForm := modCell_form hs c fun y hy =>
      Cell.form_congr (Cell.freed_held _) (Cell.vat_form hy (ite_poisonAll_wf (vatPut_wf hx.2.1 ..) vatBad _))
    refine form_of_ite ?_ h1
    exact cellForm_of_held (poisonEvent_held ..) h1

theorem execVatRowTransfer_form {s : State} (hs : s.cellForm) (c : CellId) : Forms (execVatRowTransfer c s) := by
  unfold execVatRowTransfer
  extract_lets x test
  split
  · exact hs
  · next i _ =>
    split
    · exact hs
    · next r _ =>
      extract_lets t row free done step vat note ev out s1 es bad ws s2 ad rd bad' marks s3
      have hstep (bad : Bool) {y : Cell} (hy : y.form) : (step bad y).form := Cell.form_congr (Cell.freed_held _) hy
      have hvat (bad : Bool) {m : ProtMem} (h : m.wf = true) : (vat bad m).wf = true := ite_poisonAll_wf h bad _
      have hnote (bad : Bool) (w : Option (Nat × BitVec 39)) {u : State} (hu : u.cellForm) : (note bad w u).cellForm :=
        form_of_ite (cellForm_of_held (poisonEvent_held ..) hu) hu
      have hx : x.form := hs c
      split
      · refine hnote _ _ (cellForm_of_held (setStopIf_held ..) (modCell_form hs c fun y hy => hstep _ ?_))
        exact Cell.rows_form hy (drainRow_wf hx.1 ..) (hvat _ hy.2.1) _
      · refine hnote _ _ (modCell_form hs c fun y hy => hstep _ ?_)
        exact Cell.rows_form hy (ProtMem.write_wf hy.1 _ _) (hvat _ hy.2.1) _
      · refine hnote _ _ (modCell_form hs c fun y hy => hstep _ ?_)
        exact Cell.rows_form hy hy.1 (ProtMem.poisonAll_wf (vatPut_wf hy.2.1 ..) _) _

theorem execVatApertureAccess_form {s : State} (hs : s.cellForm) (by_ : Requester) (c : CellId) (isWrite : Bool)
    (offset : BitVec 21) (data : Word32) : Forms (execVatApertureAccess by_ c isWrite offset data s) := by
  unfold execVatApertureAccess
  extract_lets x answer src r s1
  have hanswer {u : State} (hu : u.cellForm) (v : Word64) : (answer u v).cellForm := by
    simp only [answer]
    split <;> exact hu
  have h1 : s1.cellForm := cellForm_of_held (by simp [s1]) hs
  split
  · split
    · exact modCell_form hs c fun y hy => Cell.vat_form hy (vatPut_wf hy.2.1 ..)
    · exact hanswer hs _
  · exact form_of_ite h1 (hanswer h1 0)

/-! ### Instructions of the control core -/

/-- An instruction with a predicate destination acts only where the destination is not p0 (R172). -/
theorem setP_forms {s : State} (hs : s.cellForm) {a : At} {p : Pred} {op : Byte} {ok : Checks} {names : List (BitVec 5)}
    {k : BitVec 3} (hk : ok.code = true → k ≠ 0) {b : State → Bool} :
    Forms (s.issue a p 1 op ok names fun s => s.finish a (·.setP k (b s))) :=
  issue_forms hs fun hok => finish_form hs a fun _ hy => Ctx.setP_form hy (hk hok) (b s)

theorem execScCmp_form {s : State} (hs : s.cellForm) (a : At) (p : Pred) (f : FmtS) : Forms (execScCmp a p f s) :=
  setP_forms hs (b := fun s => intRel (bfld f.fn 0 3) (s.sreg a f.sa) (s.sreg a f.sb)) (by simp +contextual)

theorem execScPop_form {s : State} (hs : s.cellForm) (a : At) (p : Pred) (f : FmtS) : Forms (execScPop a p f s) :=
  setP_forms hs (b := fun s => popOp (bfld f.fn 6 2) (predVal (s.slot a).ctx.p (bfld f.fn 0 3))
    (predVal (s.slot a).ctx.p (bfld f.fn 3 3))) (by simp +contextual)

theorem execScCmpi_form {s : State} (hs : s.cellForm) (a : At) (p : Pred) (f : FmtSI) : Forms (execScCmpi a p f s) :=
  setP_forms hs (b := fun s => intRel f.fn (s.sreg a f.sa) (f.imm.signExtend 64)) (by simp +contextual)
theorem execScFcmp_form {s : State} (hs : s.cellForm) (a : At) (p : Pred) (f : FmtS) : Forms (execScFcmp a p f s) :=
  setP_forms hs (b := fun s => fltRel (bfld f.fn 0 3) (s.freg a f.sa) (s.freg a f.sb)) (by simp +contextual)
theorem execScSt_form {s : State} (hs : s.cellForm) (a : At) (p : Pred) (f : FmtSI) : Forms (execScSt a p f s) :=
  memOp_forms hs fun _ => storeOp_form hs
theorem execScTst_form {s : State} (hs : s.cellForm) (a : At) (p : Pred) (f : FmtS) : Forms (execScTst a p f s) :=
  memOp_forms hs fun _ => storeOp_form hs
theorem execScQst_form {s : State} (hs : s.cellForm) (a : At) (p : Pred) (f : FmtS) : Forms (execScQst a p f s) :=
  memOp_forms hs fun _ => storeOp_form hs

theorem execScExit_form {s : State} (hs : s.cellForm) (a : At) (p : Pred) (f : FmtS) : Forms (execScExit a p f s) := by
  refine issue_forms hs fun _ => ?_
  dsimp only
  split
  · exact (hold_keeps ..).forms hs
  · split
    · exact (trap_keeps ..).forms hs
    · exact endContext_form (cellForm_of_held (countIssue_held s a) hs)

theorem ctxReg_forms {s : State} (hs : s.cellForm) {a : At} {f : FmtSI} {op : Byte} {ok : RegEntry → Bool}
    {body : RegAccess → Res} (h : ∀ o r, regAccess o = some r → Forms (body r)) : Forms (s.ctxReg a f op ok body) := by
  unfold State.ctxReg
  dsimp only
  split
  · exact (trap_keeps ..).forms hs
  · next r hr =>
    obtain ⟨o, _, ho⟩ := Option.bind_eq_some_iff.mp hr
    exact forms_of_ite ((trap_keeps ..).forms hs) (forms_of_ite ((trap_keeps ..).forms hs) (h o r ho))

theorem execScWrreg_form {s : State} (hs : s.cellForm) (a : At) (p : Pred) (f : FmtSI) : Forms (execScWrreg a p f s) := by
  refine issue_forms hs fun _ => ctxReg_forms hs fun o r hr => ?_
  have ht : (s.countIssue a).cellForm := cellForm_of_held (countIssue_held s a) hs
  refine cellForm_of_held (retire_held ..) (form_of_ite (regAccess_keeps hr ht) ?_)
  exact cellForm_of_cells (regIgnored_cells ..) ht

/-! ### Contexts -/

theorem execFaultStopComplete_form {s : State} (hs : s.cellForm) (a : At) : Forms (execFaultStopComplete a s) := by
  unfold execFaultStopComplete
  extract_lets x y s1 src mark
  have h1 : s1.cellForm := by
    simp only [s1]
    split
    · exact cellForm_of_held (by simp) hs
    · exact hs
  have hmark (z : Slot) : (mark z).ctx.form := Ctx.initial_form _
  split
  · exact hs
  · split
    · refine modCell_form h1 a.cell fun z hz => Cell.choose_form (Cell.modRegs_form (Cell.clearVat_form ?_) _)
      exact Cell.modSlot_form hz _ fun w _ => hmark w
    · exact modSlot_form h1 a fun w _ => hmark w

theorem execContextSwitch_form {s : State} (hs : s.cellForm) (c : CellId) : Forms (execContextSwitch c s) := by
  unfold execContextSwitch
  split
  · exact hs
  · next i _ =>
    refine modCell_form (cellForm_of_held (abandonLatches_held ..) hs) c fun x hx =>
      Cell.choose_form (Cell.modRegs_form (Cell.clearVat_form ?_) _)
    exact Cell.modSlot_form hx i fun y _ => Ctx.initial_form _

theorem execCtxStart_form {s : State} (hs : s.cellForm) (by_ : Requester) (c : CellId) (i : SlotId) (v : Word64) :
    Forms (execCtxStart by_ c i v s) := regWrite_forms hs (ctxStartOp_form hs)

/-! ### The vector engine and the mover -/

theorem execVectorIssue_form {s : State} (hs : s.cellForm) (c : CellId) : Forms (execVectorIssue c s) := by
  unfold execVectorIssue
  dsimp only
  split
  · exact hs
  · split
    · exact hs
    · have h1 (n : Nat) : (s.modCell c fun y => y.modEng fun e => { e with vecQ := e.vecQ.eraseIdx n }).cellForm :=
        cellForm_of_held (by simp) hs
      split
      · exact cellForm_of_held (instrFault_held ..) (h1 _)
      · split
        · exact startOpt_form (h1 _)
        · exact startRmode_form (h1 _)
        · exact h1 _
        · exact cellForm_of_held (by simp) hs

theorem execVxBeatRetire_form {s : State} (hs : s.cellForm) (c : CellId) : Forms (execVxBeatRetire c s) := by
  unfold execVxBeatRetire
  split
  · split
    · exact gated_forms hs (vxBeat_form hs)
    · exact vxBeat_form hs
  · exact hs

theorem execMoverIssue_form {s : State} (hs : s.cellForm) (c : CellId) : Forms (execMoverIssue c s) := by
  unfold execMoverIssue
  dsimp only
  split
  · split
    · exact cellForm_of_held (by simp) hs
    · exact dmStart_form (cellForm_of_held (by simp) hs)
  · exact hs

theorem execDmTransferComplete_form {s : State} (hs : s.cellForm) (c : CellId) (i : Fin 8) :
    Forms (execDmTransferComplete c i s) := by
  unfold execDmTransferComplete
  split
  · exact hs
  · extract_lets s1
    have h1 : s1.cellForm := by
      simp only [s1]
      split
      · exact form_of_ite hs (dmStores_form hs)
      · exact hs
    split
    · exact h1
    · split
      · exact dmEnd_form h1
      · exact hs

/-! ### Memory, fabric and host -/

theorem execDramBurstServe_form {s : State} (hs : s.cellForm) (n : StackId) (b : BurstErrs) (ts : List WireTry) :
    Forms (execDramBurstServe n b ts s) := by
  unfold execDramBurstServe
  extract_lets meet
  have hmeet {t : State} (ht : t.cellForm) (d : Nat) : (meet t d).cellForm :=
    form_of_ite ht (cellForm_of_cells (by simp) ht)
  split
  · exact hmeet hs _
  · split
    · exact hs
    · exact serve_form (hmeet (cellForm_of_cells (modStack_cells ..) hs) _)

theorem execRspData_form {s : State} (hs : s.cellForm) (d : FabId) : Forms (execRspData d s) := by
  unfold execRspData
  split
  · exact hs
  · next f s1 hf =>
    have h1 : s1.cellForm := cellForm_of_cells (takeFrame_cells hf) hs
    split
    · exact h1
    · next z _ =>
      have h2 : (s1.modFab d (·.release z)).cellForm := cellForm_of_cells (modFab_cells ..) h1
      dsimp only
      split
      · exact cellForm_of_held (by simp) h2
      · split
        · exact cellForm_of_held (by simp) h2
        · exact cellForm_of_held (by simp) h2
        · exact cellForm_of_held (dmReturned_held ..) (dmArrive_form h2)
        · exact h2

theorem execPutWrite_form {s : State} (hs : s.cellForm) (d : FabId) : Forms (execPutWrite d s) := by
  refine gated_forms hs ?_
  dsimp only
  split
  · exact hs
  · next f s1 hf =>
    have h1 : s1.cellForm := cellForm_of_cells (takeFrame_cells hf) hs
    exact cellForm_of_cells (consumed_cells ..) (remoteWrite_form h1)

theorem execHspPiece_form {s : State} (hs : s.cellForm) (toHost : Bool) : Forms (execHspPiece toHost s) := by
  refine gated_forms hs ?_
  extract_lets src s0 s1
  have h0 : s0.cellForm := hs
  have h1 : s1.cellForm := form_of_ite (foldl_form (fun t p ht => cellForm_of_held (by simp) ht) _ h0) h0
  split
  · exact hs
  · split
    · exact h1
    · next pick _ =>
      extract_lets isSheet s2
      have h2 : s2.cellForm := form_of_ite h1 h1
      split
      · exact cellForm_of_held (by simp) h2
      · exact hspServe_form h2

theorem execHspReadCompletion_form {s : State} (hs : s.cellForm) (ok : Bool) (data : List Byte) :
    Forms (execHspReadCompletion ok data s) := by
  unfold execHspReadCompletion
  split
  · exact hs
  · next r rest _ =>
    have h1 : ({ s with hsp := { s.hsp with reads := rest } } : State).cellForm := hs
    dsimp only
    split
    · exact cellForm_of_held (dmReturned_held ..) (dmArrive_form h1)
    · split
      · exact cellForm_of_held (dmReturned_held ..) (dmArrive_form h1)
      · trivial

/-! ### Resets -/

theorem execContextReset_form {s : State} (hs : s.cellForm) (a : At) : Forms (execContextReset a s) := by
  unfold execContextReset
  split
  · exact hs
  · exact cellForm_of_cells (resetDone_cells ..) (resetContext_form hs)

theorem execEngineReset_form {s : State} (hs : s.cellForm) (c : CellId) (e : BitVec 4) : Forms (execEngineReset c e s) := by
  unfold execEngineReset
  split
  · exact hs
  · exact cellForm_of_cells (resetDone_cells ..) (resetCellEngine_form hs)

theorem execPartitionReset_form {s : State} (hs : s.cellForm) (p : PartId) : Forms (execPartitionReset p s) := by
  unfold execPartitionReset
  split
  · exact hs
  · exact cellForm_of_cells (resetDone_cells ..) (resetPartition_form hs)

theorem execChipReset_form {s : State} (hs : s.cellForm) : Forms (execChipReset s) := by
  unfold execChipReset
  split
  · exact cellForm_of_held (by simp) (coreReset_form s)
  · exact hs

theorem execAuxLoss_form {s : State} (hs : s.cellForm) : Forms (execAuxLoss s) := by
  unfold execAuxLoss
  split
  · exact coldState_form s false
  · exact hs

theorem execColdPowerOn_form {s : State} (hs : s.cellForm) : Forms (execColdPowerOn s) := by
  unfold execColdPowerOn
  split
  · exact hs
  · exact coldState_form s true

/-! ### Registers -/

theorem execRegisterWrite_form {s : State} (hs : s.cellForm) (by_ : Requester) (offset : BitVec 28) (bytes8 : Bool) (v : Word64) :
    Forms (execRegisterWrite by_ offset bytes8 v s) := by
  have hdenied (a : At) (op : Byte) : (s.regDenied a op).cellForm := cellForm_of_held (coreFault_held ..) hs
  unfold execRegisterWrite
  dsimp only
  split
  · next c i =>
    split
    · exact hdenied _ _
    · next a ha =>
      have hput : (a.entry.put (.ctx c i) v s).cellForm := regAccess_keeps ha hs
      refine forms_of_ite ?_ (forms_of_ite (hdenied _ _) (form_of_ite hput ?_))
      · exact cellForm_of_held (coreFault_held ..) hs
      · exact cellForm_of_cells (regIgnored_cells ..) hs
  · exact forms_of_ite (hostWrite_form hs) hs

theorem execRegisterRingJoinFail_form {s : State} (hs : s.cellForm) (x : RingFail) : Forms (execRegisterRingJoinFail x s) := by
  unfold execRegisterRingJoinFail
  extract_lets src t src' u
  have ht : t.cellForm := hs
  split
  · exact ht
  · split
    · exact ht
    · split
      · exact ht
      · split
        · have hu : u.cellForm := ht
          split
          · exact execRegisterWrite_form hu ..
          · exact cellForm_of_held (by simp) hu
        · exact ht

theorem execBar0Access_form {s : State} (hs : s.cellForm) (req : HostReq) (offset : BitVec 28) (len : Nat) (v : Word64) :
    Forms (execBar0Access req offset len v s) := by
  have hcomp (w : Option Word64) : (s.completes w).cellForm := cellForm_of_cells (by simp) hs
  unfold execBar0Access
  dsimp only
  refine forms_of_ite hs ?_
  · split
    · exact form_of_ite (cellForm_of_cells (config_cells ..) hs) hs
    · exact form_of_ite (form_of_ite hs (hcomp none)) (bar0_form hs)
    · exact form_of_ite (form_of_ite hs (hcomp none)) (cellForm_of_held (bar2_held ..) hs)

end Sys2Proof.Machine
end

section
/-!
OBLIGATION O58. Every step keeps each cell in form (R172, R259, R298).
-/
namespace Sys2Proof.Machine

/-- Every command leaves every cell in form. -/
theorem exec_form (i : Instr) {s : State} (hs : s.cellForm) : Forms (exec i s) :=
  match i with
  | .scAdd at_ p f => (execScAdd_keeps at_ p f s).forms hs
  | .scSub at_ p f => (execScSub_keeps at_ p f s).forms hs
  | .scMul at_ p f => (execScMul_keeps at_ p f s).forms hs
  | .scMulhu at_ p f => (execScMulhu_keeps at_ p f s).forms hs
  | .scDiv at_ p f => (execScDiv_keeps at_ p f s).forms hs
  | .scDivu at_ p f => (execScDivu_keeps at_ p f s).forms hs
  | .scRem at_ p f => (execScRem_keeps at_ p f s).forms hs
  | .scRemu at_ p f => (execScRemu_keeps at_ p f s).forms hs
  | .scAnd at_ p f => (execScAnd_keeps at_ p f s).forms hs
  | .scOr at_ p f => (execScOr_keeps at_ p f s).forms hs
  | .scXor at_ p f => (execScXor_keeps at_ p f s).forms hs
  | .scShl at_ p f => (execScShl_keeps at_ p f s).forms hs
  | .scShr at_ p f => (execScShr_keeps at_ p f s).forms hs
  | .scSar at_ p f => (execScSar_keeps at_ p f s).forms hs
  | .scCmp at_ p f => execScCmp_form hs at_ p f
  | .scPop at_ p f => execScPop_form hs at_ p f
  | .scAddi at_ p f => (execScAddi_keeps at_ p f s).forms hs
  | .scAndi at_ p f => (execScAndi_keeps at_ p f s).forms hs
  | .scOri at_ p f => (execScOri_keeps at_ p f s).forms hs
  | .scXori at_ p f => (execScXori_keeps at_ p f s).forms hs
  | .scCmpi at_ p f => execScCmpi_form hs at_ p f
  | .scMovi at_ p f => (execScMovi_keeps at_ p f s).forms hs
  | .scLdhi at_ p f => (execScLdhi_keeps at_ p f s).forms hs
  | .scShi at_ p f => (execScShi_keeps at_ p f s).forms hs
  | .scFadd at_ p f => (execScFadd_keeps at_ p f s).forms hs
  | .scFsub at_ p f => (execScFsub_keeps at_ p f s).forms hs
  | .scFmul at_ p f => (execScFmul_keeps at_ p f s).forms hs
  | .scFfma at_ p f => (execScFfma_keeps at_ p f s).forms hs
  | .scFdiv at_ p f => (execScFdiv_keeps at_ p f s).forms hs
  | .scFsqrt at_ p f => (execScFsqrt_keeps at_ p f s).forms hs
  | .scFrcp at_ p f => (execScFrcp_keeps at_ p f s).forms hs
  | .scFtr at_ p f => (execScFtr_keeps at_ p f s).forms hs
  | .scFcmp at_ p f => execScFcmp_form hs at_ p f
  | .scFcvt at_ p f => (execScFcvt_keeps at_ p f s).forms hs
  | .scLd at_ p f => (execScLd_keeps at_ p f s).forms hs
  | .scSt at_ p f => execScSt_form hs at_ p f
  | .scRdreg at_ p f => (execScRdreg_keeps at_ p f s).forms hs
  | .scWrreg at_ p f => execScWrreg_form hs at_ p f
  | .scTld at_ p f => (execScTld_keeps at_ p f s).forms hs
  | .scTst at_ p f => execScTst_form hs at_ p f
  | .scTset at_ p f => (execScTset_keeps at_ p f s).forms hs
  | .scTbase at_ p f => (execScTbase_keeps at_ p f s).forms hs
  | .scQld at_ p f => (execScQld_keeps at_ p f s).forms hs
  | .scQst at_ p f => execScQst_form hs at_ p f
  | .scQset at_ p f => (execScQset_keeps at_ p f s).forms hs
  | .scQaddr at_ p f => (execScQaddr_keeps at_ p f s).forms hs
  | .scBr at_ p f => (execScBr_keeps at_ p f s).forms hs
  | .scBri at_ p f => (execScBri_keeps at_ p f s).forms hs
  | .scCall at_ p f => (execScCall_keeps at_ p f s).forms hs
  | .scNop at_ p f => (execScNop_keeps at_ p f s).forms hs
  | .scExit at_ p f => execScExit_form hs at_ p f
  | .scTime at_ p f => (execScTime_keeps at_ p f s).forms hs
  | .scId at_ p f => (execScId_keeps at_ p f s).forms hs
  | .faultStopComplete at_ => execFaultStopComplete_form hs at_
  | .mxMma at_ p f => (execMxMma_keeps at_ p f s).forms hs
  | .mxDrain at_ p f => (execMxDrain_keeps at_ p f s).forms hs
  | .mxVsave at_ p f => (execMxVsave_keeps at_ p f s).forms hs
  | .mxVload at_ p f => (execMxVload_keeps at_ p f s).forms hs
  | .mxVfree at_ p f => (execMxVfree_keeps at_ p f s).forms hs
  | .plateIssue c => (execPlateIssue_keeps c s).forms hs
  | .stationaryTileLoaded c => (execStationaryTileLoaded_keeps c s).forms hs
  | .plateRowCycle c => (execPlateRowCycle_keeps c s).forms hs
  | .vatPromotion c => execVatPromotion_form hs c
  | .vatRowTransfer c => execVatRowTransfer_form hs c
  | .vatClearDone c => (execVatClearDone_keeps c s).forms hs
  | .vatApertureAccess by_ c isWrite offset data => execVatApertureAccess_form hs by_ c isWrite offset data
  | .vxAdd at_ p f => (execVxAdd_keeps at_ p f s).forms hs
  | .vxSub at_ p f => (execVxSub_keeps at_ p f s).forms hs
  | .vxMul at_ p f => (execVxMul_keeps at_ p f s).forms hs
  | .vxFma at_ p f => (execVxFma_keeps at_ p f s).forms hs
  | .vxNeg at_ p f => (execVxNeg_keeps at_ p f s).forms hs
  | .vxAbs at_ p f => (execVxAbs_keeps at_ p f s).forms hs
  | .vxMin at_ p f => (execVxMin_keeps at_ p f s).forms hs
  | .vxMax at_ p f => (execVxMax_keeps at_ p f s).forms hs
  | .vxSel at_ p f => (execVxSel_keeps at_ p f s).forms hs
  | .vxCmp at_ p f => (execVxCmp_keeps at_ p f s).forms hs
  | .vxCvt at_ p f => (execVxCvt_keeps at_ p f s).forms hs
  | .vxDiv at_ p f => (execVxDiv_keeps at_ p f s).forms hs
  | .vxSqrt at_ p f => (execVxSqrt_keeps at_ p f s).forms hs
  | .vxRecip at_ p f => (execVxRecip_keeps at_ p f s).forms hs
  | .vxRsqrt at_ p f => (execVxRsqrt_keeps at_ p f s).forms hs
  | .vxExp at_ p f => (execVxExp_keeps at_ p f s).forms hs
  | .vxExp2 at_ p f => (execVxExp2_keeps at_ p f s).forms hs
  | .vxLog at_ p f => (execVxLog_keeps at_ p f s).forms hs
  | .vxLog2 at_ p f => (execVxLog2_keeps at_ p f s).forms hs
  | .vxTanh at_ p f => (execVxTanh_keeps at_ p f s).forms hs
  | .vxSigmoid at_ p f => (execVxSigmoid_keeps at_ p f s).forms hs
  | .vxErf at_ p f => (execVxErf_keeps at_ p f s).forms hs
  | .vxSegred at_ p f => (execVxSegred_keeps at_ p f s).forms hs
  | .vxBcast at_ p f => (execVxBcast_keeps at_ p f s).forms hs
  | .vxGrain at_ p f => (execVxGrain_keeps at_ p f s).forms hs
  | .vxGskip at_ p f => (execVxGskip_keeps at_ p f s).forms hs
  | .vxSumm at_ p f => (execVxSumm_keeps at_ p f s).forms hs
  | .vxCrc64 at_ p f => (execVxCrc64_keeps at_ p f s).forms hs
  | .vxSha256 at_ p f => (execVxSha256_keeps at_ p f s).forms hs
  | .vxOptstep at_ p f => (execVxOptstep_keeps at_ p f s).forms hs
  | .vxRmodeEnter at_ p f => (execVxRmodeEnter_keeps at_ p f s).forms hs
  | .vxRmodeLeave at_ p f => (execVxRmodeLeave_keeps at_ p f s).forms hs
  | .vxAddi at_ p f => (execVxAddi_keeps at_ p f s).forms hs
  | .vxSubi at_ p f => (execVxSubi_keeps at_ p f s).forms hs
  | .vxMuli at_ p f => (execVxMuli_keeps at_ p f s).forms hs
  | .vxFmai at_ p f => (execVxFmai_keeps at_ p f s).forms hs
  | .vxMini at_ p f => (execVxMini_keeps at_ p f s).forms hs
  | .vxMaxi at_ p f => (execVxMaxi_keeps at_ p f s).forms hs
  | .vectorIssue c => execVectorIssue_form hs c
  | .vxBeatRetire c => execVxBeatRetire_form hs c
  | .summaryResult c => (execSummaryResult_keeps c s).forms hs
  | .optstepBlock c => (execOptstepBlock_keeps c s).forms hs
  | .dmGet at_ p f => (execDmGet_keeps at_ p f s).forms hs
  | .dmPut at_ p f => (execDmPut_keeps at_ p f s).forms hs
  | .dmCopy at_ p f => (execDmCopy_keeps at_ p f s).forms hs
  | .moverIssue c => execMoverIssue_form hs c
  | .dmTransferComplete c ix => execDmTransferComplete_form hs c ix
  | .clAg at_ p f => (execClAg_keeps at_ p f s).forms hs
  | .clRs at_ p f => (execClRs_keeps at_ p f s).forms hs
  | .clAr at_ p f => (execClAr_keeps at_ p f s).forms hs
  | .clA2a at_ p f => (execClA2a_keeps at_ p f s).forms hs
  | .clBcast at_ p f => (execClBcast_keeps at_ p f s).forms hs
  | .clBar at_ p f => (execClBar_keeps at_ p f s).forms hs
  | .clUntag at_ p f => (execClUntag_keeps at_ p f s).forms hs
  | .collectiveQueueIssue c => (execCollectiveQueueIssue_keeps c s).forms hs
  | .syInit at_ p f => (execSyInit_keeps at_ p f s).forms hs
  | .sySignal at_ p f => (execSySignal_keeps at_ p f s).forms hs
  | .syWait at_ p f => (execSyWait_keeps at_ p f s).forms hs
  | .syPoll at_ p f => (execSyPoll_keeps at_ p f s).forms hs
  | .syFence at_ p f => (execSyFence_keeps at_ p f s).forms hs
  | .syYield at_ p f => (execSyYield_keeps at_ p f s).forms hs
  | .syRsignal at_ p f => (execSyRsignal_keeps at_ p f s).forms hs
  | .latchSignalArrive c => (execLatchSignalArrive_keeps c s).forms hs
  | .latchWaitReturn at_ => (execLatchWaitReturn_keeps at_ s).forms hs
  | .stOpen at_ p f => (execStOpen_keeps at_ p f s).forms hs
  | .stOpenRelease c => (execStOpenRelease_keeps c s).forms hs
  | .stStop at_ p f => (execStStop_keeps at_ p f s).forms hs
  | .stopBarrierComplete p => (execStopBarrierComplete_keeps p s).forms hs
  | .stFix at_ p f => (execStFix_keeps at_ p f s).forms hs
  | .fixBarrierComplete p => (execFixBarrierComplete_keeps p s).forms hs
  | .fixCommitAdvance p => (execFixCommitAdvance_keeps p s).forms hs
  | .stepBoundary p => (execStepBoundary_keeps p s).forms hs
  | .stSeed at_ p f => (execStSeed_keeps at_ p f s).forms hs
  | .trMark at_ p f => (execTrMark_keeps at_ p f s).forms hs
  | .trVal at_ p f => (execTrVal_keeps at_ p f s).forms hs
  | .trCtr at_ p f => (execTrCtr_keeps at_ p f s).forms hs
  | .traceRecordWrite c => (execTraceRecordWrite_keeps c s).forms hs
  | .verdictArrival p tag reduced => (execVerdictArrival_keeps p tag reduced s).forms hs
  | .verdictTimeout p => (execVerdictTimeout_keeps p s).forms hs
  | .twinAckTimeout p => (execTwinAckTimeout_keeps p s).forms hs
  | .ctxStart by_ c ix v => execCtxStart_form hs by_ c ix v
  | .contextSwitch c => execContextSwitch_form hs c
  | .contextWake c ix => (execContextWake_keeps c ix s).forms hs
  | .contextRunStart c => (execContextRunStart_keeps c s).forms hs
  | .graceExpiry c => (execGraceExpiry_keeps c s).forms hs
  | .partApply by_ => (execPartApply_keeps by_ s).forms hs
  | .slotCfgWrite by_ c v => (execSlotCfgWrite_keeps by_ c v s).forms hs
  | .isaCtlWrite by_ c ix v => (execIsaCtlWrite_keeps by_ c ix v s).forms hs
  | .plateCfgWrite by_ c v => (execPlateCfgWrite_keeps by_ c v s).forms hs
  | .plateDbgEnWrite by_ c v => (execPlateDbgEnWrite_keeps by_ c v s).forms hs
  | .grainLaneBaseWrite by_ c ix v => (execGrainLaneBaseWrite_keeps by_ c ix v s).forms hs
  | .ctxCtlWrite by_ c ix wakeTime v => (execCtxCtlWrite_keeps by_ c ix wakeTime v s).forms hs
  | .stepRegWrite by_ p r v => (execStepRegWrite_keeps by_ p r v s).forms hs
  | .cfgApply by_ p => (execCfgApply_keeps by_ p s).forms hs
  | .registerWrite by_ offset bytes8 v => execRegisterWrite_form hs by_ offset bytes8 v
  | .bar0Access req offset len v => execBar0Access_form hs req offset len v
  | .dramBurstServe n b tries => execDramBurstServe_form hs n b tries
  | .eccWriteback n ch => (execEccWriteback_keeps n ch s).forms hs
  | .regulatorTick => (execRegulatorTick_keeps s).forms hs
  | .patrolScrub n ch flips tries => (execPatrolScrub_keeps n ch flips tries s).forms hs
  | .eccWindowEnd n ch => (execEccWindowEnd_keeps n ch s).forms hs
  | .stackTempReading n sensors => (execStackTempReading_keeps n sensors s).forms hs
  | .stackConnectionFail n w => (execStackConnectionFail_keeps n w s).forms hs
  | .mapoutReqWrite by_ n v => (execMapoutReqWrite_keeps by_ n v s).forms hs
  | .pageMark by_ v => (execPageMark_keeps by_ v s).forms hs
  | .pageUnmark by_ v => (execPageUnmark_keeps by_ v s).forms hs
  | .pageCmdDone => (execPageCmdDone_keeps s).forms hs
  | .memBringupWrite by_ v => (execMemBringupWrite_keeps by_ v s).forms hs
  | .memMarginWrite by_ n v => (execMemMarginWrite_keeps by_ n v s).forms hs
  | .stPatGo by_ v => (execStPatGo_keeps by_ v s).forms hs
  | .stPatDone => (execStPatDone_keeps s).forms hs
  | .xdBeatReceive j dir beat => (execXdBeatReceive_keeps j dir beat s).forms hs
  | .xdErrorWindow j dir => (execXdErrorWindow_keeps j dir s).forms hs
  | .xdClockLoss j dir group alternate => (execXdClockLoss_keeps j dir group alternate s).forms hs
  | .xdSteer j dir group wire swt => (execXdSteer_keeps j dir group wire swt s).forms hs
  | .xdHalf j dir half swt => (execXdHalf_keeps j dir half swt s).forms hs
  | .xdDisable j swt => (execXdDisable_keeps j swt s).forms hs
  | .xdSwitch j dir => (execXdSwitch_keeps j dir s).forms hs
  | .xdForceWrite by_ j v => (execXdForceWrite_keeps by_ j v s).forms hs
  | .frameReceive k f => (execFrameReceive_keeps k f s).forms hs
  | .linkReplay r => (execLinkReplay_keeps r s).forms hs
  | .laneErrorWindow k errors => (execLaneErrorWindow_keeps k errors s).forms hs
  | .routerSlot d => (execRouterSlot_keeps d s).forms hs
  | .frameInject d => (execFrameInject_keeps d s).forms hs
  | .starveHoldoffEnd d => (execStarveHoldoffEnd_keeps d s).forms hs
  | .streamDeliver d ix => (execStreamDeliver_keeps d ix s).forms hs
  | .robGap d ix => (execRobGap_keeps d ix s).forms hs
  | .reqRead d => (execReqRead_keeps d s).forms hs
  | .rspData d => execRspData_form hs d
  | .rspCredit d => (execRspCredit_keeps d s).forms hs
  | .putWrite d => execPutWrite_form hs d
  | .deadEndReturn d => (execDeadEndReturn_keeps d s).forms hs
  | .sourceSlotTimeout d ix => (execSourceSlotTimeout_keeps d ix s).forms hs
  | .creditFlush d => (execCreditFlush_keeps d s).forms hs
  | .mntMreq => (execMntMreq_keeps s).forms hs
  | .mntMrsp => (execMntMrsp_keeps s).forms hs
  | .mntMpost => (execMntMpost_keeps s).forms hs
  | .grantWrite by_ d tx ix v => (execGrantWrite_keeps by_ d tx ix v s).forms hs
  | .fabricCfgWrite by_ r v => (execFabricCfgWrite_keeps by_ r v s).forms hs
  | .routeSlotWrite by_ ix target w => (execRouteSlotWrite_keeps by_ ix target w s).forms hs
  | .routeSeal by_ ix => (execRouteSeal_keeps by_ ix s).forms hs
  | .routeRetire by_ ix => (execRouteRetire_keeps by_ ix s).forms hs
  | .routeApply by_ ix => (execRouteApply_keeps by_ ix s).forms hs
  | .routeDrainTimer ix => (execRouteDrainTimer_keeps ix s).forms hs
  | .darkslideClose => (execDarkslideClose_keeps s).forms hs
  | .darkslideForward k f => (execDarkslideForward_keeps k f s).forms hs
  | .darkslideOpen pair => (execDarkslideOpen_keeps pair s).forms hs
  | .bypassFail island => (execBypassFail_keeps island s).forms hs
  | .portTrainStage k partner => (execPortTrainStage_keeps k partner s).forms hs
  | .timeWord k t1 t2 t3 t4 depth partnerLocked => (execTimeWord_keeps k t1 t2 t3 t4 depth partnerLocked s).forms hs
  | .timeWordInsert k => (execTimeWordInsert_keeps k s).forms hs
  | .timeSlew => (execTimeSlew_keeps s).forms hs
  | .timeParentSelect => (execTimeParentSelect_keeps s).forms hs
  | .collArm by_ ix => (execCollArm_keeps by_ ix s).forms hs
  | .collDisarm by_ ix => (execCollDisarm_keeps by_ ix s).forms hs
  | .collArrival d => (execCollArrival_keeps d s).forms hs
  | .collReady d => (execCollReady_keeps d s).forms hs
  | .collDataFrame d => (execCollDataFrame_keeps d s).forms hs
  | .collTagFrame d => (execCollTagFrame_keeps d s).forms hs
  | .collArriveRecord => (execCollArriveRecord_keeps s).forms hs
  | .collInstanceEnd ix => (execCollInstanceEnd_keeps ix s).forms hs
  | .sideRecordSend p => (execSideRecordSend_keeps p s).forms hs
  | .sideRecordReceive => (execSideRecordReceive_keeps s).forms hs
  | .tableBuildComplete p => (execTableBuildComplete_keeps p s).forms hs
  | .xlegRecord => (execXlegRecord_keeps s).forms hs
  | .collProgressTimeout ix => (execCollProgressTimeout_keeps ix s).forms hs
  | .colldTagOutClear by_ ix => (execColldTagOutClear_keeps by_ ix s).forms hs
  | .twinArm by_ p => (execTwinArm_keeps by_ p s).forms hs
  | .twinRestart by_ p => (execTwinRestart_keeps by_ p s).forms hs
  | .twinRefix by_ p => (execTwinRefix_keeps by_ p s).forms hs
  | .hello p => (execHello_keeps p s).forms hs
  | .pageAck p => (execPageAck_keeps p s).forms hs
  | .resend p => (execResend_keeps p s).forms hs
  | .manifest p => (execManifest_keeps p s).forms hs
  | .negDone p => (execNegDone_keeps p s).forms hs
  | .bodyAck p => (execBodyAck_keeps p s).forms hs
  | .seal p => (execSeal_keeps p s).forms hs
  | .sealAck p => (execSealAck_keeps p s).forms hs
  | .probe p => (execProbe_keeps p s).forms hs
  | .probeTimer p => (execProbeTimer_keeps p s).forms hs
  | .twinPageSend p => (execTwinPageSend_keeps p s).forms hs
  | .twinClaim p => (execTwinClaim_keeps p s).forms hs
  | .firstTouchCopy p slot => (execFirstTouchCopy_keeps p slot s).forms hs
  | .restorePages by_ p sel => (execRestorePages_keeps by_ p sel s).forms hs
  | .restoreRecord by_ p sel => (execRestoreRecord_keeps by_ p sel s).forms hs
  | .restoreTables by_ p => (execRestoreTables_keeps by_ p s).forms hs
  | .restoreDone p data => (execRestoreDone_keeps p data s).forms hs
  | .sheetArm by_ p => (execSheetArm_keeps by_ p s).forms hs
  | .sheetCancel by_ p => (execSheetCancel_keeps by_ p s).forms hs
  | .hspPiece toHost => execHspPiece_form hs toHost
  | .hspReadCompletion ok data => execHspReadCompletion_form hs ok data
  | .hostRegionWrite by_ ix cfg v => (execHostRegionWrite_keeps by_ ix cfg v s).forms hs
  | .doorbell ix v => (execDoorbell_keeps ix v s).forms hs
  | .doorbellCfgWrite by_ ix v => (execDoorbellCfgWrite_keeps by_ ix v s).forms hs
  | .mboxGo request => (execMboxGo_keeps request s).forms hs
  | .mboxTake => (execMboxTake_keeps s).forms hs
  | .getInfo => (execGetInfo_keeps s).forms hs
  | .logRead => (execLogRead_keeps s).forms hs
  | .fruRead => (execFruRead_keeps s).forms hs
  | .fruWrite => (execFruWrite_keeps s).forms hs
  | .fwWrite => (execFwWrite_keeps s).forms hs
  | .fwActivate => (execFwActivate_keeps s).forms hs
  | .anchorSet => (execAnchorSet_keeps s).forms hs
  | .getNonce => (execGetNonce_keeps s).forms hs
  | .debugUnlock => (execDebugUnlock_keeps s).forms hs
  | .debugLock => (execDebugLock_keeps s).forms hs
  | .debugUnlockEnd => (execDebugUnlockEnd_keeps s).forms hs
  | .mboxReply => (execMboxReply_keeps s).forms hs
  | .errorRecordDeliver => (execErrorRecordDeliver_keeps s).forms hs
  | .hcpNotify by_ p => (execHcpNotify_keeps by_ p s).forms hs
  | .pciePortReset hsp => (execPciePortReset_keeps hsp s).forms hs
  | .functionLevelReset hsp => (execFunctionLevelReset_keeps hsp s).forms hs
  | .spdmGetVersion req => (execSpdmGetVersion_keeps req s).forms hs
  | .spdmGetCapabilities req => (execSpdmGetCapabilities_keeps req s).forms hs
  | .spdmNegotiateAlgorithms req => (execSpdmNegotiateAlgorithms_keeps req s).forms hs
  | .spdmGetDigests req => (execSpdmGetDigests_keeps req s).forms hs
  | .spdmGetCertificate req => (execSpdmGetCertificate_keeps req s).forms hs
  | .spdmChallenge req => (execSpdmChallenge_keeps req s).forms hs
  | .spdmGetMeasurements req => (execSpdmGetMeasurements_keeps req s).forms hs
  | .tsbRead word => (execTsbRead_keeps word s).forms hs
  | .tsbWrite word v => (execTsbWrite_keeps word v s).forms hs
  | .emergWWrite v => (execEmergWWrite_keeps v s).forms hs
  | .tsbShadowRefresh => (execTsbShadowRefresh_keeps s).forms hs
  | .smbusOffsetWrite w data => (execSmbusOffsetWrite_keeps w data s).forms hs
  | .smbusRead r => (execSmbusRead_keeps r s).forms hs
  | .fruStoreCommit => (execFruStoreCommit_keeps s).forms hs
  | .mgmtHeartbeatMiss => (execMgmtHeartbeatMiss_keeps s).forms hs
  | .mgmtRestart => (execMgmtRestart_keeps s).forms hs
  | .coldPowerOn => execColdPowerOn_form hs
  | .startupPhaseEnd => (execStartupPhaseEnd_keeps s).forms hs
  | .stackTrained n temp => (execStackTrained_keeps n temp s).forms hs
  | .input12vFault => (execInput12vFault_keeps s).forms hs
  | .auxLoss => execAuxLoss_form hs
  | .watchdogSample => (execWatchdogSample_keeps s).forms hs
  | .waitLimit at_ => (execWaitLimit_keeps at_ s).forms hs
  | .stopHoldExpiry at_ => (execStopHoldExpiry_keeps at_ s).forms hs
  | .abortHoldExpiry p => (execAbortHoldExpiry_keeps p s).forms hs
  | .resetCmdContext by_ at_ => (execResetCmdContext_keeps by_ at_ s).forms hs
  | .resetCmdEngine by_ c e => (execResetCmdEngine_keeps by_ c e s).forms hs
  | .resetCmdPartition by_ p => (execResetCmdPartition_keeps by_ p s).forms hs
  | .resetCmdChip by_ => (execResetCmdChip_keeps by_ s).forms hs
  | .resetCmdPowerCycle by_ => (execResetCmdPowerCycle_keeps by_ s).forms hs
  | .contextReset at_ => execContextReset_form hs at_
  | .engineReset c e => execEngineReset_form hs c e
  | .partitionReset p => execPartitionReset_form hs p
  | .chipReset => execChipReset_form hs
  | .chipResetPhaseEnd => (execChipResetPhaseEnd_keeps s).forms hs
  | .powerCycleReq => (execPowerCycleReq_keeps s).forms hs
  | .resetDone ix => (execResetDone_keeps ix s).forms hs
  | .resetEscalation ix => (execResetEscalation_keeps ix s).forms hs
  | .meterActivityReport d => (execMeterActivityReport_keeps d s).forms hs
  | .meterCalibration inputMv railMa => (execMeterCalibration_keeps inputMv railMa s).forms hs
  | .meterSignatureWindow => (execMeterSignatureWindow_keeps s).forms hs
  | .capLoop inputMv => (execCapLoop_keeps inputMv s).forms hs
  | .pointChangeDone d => (execPointChangeDone_keeps d s).forms hs
  | .pwrApply by_ => (execPwrApply_keeps by_ s).forms hs
  | .pwrEmergWrite by_ v => (execPwrEmergWrite_keeps by_ v s).forms hs
  | .droopDetect d mv => (execDroopDetect_keeps d mv s).forms hs
  | .droopRelease d => (execDroopRelease_keeps d s).forms hs
  | .junctionReading d tempC8 => (execJunctionReading_keeps d tempC8 s).forms hs
  | .ageingReading d slackPs => (execAgeingReading_keeps d slackPs s).forms hs
  | .ageingReplan d => (execAgeingReplan_keeps d s).forms hs
  | .ageCfgWrite by_ v => (execAgeCfgWrite_keeps by_ v s).forms hs
  | .selftestSliceStart item => (execSelftestSliceStart_keeps item s).forms hs
  | .selftestSliceEnd d errors eye => (execSelftestSliceEnd_keeps d errors eye s).forms hs
  | .selftestRotation item => (execSelftestRotation_keeps item s).forms hs
  | .selftestPassEnd k => (execSelftestPassEnd_keeps k s).forms hs
  | .pinCheck r row col => (execPinCheck_keeps r row col s).forms hs
  | .slCtlWrite by_ v => (execSlCtlWrite_keeps by_ v s).forms hs
  | .tapIdcode => (execTapIdcode_keeps s).forms hs
  | .tapSamplePreload data => (execTapSamplePreload_keeps data s).forms hs
  | .tapExtest => (execTapExtest_keeps s).forms hs
  | .tapClamp => (execTapClamp_keeps s).forms hs
  | .tapHighz => (execTapHighz_keeps s).forms hs
  | .tapIjtag => (execTapIjtag_keeps s).forms hs
  | .tapBypass => (execTapBypass_keeps s).forms hs
  | .tapReset => (execTapReset_keeps s).forms hs
  | .illegalOpcode at_ word => (execIllegalOpcode_keeps at_ word s).forms hs
  | .laneLockLoss k => (execLaneLockLoss_keeps k s).forms hs
  | .pcieLinkUp hsp => (execPcieLinkUp_keeps hsp s).forms hs
  | .helloTimeout p => (execHelloTimeout_keeps p s).forms hs
  | .bypassSelfTestPass => (execBypassSelfTestPass_keeps s).forms hs
  | .registerRingJoinFail x => execRegisterRingJoinFail_form hs x

/-- Settles O58: a step is a tick or a command, the tick leaves what the cells hold, and every command leaves them in
form. -/
theorem cellsKeepForm : Obligations.CellsKeepForm := by
  intro s t hs h
  cases hq : s.pending with
  | nil =>
    rw [step_nil hq] at h
    obtain rfl : idleTick s = t := Host.Outcome.next.inj h
    exact cellForm_of_held (idleTick_held s) hs
  | cons c rest =>
    have hs' : ({ s with pending := rest } : State).cellForm := hs
    have hf : Forms (step s) := by
      simp only [step, hq]
      exact exec_form c hs'
    rwa [h] at hf

end Sys2Proof.Machine
end

section
/-!
SUPPORT. What a write leaves of a protected memory, read byte by byte, and reads over a range.
-/
namespace Sys2Proof.Machine

/-! ### Bytes of words -/

/-- A byte of the number that a byte list spells. -/
theorem ofLe_byte : ∀ (l : List Byte) (i : Nat), ofLe l / 256 ^ i % 256 = (l.getD i 0).toNat
  | [], i => by simp [ofLe]
  | b :: l, 0 => by
    have := b.isLt
    simp only [ofLe, Nat.pow_zero, Nat.div_one, List.getD_cons_zero]
    omega
  | b :: l, i + 1 => by
    have h : (b.toNat + 256 * ofLe l) / 256 = ofLe l := by have := b.isLt; omega
    rw [ofLe, Nat.pow_succ', ← Nat.div_div_eq_div_mul, h, ofLe_byte l i, List.getD_cons_succ]

/-- A byte of the bytes of a number. -/
theorem leBytes_getD : ∀ (n v i : Nat), i < n → (leBytes n v).getD i 0 = BitVec.ofNat 8 (v / 256 ^ i)
  | n + 1, v, 0, _ => by simp [leBytes]
  | n + 1, v, i + 1, h => by
    rw [leBytes, List.getD_cons_succ, leBytes_getD n _ i (by omega), Nat.div_div_eq_div_mul, Nat.pow_succ']

/-- A byte of a 32-bit word. -/
theorem bfld_byte (w : Word32) (i : Nat) : bfld w (8 * i) 8 = BitVec.ofNat 8 (w.toNat / 256 ^ i) := by
  apply BitVec.eq_of_toNat_eq
  rw [bfld_toNat, fld, Nat.shiftRight_eq_div_pow, BitVec.toNat_ofNat, Nat.pow_mul]

/-! ### Removed entries -/

/-- Entries removed at other keys do not show. -/
theorem Sparse.get_filter {β : Type} [DecidableEq β] {d : β} {p : Nat × β → Bool} {k : Nat}
    (hp : ∀ v, p (k, v) = true) : ∀ {m : Sparse β} {lo : Nat}, Sparse.wfFrom d lo m →
      Sparse.get d (m.filter p) k = Sparse.get d m k
  | [], _, _ => rfl
  | (a, v) :: rest, lo, h => by
    simp only [Sparse.wfFrom, Bool.and_eq_true] at h
    have ih := Sparse.get_filter hp h.2
    by_cases hk : k = a
    · subst hk
      simp [hp, Sparse.get]
    · by_cases hpe : p (a, v) = true
      · simp only [List.filter_cons, hpe, if_true, Sparse.get, ih]
      · rw [List.filter_cons_of_neg hpe, ih, Sparse.get, if_neg hk]
        split
        · exact Sparse.get_lt h.2 (by omega)
        · rfl

namespace ProtMem

/-! ### Bytes delivered -/

theorem rawBytes_getD (m : ProtMem) : ∀ (n a i : Nat), i < n → (m.rawBytes a n).getD i 0 = m.byte (a + i)
  | n + 1, a, 0, _ => by simp [rawBytes]
  | n + 1, a, i + 1, h => by
    rw [rawBytes, List.getD_cons_succ, rawBytes_getD m n _ i (by omega), Nat.add_assoc, Nat.add_comm 1]

/-- A byte of the data word of its address. -/
theorem bfld_dataWord (m : ProtMem) (b : Nat) : bfld (m.dataWord (b / 4)) (8 * (b % 4)) 8 = m.byte b := by
  have hlt : ofLe (m.rawBytes (4 * (b / 4)) 4) < 2 ^ 32 := by
    simp only [rawBytes, ofLe]
    omega
  rw [bfld_byte, dataWord, BitVec.toNat_ofNat, Nat.mod_eq_of_lt hlt]
  apply BitVec.eq_of_toNat_eq
  rw [BitVec.toNat_ofNat, ofLe_byte, rawBytes_getD _ _ _ _ (by omega), Nat.div_add_mod]

/-- Word w needs no correction: it is a code word or a poison mark. -/
def Merged (m : ProtMem) (w : Nat) : Prop := m.diff w = 0 ∨ m.diff w = poisonDiff

/-- A poison mark delivers the data it marks. -/
theorem readWord_of_mark {m : ProtMem} {w : Nat} (h : m.diff w = poisonDiff) : (m.readWord w).1 = m.dataWord w := by
  have hmark : classify (syndrome (eccCode (m.dataWord w) ^^^ poisonDiff)) = .mark := by
    rw [syndrome_xor, syndrome_eccCode, syndrome_poisonDiff]; rfl
  have hdata : bfld (eccCode (m.dataWord w) ^^^ poisonDiff) 0 32 = m.dataWord w := by
    apply BitVec.eq_of_getLsbD_eq
    intro i hi
    have hdiff : poisonDiff.getLsbD i = false := by
      have : ∀ j < 32, poisonDiff.getLsbD j = false := by decide
      exact this i hi
    simp only [bfld, eccCode, BitVec.getLsbD_extractLsb', BitVec.getLsbD_xor, BitVec.getLsbD_append, Nat.zero_add, hi,
      hdiff, decide_true, Bool.true_and, Bool.xor_false, if_true]
  rw [readWord, if_neg (by rw [h]; decide), h, eccDecode, hmark]
  exact hdata

/-- Such a word delivers the bytes it holds. -/
theorem readByte_of_merged {m : ProtMem} {b : Nat} (h : m.Merged (b / 4)) : m.readByte b = m.byte b := by
  rcases h with h | h
  · exact if_pos h
  · rw [readByte, if_neg (by rw [h]; decide), readWord_of_mark h, bfld_dataWord]

/-- A byte delivered depends on the difference and the bytes of its word. -/
theorem readByte_congr {m m' : ProtMem} {b : Nat} (hdiff : m'.diff (b / 4) = m.diff (b / 4))
    (hbyte : ∀ j, j / 4 = b / 4 → m'.byte j = m.byte j) : m'.readByte b = m.readByte b := by
  have hdata : m'.dataWord (b / 4) = m.dataWord (b / 4) := by
    simp only [dataWord, rawBytes]
    rw [hbyte _ (by omega), hbyte _ (by omega), hbyte _ (by omega), hbyte _ (by omega)]
  simp only [readByte, readWord, hdiff, hdata, hbyte b rfl]

/-! ### Words written in part (R301) -/

theorem diff_mergeWord_ne {m : ProtMem} (h : m.wf) {w v : Nat} (hv : v ≠ w) : (m.mergeWord w).diff v = m.diff v := by
  unfold mergeWord
  split
  · rfl
  · rw [setDiff, diff, Sparse.get_set ((wf_iff _).mp (putBytes_wf h _ _)).2, if_neg hv]
    exact diff_putBytes ..

theorem mergeWord_merged {m : ProtMem} (h : m.wf) (w : Nat) : (m.mergeWord w).Merged w := by
  unfold mergeWord
  split
  · next h0 => exact .inl h0
  · rw [Merged, setDiff, diff, Sparse.get_set ((wf_iff _).mp (putBytes_wf h _ _)).2, if_pos rfl]
    split
    · exact .inr rfl
    · exact .inl rfl

theorem Merged.mergeWord {m : ProtMem} (h : m.wf) {v : Nat} (hv : m.Merged v) (w : Nat) : (m.mergeWord w).Merged v := by
  by_cases e : v = w
  · exact e ▸ mergeWord_merged h w
  · rwa [Merged, diff_mergeWord_ne h e]

/-- The merge stores the bytes that a read of the word delivers. -/
theorem byte_mergeWord {m : ProtMem} (h : m.wf) (w b : Nat) :
    (m.mergeWord w).byte b = if b / 4 = w then m.readByte b else m.byte b := by
  unfold ProtMem.mergeWord
  split
  · next h0 =>
    split
    · next e => exact (readByte_of_merged (.inl (e ▸ h0))).symm
    · rfl
  · next h0 =>
    refine (byte_putBytes h (4 * w) _ b).trans ?_
    rw [length_leBytes]
    by_cases e : b / 4 = w
    · rw [if_pos (by omega), if_pos e, leBytes_getD _ _ _ (by omega), readByte, e, if_neg h0, bfld_byte,
        show b - 4 * w = b % 4 by omega]
    · rw [if_neg (by omega), if_neg e]

theorem readByte_mergeWord {m : ProtMem} (h : m.wf) (w b : Nat) : (m.mergeWord w).readByte b = m.readByte b := by
  by_cases e : b / 4 = w
  · rw [readByte_of_merged (e ▸ mergeWord_merged h w), byte_mergeWord h, if_pos e]
  · refine readByte_congr (diff_mergeWord_ne h e) fun j hj => ?_
    rw [byte_mergeWord h, if_neg (hj ▸ e)]

/-- The words at the ends of a write of n bytes that are written in part, merged. -/
def mergeEnds (m : ProtMem) (a n : Nat) : ProtMem :=
  let m1 := if a % 4 = 0 then m else m.mergeWord (a / 4)
  if (a + n) % 4 = 0 then m1 else m1.mergeWord ((a + n) / 4)

theorem write_eq (m : ProtMem) (a : Nat) (bs : List Byte) : m.write a bs =
    ((m.mergeEnds a bs.length).clearDiffs ((a + 3) / 4) ((a + bs.length) / 4 - (a + 3) / 4)).putBytes a bs := rfl

theorem mergeEnds_wf {m : ProtMem} (h : m.wf) (a n : Nat) : (m.mergeEnds a n).wf := by
  unfold mergeEnds
  dsimp only
  split <;> split
  · exact h
  · exact mergeWord_wf h _
  · exact mergeWord_wf h _
  · exact mergeWord_wf (mergeWord_wf h _) _

theorem readByte_mergeEnds {m : ProtMem} (h : m.wf) (a n b : Nat) : (m.mergeEnds a n).readByte b = m.readByte b := by
  unfold mergeEnds
  dsimp only
  split <;> split
  · rfl
  · exact readByte_mergeWord h _ _
  · exact readByte_mergeWord h _ _
  · exact (readByte_mergeWord (mergeWord_wf h _) _ _).trans (readByte_mergeWord h _ _)

/-- A word written in part is merged. -/
theorem mergeEnds_merged {m : ProtMem} (h : m.wf) {a n w : Nat}
    (hw : (a % 4 ≠ 0 ∧ w = a / 4) ∨ ((a + n) % 4 ≠ 0 ∧ w = (a + n) / 4)) : (m.mergeEnds a n).Merged w := by
  unfold mergeEnds
  dsimp only
  rcases hw with ⟨ha, rfl⟩ | ⟨hn, rfl⟩
  · rw [if_neg ha]
    split
    · exact mergeWord_merged h _
    · exact (mergeWord_merged h _).mergeWord (mergeWord_wf h _) _
  · rw [if_neg hn]
    refine mergeWord_merged ?_ _
    split
    · exact h
    · exact mergeWord_wf h _

/-! ### Bytes delivered after a write -/

theorem diff_clearDiffs_ne {m : ProtMem} (h : m.wf) {w n v : Nat} (hv : ¬ (w ≤ v ∧ v < w + n)) :
    (m.clearDiffs w n).diff v = m.diff v :=
  Sparse.get_filter (by intro x; simp only [Bool.not_eq_true', Bool.and_eq_false_iff, decide_eq_false_iff_not]; omega)
    ((wf_iff m).mp h).2

/-- The byte held after a write. -/
theorem byte_write {m : ProtMem} (h : m.wf) (a : Nat) (bs : List Byte) (b : Nat) : (m.write a bs).byte b =
    if a ≤ b ∧ b < a + bs.length then bs.getD (b - a) 0 else (m.mergeEnds a bs.length).byte b := by
  rw [write_eq, byte_putBytes (clearDiffs_wf (mergeEnds_wf h ..) ..)]
  rfl

/-- The difference of a word after a write: none where the whole word was written. -/
theorem diff_write {m : ProtMem} (h : m.wf) (a : Nat) (bs : List Byte) (v : Nat) : (m.write a bs).diff v =
    if (a + 3) / 4 ≤ v ∧ v < (a + bs.length) / 4 then 0 else (m.mergeEnds a bs.length).diff v := by
  rw [write_eq, diff_putBytes]
  split
  · exact diff_clearDiffs (by omega)
  · exact diff_clearDiffs_ne (mergeEnds_wf h ..) (by omega)

/-- A write leaves its bytes over its range, and every other byte as it was delivered before. -/
theorem readByte_write {m : ProtMem} (h : m.wf) (a : Nat) (bs : List Byte) (b : Nat) :
    (m.write a bs).readByte b = if a ≤ b ∧ b < a + bs.length then bs.getD (b - a) 0 else m.readByte b := by
  have merged : ((a % 4 ≠ 0 ∧ b / 4 = a / 4) ∨ ((a + bs.length) % 4 ≠ 0 ∧ b / 4 = (a + bs.length) / 4)) →
      (m.write a bs).readByte b = (m.write a bs).byte b := fun hw => by
    have hm := mergeEnds_merged h hw
    refine readByte_of_merged ?_
    rw [Merged, diff_write h]
    split
    · exact .inl rfl
    · exact hm
  by_cases hr : a ≤ b ∧ b < a + bs.length
  · rw [if_pos hr]
    refine Eq.trans ?_ ((byte_write h a bs b).trans (if_pos hr))
    by_cases hfull : (a + 3) / 4 ≤ b / 4 ∧ b / 4 < (a + bs.length) / 4
    · exact readByte_of_merged (.inl ((diff_write h ..).trans (if_pos hfull)))
    · exact merged (by omega)
  · rw [if_neg hr, ← readByte_mergeEnds h a bs.length b]
    by_cases hpart : (a % 4 ≠ 0 ∧ b / 4 = a / 4) ∨ ((a + bs.length) % 4 ≠ 0 ∧ b / 4 = (a + bs.length) / 4)
    · rw [merged hpart, byte_write h, if_neg hr, readByte_of_merged (mergeEnds_merged h hpart)]
    · refine readByte_congr ((diff_write h ..).trans (if_neg (by omega))) fun j hj => ?_
      rw [byte_write h, if_neg (by omega)]

/-! ### Reads over a range -/

@[simp] theorem length_read (m : ProtMem) : ∀ a n : Nat, (m.read a n).length = n
  | _, 0 => rfl
  | a, n + 1 => congrArg (· + 1) (length_read m (a + 1) n)

theorem read_getD (m : ProtMem) : ∀ (n a i : Nat), i < n → (m.read a n).getD i 0 = m.readByte (a + i)
  | n + 1, a, 0, _ => by simp [read]
  | n + 1, a, i + 1, h => by
    rw [read, List.getD_cons_succ, read_getD m n _ i (by omega), Nat.add_assoc, Nat.add_comm 1]

/-- A range free of poison has no poisoned part. -/
theorem anyPoison_mono {m : ProtMem} {a n b k : Nat} (h : m.anyPoison a n = false) (hb : a ≤ b) (hk : b + k ≤ a + n) :
    m.anyPoison b k = false := by
  simp only [anyPoison, poisonIn, marked, Bool.not_eq_false', List.isEmpty_iff, List.map_eq_nil_iff,
    List.filter_filter, List.filter_eq_nil_iff, Bool.and_eq_true, decide_eq_true_eq] at h ⊢
  exact fun p hp ⟨hbad, hlo, hhi⟩ => h p hp ⟨hbad, by omega, by omega⟩

end ProtMem
end Sys2Proof.Machine
end

section
/-!
SUPPORT. Crossings with no beat in wait, the entries of the mover, and the sides of a transfer.
-/
namespace Sys2Proof.Machine

/-! ### Crossings (R326) -/

theorem vset_vget_eq {α : Type} {n : Nat} {v : Vector α n} {i : Fin n} {x : α} (h : x = vget v i) : vset v i x = v := by
  rw [h, vset_vget_self]

/-- Taking a beat where none waits changes nothing. -/
theorem takeBeat_of_empty {s : State} {j : JoinId} {d : Fin 2} {c : Fin 3} (h : vget ((s.xd j).dir d).passed c = []) :
    s.modXdDir j d (fun x => { x with passed := vmod x.passed c (·.drop 1) }) = s := by
  have hpassed : vmod ((s.xd j).dir d).passed c (·.drop 1) = ((s.xd j).dir d).passed := vset_vget_eq (by rw [h]; rfl)
  have hdir : vmod (s.xd j).dirs d (fun x => { x with passed := vmod x.passed c (·.drop 1) }) = (s.xd j).dirs :=
    vset_vget_eq (congrArg (fun l => { (s.xd j).dir d with passed := l }) hpassed)
  have hxd : vmod s.xds j (fun x => { x with
      dirs := vmod x.dirs d (fun x => { x with passed := vmod x.passed c (·.drop 1) }) }) = s.xds :=
    vset_vget_eq (congrArg (fun v => { s.xd j with dirs := v }) hdir)
  exact congrArg (fun v => { s with xds := v }) hxd

theorem carry_of_beatsTaken {s : State} (h : s.beatsTaken) (c : Fin 3) : ∀ (l : List JoinId) (a : DieId),
    State.carry c a l s = ([], s)
  | [], _ => rfl
  | j :: rest, a => by
    rw [State.carry]
    simp only [h]
    split
    · rw [takeBeat_of_empty (h ..), carry_of_beatsTaken h c rest]
    · rfl

/-- Where no beat waits, what goes between two dies takes none. -/
theorem carryTo_of_beatsTaken {s : State} (h : s.beatsTaken) (c : Fin 3) (a b : DieId) (k : Nat) :
    s.carryTo c a b k = ([], s) := by
  unfold State.carryTo
  split
  · exact carry_of_beatsTaken h c _ a
  · rfl

/-- Where every crossing carries traffic, a transfer between cell stores passes. -/
theorem storesOpen_of_crosses {s : State} (h : s.crosses) (c : CellId) (m : DmInstr) : s.storesOpen c m = true := by
  unfold State.storesOpen
  split
  · exact List.all_eq_true.mpr fun k _ => pathOpen_free h _ _ k
  · rfl

/-! ### Entries of the mover -/

@[simp] theorem setXfer_xfer_self (s : State) (c : CellId) (i : Fin 8) (r : Option DmRun) : (s.setXfer c i r).xfer c i = r := by
  simp [State.setXfer, State.xfer, Cell.modEng]

theorem setXfer_xfer_ne (s : State) (c : CellId) {i k : Fin 8} (r : Option DmRun) (h : k ≠ i) :
    (s.setXfer c i r).xfer c k = s.xfer c k := by
  simp [State.setXfer, State.xfer, Cell.modEng, vget_vset_ne _ _ _ _ h.symm]

/-- An entry of the mover is not part of what a cell's memories hold. -/
theorem setXfer_store (s : State) (c : CellId) (i : Fin 8) (r : Option DmRun) (d : CellId) :
    ((s.setXfer c i r).cell d).store = (s.cell d).store := 
  modCell_cell_keeps (f := fun x => x.modEng fun e => { e with xfers := vset e.xfers i r }) Cell.store (fun _ => rfl) s c d

theorem setXfer_vat (s : State) (c : CellId) (i : Fin 8) (r : Option DmRun) (d : CellId) :
    ((s.setXfer c i r).cell d).vat = (s.cell d).vat := 
  modCell_cell_keeps (f := fun x => x.modEng fun e => { e with xfers := vset e.xfers i r }) Cell.vat (fun _ => rfl) s c d

theorem modXfer_some {s : State} {c : CellId} {i : Fin 8} {r : DmRun} (h : s.xfer c i = some r) (f : DmRun → DmRun) :
    s.modXfer c i f = s.setXfer c i (some (f r)) := by rw [State.modXfer, h]

/-- A change of a cell that leaves its engines leaves the movers. -/
theorem modCell_xfer {f : Cell → Cell} (h : ∀ x, (f x).eng = x.eng) (s : State) (d c : CellId) (i : Fin 8) :
    (s.modCell d f).xfer c i = s.xfer c i :=
  congrArg (fun e : Engines => vget e.xfers i) (modCell_cell_keeps Cell.eng h s d c)

/-- A transfer's sides depend on the routing table alone. -/
theorem sides_of_route {s t : State} (h : t.route = s.route) (c : CellId) (m : DmInstr) (k : Nat) :
    m.sides t c k = m.sides s c k := by
  have hlocal : t.isLocal = s.isLocal := by
    funext n
    simp only [State.isLocal, State.physical, State.nodeId, h]
  simp only [DmInstr.sides, State.farSide, hlocal]

end Sys2Proof.Machine
end

section
/-!
OBLIGATION O19. A copy between two cell stores, piece by piece, and what DM_TRANSFER_COMPLETE does (R199, R234 to R238,
R328).
-/
namespace Sys2Proof.Machine

/-! ### Pieces -/

/-- What holds at the start of a transfer and is kept by each of its pieces holds of the whole: a piece is not empty and
ends within the transfer. -/
theorem foldl_piecesFrom {σ : Type} {s : State} {c : CellId} {m : DmInstr} {P : Nat → σ → Prop} {f : σ → Nat × Nat → σ}
    (hstep : ∀ t k n, P k t → 0 < n → k + n ≤ m.total → P (k + n) (f t (k, n))) :
    ∀ (fuel k : Nat) (t : σ), k ≤ m.total → m.total < k + fuel → P k t → P m.total ((m.piecesFrom s c fuel k).foldl f t)
  | 0, k, t, hk, hfuel, _ => absurd hfuel (by omega)
  | fuel + 1, k, t, hk, hfuel, ht => by
    rw [DmInstr.piecesFrom]
    split
    · next hend => exact Nat.le_antisymm hend hk ▸ ht
    · next hmore =>
      have hpiece : m.piece s c k ≤ m.total - k := (Nat.min_le_left _ _).trans (Nat.min_le_left _ _)
      exact foldl_piecesFrom hstep fuel _ _ (by omega) (by omega) (hstep t k _ ht (by omega) (by omega))

/-- Bytes written into a cell store. -/
def State.intoStore (s : State) (b : CellId) (o : Nat) (bs : List Byte) : State :=
  s.modCell b (fun x => { x with store := x.store.write o bs })

theorem intoStore_xfer (s : State) (b : CellId) (o : Nat) (bs : List Byte) (c : CellId) (i : Fin 8) :
    (s.intoStore b o bs).xfer c i = s.xfer c i :=
  modCell_xfer (f := fun x => { x with store := x.store.write o bs }) (fun _ => rfl) s b c i

theorem intoStore_vat (s : State) (b : CellId) (o : Nat) (bs : List Byte) (d : CellId) :
    ((s.intoStore b o bs).cell d).vat = (s.cell d).vat :=
  modCell_cell_keeps (f := fun x => { x with store := x.store.write o bs }) Cell.vat (fun _ => rfl) s b d

theorem intoStore_store_self (s : State) (b : CellId) (o : Nat) (bs : List Byte) :
    ((s.intoStore b o bs).cell b).store = (s.cell b).store.write o bs := by rw [State.intoStore, modCell_cell_self]

theorem intoStore_store_ne (s : State) {b d : CellId} (h : d ≠ b) (o : Nat) (bs : List Byte) :
    ((s.intoStore b o bs).cell d).store = (s.cell d).store := by rw [State.intoStore, modCell_cell_ne _ _ _ _ h.symm]

/-- A clean piece for a cell store is written there and counted. -/
theorem dmPut_store {t : State} {c b : CellId} {i : Fin 8} {r : DmRun} {k o : Nat} (hr : t.xfer c i = some r)
    (hstatus : r.status = 0) (hside : (r.ins.sides t c k).2 = .store b o) (bs : List Byte) : t.dmPut c i k bs false =
    (t.intoStore b o bs).setXfer c i (some { r with moved := r.moved + bs.length }.settle) := by
  refine Eq.trans ?_ (modXfer_some ((intoStore_xfer ..).trans hr) (fun r => { r with moved := r.moved + bs.length }.settle))
  simp only [State.dmPut, hr, hside, hstatus]
  rfl

/-! ### The copy -/

/-- Entry i of a cell's mover is a transfer from byte x of one cell store to byte y of another that has not begun, with a
source free of poison and no beat of a crossing in wait. -/
structure StoreCopy (s : State) (c : CellId) (i : Fin 8) (r : DmRun) (a b : CellId) (x y : Nat) : Prop where
  entry : s.xfer c i = some r
  apart : a ≠ b
  some_byte : 0 < r.ins.total
  status : r.status = 0
  moved : r.moved = 0
  outstanding : r.outstanding = 0
  finished : r.finished = false
  sides : ∀ k < r.ins.total, r.ins.sides s c k = (.store a (x + k), .store b (y + k))
  clean : (s.cell a).store.anyPoison x r.ins.total = false
  wf : (s.cell b).store.wf
  beats : s.beatsTaken

/-- The state in which the first k bytes of a copy are at their destination, and nothing else has changed. -/
structure CopiedTo (s : State) (c : CellId) (i : Fin 8) (r : DmRun) (a b : CellId) (x y k : Nat) (t : State) : Prop where
  frame : t = { s with cells := t.cells }
  entry : t.xfer c i = some { r with moved := k, finished := decide (r.ins.total ≤ k) }
  entries : ∀ j, j ≠ i → t.xfer c j = s.xfer c j
  copied : ∀ j < k, (t.cell b).store.readByte (y + j) = (s.cell a).store.readByte (x + j)
  kept : ∀ j, j < y ∨ y + k ≤ j → (t.cell b).store.readByte j = (s.cell b).store.readByte j
  wf : (t.cell b).store.wf
  stores : ∀ d, d ≠ b → (t.cell d).store = (s.cell d).store
  vats : ∀ d, (t.cell d).vat = (s.cell d).vat

section
variable {s t : State} {c a b : CellId} {i : Fin 8} {r : DmRun} {x y k n : Nat}

theorem StoreCopy.copiedTo_zero (h : StoreCopy s c i r a b x y) : CopiedTo s c i r a b x y 0 s where
  frame := rfl
  entry := by
    have hnone : decide (r.ins.total ≤ 0) = false := decide_eq_false (Nat.not_le.mpr h.some_byte)
    rw [h.entry, hnone, ← h.moved, ← h.finished]
  entries := fun _ _ => rfl
  copied := fun _ hj => absurd hj (Nat.not_lt_zero _)
  kept := fun _ _ => rfl
  wf := h.wf
  stores := fun _ _ => rfl
  vats := fun _ => rfl

/-- A run that has moved k of its bytes and moves n more. -/
theorem StoreCopy.settle (h : StoreCopy s c i r a b x y) (hk : k < r.ins.total) :
    DmRun.settle { r with moved := k + n, finished := decide (r.ins.total ≤ k) } =
      { r with moved := k + n, finished := decide (r.ins.total ≤ k + n) } := by
  by_cases hend : r.ins.total ≤ k + n <;> simp [DmRun.settle, h.outstanding, h.status, hend, hk]

/-- One piece more. -/
theorem CopiedTo.piece (ht : CopiedTo s c i r a b x y k t) (n : Nat) : CopiedTo s c i r a b x y (k + n)
    ((t.intoStore b (y + k) ((s.cell a).store.read (x + k) n)).setXfer c i
      (some { r with moved := k + n, finished := decide (r.ins.total ≤ k + n) })) := by
  have hread : ∀ j, ((t.cell b).store.write (y + k) ((s.cell a).store.read (x + k) n)).readByte j =
      if y + k ≤ j ∧ j < y + k + n then ((s.cell a).store.read (x + k) n).getD (j - (y + k)) 0
      else (t.cell b).store.readByte j := fun j => by
    rw [ProtMem.readByte_write ht.wf, ProtMem.length_read]
  refine ⟨?_, setXfer_xfer_self .., fun j hj => ?_, fun j hj => ?_, fun j hj => ?_, ?_, fun d hd => ?_, fun d => ?_⟩
  · rw [ht.frame]; rfl
  · rw [setXfer_xfer_ne _ _ _ hj, intoStore_xfer, ht.entries j hj]
  · rw [setXfer_store, intoStore_store_self, hread]
    by_cases hnew : k ≤ j
    · rw [if_pos (by omega), ProtMem.read_getD _ _ _ _ (by omega)]
      congr 1; omega
    · rw [if_neg (by omega), ht.copied j (by omega)]
  · rw [setXfer_store, intoStore_store_self, hread, if_neg (by omega), ht.kept j (by omega)]
  · rw [setXfer_store, intoStore_store_self]
    exact ProtMem.write_wf ht.wf _ _
  · rw [setXfer_store, intoStore_store_ne _ hd, ht.stores d hd]
  · rw [setXfer_vat, intoStore_vat, ht.vats d]

/-- The pieces of a copy, one after another, leave the whole of it. -/
theorem StoreCopy.dmStores (h : StoreCopy s c i r a b x y) :
    CopiedTo s c i r a b x y r.ins.total (s.dmStores c i r.ins) := by
  refine foldl_piecesFrom (P := CopiedTo s c i r a b x y) (fun t k n ht hn hk => ?_) _ 0 s (Nat.zero_le _) (by omega)
    h.copiedTo_zero
  have hlt : k < r.ins.total := by omega
  have hroute : t.route = s.route := by rw [ht.frame]
  have hbeats : t.beatsTaken := by rw [ht.frame]; exact h.beats
  have hsides : r.ins.sides t c k = (.store a (x + k), .store b (y + k)) :=
    (sides_of_route hroute ..).trans (h.sides k hlt)
  have hsource : (t.cell a).store = (s.cell a).store := ht.stores a h.apart
  have hclean : (s.cell a).store.anyPoison (x + k) n = false := ProtMem.anyPoison_mono h.clean (by omega) (by omega)
  have hput : t.dmPut c i k ((s.cell a).store.read (x + k) n) false = _ :=
    dmPut_store ht.entry h.status (congrArg Prod.snd hsides) _
  simp only [ProtMem.length_read, h.settle (n := n) hlt] at hput
  simp only [hsides, hsource, hclean, carryTo_of_beatsTaken hbeats]
  exact hput ▸ ht.piece n

end

/-! ### The end of a transfer -/

theorem dmEnd_discarded {s : State} {c : CellId} {i : Fin 8} {r : DmRun} (h : r.discarded = true) :
    s.dmEnd c i r = s.setXfer c i none := by simp [State.dmEnd, h]

/-- A transfer without a fault that ends in time frees its entry and signals its latch. -/
theorem dmEnd_in_time {s : State} {c : CellId} {i : Fin 8} {r : DmRun} (hdiscarded : r.discarded = false)
    (hstatus : r.status = 0) (htime : (qdescOf r.ins.qd).deadline.toNat ≤ 0 ∨
      s.time.toNat ≤ (qdescOf r.ins.qd).deadline.toNat) :
    s.dmEnd c i r = (s.setXfer c i none).completion c r.ins.tag.slot r.ins.f := by
  have hlate : ((qdescOf r.ins.qd).deadline != 0 && decide ((qdescOf r.ins.qd).deadline.toNat < s.time.toNat)) = false := by
    rcases htime with h | h
    · have hzero : (qdescOf r.ins.qd).deadline = 0 := BitVec.eq_of_toNat_eq (Nat.le_zero.mp h)
      rw [hzero]; rfl
    · rw [decide_eq_false (Nat.not_lt.mpr h), Bool.and_false]
  simp only [State.dmEnd, hdiscarded, hstatus, hlate, Bool.false_eq_true, if_false, if_true]

/-- What the end of a transfer without a fault leaves of a cell: cell store, vat and the entries of the mover. -/
def Cell.carried (x : Cell) : ProtMem × ProtMem × Vector (Option DmRun) 8 := (x.store, x.vat, x.eng.xfers)

theorem completion_carried (s : State) (c : CellId) (i : SlotId) (f : FmtQ) (d : CellId) :
    ((s.completion c i f).cell d).carried = (s.cell d).carried := by
  unfold State.completion
  split
  · exact modCell_cell_keeps (f := fun x => { x with signals := x.signals ++ [⟨f.latch, 1, false, some i⟩] })
      Cell.carried (fun _ => rfl) s c d
  · rfl

theorem completion_frame (s : State) (c : CellId) (i : SlotId) (f : FmtQ) :
    s.completion c i f = { s with cells := (s.completion c i f).cells } := by
  unfold State.completion
  split <;> rfl

/-- The end of a transfer without a fault leaves each cell but for its entry of the mover, and all memory. -/
theorem dmEnd_carried {s : State} {c : CellId} {i : Fin 8} {r : DmRun} (hdiscarded : r.discarded = false)
    (hstatus : r.status = 0) : (∀ d, ((s.dmEnd c i r).cell d).carried = ((s.setXfer c i none).cell d).carried) ∧
      (s.dmEnd c i r).mem = s.mem ∧ (s.dmEnd c i r).fabs = s.fabs ∧ (s.dmEnd c i r).stackSet = s.stackSet := by
  have hcount : ∀ d, (((s.setXfer c i none).modCell c (fun x => x.modRegs (fun g => { g with dmLate := g.dmLate + 1 }))).cell
      d).carried = ((s.setXfer c i none).cell d).carried :=
    modCell_cell_keeps (f := fun x => x.modRegs (fun g => { g with dmLate := g.dmLate + 1 })) Cell.carried (fun _ => rfl) _ c
  simp only [State.dmEnd, hdiscarded, hstatus, Bool.false_eq_true, if_false, if_true]
  refine ⟨fun d => (completion_carried ..).trans ?_, ?_⟩
  · split
    · split <;> exact hcount d
    · rfl
  · rw [completion_frame]
    split
    · split <;> exact ⟨rfl, rfl, rfl⟩
    · exact ⟨rfl, rfl, rfl⟩

/-! ### DM_TRANSFER_COMPLETE -/

theorem dmTransferComplete_finished {s : State} {c : CellId} {i : Fin 8} {r : DmRun} (hr : s.xfer c i = some r)
    (h : r.finished = true) : exec (.dmTransferComplete c i) s = .next (s.dmEnd c i r) := by
  simp only [exec_dmTransferComplete, execDmTransferComplete, hr]
  rcases r.ins.sides s c 0 with ⟨_ | _ | _ | _, _ | _ | _ | _⟩ <;> simp [hr, h]

/-- A transfer that has not finished waits, where it is none between cell stores or its way pauses (R328). -/
theorem dmTransferComplete_waits {s : State} {c : CellId} {i : Fin 8} {r : DmRun} (hr : s.xfer c i = some r)
    (hfinished : r.finished = false)
    (h : (∀ a x b y, r.ins.sides s c 0 ≠ (.store a x, .store b y)) ∨ s.storesOpen c r.ins = false) :
    exec (.dmTransferComplete c i) s = .next s := by
  simp only [exec_dmTransferComplete, execDmTransferComplete, hr]
  rcases hsides : r.ins.sides s c 0 with ⟨_ | _ | _ | _, _ | _ | _ | _⟩
  case store.store =>
    have hshut : s.storesOpen c r.ins = false := h.resolve_left fun h => h _ _ _ _ hsides
    simp [hr, hshut, hfinished]
  all_goals simp [hr, hfinished]

/-- A copy between cell stores moves its bytes and ends. -/
theorem dmTransferComplete_copies {s : State} {c a b : CellId} {i : Fin 8} {r : DmRun} {x y : Nat}
    (h : StoreCopy s c i r a b x y) (hopen : s.storesOpen c r.ins = true) :
    exec (.dmTransferComplete c i) s = .next ((s.dmStores c i r.ins).dmEnd c i
      { r with moved := r.ins.total, finished := true }) := by
  have hentry := h.dmStores.entry
  rw [decide_eq_true (Nat.le_refl _)] at hentry
  simp only [exec_dmTransferComplete, execDmTransferComplete, h.entry, h.sides 0 h.some_byte, h.finished, hopen,
    Bool.not_true, Bool.or_false, Bool.false_eq_true, if_false, hentry, if_true]

/-- Settles O19: the copy by `StoreCopy.dmStores`, piece by piece, and what ends or waits without one by
`dmTransferComplete_finished` and `dmTransferComplete_waits`. -/
theorem copyBetweenCellStores : Obligations.CopyBetweenCellStores := by
  intro s c i r hr
  refine ⟨fun a b x y hab htotal hstatus hmoved hout hfinished hdiscarded hsides hclean hwf hcrosses hbeats => ?_,
    fun hfin hdis => ?_, fun hfin hdis hstatus htime => ?_, fun hfin hshut => ?_, fun hfin hsides => ?_⟩
  · have h : StoreCopy s c i r a b x y :=
      ⟨hr, hab, htotal, hstatus, hmoved, hout, hfinished, hsides, hclean, hwf, hbeats⟩
    have hcopy := h.dmStores
    refine ⟨_, dmTransferComplete_copies h (storesOpen_of_crosses hcrosses c r.ins), ?_⟩
    generalize s.dmStores c i r.ins = t at hcopy
    obtain ⟨hcells, hmem, hfabs, hstacks⟩ := dmEnd_carried (s := t) (c := c) (i := i)
      (r := { r with moved := r.ins.total, finished := true }) hdiscarded hstatus
    generalize t.dmEnd c i { r with moved := r.ins.total, finished := true } = u at hcells hmem hfabs hstacks
    have hstore : ∀ d, (u.cell d).store = (t.cell d).store := fun d =>
      (congrArg Prod.fst (hcells d)).trans (setXfer_store ..)
    have hxfer : ∀ k, u.xfer c k = (t.setXfer c i none).xfer c k := fun k =>
      congrArg (fun v : ProtMem × ProtMem × Vector (Option DmRun) 8 => vget v.2.2 k) (hcells c)
    refine ⟨(hxfer i).trans (setXfer_xfer_self ..), fun k hk => ?_, fun k hk => ?_, fun k hk => ?_, fun d hd => ?_,
      fun d => ?_, ?_, ?_, ?_⟩
    · rw [hxfer, setXfer_xfer_ne _ _ _ hk, hcopy.entries k hk]
    · rw [hstore, hcopy.copied k hk]
    · rw [hstore, hcopy.kept k hk]
    · rw [hstore, hcopy.stores d hd]
    · exact (congrArg (·.2.1) (hcells d)).trans ((setXfer_vat ..).trans (hcopy.vats d))
    · rw [hmem, hcopy.frame]
    · rw [hfabs, hcopy.frame]
    · rw [hstacks, hcopy.frame]
  · rw [dmTransferComplete_finished hr hfin, dmEnd_discarded hdis]
  · rw [dmTransferComplete_finished hr hfin, dmEnd_in_time hdis hstatus htime]
  · exact dmTransferComplete_waits hr hfin (.inr hshut)
  · exact dmTransferComplete_waits hr hfin (.inl hsides)

end Sys2Proof.Machine
end

section
/-!
OBLIGATION O1. The integer sc instructions of both formats (Table 7-2, R174, R219): each executes through the shared
operation of its format.
-/
namespace Sys2Proof.Machine

/-- A word whose bits from n on are zero is its field of n bits. -/
theorem fld_eq_toNat {w n : Nat} {x : BitVec w} (h : fld x n (w - n) = 0) (hn : n ≤ w) : fld x 0 n = x.toNat := by
  have hlt : x.toNat < 2 ^ n * 2 ^ (w - n) := by
    rw [← Nat.pow_add, Nat.add_sub_cancel' hn]
    exact x.isLt
  rw [fld, Nat.shiftRight_eq_div_pow, Nat.mod_eq_of_lt (Nat.div_lt_of_lt_mul hlt)] at h
  exact Nat.mod_eq_of_lt (Nat.lt_of_div_eq_zero (Nat.two_pow_pos n) h)

/-- A command of format S that goes through the integer operation and executes. -/
theorem exec_of_intOp {i : Instr} {s : State} {a : At} {p : Pred} {f : FmtS} {op : Byte} {g : Word64 → Word64 → Word64}
    (h : s.takes i) (hexec : exec i s = s.intOp a p f op g)
    (hw : issuedOf i = some ⟨a, p, 1, op, ⟨f.rsv == 0, fmtSOk f true true true false false && fnOk f.fn 0⟩,
      [f.sd, f.sa, f.sb]⟩) :
    exec i s = .next (s.after a (·.setS f.sd (g (s.sreg a f.sa) (s.sreg a f.sb)))) :=
  hexec.trans (intOp_takes (takes_word h hw) g)

/-- A command of format SI that goes through the immediate operation and executes. -/
theorem exec_of_immOp {i : Instr} {s : State} {a : At} {p : Pred} {f : FmtSI} {op : Byte} {ok : Checks}
    {names : List (BitVec 5)} {g : Word64 → Word32 → Word64} (h : s.takes i)
    (hexec : exec i s = s.immOp a p f op ok names g) (hw : issuedOf i = some ⟨a, p, 1, op, ok, names⟩) :
    exec i s = .next (s.after a (·.setS f.sd (g (s.sreg a f.sa) f.imm))) :=
  hexec.trans (immOp_takes (takes_word h hw) g)

/-- The shift that a code of FN[1:0] selects (Table 7-2). -/
def shiftOf (k : Nat) (x : Word64) (n : Nat) : Word64 :=
  match k with
  | 0 => x <<< n
  | 1 => x >>> n
  | _ => x.sshiftRight n

/-- sc.shi shifts by all of IMM, whose bits from 6 on are reserved, in the kind FN[1:0] selects. -/
theorem scShi_takes {s : State} {a : At} {p : Pred} {f : FmtSI} (h : s.takes (.scShi a p f)) :
    exec (.scShi a p f) s = .next (s.after a (·.setS f.sd (shiftOf (fld f.fn 0 2) (s.sreg a f.sa) f.imm.toNat))) := by
  have hw := takes_word h rfl
  have hok := (takesWord_ok hw).2
  simp only [Bool.and_eq_true, beq_iff_eq] at hok
  obtain ⟨-, himm⟩ := hok
  rw [← fld_eq_toNat himm (by decide)]
  exact (exec_of_immOp h (exec_scShi a p f s) rfl :)

/-- Settles O1: format S by `exec_of_intOp`, format SI by `exec_of_immOp`, and sc.shi by its reserved bits. -/
theorem scalarIntegerAndImmediateResults : Obligations.ScalarIntegerAndImmediateResults := by
  refine ⟨fun s a p f => ?_, fun s a p f => ?_⟩
  · exact ⟨fun h => (exec_of_intOp h (exec_scAdd ..) rfl :), fun h => (exec_of_intOp h (exec_scSub ..) rfl :),
      fun h => (exec_of_intOp h (exec_scMul ..) rfl :), fun h => (exec_of_intOp h (exec_scMulhu ..) rfl :),
      fun h => (exec_of_intOp h (exec_scDiv ..) rfl :), fun h => (exec_of_intOp h (exec_scDivu ..) rfl :),
      fun h => (exec_of_intOp h (exec_scRem ..) rfl :), fun h => (exec_of_intOp h (exec_scRemu ..) rfl :),
      fun h => (exec_of_intOp h (exec_scAnd ..) rfl :), fun h => (exec_of_intOp h (exec_scOr ..) rfl :),
      fun h => (exec_of_intOp h (exec_scXor ..) rfl :), fun h => (exec_of_intOp h (exec_scShl ..) rfl :),
      fun h => (exec_of_intOp h (exec_scShr ..) rfl :), fun h => (exec_of_intOp h (exec_scSar ..) rfl :)⟩
  · refine ⟨fun h => (exec_of_immOp h (exec_scAddi ..) rfl :), fun h => (exec_of_immOp h (exec_scAndi ..) rfl :),
      fun h => (exec_of_immOp h (exec_scOri ..) rfl :), fun h => (exec_of_immOp h (exec_scXori ..) rfl :),
      fun h => (exec_of_immOp h (exec_scMovi ..) rfl :), fun h => (exec_of_immOp h (exec_scLdhi ..) rfl :),
      fun h => ?_⟩
    rw [scShi_takes h]
    exact ⟨fun e => by rw [e]; rfl, fun e => by rw [e]; rfl, fun e => by rw [e]; rfl⟩

end Sys2Proof.Machine
end

section
/-!
OBLIGATION O2. The scalar F32 instructions (Table 7-3, R174, R220).
-/
namespace Sys2Proof.Machine

/-- A command that goes through the F32 operation and executes. -/
theorem exec_of_fltOp {i : Instr} {s : State} {a : At} {p : Pred} {f : FmtS} {op : Byte} {ok : Checks}
    {names : List (BitVec 5)} {g : State → Word32} (h : s.takes i) (hexec : exec i s = s.fltOp a p f op ok names g)
    (hw : issuedOf i = some ⟨a, p, 1, op, ok, names⟩) : exec i s = .next (s.after a (·.setS f.sd ((g s).zeroExtend 64))) :=
  hexec.trans (fltOp_takes (takes_word h hw) g)

/-! ### sc.fcvt -/

/-- Where sc.fcvt executes, SD holds the conversion that FN[1:0] selects. -/
theorem scFcvt_takes {s : State} {a : At} {p : Pred} {f : FmtS} (h : s.takes (.scFcvt a p f)) :
    exec (.scFcvt a p f) s = .next (s.after a (·.setS f.sd (fcvt (fld f.fn 0 2) (s.sreg a f.sa)))) :=
  (exec_scFcvt a p f s).trans (issue_takes (takes_word h rfl) _)

theorem fcvt_nan {x : Word64} (h : f32 (bfld x 0 32) = .nan) : fcvt 0 x = 0 := by simp only [fcvt, h]

theorem fcvt_inf {x : Word64} {n : Bool} (h : f32 (bfld x 0 32) = .inf n) :
    fcvt 0 x = if n then 0x8000000000000000 else 0x7FFFFFFFFFFFFFFF := by simp only [fcvt, h]

/-- A finite number is rounded toward zero and saturates. -/
theorem fcvt_fin {x : Word64} {k : Int} (hfin : ∃ sg m e, f32 (bfld x 0 32) = .fin sg m e)
    (hk : (f32 (bfld x 0 32)).toInt .rtz = some k) :
    fcvt 0 x = BitVec.ofInt 64 (max (-2 ^ 63) (min (2 ^ 63 - 1) k)) := by
  obtain ⟨sg, m, e, hx⟩ := hfin
  rw [hx] at hk
  simp only [fcvt, hx, hk, Option.getD_some]

/-- Settles O2: the F32 operations by `exec_of_fltOp`, sc.fcvt conversion by conversion. -/
theorem scalarFloatResults : Obligations.ScalarFloatResults := by
  intro s a p f
  refine ⟨fun h => (exec_of_fltOp h (exec_scFadd ..) rfl :), fun h => (exec_of_fltOp h (exec_scFsub ..) rfl :),
    fun h => (exec_of_fltOp h (exec_scFmul ..) rfl :), fun h => (exec_of_fltOp h (exec_scFfma ..) rfl :),
    fun h => (exec_of_fltOp h (exec_scFdiv ..) rfl :), fun h => (exec_of_fltOp h (exec_scFsqrt ..) rfl :),
    fun h => (exec_of_fltOp h (exec_scFrcp ..) rfl :), fun h => (exec_of_fltOp h (exec_scFtr ..) rfl :),
    fun h => ?_⟩
  rw [scFcvt_takes h]
  refine ⟨fun e hx => ?_, fun e hx => ?_, fun e hx => ?_, fun k e hfin hk => ?_, fun e => ?_, fun e => ?_, fun e => ?_⟩
  · rw [e, fcvt_nan hx]
  · rw [e, fcvt_inf hx]; rfl
  · rw [e, fcvt_inf hx]; rfl
  · rw [e, fcvt_fin hfin hk]
  all_goals rw [e]; rfl

end Sys2Proof.Machine
end

section
/-!
OBLIGATION O3. Compares and predicate operations (R172, R218, R219), descriptor, time and identity instructions (R28, R221,
R223).
-/
namespace Sys2Proof.Machine

/-- A command that only changes its context, and executes. -/
theorem exec_of_finish {i : Instr} {s : State} {a : At} {p : Pred} {cls : BitVec 4} {op : Byte} {ok : Checks}
    {names : List (BitVec 5)} {g : State → Ctx → Ctx} (h : s.takes i)
    (hexec : exec i s = s.issue a p cls op ok names (fun s => s.finish a (g s)))
    (hw : issuedOf i = some ⟨a, p, cls, op, ok, names⟩) : exec i s = .next (s.after a (g s)) :=
  hexec.trans (issue_takes (takes_word h hw) _)

/-! ### Relations and predicates (Table 7-1) -/

/-- The integer relations by their codes. -/
theorem intRel_eq (code : BitVec 3) (x y : Word64) : intRel code x y =
    if code.toNat = 0 then decide (x = y) else if code.toNat = 1 then decide (x ≠ y)
    else if code.toNat = 2 then decide (x.toInt < y.toInt) else if code.toNat = 3 then decide (x.toNat < y.toNat)
    else if code.toNat = 4 then decide (x.toInt ≤ y.toInt) else decide (x.toNat ≤ y.toNat) := by
  have hsle : (!y.slt x) = decide (x.toInt ≤ y.toInt) := by
    rw [BitVec.slt, ← decide_not]
    exact decide_eq_decide.mpr Int.not_lt
  have hule : (!y.ult x) = decide (x.toNat ≤ y.toNat) := by
    rw [BitVec.ult, ← decide_not]
    exact decide_eq_decide.mpr Nat.not_lt
  unfold intRel
  split
  · next h => simp [h, beq_eq_decide]
  · next h => simp [h, bne, beq_eq_decide]
  · next h => simp [h, BitVec.slt]
  · next h => simp [h, BitVec.ult]
  · next h => simp only [h, hsle]; rfl
  · next h0 h1 h2 h3 h4 =>
    rw [if_neg h0, if_neg h1, if_neg h2, if_neg h3, if_neg h4, hule]

/-- The F32 relations by their codes. -/
theorem fltRel_eq (code : BitVec 3) (x y : Word32) : fltRel code x y = numRel code.toNat (f32 x) (f32 y) := by
  by_cases h : code = 4
  · subst h; rfl
  · rw [fltRel, if_neg h]

/-- A NaN makes equal and less than false. -/
theorem nan_unordered {x y : FpNum} (h : x = .nan ∨ y = .nan) : x.eq y = false ∧ x.lt y = false := by
  rcases h with rfl | rfl
  · exact ⟨rfl, rfl⟩
  · cases x <;> exact ⟨rfl, rfl⟩

theorem predVal_eq (ps : BitVec 8) (k : BitVec 3) : predVal ps k = (decide (k.toNat = 0) || bit ps k.toNat) := by
  by_cases h : k = 0
  · subst h; rfl
  · have hk : k.toNat ≠ 0 := fun e => h (BitVec.eq_of_toNat_eq e)
    rw [predVal, if_neg h, decide_eq_false hk, Bool.false_or]

/-! ### Descriptors and the identity -/

/-- The new base addresses, and every other bit of the descriptor. -/
theorem tbase_fields (t : BitVec 256) (x y : Word64) :
    let u := setFld (setFld t 0 23 x.toNat) 24 23 y.toNat
    fld u 0 23 = fld x 0 23 ∧ fld u 24 23 = fld y 0 23 ∧ bit u 23 = bit t 23 ∧ fld u 47 209 = fld t 47 209 := by
  refine ⟨?_, ?_, ?_, ?_⟩
  · rw [fld_setFld_ne _ _ _ _ _ _ (by decide), fld_setFld_self _ _ _ _ (by decide)]; rfl
  · rw [fld_setFld_self _ _ _ _ (by decide)]; rfl
  · rw [bit_setFld_ne _ _ _ _ _ (by decide), bit_setFld_ne _ _ _ _ _ (by decide)]
  · rw [fld_setFld_ne _ _ _ _ _ _ (by decide), fld_setFld_ne _ _ _ _ _ _ (by decide)]

/-- The fields of the identity (R223). -/
theorem identity_fields (s : State) (a : At) : bfld (s.identity a) 48 16 = s.nodeId ∧
    fld (s.identity a) 8 2 = ((s.partOf a.cell).getD 0).val ∧ fld (s.identity a) 6 1 = a.slot.val ∧
    fld (s.identity a) 0 6 = a.cell.val := by
  have hnode : fld s.route.nodeId 0 16 < 2 ^ 16 := fld_lt ..
  have hpart := ((s.partOf a.cell).getD 0).isLt
  have hslot := a.slot.isLt
  have hcell := a.cell.isLt
  have hvalue : (s.identity a).toNat = fld s.route.nodeId 0 16 * 2 ^ 48 + ((s.partOf a.cell).getD 0).val * 2 ^ 8 +
      a.slot.val * 2 ^ 6 + a.cell.val := by
    rw [State.identity, BitVec.toNat_ofNat]
    exact Nat.mod_eq_of_lt (by omega)
  refine ⟨BitVec.eq_of_toNat_eq ?_, ?_, ?_, ?_⟩
  · rw [State.nodeId, bfld_toNat, bfld_toNat, fld, hvalue, Nat.shiftRight_eq_div_pow]
    omega
  all_goals
    rw [fld, hvalue, Nat.shiftRight_eq_div_pow]
    omega

/-- Settles O3: each changes its context only (`exec_of_finish`); what it writes is `intRel_eq`, `fltRel_eq`, `predVal_eq`,
`tbase_fields` and `identity_fields`. -/
theorem predicateAndDescriptorResults : Obligations.PredicateAndDescriptorResults := by
  refine ⟨fun s a p => ⟨fun f h => ?_, fun f h => ?_, fun f h => ⟨?_, nan_unordered⟩, fun f h => ?_⟩, fun s a p f =>
    ⟨fun h => (exec_of_finish h (exec_scTset ..) rfl :),
      fun h => ⟨_, (exec_of_finish h (exec_scTbase ..) rfl :), tbase_fields ..⟩,
      fun h => (exec_of_finish h (exec_scQset ..) rfl :), fun h => (exec_of_finish h (exec_scQaddr ..) rfl :),
      fun h => (exec_of_finish h (exec_scNop ..) rfl :), fun h => (exec_of_finish h (exec_scTime ..) rfl :),
      fun h => ⟨_, (exec_of_finish h (exec_scId ..) rfl :), identity_fields s a⟩⟩⟩
  · refine (exec_of_finish h (exec_scCmp ..) rfl).trans ?_
    rw [intRel_eq, bfld_toNat]
  · refine (exec_of_finish h (exec_scCmpi ..) rfl).trans ?_
    rw [intRel_eq]
  · have hrel := (fltRel_eq (bfld f.fn 0 3) (s.freg a f.sa) (s.freg a f.sb)).trans
      (congrArg (numRel · _ _) (bfld_toNat f.fn 0 3))
    exact (exec_of_finish h (exec_scFcmp ..) rfl).trans
      (congrArg (fun v => Host.Outcome.next (s.after a (·.setP f.pd v))) hrel)
  · have hpop := congrArg₂ (popOp (bfld f.fn 6 2)) (predVal_eq (s.slot a).ctx.p (bfld f.fn 0 3))
      (predVal_eq (s.slot a).ctx.p (bfld f.fn 3 3))
    exact (exec_of_finish h (exec_scPop ..) rfl).trans
      (congrArg (fun v => Host.Outcome.next (s.after a (·.setP f.pd v))) hpop)

end Sys2Proof.Machine
end

section
/-!
OBLIGATION O6. Loads and stores of the control core in the cell store (R198, R221, Table 6-12).
-/
namespace Sys2Proof.Machine

theorem loadOp_clean {s : State} {a : At} {ad n : Nat} (h : (s.cell a.cell).store.anyPoison ad n = false) (op : Byte)
    (f : Nat → Ctx → Ctx) : s.loadOp a op ad n f = .next (s.after a (f ((s.cell a.cell).store.num ad n))) := by
  rw [State.loadOp, h]; rfl

theorem loadOp_poisoned {s : State} {a : At} {ad n : Nat} (h : (s.cell a.cell).store.anyPoison ad n = true) (op : Byte)
    (f : Nat → Ctx → Ctx) : s.loadOp a op ad n f = .next ((s.countIssue a).corePoison a 1 op ad n) := by
  rw [State.loadOp, h]; rfl

section
variable {i : Instr} {s : State} {a : At} {p : Pred} {op : Byte} {ok : Checks} {names : List (BitVec 5)} {n : Nat}
  {addr : State → Word64} {wr : Bool}

/-- An access that no earlier instruction of its slot holds up. -/
def State.accessFree (s : State) (a : At) (ad : Word64) (n : Nat) (wr : Bool) : Prop :=
  (s.cell a.cell).rangesHeld a.cell s.isLocal a.slot ((s.cell a.cell).slot a.slot).seqNext [(ad.toNat, n, wr)] = false

/-- A load of the control core: an access whose work is to read `n` bytes into a register, `f` of their number. -/
theorem load_takes {f : Nat → Ctx → Ctx} (h : s.takes i)
    (hexec : exec i s = s.memOp a p op ok names n addr false (fun s k => s.loadOp a op k n f))
    (hw : issuedOf i = some ⟨a, p, 1, op, ok, names⟩) (hfree : s.accessFree a (addr s) n false)
    (hgood : (s.cell a.cell).inPart a.slot (addr s).toNat n = true ∧ (addr s).toNat % n = 0) :
    ((s.cell a.cell).store.anyPoison (addr s).toNat n = false →
      exec i s = .next (s.after a (f ((s.cell a.cell).store.num (addr s).toNat n)))) ∧
    ((s.cell a.cell).store.anyPoison (addr s).toNat n = true →
      exec i s = .next ((s.countIssue a).corePoison a 1 op (addr s).toNat n)) := by
  have hload := hexec.trans (memOp_takes (takes_word h hw) n addr false _ hfree hgood.1 hgood.2)
  exact ⟨fun hp => hload.trans (loadOp_clean hp op f), fun hp => hload.trans (loadOp_poisoned hp op f)⟩

/-- A store of the control core: an access whose work is to write bytes. -/
theorem store_takes {bs : State → List Byte} (h : s.takes i)
    (hexec : exec i s = s.memOp a p op ok names n addr true (fun s k => s.storeOp a k (bs s)))
    (hw : issuedOf i = some ⟨a, p, 1, op, ok, names⟩) (hfree : s.accessFree a (addr s) n true)
    (hgood : (s.cell a.cell).inPart a.slot (addr s).toNat n = true ∧ (addr s).toNat % n = 0) :
    exec i s = .next (((s.countIssue a).modCell a.cell
      (fun y => { y with store := y.store.write (addr s).toNat (bs s) })).retire a) :=
  hexec.trans (memOp_takes (takes_word h hw) n addr true _ hfree hgood.1 hgood.2)

/-- The faults of an access, load or store. -/
theorem access_faults {body : State → Nat → Res} (h : s.takes i) (hexec : exec i s = s.memOp a p op ok names n addr wr body)
    (hw : issuedOf i = some ⟨a, p, 1, op, ok, names⟩) (hfree : s.accessFree a (addr s) n wr) :
    ((s.cell a.cell).inPart a.slot (addr s).toNat n = false → exec i s = .next (s.faulted a 1 op 0x04 (addr s))) ∧
    ((s.cell a.cell).inPart a.slot (addr s).toNat n = true → (addr s).toNat % n ≠ 0 →
      exec i s = .next (s.faulted a 1 op 0x05 (addr s))) :=
  ⟨fun hout => hexec.trans (memOp_bounds (takes_word h hw) n addr wr body hfree hout),
    fun hin hodd => hexec.trans (memOp_misaligned (takes_word h hw) n addr wr body hfree hin hodd)⟩

end

/-- Settles O6: loads by `load_takes`, stores by `store_takes`, and the faults of both by `access_faults`. -/
theorem cellStoreAccessResults : Obligations.CellStoreAccessResults := fun s a p =>
  ⟨fun f h hfree hgood => (load_takes h (exec_scLd a p f s) rfl hfree hgood :),
    fun f h hfree hgood => (store_takes h (exec_scSt a p f s) rfl hfree hgood :),
    fun f h hfree hgood => (load_takes h (exec_scTld a p f s) rfl hfree hgood :),
    fun f h hfree hgood => (store_takes h (exec_scTst a p f s) rfl hfree hgood :),
    fun f h hfree hgood => (load_takes h (exec_scQld a p f s) rfl hfree hgood :),
    fun f h hfree hgood => (store_takes h (exec_scQst a p f s) rfl hfree hgood :),
    fun f h hfree => (access_faults h (exec_scLd a p f s) rfl hfree :),
    fun f h hfree => (access_faults h (exec_scSt a p f s) rfl hfree :),
    fun f h hfree => (access_faults h (exec_scTld a p f s) rfl hfree :),
    fun f h hfree => (access_faults h (exec_scTst a p f s) rfl hfree :),
    fun f h hfree => (access_faults h (exec_scQld a p f s) rfl hfree :),
    fun f h hfree => (access_faults h (exec_scQst a p f s) rfl hfree :)⟩

end Sys2Proof.Machine
end

section
/-!
OBLIGATION O25. Trace records: queued by the control core, written to their ring by the trace queue (R204, R247 to R249).
-/
namespace Sys2Proof.Machine

/-! ### tr.mark, tr.val and tr.ctr -/

/-- The record an instruction queues (Table 7-16). -/
def State.traceRecord (s : State) (a : At) (op : Byte) (value : Word64) (imm : Word32) : TraceRec :=
  ⟨s.timeOn (dieOf a.cell), value, imm,
    BitVec.ofNat 32 (op.toNat * 2 ^ 28 + a.slot.val * 2 ^ 27 + a.cell.val * 2 ^ 21 + (s.slot a).ctx.pc.toNat),
    match s.partOf a.cell with | some q => (s.stepOf q).index | none => BitVec.allOnes 64⟩

/-- A trace instruction that executes: with EN 0 it retires, else its record joins the queue, or a full queue holds it. -/
theorem trace_takes {i : Instr} {s : State} {a : At} {p : Pred} {op : Byte} {ok : Checks} {names : List (BitVec 5)}
    {v : State → Word64} {imm : Word32} (h : s.takes i)
    (hexec : exec i s = s.issue a p 8 op ok names (fun s => s.trDispatch a op (v s) imm))
    (hw : issuedOf i = some ⟨a, p, 8, op, ok, names⟩) :
    (bit (s.cell a.cell).regs.traceCtl 31 = false → exec i s = .next (s.after a id)) ∧
    (bit (s.cell a.cell).regs.traceCtl 31 = true → (s.cell a.cell).eng.traceQ.length < 16 → exec i s =
      .next (s.queued a (fun e => { e with traceQ := e.traceQ ++ [s.traceRecord a op (v s) imm] }))) ∧
    (bit (s.cell a.cell).regs.traceCtl 31 = true → 16 ≤ (s.cell a.cell).eng.traceQ.length →
      exec i s = .next (s.stall a 0)) := by
  rw [hexec, issue_takes (takes_word h hw)]
  refine ⟨fun hoff => if_pos hoff, fun hon hroom => ?_, fun hon hfull => ?_⟩
  · exact (if_neg (by simp [hon])).trans (if_neg (Nat.not_le.mpr hroom))
  · exact (if_neg (by simp [hon])).trans (if_pos hfull)

/-! ### TRACE_RECORD_WRITE -/

section
variable {s : State} {c : CellId} {r : TraceRec} {rest : List TraceRec}

/-- The state once the oldest record has left the trace queue. -/
def State.traceTaken (s : State) (c : CellId) (rest : List TraceRec) : State :=
  s.modCell c (fun y => y.modEng (fun e => { e with traceQ := rest }))

/-- Where the next record of a cell's ring is written (Table 7-17). -/
def CellRegs.traceAddr (g : CellRegs) : Nat := fld g.traceBase 12 36 * 4096 + g.traceHead.toNat % g.ringRecords * 32

theorem traceWrite_full (hq : (s.cell c).eng.traceQ = r :: rest) (hwrap : bit (s.cell c).regs.traceCtl 30 = false)
    (hfull : (s.cell c).regs.ringRecords ≤ (s.cell c).regs.traceHead.toNat) :
    State.traceWrite c s = .next ((s.traceTaken c rest).modCell c (fun y => y.modRegs (·.traceDrop))) := by
  rw [State.traceWrite, hq]
  exact if_pos ⟨hwrap, hfull⟩

theorem traceWrite_made (hq : (s.cell c).eng.traceQ = r :: rest)
    (hroom : ¬ (bit (s.cell c).regs.traceCtl 30 = false ∧ (s.cell c).regs.ringRecords ≤ (s.cell c).regs.traceHead.toNat))
    (hreach : s.reaches (s.partD c) (s.cell c).regs.traceAddr 32 = true)
    (hok : (s.checkWrite .other (s.cell c).regs.traceAddr 32).1 = .ok) :
    State.traceWrite c s = .next ((((s.traceTaken c rest).dramWrite .other (s.cell c).regs.traceAddr r.bytes).charge
      (s.partD c) false (s.cell c).regs.traceAddr 32).modCell c
        (fun y => y.modRegs (fun g => { g with traceHead := g.traceHead + 1 }))) := by
  obtain ⟨ad, hcheck⟩ : ∃ ad, s.checkWrite .other (s.cell c).regs.traceAddr 32 = (.ok, ad) := ⟨_, Prod.ext hok rfl⟩
  rw [CellRegs.traceAddr] at hreach hcheck
  rw [State.traceWrite, hq]
  refine (if_neg hroom).trans ((if_neg (by simp [hreach])).trans ?_)
  rw [hcheck]
  rfl

/-- A record that may not be written is refused, with the code of what refuses it (R249). -/
theorem traceWrite_refused (hq : (s.cell c).eng.traceQ = r :: rest)
    (hroom : ¬ (bit (s.cell c).regs.traceCtl 30 = false ∧ (s.cell c).regs.ringRecords ≤ (s.cell c).regs.traceHead.toNat))
    (h : s.reaches (s.partD c) (s.cell c).regs.traceAddr 32 = false ∨
      (s.checkWrite .other (s.cell c).regs.traceAddr 32).1 ≠ .ok) :
    ∃ code, State.traceWrite c s = .next ((s.traceTaken c rest).traceRefused c code (s.cell c).regs.traceAddr) := by
  rw [CellRegs.traceAddr] at h
  rw [State.traceWrite, hq]
  by_cases hreach : s.reaches (s.partD c) (fld (s.cell c).regs.traceBase 12 36 * 4096 +
      (s.cell c).regs.traceHead.toNat % (s.cell c).regs.ringRecords * 32) 32 = false
  · exact ⟨0x07, (if_neg hroom).trans (if_pos hreach)⟩
  · refine ⟨0x08, (if_neg hroom).trans ((if_neg hreach).trans ?_)⟩
    have hacc := h.resolve_left hreach
    rcases hcheck : s.checkWrite .other (fld (s.cell c).regs.traceBase 12 36 * 4096 +
      (s.cell c).regs.traceHead.toNat % (s.cell c).regs.ringRecords * 32) 32 with ⟨_ | _ | _, ad⟩
    case ok => exact absurd (congrArg Prod.fst hcheck) hacc
    all_goals rfl

theorem traceRefused_unhindered (s : State) (c : CellId) (code : Byte) (ad : Nat) :
    (s.traceRefused c code ad).unhindered ↔ s.unhindered := by
  unfold State.traceRefused
  dsimp only
  split <;> exact Iff.rfl

theorem traceRefused_mem (s : State) (c : CellId) (code : Byte) (ad : Nat) : (s.traceRefused c code ad).mem = s.mem := by
  unfold State.traceRefused
  dsimp only
  split <;> rfl

/-- A refused record counts as dropped, and the trace queue is as it was. -/
theorem traceRefused_cell (s : State) (c : CellId) (code : Byte) (ad : Nat) :
    ((s.traceRefused c code ad).cell c).eng.traceQ = (s.cell c).eng.traceQ ∧
    ((s.traceRefused c code ad).cell c).regs = (s.cell c).regs.traceDrop := by
  unfold State.traceRefused
  dsimp only
  split
  · rw [modCell_cell_self]; exact ⟨rfl, rfl⟩
  · rw [modCell_modCell, State.cell, report_cells, ← State.cell, modCell_cell_self]
    exact ⟨rfl, rfl⟩

/-- Where nothing holds its burst back, the write of a record has its effect at once. -/
theorem traceRecordWrite_free {t : State} (hs : s.unhindered) (h : State.traceWrite c s = .next t) (ht : t.unhindered) :
    exec (.traceRecordWrite c) s = .next t.admitted := (exec_traceRecordWrite c s).trans (gated_free h hs ht)

end

/-- Bursts charged are no longer noted once they are admitted. -/
theorem charge_admitted (s : State) (p : PartId) (coll : Bool) (a n : Nat) (c : CellId) (f : Cell → Cell) :
    ((s.charge p coll a n).modCell c f).admitted = (s.modCell c f).admitted := by
  rw [State.charge, moves_eq]; rfl

theorem charge_unhindered {s : State} (h : s.unhindered) (p : PartId) (coll : Bool) (a n : Nat) :
    (s.charge p coll a n).unhindered := by
  rw [State.charge, moves_eq]
  exact h

/-- Settles O25: the instructions by `trace_takes`, TRACE_RECORD_WRITE by what `State.traceWrite` does with its oldest record. -/
theorem traceRecords : Obligations.TraceRecords := by
  intro s a p f
  refine ⟨fun h => (trace_takes h (exec_trMark a p f s) rfl :), fun h => (trace_takes h (exec_trVal a p f s) rfl :),
    fun h => (trace_takes h (exec_trCtr a p f s) rfl :), fun c r rest hq hs => ?_⟩
  have htaken : (s.traceTaken c rest).unhindered := (modCell_unhindered ..).mpr hs
  refine ⟨fun hwrap hfull => ?_, fun hroom => ?_⟩
  · exact traceRecordWrite_free hs (traceWrite_full hq hwrap hfull) ((modCell_unhindered ..).mpr htaken)
  have hroom' : ¬ (bit (s.cell c).regs.traceCtl 30 = false ∧
      (s.cell c).regs.ringRecords ≤ (s.cell c).regs.traceHead.toNat) := fun ⟨hwrap, hfull⟩ =>
    hroom.elim (by simp [hwrap]) (Nat.not_lt.mpr hfull)
  refine ⟨fun hreach hok => ?_, fun hrefused => ?_⟩
  · have hwritten : ((s.traceTaken c rest).dramWrite .other (s.cell c).regs.traceAddr r.bytes).unhindered :=
      unhindered_of_holding (dramWrite_holding ..) htaken
    refine (traceRecordWrite_free hs (traceWrite_made hq hroom' hreach hok)
      ((modCell_unhindered ..).mpr (charge_unhindered hwritten ..))).trans ?_
    rw [charge_admitted]
    rfl
  · obtain ⟨code, hwrite⟩ := traceWrite_refused hq hroom' hrefused
    obtain ⟨hqueue, hregs⟩ := traceRefused_cell (s.traceTaken c rest) c code (s.cell c).regs.traceAddr
    have hcell : (s.traceTaken c rest).cell c = (s.cell c).modEng (fun e => { e with traceQ := rest }) := modCell_cell_self ..
    rw [hcell] at hqueue hregs
    exact ⟨_, traceRecordWrite_free hs hwrite ((traceRefused_unhindered ..).mpr htaken),
      (congrArg MemCtl.dram (traceRefused_mem ..) :), hqueue, (congrArg CellRegs.traceCtl hregs :),
      (congrArg CellRegs.traceHead hregs :)⟩

end Sys2Proof.Machine
end

section
/-!
OBLIGATION O29. A CFG_APPLY that hands a group to another partition (R96, R294, R535): FADED is recounted from the table, and
the read is charged to the partition the group now names, whose values therefore change.
-/
namespace Sys2Proof.Machine

/-- An enabled group of partition 0 with a table of one block, whose pending PARTITION is 1. -/
def GradGroup.handedOver : GradGroup :=
  { GradGroup.reset with cfg := 0x81001000, cfgShadow := 0x85001000, blocks := 1, blocksSh := 1 }

/-- The core is up, group 0 is to go from partition 0 to partition 1, and every bucket of partition 1, whose range holds the
table, is enabled and empty. The other groups are partition 2's. -/
def State.handsOver : State :=
  { State.reset with
    start := { Startup.reset with coreOn := true }
    parts := #v[Part.reset 0, { Part.reset 1 with
      range := #v[rangeWord true false 0 0, 0, 0, 0], stack := Vector.replicate 16 0x8000000000000000 }, Part.reset 2, Part.reset 3]
    groups := vset (Vector.replicate 256 { GradGroup.reset with cfg := 0x08001000, cfgShadow := 0x08001000 }) 0
      GradGroup.handedOver }

theorem handsOver_regsUp : State.handsOver.regsUp = true := by decide +kernel
theorem handsOver_closed : State.handsOver.phase 0 = .closed := by decide +kernel

/-- The read of the table waits at partition 1's bucket. -/
theorem handsOver_waited : (State.handsOver.part 1).waited = false ∧
    ((State.handsOver.cfgApplyOp 0).part 1).waited = true := by decide +kernel

/-- Refutes O29: in `State.handsOver` CFG_APPLY of partition 0, which is CLOSED, changes partition 1. -/
theorem not_partitionApply : ¬ Obligations.PartitionApply := by
  intro h
  obtain ⟨-, -, -, happly, -⟩ := h State.handsOver .host rfl handsOver_regsUp
  obtain ⟨t, ht, -, -, -, -, -, hothers⟩ := happly 0 handsOver_closed
  obtain rfl : State.handsOver.cfgApplyOp 0 = t := by
    rw [exec_cfgApply, execCfgApply, regWrite_outside rfl handsOver_regsUp] at ht
    exact Host.Outcome.next.inj ht
  obtain ⟨hbefore, hafter⟩ := handsOver_waited
  rw [(hothers 1 (by decide)).1, hbefore] at hafter
  exact absurd hafter (by decide)

end Sys2Proof.Machine
end

section
/-!
SUPPORT. What abandoning latches, choosing a context, asking a bubble context to return and starting a reset leave (R251,
R253, R264, R478, R484).
-/
namespace Sys2Proof.Machine

/-! ### Latches abandoned (R251, R253) -/

@[simp] theorem report_resets (s : State) (r : ErrRec) : (s.report r).faults.resets = s.faults.resets := by
  simp only [State.report, Faults.push]
  split <;> rfl

/-- The state beside its cells and its error records. -/
def State.outside (s : State) : State :=
  { s with cells := Vector.replicate 64 Cell.reset, faults := { Faults.reset with resets := s.faults.resets } }

theorem report_outside (s : State) (r : ErrRec) : (s.report r).outside = s.outside := by
  rw [State.outside, report_resets]; rfl

theorem modCell_outside (s : State) (c : CellId) (f : Cell → Cell) : (s.modCell c f).outside = s.outside := rfl

/-- Releasing the waiters of a latch writes records and ends waits. -/
theorem releaseWaiters_outside (s : State) (c : CellId) (l : BitVec 6) : (s.releaseWaiters c l).outside = s.outside :=
  foldl_keeps State.outside (fun t i => by
    split
    · exact (modCell_outside ..).trans (report_outside ..)
    · rfl) _ s

/-- What the release of a slot's wait leaves of a cell, it leaves of every cell. -/
theorem releaseWaiters_cell_keeps {β : Type} (k : Cell → β)
    (h : ∀ (x : Cell) i l, k (x.modSlot i (·.release l)) = k x) (s : State) (c : CellId) (l : BitVec 6) (d : CellId) :
    k ((s.releaseWaiters c l).cell d) = k (s.cell d) :=
  foldl_keeps (fun t : State => k (t.cell d)) (fun t i => by
    split
    · exact modSlot_cell_keeps k (fun x => h x i l) (t.latchAbandoned ⟨c, i⟩) d
    · rfl) _ s

theorem abandonLatch_outside (s : State) (c : CellId) (l : BitVec 6) : (s.abandonLatch c l).outside = s.outside :=
  releaseWaiters_outside (s.modCell c fun x => x.setLatch l Latch.reset) c l

theorem abandonLatch_cell_keeps {β : Type} (k : Cell → β) (h : ∀ (x : Cell) i l, k (x.modSlot i (·.release l)) = k x)
    (hlatch : ∀ (x : Cell) l, k (x.setLatch l Latch.reset) = k x) (s : State) (c : CellId) (l : BitVec 6) (d : CellId) :
    k ((s.abandonLatch c l).cell d) = k (s.cell d) :=
  (releaseWaiters_cell_keeps k h _ c l d).trans (modCell_cell_keeps k (fun x => hlatch x l) s c d)

/-- An abandoned latch is at reset; the other latches stay. -/
theorem abandonLatch_latch (s : State) (c : CellId) (l m : BitVec 6) :
    ((s.abandonLatch c l).cell c).latch m = if m = l then Latch.reset else (s.cell c).latch m := by
  refine (releaseWaiters_cell_keeps (Cell.latch · m) (by intros; rfl) _ c l c).trans ?_
  simp only [modCell_cell_self]
  split
  · next e => rw [e, setLatch_latch_self]
  · next e => exact setLatch_latch_ne _ _ _ _ (Ne.symm e)

theorem abandonLatches_outside (s : State) (a : At) (keep : Option (BitVec 6)) :
    (s.abandonLatches a keep).outside = s.outside := foldl_keeps State.outside (fun t l => abandonLatch_outside t a.cell l) _ s

theorem abandonLatches_cell_keeps {β : Type} (k : Cell → β) (h : ∀ (x : Cell) i l, k (x.modSlot i (·.release l)) = k x)
    (hlatch : ∀ (x : Cell) l, k (x.setLatch l Latch.reset) = k x) (s : State) (a : At) (keep : Option (BitVec 6))
    (d : CellId) : k ((s.abandonLatches a keep).cell d) = k (s.cell d) :=
  foldl_keeps (fun t : State => k (t.cell d)) (fun t l => abandonLatch_cell_keeps k h hlatch t a.cell l d) _ s

/-- Each latch of a list is at reset once the list is abandoned. -/
theorem foldl_abandonLatch_latch (c : CellId) (m : BitVec 6) : ∀ (l : List (BitVec 6)) (s : State),
    ((l.foldl (fun t l => t.abandonLatch c l) s).cell c).latch m = if m ∈ l then Latch.reset else (s.cell c).latch m
  | [], _ => rfl
  | k :: l, s => by
    rw [List.foldl_cons, foldl_abandonLatch_latch c m l, abandonLatch_latch]
    by_cases hl : m ∈ l <;> by_cases hk : m = k <;> simp [hl, hk]

/-- The general latches a slot owns. -/
theorem mem_ownedBy {x : Cell} {i : SlotId} {l : BitVec 6} :
    l ∈ x.ownedBy i ↔ l.toNat < 60 ∧ (x.latch l).owner.map (·.1) = some i := by
  have hrange : l ∈ (List.range 60).map (BitVec.ofNat 6) ↔ l.toNat < 60 := by
    rw [List.mem_map]
    refine ⟨fun ⟨n, hn, e⟩ => ?_, fun h => ⟨l.toNat, List.mem_range.mpr h, BitVec.ofNat_toNat ..⟩⟩
    rw [List.mem_range] at hn
    rw [← e, BitVec.toNat_ofNat, Nat.mod_eq_of_lt (by omega)]
    exact hn
  rw [Cell.ownedBy, List.mem_filter, hrange]
  cases (x.latch l).owner <;> simp

/-- Of the general latches of a slot only the one kept is left to it. -/
theorem abandonLatches_owner {s : State} {a : At} {keep : Option (BitVec 6)} {l : BitVec 6} (hl : l.toNat < 60)
    (h : (((s.abandonLatches a keep).cell a.cell).latch l).owner.map (·.1) = some a.slot) : keep = some l := by
  rw [State.abandonLatches, foldl_abandonLatch_latch] at h
  split at h
  · exact absurd h (by simp [Latch.reset])
  · next hmem =>
    by_contra hkeep
    exact hmem (List.mem_filter.mpr ⟨mem_ownedBy.mpr ⟨hl, h⟩, by simpa using hkeep⟩)

/-! ### The running context (Table 8-4, R264) -/

/-- A cell whose slot `j` has been chosen to run. -/
def Cell.runs (x : Cell) (j : SlotId) : Cell :=
  { (x.modSlot j (fun y => { y with state := .running })) with running := some j, switch := .none, grace := false }

/-- The foreground slot is chosen where it is READY, else the bubble slot where that is. -/
theorem choose_eq (x : Cell) : x.choose =
    if (x.slot 0).ready then x.runs 0 else if (x.slot 1).ready then x.runs 1
    else { x with running := none, switch := .none, grace := false } := rfl

/-- Choosing a context leaves of a cell what does not depend on its slots and on which of them runs. -/
theorem choose_keeps {β : Type} (k : Cell → β) (h : ∀ (x : Cell) v r w g, k { x with slots := v, running := r, switch := w, grace := g } = k x)
    (x : Cell) : k x.choose = k x := by
  rw [choose_eq]
  split
  · exact h x ..
  · split
    · exact h x ..
    · exact h x x.slots ..

theorem choose_switch (x : Cell) : x.choose.switch = .none := by
  rw [choose_eq]
  split
  · rfl
  · split <;> rfl

/-- A slot stays as it is, or it is the one that runs. -/
theorem choose_slot (x : Cell) (i : SlotId) :
    x.choose.slot i = x.slot i ∨ x.choose.slot i = { x.slot i with state := .running } := by
  have runs : ∀ j, (x.runs j).slot i = x.slot i ∨ (x.runs j).slot i = { x.slot i with state := .running } := fun j => by
    by_cases e : j = i
    · subst e; exact .inr (modSlot_slot_self ..)
    · exact .inl (modSlot_slot_ne _ _ _ _ e)
  rw [choose_eq]
  split
  · exact runs 0
  · split
    · exact runs 1
    · exact .inl rfl

/-- A cell with its grace and the signals on their way as given. -/
def Cell.asked (x : Cell) (g : Bool) (l : List Signal) : Cell := { x with grace := g, signals := l }

theorem asked_slot (x : Cell) (g : Bool) (l : List Signal) (i : SlotId) : (x.asked g l).slot i = x.slot i := rfl

/-- Asking the bubble context to return changes the grace and the signals of the cell. -/
theorem requestReturn_eq (s : State) (c : CellId) : ∃ g l, s.requestReturn c = s.modCell c (·.asked g l) := by
  dsimp only [State.requestReturn]
  split
  · split
    · exact ⟨true, (s.cell c).signals ++ [⟨bfld ((s.cell c).slot 1).ctxCtl 9 6, 1, false, none⟩], by
        rw [State.signal, modCell_modCell]; rfl⟩
    · exact ⟨true, (s.cell c).signals, rfl⟩
  · refine ⟨(s.cell c).grace, (s.cell c).signals, ?_⟩
    show s = s.setCell c (s.cell c)
    simp [State.setCell, State.cell]

/-- The same after a change of a slot, which only the foreground slot's asks for. -/
theorem modSlot_requestReturn_eq (s : State) (c : CellId) (i : SlotId) (f : Slot → Slot) :
    ∃ g l, (if i = 0 then (s.modSlot ⟨c, i⟩ f).requestReturn c else s.modSlot ⟨c, i⟩ f) =
      s.modCell c (fun x => (x.modSlot i f).asked g l) := by
  split
  · obtain ⟨g, l, e⟩ := requestReturn_eq (s.modSlot ⟨c, i⟩ f) c
    exact ⟨g, l, e.trans (modCell_modCell ..)⟩
  · exact ⟨(s.cell c).grace, (s.cell c).signals, rfl⟩

/-! ### Resets started (R478, R484) -/

/-- RESET_STATUS of a reset that starts (R483, R492). -/
def State.resetStatOf (s : State) (lvl : ResetLevel) (cause : BitVec 4) : Word64 :=
  setFld (setFld (if cause = 8 then s.faults.resetStat else setFld s.faults.resetStat 32 32 (s.time.toNat >>> 10)) 29 3 lvl.code)
    25 4 cause.toNat

/-- With no reset in progress a reset starts. -/
theorem startReset_alone {s : State} (h : s.faults.resets = []) (lvl : ResetLevel) (c : CellId) (i : SlotId) (e : BitVec 4)
    (p : PartId) (cause : BitVec 4) : s.startReset lvl c i e p cause = { s with faults := { s.faults with
      resets := [⟨lvl, c, i, e, p, cause, s.time, false, 0⟩], resetStat := s.resetStatOf lvl cause } } := by
  simp only [State.startReset, h]
  rfl

end Sys2Proof.Machine
end

section
/-!
OBLIGATION O26. Context slots: the switch at a yield, waking, choosing, the end of the grace, and CTX_START (R257, R258, R260,
R261, R263, R264, R274).
-/
namespace Sys2Proof.Machine

/-! ### The switch (R260) -/

/-- A cell whose slot `i` has yielded, before the next context is chosen. -/
def Cell.yielded (x : Cell) (i : SlotId) (st : SlotState) : Cell :=
  ((x.modSlot i (fun y => { y with ctx := { Ctx.initial with pc := y.ctx.pc }, state := st })).clearVat).modRegs
    (fun r => { r.resetActive with ctxSwitch := r.ctxSwitch + 1 })

/-- The state in which a yielded context has abandoned its latches. -/
def State.unlatched (s : State) (a : At) : State := s.abandonLatches a (s.slot a).keptLatch

/-- What a yielded context becomes. -/
def State.yieldState (s : State) (a : At) : SlotState :=
  if (s.unlatched a).wakeHolds a.cell ((s.unlatched a).slot a) then .ready else .dormant

/-- What a yield and the choice of the next context leave of the cell. -/
theorem yielded_choose (x : Cell) (i : SlotId) (st : SlotState) :
    let z := (x.yielded i st).choose
    z.vat = ProtMem.empty ∧ z.vatLive = 0 ∧ z.store = x.store ∧ z.regs.ctxSwitch = x.regs.ctxSwitch + 1 ∧
    z.regs.plateCfg = CellRegs.reset.plateCfg ∧ z.regs.epi = CellRegs.reset.epi ∧ z.regs.plateDbg = 0 ∧ z.switch = .none ∧
    ∀ l, z.latch l = x.latch l := by
  have view : ∀ {β : Type} (k : Cell → β),
      (∀ (x : Cell) v r w g, k { x with slots := v, running := r, switch := w, grace := g } = k x) →
      k (x.yielded i st).choose = k (x.yielded i st) := fun k hk => choose_keeps k hk _
  have hregs := view Cell.regs (by intros; rfl)
  refine ⟨view Cell.vat (by intros; rfl), view Cell.vatLive (by intros; rfl), view Cell.store (by intros; rfl), ?_, ?_, ?_, ?_,
    choose_switch _, fun l => view (Cell.latch · l) (by intros; rfl)⟩ <;> rw [hregs] <;> rfl

/-- What they leave of the slot that has yielded. -/
theorem yielded_choose_slot (x : Cell) (i : SlotId) (st : SlotState) :
    let z := (x.yielded i st).choose.slot i
    z.ctx = { Ctx.initial with pc := (x.slot i).ctx.pc } ∧ (z.state = st ∨ z.state = .running) := by
  have hslot : (x.yielded i st).slot i = { x.slot i with ctx := { Ctx.initial with pc := (x.slot i).ctx.pc }, state := st } :=
    modSlot_slot_self ..
  rcases choose_slot (x.yielded i st) i with e | e
  · dsimp only; rw [e, hslot]; exact ⟨rfl, .inl rfl⟩
  · dsimp only; rw [e, hslot]; exact ⟨rfl, .inr rfl⟩

theorem contextSwitch_yield {s : State} {c : CellId} {i : SlotId} (h : (s.cell c).switch = .yield i) :
    exec (.contextSwitch c) s = .next ((s.unlatched ⟨c, i⟩).modCell c
      (fun x => (x.yielded i (s.yieldState ⟨c, i⟩)).choose)) := by
  rw [exec_contextSwitch, execContextSwitch, h]; rfl

theorem contextSwitch_idle {s : State} {c : CellId} (h : (s.cell c).switch = .none) :
    exec (.contextSwitch c) s = .next s := by
  rw [exec_contextSwitch, execContextSwitch, h]

/-- Abandoning latches leaves context, wake condition and store. -/
theorem unlatched_slot (s : State) (a : At) :
    ((s.unlatched a).slot a).ctx = (s.slot a).ctx ∧ ((s.unlatched a).slot a).wake = (s.slot a).wake := by
  have h := abandonLatches_cell_keeps (fun x => ((x.slot a.slot).ctx, (x.slot a.slot).wake)) (fun x i l => by
    by_cases e : i = a.slot
    · subst e
      rw [modSlot_slot_self]
      unfold Slot.release
      split
      · split <;> rfl
      · rfl
    · rw [modSlot_slot_ne _ _ _ _ e]) (fun _ _ => rfl) s a (s.slot a).keptLatch a.cell
  exact Prod.ext_iff.mp h

/-- A context without a wake condition is READY again (R261). -/
theorem yieldState_ready {s : State} {a : At} (h : (s.slot a).wake = .none) : s.yieldState a = .ready := by
  have hwake := (unlatched_slot s a).2.trans h
  rw [State.yieldState, State.wakeHolds, hwake]
  rfl

theorem yieldState_cases (s : State) (a : At) : s.yieldState a = .ready ∨ s.yieldState a = .dormant := by
  unfold State.yieldState
  split
  · exact .inl rfl
  · exact .inr rfl

/-- A latch kept through a yield is the wake latch. -/
theorem keptLatch_eq {y : Slot} {l : BitVec 6} (h : y.keptLatch = some l) : y.wake = .latch l := by
  unfold Slot.keptLatch at h
  split at h
  · next k e => rw [e, Option.some.inj h]
  · cases h

/-! ### Starting a context (R258) -/

theorem ctxStart_outside {s : State} {b : Requester} (hb : ∀ d j, b ≠ .ctx d j) (h : s.regsUp = true) (c : CellId)
    (i : SlotId) (v : Word64) : exec (.ctxStart b c i v) s = .next (s.ctxStartOp c i v) := by
  have hout : isCtx b = false := by
    cases b with
    | ctx d j => exact absurd rfl (hb d j)
    | host => rfl
    | mgmt => rfl
  rw [exec_ctxStart, execCtxStart, regWrite_outside hout h]

/-- A start that is not refused fills its slot, and may ask the bubble context to return. -/
theorem ctxStartOp_starts {s : State} {c : CellId} {i : SlotId} {v : Word64} (hgo : bit v 20 = true)
    (h : s.startRefused c i v = false) :
    ∃ g l, s.ctxStartOp c i v = s.modCell c (fun x => (x.modSlot i (·.started i v)).asked g l) := by
  obtain ⟨g, l, e⟩ := modSlot_requestReturn_eq s c i (·.started i v)
  refine ⟨g, l, Eq.trans ?_ e⟩
  rw [State.ctxStartOp, if_neg (by simp [hgo]), if_neg (by simp [h])]

/-- A start that is refused, or with GO 0, leaves the cells. -/
theorem ctxStartOp_refused {s : State} {c : CellId} {i : SlotId} {v : Word64}
    (h : bit v 20 = false ∨ s.startRefused c i v = true) : (s.ctxStartOp c i v).cells = s.cells := by
  unfold State.ctxStartOp
  split
  · rfl
  · next hgo => rw [if_pos (h.resolve_left hgo)]; rfl

/-- What a start that is not refused has found (R258). -/
theorem startRefused_false {s : State} {c : CellId} {i : SlotId} {v : Word64} (h : s.startRefused c i v = false) :
    (s.slot ⟨c, i⟩).state = .empty ∧ (s.cell c).inPart i (startEntry v) 8 = true ∧ s.partOf c ≠ none := by
  simp only [State.startRefused, Bool.or_eq_false_iff, bne_eq_false_iff_eq, Bool.not_eq_false'] at h
  obtain ⟨⟨⟨hempty, -⟩, hpart⟩, hheld⟩ := h
  exact ⟨hempty, hpart, fun hnone => by rw [hnone] at hheld; cases hheld⟩

/-! ### The statement -/

/-- What CONTEXT_SWITCH leaves of a context that has yielded. -/
theorem contextSwitch_leaves {s : State} {c : CellId} {i : SlotId} (h : (s.cell c).switch = .yield i) :
    Completes (.contextSwitch c) s (fun t =>
      let z := t.cell c
      (t.slot ⟨c, i⟩).ctx = { Ctx.initial with pc := (s.slot ⟨c, i⟩).ctx.pc } ∧ z.vat = ProtMem.empty ∧ z.vatLive = 0 ∧
      z.store = (s.cell c).store ∧ z.regs.ctxSwitch = (s.cell c).regs.ctxSwitch + 1 ∧
      z.regs.plateCfg = CellRegs.reset.plateCfg ∧ z.regs.epi = CellRegs.reset.epi ∧ z.regs.plateDbg = 0 ∧
      z.switch = .none ∧
      ((t.slot ⟨c, i⟩).state = .dormant ∨ (t.slot ⟨c, i⟩).state = .ready ∨ (t.slot ⟨c, i⟩).state = .running) ∧
      ((s.slot ⟨c, i⟩).wake = .none → (t.slot ⟨c, i⟩).state ≠ .dormant) ∧
      (∀ l : BitVec 6, l.toNat < 60 → (z.latch l).owner.map (·.1) = some i → (s.slot ⟨c, i⟩).wake = .latch l) ∧
      t.mem = s.mem) := by
  refine ⟨_, contextSwitch_yield h, ?_⟩
  have hkeep : ∀ {β : Type} (k : Cell → β), (∀ x i l, k (Cell.modSlot x i (·.release l)) = k x) →
      (∀ x l, k (Cell.setLatch x l Latch.reset) = k x) → k ((s.unlatched ⟨c, i⟩).cell c) = k (s.cell c) :=
    fun k h1 h2 => abandonLatches_cell_keeps k h1 h2 s ⟨c, i⟩ _ c
  obtain ⟨hvat, hlive, hstore, hcount, hcfg, hepi, hdbg, hswitch, hlatch⟩ :=
    yielded_choose ((s.unlatched ⟨c, i⟩).cell c) i (s.yieldState ⟨c, i⟩)
  obtain ⟨hctx, hstate⟩ := yielded_choose_slot ((s.unlatched ⟨c, i⟩).cell c) i (s.yieldState ⟨c, i⟩)
  dsimp only [State.slot]
  rw [modCell_cell_self]
  refine ⟨?_, hvat, hlive, ?_, ?_, hcfg, hepi, hdbg, hswitch, ?_, fun hwake => ?_, fun l hl howner => ?_, ?_⟩
  · rw [hctx]
    exact congrArg (fun x : Ctx => { Ctx.initial with pc := x.pc }) (unlatched_slot s ⟨c, i⟩).1
  · exact hstore.trans (hkeep Cell.store (by intros; rfl) (by intros; rfl))
  · rw [hcount, hkeep Cell.regs (by intros; rfl) (by intros; rfl)]
  · rcases hstate with e | e <;> rw [e]
    · exact (yieldState_cases s ⟨c, i⟩).elim (fun e => .inr (.inl e)) .inl
    · exact .inr (.inr rfl)
  · have hready : s.yieldState ⟨c, i⟩ = .ready := yieldState_ready hwake
    rcases hstate with e | e <;> rw [e]
    · rw [hready]; decide
    · decide
  · rw [hlatch] at howner
    exact keptLatch_eq (abandonLatches_owner hl howner)
  · exact (congrArg State.mem (abandonLatches_outside s ⟨c, i⟩ (s.slot ⟨c, i⟩).keptLatch) :)

/-- CONTEXT_WAKE of a DORMANT context whose condition holds (R261, R264). -/
theorem contextWake_wakes {s : State} {c : CellId} {i : SlotId} (hdorm : (s.slot ⟨c, i⟩).state = .dormant)
    (hwake : s.wakeHolds c (s.slot ⟨c, i⟩) = true) : ∃ g l, exec (.contextWake c i) s =
      .next (s.modCell c (fun x => (x.modSlot i (fun y => { y with state := .ready })).asked g l)) := by
  obtain ⟨g, l, e⟩ := modSlot_requestReturn_eq s c i (fun y => { y with state := .ready })
  exact ⟨g, l, (if_pos ⟨hdorm, hwake⟩).trans (congrArg _ e)⟩

/-- CONTEXT_RUN_START runs the context that is chosen (Table 8-4). -/
theorem contextRunStart_chooses {s : State} {c : CellId} (hrun : (s.cell c).running = none)
    (hswitch : (s.cell c).switch = .none) : exec (.contextRunStart c) s = .next (s.setCell c (s.cell c).choose) :=
  if_pos ⟨hrun, hswitch⟩

/-- The record of a bubble context that overruns its grace, and its context reset. -/
theorem graceExpiry_resets {s : State} {c : CellId} (hg : (s.cell c).grace = true) (hrun : (s.cell c).running = some 1)
    (hswitch : (s.cell c).switch = .none) :
    ∃ r, exec (.graceExpiry c) s = .next ((s.report r).startReset .context c 1 0 0 0x5) :=
  ⟨_, if_pos ⟨hg, hrun, hswitch⟩⟩

/-- Settles O26: `contextSwitch_leaves`, the waking and choosing of contexts, and starts by `ctxStartOp_starts`. -/
theorem contextSwitchesAndStarts : Obligations.ContextSwitchesAndStarts := by
  refine ⟨fun s c i => ⟨contextSwitch_leaves, contextSwitch_idle, fun hdorm hwake => ?_, fun hno => ?_, fun hrun hsw =>
    ⟨fun h0 => ?_, fun h0 h1 => ?_⟩, fun hrun => ?_, fun hg hrun hsw => ?_, fun hg => ?_⟩, fun s c i v b hb hup =>
    ⟨fun hgo hok => ?_, fun hno => ⟨_, ctxStart_outside hb hup c i v, ctxStartOp_refused hno⟩, startRefused_false⟩⟩
  · obtain ⟨g, l, e⟩ := contextWake_wakes hdorm hwake
    refine ⟨_, e, ?_⟩
    dsimp only [State.slot]
    rw [modCell_cell_self, asked_slot, modSlot_slot_self]
    exact ⟨rfl, rfl, rfl, rfl⟩
  · rw [exec_contextWake]
    exact if_neg fun ⟨hd, hw⟩ => hno.elim (· hd) (by simp [hw])
  · rw [contextRunStart_chooses hrun hsw, choose_eq, if_pos (show ((s.cell c).slot 0).ready = true from h0)]
    rfl
  · rw [contextRunStart_chooses hrun hsw, choose_eq, if_neg (show ¬ ((s.cell c).slot 0).ready = true from Bool.eq_false_iff.mp h0),
      if_pos (show ((s.cell c).slot 1).ready = true from h1)]
    rfl
  · rw [exec_contextRunStart]
    exact if_neg fun h => hrun h.1
  · obtain ⟨r, e⟩ := graceExpiry_resets hg hrun hsw
    exact ⟨_, e, startReset_cells .., startReset_mem .., fun hnone =>
      ⟨_, by rw [startReset_alone ((report_resets ..).trans hnone)], rfl, rfl, rfl, rfl⟩⟩
  · rw [exec_graceExpiry]
    exact if_neg fun h => by rw [hg] at h; cases h.1
  · obtain ⟨g, l, e⟩ := ctxStartOp_starts hgo hok
    refine ⟨_, (ctxStart_outside hb hup c i v).trans (congrArg _ e), ?_⟩
    dsimp only [State.slot]
    rw [modCell_cell_self, asked_slot, modSlot_slot_self]
    exact ⟨rfl, rfl, rfl, rfl, rfl, rfl, rfl, rfl, rfl, rfl,
      fun j hj => by rw [asked_slot, modSlot_slot_ne _ _ _ _ (Ne.symm hj)],
      fun d hd => modCell_cell_ne _ _ _ _ (Ne.symm hd), rfl⟩

end Sys2Proof.Machine
end

section
/-!
SUPPORT. What the work of resets never undoes (R270, R479): it leaves stacked memory, the resets in progress and the counters of
every step, and a slot that is EMPTY and latches that are reset stay so.
-/
namespace Sys2Proof.Machine

/-- No partition is in FIX under a commit verdict, so none leaves its persistent pages undefined (R61). -/
def State.calm (s : State) : Prop := ∀ p, s.phase p = .fix → (s.stepOf p).commit = false

/-- Every latch of a cell is at reset. -/
def Cell.latchesReset (x : Cell) : Prop := ∀ l, vget x.latches l = Latch.reset

/-- A cell goes on to one whose EMPTY slots are EMPTY, and whose latches are reset if they were. -/
structure Cell.Recedes (x y : Cell) : Prop where
  empty : ∀ i, (x.slot i).state = .empty → (y.slot i).state = .empty
  latches : x.latchesReset → y.latchesReset

/-- A step goes on with its counters, and not into FIX under a commit verdict. -/
structure Step.Recedes (x y : Step) : Prop where
  counts : y.index = x.index ∧ y.updateCount = x.updateCount
  calm : (x.phase = .fix → x.commit = false) → y.phase = .fix → y.commit = false

/-- A state goes on so, with its memory, which holds while every partition is calm, and with its resets. -/
structure State.Recedes (s t : State) : Prop where
  cell : ∀ c, (s.cell c).Recedes (t.cell c)
  step : ∀ p, (s.stepOf p).Recedes (t.stepOf p)
  resets : t.faults.resets = s.faults.resets
  mem : s.calm → t.mem = s.mem

/-! ### Cells and steps -/

theorem Cell.Recedes.refl (x : Cell) : x.Recedes x := ⟨fun _ h => h, id⟩

theorem Cell.Recedes.trans {x y z : Cell} (h : x.Recedes y) (h' : y.Recedes z) : x.Recedes z :=
  ⟨fun i hi => h'.empty i (h.empty i hi), fun hl => h'.latches (h.latches hl)⟩

/-- A change that leaves the slots. -/
theorem Cell.Recedes.of_slots {x y : Cell} (hslots : y.slots = x.slots) (hlatches : x.latchesReset → y.latchesReset) :
    x.Recedes y := ⟨fun i h => by rw [Cell.slot, hslots]; exact h, hlatches⟩

/-- A change of neither slots nor latches. -/
theorem Cell.Recedes.of_eq {x y : Cell} (hslots : y.slots = x.slots) (hlatches : y.latches = x.latches) : x.Recedes y :=
  .of_slots hslots fun h l => by rw [hlatches]; exact h l

/-- A change of a slot that leaves it EMPTY if it was. -/
theorem Cell.Recedes.modSlot (x : Cell) (i : SlotId) {f : Slot → Slot} (h : (x.slot i).state = .empty → (f (x.slot i)).state = .empty) :
    x.Recedes (x.modSlot i f) := by
  refine ⟨fun j hj => ?_, id⟩
  by_cases e : i = j
  · subst e; rw [modSlot_slot_self]; exact h hj
  · rw [modSlot_slot_ne _ _ _ _ e]; exact hj

/-- A latch is reset. -/
theorem Cell.Recedes.setLatch (x : Cell) (l : BitVec 6) : x.Recedes (x.setLatch l Latch.reset) := by
  refine .of_slots rfl fun h k => ?_
  by_cases e : l.toFin = k
  · rw [← e]; exact vget_vset_self ..
  · exact (vget_vset_ne _ _ _ _ e).trans (h k)

/-- A cell whose step latches have lost their counts. -/
def Cell.stepCountsLost (x : Cell) : Cell :=
  { x with latches := Vector.ofFn (fun (l : Fin 64) =>
      if 60 ≤ l.val then { vget x.latches l with count := 0 } else vget x.latches l) }

theorem stepCountsLost_slots (x : Cell) : x.stepCountsLost.slots = x.slots := by simp only [Cell.stepCountsLost]

theorem stepCountsLost_latch (x : Cell) (k : Fin 64) : vget x.stepCountsLost.latches k =
    if 60 ≤ k.val then { vget x.latches k with count := 0 } else vget x.latches k := by
  simp only [Cell.stepCountsLost, vget, Vector.getElem_ofFn]

theorem Cell.Recedes.stepCountsLost (x : Cell) : x.Recedes x.stepCountsLost :=
  .of_slots (stepCountsLost_slots x) fun h k => by
    rw [stepCountsLost_latch, h k]
    split <;> rfl

theorem Step.Recedes.refl (x : Step) : x.Recedes x := ⟨⟨rfl, rfl⟩, id⟩

theorem Step.Recedes.trans {x y z : Step} (h : x.Recedes y) (h' : y.Recedes z) : x.Recedes z :=
  ⟨⟨h'.counts.1.trans h.counts.1, h'.counts.2.trans h.counts.2⟩, fun hx => h'.calm (h.calm hx)⟩

/-! ### States -/

theorem State.Recedes.calm {s t : State} (h : s.Recedes t) (hs : s.calm) : t.calm := fun p => (h.step p).calm (hs p)

theorem State.Recedes.refl (s : State) : s.Recedes s := ⟨fun _ => .refl _, fun _ => .refl _, rfl, fun _ => rfl⟩

theorem State.Recedes.trans {s t u : State} (h : s.Recedes t) (h' : t.Recedes u) : s.Recedes u :=
  ⟨fun c => (h.cell c).trans (h'.cell c), fun p => (h.step p).trans (h'.step p), h'.resets.trans h.resets,
    fun hs => (h'.mem (h.calm hs)).trans (h.mem hs)⟩

theorem State.Recedes.foldl {α : Type} {f : State → α → State} (h : ∀ (t : State) a, t.Recedes (f t a)) (l : List α) (s : State) :
    s.Recedes (l.foldl f s) :=
  List.foldlRecOn l f (motive := State.Recedes s) (.refl s) fun t ht a _ => ht.trans (h t a)

/-- A change beside cells, steps, resets and memory. -/
theorem State.Recedes.of_eq {s t : State} (hcells : t.cells = s.cells) (hsteps : t.steps = s.steps)
    (hresets : t.faults.resets = s.faults.resets) (hmem : s.calm → t.mem = s.mem) : s.Recedes t := by
  refine ⟨fun c => ?_, fun p => ?_, hresets, hmem⟩
  · rw [State.cell, State.cell, hcells]; exact .refl _
  · rw [State.stepOf, State.stepOf, hsteps]; exact .refl _

theorem State.Recedes.report (s : State) (r : ErrRec) : s.Recedes (s.report r) := .of_eq rfl rfl (report_resets ..) fun _ => rfl

theorem State.Recedes.modCell (s : State) (c : CellId) {f : Cell → Cell} (h : ∀ x : Cell, x.Recedes (f x)) :
    s.Recedes (s.modCell c f) := by
  refine ⟨fun d => ?_, fun _ => .refl _, rfl, fun _ => rfl⟩
  by_cases e : c = d
  · subst e; rw [modCell_cell_self]; exact h _
  · rw [modCell_cell_ne _ _ _ _ e]; exact .refl _

theorem State.Recedes.modStep (s : State) (p : PartId) {f : Step → Step} (h : (s.stepOf p).Recedes (f (s.stepOf p))) :
    s.Recedes (s.modStep p f) := by
  refine ⟨fun _ => .refl _, fun q => ?_, rfl, fun _ => rfl⟩
  by_cases e : p = q
  · subst e; rw [modStep_stepOf_self]; exact h
  · rw [modStep_stepOf_ne _ _ _ _ e]; exact .refl _

/-! ### Aborts and faults -/

/-- With no partition in FIX under a commit verdict no page becomes undefined (R61). -/
theorem undefinePages_calm {s : State} (h : s.calm) (p : PartId) : s.undefinePages p = s :=
  if_neg fun ⟨hfix, hcommit⟩ => by rw [h p hfix] at hcommit; cases hcommit

theorem undefinePages_recedes (s : State) (p : PartId) : s.Recedes (s.undefinePages p) := by
  have keeps : ∀ {β : Type} (k : State → β), (∀ t a n, k (State.undefineDram t a n) = k t) → k (s.undefinePages p) = k s :=
    fun k hk => by
      unfold State.undefinePages
      split
      · exact foldl_keeps k (fun t a => hk t a _) _ s
      · rfl
  exact .of_eq (keeps State.cells fun _ _ _ => rfl) (keeps State.steps fun _ _ _ => rfl)
    (keeps (fun t => t.faults.resets) fun _ _ _ => rfl) fun h => by rw [undefinePages_calm h]

/-- A status word whose PHASE is written holds it. -/
theorem phase_of_fld {t : Step} {n : Nat} (h : fld t.status 0 3 = n) : t.phase = StepPhase.ofCode n := by rw [Step.phase, h]

theorem abort_recedes (s : State) (p : PartId) (cause : Nat) : s.Recedes (s.abort p cause) := by
  unfold State.abort
  split
  · exact .refl s
  · exact .refl s
  · refine ((undefinePages_recedes s p).trans (.modStep _ p ⟨⟨rfl, rfl⟩, fun _ hfix => ?_⟩)).trans (.report ..)
    rw [phase_of_fld (n := 4) (by
      rw [fld_setFld_ne _ _ _ _ _ _ (by decide), fld_setFld_self _ _ _ _ (by decide)]; rfl)] at hfix
    cases hfix

theorem faulted_state (x : Slot) (src : Src) (code : Byte) (t : Tag) : (x.faulted src code t).state = x.state := by
  unfold Slot.faulted
  split
  · dsimp only; split <;> rfl
  · rfl

theorem release_state (x : Slot) (l : BitVec 6) : (x.release l).state = x.state := by
  unfold Slot.release
  split
  · split <;> rfl
  · rfl

theorem instrFault_recedes (s : State) (c : CellId) (t : Tag) (src : Src) (code : Byte) (ad : Word64) :
    s.Recedes (s.instrFault c t src code ad) := by
  dsimp only [State.instrFault, State.instrFaultSyn]
  have hnoted : ∀ r, s.Recedes ((s.report r).modCell c fun x => x.modRegs (·.noteFault src code)) := fun r =>
    (State.Recedes.report s r).trans (.modCell _ c fun _ => .of_eq rfl rfl)
  split
  · refine (hnoted _).trans (.modCell _ c fun x =>
      .trans (.modSlot x t.slot (f := (·.faulted src code t)) fun h => ?_) (.of_eq rfl rfl))
    rw [faulted_state]; exact h
  · exact hnoted _

/-! ### Latches -/

theorem releaseWaiters_recedes (s : State) (c : CellId) (l : BitVec 6) : s.Recedes (s.releaseWaiters c l) :=
  State.Recedes.foldl (f := fun t i =>
      if ((t.cell c).slot i).waitsOn l then (t.latchAbandoned ⟨c, i⟩).modSlot ⟨c, i⟩ (·.release l) else t)
    (fun t i => by
      split
      · refine (State.Recedes.report t _).trans (.modCell _ c fun x => .modSlot x i fun h => ?_)
        rw [release_state]; exact h
      · exact .refl t) _ s

theorem abandonLatches_recedes (s : State) (a : At) (keep : Option (BitVec 6)) : s.Recedes (s.abandonLatches a keep) :=
  State.Recedes.foldl (fun t l => (State.Recedes.modCell t a.cell fun x => .setLatch x l).trans (releaseWaiters_recedes ..)) _ s

/-- A held lead cell is released, and its partition aborted. -/
theorem releaseLead_recedes (s : State) (c : CellId) (p : PartId) (k : Nat) :
    s.Recedes (((s.latchAbandoned ⟨c, 0⟩).modCell c
      (fun y => { (y.modSlot 0 Slot.retire) with regs := { y.regs with stall := 0 } })).abort p k) := by
  have hretire : ∀ x : Cell, x.Recedes (x.modSlot 0 Slot.retire) := fun x => .modSlot x 0 fun h => h
  refine ((State.Recedes.report s _).trans (.modCell _ c fun x => (hretire x).trans ?_)).trans (abort_recedes ..)
  exact .of_eq rfl rfl

/-- The step latches of a partition are abandoned. -/
theorem abandonStep_recedes (s : State) (p : PartId) : s.Recedes (s.abandonStep p) := by
  unfold State.abandonStep
  split
  · exact .refl s
  refine (State.Recedes.modStep s p ⟨⟨rfl, rfl⟩, id⟩).trans (.foldl (fun t c => ?_) _ _)
  extract_lets u
  have hu : t.Recedes u := (releaseWaiters_recedes t c 62).trans (.modCell _ c .stepCountsLost)
  clear_value u
  split
  · exact ((hu.trans (.report u _)).trans (instrFault_recedes _ c _ _ _ _)).trans (abort_recedes _ p 3)
  · split
    · exact hu.trans (releaseLead_recedes u c p 3)
    · exact hu
  · split
    · exact hu.trans (releaseLead_recedes u c p 3)
    · exact hu
  · exact hu

/-! ### Work of a context cancelled (R479) -/

theorem dropXfer_recedes (s : State) (c : CellId) (i : Fin 8) : s.Recedes (s.dropXfer c i) := .of_eq rfl rfl rfl fun _ => rfl

theorem modXfer_recedes (s : State) (c : CellId) (i : Fin 8) (f : DmRun → DmRun) : s.Recedes (s.modXfer c i f) := by
  unfold State.modXfer
  split
  · exact .refl s
  · exact .modCell s c fun _ => .of_eq rfl rfl

theorem cancelXfers_recedes (s : State) (a : At) : s.Recedes (s.cancelXfers a) := by
  unfold State.cancelXfers
  refine .foldl (fun t i => ?_) _ s
  split
  · exact .refl t
  · split
    · exact (dropXfer_recedes ..).trans (modXfer_recedes ..)
    · exact .refl t

theorem cancelCl_recedes (s : State) (a : At) : s.Recedes (s.cancelCl a) := by
  unfold State.cancelCl
  extract_lets mine waiting coll s1
  have hcoll : s.Recedes s1 := .of_eq rfl rfl rfl fun _ => rfl
  exact hcoll.trans (.modCell s1 a.cell fun _ => .of_eq rfl rfl)

/-- The slot that is reset is EMPTY; the others stay. -/
theorem resetSlot_slot (x : Cell) (i : SlotId) (cause : BitVec 4) :
    (x.resetSlot i cause).slots = (x.modSlot i (·.afterReset cause)).slots ∧ (x.resetSlot i cause).latches = x.latches := by
  unfold Cell.resetSlot
  dsimp only
  split
  · exact ⟨rfl, rfl⟩
  · split <;> exact ⟨rfl, rfl⟩

theorem resetSlot_recedes (x : Cell) (i : SlotId) (cause : BitVec 4) : x.Recedes (x.resetSlot i cause) := by
  obtain ⟨hslots, hlatches⟩ := resetSlot_slot x i cause
  exact (Cell.Recedes.modSlot x i fun _ => rfl).trans (.of_eq hslots hlatches)

theorem resetSlot_empty (x : Cell) (i : SlotId) (cause : BitVec 4) : ((x.resetSlot i cause).slot i).state = .empty := by
  rw [Cell.slot, (resetSlot_slot x i cause).1]
  exact congrArg Slot.state (modSlot_slot_self ..)

/-- The slot of a context reset with its work cancelled, before its latches are abandoned. -/
def State.cancelled (s : State) (a : At) (cause : BitVec 4) : State :=
  ((s.cancelXfers a).cancelCl a).modCell a.cell (fun x => x.resetSlot a.slot cause)

/-- After it latches, and for a foreground context the step, are abandoned. -/
theorem resetContext_cancelled (s : State) (a : At) (cause : BitVec 4) :
    s.resetContext a cause = s ∧ (s.slot a).state = .empty ∨ (s.cancelled a cause).Recedes (s.resetContext a cause) := by
  unfold State.resetContext
  split
  · next h => exact .inl ⟨rfl, h⟩
  · have hleft := abandonLatches_recedes (s.cancelled a cause) a none
    refine .inr ?_
    dsimp only
    split
    · split
      · exact (hleft.trans (abandonStep_recedes ..)).trans (abort_recedes ..)
      · exact hleft
    · exact hleft

theorem resetContext_recedes (s : State) (a : At) (cause : BitVec 4) : s.Recedes (s.resetContext a cause) := by
  rcases resetContext_cancelled s a cause with ⟨h, -⟩ | h
  · rw [h]; exact .refl s
  · exact (((cancelXfers_recedes s a).trans (cancelCl_recedes _ a)).trans (.modCell _ _ fun _ => resetSlot_recedes ..)).trans h

theorem resetContext_empty (s : State) (a : At) (cause : BitVec 4) : ((s.resetContext a cause).slot a).state = .empty := by
  rcases resetContext_cancelled s a cause with ⟨h, he⟩ | h
  · rw [h]; exact he
  · refine (h.cell a.cell).empty a.slot ?_
    rw [State.cancelled, modCell_cell_self]
    exact resetSlot_empty ..

/-! ### Both slots of a cell -/

/-- Both slots of a cell reset, and what its transfers still have waiting dropped. -/
def State.resetSlots (s : State) (c : CellId) (cause : BitVec 4) : State :=
  (s.resetContext ⟨c, 0⟩ cause).resetContext ⟨c, 1⟩ cause

theorem resetSlots_recedes (s : State) (c : CellId) (cause : BitVec 4) : s.Recedes (s.resetSlots c cause) :=
  (resetContext_recedes ..).trans (resetContext_recedes ..)

theorem resetSlots_empty (s : State) (c : CellId) (cause : BitVec 4) (i : SlotId) :
    (((s.resetSlots c cause).cell c).slot i).state = .empty := by
  match i with
  | 0 => exact ((resetContext_recedes ..).cell c).empty 0 (resetContext_empty s ⟨c, 0⟩ cause)
  | 1 => exact resetContext_empty _ ⟨c, 1⟩ cause

theorem resetEngine_recedes (x : Cell) (e : BitVec 4) : x.Recedes (x.resetEngine e) := by
  unfold Cell.resetEngine
  dsimp only
  split <;> exact .of_eq rfl rfl

/-- An engine reset before it resets the engine. -/
theorem resetCellEngine_eq (s : State) (c : CellId) (e : BitVec 4) : ∃ t, (s.resetSlots c 2).Recedes t ∧
    s.resetCellEngine c e = t.modCell c (fun x => x.resetEngine e) := by
  refine ⟨_, ?_, rfl⟩
  split
  · exact .foldl (fun t i => dropXfer_recedes t c i) _ _
  · exact .refl _

/-- A cell whose slots are EMPTY and whose latches are reset. -/
def Cell.cleared (x : Cell) : Prop := (∀ i, (x.slot i).state = .empty) ∧ x.latchesReset

theorem Cell.Recedes.cleared {x y : Cell} (h : x.Recedes y) (hx : x.cleared) : y.cleared :=
  ⟨fun i => h.empty i (hx.1 i), h.latches hx.2⟩

/-- The cell of a partition reset once its slots are EMPTY: its engines idle, its latches reset. -/
def Cell.partReset (x : Cell) : Cell :=
  let y := (([1, 2, 3, 0] : List (BitVec 4)).foldl Cell.resetEngine x).modRegs (·.resetActive)
  { y with
    latches := Vector.replicate 64 Latch.reset, stopBits := 0, frozen := false
    slots := y.slots.map (fun (z : Slot) => { z with
      ctxFault := 0, ctxCtl := 0, wakeTime := 0, grain := { z.grain with seeded := false, seqSlot := 0 } }) }

theorem partReset_latches (x : Cell) : x.partReset.latches = Vector.replicate 64 Latch.reset := rfl

theorem partReset_recedes (x : Cell) : x.Recedes x.partReset := by
  have h : x.Recedes (([1, 2, 3, 0] : List (BitVec 4)).foldl Cell.resetEngine x) :=
    List.foldlRecOn (motive := Cell.Recedes x) _ _ (.refl x) fun y hy e _ => hy.trans (resetEngine_recedes y e)
  refine ⟨fun i hi => ?_, fun _ l => ?_⟩
  · rw [Cell.partReset, Cell.slot, vget_map]
    exact h.empty i hi
  · rw [partReset_latches]; simp [vget]

/-- What a partition reset leaves of a cell (R270). -/
theorem resetPartCell_leaves (s : State) (c : CellId) : s.Recedes (s.resetPartCell c) ∧ ((s.resetPartCell c).cell c).cleared := by
  obtain ⟨t, ht, e⟩ : ∃ t, (s.resetSlots c 4).Recedes t ∧ s.resetPartCell c = t.modCell c Cell.partReset :=
    ⟨_, .foldl (fun t i => dropXfer_recedes t c i) (allFin 8) _, rfl⟩
  rw [e]
  refine ⟨((resetSlots_recedes s c 4).trans ht).trans (.modCell t c partReset_recedes), ?_⟩
  rw [modCell_cell_self]
  refine ⟨fun i => (partReset_recedes _).empty i ((ht.cell c).empty i (resetSlots_empty s c 4 i)), fun l => ?_⟩
  rw [partReset_latches]; simp [vget]

/-- Each cell of a list is cleared once each has been reset. -/
theorem foldl_resetPartCell_cleared (l : List CellId) (s : State) {c : CellId} (h : c ∈ l) :
    ((l.foldl State.resetPartCell s).cell c).cleared := by
  obtain ⟨l1, l2, rfl⟩ := List.append_of_mem h
  rw [List.foldl_append, List.foldl_cons]
  exact ((State.Recedes.foldl (fun t d => (resetPartCell_leaves t d).1) l2 _).cell c).cleared (resetPartCell_leaves _ c).2

end Sys2Proof.Machine
end

section
/-!
SUPPORT. Resets asked for, carried out and completed (R478 to R484, R491, R492): one rule for each clause of the reset ladder.
-/
namespace Sys2Proof.Machine

/-! ### Resets asked for (R478, R480) -/

/-- A write of the host or the management path to an AUX register has its effect where the register ring is whole. -/
theorem auxWrite_outside {s : State} {b : Requester} (hb : isCtx b = false) (h : s.ringWhole = true) (f : State → State) :
    s.auxWrite b f = .next (f s) := by
  have go : s.ringReaches b 5 = true := ringReaches_whole h b 5
  cases b with
  | ctx c i => simp [isCtx] at hb
  | host => simp only [State.auxWrite, go, if_true]
  | mgmt => simp only [State.auxWrite, go, if_true]

/-- The state has one reset in progress, just started, and RESET_STATUS shows its level and cause (Table 15-11). -/
def State.Started (s : State) (r : Reset) (t : State) : Prop :=
  t = { s with faults := t.faults } ∧ t.faults.resets = [r] ∧ t.faults.queues = s.faults.queues ∧
  fld t.faults.resetStat 29 3 = r.level.code ∧ fld t.faults.resetStat 25 4 = r.cause.toNat

theorem startReset_started {s : State} (h : s.faults.resets = []) (lvl : ResetLevel) (c : CellId) (i : SlotId) (e : BitVec 4)
    (p : PartId) (cause : BitVec 4) :
    s.Started ⟨lvl, c, i, e, p, cause, s.time, false, 0⟩ (s.startReset lvl c i e p cause) := by
  rw [startReset_alone h]
  refine ⟨rfl, rfl, rfl, ?_, ?_⟩
  · show fld (s.resetStatOf lvl cause) 29 3 = lvl.code
    rw [State.resetStatOf, fld_setFld_ne _ _ _ _ _ _ (by decide), fld_setFld_self _ _ _ _ (by decide)]
    cases lvl <;> rfl
  · show fld (s.resetStatOf lvl cause) 25 4 = cause.toNat
    rw [State.resetStatOf, fld_setFld_self _ _ _ _ (by decide), Nat.mod_eq_of_lt cause.isLt]

/-- WAIT_LIMIT of a sy.wait with the limit enabled: its record, and a context reset (R476). -/
theorem waitLimit_resets {s : State} {a : At} {l : BitVec 6} {m : Word32} {n : BitVec 5} (hw : (s.slot a).wait = .latch l m n)
    (hlimit : fld s.faults.faultCfg 48 16 ≠ 0) :
    ∃ r, exec (.waitLimit a) s = .next ((s.report r).startReset .context a.cell a.slot 0 0 4) := by
  rw [exec_waitLimit, execWaitLimit, hw]
  exact ⟨_, if_neg hlimit⟩

/-- With the limit at 0 nothing happens. -/
theorem waitLimit_off {s : State} {a : At} (h : fld s.faults.faultCfg 48 16 = 0) : exec (.waitLimit a) s = .next s := by
  rw [exec_waitLimit, execWaitLimit]
  split
  · exact if_pos h
  · rfl

theorem stopHoldExpiry_off {s : State} (h : s.autoReset = false) (a : At) : exec (.stopHoldExpiry a) s = .next s := by
  rw [exec_stopHoldExpiry]; exact if_neg (by simp [h])

theorem abortHoldExpiry_off {s : State} (h : s.autoReset = false) (p : PartId) : exec (.abortHoldExpiry p) s = .next s := by
  rw [exec_abortHoldExpiry]; exact if_neg (by simp [h])

/-! ### Resets carried out -/

/-- The reset of its level that is the only one in progress and not carried out is the one that is carried out. -/
theorem pendingReset_alone {s : State} {r : Reset} (h : s.faults.resets = [r]) (hdone : r.done = false) {lvl : ResetLevel}
    (hlvl : r.level = lvl) {f : Reset → Bool} (hf : f r = true) : s.pendingReset lvl f = some r := by
  rw [State.pendingReset, h]
  simp [hlvl, hdone, hf]

theorem pendingReset_none {s : State} (h : s.faults.resets = []) (lvl : ResetLevel) (f : Reset → Bool) :
    s.pendingReset lvl f = none := by rw [State.pendingReset, h]; rfl

theorem resetDone_alone {s : State} {r : Reset} (h : s.faults.resets = [r]) :
    (s.resetDone r).faults.resets = [{ r with done := true }] := by
  show s.faults.resets.map _ = _
  rw [h, List.map_singleton, if_pos rfl]

/-- An engine that has been reset is idle (Table 15-6). -/
theorem resetEngine_idle (x : Cell) (e : BitVec 4) :
    (e = 1 → (x.resetEngine e).eng.plateQ = [] ∧ (x.resetEngine e).eng.plateRun = [] ∧ (x.resetEngine e).eng.inflight = []) ∧
    (e = 2 → (x.resetEngine e).eng.vecQ = [] ∧ (x.resetEngine e).eng.vecRun = none ∧ (x.resetEngine e).eng.optRun = none) ∧
    (e = 3 → (x.resetEngine e).eng.moverQ = [] ∧ ∀ i, vget (x.resetEngine e).eng.xfers i = none) := by
  refine ⟨?_, ?_, ?_⟩ <;> rintro rfl
  · exact ⟨rfl, rfl, rfl⟩
  · exact ⟨rfl, rfl, rfl⟩
  · exact ⟨rfl, fun i => Vector.getElem_replicate ..⟩

/-! ### Partition reset (R270) -/

/-- What the sheets and the host stream port may change. -/
def State.sansSheets (s : State) : State := { s with hsp := Hsp.reset, sheets := Vector.replicate 4 Sheet.reset }

theorem sheetFail_sansSheets (s : State) (p : PartId) (k : Nat) : (s.sheetFail p k).sansSheets = s.sansSheets := by
  show State.sansSheets (if k = 6 then s else s.sheetWriteTrailer p k) = _
  split
  · rfl
  · dsimp only [State.sheetWriteTrailer]
    split <;> rfl

theorem resetSheet_sansSheets (s : State) (p : PartId) : (s.resetSheet p).sansSheets = s.sansSheets := by
  unfold State.resetSheet
  split
  · exact sheetFail_sansSheets s p 5
  · rfl

/-- A partition reset leaves STEP CLOSED with its counters, and its cells cleared; DRAM stays while every partition is calm. -/
theorem resetPartition_leaves {s : State} (hs : s.calm) (p : PartId) :
    let t := s.resetPartition p
    t.faults.resets = s.faults.resets ∧ t.mem.dram = s.mem.dram ∧ t.phase p = .closed ∧
    (t.stepOf p).index = (s.stepOf p).index ∧ (t.stepOf p).updateCount = (s.stepOf p).updateCount ∧
    ∀ c ∈ s.cellsOf p, (t.cell c).cleared := by
  intro t
  obtain ⟨u, hu, hcleared, ht⟩ : ∃ u : State, s.Recedes u ∧ (∀ c ∈ s.cellsOf p, (u.cell c).cleared) ∧
      t.cells = u.cells ∧ t.steps = vmod u.steps p Step.afterReset ∧ t.mem.dram = u.mem.dram ∧ t.faults = u.faults := by
    dsimp only [t]
    unfold State.resetPartition
    extract_lets s0 s1 mine s2 gone s3 s4 s5 mem s5'
    have h0 : s.Recedes s0 := (undefinePages_recedes s p).trans (.modStep _ p ⟨⟨rfl, rfl⟩, fun _ h => by cases h⟩)
    have h1 : s0.Recedes s1 := .foldl (fun t c => (resetPartCell_leaves t c).1) _ s0
    have h2 : s1.Recedes s2 := .foldl (f := fun t e => t.modColld e.1 Colld.idle)
      (fun _ _ => .of_eq rfl rfl rfl fun _ => rfl) mine s1
    have h3 : s2.Recedes s3 := .foldl (f := fun t c => t.modCell c fun x => x.modEng fun e => { e with clPending := [] })
      (fun t c => .modCell t c fun _ => .of_eq rfl rfl) _ s2
    have h4 : s3.Recedes s4 := .of_eq rfl rfl rfl fun _ => rfl
    have hcells : s0.cellsOf p = s.cellsOf p := cellsOf_congr (by
      show ((s.undefinePages p).part p).cells = _
      rw [undefinePages_calm hs])
    have hsheet := resetSheet_sansSheets ((s5'.modStep p Step.afterReset).modTwin p
      (fun t => { t with paused := true, held := [] })) p
    refine ⟨s4, (h0.trans h1).trans ((h2.trans h3).trans h4), fun c hc => ?_, (congrArg State.cells hsheet :),
      (congrArg State.steps hsheet :), (congrArg (fun t => t.mem.dram) hsheet :), (congrArg State.faults hsheet :)⟩
    exact (((h2.trans h3).trans h4).cell c).cleared (foldl_resetPartCell_cleared _ s0 (hcells ▸ hc))
  obtain ⟨hcells, hsteps, hdram, hfaults⟩ := ht
  obtain ⟨hstep, -⟩ := stepOf_of_steps hsteps
  refine ⟨by rw [hfaults]; exact hu.resets, by rw [hdram, hu.mem hs], ?_, ?_, ?_, fun c hc => ?_⟩
  · rw [State.phase, hstep]; rfl
  · rw [hstep]; exact (hu.step p).counts.1
  · rw [hstep]; exact (hu.step p).counts.2
  · rw [State.cell, hcells]; exact hcleared c hc

theorem cleared_latches {x : Cell} (h : x.cleared) : x.latches = Vector.replicate 64 Latch.reset :=
  Vector.ext fun j hj => (h.2 ⟨j, hj⟩).trans (Vector.getElem_replicate ..).symm

/-! ### Chip reset (R481, R589) -/

theorem sheetsAbort_sansSheets (s : State) : s.sheetsAbort.sansSheets = s.sansSheets :=
  foldl_keeps State.sansSheets (fun t p => by
    split
    · exact sheetFail_sansSheets ..
    · rfl) _ { s with hsp := { s.hsp with out := [] } }

/-- With no buffer FILLING no manifest is written. -/
theorem emptyFilling_none {s : State} (h : ∀ p k, (vget (s.twin p).buffers k).state ≠ 1) : s.emptyFilling = s :=
  foldl_keeps id (fun _ p => foldl_keeps id (fun _ k => if_neg (h p k)) _ _) _ s

/-- The end of an unlock leaves none (R567). -/
theorem endUnlock_unlocked (s : State) : bit s.endUnlock.test.stDebug 16 = false := by
  unfold State.endUnlock
  split
  · show bit (setFld s.test.stDebug 0 17 0) 16 = false
    rw [bit_setFld_in _ _ _ _ _ (by decide) (by decide), Nat.zero_testBit]
  · next h => exact Bool.eq_false_iff.mpr h

/-- What a chip reset keeps (R589), and what it leaves of the rest. -/
theorem coreReset_leaves (s : State) :
    let t := s.coreReset
    t.faults = { s.faults with progress := [], sampled := [] } ∧ (∀ c, t.cell c = Cell.reset) ∧ t.time = s.time ∧
    ((∀ p k, (vget (s.twin p).buffers k).state ≠ 1) → t.mem.dram = s.mem.dram) ∧ t.route.nodeId = s.route.nodeId ∧
    t.pending = s.pending ∧ (∀ p, t.phase p = .closed) ∧ t.power.ages = s.power.ages ∧
    t.mgmt = { s.mgmt with nonce := none, spdmWait := none } ∧ t.start.status = 0 ∧ bit t.test.stDebug 16 = false := by
  have h := sheetsAbort_sansSheets s
  have hfaults : s.sheetsAbort.faults = s.faults := (congrArg State.faults h :)
  have hmgmt : s.sheetsAbort.mgmt = s.mgmt := (congrArg State.mgmt h :)
  have htwins : s.sheetsAbort.twins = s.twins := (congrArg State.twins h :)
  refine ⟨?_, fun c => Vector.getElem_replicate .., (congrArg State.time h :), fun hfill => ?_,
    (congrArg (fun t => t.route.nodeId) h :), (congrArg State.pending h :), fun p => ?_,
    (congrArg (fun t => t.power.ages) h :), ?_, rfl, endUnlock_unlocked _⟩
  · show ({ s.sheetsAbort.faults with progress := [], sampled := [] } : Faults) = _
    rw [hfaults]
  · have hnone : s.sheetsAbort.emptyFilling = s.sheetsAbort := emptyFilling_none fun p k => by
      rw [State.twin, htwins]; exact hfill p k
    show s.sheetsAbort.emptyFilling.mem.dram = _
    rw [hnone]
    exact (congrArg (fun t => t.mem.dram) h :)
  · show (vget (Vector.replicate 4 Step.reset) p).phase = _
    rw [vget, Vector.getElem_replicate]
    rfl
  · show ({ s.sheetsAbort.mgmt with nonce := none, spdmWait := none } : Mgmt) = _
    rw [hmgmt]

theorem chipReset_asserts {s : State} {r : Reset} (h : s.faults.resets = [r]) (hdone : r.done = false) (hlvl : r.level = .chip)
    (hphase : s.faults.chipPhase = none) :
    exec (.chipReset) s = .next (s.coreReset.modFaults (fun x => { x with chipPhase := some 0 })) := by
  rw [exec_chipReset, execChipReset, hphase, pendingReset_alone h hdone hlvl rfl]

/-! ### Vectors and ALERT bits (R530, R543) -/

/-- The state with other fault registers, ALERT bits and messages of vectors. -/
def State.signalled (s : State) (f : Faults) (tr : Tray) (pend : BitVec 16) (msix : Vector Nat 16) : State :=
  { s with faults := f, tray := tr, host := { s.host with pend := pend, msix := msix } }

/-- A vector is raised, or pends. -/
theorem raiseVector_signalled (s : State) (v : Fin 16) :
    ∃ pend msix, s.raiseVector v = s.signalled s.faults s.tray pend msix := by
  unfold State.raiseVector
  split
  · exact ⟨s.host.pend, s.host.msix, rfl⟩
  · split
    · exact ⟨_, s.host.msix, rfl⟩
    · exact ⟨s.host.pend, _, rfl⟩

/-- An ALERT bit that is set may raise vector 3. -/
theorem alertSet_signalled (s : State) (i : Fin 6) :
    ∃ tr pend msix, s.alertSet i = s.signalled s.faults tr pend msix ∧ bit tr.alert i.val = true := by
  unfold State.alertSet
  split
  · next h => exact ⟨s.tray, s.host.pend, s.host.msix, rfl, h⟩
  · obtain ⟨pend, msix, e⟩ := raiseVector_signalled
      { s with tray := { s.tray with alert := setBit s.tray.alert i.val true } } 3
    exact ⟨_, pend, msix, e, bit_setBit_self _ _ _ i.isLt⟩

/-! ### The phases of a chip reset (Table 15-7) -/

theorem getLsbD_ofBits {n i : Nat} (l : List Bool) (hi : i < n) : (BitVec.ofNat n (ofBits l)).getLsbD i = l.getD i false := by
  have h : ∀ (l : List Bool) i, (ofBits l).testBit i = l.getD i false := fun l => by
    induction l with
    | nil => exact fun i => Nat.zero_testBit i
    | cons b l ih =>
      intro i
      cases i with
      | zero => cases b <;> simp [ofBits, Nat.testBit_zero]
      | succ i =>
        have hb : (ofBits (b :: l)) / 2 = ofBits l := by
          cases b <;> simp [ofBits]
          omega
        rw [Nat.testBit_succ, hb, ih i]
        rfl
  rw [BitVec.getLsbD_ofNat, h, decide_eq_true hi, Bool.true_and]

/-- A die is held that was, or that fails the check. -/
theorem holdDies_held (s : State) (good : DieId → Bool) (d : DieId) :
    bit (s.holdDies good).start.held d.val = (bit s.start.held d.val || !(good d)) := by
  show bit (s.start.held ||| _) d.val = _
  rw [bit, BitVec.getLsbD_or, getLsbD_ofBits _ d.isLt]
  congr 1
  simp [allFin, List.getD_eq_getElem?_getD]

theorem setPhaseNo_eq (s : State) (n : Nat) (hn : n < 8) : fld (s.setPhaseNo n).start.status 0 3 = n ∧
    (s.setPhaseNo n).cells = s.cells ∧ (s.setPhaseNo n).mem = s.mem ∧ (s.setPhaseNo n).faults = s.faults := by
  have hfld : fld (setFld s.start.status 0 3 n) 0 3 = n := by
    rw [fld_setFld_self _ _ _ _ (by decide), Nat.mod_eq_of_lt (show n < 2 ^ 3 from hn)]
  unfold State.setPhaseNo
  dsimp only
  split
  · exact ⟨hfld, rfl, rfl, rfl⟩
  · rw [raiseVector_eq]
    exact ⟨hfld, rfl, rfl, rfl⟩

/-! ### Completion and escalation (R478, R483, R492) -/

/-- A reset that is not carried out, or a power cycle before its cold start is complete, is not done. -/
theorem resetDone_waits {s : State} {i : Nat} {r : Reset} (h : s.faults.resets[i]? = some r)
    (hno : r.done = false ∨ (r.level = .powerCycle ∧ fld s.start.status 0 3 ≠ 6)) : exec (.resetDone i) s = .next s := by
  rw [exec_resetDone, execResetDone, h]
  exact if_pos hno

/-- One of the counts of a level is raised, the others stay. -/
theorem vget_count (v : Vector Word64 5) (lvl : ResetLevel) (k : Word64) (h : (lvl.code - 1) % 5 < 5) (n : Fin 5) :
    vget (vmod v ⟨(lvl.code - 1) % 5, h⟩ (· + k)) n = vget v n + (if n.val + 1 = lvl.code then k else 0) := by
  have hcode : 1 ≤ lvl.code ∧ lvl.code ≤ 5 := by cases lvl <;> decide
  by_cases e : n.val + 1 = lvl.code
  · have hn : (⟨(lvl.code - 1) % 5, h⟩ : Fin 5) = n := Fin.ext (by show (lvl.code - 1) % 5 = n.val; omega)
    rw [hn, vget_vmod_self, if_pos e]
  · rw [vget_vmod_ne _ _ _ _ (fun hn => e (by have := congrArg Fin.val hn; simp only at this; omega)), if_neg e]
    exact (BitVec.add_zero _).symm

theorem report_resetCnt (s : State) (r : ErrRec) : (s.report r).faults.resetCnt = s.faults.resetCnt := by
  simp only [State.report, Faults.push]
  split <;> rfl

theorem resetDone_completes {s : State} {i : Nat} {r : Reset} (h : s.faults.resets[i]? = some r) (hdone : r.done = true)
    (hcold : ¬ (r.level = .powerCycle ∧ fld s.start.status 0 3 ≠ 6)) : Completes (.resetDone i) s (fun t =>
      t = { s with faults := t.faults } ∧ t.faults.resets = s.faults.resets.eraseIdx i ∧
      ∀ n : Fin 5, vget t.faults.resetCnt n = vget s.faults.resetCnt n +
        (if n.val + 1 = r.level.code then BitVec.ofNat 64 (1 + r.merged) else 0)) := by
  rw [Completes, exec_resetDone, execResetDone, h]
  refine ⟨_, if_neg (fun hno => hno.elim (by simp [hdone]) hcold), rfl, report_resets .., fun n => ?_⟩
  rw [report_resetCnt]
  exact vget_count ..

/-- A higher reset takes over the only one in progress where that lies in its scope (R484). -/
theorem startReset_takesOver {s : State} {r : Reset} (h : s.faults.resets = [r]) {lvl : ResetLevel} {c : CellId} {p : PartId}
    (htaken : s.takenOver r lvl c p = true) (i : SlotId) (e : BitVec 4) (cause : BitVec 4) :
    (s.startReset lvl c i e p cause) = { s with faults := (s.startReset lvl c i e p cause).faults } ∧
    (s.startReset lvl c i e p cause).faults.resets = [⟨lvl, c, i, e, p, cause, s.time, false, r.merged + 1⟩] := by
  have hlower : r.level.code < lvl.code := by
    simp only [State.takenOver, Bool.and_eq_true, decide_eq_true_eq] at htaken
    exact htaken.1
  have hnot : s.coveredBy r lvl c i e p = false := by
    rw [State.coveredBy, decide_eq_false (Nat.not_le.mpr hlower), Bool.false_and]
  simp only [State.startReset, h, List.any_cons, hnot, List.any_nil, Bool.or_self, Bool.false_eq_true, if_false]
  exact ⟨trivial, by simp [htaken]⟩

/-- The record of a reset that goes on at another level. -/
def State.escalationRec (s : State) (r : Reset) (lvl : ResetLevel) : ErrRec :=
  { s.resetRec r 0x43 lvl r.level.code with action := BitVec.ofNat 8 (lvl.code + 1) }

/-- A level over the scope of a reset starts (R483). -/
def State.escalate (s : State) (r : Reset) (lvl : ResetLevel) (e : BitVec 4) (p : PartId) : State :=
  (s.report (s.escalationRec r lvl)).startReset lvl r.cell r.slot e p 8

/-- The next level over the scope of a reset, with its engine and partition (R483). -/
def State.nextLevel (s : State) (r : Reset) : Option (ResetLevel × BitVec 4 × PartId) :=
  match r.level with
  | .context => some (.engine, (s.cell r.cell).eng.stuck r.slot, 0)
  | .engine =>
    match s.partOf r.cell with
    | some p => some (.partition, 0, p)
    | none => some (.chip, 0, 0)
  | .partition => some (.chip, 0, 0)
  | .chip => some (.powerCycle, 0, 0)
  | .powerCycle => none

theorem resetEscalation_eq {s : State} {i : Nat} {r : Reset} (h : s.faults.resets[i]? = some r) {lvl : ResetLevel}
    {e : BitVec 4} {p : PartId} (hnext : s.nextLevel r = some (lvl, e, p)) :
    exec (.resetEscalation i) s = .next (s.escalate r lvl e p) := by
  rw [exec_resetEscalation, execResetEscalation, h, State.escalate, State.escalationRec]
  unfold State.nextLevel at hnext
  split at hnext
  · next hl => cases hnext; simp only [hl]
  · next hl =>
    split at hnext
    · next hp => cases hnext; simp only [hl, hp]
    · next hp => cases hnext; simp only [hl, hp]
  · next hl => cases hnext; simp only [hl]
  · next hl => cases hnext; simp only [hl]
  · cases hnext

/-- The next level covers the scope of the reset it is for. -/
theorem nextLevel_takenOver {s : State} {r : Reset} {lvl : ResetLevel} {e : BitVec 4} {p : PartId}
    (hnext : s.nextLevel r = some (lvl, e, p)) : s.takenOver r lvl r.cell p = true := by
  unfold State.nextLevel at hnext
  split at hnext
  · next hl => cases hnext; simp [State.takenOver, hl, ResetLevel.code]
  · next hl =>
    split at hnext
    · next hp => cases hnext; simp [State.takenOver, hl, hp, ResetLevel.code]
    · cases hnext; simp [State.takenOver, hl, ResetLevel.code]
  · next hl => cases hnext; simp [State.takenOver, hl, ResetLevel.code]
  · next hl => cases hnext; simp [State.takenOver, hl, ResetLevel.code]
  · cases hnext

/-- The next level takes the only reset in progress over. -/
theorem escalate_alone {s : State} {r : Reset} (h : s.faults.resets = [r]) {lvl : ResetLevel} {e : BitVec 4} {p : PartId}
    (hnext : s.nextLevel r = some (lvl, e, p)) : s.escalate r lvl e p = { s with faults := (s.escalate r lvl e p).faults } ∧
    (s.escalate r lvl e p).faults.resets = [⟨lvl, r.cell, r.slot, e, p, 8, s.time, false, r.merged + 1⟩] := by
  obtain ⟨hframe, hresets⟩ := startReset_takesOver (s := s.report (s.escalationRec r lvl)) ((report_resets ..).trans h)
    (nextLevel_takenOver hnext) r.slot e 8
  exact ⟨hframe, hresets⟩

end Sys2Proof.Machine
end

section
/-!
SUPPORT. The watchdog's sample (R475 to R477): what it notes of idle engines, and the chip reset it starts for a hung stack.
-/
namespace Sys2Proof.Machine

/-! ### What the watchdog looks at -/

/-- The state with other notes of the watchdog. -/
def State.noted (s : State) (a b : Sparse Nat) : State :=
  { s with faults := { s.faults with progress := a, sampled := b } }

/-- Whether an engine works does not depend on fault registers, ALERT bits and messages. -/
theorem watch_signalled (s : State) (f : Faults) (tr : Tray) (pend : BitVec 16) (msix : Vector Nat 16) (w : Watched) :
    ((s.signalled f tr pend msix).watch w).1 = (s.watch w).1 := by
  cases w <;> rfl

theorem watch_noted (s : State) (a b : Sparse Nat) (w : Watched) : (s.noted a b).watch w = s.watch w := by
  cases w <;> rfl

/-- No other engine has the key of a stack. -/
theorem key_ne_stack {w : Watched} {n : StackId} (h : w ≠ .stack n) : (Watched.stack n).key ≠ w.key := by
  have hn : n.val < 16 := n.isLt
  cases w with
  | stack m =>
    have hm : m.val ≠ n.val := fun e => h (by rw [Fin.ext e])
    simp only [Watched.key]; omega
  | cell c e => have := c.isLt; simp only [Watched.key]; omega
  | latches c => have := c.isLt; simp only [Watched.key]; omega
  | _ => simp only [Watched.key]; omega

theorem stack_mem_allWatched (n : StackId) : Watched.stack n ∈ allWatched := by
  simp [allWatched, allFin]

/-! ### One engine -/

/-- An engine that is idle, or inside a reset in progress, is noted with the present time (R477). -/
theorem sampleOne_idle {s : State} {w : Watched} (h : (s.watch w).1 = false ∨ s.inReset w = true) :
    s.sampleOne w = s.noted (Sparse.set 0 s.faults.progress w.key (if (s.watch w).1 then (s.watch w).2 + 1 else 0))
      (Sparse.set 0 s.faults.sampled w.key s.time.toNat) :=
  if_pos (h.imp_right .inl)

/-- One that has shown no progress for WDOG_US is hung. -/
theorem sampleOne_hung {s : State} {w : Watched} (hworks : (s.watch w).1 = true) (hreset : s.inReset w = false)
    (hstill : (s.watch w).2 + 1 = Sparse.get 0 s.faults.progress w.key)
    (hlong : Sparse.get 0 s.faults.sampled w.key + s.faults.wdogNs ≤ s.time.toNat) : s.sampleOne w = s.hang w :=
  (if_neg (by simp [hworks, hreset, hstill])).trans (if_pos hlong)

/-! ### The engines of a sample -/

/-- Where every engine is idle the sample changes its notes only. -/
theorem foldl_sampleOne_idle {s : State} (h : ∀ w, (s.watch w).1 = false) (l : List Watched) :
    ∃ a b, l.foldl State.sampleOne s = s.noted a b :=
  List.foldlRecOn l State.sampleOne (motive := fun t => ∃ a b, t = s.noted a b)
    ⟨s.faults.progress, s.faults.sampled, rfl⟩ fun t ⟨a, b, ht⟩ w _ =>
      ⟨_, _, (congrArg (State.sampleOne · w) ht).trans (sampleOne_idle (.inl (by rw [watch_noted]; exact h w)))⟩

/-- Notes of a sample that has not come to a stack: what they say of the stack is what they said. -/
structure NotesFor (s : State) (k : Nat) (a b : Sparse Nat) : Prop where
  wf : Sparse.wf 0 a = true ∧ Sparse.wf 0 b = true
  same : Sparse.get 0 a k = Sparse.get 0 s.faults.progress k ∧ Sparse.get 0 b k = Sparse.get 0 s.faults.sampled k

/-- Before it comes to a stack the sample notes other engines, which are idle. -/
theorem foldl_sampleOne_before {s : State} {n : StackId} (h : ∀ w, w ≠ .stack n → (s.watch w).1 = false)
    (hp : Sparse.wf 0 s.faults.progress = true) (hs : Sparse.wf 0 s.faults.sampled = true) {l : List Watched}
    (hl : Watched.stack n ∉ l) :
    ∃ a b, l.foldl State.sampleOne s = s.noted a b ∧ NotesFor s (Watched.stack n).key a b := by
  refine List.foldlRecOn l State.sampleOne
    (motive := fun t => ∃ a b, t = s.noted a b ∧ NotesFor s (Watched.stack n).key a b)
    ⟨s.faults.progress, s.faults.sampled, rfl, ⟨hp, hs⟩, rfl, rfl⟩ fun t ⟨a, b, ht, hnotes⟩ w hw => ?_
  have hne : w ≠ .stack n := fun e => hl (e ▸ hw)
  have hkey := key_ne_stack hne
  refine ⟨_, _, (congrArg (State.sampleOne · w) ht).trans (sampleOne_idle (.inl (by rw [watch_noted]; exact h w hne))),
    ⟨Sparse.set_wf hnotes.wf.1 .., Sparse.set_wf hnotes.wf.2 ..⟩, ?_, ?_⟩
  · exact ((Sparse.get_set hnotes.wf.1 ..).trans (if_neg hkey)).trans hnotes.same.1
  · exact ((Sparse.get_set hnotes.wf.2 ..).trans (if_neg hkey)).trans hnotes.same.2

/-- A hung stack: its record, ALERT bit 1, and a chip reset where none is in progress. -/
theorem hang_stack {s : State} (h : s.faults.resets = []) (n : StackId) : ∃ f tr pend msix,
    s.hang (.stack n) = s.signalled f tr pend msix ∧ bit tr.alert 1 = true ∧
    f.resets = [⟨.chip, 0, 0, 0, 0, 3, s.time, false, 0⟩] := by
  obtain ⟨r, hr⟩ : ∃ r, s.hang (.stack n) = ((s.report r).alertSet 1).startReset .chip 0 0 0 0 3 := ⟨_, rfl⟩
  obtain ⟨tr, pend, msix, e, halert⟩ := alertSet_signalled (s.report r) 1
  have hnone : ((s.report r).signalled (s.report r).faults tr pend msix).faults.resets = [] := (report_resets ..).trans h
  rw [hr, e]
  exact ⟨_, tr, pend, msix, startReset_alone hnone .., halert, rfl⟩

/-- Once a chip reset is in progress the sample notes every other engine, and the stack as inside that reset. -/
theorem foldl_sampleOne_after {s u : State} {n : StackId} {f : Faults} {tr : Tray} {pend : BitVec 16} {msix : Vector Nat 16}
    (h : ∀ w, w ≠ .stack n → (s.watch w).1 = false) (hu : u = s.signalled f tr pend msix) {r : Reset} (hf : f.resets = [r])
    (hr : r.level = .chip) (l : List Watched) :
    ∃ f', l.foldl State.sampleOne u = s.signalled f' tr pend msix ∧ f'.resets = [r] := by
  refine List.foldlRecOn l State.sampleOne (motive := fun t => ∃ f', t = s.signalled f' tr pend msix ∧ f'.resets = [r])
    ⟨f, hu, hf⟩ fun t ⟨g, ht, hg⟩ w _ => ?_
  have hidle : (t.watch w).1 = false ∨ t.inReset w = true := by
    rw [ht, watch_signalled]
    by_cases e : w = .stack n
    · subst e
      refine .inr ?_
      show g.resets.any _ = true
      rw [hg]
      simp [hr]
    · exact .inl (h w e)
  rw [sampleOne_idle hidle, ht]
  exact ⟨_, rfl, hg⟩

/-! ### WATCHDOG_SAMPLE -/

theorem watchdogSample_goes {s : State} (h : s.faults.chipPhase = none) :
    exec (.watchdogSample) s = .next (allWatched.foldl State.sampleOne s) := by
  rw [exec_watchdogSample]; exact if_neg (by simp [h])

/-- A sample that finds one stack hung starts a chip reset. -/
theorem sample_hungStack {s : State} {n : StackId} (hnone : s.faults.resets = [])
    (hidle : ∀ w, w ≠ .stack n → (s.watch w).1 = false) (hworks : (s.watch (.stack n)).1 = true)
    (hp : Sparse.wf 0 s.faults.progress = true) (hs : Sparse.wf 0 s.faults.sampled = true)
    (hstill : (s.watch (.stack n)).2 + 1 = Sparse.get 0 s.faults.progress (Watched.stack n).key)
    (hlong : Sparse.get 0 s.faults.sampled (Watched.stack n).key + s.faults.wdogNs ≤ s.time.toNat) :
    ∃ f tr pend msix, allWatched.foldl State.sampleOne s = s.signalled f tr pend msix ∧ bit tr.alert 1 = true ∧
      f.resets = [⟨.chip, 0, 0, 0, 0, 3, s.time, false, 0⟩] := by
  obtain ⟨l1, l2, hl, hfirst⟩ := List.eq_append_cons_of_mem (stack_mem_allWatched n)
  obtain ⟨a, b, hbefore, hnotes⟩ := foldl_sampleOne_before hidle hp hs hfirst
  have hhung : (s.noted a b).sampleOne (.stack n) = (s.noted a b).hang (.stack n) := by
    refine sampleOne_hung (by rw [watch_noted]; exact hworks) ?_ ?_ ?_
    · show s.faults.resets.any _ = false
      rw [hnone]; rfl
    · rw [watch_noted, hstill]; exact hnotes.same.1.symm
    · show Sparse.get 0 b _ + s.faults.wdogNs ≤ _
      rw [hnotes.same.2]; exact hlong
  obtain ⟨f, tr, pend, msix, hhang, halert, hresets⟩ := hang_stack (s := s.noted a b) hnone n
  obtain ⟨f', hafter, hresets'⟩ := foldl_sampleOne_after hidle (hhang.trans (by rfl)) hresets rfl l2
  refine ⟨f', tr, pend, msix, ?_, halert, hresets'⟩
  rw [hl, List.foldl_append, List.foldl_cons, hbefore, hhung]
  exact hafter

end Sys2Proof.Machine
end

section
/-!
OBLIGATION O50. The reset ladder (R270, R477 to R484, R491, R492, R589): resets asked for, carried out, completed and escalated,
the phases of a chip reset, and the watchdog. The grain of its phases and how progress is sampled are log entries 38 and 49.
-/
namespace Sys2Proof.Machine

/-! ### Asked for -/

/-- Every reset command from outside, and every reset the package starts by itself, with none in progress. -/
theorem resets_start {s : State} {b : Requester} (hb : isCtx b = false) (hring : s.ringWhole = true) (h : s.faults.resets = []) :
    (∀ a, Completes (.resetCmdContext b a) s (s.Started ⟨.context, a.cell, a.slot, 0, 0, 1, s.time, false, 0⟩)) ∧
    (∀ c e, 3 < e.toNat → Completes (.resetCmdEngine b c e) s (fun t => t = { s with faults := t.faults } ∧
      t.faults.resets = [])) ∧
    (∀ c e, e.toNat ≤ 3 → Completes (.resetCmdEngine b c e) s (s.Started ⟨.engine, c, 0, e, 0, 1, s.time, false, 0⟩)) ∧
    (∀ p, Completes (.resetCmdPartition b p) s (s.Started ⟨.partition, 0, 0, 0, p, 1, s.time, false, 0⟩)) ∧
    Completes (.resetCmdChip b) s (s.Started ⟨.chip, 0, 0, 0, 0, 1, s.time, false, 0⟩) ∧
    Completes (.resetCmdPowerCycle b) s (s.Started ⟨.powerCycle, 0, 0, 0, 0, 1, s.time, false, 0⟩) ∧
    (∀ a l m n, (s.slot a).wait = .latch l m n → fld s.faults.faultCfg 48 16 ≠ 0 → Completes (.waitLimit a) s (fun t =>
      t = { s with faults := t.faults } ∧ t.faults.resets = [⟨.context, a.cell, a.slot, 0, 0, 4, s.time, false, 0⟩])) ∧
    (∀ a, s.autoReset = true → (s.slot a).state = .stopped →
      Completes (.stopHoldExpiry a) s (s.Started ⟨.context, a.cell, a.slot, 0, 0, 2, s.time, false, 0⟩)) ∧
    (∀ p, s.autoReset = true → s.phase p = .aborted →
      Completes (.abortHoldExpiry p) s (s.Started ⟨.partition, 0, 0, 0, p, 6, s.time, false, 0⟩)) := by
  have outside := fun f => auxWrite_outside hb hring f
  have engine := fun c e => (exec_resetCmdEngine b c e s).trans (outside fun s => s.resetCmdEngineOp c e)
  refine ⟨fun a => ⟨_, (exec_resetCmdContext b a s).trans (outside _), startReset_started h ..⟩,
    fun c e he => ⟨_, engine c e, ?_⟩, fun c e he => ⟨_, engine c e, ?_⟩,
    fun p => ⟨_, (exec_resetCmdPartition b p s).trans (outside _), startReset_started h ..⟩,
    ⟨_, (exec_resetCmdChip b s).trans (outside _), startReset_started h ..⟩,
    ⟨_, (exec_resetCmdPowerCycle b s).trans (outside _), startReset_started h ..⟩,
    fun a l m n hw hlimit => ?_, fun a hauto hstop => ?_, fun p hauto habort => ?_⟩
  · rw [State.resetCmdEngineOp, if_pos he]
    exact ⟨rfl, (report_resets ..).trans h⟩
  · rw [State.resetCmdEngineOp, if_neg (Nat.not_lt.mpr he)]
    exact startReset_started h ..
  · obtain ⟨r, e⟩ := waitLimit_resets hw hlimit
    have hnone : (s.report r).faults.resets = [] := (report_resets ..).trans h
    obtain ⟨hframe, hresets, -⟩ := startReset_started hnone .context a.cell a.slot 0 0 4
    exact ⟨_, e, hframe, hresets⟩
  · exact ⟨_, (exec_stopHoldExpiry a s).trans (if_pos (by simp [hauto, hstop])), startReset_started h ..⟩
  · exact ⟨_, (exec_abortHoldExpiry p s).trans (if_pos (by simp [hauto, habort])), startReset_started h ..⟩

/-! ### Carried out -/

section
variable {s : State} {r : Reset} (h : s.faults.resets = [r]) (hdone : r.done = false)
include h hdone

theorem contextReset_carriedOut (hs : s.calm) (hlvl : r.level = .context) : Completes (.contextReset ⟨r.cell, r.slot⟩) s (fun t =>
    t.faults.resets = [{ r with done := true }] ∧ (t.slot ⟨r.cell, r.slot⟩).state = .empty ∧ t.mem = s.mem ∧
    ∀ p, (t.stepOf p).index = (s.stepOf p).index ∧ (t.stepOf p).updateCount = (s.stepOf p).updateCount) := by
  rw [Completes, exec_contextReset, execContextReset, pendingReset_alone h hdone hlvl (by simp)]
  have hrec := resetContext_recedes s ⟨r.cell, r.slot⟩ (if r.cause = 5 then 3 else 2)
  exact ⟨_, rfl, resetDone_alone (hrec.resets.trans h), resetContext_empty .., hrec.mem hs, fun p => (hrec.step p).counts⟩

theorem engineReset_carriedOut (hs : s.calm) (hlvl : r.level = .engine) : Completes (.engineReset r.cell r.eng) s (fun t =>
    t.faults.resets = [{ r with done := true }] ∧ t.mem = s.mem ∧ (∀ i, ((t.cell r.cell).slot i).state = .empty) ∧
    (r.eng = 1 → (t.cell r.cell).eng.plateQ = [] ∧ (t.cell r.cell).eng.plateRun = [] ∧ (t.cell r.cell).eng.inflight = []) ∧
    (r.eng = 2 → (t.cell r.cell).eng.vecQ = [] ∧ (t.cell r.cell).eng.vecRun = none ∧ (t.cell r.cell).eng.optRun = none) ∧
    (r.eng = 3 → (t.cell r.cell).eng.moverQ = [] ∧ ∀ i, t.xfer r.cell i = none)) := by
  rw [Completes, exec_engineReset, execEngineReset, pendingReset_alone h hdone hlvl (by simp)]
  obtain ⟨t, ht, e⟩ := resetCellEngine_eq s r.cell r.eng
  have hrec : s.Recedes (s.resetCellEngine r.cell r.eng) := by
    rw [e]
    exact ((resetSlots_recedes ..).trans ht).trans (.modCell t _ fun x => resetEngine_recedes x r.eng)
  have hcell : ((s.resetCellEngine r.cell r.eng).resetDone r).cell r.cell = (t.cell r.cell).resetEngine r.eng := by
    show (s.resetCellEngine r.cell r.eng).cell r.cell = _
    rw [e, modCell_cell_self]
  refine ⟨_, rfl, resetDone_alone (hrec.resets.trans h), hrec.mem hs, fun i => ?_, ?_⟩
  · rw [hcell]
    exact (resetEngine_recedes _ _).empty i ((ht.cell r.cell).empty i (resetSlots_empty s r.cell 2 i))
  · simp only [State.xfer, hcell]
    exact resetEngine_idle ..

theorem partitionReset_carriedOut (hs : s.calm) (hlvl : r.level = .partition) : Completes (.partitionReset r.part) s (fun t =>
    t.faults.resets = [{ r with done := true }] ∧ t.mem.dram = s.mem.dram ∧ t.phase r.part = .closed ∧
    (t.stepOf r.part).index = (s.stepOf r.part).index ∧ (t.stepOf r.part).updateCount = (s.stepOf r.part).updateCount ∧
    ∀ c, s.partOf c = some r.part → (∀ i, ((t.cell c).slot i).state = .empty) ∧
      (t.cell c).latches = Vector.replicate 64 Latch.reset) := by
  rw [Completes, exec_partitionReset, execPartitionReset, pendingReset_alone h hdone hlvl (by simp)]
  obtain ⟨hresets, hdram, hphase, hindex, hcount, hcleared⟩ := resetPartition_leaves hs r.part
  refine ⟨_, rfl, resetDone_alone (hresets.trans h), hdram, hphase, hindex, hcount, fun c hc => ?_⟩
  have hc := hcleared c (mem_cellsOf_of_partOf hc)
  exact ⟨hc.1, cleared_latches hc⟩

theorem chipReset_carriedOut (hlvl : r.level = .chip) (hphase : s.faults.chipPhase = none) : Completes (.chipReset) s (fun t =>
    t.faults.chipPhase = some 0 ∧ t.faults.resets = [r] ∧ (∀ c, t.cell c = Cell.reset) ∧ t.time = s.time ∧
    ((∀ p k, (vget (s.twin p).buffers k).state ≠ 1) → t.mem.dram = s.mem.dram) ∧
    t.route.nodeId = s.route.nodeId ∧ t.faults.log = s.faults.log ∧ t.faults.errSeq = s.faults.errSeq ∧
    t.pending = s.pending ∧ (∀ p, t.phase p = .closed) ∧ t.power.ages = s.power.ages ∧
    t.mgmt = { s.mgmt with nonce := none, spdmWait := none } ∧ t.start.status = 0 ∧ bit t.test.stDebug 16 = false) := by
  obtain ⟨hfaults, hcells, htime, hdram, hnode, hpending, hclosed, hages, hmgmt, hstatus, hdebug⟩ := coreReset_leaves s
  have kept : ∀ {β : Type} (k : Faults → β), k s.coreReset.faults = k { s.faults with progress := [], sampled := [] } :=
    fun k => congrArg k hfaults
  exact ⟨_, chipReset_asserts h hdone hlvl hphase, rfl, (kept Faults.resets).trans h, hcells, htime, hdram, hnode,
    kept Faults.log, kept Faults.errSeq, hpending, hclosed, hages, hmgmt, hstatus, hdebug⟩

theorem powerCycleReq_carriedOut (hlvl : r.level = .powerCycle) : Completes (.powerCycleReq) s (fun t =>
    t.faults.resets = [r] ∧ bit t.tray.alert 0 = true ∧ t.cells = s.cells ∧ t.mem = s.mem) := by
  rw [Completes, exec_powerCycleReq, execPowerCycleReq, pendingReset_alone h hdone hlvl rfl, State.powerCycleAsk]
  obtain ⟨tr, pend, msix, e, halert⟩ := alertSet_signalled s 0
  rw [e]
  exact ⟨_, rfl, (report_resets ..).trans h, halert, rfl, rfl⟩

end

/-- With no reset in progress none is carried out, completed or escalated. -/
theorem no_reset {s : State} (h : s.faults.resets = []) : (∀ a, exec (.contextReset a) s = .next s) ∧
    (∀ c e, exec (.engineReset c e) s = .next s) ∧ (∀ p, exec (.partitionReset p) s = .next s) ∧
    exec (.chipReset) s = .next s ∧ exec (.powerCycleReq) s = .next s ∧
    (∀ i, exec (.resetDone i) s = .next s ∧ exec (.resetEscalation i) s = .next s) := by
  refine ⟨fun a => ?_, fun c e => ?_, fun p => ?_, ?_, ?_, fun i => ⟨?_, ?_⟩⟩
  · rw [exec_contextReset, execContextReset, pendingReset_none h]
  · rw [exec_engineReset, execEngineReset, pendingReset_none h]
  · rw [exec_partitionReset, execPartitionReset, pendingReset_none h]
  · rw [exec_chipReset, execChipReset, pendingReset_none h]
    cases s.faults.chipPhase <;> rfl
  · rw [exec_powerCycleReq, execPowerCycleReq, pendingReset_none h]
  · rw [exec_resetDone, execResetDone, h]; rfl
  · rw [exec_resetEscalation, execResetEscalation, h]; rfl

/-! ### The phases of a chip reset -/

/-- The phase of a chip reset has ended, and of cells and memory nothing has changed. -/
def State.PhaseEnds (s : State) (k : Fin 8) (P : State → Prop) : Prop :=
  Completes (.chipResetPhaseEnd) s (fun t => t.faults.chipPhase = some (k + 1) ∧ t.cells = s.cells ∧ t.mem = s.mem ∧ P t)

/-- The first phase: the darkslide closes, the core goes off. -/
theorem phaseEnd_zero {s : State} (h : s.faults.chipPhase = some 0) : s.PhaseEnds 0 (fun t =>
    t.start.coreOn = false ∧ t.route.darkClosed = 0x3F ∧ t.power.rails = Rails.off) := by
  rw [State.PhaseEnds, Completes, exec_chipResetPhaseEnd, execChipResetPhaseEnd, h]
  refine ⟨_, rfl, rfl, ?_⟩
  split
  · next hdark => exact ⟨rfl, rfl, rfl, hdark, rfl⟩
  · exact ⟨rfl, rfl, rfl, rfl, rfl⟩

theorem chipResetPhaseEnd_last {s : State} (h : s.faults.chipPhase = some 7) (hheld : s.start.held = 0) :
    execChipResetPhaseEnd s =
      match ((s.modFaults fun x => { x with chipPhase := none }).setPhaseNo 6).pendingReset .chip (fun _ => true) with
      | none => .next ((s.modFaults fun x => { x with chipPhase := none }).setPhaseNo 6)
      | some r => .next (((s.modFaults fun x => { x with chipPhase := none }).setPhaseNo 6).resetDone r) := by
  rw [execChipResetPhaseEnd, h]
  exact if_neg (fun hne => hne hheld)

/-- The last phase, once no die is held: the package is at PHASE 6 and the reset carried out. -/
theorem phaseEnd_last {s : State} (h : s.faults.chipPhase = some 7) (hheld : s.start.held = 0) :
    Completes (.chipResetPhaseEnd) s (fun t => t.faults.chipPhase = none ∧ fld t.start.status 0 3 = 6 ∧
      t.cells = s.cells ∧ t.mem = s.mem ∧ ∀ r, s.faults.resets = [r] → r.level = .chip → r.done = false →
        t.faults.resets = [{ r with done := true }]) := by
  obtain ⟨hphase, hcells, hmem, hfaults⟩ := setPhaseNo_eq (s.modFaults fun x => { x with chipPhase := none }) 6 (by decide)
  rw [Completes, exec_chipResetPhaseEnd, chipResetPhaseEnd_last h hheld]
  generalize (s.modFaults fun x => { x with chipPhase := none }).setPhaseNo 6 = u at *
  have hresets : u.faults.resets = s.faults.resets := (congrArg Faults.resets hfaults :)
  have hnone : u.faults.chipPhase = none := (congrArg Faults.chipPhase hfaults :)
  split
  · next hpending =>
    refine ⟨_, rfl, hnone, hphase, hcells, hmem, fun r hr hlvl hdone => ?_⟩
    rw [pendingReset_alone (hresets.trans hr) hdone hlvl rfl] at hpending
    cases hpending
  · next q hpending =>
    refine ⟨_, rfl, hnone, hphase, hcells, hmem, fun r hr hlvl hdone => ?_⟩
    rw [pendingReset_alone (hresets.trans hr) hdone hlvl rfl] at hpending
    cases hpending
    exact resetDone_alone (hresets.trans hr)

/-- Every phase of a chip reset (Table 15-7). -/
theorem chipReset_phases {s : State} {k : Fin 8} (h : s.faults.chipPhase = some k) :
    (k.val = 0 → s.PhaseEnds k (fun t => t.start.coreOn = false ∧ t.route.darkClosed = 0x3F ∧ t.power.rails = Rails.off)) ∧
    (k.val = 1 → s.PhaseEnds k (fun t => t.start.coreOn = true ∧ t.start.v12 = true)) ∧
    (k.val = 4 → s.PhaseEnds k (fun t => ∀ j, (t.xd j).trained = true)) ∧
    (k.val = 5 → s.memReady = true → s.PhaseEnds k (fun _ => True)) ∧
    (k.val = 5 → s.memReady = false → exec (.chipResetPhaseEnd) s = .next s) ∧
    (k.val = 2 → s.PhaseEnds k (fun t => ∀ d : DieId,
      bit t.start.held d.val = (bit s.start.held d.val || !(dieGood d s.freeCtr)))) ∧
    (k.val = 3 → s.PhaseEnds k (fun t => ∀ d : DieId, bit t.start.held d.val =
      (bit s.start.held d.val || !(Config.logicGood d.val s.freeCtr)))) ∧
    (k.val = 6 → s.PhaseEnds k (fun t => t = { s with faults := t.faults })) ∧
    (k.val = 7 → s.start.held ≠ 0 → exec (.chipResetPhaseEnd) s = .next s) ∧
    (k.val = 7 → s.start.held = 0 → Completes (.chipResetPhaseEnd) s (fun t => t.faults.chipPhase = none ∧
      fld t.start.status 0 3 = 6 ∧ t.cells = s.cells ∧ t.mem = s.mem ∧ ∀ r, s.faults.resets = [r] → r.level = .chip →
        r.done = false → t.faults.resets = [{ r with done := true }])) := by
  refine ⟨fun hk => ?_, fun hk => ?_, fun hk => ?_, fun hk hm => ?_, fun hk hm => ?_, fun hk => ?_, fun hk => ?_, fun hk => ?_,
    fun hk hd => ?_, fun hk hd => ?_⟩
  · obtain rfl : k = 0 := Fin.ext hk
    exact phaseEnd_zero h
  · obtain rfl : k = 1 := Fin.ext hk
    rw [State.PhaseEnds, Completes, exec_chipResetPhaseEnd, execChipResetPhaseEnd, h]
    exact ⟨_, rfl, rfl, rfl, rfl, rfl, rfl⟩
  · obtain rfl : k = 4 := Fin.ext hk
    rw [State.PhaseEnds, Completes, exec_chipResetPhaseEnd, execChipResetPhaseEnd, h]
    exact ⟨_, rfl, rfl, rfl, rfl, fun j => congrArg Xd.trained (Vector.getElem_ofFn ..)⟩
  · obtain rfl : k = 5 := Fin.ext hk
    rw [State.PhaseEnds, Completes, exec_chipResetPhaseEnd, execChipResetPhaseEnd, h]
    exact ⟨_, if_pos hm, rfl, rfl, rfl, trivial⟩
  · obtain rfl : k = 5 := Fin.ext hk
    rw [exec_chipResetPhaseEnd, execChipResetPhaseEnd, h]
    exact if_neg (by simp [hm])
  · obtain rfl : k = 2 := Fin.ext hk
    rw [State.PhaseEnds, Completes, exec_chipResetPhaseEnd, execChipResetPhaseEnd, h]
    exact ⟨_, rfl, rfl, rfl, rfl, holdDies_held s _⟩
  · obtain rfl : k = 3 := Fin.ext hk
    rw [State.PhaseEnds, Completes, exec_chipResetPhaseEnd, execChipResetPhaseEnd, h]
    exact ⟨_, rfl, rfl, rfl, rfl, holdDies_held s _⟩
  · obtain rfl : k = 6 := Fin.ext hk
    rw [State.PhaseEnds, Completes, exec_chipResetPhaseEnd, execChipResetPhaseEnd, h]
    exact ⟨_, rfl, rfl, rfl, rfl, rfl⟩
  · obtain rfl : k = 7 := Fin.ext hk
    rw [exec_chipResetPhaseEnd, execChipResetPhaseEnd, h]
    exact if_pos hd
  · obtain rfl : k = 7 := Fin.ext hk
    exact phaseEnd_last h hd

/-! ### Escalated -/

/-- The next level over the scope of a reset, in the words of R483. -/
theorem escalation_levels {s : State} {i : Nat} {r : Reset} (hi : s.faults.resets[i]? = some r) (h : s.faults.resets = [r])
    (hlvl : r.level ≠ .powerCycle) : Completes (.resetEscalation i) s (fun t =>
      t = { s with faults := t.faults } ∧ ∃ q, t.faults.resets = [q] ∧ q.cause = 8 ∧ q.done = false ∧
      (r.level = .context → q.level = .engine ∧ q.cell = r.cell) ∧
      (r.level = .engine → (∀ p, s.partOf r.cell = some p → q.level = .partition ∧ q.part = p) ∧
        (s.partOf r.cell = none → q.level = .chip)) ∧
      (r.level = .partition → q.level = .chip) ∧ (r.level = .chip → q.level = .powerCycle)) := by
  obtain ⟨⟨lvl, e, p⟩, hnext⟩ : ∃ n, s.nextLevel r = some n := by
    unfold State.nextLevel
    split
    · exact ⟨_, rfl⟩
    · split <;> exact ⟨_, rfl⟩
    · exact ⟨_, rfl⟩
    · exact ⟨_, rfl⟩
    · next hp => exact absurd hp hlvl
  obtain ⟨hframe, hresets⟩ := escalate_alone h hnext
  refine ⟨_, resetEscalation_eq hi hnext, hframe, _, hresets, rfl, rfl, ?_⟩
  unfold State.nextLevel at hnext
  split at hnext
  · next hl => cases hnext; simp [hl]
  · next hl =>
    split at hnext
    · next hp => cases hnext; simp [hl, hp]
    · next hp => cases hnext; simp [hl, hp]
  · next hl => cases hnext; simp [hl]
  · next hl => cases hnext; simp [hl]
  · cases hnext

/-! ### The statement -/

/-- Settles O50, a lemma of this file for each clause. -/
theorem resetLadder : Obligations.ResetLadder := by
  refine ⟨fun s b hb hring hnone => resets_start hb hring hnone, fun s a => waitLimit_off,
    fun s a p h => ⟨stopHoldExpiry_off h a, abortHoldExpiry_off h p⟩, fun s r h hdone hcalm =>
      ⟨contextReset_carriedOut h hdone hcalm, engineReset_carriedOut h hdone hcalm, partitionReset_carriedOut h hdone hcalm,
        chipReset_carriedOut h hdone, powerCycleReq_carriedOut h hdone⟩, fun s => no_reset, fun s k => chipReset_phases,
    fun s h => ?_, fun s i r hi => ⟨resetDone_waits hi, resetDone_completes hi, escalation_levels hi⟩, fun s hphase =>
      ⟨fun hidle => ?_, fun n hnone hidle hworks hp hs hstill hlong => ?_⟩, fun s h => ?_⟩
  · rw [exec_chipResetPhaseEnd, execChipResetPhaseEnd, h]
  · obtain ⟨a, b, e⟩ := foldl_sampleOne_idle hidle allWatched
    exact ⟨_, (watchdogSample_goes hphase).trans (congrArg _ e), rfl⟩
  · obtain ⟨f, tr, pend, msix, e, halert, hresets⟩ := sample_hungStack hnone hidle hworks hp hs hstill hlong
    exact ⟨_, (watchdogSample_goes hphase).trans (congrArg _ e), halert, rfl, hresets⟩
  · rw [exec_watchdogSample]
    exact if_pos (Option.isSome_iff_ne_none.mpr h)

end Sys2Proof.Machine
end

section
/-!
SUPPORT. Operations that leave the memory controllers and DRAM: every `_mem` lemma says that `mem` stays as it is.
-/
namespace Sys2Proof.Machine

@[simp] theorem ite_mem {c : Prop} [Decidable c] (s t : State) :
    (if c then s else t).mem = if c then s.mem else t.mem := apply_ite State.mem c s t
@[simp] theorem foldl_mem {α : Type} {f : State → α → State} (h : ∀ t a, (f t a).mem = t.mem) (l : List α) (s : State) :
    (l.foldl f s).mem = s.mem := foldl_keeps State.mem h l s

theorem carry_mem (c : Fin 3) : ∀ (l : List JoinId) (a : DieId) (s : State), (State.carry c a l s).2.mem = s.mem
  | [], _, _ => rfl
  | j :: rest, a, s => by
    dsimp only [State.carry]
    cases vget ((s.xd j).dir (wayOf j a)).passed c <;> cases across j a
    · rfl
    · exact carry_mem c rest _ _
    · rfl
    · exact carry_mem c rest _ _

@[simp] theorem carryTo_mem (s : State) (c : Fin 3) (a b : DieId) (k : Nat) : (s.carryTo c a b k).2.mem = s.mem := by
  unfold State.carryTo
  split
  · exact carry_mem ..
  · rfl

@[simp] theorem signalAll_mem (s : State) (p : PartId) (l : BitVec 6) : (s.signalAll p l).mem = s.mem :=
  foldl_mem (f := fun t c => t.signal c l 1 true) (fun _ _ => rfl) _ s

@[simp] theorem keepCopies_mem (s : State) : s.keepCopies.mem = s.mem := by simp [State.keepCopies]

@[simp] theorem stepTime_mem (s : State) (n : Nat) : (s.stepTime n).mem = s.mem := by simp [State.stepTime]

@[simp] theorem sysEvent_mem (s : State) (die : DieId) (code : Byte) (sev : Sev) (eng : Byte) :
    (s.sysEvent die code sev eng).mem = s.mem := by simp [State.sysEvent]

@[simp] theorem regIgnored_mem (s : State) (die : DieId) : (s.regIgnored die).mem = s.mem := by
  simp [State.regIgnored]

@[simp] theorem latchAbandoned_mem (s : State) (a : At) : (s.latchAbandoned a).mem = s.mem := by
  simp [State.latchAbandoned]

@[simp] theorem raiseVector_mem (s : State) (v : Fin 16) : (s.raiseVector v).mem = s.mem := by
  simp [State.raiseVector]

@[simp] theorem sendPending_mem (s : State) : s.sendPending.mem = s.mem := by simp [State.sendPending]

@[simp] theorem alertSet_mem (s : State) (i : Fin 6) : (s.alertSet i).mem = s.mem := by simp [State.alertSet]

@[simp] theorem chipFault_mem (s : State) : s.chipFault.mem = s.mem := by simp [startReset_mem, State.chipFault]

@[simp] theorem endRotations_mem (s : State) (f : TestItem → Bool) : (s.endRotations f).mem = s.mem := by
  simp [State.endRotations]

@[simp] theorem modXd_mem (s : State) (j : JoinId) (f : Xd → Xd) : (s.modXd j f).mem = s.mem := by
  simp [State.modXd]

@[simp] theorem modXdDir_mem (s : State) (j : JoinId) (d : Fin 2) (f : XdDir → XdDir) :
    (s.modXdDir j d f).mem = s.mem := by simp [State.modXdDir]

@[simp] theorem persistPoison_mem (s : State) (p : PartId) (addr : Nat) (who : Option At) (atRetire : Bool) :
    (s.persistPoison p addr who atRetire).mem = s.mem := by
  dsimp only [State.persistPoison]
  (repeat' split) <;> simp [startReset_mem]

@[simp] theorem countCe_mem (s : State) (n : StackId) (ch : ChanId) (addr : Nat) (syn : Word32) :
    (s.countCe n ch addr syn).mem = s.mem := by simp [State.countCe]

@[simp] theorem requestMapout_mem (s : State) (n : StackId) (ch : ChanId) :
    (s.requestMapout n ch).mem = s.mem := by simp [State.requestMapout]

@[simp] theorem marginBurst_mem (s : State) (n : StackId) (ch : ChanId) : (s.marginBurst n ch).mem = s.mem := by
  unfold State.marginBurst
  split <;> rfl

@[simp] theorem burstCrc_mem (s : State) (n : StackId) (ch : ChanId) (view d : Nat) (who : Option At) (wr : Bool)
    (fails : Nat) : (s.burstCrc n ch view d who wr fails).mem = s.mem := by simp [State.burstCrc]

theorem bucket_mem {s t : State} {p : PartId} {d : Nat} (h : s.bucket p d = some t) : t.mem = s.mem := by
  unfold State.bucket at h
  dsimp only at h
  split_ifs at h <;> cases h <;> rfl

theorem thermal_mem {s t : State} {coll : Bool} {d : Nat} (h : s.thermal coll d = some t) : t.mem = s.mem := by
  unfold State.thermal at h
  dsimp only at h
  split_ifs at h <;> cases h <;> rfl

@[simp] theorem bucketAdmit_mem (s : State) (n : StackId) (i : Nat) : (s.bucketAdmit n i).mem = s.mem := by
  unfold State.bucketAdmit
  split
  · rfl
  · split
    · rfl
    · split
      · rfl
      · next h => simp [bucket_mem h]

@[simp] theorem thermAdmit_mem (s : State) (n : StackId) (i : Nat) : (s.thermAdmit n i).mem = s.mem := by
  unfold State.thermAdmit
  split
  · rfl
  · split
    · rfl
    · split
      · rfl
      · next h => simp [thermal_mem h]

@[simp] theorem enqueue_mem (s : State) (r : MemReq) : (s.enqueue r).mem = s.mem := by simp [State.enqueue]

@[simp] theorem payBurst_mem (s : State) (p : PartId) (coll : Bool) (d : Nat) (b : Bool) :
    (s.payBurst p coll d b).1.mem = s.mem := by
  unfold State.payBurst
  split
  · rfl
  · next t h =>
    have ht : t.mem = s.mem := by
      split at h
      · cases h; rfl
      · exact bucket_mem h
    split
    · exact ht
    · next hu => exact (thermal_mem hu).trans ht

@[simp] theorem sendOut_mem (s : State) (f : FabId) (xs : List OutFrame) : (s.sendOut f xs).mem = s.mem := by
  simp [State.sendOut]

@[simp] theorem dropXfer_mem (s : State) (c : CellId) (i : Fin 8) : (s.dropXfer c i).mem = s.mem := by
  simp [State.dropXfer]

@[simp] theorem dmHost_mem (s : State) (c : CellId) (i : Fin 8) (m : DmInstr) (toHost : Bool) :
    (s.dmHost c i m toHost).mem = s.mem := by
  unfold State.dmHost
  split <;> rfl

@[simp] theorem setAttr_mem (s : State) (g : StackId × Nat) (v : BitVec 4) : (s.setAttr g v).mem = s.mem := by
  simp [State.setAttr]

@[simp] theorem setStreamed_mem (s : State) (page : Nat) (b : Bool) : (s.setStreamed page b).mem = s.mem := by
  simp [State.setStreamed]

@[simp] theorem sheetWriteTrailer_mem (s : State) (p : PartId) (result : Nat) :
    (s.sheetWriteTrailer p result).mem = s.mem := by simp [State.sheetWriteTrailer]

@[simp] theorem sheetEnd_mem (s : State) (p : PartId) (code result : Nat) :
    (s.sheetEnd p code result).mem = s.mem := by simp [State.sheetEnd]

@[simp] theorem sheetFail_mem (s : State) (p : PartId) (result : Nat) : (s.sheetFail p result).mem = s.mem := by
  simp [State.sheetFail]

@[simp] theorem sheetSwitch_mem (s : State) (p : PartId) : (s.sheetSwitch p).mem = s.mem := by
  simp [State.sheetSwitch]

@[simp] theorem sheetsTouched_mem (s : State) (unmark : Bool) (a n : Nat) :
    (s.sheetsTouched unmark a n).mem = s.mem := by simp [State.sheetsTouched]

@[simp] theorem partEvent_mem (s : State) (p : PartId) (code : Byte) (sev : Sev) (eng : Byte) (detail : Nat) :
    (s.partEvent p code sev eng detail).mem = s.mem := by simp [State.partEvent]

@[simp] theorem verdictMismatch_mem (s : State) (p : PartId) : (s.verdictMismatch p).mem = s.mem := by
  simp [State.verdictMismatch]

@[simp] theorem checkGroup_mem (s : State) (g : Fin 256) : (s.checkGroup g).mem = s.mem := by
  simp [State.checkGroup]

@[simp] theorem flipGroup_mem (s : State) (g : Fin 256) : (s.flipGroup g).mem = s.mem := by
  simp [State.flipGroup]

@[simp] theorem unbuildGroup_mem (s : State) (g : Fin 256) : (s.unbuildGroup g).mem = s.mem := by
  simp [State.unbuildGroup]

@[simp] theorem routeRejected_mem (s : State) : s.routeRejected.mem = s.mem := by simp [State.routeRejected]

@[simp] theorem routeApply_mem (s : State) : s.routeApply.mem = s.mem := by
  dsimp only [State.routeApply]
  (repeat' split) <;> simp

@[simp] theorem powerApply_mem (s : State) : s.powerApply.mem = s.mem := by simp [State.powerApply]

@[simp] theorem checkGroups_mem (s : State) : s.checkGroups.mem = s.mem := by simp [State.checkGroups]

@[simp] theorem twinEvent_mem (s : State) (p : PartId) (code : Byte) (detail : Nat) :
    (s.twinEvent p code detail).mem = s.mem := by simp [State.twinEvent]

@[simp] theorem restoreEnd_mem (s : State) (p : PartId) (result done : Nat) :
    (s.restoreEnd p result done).mem = s.mem := by simp [State.restoreEnd]

@[simp] theorem mispaired_mem (s : State) (p : PartId) (detail : Nat) : (s.mispaired p detail).mem = s.mem := by
  simp [State.mispaired]

@[simp] theorem twinRefused_mem (s : State) (p : PartId) (mark : Nat) : (s.twinRefused p mark).mem = s.mem := by
  simp [State.twinRefused]

@[simp] theorem twinOut_mem (s : State) (p : PartId) (f : FabId) (mark : Nat) (fs : List OutFrame) :
    (s.twinOut p f mark fs).mem = s.mem := by simp [State.twinOut]

theorem takeMsg_mem {s : State} {p : PartId} {type : Byte} {r : TwinMsg × State} (h : s.takeMsg p type = some r) :
    r.2.mem = s.mem := by
  unfold State.takeMsg at h
  split at h
  · split at h
    · cases h; rfl
    · cases h
  · cases h

@[simp] theorem streamOpen_mem (s : State) (p : PartId) : (s.streamOpen p).mem = s.mem := by
  simp [State.streamOpen]

@[simp] theorem twinFill_mem (s : State) (p : PartId) : (s.twinFill p).mem = s.mem := by simp [State.twinFill]

@[simp] theorem streamReset_mem (s : State) (p : PartId) : (s.streamReset p).mem = s.mem := by
  simp [State.streamReset]

@[simp] theorem mgmtHold_mem (s : State) (p : PartId) (l : List (Nat × Bool)) : (s.mgmtHold p l).mem = s.mem := by
  simp [State.mgmtHold]

@[simp] theorem consumed_mem (s : State) (d : FabId) (f : Frame) (st : BitVec 4) :
    (s.consumed d f st).mem = s.mem := by simp [State.consumed]

@[simp] theorem carryFrame_mem (s : State) (a : DieId) (path : List JoinId) (f : Frame) :
    (s.carryFrame a path f).2.mem = s.mem := carry_mem 2 path a s

theorem takeFrame_mem {s : State} {d : FabId} {cls kind : Nat} {r : Frame × State} (h : s.takeFrame d cls kind = some r) :
    r.2.mem = s.mem := by
  unfold State.takeFrame at h
  split at h
  · cases h
  · dsimp only at h
    split at h
    · cases h; simp
    · cases h; rfl

@[simp] theorem setColld_mem (s : State) (i : Nat) (x : Colld) : (s.setColld i x).mem = s.mem := by
  simp [State.setColld]

@[simp] theorem modColld_mem (s : State) (i : Nat) (f : Colld → Colld) : (s.modColld i f).mem = s.mem := by
  simp [State.modColld]

@[simp] theorem mapColld_mem (s : State) (f : Colld → Colld) : (s.mapColld f).mem = s.mem := by
  simp [State.mapColld]

@[simp] theorem pend_mem (s : State) (p : PartId) (b : StopBit) : (s.pend p b).mem = s.mem := by
  unfold State.pend
  split <;> rfl

@[simp] theorem pendFor_mem (s : State) (p : PartId) (r : Instance) (cond : Bool) (b : StopBit) :
    (s.pendFor p r cond b).mem = s.mem := by simp [State.pendFor]

@[simp] theorem colSend_mem (s : State) (os : List OutFrame) : (s.colSend os).mem = s.mem := by
  simp [State.colSend]

@[simp] theorem bufFault_mem (s : State) (i : Nat) (code : Byte) (a : Nat) :
    (s.bufFault i code a).mem = s.mem := by simp [State.bufFault]

@[simp] theorem modInst_mem (s : State) (i : Nat) (f : Instance → Instance) : (s.modInst i f).mem = s.mem := by
  simp [State.modInst]

@[simp] theorem collDrop_mem (s : State) (i : Nat) (ready : Bool) : (s.collDrop i ready).mem = s.mem := by
  simp [State.collDrop]

@[simp] theorem collRelease_mem (s : State) (i : Nat) : (s.collRelease i).mem = s.mem := by
  unfold State.collRelease
  split <;> simp

theorem takeMessage_mem {s : State} {d : FabId} {kind : Nat} {ready : Bool} {r : Nat × Option EarlyMsg × State}
    (h : s.takeMessage d kind ready = some r) : r.2.2.mem = s.mem := by
  unfold State.takeMessage at h
  split at h
  · cases h
  · next hf =>
    have hs := takeFrame_mem hf
    dsimp only at h
    split at h
    · cases h; simpa using hs
    · split at h <;> cases h <;> simpa using hs

@[simp] theorem noteLocal_mem (s : State) (d : CDesc) (r : Instance) : (s.noteLocal d r).mem = s.mem := by
  simp [State.noteLocal]

@[simp] theorem collQueue_mem (s : State) (i : Nat) (fs : List (Nat × OutFrame)) :
    (s.collQueue i fs).mem = s.mem := by simp [State.collQueue]

@[simp] theorem planeFrame_mem (s : State) (i : Nat) (d : CDesc) (r : SideRun) (asc : Bool) (t k : Nat)
    (f : Frame) : (s.planeFrame i d r asc t k f).mem = s.mem := by simp [State.planeFrame]

@[simp] theorem sendRecord_mem (s : State) (i : Nat) (d : CDesc) (kind : Nat) (bs : List Byte) :
    (s.sendRecord i d kind bs).mem = s.mem := by simp [State.sendRecord]

@[simp] theorem planeStart_mem (s : State) (i : Nat) (d : CDesc) (r : SideRun) :
    (s.planeStart i d r).mem = s.mem := by simp [State.planeStart]

@[simp] theorem dropOld_mem (s : State) (i : Nat) (p : PartId) (off : Nat) : (s.dropOld i p off).mem = s.mem := by
  simp [State.dropOld]

@[simp] theorem recordFrame_mem (s : State) (i size : Nat) (f : Frame) : (s.recordFrame i size f).mem = s.mem := by
  unfold State.recordFrame
  split <;> rfl

@[simp] theorem collResult_mem (s : State) (n : Nat) : (s.collResult n).mem = s.mem := by
  simp [State.collResult]

@[simp] theorem collArmOp_mem (s : State) (i : Nat) : (s.collArmOp i).mem = s.mem := by simp [State.collArmOp]

@[simp] theorem latchLost_mem (s : State) (c : CellId) : (s.latchLost c).mem = s.mem := by
  simp [State.latchLost]

@[simp] theorem stepRegOp_mem (s : State) (p : PartId) (r : Fin 5) (v : Word64) :
    (s.stepRegOp p r v).mem = s.mem := by
  unfold State.stepRegOp
  split <;> rfl

@[simp] theorem cellEvent_mem (s : State) (c : CellId) (code : Byte) (sev : Sev) (eng : Byte) :
    (s.cellEvent c code sev eng).mem = s.mem := by simp [State.cellEvent]

@[simp] theorem partResult_mem (s : State) (r : Nat) (busy : List PartId) : (s.partResult r busy).mem = s.mem := by
  simp [State.partResult]

@[simp] theorem partApplyOp_mem (s : State) : s.partApplyOp.mem = s.mem := by
  dsimp only [State.partApplyOp]
  split
  · simp
  · split
    · simp only [checkGroups_mem, partResult_mem]
      rw [foldl_mem]
      intros
      rfl
    · simp

@[simp] theorem fillBuckets_mem (s : State) (n : StackId) : (s.fillBuckets n).mem = s.mem := by
  dsimp only [State.fillBuckets]
  rw [ite_mem, modStack_mem, ite_self, foldl_mem]
  intros
  rfl

@[simp] theorem tickStack_mem (s : State) (n : StackId) : (s.tickStack n).mem = s.mem := by
  simp [State.tickStack]

@[simp] theorem countHeld_mem (s : State) : s.countHeld.mem = s.mem := rfl

@[simp] theorem fence_mem (s : State) (n : StackId) : (s.fence n).mem = s.mem := by simp [State.fence]

@[simp] theorem stackTemp_mem (s : State) (n : StackId) (t : Int) : (s.stackTemp n t).mem = s.mem := by
  simp [State.stackTemp]

@[simp] theorem connCommit_mem (s : State) (n : StackId) (ch : ChanId) (i m : Fin 318) :
    (s.connCommit n ch i m).mem = s.mem := by simp [State.connCommit]

@[simp] theorem connFails_mem (s : State) (n : StackId) (ch : ChanId) (i : Fin 318) :
    (s.connFails n ch i).mem = s.mem := by
  dsimp only [State.connFails]
  (repeat' split) <;> simp

@[simp] theorem mapoutReqOp_mem (s : State) (n : StackId) (v : Word32) : (s.mapoutReqOp n v).mem = s.mem := by
  simp [State.mapoutReqOp]

@[simp] theorem markPage_mem (s : State) (p : PartId) (mark : Bool) (page : Nat) :
    (s.markPage p mark page).mem = s.mem := by simp [State.markPage]

@[simp] theorem marginLocked_mem (s : State) (die : DieId) : (s.marginLocked die).mem = s.mem := by
  simp [State.marginLocked]

@[simp] theorem marginOp_mem (s : State) (n : StackId) (v : Word32) : (s.marginOp n v).mem = s.mem := by
  unfold State.marginOp
  split <;> rfl

@[simp] theorem xdEventOf_mem (s : State) (j : JoinId) (d : Fin 2) (kind : Nat) (sev : Sev) (act : Byte)
    (g : BitVec 6) (w syn : BitVec 7) (t : Word64) (who : Option At) :
    (s.xdEventOf j d kind sev act g w syn t who).mem = s.mem := by
  unfold State.xdEventOf
  split <;> rfl

@[simp] theorem xdEvent_mem (s : State) (j : JoinId) (d : Fin 2) (kind : Nat) (sev : Sev) (act : Byte)
    (g : BitVec 6) (w syn : BitVec 7) (t : Word64) : (s.xdEvent j d kind sev act g w syn t).mem = s.mem := by
  simp [State.xdEvent]

@[simp] theorem xdPend_mem (s : State) (j : JoinId) (d : Fin 2) (op : XdOp) : (s.xdPend j d op).mem = s.mem := by
  simp [State.xdPend]

@[simp] theorem xdPendOff_mem (s : State) (j : JoinId) (d : Fin 2) : (s.xdPendOff j d).mem = s.mem := by
  simp [State.xdPendOff]

@[simp] theorem xdGroupFails_mem (s : State) (j : JoinId) (d : Fin 2) (c : XdDecl) :
    (s.xdGroupFails j d c).mem = s.mem := by simp [State.xdGroupFails]

@[simp] theorem xdWireFails_mem (s : State) (j : JoinId) (d : Fin 2) (w : BitVec 2) (c : XdDecl) :
    (s.xdWireFails j d w c).mem = s.mem := by simp [State.xdWireFails]

@[simp] theorem xdClockFails_mem (s : State) (j : JoinId) (d : Fin 2) (c : XdDecl) :
    (s.xdClockFails j d c).mem = s.mem := by simp [State.xdClockFails]

@[simp] theorem xdHandleOne_mem (s : State) (j : JoinId) (d : Fin 2) (c : XdDecl) :
    (s.xdHandleOne j d c).mem = s.mem := by
  unfold State.xdHandleOne
  split <;> simp

@[simp] theorem xdHandle_mem (s : State) (j : JoinId) (d : Fin 2) : (s.xdHandle j d).mem = s.mem := by
  simp [State.xdHandle]

@[simp] theorem xdDeclare_mem (s : State) (j : JoinId) (d : Fin 2) (cs : List XdDecl) :
    (s.xdDeclare j d cs).mem = s.mem := by simp [State.xdDeclare]

@[simp] theorem xdCorrected_mem (s : State) (j : JoinId) (d : Fin 2) (gp : Nat × Nat) (syn : BitVec 7) :
    (s.xdCorrected j d gp syn).mem = s.mem := by simp [State.xdCorrected]

@[simp] theorem xdWord_mem (s : State) (j : JoinId) (d : Fin 2) (valid : Bool) (who : Option At) (w : Nat)
    (v : BitVec 39) : (s.xdWord j d valid who w v).mem = s.mem := by
  unfold State.xdWord
  split <;> simp

@[simp] theorem xdCtrlUe_mem (s : State) (j : JoinId) (d : Fin 2) (syn : BitVec 7) :
    (s.xdCtrlUe j d syn).mem = s.mem := by simp [State.xdCtrlUe]

@[simp] theorem xdCredit_mem (s : State) (j : JoinId) (d : Fin 2) (ctl : Word32) :
    (s.xdCredit j d ctl).mem = s.mem := by
  unfold State.xdCredit
  split <;> rfl

@[simp] theorem xdCommand_mem (s : State) (j : JoinId) (d : Fin 2) (op : XdOp) (t : Word64) :
    (s.xdCommand j d op t).mem = s.mem := by simp [State.xdCommand]

@[simp] theorem xdCommandOff_mem (s : State) (j : JoinId) (t : Word64) : (s.xdCommandOff j t).mem = s.mem := by
  unfold State.xdCommandOff
  split <;> rfl

@[simp] theorem xdRepair_mem (s : State) (j : JoinId) (d : Fin 2) (ctl : Word32) :
    (s.xdRepair j d ctl).mem = s.mem := by
  unfold State.xdRepair
  split <;> simp

@[simp] theorem xdAccept_mem (s : State) (j : JoinId) (d : Fin 2) (b : Beat) (ctl : Word32) :
    (s.xdAccept j d b ctl).mem = s.mem := by
  dsimp only [State.xdAccept]
  split <;> simp

@[simp] theorem xdCtlCount_mem (s : State) (j : JoinId) (d : Fin 2) (r : WordRead) (syn : BitVec 7) :
    (s.xdCtlCount j d r syn).mem = s.mem := by
  dsimp only [State.xdCtlCount]
  (repeat' split) <;> simp

@[simp] theorem xdIsolated_mem (s : State) (j : JoinId) (d : Fin 2) : (s.xdIsolated j d).mem = s.mem := by
  simp [State.xdIsolated]

@[simp] theorem xdApply_mem (s : State) (j : JoinId) (d : Fin 2) (op : XdOp) (t : Word64) :
    (s.xdApply j d op t).mem = s.mem := by
  unfold State.xdApply
  split <;> simp

@[simp] theorem xdForceOp_mem (s : State) (j : JoinId) (v : Word32) : (s.xdForceOp j v).mem = s.mem := by
  simp [State.xdForceOp]

@[simp] theorem portDown_mem (s : State) (k : PortId) (retrain : Bool) : (s.portDown k retrain).mem = s.mem := by
  simp [State.portDown]

@[simp] theorem retrain_mem (s : State) (k : PortId) : (s.retrain k).mem = s.mem := by simp [State.retrain]

@[simp] theorem replays_mem (s : State) (k : PortId) : (s.replays k).mem = s.mem := by simp [State.replays]

@[simp] theorem partnerRestarts_mem (s : State) (k : PortId) : (s.partnerRestarts k).mem = s.mem := by
  simp [State.partnerRestarts]

@[simp] theorem laneEnds_mem (s : State) (k : PortId) (l : Nat) : (s.laneEnds k l).mem = s.mem := by
  simp [State.laneEnds]

@[simp] theorem laneDeclared_mem (s : State) (k : PortId) (l : Nat) : (s.laneDeclared k l).mem = s.mem := by
  dsimp only [State.laneDeclared]
  (repeat' split) <;> simp

@[simp] theorem laneAgreed_mem (s : State) (k : PortId) (l : Nat) : (s.laneAgreed k l).mem = s.mem := by
  unfold State.laneAgreed
  split <;> simp

@[simp] theorem laneLate_mem (s : State) (k : PortId) : (s.laneLate k).mem = s.mem := by
  unfold State.laneLate
  split <;> simp

@[simp] theorem trainRefused_mem (s : State) (k : PortId) (code : Byte) : (s.trainRefused k code).mem = s.mem := by
  simp [State.trainRefused]

@[simp] theorem trainIdent_mem (s : State) (k : PortId) (q : PortPartner) : (s.trainIdent k q).mem = s.mem := by
  simp [State.trainIdent]

@[simp] theorem trainAuth_mem (s : State) (k : PortId) (q : PortPartner) : (s.trainAuth k q).mem = s.mem := by
  simp [State.trainAuth]

@[simp] theorem trainLane_mem (s : State) (k : PortId) : (s.trainLane k).mem = s.mem := by
  simp [State.trainLane]

@[simp] theorem trainSelect_mem (s : State) (k : PortId) (bad outBad : BitVec 10) :
    (s.trainSelect k bad outBad).mem = s.mem := by
  dsimp only [State.trainSelect]
  (repeat' split) <;> simp

@[simp] theorem trainActive_mem (s : State) (k : PortId) (asym : Int) : (s.trainActive k asym).mem = s.mem := by
  unfold State.trainActive
  split <;> rfl

@[simp] theorem closeDark_mem (s : State) : s.closeDark.mem = s.mem := by simp [State.closeDark]

@[simp] theorem darkReturn_mem (s : State) (k : PortId) (f : Frame) : (s.darkReturn k f).mem = s.mem := by
  unfold State.darkReturn
  split <;> rfl

@[simp] theorem islandRetrain_mem (s : State) (k : PortId) : (s.islandRetrain k).mem = s.mem := by
  simp [State.islandRetrain]

@[simp] theorem islandEmpties_mem (s : State) (k : PortId) : (s.islandEmpties k).mem = s.mem := by
  simp [State.islandEmpties]

@[simp] theorem chooseParent_mem (s : State) : s.chooseParent.mem = s.mem := by
  dsimp only [State.chooseParent]
  (repeat' split) <;> simp

@[simp] theorem firstLockStep_mem (s : State) : s.firstLockStep.mem = s.mem := by
  unfold State.firstLockStep
  split <;> rfl

@[simp] theorem eject_mem (s : State) (d : FabId) (f : Frame) : (s.eject d f).mem = s.mem := by
  simp [State.eject]

@[simp] theorem fabEvent_mem (s : State) (d : FabId) (code : Byte) : (s.fabEvent d code).mem = s.mem := by
  simp [State.fabEvent]

@[simp] theorem portTick_mem (s : State) (d : FabId) (used : Bool) (entered : List Frame) (k : PortId) :
    (s.portTick d used entered k).mem = s.mem := by
  unfold State.portTick
  split <;> rfl

@[simp] theorem toInject_mem (s : State) (d : FabId) (f : Frame) : (s.toInject d f).mem = s.mem := by
  dsimp only [State.toInject]
  split
  · exact carryFrame_mem ..
  · rfl

@[simp] theorem mntBooked_mem (s : State) (f : Frame) : (s.mntBooked f).mem = s.mem := by
  dsimp only [State.mntBooked]
  (repeat' split) <;> simp

@[simp] theorem twinTakes_mem (s : State) (p : PartId) (a : Nat) (bs : List Byte) :
    (s.twinTakes p a bs).mem = s.mem := by simp [State.twinTakes]

@[simp] theorem putRefused_mem (s : State) (p : PartId) (a : Nat) : (s.putRefused p a).mem = s.mem := by
  simp [State.putRefused]

theorem takeMnt_mem {s : State} {kind : Nat} {r : Frame × State} (h : s.takeMnt kind = some r) : r.2.mem = s.mem := by
  unfold State.takeMnt at h
  split at h <;> cases h
  rfl

@[simp] theorem grantStreams_mem (s : State) (d : FabId) (v : Word64) : (s.grantStreams d v).mem = s.mem := by
  unfold State.grantStreams
  split <;> rfl

@[simp] theorem grantOp_mem (s : State) (d : FabId) (tx : Bool) (i : Nat) (v : Word64) :
    (s.grantOp d tx i v).mem = s.mem := by simp [State.grantOp]

@[simp] theorem robCfgOp_mem (s : State) (d : FabId) (v : Word32) : (s.robCfgOp d v).mem = s.mem := by
  unfold State.robCfgOp
  split <;> rfl

@[simp] theorem fabricCfgOp_mem (s : State) (r : FabricCfgReg) (v : Word32) : (s.fabricCfgOp r v).mem = s.mem := by
  dsimp only [State.fabricCfgOp]
  (repeat' split) <;> simp

@[simp] theorem modRslot_mem (s : State) (i : Fin 2) (f : RouteSlot → RouteSlot) :
    (s.modRslot i f).mem = s.mem := by simp [State.modRslot]

@[simp] theorem routeSlotOp_mem (s : State) (i : Fin 2) (t : RouteTarget) (v : Word64) :
    (s.routeSlotOp i t v).mem = s.mem := by
  unfold State.routeSlotOp
  split <;> rfl

@[simp] theorem routeSlotBegin_mem (s : State) (i : Fin 2) (t : RouteTarget) (v : Word64) :
    (s.routeSlotBegin i t v).mem = s.mem := by
  unfold State.routeSlotBegin
  split <;> rfl

@[simp] theorem routeName_mem (s : State) (i : Fin 2) : (s.routeName i).mem = s.mem := by simp [State.routeName]

@[simp] theorem sealOp_mem (s : State) (i : Fin 2) : (s.sealOp i).mem = s.mem := by
  unfold State.sealOp
  split <;> rfl

@[simp] theorem retireOp_mem (s : State) (i : Fin 2) : (s.retireOp i).mem = s.mem := by
  unfold State.retireOp
  split <;> rfl

@[simp] theorem routeApplyOp_mem (s : State) : s.routeApplyOp.mem = s.mem := by simp [State.routeApplyOp]

@[simp] theorem routeCtlOp_mem (s : State) (v : Word32) : (s.routeCtlOp v).mem = s.mem := by
  simp [State.routeCtlOp]

@[simp] theorem sheetBusy_mem (s : State) (p : PartId) : (s.sheetBusy p).mem = s.mem := by
  simp [State.sheetBusy]

@[simp] theorem sheetSet_mem (s : State) (p : PartId) (f : Sheet → Sheet) : (s.sheetSet p f).mem = s.mem := by
  unfold State.sheetSet
  split <;> rfl

@[simp] theorem sheetCancelOp_mem (s : State) (p : PartId) : (s.sheetCancelOp p).mem = s.mem := by
  simp [State.sheetCancelOp]

@[simp] theorem sheetFill_mem (s : State) (p : PartId) : (s.sheetFill p).mem = s.mem := by
  simp [State.sheetFill]

@[simp] theorem sheetAsk_mem (s : State) (p : PartId) : (s.sheetAsk p).mem = s.mem := by
  unfold State.sheetAsk
  split <;> simp

@[simp] theorem sheetFinish_mem (s : State) (p : PartId) : (s.sheetFinish p).mem = s.mem := by
  simp [State.sheetFinish]

@[simp] theorem hspQueue_mem (s : State) (toHost : Bool) (f : List HspXfer → List HspXfer) :
    (s.hspQueue toHost f).mem = s.mem := by
  unfold State.hspQueue
  split <;> rfl

@[simp] theorem hspAtRisk_mem (s : State) (c : CellId) (i : Fin 8) : (s.hspAtRisk c i).mem = s.mem := by
  simp [State.hspAtRisk]

@[simp] theorem regionOp_mem (s : State) (i : Fin 4096) (cfg : Bool) (v : Word64) :
    (s.regionOp i cfg v).mem = s.mem := by simp [State.regionOp]

@[simp] theorem vector0_mem (s : State) : s.vector0.mem = s.mem := by simp [State.vector0]

@[simp] theorem ringPut_mem (s : State) (e : Word64 × List Byte) : (s.ringPut e).mem = s.mem := by
  simp [State.ringPut]

@[simp] theorem ringDeliver_mem (s : State) : s.ringDeliver.mem = s.mem := by simp [State.ringDeliver]

@[simp] theorem overflowRecord_mem (s : State) (d : Fin 6) : (s.overflowRecord d).mem = s.mem := by
  simp [State.overflowRecord]

@[simp] theorem doorbellOp_mem (s : State) (i : Fin 256) (v : Word32) : (s.doorbellOp i v).mem = s.mem := by
  unfold State.doorbellOp
  split <;> rfl

@[simp] theorem mboxCtlOp_mem (s : State) (v : Word64) : (s.mboxCtlOp v).mem = s.mem := by
  simp [State.mboxCtlOp]

@[simp] theorem powerCycleAsk_mem (s : State) : s.powerCycleAsk.mem = s.mem := by simp [State.powerCycleAsk]

@[simp] theorem unlock_mem (s : State) (t : List Byte) : (s.unlock t).2.2.mem = s.mem := by
  dsimp only [State.unlock]
  split_ifs <;> rfl

@[simp] theorem notifyOp_mem (s : State) (p : PartId) : (s.notifyOp p).mem = s.mem := by simp [State.notifyOp]

@[simp] theorem hcpReset_mem (s : State) : s.hcpReset.mem = s.mem := by simp [State.hcpReset]

@[simp] theorem modPower_mem (s : State) (f : Power → Power) : (s.modPower f).mem = s.mem := by
  simp [State.modPower]

@[simp] theorem modMeter_mem (s : State) (d : DieId) (f : MeterDie → MeterDie) : (s.modMeter d f).mem = s.mem := by
  simp [State.modMeter]

@[simp] theorem modPwrDie_mem (s : State) (d : Fin 4) (f : PwrDie → PwrDie) : (s.modPwrDie d f).mem = s.mem := by
  simp [State.modPwrDie]

@[simp] theorem loadRails_mem (s : State) : s.loadRails.mem = s.mem := by simp [State.loadRails]

@[simp] theorem calibrate_mem (s : State) (d : DieId) (mw : Nat) : (s.calibrate d mw).mem = s.mem := by
  simp [State.calibrate]

@[simp] theorem aim_mem (s : State) (d : Fin 4) (p reason : Nat) : (s.aim d p reason).mem = s.mem := by
  simp [State.aim]

@[simp] theorem countThrottle_mem (s : State) (d : Fin 4) : (s.countThrottle d).mem = s.mem := by
  simp [State.countThrottle]

@[simp] theorem powerApplyOp_mem (s : State) : s.powerApplyOp.mem = s.mem := by
  unfold State.powerApplyOp
  split <;> rfl

@[simp] theorem emergWrite_mem (s : State) (v : BitVec 16) (src : BitVec 2) :
    (s.emergWrite v src).mem = s.mem := by
  unfold State.emergWrite
  split <;> rfl

@[simp] theorem modAge_mem (s : State) (d : DieId) (f : Age → Age) : (s.modAge d f).mem = s.mem := by
  simp [State.modAge]

@[simp] theorem replan_mem (s : State) (d : DieId) (slack : Nat → Nat) (atReset : Bool) :
    (s.replan d slack atReset).mem = s.mem := by
  dsimp only [State.replan]
  (repeat' split) <;> simp

@[simp] theorem ageCfgOp_mem (s : State) (v : Word32) : (s.ageCfgOp v).mem = s.mem := by
  unfold State.ageCfgOp
  split <;> rfl

@[simp] theorem tsbRelease_mem (s : State) : s.tsbRelease.mem = s.mem := by simp [State.tsbRelease]

@[simp] theorem tsbWriteOp_mem (s : State) (word : BitVec 10) (v : BitVec 16) :
    (s.tsbWriteOp word v).mem = s.mem := by simp [State.tsbWriteOp]

@[simp] theorem smbusNack_mem (s : State) : s.smbusNack.mem = s.mem := by simp [State.smbusNack]

@[simp] theorem spdmAnswer_mem (s : State) (req rsp : List Byte) : (s.spdmAnswer req rsp).mem = s.mem := by
  simp [State.spdmAnswer]

@[simp] theorem spdmError_mem (s : State) (code : Byte) : (s.spdmError code).mem = s.mem := by
  simp [State.spdmError]

theorem spdmServe_mem (s : State) (req : List Byte) (code : Byte) (alg : Bool) {f : State → State}
    (hf : (f s).mem = s.mem) : (s.spdmServe req code alg f).mem = s.mem := by
  unfold State.spdmServe
  split_ifs <;> simp [hf]

@[simp] theorem spdmVersion_mem (req : List Byte) (s : State) : (State.spdmVersion req s).mem = s.mem := by
  unfold State.spdmVersion
  split <;> rfl

@[simp] theorem spdmCapabilities_mem (req : List Byte) (s : State) :
    (State.spdmCapabilities req s).mem = s.mem := by simp [State.spdmCapabilities]

@[simp] theorem spdmAlgorithms_mem (req : List Byte) (s : State) : (State.spdmAlgorithms req s).mem = s.mem := by
  refine spdmServe_mem _ _ _ _ ?_
  dsimp only
  split <;> simp

@[simp] theorem spdmDigests_mem (req : List Byte) (s : State) : (State.spdmDigests req s).mem = s.mem := by
  exact spdmServe_mem _ _ _ _ (by simp)

@[simp] theorem spdmCertificate_mem (req : List Byte) (s : State) : (State.spdmCertificate req s).mem = s.mem := by
  refine spdmServe_mem _ _ _ _ ?_
  dsimp only
  split <;> simp

@[simp] theorem spdmSigned_mem (s : State) (req body : List Byte) : (s.spdmSigned req body).mem = s.mem := by
  simp [State.spdmSigned]

@[simp] theorem spdmProve_mem (req : List Byte) (s : State) : (State.spdmProve req s).mem = s.mem := by
  refine spdmServe_mem _ _ _ _ ?_
  dsimp only
  split <;> simp

@[simp] theorem spdmMeasure_mem (req : List Byte) (s : State) : (State.spdmMeasure req s).mem = s.mem := by
  refine spdmServe_mem _ _ _ _ ?_
  dsimp only
  split
  · simp
  · split <;> simp

@[simp] theorem spdmResume_mem (s : State) : s.spdmResume.mem = s.mem := by
  dsimp only [State.spdmResume]
  (repeat' split) <;> simp

@[simp] theorem modFaults_mem (s : State) (f : Faults → Faults) : (s.modFaults f).mem = s.mem := by
  simp [State.modFaults]

@[simp] theorem resetDone_mem (s : State) (r : Reset) : (s.resetDone r).mem = s.mem := by simp [State.resetDone]

@[simp] theorem resetSheet_mem (s : State) (p : PartId) : (s.resetSheet p).mem = s.mem := by
  simp [State.resetSheet]

@[simp] theorem setPhaseNo_mem (s : State) (n : Nat) : (s.setPhaseNo n).mem = s.mem := by
  simp [State.setPhaseNo]

@[simp] theorem trainWith_mem (s : State) (f : XdDir → Word64 → Word64) : (s.trainWith f).mem = s.mem := by
  simp [State.trainWith]

@[simp] theorem trainJoins_mem (s : State) : s.trainJoins.mem = s.mem := by simp [State.trainJoins]

@[simp] theorem holdDies_mem (s : State) (good : DieId → Bool) : (s.holdDies good).mem = s.mem := by
  simp [State.holdDies]

@[simp] theorem dieReports_mem (s : State) : s.dieReports.mem = s.mem := by simp [State.dieReports]

@[simp] theorem logicTest_mem (s : State) : s.logicTest.mem = s.mem := by simp [State.logicTest]

@[simp] theorem resetCmdEngineOp_mem (s : State) (c : CellId) (e : BitVec 4) :
    (s.resetCmdEngineOp c e).mem = s.mem := by simp [startReset_mem, State.resetCmdEngineOp]

@[simp] theorem resetCmdOp_mem (s : State) (v : Word32) : (s.resetCmdOp v).mem = s.mem := by
  unfold State.resetCmdOp
  split <;> simp [startReset_mem]

@[simp] theorem hang_mem (s : State) (w : Watched) : (s.hang w).mem = s.mem := by
  dsimp only [State.hang]
  split
  · rw [foldl_mem (by simp [startReset_mem]), report_mem]
  · simp [startReset_mem]

@[simp] theorem sampleOne_mem (s : State) (w : Watched) : (s.sampleOne w).mem = s.mem := by
  simp [State.sampleOne]

@[simp] theorem loadFuses_mem (s : State) : s.loadFuses.mem = s.mem := by simp [State.loadFuses]

@[simp] theorem trainDir_mem (s : State) (j : JoinId) (d : Fin 2) : (s.trainDir j d).mem = s.mem := by
  simp [State.trainDir]

@[simp] theorem trainJoinsFull_mem (s : State) : s.trainJoinsFull.mem = s.mem := by simp [State.trainJoinsFull]

@[simp] theorem startGoes_mem (s : State) (n : Nat) : (s.startGoes n).mem = s.mem := by simp [startReset_mem, State.startGoes]

@[simp] theorem modTest_mem (s : State) (f : SelfTest → SelfTest) : (s.modTest f).mem = s.mem := by
  simp [State.modTest]

@[simp] theorem testFails_mem (s : State) (x : TestItem) : (s.testFails x).mem = s.mem := by
  unfold State.testFails
  split <;> simp

@[simp] theorem countYields_mem (s : State) : s.countYields.mem = s.mem := by simp [State.countYields]

@[simp] theorem testSwitch_mem (s : State) (x : TestItem) (spare : Nat) (back : Bool) :
    (s.testSwitch x spare back).mem = s.mem := by
  unfold State.testSwitch
  split <;> rfl

@[simp] theorem patOp_mem (s : State) (v : Word64) : (s.patOp v).mem = s.mem := by simp [State.patOp]

@[simp] theorem debugLocked_mem (s : State) : s.debugLocked.mem = s.mem := by simp [State.debugLocked]

@[simp] theorem slCtlOp_mem (s : State) (v : Word32) : (s.slCtlOp v).mem = s.mem := by simp [State.slCtlOp]

@[simp] theorem slSelOp_mem (s : State) (j : Fin 32) (v : Word32) : (s.slSelOp j v).mem = s.mem := by
  unfold State.slSelOp
  split <;> rfl

@[simp] theorem tapLoad_mem (s : State) (ir : Byte) (dr : List Bool) : (s.tapLoad ir dr).mem = s.mem := by
  unfold State.tapLoad
  split <;> rfl

@[simp] theorem tapPass_mem (s : State) : s.tapPass.mem = s.mem := by simp [State.tapPass]

@[simp] theorem colldWordOp_mem (s : State) (i : Nat) (w : Fin 16) (v : Word64) :
    (s.colldWordOp i w v).mem = s.mem := by
  unfold State.colldWordOp
  split <;> rfl

@[simp] theorem ringBaseOp_mem (s : State) (v : Word64) : (s.ringBaseOp v).mem = s.mem := by
  unfold State.ringBaseOp
  split <;> rfl

@[simp] theorem ringCtlOp_mem (s : State) (v : Word32) : (s.ringCtlOp v).mem = s.mem := by
  simp [State.ringCtlOp]

@[simp] theorem pwrCtlOp_mem (s : State) (v : Word32) : (s.pwrCtlOp v).mem = s.mem := by simp [State.pwrCtlOp]

@[simp] theorem countsAtFix_mem (s : State) : s.countsAtFix.mem = s.mem := rfl

@[simp] theorem completes_mem (s : State) (v : Option Word64) : (s.completes v).mem = s.mem := by
  simp [State.completes]

@[simp] theorem config_mem (s : State) (hsp write : Bool) (o len : Nat) (v : Word64) :
    (s.config hsp write o len v).mem = s.mem := by simp [State.config]

@[simp] theorem releaseWaiters_mem (s : State) (c : CellId) (l : BitVec 6) :
    (s.releaseWaiters c l).mem = s.mem := by simp [State.releaseWaiters]

@[simp] theorem abandonLatch_mem (s : State) (c : CellId) (l : BitVec 6) :
    (s.abandonLatch c l).mem = s.mem := by simp [State.abandonLatch]

@[simp] theorem abandonLatches_mem (s : State) (a : At) (keep : Option (BitVec 6)) :
    (s.abandonLatches a keep).mem = s.mem := by simp [State.abandonLatches]

@[simp] theorem instrEvent_mem (s : State) (c : CellId) (t : Tag) (src : Src) (code : Byte) (addr : Word64)
    (syn : Word32) : (s.instrEvent c t src code addr syn).mem = s.mem := by simp [State.instrEvent]

@[simp] theorem instrFaultSyn_mem (s : State) (c : CellId) (t : Tag) (src : Src) (code : Byte) (addr : Word64)
    (syn : Word32) : (s.instrFaultSyn c t src code addr syn).mem = s.mem := by
  simp [State.instrFaultSyn]

@[simp] theorem instrFault_mem (s : State) (c : CellId) (t : Tag) (src : Src) (code : Byte) (addr : Word64) :
    (s.instrFault c t src code addr).mem = s.mem := by simp [State.instrFault]

@[simp] theorem requestReturn_mem (s : State) (c : CellId) : (s.requestReturn c).mem = s.mem := by
  simp [State.requestReturn]

@[simp] theorem poisonEvent_mem (s : State) (c : CellId) (t : Tag) (src : Src) (code : Byte)
    (w : Option (Nat × BitVec 39)) : (s.poisonEvent c t src code w).mem = s.mem := by
  simp [State.poisonEvent]

@[simp] theorem setStop_mem (s : State) (a : At) (b : StopBit) : (s.setStop a b).mem = s.mem := by
  simp [State.setStop]

@[simp] theorem coreFault_mem (s : State) (a : At) (cls : BitVec 4) (op : Byte) (code : Byte) (addr : Word64) :
    (s.coreFault a cls op code addr).mem = s.mem := by simp [State.coreFault]

@[simp] theorem corePoison_mem (s : State) (a : At) (cls : BitVec 4) (op : Byte) (ad n : Nat) :
    (s.corePoison a cls op ad n).mem = s.mem := by simp [State.corePoison]

@[simp] theorem setXfer_mem (s : State) (c : CellId) (i : Fin 8) (r : Option DmRun) :
    (s.setXfer c i r).mem = s.mem := by simp [State.setXfer]

@[simp] theorem modXfer_mem (s : State) (c : CellId) (i : Fin 8) (f : DmRun → DmRun) :
    (s.modXfer c i f).mem = s.mem := by
  unfold State.modXfer
  split <;> simp

@[simp] theorem dmFail_mem (s : State) (c : CellId) (i : Fin 8) (code : Byte) (addr : Word64) :
    (s.dmFail c i code addr).mem = s.mem := by simp [State.dmFail]

@[simp] theorem dmMoved_mem (s : State) (c : CellId) (i : Fin 8) (n : Nat) :
    (s.dmMoved c i n).mem = s.mem := by simp [State.dmMoved]

@[simp] theorem dmReturned_mem (s : State) (c : CellId) (i : Fin 8) : (s.dmReturned c i).mem = s.mem := by
  simp [State.dmReturned]

@[simp] theorem dmAsk_mem (s : State) (c : CellId) (i : Fin 8) (k a n : Nat) (write : Bool) (bs : List Byte) :
    (s.dmAsk c i k a n write bs).mem = s.mem := by
  dsimp only [State.dmAsk]
  (repeat' split) <;> simp

@[simp] theorem dmNext_mem (s : State) (c : CellId) (i : Fin 8) : (s.dmNext c i).mem = s.mem := by
  dsimp only [State.dmNext]
  (repeat' split) <;> simp

@[simp] theorem dmPullAll_mem (s : State) (c : CellId) (i : Fin 8) (m : DmInstr) :
    (s.dmPullAll c i m).mem = s.mem := by simp [State.dmPullAll]

@[simp] theorem completion_mem (s : State) (c : CellId) (i : SlotId) (f : FmtQ) :
    (s.completion c i f).mem = s.mem := by simp [State.completion]

@[simp] theorem verdictWrite_mem (s : State) (p : PartId) (tag : Word32) (red : BitVec 16) :
    (s.verdictWrite p tag red).mem = s.mem := by simp [startReset_mem, State.verdictWrite]

@[simp] theorem verdictIn_mem (s : State) (p : PartId) (tag : Word32) (red : BitVec 16) :
    (s.verdictIn p tag red).mem = s.mem := by simp [State.verdictIn]

@[simp] theorem verdictRelease_mem (s : State) (p : PartId) : (s.verdictRelease p).mem = s.mem := by
  unfold State.verdictRelease
  split <;> simp

@[simp] theorem regDenied_mem (s : State) (a : At) (op : Byte) : (s.regDenied a op).mem = s.mem := by
  simp [State.regDenied]

@[simp] theorem twinLost_mem (s : State) (p : PartId) : (s.twinLost p).mem = s.mem := by
  simp [State.twinLost]

@[simp] theorem twinAbsent_mem (s : State) (p : PartId) : (s.twinAbsent p).mem = s.mem := by
  simp [State.twinAbsent]

@[simp] theorem twinPut_mem (s : State) (p : PartId) (f : FabId) (a : Nat) (bs : List Byte) (bad : List Nat)
    (mark : Nat) : (s.twinPut p f a bs bad mark).mem = s.mem := by simp [State.twinPut]

@[simp] theorem twinMsg_mem (s : State) (p : PartId) (mark : Nat) (bs : List Byte) :
    (s.twinMsg p mark bs).mem = s.mem := by simp [State.twinMsg]

@[simp] theorem sendManifest_mem (s : State) (p : PartId) (c : Word64) :
    (s.sendManifest p c).mem = s.mem := by simp [State.sendManifest]

@[simp] theorem sealSend_mem (s : State) (p : PartId) : (s.sealSend p).mem = s.mem := by
  simp [State.sealSend]

@[simp] theorem restoreCmd_mem (s : State) (p : PartId) (r : Restore) :
    (s.restoreCmd p r).mem = s.mem := by simp [State.restoreCmd]

@[simp] theorem clEvent_mem (s : State) (a : ClArrival) (code : Byte) (detail : Nat) :
    (s.clEvent a code detail).mem = s.mem := by simp [State.clEvent]

@[simp] theorem clDoneAt_mem (s : State) (a : ClArrival) (status : Byte) (addr : Nat) (events : List (Byte × Nat)) :
    (s.clDoneAt a status addr events).mem = s.mem := by
  dsimp only [State.clDoneAt]
  (repeat' split) <;> simp

@[simp] theorem clDone_mem (s : State) (a : ClArrival) (status : Byte) (events : List (Byte × Nat)) :
    (s.clDone a status events).mem = s.mem := by simp [State.clDone]

@[simp] theorem foldl_modFab_mem {f : State → FabId → Fab → Fab} (l : List FabId) (s : State) :
    (l.foldl (fun t e => t.modFab e (f t e)) s).mem = s.mem :=
  foldl_mem (f := fun t e => t.modFab e (f t e)) (fun _ _ => rfl) l s

@[simp] theorem collEndAt_mem (s : State) (i : Nat) (status : Byte) (addr : Nat) :
    (s.collEndAt i status addr).mem = s.mem := by
  unfold State.collEndAt
  dsimp only
  split
  · rfl
  · simp

@[simp] theorem collEnd_mem (s : State) (i : Nat) (status : Byte) : (s.collEnd i status).mem = s.mem := by
  simp [State.collEnd]

@[simp] theorem collSettle_mem (s : State) : s.collSettle.mem = s.mem := by
  unfold State.collSettle
  split
  · rfl
  · refine (foldl_mem (fun t c => ?_) _ _).trans rfl
    dsimp only
    split <;> simp

@[simp] theorem collDeadEnd_mem (s : State) (i : Nat) : (s.collDeadEnd i).mem = s.mem := by
  dsimp only [State.collDeadEnd]
  (repeat' split) <;> simp

@[simp] theorem collMeet_mem (s : State) (i : Nat) (m : EarlyMsg) : (s.collMeet i m).mem = s.mem := by
  unfold State.collMeet
  dsimp only
  split
  · rfl
  · split
    · split
      · simp
      · rw [collRelease_mem]
        split <;> simp
    · simp

@[simp] theorem collMessage_mem (s : State) (i : Nat) (m : EarlyMsg) :
    (s.collMessage i m).mem = s.mem := by
  dsimp only [State.collMessage]
  (repeat' split) <;> simp

@[simp] theorem staleShard_mem (s : State) (i owner : Nat) : (s.staleShard i owner).mem = s.mem := by
  unfold State.staleShard
  split <;> simp

@[simp] theorem verdictKnown_mem (s : State) (i : Nat) (p : PartId) (w : BitVec 16) :
    (s.verdictKnown i p w).mem = s.mem := by simp [State.verdictKnown]

@[simp] theorem xlegTry_mem (s : State) (i xi : Nat) (p : PartId) : (s.xlegTry i xi p).mem = s.mem := by
  unfold State.xlegTry
  split <;> simp

@[simp] theorem xlegEnter_mem (s : State) (i : Nat) (d : CDesc) (w : BitVec 16) :
    (s.xlegEnter i d w).mem = s.mem := by simp [State.xlegEnter]

@[simp] theorem collDisarmOp_mem (s : State) (i : Nat) : (s.collDisarmOp i).mem = s.mem := by
  dsimp only [State.collDisarmOp]
  (repeat' split) <;> simp

@[simp] theorem takeArrivals_mem (s : State) (p : PartId) (c : CellId) (l : BitVec 6) :
    (s.takeArrivals p c l).mem = s.mem := by simp [State.takeArrivals]

@[simp] theorem leadGoesOn_mem (s : State) (c : CellId) : (s.leadGoesOn c).mem = s.mem := by
  simp [State.leadGoesOn]

@[simp] theorem slotCfgOp_mem (s : State) (c : CellId) (v : Word32) : (s.slotCfgOp c v).mem = s.mem := by
  simp [State.slotCfgOp]

@[simp] theorem isaCtlOp_mem (s : State) (c : CellId) (i : SlotId) (v : Word64) :
    (s.isaCtlOp c i v).mem = s.mem := by simp [State.isaCtlOp]

@[simp] theorem activeRegOp_mem (s : State) (by_ : Requester) (c : CellId) (f : CellRegs → CellRegs) :
    (s.activeRegOp by_ c f).mem = s.mem := by simp [State.activeRegOp]

@[simp] theorem plateCfgOp_mem (s : State) (by_ : Requester) (c : CellId) (v : Word32) :
    (s.plateCfgOp by_ c v).mem = s.mem := by simp [State.plateCfgOp]

@[simp] theorem plateDbgOp_mem (s : State) (c : CellId) (v : Word32) :
    (s.plateDbgOp c v).mem = s.mem := by simp [State.plateDbgOp]

@[simp] theorem slotRegOp_mem (s : State) (by_ : Requester) (c : CellId) (i : SlotId) (f : Slot → Slot) :
    (s.slotRegOp by_ c i f).mem = s.mem := by
  unfold State.slotRegOp
  split <;> simp

@[simp] theorem laneBaseOp_mem (s : State) (by_ : Requester) (c : CellId) (i : SlotId) (v : Word32) :
    (s.laneBaseOp by_ c i v).mem = s.mem := slotRegOp_mem ..

@[simp] theorem ctxCtlOp_mem (s : State) (by_ : Requester) (c : CellId) (i : SlotId) (wakeTime : Bool) (v : Word64) :
    (s.ctxCtlOp by_ c i wakeTime v).mem = s.mem := slotRegOp_mem ..

@[simp] theorem useFails_mem (s : State) (u : FrameUse) (st : BitVec 4) :
    (s.useFails u st).mem = s.mem := by
  unfold State.useFails
  split <;> simp

@[simp] theorem useDone_mem (s : State) (u : FrameUse) : (s.useDone u).mem = s.mem := by
  unfold State.useDone
  split <;> simp

@[simp] theorem takeCredit_mem (s : State) (d : FabId) (node : BitVec 16) (sep : BitVec 3) (e : Word64) :
    (s.takeCredit d node sep e).mem = s.mem := by simp [State.takeCredit]

@[simp] theorem ring_mem (s : State) (i : Fin 256) (v : Word64) : (s.ring i v).mem = s.mem := by
  simp [State.ring]

@[simp] theorem hspReset_mem (s : State) : s.hspReset.mem = s.mem := by simp [State.hspReset]

@[simp] theorem throttleWindow_mem (s : State) : s.throttleWindow.mem = s.mem := by
  unfold State.throttleWindow
  split
  · refine (foldl_mem (fun t c => ?_) _ _).trans (by simp)
    split
    · split <;> simp
    · rfl
  · rfl

@[simp] theorem cancelXfers_mem (s : State) (a : At) : (s.cancelXfers a).mem = s.mem := by
  unfold State.cancelXfers
  refine foldl_mem (fun t a => ?_) _ _
  split <;> simp

@[simp] theorem cancelCl_mem (s : State) (a : At) : (s.cancelCl a).mem = s.mem := by
  simp [State.cancelCl]

@[simp] theorem collCmdOp_mem (s : State) (v : Word32) : (s.collCmdOp v).mem = s.mem := by
  unfold State.collCmdOp
  split <;> simp

theorem twinSet_mem (s : State) (p : PartId) {f : State → State} (hf : (f s).mem = s.mem) :
    (s.twinSet p f).mem = s.mem := by
  unfold State.twinSet
  split <;> simp [hf]

@[simp] theorem restoreOp_mem (s : State) (p : PartId) (v : Word32) : (s.restoreOp p v).mem = s.mem := by
  unfold State.restoreOp
  dsimp only
  split
  · exact twinSet_mem _ _ (restoreCmd_mem ..)
  · exact twinSet_mem _ _ (restoreCmd_mem ..)
  · exact twinSet_mem _ _ (restoreCmd_mem ..)
  · rfl

@[simp] theorem modCellRegs_mem (s : State) (c : CellId) (f : CellRegs → CellRegs) :
    (s.modCellRegs c f).mem = s.mem := by simp [State.modCellRegs]

@[simp] theorem bar2_mem (s : State) (write : Bool) (o len : Nat) (v : Word64) :
    (s.bar2 write o len v).mem = s.mem := by simp [State.bar2]

@[simp] theorem readAgain_mem (s : State) (w : RegFlight) (a : RegAccess) (sd : BitVec 5) :
    (s.readAgain w a sd).mem = s.mem := by
  unfold State.readAgain
  split <;> simp

@[simp] theorem Slotting.take_mem (a : Slotting) (d : FabId) (o : Out) (f : Frame) : (a.take d o f).st.mem = a.st.mem := by
  unfold Slotting.take
  dsimp only
  split <;> simp

theorem Slotting.output_mem {a b : Slotting} {d : FabId} {esc : Bool} {f : Frame} (h : a.output d esc f = some b) :
    b.st.mem = a.st.mem := by
  unfold Slotting.output at h
  dsimp only at h
  split at h
  · cases h; simp
  · split at h
    · cases h; simp
    · split at h
      · cases h; simp
      · obtain ⟨o, _, rfl⟩ := Option.map_eq_some_iff.mp h
        simp

theorem Slotting.offer_mem {a b : Slotting} {d : FabId} {f : Frame} (h : a.offer d f = some b) :
    b.st.mem = a.st.mem := by
  unfold Slotting.offer at h
  dsimp only at h
  split at h
  · cases h; simp
  · split at h
    · obtain ⟨o, _, rfl⟩ := Option.map_eq_some_iff.mp h
      simp
    · cases h

@[simp] theorem Slotting.route_mem (a : Slotting) (d : FabId) (c : Cand) : (a.route d c).st.mem = a.st.mem := by
  unfold Slotting.route
  dsimp only
  split
  · simp
  · split
    · split <;> simp
    · split
      · simp
      · split
        · simp
        · split
          · next h => exact (output_mem h :)
          · simp

@[simp] theorem Slotting.reenter_mem (a : Slotting) (d : FabId) (f : Frame) : (a.reenter d f).st.mem = a.st.mem := by
  unfold Slotting.reenter
  dsimp only
  split
  · simp
  · split
    · simp
    · split
      · simp
      · split
        · next h =>
          split at h
          · exact (offer_mem h :)
          · exact (output_mem h :)
        · simp

@[simp] theorem Slotting.inject_mem (a : Slotting) (d : FabId) (f : Frame) : (a.inject d f).st.mem = a.st.mem := by
  unfold Slotting.inject
  dsimp only
  split
  · next h =>
    split at h
    · split at h
      · exact offer_mem h
      · obtain ⟨o, _, rfl⟩ := Option.map_eq_some_iff.mp h
        simp
    · exact offer_mem h
  · simp

theorem Slotting.foldl_mem {α : Type} {f : Slotting → α → Slotting} (h : ∀ a x, (f a x).st.mem = a.st.mem) (l : List α)
    (a : Slotting) : (l.foldl f a).st.mem = a.st.mem := foldl_keeps (fun a => a.st.mem) h l a

@[simp] theorem endUnlock_mem (s : State) : s.endUnlock.mem = s.mem := by
  unfold State.endUnlock
  split <;> rfl
@[simp] theorem advanceTime_mem (s : State) : s.advanceTime.mem = s.mem := by
  rw [advanceTime_eq, keepCopies_mem]
@[simp] theorem countTime_mem (s : State) : s.countTime.mem = s.mem := by rw [countTime_eq]
@[simp] theorem idleTick_mem (s : State) : (idleTick s).mem = s.mem := by simp [idleTick]

end Sys2Proof.Machine
end

section
/-!
SUPPORT. DRAM in form (`memForm`, R298): accounting, reads, writes, admission and scrubbing keep it.
-/
namespace Sys2Proof.Machine

@[simp] theorem ite_dram {c : Prop} [Decidable c] (x y : MemCtl) :
    (if c then x else y).dram = if c then x.dram else y.dram := apply_ite MemCtl.dram c x y
@[simp] theorem ite_wf {c : Prop} [Decidable c] (x y : ProtMem) :
    (if c then x else y).wf = if c then x.wf else y.wf := apply_ite ProtMem.wf c x y

/-- A fold whose every step keeps the form keeps it. -/
theorem foldl_dramWf {α : Type} {f : State → α → State} (h : ∀ t a, t.mem.dram.wf → (f t a).mem.dram.wf) (l : List α)
    {s : State} (hs : s.mem.dram.wf) : (l.foldl f s).mem.dram.wf := List.foldlRecOn l f hs fun t ht a _ => h t a ht

theorem ProtMem.foldl_wf {α : Type} {f : ProtMem → α → ProtMem} (h : ∀ m a, m.wf → (f m a).wf) (l : List α) {m : ProtMem}
    (hm : m.wf) : (l.foldl f m).wf := List.foldlRecOn l f hm fun t ht a _ => h t a ht

theorem ProtMem.flipBits_wf {m : ProtMem} (h : m.wf) (line : Nat) (fs : List (Fin 64 × BitVec 39)) : (m.flipBits line fs).wf :=
  ProtMem.foldl_wf (fun _ _ h => setDiff_wf h _ _) _ h

/-! ### Accounting and writes -/

section
variable {s : State} (hs : s.mem.dram.wf)
include hs

@[simp] theorem flipBits_dramWf (d : Nat) (fs : List (Fin 64 × BitVec 39)) : (s.flipBits d fs).mem.dram.wf :=
  ProtMem.flipBits_wf hs _ _

@[simp] theorem crossed_dramWf (who : Option At) (wr : Bool) (view d : Nat) (w : Nat × List (Fin 64 × BitVec 39)) :
    (s.crossed who wr view d w).mem.dram.wf := by
  dsimp only [State.crossed]
  split <;> simp [hs]

@[simp] theorem noteWord_dramWf (who : Option At) (opt pend : Bool) (view d : Nat) (m : BitVec 39) :
    (s.noteWord who opt pend view d m).mem.dram.wf := by
  have hp : (s.mem.dram.poison (d / 4)).wf := ProtMem.poison_wf hs _
  dsimp only [State.noteWord]
  (repeat' split) <;> simp [hs, hp]

@[simp] theorem noteBurst_dramWf (who : Option At) (opt : Bool) (view d : Nat) : (s.noteBurst who opt view d).mem.dram.wf := by
  have hc (w) : (s.crossed who false view d w).mem.dram.wf := crossed_dramWf hs ..
  dsimp only [State.noteBurst]
  split
  · exact hc _
  · exact foldl_dramWf (fun _ _ ht => noteWord_dramWf ht ..) _ (hc _)

@[simp] theorem dramNote_dramWf (who : Option At) (opt : Bool) (a len : Nat) : (s.dramNote who opt a len).mem.dram.wf := by
  refine foldl_dramWf (fun t q ht => ?_) _ hs
  (repeat' split) <;> simp [ht]

@[simp] theorem mergeRead_dramWf (view d n : Nat) : (s.mergeRead view d n).mem.dram.wf := by
  unfold State.mergeRead
  split <;> simp [hs]

theorem merged_wf (view d : Nat) (bs : List Byte) : (s.merged view d bs).wf := by
  have hw : ((s.mergeRead view d bs.length).mem.dram.write d bs).wf := ProtMem.write_wf (mergeRead_dramWf hs ..) _ _
  dsimp only [State.merged]
  split
  · exact ProtMem.poisonAll_wf hw _
  · exact hw

@[simp] theorem writeBurst_dramWf (view d : Nat) (bs : List Byte) : (s.writeBurst view d bs).mem.dram.wf := by
  have hm : (s.merged view d bs).wf := merged_wf hs ..
  dsimp only [State.writeBurst]
  (repeat' split) <;> simp [hs, hm]

@[simp] theorem dramWrite_dramWf (w : Writer) (a : Nat) (bs : List Byte) : (s.dramWrite w a bs).mem.dram.wf := by
  refine foldl_dramWf (fun t q ht => ?_) _ hs
  (repeat' split) <;> simp [ht]

@[simp] theorem dramPoison_dramWf (a : Nat) (offs : List Nat) : (s.dramPoison a offs).mem.dram.wf := by
  refine foldl_dramWf (fun t o ht => ?_) _ hs
  split
  · exact ht
  · exact ProtMem.poison_wf ht _

@[simp] theorem undefineDram_dramWf (a n : Nat) : (s.undefineDram a n).mem.dram.wf := ProtMem.write_wf hs _ _

@[simp] theorem undefinePages_dramWf (p : PartId) : (s.undefinePages p).mem.dram.wf := by
  unfold State.undefinePages
  split
  · exact foldl_dramWf (fun _ _ ht => undefineDram_dramWf ht _ _) _ hs
  · exact hs

@[simp] theorem abort_dramWf (p : PartId) (cause : Nat) : (s.abort p cause).mem.dram.wf := by
  unfold State.abort
  split <;> simp [hs]

@[simp] theorem moves_dramWf (p : Option PartId) (coll : Bool) (a len : Nat) : (s.moves p coll a len).mem.dram.wf := by
  refine foldl_dramWf (fun t q ht => ?_) _ hs
  split <;> exact ht

@[simp] theorem charge_dramWf (p : PartId) (coll : Bool) (a len : Nat) : (s.charge p coll a len).mem.dram.wf :=
  moves_dramWf hs ..

@[simp] theorem chargeAll_dramWf (p : PartId) (coll : Bool) (l : List (Nat × Nat)) : (s.chargeAll p coll l).mem.dram.wf :=
  foldl_dramWf (fun _ _ ht => charge_dramWf ht ..) _ hs

@[simp] theorem sees_dramWf (p : PartId) (coll : Bool) (who : Option At) (a len : Nat) :
    (s.sees p coll who a len).mem.dram.wf := charge_dramWf (dramNote_dramWf hs ..) ..

theorem admitBursts_dramWf (kept paid ok) (l : List (Option PartId × Bool × Nat)) :
    (State.admitBursts l s kept paid ok).1.mem.dram.wf := by
  induction l generalizing s kept paid ok with
  | nil => exact hs
  | cons q rest ih =>
    obtain ⟨_ | p, coll, d⟩ := q
    · exact ih hs ..
    · dsimp only [State.admitBursts]
      split
      · exact ih hs ..
      · exact ih (by simpa using hs) ..

@[simp] theorem letBursts_dramWf (l : List (Option PartId × Bool × Nat)) : (s.letBursts l).1.mem.dram.wf :=
  admitBursts_dramWf hs ..

@[simp] theorem looks_dramWf (p : PartId) (a len : Nat) : (s.looks p a len).mem.dram.wf := by
  refine foldl_dramWf (fun t q ht => ?_) _ (dramNote_dramWf hs ..)
  split <;> simp [ht]

@[simp] theorem zeroStack_dramWf (n : StackId) : (s.zeroStack n).mem.dram.wf := by
  obtain ⟨hb, hm⟩ := (ProtMem.wf_iff _).1 hs
  exact (ProtMem.wf_iff _).2 ⟨Sparse.filter_wf _ hb, Sparse.filter_wf _ hm⟩

@[simp] theorem scrubMark_dramWf (n : StackId) (ch : ChanId) (w : Nat) (syn : BitVec 7) : (s.scrubMark n ch w syn).mem.dram.wf := by
  have hp : (s.mem.dram.poison w).wf := ProtMem.poison_wf hs _
  dsimp only [State.scrubMark]
  split <;> simp [hp]

@[simp] theorem scrubBurst_dramWf (n : StackId) (ch : ChanId) (d : Nat) : (s.scrubBurst n ch d).mem.dram.wf := by
  have hc (w) : (s.crossed none false d d w).mem.dram.wf := crossed_dramWf hs ..
  dsimp only [State.scrubBurst]
  split
  · exact hc _
  · refine foldl_dramWf (fun t p ht => ?_) _ (hc _)
    split <;> simp [ht]

end

end Sys2Proof.Machine
end

section
/-!
SUPPORT. DRAM in form: vector and mover reads, tables, step boundaries, twins, collectives and register operations keep it.
-/
namespace Sys2Proof.Machine

theorem dramWf_of_ite {c : Prop} [Decidable c] {s t : State} (hs : s.mem.dram.wf) (ht : t.mem.dram.wf) :
    (if c then s else t).mem.dram.wf := by
  split
  · exact hs
  · exact ht

section
variable {s : State} (hs : s.mem.dram.wf)
include hs

@[simp] theorem noteTable_dramWf (r : VxRun) (c : CellId) : (r.noteTable s c).mem.dram.wf := by
  dsimp only [VxRun.noteTable]
  (repeat' split) <;> simp [hs]

@[simp] theorem optStore_dramWf (r : OptRun) (p : PartId) (es : List OptElem) : (r.store s p es).mem.dram.wf := by
  unfold OptRun.store
  extract_lets m40 w s1 s2 s3 s4
  have hw {t : State} (ht : t.mem.dram.wf) (o : Nat × Nat) (bs : List Byte) : (w t o bs).mem.dram.wf := dramWrite_dramWf ht ..
  have h3 : s3.mem.dram.wf := hw (hw (hw hs _ _) _ _) _ _
  exact hw (dramWf_of_ite h3 (hw h3 _ _)) _ _

theorem dmRead_dramWf {c : CellId} {i : SlotId} {x : Side} {n : Nat} {r : List Byte × Bool × State}
    (h : s.dmRead c i x n = some r) : r.2.2.mem.dram.wf := by
  unfold State.dmRead at h
  split at h
  · cases h; exact hs
  · split at h
    · cases h; exact sees_dramWf hs ..
    · cases h
  · cases h

theorem dmReadPart_dramWf {c : CellId} {m : DmInstr} {k n : Nat} {r : List Byte × Bool × State}
    (h : s.dmReadPart c m k n = some r) : r.2.2.mem.dram.wf := by
  refine List.foldlRecOn (m.part s c k n) _ (motive := fun o => ∀ r, o = some r → r.2.2.mem.dram.wf) ?_ ?_ r h
  · intro r hr; cases hr; exact hs
  · intro o ho p _ r hr
    obtain ⟨b, hb, hr⟩ := Option.bind_eq_some_iff.mp hr
    obtain ⟨d, hd, rfl⟩ := Option.map_eq_some_iff.mp hr
    exact dmRead_dramWf (ho b hb) (r := d) hd

@[simp] theorem listLooks_dramWf (p : PartId) (list : Word64) (listN : Word32) : (s.listLooks p list listN).mem.dram.wf := by
  simp [State.listLooks, hs]
@[simp] theorem sheetTake_dramWf (p : PartId) : (s.sheetTake p).mem.dram.wf := by
  dsimp only [State.sheetTake]
  (repeat' split) <;> simp [hs]
@[simp] theorem sheetArmOp_dramWf (p : PartId) : (s.sheetArmOp p).mem.dram.wf := by simp [State.sheetArmOp, hs]
@[simp] theorem sheetCtlOp_dramWf (p : PartId) (v : Word32) : (s.sheetCtlOp p v).mem.dram.wf := by
  simp [State.sheetCtlOp, hs]
@[simp] theorem sheetPiece_dramWf (p : PartId) : (s.sheetPiece p).2.2.mem.dram.wf := by
  dsimp only [State.sheetPiece]
  split <;> simp [hs]
@[simp] theorem sheetServe_dramWf (p : PartId) : (s.sheetServe p).mem.dram.wf := by
  dsimp only [State.sheetServe]
  split <;> simp [hs]

@[simp] theorem recount_dramWf (g : Fin 256) : (s.recount g).mem.dram.wf := by simp [State.recount, hs]
@[simp] theorem applyPart_dramWf (p : PartId) : (s.applyPart p).mem.dram.wf := by
  refine foldl_dramWf (fun t g ht => ?_) _ ?_ <;> simp [*]
@[simp] theorem boundaryApply_dramWf (p : PartId) : (s.boundaryApply p).mem.dram.wf := by simp [State.boundaryApply, hs]
@[simp] theorem cfgApplyOp_dramWf (p : PartId) : (s.cfgApplyOp p).mem.dram.wf := by simp [State.cfgApplyOp, hs]
@[simp] theorem boundary_dramWf (p : PartId) : (s.boundary p).mem.dram.wf := by
  rw [boundary_mem]
  unfold State.boundaryWork
  have hb : ((s.boundaryGroups p).boundaryApply p).mem.dram.wf := by
    refine boundaryApply_dramWf ?_ p
    rwa [boundaryGroups_keep State.mem (fun t g => flipGroup_mem t g) (fun t g => unbuildGroup_mem t g)]
  exact dramWf_of_ite (sheetTake_dramWf hb p) hb

@[simp] theorem twinStore_dramWf (p : PartId) (a : Nat) (bs : List Byte) : (s.twinStore p a bs).mem.dram.wf :=
  charge_dramWf (dramWrite_dramWf hs ..) ..
@[simp] theorem setNegative_dramWf (p : PartId) (b : Fin 2) (x : Negative) (step : Nat) (digest : List Byte) :
    (s.setNegative p b x step digest).mem.dram.wf := by simp [State.setNegative, hs]
@[simp] theorem discard_dramWf (p : PartId) (b : Fin 2) : (s.discard p b).mem.dram.wf := setNegative_dramWf hs ..
@[simp] theorem twinRestartOp_dramWf (p : PartId) : (s.twinRestartOp p).mem.dram.wf := by
  unfold State.twinRestartOp
  extract_lets s1 s2
  have h1 : s1.mem.dram.wf := by simpa [s1] using hs
  have h2 : s2.mem.dram.wf := by
    simp only [s2]
    refine foldl_dramWf (fun t b ht => ?_) _ h1
    split
    · exact discard_dramWf ht ..
    · exact ht
  simpa using h2
@[simp] theorem refixLooks_dramWf (p : PartId) : (s.refixLooks p).mem.dram.wf := by simp [State.refixLooks, hs]
@[simp] theorem twinRefixOp_dramWf (p : PartId) : (s.twinRefixOp p).mem.dram.wf := by simp [State.twinRefixOp, hs]
@[simp] theorem twinArmOp_dramWf (p : PartId) : (s.twinArmOp p).mem.dram.wf := by
  dsimp only [State.twinArmOp]
  (repeat' split) <;> simp [hs]
theorem twinSet_dramWf (p : PartId) {f : State → State} (h : (f s).mem.dram.wf) : (s.twinSet p f).mem.dram.wf := by
  unfold State.twinSet
  split
  · exact h
  · simpa using hs
@[simp] theorem twinCtlOp_dramWf (p : PartId) (v : Word32) : (s.twinCtlOp p v).mem.dram.wf := by
  refine twinSet_dramWf hs p ?_
  extract_lets s1 s2 s3 s4
  have h2 : s2.mem.dram.wf := hs
  have h3 : s3.mem.dram.wf := dramWf_of_ite (twinRefixOp_dramWf h2 p) h2
  have h4 : s4.mem.dram.wf := dramWf_of_ite (twinRestartOp_dramWf h3 p) h3
  exact dramWf_of_ite (twinArmOp_dramWf h4 p) h4
@[simp] theorem sendSlot_dramWf (p : PartId) (i : Nat) (count : Word64) (mark : Nat) :
    (s.sendSlot p i count mark).mem.dram.wf := by simp [State.sendSlot, hs]
@[simp] theorem bodySend_dramWf (p : PartId) (blocks : Nat) (grad gmord flags : List Byte) :
    (s.bodySend p blocks grad gmord flags).mem.dram.wf := by
  dsimp only [State.bodySend]
  (repeat' split) <;> simp [hs]
/-- The read is made a variable first: a comparison of two terms that read would unfold every piece. -/
@[simp] theorem bodyClaim_dramWf (p : PartId) (r : Fin 2) (digest : Word64) : (s.bodyClaim p r digest).mem.dram.wf := by
  unfold State.bodyClaim
  obtain ⟨read, hread⟩ : ∃ read, read = State.dramBytes := ⟨_, rfl⟩
  rw [← hread]
  dsimp only
  (repeat' split) <;> simp [hs]
@[simp] theorem restoreReads_dramWf (p : PartId) : (s.restoreReads p).mem.dram.wf := by
  dsimp only [State.restoreReads]
  (repeat' split) <;> simp [hs]
@[simp] theorem restoreStore_dramWf (a : Nat) (bs : List Byte) : (s.restoreStore a bs).mem.dram.wf := by
  simp [State.restoreStore, hs]

theorem restoreGroups_dramWf (p : PartId) (l : List (Fin 256)) (bs : List Byte) : (s.restoreGroups p l bs).mem.dram.wf := by
  induction l generalizing s bs with
  | nil => exact hs
  | cons g rest ih => exact ih (by simp [hs]) _

@[simp] theorem remoteRead_dramWf (p : PartId) (a n : Nat) : (s.remoteRead p a n).2.2.mem.dram.wf := by
  dsimp only [State.remoteRead]
  (repeat' split) <;> simp [hs]
@[simp] theorem remoteDram_dramWf (p : PartId) (f : Frame) (a : Nat) (bs : List Byte) :
    (s.remoteDram p f a bs).2.mem.dram.wf := by
  unfold State.remoteDram
  extract_lets w s1 s2
  split
  · exact hs
  · simpa using hs
  · have h1 : s1.mem.dram.wf := charge_dramWf (dramWrite_dramWf hs ..) ..
    have h2 : s2.mem.dram.wf := dramWf_of_ite (dramPoison_dramWf h1 ..) h1
    exact dramWf_of_ite (by simpa using h2) h2

@[simp] theorem bufSee_dramWf (i : Nat) (p : PartId) (x : Nat × Nat) : (s.bufSee i p x).mem.dram.wf := by
  simp [State.bufSee, hs]
@[simp] theorem bufSeeAll_dramWf (i : Nat) (p : PartId) (l : List (Nat × Nat)) : (s.bufSeeAll i p l).mem.dram.wf :=
  foldl_dramWf (fun _ _ ht => bufSee_dramWf ht ..) _ hs
@[simp] theorem bufWrite_dramWf (i : Nat) (p : PartId) (a : Nat) (bs : List Byte) (bad : List Nat) :
    (s.bufWrite i p a bs bad).mem.dram.wf := by
  have hf (code : Byte) (a : Nat) : (s.bufFault i code a).mem.dram.wf := by simpa using hs
  refine dramWf_of_ite hs (dramWf_of_ite (hf ..) ?_)
  split
  · exact charge_dramWf (dramPoison_dramWf (dramWrite_dramWf hs ..) ..) ..
  · exact hf ..
@[simp] theorem tableSee_dramWf (d : CDesc) (x : Piece) : (s.tableSee d x).mem.dram.wf := by
  unfold State.tableSee
  split
  · exact hs
  · exact foldl_dramWf (fun _ _ ht => sees_dramWf ht ..) _ hs
@[simp] theorem a2aOwn_dramWf (i : Nat) (d : CDesc) (r : Instance) : (s.a2aOwn i d r).mem.dram.wf := bufWrite_dramWf hs ..
@[simp] theorem satBlocks_dramWf (i : Nat) (p : PartId) (r : Instance) (bs : List Nat) : (s.satBlocks i p r bs).mem.dram.wf :=
  foldl_dramWf (fun _ _ ht => bufWrite_dramWf ht ..) _ hs
@[simp] theorem reduceG16_dramWf (i : Nat) (d : CDesc) (r : Instance) (asc last : Bool) (t k : Nat) (x : Piece) (f : Frame) :
    (s.reduceG16 i d r asc last t k x f).mem.dram.wf := by
  unfold State.reduceG16
  extract_lets bad rec_ loc sums s1 out
  have h1 : s1.mem.dram.wf := by simpa [s1] using hs
  exact dramWf_of_ite (bufWrite_dramWf h1 ..) (by simpa using h1)
@[simp] theorem reduceMordant_dramWf (i : Nat) (d : CDesc) (r : Instance) (asc last : Bool) (t k : Nat) (x : Piece) (f : Frame) :
    (s.reduceMordant i d r asc last t k x f).mem.dram.wf := by
  unfold State.reduceMordant
  extract_lets bad mine differs diff s1 s2
  have h2 : s2.mem.dram.wf := by simpa [s2, s1] using hs
  exact dramWf_of_ite (bufWrite_dramWf (satBlocks_dramWf h2 ..) ..) (by simpa using h2)
@[simp] theorem reduceF32_dramWf (i : Nat) (d : CDesc) (r : Instance) (asc last : Bool) (t k : Nat) (x : Piece) (f : Frame) :
    (s.reduceF32 i d r asc last t k x f).mem.dram.wf := by
  unfold State.reduceF32
  extract_lets loc out s1
  have h1 : s1.mem.dram.wf := by simpa [s1] using hs
  exact dramWf_of_ite (bufWrite_dramWf h1 ..) (by simpa using h1)
@[simp] theorem reduceFrame_dramWf (i : Nat) (d : CDesc) (r : Instance) (asc : Bool) (t k : Nat) (f : Frame) :
    (s.reduceFrame i d r asc t k f).mem.dram.wf := by
  unfold State.reduceFrame
  extract_lets j last x s0 s1 s2 l own bad s3
  have h0 : s0.mem.dram.wf := tableSee_dramWf (bufSee_dramWf hs ..) ..
  have h1 : s1.mem.dram.wf :=
    dramWf_of_ite (reduceMordant_dramWf h0 ..) (dramWf_of_ite (reduceG16_dramWf h0 ..) (reduceF32_dramWf h0 ..))
  have h2 : s2.mem.dram.wf := by simpa [s2] using h1
  refine dramWf_of_ite hs (dramWf_of_ite ?_ h2)
  have h3 : s3.mem.dram.wf := dramWf_of_ite (by simpa using h2) h2
  simpa using bufSeeAll_dramWf h3 i d.part own
@[simp] theorem gatherFrame_dramWf (i : Nat) (d : CDesc) (r : Instance) (asc : Bool) (t tag k : Nat) (f : Frame) :
    (s.gatherFrame i d r asc t tag k f).mem.dram.wf := by
  unfold State.gatherFrame
  extract_lets j x bad bs s1 s2
  have h2 : s2.mem.dram.wf := by simpa [s2] using bufWrite_dramWf hs ..
  exact dramWf_of_ite hs (dramWf_of_ite (by simpa using h2) h2)
@[simp] theorem a2aFrame_dramWf (i : Nat) (d : CDesc) (r : Instance) (j k : Nat) (f : Frame) :
    (s.a2aFrame i d r j k f).mem.dram.wf := by
  unfold State.a2aFrame
  extract_lets l n bad a s1
  have h1 : s1.mem.dram.wf := bufWrite_dramWf hs ..
  exact dramWf_of_ite (by simpa using hs) (by simpa using h1)
@[simp] theorem dataFrame_dramWf (i : Nat) (d : CDesc) (r : Instance) (t k : Nat) (f : Frame) :
    (s.dataFrame i d r t k f).mem.dram.wf := by
  unfold State.dataFrame
  extract_lets asc s1
  have h1 : s1.mem.dram.wf := dramWf_of_ite (by simpa using hs) hs
  refine dramWf_of_ite (reduceFrame_dramWf h1 ..) (dramWf_of_ite (gatherFrame_dramWf h1 ..) (dramWf_of_ite ?_ ?_))
  rotate_left
  · exact gatherFrame_dramWf h1 ..
  split
  · exact a2aFrame_dramWf h1 ..
  · exact h1
@[simp] theorem undefineChunks_dramWf (d : CDesc) (r : Instance) : (s.undefineChunks d r).mem.dram.wf := by
  refine foldl_dramWf (fun t x ht => ?_) _ hs
  split <;> simp [ht]
@[simp] theorem collStart_dramWf (i : Nat) (arrivals : List ClArrival) : (s.collStart i arrivals).mem.dram.wf := by
  unfold State.collStart
  split
  · exact hs
  · extract_lets x d q lens r early s1 s2 s3 s4 s5 s5' s6 s7 s8 s9
    have h1 : s1.mem.dram.wf := by simpa [s1] using hs
    refine dramWf_of_ite (by simpa using h1) ?_
    split
    · have h2 : s2.mem.dram.wf := by simpa [s2] using h1
      have h4 : s4.mem.dram.wf := by simpa [s4, s3] using h2
      have h5 : s5.mem.dram.wf := bufSeeAll_dramWf (foldl_dramWf (fun _ _ ht => sees_dramWf ht ..) _ h4) ..
      have h5' : s5'.mem.dram.wf := foldl_dramWf (fun _ _ ht => tableSee_dramWf ht ..) _ h5
      have h6 : s6.mem.dram.wf := by simpa [s6] using h5'
      have h7 : s7.mem.dram.wf := dramWf_of_ite (a2aOwn_dramWf h6 ..) h6
      have h9 : s9.mem.dram.wf := by simpa [s9, s8] using h7
      simpa using h9
    · simpa using h1
@[simp] theorem flagBlocks_dramWf (i : Nat) (d : CDesc) (r : Instance) : (s.flagBlocks i d r).mem.dram.wf := by
  unfold State.flagBlocks
  extract_lets b blocks flags bleed gm s1 fb red s2 grad gmord side s3
  have h1 : s1.mem.dram.wf := by simpa [s1] using bufSee_dramWf hs ..
  have h3 : s3.mem.dram.wf := by simpa [s3] using bufWrite_dramWf (bufSee_dramWf h1 ..) ..
  exact dramWf_of_ite h1 (bodySend_dramWf h3 ..)
@[simp] theorem sideTry_dramWf (i : Nat) : (s.sideTry i).mem.dram.wf := by
  unfold State.sideTry
  extract_lets x d tag got rs red spread lim w0 w s1
  split
  · exact hs
  · have h1 : s1.mem.dram.wf := by simpa [s1] using hs
    exact dramWf_of_ite (by simpa using bufWrite_dramWf h1 ..) hs
@[simp] theorem buildGroup_dramWf (g : Fin 256) (flags : List (BitVec 2)) (own : Nat → Bool) :
    (s.buildGroup g flags own).mem.dram.wf := charge_dramWf (dramWrite_dramWf (sees_dramWf hs ..) ..) ..

@[simp] theorem abandonStep_dramWf (p : PartId) : (s.abandonStep p).mem.dram.wf := by
  unfold State.abandonStep
  split
  · exact hs
  · refine foldl_dramWf (fun t c ht => ?_) _ (by simp [hs])
    dsimp only
    (repeat' split) <;> simp [ht]
@[simp] theorem leadArrives_dramWf (a : At) (q : PartId) (l : BitVec 6) (w : Wait) : (s.leadArrives a q l w).mem.dram.wf := by
  simp [State.leadArrives, hs]

@[simp] theorem serveWrite_dramWf (r : MemReq) : (s.serveWrite r).mem.dram.wf := by
  dsimp only [State.serveWrite]
  (repeat' split) <;> simp [hs]

@[simp] theorem bringupOp_dramWf (v : Word32) : (s.bringupOp v).mem.dram.wf := by
  simp [State.bringupOp, hs]
@[simp] theorem pageCmdOp_dramWf (v : Word64) : (s.pageCmdOp v).mem.dram.wf := by
  dsimp only [State.pageCmdOp]
  (repeat' split) <;> simp [hs]
@[simp] theorem emptyFilling_dramWf : s.emptyFilling.mem.dram.wf := by
  refine foldl_dramWf (fun t p ht => foldl_dramWf (fun u b hu => ?_) _ ht) _ hs
  split <;> simp [hu]

end

end Sys2Proof.Machine
end

section
/-!
SUPPORT. DRAM in form: restores, transfers, host pieces, the end of a context and every reset keep it.
-/
namespace Sys2Proof.Machine

/-- A restore's copy of the pages, as a function, keeps DRAM in form. -/
def PagesFromDramWf (F : State → PartId → Nat → List Word64 → List Nat → Nat → State × Nat × Bool) : Prop :=
  ∀ l p b ds i s, s.mem.dram.wf → (F s p b ds l i).1.mem.dram.wf

/-- The read of the pieces is made a variable first, as in `pagesFromKeeps`. -/
theorem pagesFromDramWf : PagesFromDramWf State.restorePagesFrom := by
  delta State.restorePagesFrom State.restorePagesFrom._f
  obtain ⟨got, hgot⟩ : ∃ got, got = Twin.gotBytes := ⟨_, rfl⟩
  rw [← hgot]
  intro l p b ds
  induction l with
  | nil => intro i s hs; exact hs
  | cons pg rest ih =>
    intro i s hs
    dsimp only [List.brecOn, List.brecOn.go] at ih ⊢
    split
    · exact hs
    · split
      · exact ih _ _ (restoreStore_dramWf hs ..)
      · exact hs

/-- The end of a restore, as a function of the twin's state, keeps DRAM in form. -/
def RestoreEndDramWf (F : State → PartId → Fin 2 → State) : Prop := ∀ s p b, s.mem.dram.wf → (F s p b).mem.dram.wf

theorem restorePagesEnd_dramWf : RestoreEndDramWf State.restorePagesEnd := by
  delta State.restorePagesEnd
  obtain ⟨got, hgot⟩ : ∃ got, got = Twin.gotBytes := ⟨_, rfl⟩
  rw [← hgot]
  intro s p b hs
  dsimp only
  split
  · rwa [restoreEnd_mem]
  · rw [restoreEnd_mem]; exact pagesFromDramWf _ _ _ _ _ _ hs

theorem restoreRecordEnd_dramWf : RestoreEndDramWf State.restoreRecordEnd := by
  delta State.restoreRecordEnd
  obtain ⟨got, hgot⟩ : ∃ got, got = Twin.gotBytes := ⟨_, rfl⟩
  rw [← hgot]
  intro s p b hs
  dsimp only
  split
  · rwa [restoreEnd_mem]
  · rw [restoreEnd_mem]; exact restoreStore_dramWf hs ..

@[simp] theorem sheetsAbort_mem (s : State) : s.sheetsAbort.mem = s.mem := by
  refine (foldl_mem (fun t p => ?_) _ _).trans rfl
  split <;> simp
@[simp] theorem freeStore_mem (s : State) (c : CellId) (a n : Nat) : (s.freeStore c a n).mem = s.mem := (rfl)
@[simp] theorem startOpt_mem (s : State) (c : CellId) (m : VxInstr) : (s.startOpt c m).mem = s.mem := by
  dsimp only [State.startOpt]
  split <;> simp
@[simp] theorem startRmode_mem (s : State) (c : CellId) (m : VxInstr) : (s.startRmode c m).mem = s.mem := by
  simp [State.startRmode]
@[simp] theorem ctxStartOp_mem (s : State) (c : CellId) (i : SlotId) (v : Word64) : (s.ctxStartOp c i v).mem = s.mem := by
  dsimp only [State.ctxStartOp]
  (repeat' split) <;> simp
@[simp] theorem dmPut_mem (s : State) (c : CellId) (i : Fin 8) (k : Nat) (bs : List Byte) (bad : Bool) :
    (s.dmPut c i k bs bad).mem = s.mem := by
  dsimp only [State.dmPut]
  (repeat' split) <;> simp
@[simp] theorem dmDeliver_mem (s : State) (c : CellId) (i : Fin 8) (k : Nat) (bs : List Byte) (bad : Bool) :
    (s.dmDeliver c i k bs bad).mem = s.mem := by
  unfold State.dmDeliver
  split
  · rfl
  · exact foldl_mem (fun t p => dmPut_mem ..) _ s
@[simp] theorem dmArrive_mem (s : State) (c : CellId) (i : Fin 8) (k : Nat) (bs : List Byte) (bad : Bool) :
    (s.dmArrive c i k bs bad).mem = s.mem := by
  unfold State.dmArrive
  (repeat' split) <;> simp
@[simp] theorem dmStores_mem (s : State) (c : CellId) (i : Fin 8) (m : DmInstr) : (s.dmStores c i m).mem = s.mem := by
  refine foldl_mem (fun t p => ?_) _ s
  split <;> simp

section
variable {s : State} (hs : s.mem.dram.wf)
include hs

@[simp] theorem endContext_dramWf (a : At) (cause : BitVec 4) : (s.endContext a cause).mem.dram.wf := by
  unfold State.endContext
  rw [modCell_mem]
  split <;> simp [hs]

theorem dmPushAll_dramWf (c : CellId) (i : Fin 8) (m : DmInstr) : (s.dmPushAll c i m).mem.dram.wf := by
  refine foldl_dramWf (fun t kn ht => ?_) _ hs
  split
  · simp [ht]
  · next h => simpa using dmRead_dramWf ht h

@[simp] theorem dmStart_dramWf (c : CellId) (i : Fin 8) (m : DmInstr) : (s.dmStart c i m).mem.dram.wf := by
  dsimp only [State.dmStart]
  (repeat' split) <;> simp [hs, dmPushAll_dramWf]

theorem dmUndefine_dramWf (c : CellId) (m : DmInstr) : (s.dmUndefine c m).mem.dram.wf := by
  refine foldl_dramWf (fun t kn ht => ?_) _ hs
  (repeat' split) <;> simp [ht]

@[simp] theorem dmEnd_dramWf (c : CellId) (i : Fin 8) (r : DmRun) : (s.dmEnd c i r).mem.dram.wf := by
  unfold State.dmEnd
  extract_lets s1 q late sd t hsp s2
  have h1 : s1.mem.dram.wf := by simpa [s1] using hs
  have h2 : s2.mem.dram.wf := dramWf_of_ite (dramWf_of_ite h1 h1) h1
  refine dramWf_of_ite h1 (dramWf_of_ite ?_ ?_)
  · simpa using h2
  · simpa using dmUndefine_dramWf h2 ..

@[simp] theorem serve_dramWf (r : MemReq) : (s.serve r).mem.dram.wf := by
  refine dramWf_of_ite hs ?_
  rw [dmNext_mem]
  refine dramWf_of_ite (serveWrite_dramWf hs r) ?_
  simpa using dramNote_dramWf hs ..

@[simp] theorem remoteWrite_dramWf (f : Frame) : (s.remoteWrite f).2.mem.dram.wf := by
  dsimp only [State.remoteWrite]
  (repeat' split) <;> simp [hs]

@[simp] theorem hspServe_dramWf (toHost : Bool) (h : HspXfer) : (s.hspServe toHost h).mem.dram.wf := by
  unfold State.hspServe
  split
  · simpa using hs
  · extract_lets k n sd risk s1 h' g s2 rd hsp s3
    have h1 : s1.mem.dram.wf := dramWf_of_ite (by simpa using hs) hs
    have h2 : s2.mem.dram.wf := by simpa [s2] using h1
    split
    · simpa using h1
    · split
      · split
        · simpa using h2
        · split
          · simpa using h2
          · next hr => simpa using dmReadPart_dramWf h2 hr
      · simpa [s3] using h2

@[simp] theorem resetContext_dramWf (a : At) (cause : BitVec 4) : (s.resetContext a cause).mem.dram.wf := by
  unfold State.resetContext
  extract_lets s1
  have h1 : s1.mem.dram.wf := by simpa [s1] using hs
  refine dramWf_of_ite hs ?_
  split
  · exact dramWf_of_ite (abort_dramWf (abandonStep_dramWf h1 ..) ..) h1
  · exact h1

@[simp] theorem resetCellEngine_dramWf (c : CellId) (e : BitVec 4) : (s.resetCellEngine c e).mem.dram.wf := by
  have h1 := resetContext_dramWf (resetContext_dramWf hs ⟨c, 0⟩ 2) ⟨c, 1⟩ 2
  unfold State.resetCellEngine
  rw [modCell_mem]
  split <;> simpa using h1

theorem resetPartCell_dramWf (c : CellId) : (s.resetPartCell c).mem.dram.wf := by
  have h1 := resetContext_dramWf (resetContext_dramWf hs ⟨c, 0⟩ 4) ⟨c, 1⟩ 4
  unfold State.resetPartCell
  extract_lets s1 s2
  have h2 : s2.mem.dram.wf := by simpa [s2, s1] using h1
  rwa [modCell_mem]

@[simp] theorem resetPartition_dramWf (p : PartId) : (s.resetPartition p).mem.dram.wf := by
  unfold State.resetPartition
  extract_lets s0 s1 mine s2 gone s3 s4 s5 mem s5'
  have h1 : s1.mem.dram.wf := foldl_dramWf (fun t c ht => resetPartCell_dramWf ht c) _ (by simp [s0, hs])
  have h2 : s2.mem.dram.wf := by simpa [s2] using h1
  have h3 : s3.mem = s2.mem := 
    foldl_mem (f := fun t c => t.modCell c fun x => x.modEng fun e => { e with clPending := [] }) (fun _ _ => rfl) _ s2
  rw [← h3] at h2
  have h5 : s5'.mem.dram.wf := h2
  simpa using h5

theorem coreReset_dramWf : s.coreReset.mem.dram.wf := by
  dsimp only [State.coreReset]
  exact emptyFilling_dramWf (by simpa using hs)

end

theorem coldState_dramWf (s : State) (aux : Bool) : (s.coldState aux).mem.dram.wf := ProtMem.empty_wf

end Sys2Proof.Machine
end

section
/-!
SUPPORT. Results of a command: what issue, memory access, dispatch, bursts and register writes do to DRAM's form.
-/
namespace Sys2Proof.Machine

/-- A result whose next state, if there is one, has DRAM in form. -/
def DramForms : Res → Prop
  | .next t => t.mem.dram.wf
  | _ => True

@[simp] theorem dramForms_next (t : State) : DramForms (.next t) = (t.mem.dram.wf = true) := rfl
@[simp] theorem dramForms_fault (f : Fault) : DramForms (.fault f) = True := rfl
@[simp] theorem dramForms_refused (r : Refusal) : DramForms (.refused r) = True := rfl
@[simp] theorem dramForms_ite {c : Prop} [Decidable c] (a b : Res) :
    DramForms (if c then a else b) = if c then DramForms a else DramForms b := apply_ite DramForms c a b

theorem dramForms_of_ite {c : Prop} [Decidable c] {a b : Res} (ha : DramForms a) (hb : DramForms b) :
    DramForms (if c then a else b) := by
  split
  · exact ha
  · exact hb

/-- Only the memory of a state is asked. -/
theorem DramForms.of_mem {s t : State} (hs : s.mem.dram.wf) (h : t.mem = s.mem) : DramForms (.next t) := by
  rwa [dramForms_next, h]

section
variable {s : State} (hs : s.mem.dram.wf)
include hs

@[simp] theorem hold_dramForms (a : At) (code : BitVec 4) : DramForms (s.hold a code) := by simp [State.hold, hs]
@[simp] theorem trap_dramForms (a : At) (cls : BitVec 4) (op code : Byte) (addr : Word64) :
    DramForms (s.trap a cls op code addr) := by simp [State.trap, hs]
@[simp] theorem dispatch_dramForms (a : At) (f : Engines → Engines) : DramForms (s.dispatch a f) := by simp [State.dispatch, hs]
@[simp] theorem finish_dramForms (a : At) (f : Ctx → Ctx) : DramForms (s.finish a f) := by simp [State.finish, hs]
@[simp] theorem storeOp_dramForms (a : At) (ad : Nat) (bs : List Byte) : DramForms (s.storeOp a ad bs) := by
  simp [State.storeOp, hs]

/-- An instruction leaves the memory before it acts. -/
theorem issue_dramForms {a : At} {p : Pred} {cls : BitVec 4} {op : Byte} {ok : Checks} {names : List (BitVec 5)}
    {body : State → Res} (h : DramForms (body s)) : DramForms (s.issue a p cls op ok names body) := by
  unfold State.issue
  split
  · exact hs
  · split
    · split <;> simp [hs]
    · split
      · simp [hs]
      · split
        · simp [hs]
        · split
          · simp [hs]
          · split
            · exact hold_dramForms hs ..
            · exact h

theorem finishes_dramForms {a : At} {p : Pred} {op : Byte} {ok : Checks} {names : List (BitVec 5)} {f : State → Ctx → Ctx} :
    DramForms (s.issue a p 1 op ok names fun s => s.finish a (f s)) := issue_dramForms hs (finish_dramForms hs ..)
theorem intOp_dramForms {a : At} {p : Pred} {f : FmtS} {op : Byte} {g : Word64 → Word64 → Word64} :
    DramForms (s.intOp a p f op g) := issue_dramForms hs (by simp [hs, State.finish])
theorem immOp_dramForms {a : At} {p : Pred} {f : FmtSI} {op : Byte} {ok : Checks} {names : List (BitVec 5)}
    {g : Word64 → Word32 → Word64} : DramForms (s.immOp a p f op ok names g) :=
  issue_dramForms hs (finish_dramForms hs ..)
theorem fltOp_dramForms {a : At} {p : Pred} {f : FmtS} {op : Byte} {ok : Checks} {names : List (BitVec 5)}
    {g : State → Word32} : DramForms (s.fltOp a p f op ok names g) := issue_dramForms hs (finish_dramForms hs ..)

@[simp] theorem loadOp_dramForms (a : At) (op : Byte) (ad n : Nat) (f : Nat → Ctx → Ctx) : DramForms (s.loadOp a op ad n f) := by
  unfold State.loadOp
  split
  · simp [hs]
  · exact finish_dramForms hs ..

theorem memOp_dramForms {a : At} {p : Pred} {op : Byte} {ok : Checks} {names : List (BitVec 5)} {n : Nat}
    {addr : State → Word64} {wr : Bool} {body : State → Nat → Res} (h : ∀ k, DramForms (body s k)) :
    DramForms (s.memOp a p op ok names n addr wr body) := by
  refine issue_dramForms hs ?_
  dsimp only
  split
  · exact hold_dramForms hs ..
  · split
    · exact trap_dramForms hs ..
    · split
      · exact trap_dramForms hs ..
      · exact h _

theorem loads_dramForms {a : At} {p : Pred} {op : Byte} {ok : Checks} {names : List (BitVec 5)} {n : Nat}
    {addr : State → Word64} {wr : Bool} {f : State → Nat → Ctx → Ctx} :
    DramForms (s.memOp a p op ok names n addr wr fun s ad => s.loadOp a op ad n (f s)) :=
  memOp_dramForms hs fun _ => loadOp_dramForms hs ..
theorem stores_dramForms {a : At} {p : Pred} {op : Byte} {ok : Checks} {names : List (BitVec 5)} {n : Nat}
    {addr : State → Word64} {wr : Bool} {bs : State → List Byte} :
    DramForms (s.memOp a p op ok names n addr wr fun s ad => s.storeOp a ad (bs s)) :=
  memOp_dramForms hs fun _ => storeOp_dramForms hs ..

@[simp] theorem branchTo_dramForms (a : At) (op : Byte) (t : Int) (f : Ctx → Ctx) : DramForms (s.branchTo a op t f) := by
  unfold State.branchTo
  split
  · exact trap_dramForms hs ..
  · simp [hs]

theorem mxDispatch_dramForms {a : At} {p : Pred} {f : FmtM} {kind : MxKind} {op : Byte} {useA useB : Bool} :
    DramForms (s.mxDispatch a p f kind op useA useB) := by
  refine issue_dramForms hs ?_
  dsimp only [State.trap, State.hold, State.dispatch]
  (repeat' split) <;> simp [hs]

theorem vxDispatch_dramForms {a : At} {p : Pred} {op : Byte} {m : VxInstr} : DramForms (s.vxDispatch a p op m) := by
  unfold State.vxDispatch
  refine issue_dramForms hs ?_
  dsimp only
  refine dramForms_of_ite (trap_dramForms hs ..) (dramForms_of_ite (hold_dramForms hs ..) (dispatch_dramForms ?_ ..))
  split <;> simp [hs]
theorem vDispatch_dramForms {a : At} {p : Pred} {op : Byte} {f : FmtV} : DramForms (s.vDispatch a p op f) :=
  vxDispatch_dramForms hs
theorem viDispatch_dramForms {a : At} {p : Pred} {op : Byte} {f : FmtVI} : DramForms (s.viDispatch a p op f) :=
  vxDispatch_dramForms hs

theorem dmDispatch_dramForms {a : At} {p : Pred} {f : FmtQ} {op : Byte} {useT copy : Bool} :
    DramForms (s.dmDispatch a p f op useT copy) :=
  issue_dramForms hs (by simp [State.trap, State.hold, State.dispatch, hs])
theorem clDispatch_dramForms {a : At} {p : Pred} {f : FmtQ} {op : Byte} : DramForms (s.clDispatch a p f op) :=
  issue_dramForms hs (by simp [State.trap, State.hold, State.dispatch, hs])
@[simp] theorem trDispatch_dramForms (a : At) (op : Byte) (value : Word64) (imm : Word32) :
    DramForms (s.trDispatch a op value imm) := 
  dramForms_of_ite (finish_dramForms hs ..) (dramForms_of_ite (hold_dramForms hs ..) (dispatch_dramForms hs ..))

@[simp] theorem stPhaseFault_dramForms (a : At) (op : Byte) (q : Option PartId) : DramForms (s.stPhaseFault a op q) := by
  dsimp only [State.stPhaseFault, State.trap]
  split <;> simp [hs]

theorem regWrite_dramForms {by_ : Requester} {die : DieId} {o : Bool} {f : State → State} (h : (f s).mem.dram.wf) :
    DramForms (s.regWrite by_ die o f) := by
  unfold State.regWrite
  (repeat' split) <;> simp [h, hs]

theorem auxWrite_dramForms {by_ : Requester} {f : State → State} (h : (f s).mem.dram.wf) : DramForms (s.auxWrite by_ f) := by
  unfold State.auxWrite
  (repeat' split) <;> simp [h, hs]

theorem twinWrite_dramForms {by_ : Requester} {p : PartId} {f : State → State} (h : (f s).mem.dram.wf) :
    DramForms (s.twinWrite by_ p f) := by
  refine regWrite_dramForms hs ?_
  split <;> simp [h, hs]

theorem ctxReg_dramForms {a : At} {f : FmtSI} {op : Byte} {ok : RegEntry → Bool} {body : RegAccess → Res}
    (h : ∀ o r, regAccess o = some r → DramForms (body r)) : DramForms (s.ctxReg a f op ok body) := by
  unfold State.ctxReg
  dsimp only
  split
  · exact trap_dramForms hs ..
  · next r hr =>
    obtain ⟨o, _, ho⟩ := Option.bind_eq_some_iff.mp hr
    exact dramForms_of_ite (trap_dramForms hs ..) (dramForms_of_ite (trap_dramForms hs ..) (h o r ho))

/-! ### Frames and messages taken -/

theorem takeFrame_dramWf {d : FabId} {cls kind : Nat} {r : Frame × State} (h : s.takeFrame d cls kind = some r) :
    r.2.mem.dram.wf := (takeFrame_mem h).symm ▸ hs
theorem takeMsg_dramWf {p : PartId} {type : Byte} {r : TwinMsg × State} (h : s.takeMsg p type = some r) :
    r.2.mem.dram.wf := (takeMsg_mem h).symm ▸ hs
theorem takeMnt_dramWf {kind : Nat} {r : Frame × State} (h : s.takeMnt kind = some r) : r.2.mem.dram.wf :=
  (takeMnt_mem h).symm ▸ hs
theorem takeMessage_dramWf {d : FabId} {kind : Nat} {ready : Bool} {r : Nat × Option EarlyMsg × State}
    (h : s.takeMessage d kind ready = some r) : r.2.2.mem.dram.wf := (takeMessage_mem h).symm ▸ hs

/-! ### Bursts, collectives and the mailbox -/

theorem gated_dramForms {a : DieId} {f : State → Res} (h : DramForms (f s)) : DramForms (s.gated a f) := by
  unfold State.gated
  split
  · next t ht =>
    rw [ht, dramForms_next] at h
    refine dramForms_of_ite hs ?_
    dsimp only
    split
    · exact letBursts_dramWf h ..
    · exact letBursts_dramWf hs ..
  · exact h

omit hs in
theorem settled_dramForms {f : State → Res} (h : DramForms (f s)) : DramForms (settled f s) := by
  unfold settled
  split
  · next t ht =>
    rw [ht] at h
    simpa using h
  · exact h

theorem mboxServe_dramForms {cmd least : Nat} {f : List Byte → State → Nat × List Byte × State}
    (h : ∀ b, (f b s).2.2.mem = s.mem) : DramForms (s.mboxServe cmd least f) := by
  unfold State.mboxServe
  dsimp only
  (repeat' split) <;> simp [h, hs]

theorem spdmTake_dramForms {code : Byte} {req : List Byte} {f : State → State} (h : (f s).mem = s.mem) :
    DramForms (s.spdmTake code req f) := by
  unfold State.spdmTake
  (repeat' split) <;> simp [h, hs]

end

/-! ### Register writes -/

/-- A write of the register leaves DRAM in form. -/
def RegEntry.DramHolds (e : RegEntry) : Prop := ∀ r v s, s.mem.dram.wf → (e.put r v s).mem.dram.wf

/-- A write of the register, if there is one, leaves DRAM in form. -/
def DramAll (o : Option RegEntry) : Prop := ∀ e, o = some e → e.DramHolds

@[simp] theorem dramAll_none : DramAll none := fun _ h => nomatch h
@[simp] theorem dramAll_some (e : RegEntry) : DramAll (some e) ↔ e.DramHolds := by simp [DramAll]
@[simp] theorem dramAll_map {α : Type} (o : Option α) (f : α → RegEntry) :
    DramAll (o.map f) ↔ ∀ a, o = some a → (f a).DramHolds := by cases o <;> simp
@[simp] theorem dramAll_bind {α : Type} (o : Option α) (f : α → Option RegEntry) :
    DramAll (o.bind f) ↔ ∀ a, o = some a → DramAll (f a) := by cases o <;> simp
@[simp] theorem dramAll_ite {c : Prop} [Decidable c] (a b : Option RegEntry) :
    DramAll (if c then a else b) ↔ if c then DramAll a else DramAll b := by rw [apply_ite DramAll]
@[simp] theorem dramAll_firstSome_nil : DramAll (firstSome []) := dramAll_none

@[simp] theorem dramAll_firstSome_cons (o : Option RegEntry) (l : List (Option RegEntry)) :
    DramAll (firstSome (o :: l)) ↔ DramAll o ∧ (o = none → DramAll (firstSome l)) := by
  cases o with
  | none => simp [firstSome]
  | some e => simp [firstSome]

@[simp] theorem ro64_dramHolds (d : DieId) (rd : State → Requester → Bool) (get : State → Word64) :
    (ro64 d rd get).DramHolds :=
  fun _ _ s hs => (regIgnored_mem s d).symm ▸ hs
@[simp] theorem ro32_dramHolds (d : DieId) (rd : State → Requester → Bool) (get : State → Word64) :
    (ro32 d rd get).DramHolds :=
  ro64_dramHolds d rd get
@[simp] theorem rw64_dramHolds (d : DieId) (rd : State → Requester → Bool) (get : State → Word64)
    (put : Word64 → State → State) :
    (rw64 d rd get put).DramHolds ↔ ∀ v s, s.mem.dram.wf → (put v s).mem.dram.wf :=
  ⟨fun h => h .host, fun h _ => h⟩
@[simp] theorem rw32_dramHolds (d : DieId) (rd : State → Requester → Bool) (get : State → Word32)
    (put : Word32 → State → State) :
    (rw32 d rd get put).DramHolds ↔ ∀ (v : Word64) (s : State), s.mem.dram.wf → (put (bfld v 0 32) s).mem.dram.wf :=
  ⟨fun h => h .host, fun h _ => h⟩
@[simp] theorem by_dramHolds (e : RegEntry) (wr : State → Requester → Bool) (put : Requester → Word64 → State → State) :
    (e.by_ wr put).DramHolds ↔ ∀ r v s, s.mem.dram.wf → (put r v s).mem.dram.wf := Iff.rfl
@[simp] theorem writable_dramHolds (e : RegEntry) (wr : State → Requester → Bool) : (e.writable wr).DramHolds ↔ e.DramHolds := Iff.rfl
@[simp] theorem shadow_dramHolds (e : RegEntry) (pend : State → Word64) : (e.shadow pend).DramHolds ↔ e.DramHolds := Iff.rfl
@[simp] theorem inAux_dramHolds (e : RegEntry) : e.inAux.DramHolds ↔ e.DramHolds := Iff.rfl
theorem DramAll.inAux {o : Option RegEntry} (h : DramAll o) : DramAll (o.map RegEntry.inAux) :=
  (dramAll_map o _).mpr fun e he => (inAux_dramHolds e).mpr (h e he)

@[simp] theorem cellReg1_dramHolds (c : CellId) (o : Nat) : DramAll (cellReg1 c o) := by
  unfold cellReg1
  dsimp only
  split <;> simp +contextual

@[simp] theorem memReg_dramHolds (n : StackId) (o : Nat) : DramAll (memReg n o) := by
  unfold memReg
  dsimp only
  split <;> simp +contextual

@[simp] theorem stepReg_dramHolds (p : PartId) (o : Nat) : DramAll (stepReg p o) := by
  unfold stepReg
  dsimp only
  split <;> simp +contextual

@[simp] theorem partReg_dramHolds (p : PartId) (o : Nat) : DramAll (partReg p o) := by
  unfold partReg
  dsimp only
  split <;> simp +contextual

@[simp] theorem regReg_dramHolds (p : PartId) (o : Nat) : DramAll (regReg p o) := by
  unfold regReg
  dsimp only
  split <;> simp +contextual

@[simp] theorem memCtlReg_dramHolds (o : Nat) : DramAll (memCtlReg o) := by
  unfold memCtlReg
  dsimp only
  split <;> simp +contextual

@[simp] theorem collReg_dramHolds (o : Nat) : DramAll (collReg o) := by
  unfold collReg
  split <;> simp +contextual

@[simp] theorem collCntReg_dramHolds (f : FabId) (o : Nat) : DramAll (collCntReg f o) := by
  unfold collCntReg
  split <;> simp +contextual

@[simp] theorem colldStatReg_dramHolds (i o : Nat) : DramAll (colldStatReg i o) := by
  unfold colldStatReg
  split <;> simp +contextual

@[simp] theorem hspReg_dramHolds (o : Nat) : DramAll (hspReg o) := by
  unfold hspReg
  split <;> simp +contextual

@[simp] theorem sheetReg_dramHolds (p : PartId) (o : Nat) : DramAll (sheetReg p o) := by
  unfold sheetReg
  dsimp only
  split <;> simp +contextual

@[simp] theorem twinReg_dramHolds (p : PartId) (o : Nat) : DramAll (twinReg p o) := by
  have hset (s : State) (g : Twin → Twin) : (s.twinSet p (·.modTwin p g)).mem = s.mem := twinSet_mem s p rfl
  unfold twinReg
  dsimp only
  split <;> simp +contextual [hset]

@[simp] theorem hostReg_dramHolds (o : Nat) : DramAll (hostReg o) := by
  unfold hostReg
  split <;> simp +contextual

@[simp] theorem groupReg_dramHolds (g : Fin 256) (o : Nat) : DramAll (groupReg g o) := by
  unfold groupReg
  dsimp only
  split <;> simp +contextual

@[simp] theorem fabReg_dramHolds (f : FabId) (o : Nat) : DramAll (fabReg f o) := by
  unfold fabReg
  dsimp only
  split <;> simp +contextual

@[simp] theorem portReg_dramHolds (k : PortId) (o : Nat) : DramAll (portReg k o) := by
  unfold portReg
  dsimp only
  split <;> simp +contextual

@[simp] theorem routeReg_dramHolds (o : Nat) : DramAll (routeReg o) := by
  unfold routeReg
  split <;> simp +contextual

@[simp] theorem meterReg_dramHolds (o : Nat) : DramAll (meterReg o) := by
  unfold meterReg
  dsimp only
  split <;> simp +contextual
  intro d _
  split <;> simp +contextual

@[simp] theorem xdReg_dramHolds (j : JoinId) (o : Nat) : DramAll (xdReg j o) := by
  unfold xdReg
  dsimp only
  split <;> simp +contextual

@[simp] theorem timeReg_dramHolds (o : Nat) : DramAll (timeReg o) := by
  unfold timeReg
  split <;> simp +contextual

@[simp] theorem testReg_dramHolds (o : Nat) : DramAll (testReg o) := by
  unfold testReg
  dsimp only
  split <;> simp +contextual
  intro d _
  split <;> simp +contextual

@[simp] theorem auxReg_dramHolds (o : Nat) : DramAll (auxReg o) := by
  unfold auxReg
  refine DramAll.inAux ?_
  dsimp only
  split <;> simp +contextual
  intro _ d _
  split <;> simp +contextual

@[simp] theorem fd0Reg_dramHolds (o : Nat) : DramAll (fd0Reg o) := by
  unfold fd0Reg
  dsimp only
  split <;> simp +contextual

@[simp] theorem fd1Reg_dramHolds (o : Nat) : DramAll (fd1Reg o) := by
  unfold fd1Reg
  dsimp only
  split <;> simp +contextual


@[simp] theorem cellRegSlot_dramHolds (c : CellId) (i : SlotId) (base : Nat) : DramAll (cellRegSlot c i base) := by
  unfold cellRegSlot
  dsimp only
  split <;> simp +contextual

theorem dramAll_bind_of {α : Type} (o : Option α) {f : α → Option RegEntry} (h : ∀ a, DramAll (f a)) : DramAll (o.bind f) :=
  (dramAll_bind o f).mpr fun a _ => h a

theorem dramAll_firstSome {o : Option RegEntry} {l : List (Option RegEntry)} (ho : DramAll o) (hl : DramAll (firstSome l)) :
    DramAll (firstSome (o :: l)) := (dramAll_firstSome_cons o l).mpr ⟨ho, fun _ => hl⟩

theorem cellReg_dramHolds (c : CellId) (o : Nat) : DramAll (cellReg c o) :=
  dramAll_firstSome (by simp) (dramAll_firstSome (by simp) (by simp +contextual))
theorem cdReg_dramHolds (d : Fin 4) (o : Nat) : DramAll (cdReg d o) :=
  dramAll_firstSome (dramAll_bind_of _ fun _ => cellReg_dramHolds _ _) (by simp +contextual)

theorem regAt_dramHolds (o : Nat) : DramAll (regAt o) := by
  unfold regAt
  dsimp only
  split
  case h_1 | h_2 | h_3 | h_4 => exact cdReg_dramHolds _ _
  all_goals simp +contextual

theorem regAccess_dramWf {o : Nat} {a : RegAccess} (h : regAccess o = some a) {s : State} (hs : s.mem.dram.wf)
    (r : Requester) (v : Word64) : (a.entry.put r v s).mem.dram.wf := by
  obtain ⟨e, he, rfl⟩ := Option.map_eq_some_iff.mp h
  exact regAt_dramHolds _ e he r v s hs

section
variable {s : State} (hs : s.mem.dram.wf)
include hs

@[simp] theorem hostWrite_dramWf (r : Requester) (o : Nat) (b : Bool) (v : Word64) : (s.hostWrite r o b v).mem.dram.wf := by
  have hign (d : DieId) : (s.regIgnored d).mem.dram.wf := by simpa using hs
  unfold State.hostWrite
  split
  · exact hign _
  · next a h =>
    have hp (w : Word64) : (a.entry.put r w s).mem.dram.wf := regAccess_dramWf h hs ..
    exact dramWf_of_ite (hign _) (dramWf_of_ite (dramWf_of_ite (hp _) (hign _)) (dramWf_of_ite (hp _) (hign _)))

@[simp] theorem bar0_dramWf (write : Bool) (o len : Nat) (v : Word64) : (s.bar0 write o len v).mem.dram.wf :=
  dramWf_of_ite (dramWf_of_ite (hostWrite_dramWf hs ..) hs) (by simpa using hs)

end

end Sys2Proof.Machine
end

section
/-!
SUPPORT. The commands that touch DRAM by operations above, in the order of `Instr`.
-/
namespace Sys2Proof.Machine

section
variable {s : State} (hs : s.mem.dram.wf)
include hs

theorem optstepBlock_dramForms (c : CellId) : DramForms (State.optstepBlock c s) := by
  unfold State.optstepBlock
  split
  · next r p _ _ =>
    extract_lets what held' asks at_ touched s0 w rec s1 moved s1' isRef persist r' s2
    clear_value what
    have h0 : s0.mem.dram.wf := foldl_dramWf (fun t x ht => dramNote_dramWf ht ..) _ hs
    have h1 : s1.mem.dram.wf := by
      simp only [s1]
      split
      · exact dramWf_of_ite h0 (by simpa using h0)
      · simpa using h0
      · simpa using h0
      · exact h0
      · exact optStore_dramWf h0 ..
    have h2 : s2.mem.dram.wf := by simpa [s2] using chargeAll_dramWf h1 ..
    refine dramForms_of_ite ?_ (dramForms_of_ite hs (dramWf_of_ite ?_ h2))
    · rwa [dramForms_next, retireOpt_mem]
    · rwa [retireOpt_mem]
  · exact hs

theorem collArrival_dramForms (d : FabId) : DramForms (State.collArrival d s) := by
  unfold State.collArrival
  (repeat' split) <;> simp [hs]

theorem collData_dramForms (e : FabId) : DramForms (State.collData e s) := by
  unfold State.collData
  split
  · exact hs
  · next hf =>
    have h1 := takeFrame_dramWf hs hf
    dsimp only at h1 ⊢
    refine dramForms_of_ite (by simp [h1]) ?_
    split <;> simp [h1]

theorem instanceEnd_dramForms (i : Fin 4096) : DramForms (State.instanceEnd i s) := by
  unfold State.instanceEnd
  extract_lets x d
  split
  · exact hs
  · extract_lets t s1 s2
    have ht : t.mem.dram.wf := undefineChunks_dramWf hs ..
    have h1 : s1.mem.dram.wf := dramWf_of_ite (dramWf_of_ite (flagBlocks_dramWf ht ..) ht) hs
    have h2 : s2.mem.dram.wf := dramWf_of_ite h1 h1
    exact dramForms_of_ite hs (dramForms_of_ite (by simpa using h2) h2)

theorem sideSend_dramForms (p : PartId) : DramForms (State.sideSend p s) := by
  unfold State.sideSend
  split
  · refine dramForms_of_ite hs ?_
    exact sideTry_dramWf (by simpa using hs) ..
  · exact hs

theorem sideReceive_dramForms : DramForms (State.sideReceive s) := by
  unfold State.sideReceive
  split
  · exact hs
  · next hf =>
    have h1 := takeFrame_dramWf hs hf
    dsimp only at h1 ⊢
    exact dramForms_of_ite (by simpa using h1) (sideTry_dramWf (by simpa using h1) ..)

theorem tableBuild_dramForms (p : PartId) : DramForms (State.tableBuild p s) := by
  unfold State.tableBuild
  split
  · exact hs
  · next i r _ =>
    dsimp only
    split
    · refine dramForms_of_ite hs ?_
      rw [dramForms_next, modColld_mem]
      refine foldl_dramWf (fun t g ht => ?_) _ (bufWrite_dramWf hs ..)
      split <;> exact buildGroup_dramWf ht ..
    · exact hs

theorem traceRefused_dramWf (c : CellId) (code : Byte) (a : Nat) : (s.traceRefused c code a).mem.dram.wf := by
  simp [State.traceRefused, hs]

theorem traceWrite_dramForms (c : CellId) : DramForms (State.traceWrite c s) := by
  unfold State.traceWrite
  split
  · exact hs
  · next r rest _ =>
    have h1 (f : Cell → Cell) : (s.modCell c f).mem.dram.wf := hs
    refine dramForms_of_ite hs (dramForms_of_ite (traceRefused_dramWf (h1 _) ..) ?_)
    split
    · rw [dramForms_next, modCell_mem]
      exact charge_dramWf (dramWrite_dramWf (h1 _) ..) ..
    · exact traceRefused_dramWf (h1 _) ..

theorem execScFcvt_dramForms (a : At) (p : Pred) (f : FmtS) : DramForms (execScFcvt a p f s) :=
  issue_dramForms hs (by simp [hs])

theorem execScLd_dramForms (a : At) (p : Pred) (f : FmtSI) : DramForms (execScLd a p f s) :=
  loads_dramForms hs

theorem execScRdreg_dramForms (a : At) (p : Pred) (x : RingRead) : DramForms (execScRdreg a p x s) := by
  unfold execScRdreg
  exact issue_dramForms hs (ctxReg_dramForms hs fun _ _ _ => by simp [hs])

theorem execScTld_dramForms (a : At) (p : Pred) (f : FmtS) : DramForms (execScTld a p f s) :=
  loads_dramForms hs

theorem execScTset_dramForms (a : At) (p : Pred) (f : FmtS) : DramForms (execScTset a p f s) :=
  issue_dramForms hs (by simp [hs])

theorem execScTbase_dramForms (a : At) (p : Pred) (f : FmtS) : DramForms (execScTbase a p f s) :=
  issue_dramForms hs (by simp [hs])

theorem execScQld_dramForms (a : At) (p : Pred) (f : FmtS) : DramForms (execScQld a p f s) :=
  loads_dramForms hs

theorem execScQset_dramForms (a : At) (p : Pred) (f : FmtS) : DramForms (execScQset a p f s) :=
  issue_dramForms hs (by simp [hs])

theorem execScQaddr_dramForms (a : At) (p : Pred) (f : FmtS) : DramForms (execScQaddr a p f s) :=
  issue_dramForms hs (by simp [hs])

theorem execScBr_dramForms (a : At) (p : Pred) (f : FmtSB) : DramForms (execScBr a p f s) :=
  issue_dramForms hs (by simp [hs])

theorem execScBri_dramForms (a : At) (p : Pred) (f : FmtSB) : DramForms (execScBri a p f s) :=
  issue_dramForms hs (by simp [hs])

theorem execScCall_dramForms (a : At) (p : Pred) (f : FmtSB) : DramForms (execScCall a p f s) :=
  issue_dramForms hs (by simp [hs])

theorem execScNop_dramForms (a : At) (p : Pred) (f : FmtS) : DramForms (execScNop a p f s) :=
  issue_dramForms hs (by simp [hs])

theorem execScTime_dramForms (a : At) (p : Pred) (f : FmtS) : DramForms (execScTime a p f s) :=
  issue_dramForms hs (by simp [hs])

theorem execScId_dramForms (a : At) (p : Pred) (f : FmtS) : DramForms (execScId a p f s) :=
  issue_dramForms hs (by simp [hs])

theorem execPlateIssue_dramForms (c : CellId) : DramForms (execPlateIssue c s) := by
  dsimp only [execPlateIssue]
  (repeat' split) <;> simp [hs]

theorem execStationaryTileLoaded_dramForms (c : CellId) : DramForms (execStationaryTileLoaded c s) := by
  dsimp only [execStationaryTileLoaded]
  (repeat' split) <;> simp [hs]

theorem execPlateRowCycle_dramForms (c : CellId) : DramForms (execPlateRowCycle c s) := by
  dsimp only [execPlateRowCycle]
  (repeat' split) <;> simp [hs]

theorem execVatClearDone_dramForms (c : CellId) : DramForms (execVatClearDone c s) := by simp [execVatClearDone, hs]

theorem execSummaryResult_dramForms (c : CellId) : DramForms (execSummaryResult c s) := by
  unfold execSummaryResult
  split <;> simp [hs]

theorem execOptstepBlock_dramForms (c : CellId) : DramForms (execOptstepBlock c s) :=
  gated_dramForms hs (optstepBlock_dramForms hs c)

theorem execCollectiveQueueIssue_dramForms (c : CellId) : DramForms (execCollectiveQueueIssue c s) := by
  dsimp only [execCollectiveQueueIssue]
  (repeat' split) <;> simp [hs]

theorem execSyInit_dramForms (a : At) (p : Pred) (f : FmtY) : DramForms (execSyInit a p f s) := by
  refine issue_dramForms hs ?_
  dsimp only
  (repeat' split) <;> simp [hs]

theorem execSySignal_dramForms (a : At) (p : Pred) (f : FmtY) : DramForms (execSySignal a p f s) :=
  issue_dramForms hs (by simp [hs])

theorem execSyWait_dramForms (a : At) (p : Pred) (f : FmtY) : DramForms (execSyWait a p f s) :=
  issue_dramForms hs (by simp [hs])

theorem execSyPoll_dramForms (a : At) (p : Pred) (f : FmtY) : DramForms (execSyPoll a p f s) :=
  issue_dramForms hs (by simp [hs])

theorem execSyFence_dramForms (a : At) (p : Pred) (f : FmtY) : DramForms (execSyFence a p f s) :=
  issue_dramForms hs (by simp [hs])

theorem execSyYield_dramForms (a : At) (p : Pred) (f : FmtY) : DramForms (execSyYield a p f s) :=
  issue_dramForms hs (by simp [hs])

theorem execSyRsignal_dramForms (a : At) (p : Pred) (f : FmtY) : DramForms (execSyRsignal a p f s) :=
  issue_dramForms hs (by simp [hs])

theorem execLatchSignalArrive_dramForms (c : CellId) : DramForms (execLatchSignalArrive c s) := by
  unfold execLatchSignalArrive
  split <;> simp [hs]

theorem execLatchWaitReturn_dramForms (a : At) : DramForms (execLatchWaitReturn a s) := by
  unfold execLatchWaitReturn
  split <;> simp [hs]

theorem execStOpen_dramForms (a : At) (p : Pred) (f : FmtY) : DramForms (execStOpen a p f s) := by
  refine issue_dramForms hs ?_
  split <;> simp [hs, stepOpen_mem]

theorem execStOpenRelease_dramForms (c : CellId) : DramForms (execStOpenRelease c s) := by
  simp [execStOpenRelease, hs]

theorem execStStop_dramForms (a : At) (p : Pred) (f : FmtY) : DramForms (execStStop a p f s) := by
  refine issue_dramForms hs ?_
  dsimp only
  (repeat' split) <;> simp [hs]

theorem execStopBarrierComplete_dramForms (p : PartId) : DramForms (execStopBarrierComplete p s) := by
  dsimp only [execStopBarrierComplete]
  (repeat' split) <;> simp [hs]

theorem execStFix_dramForms (a : At) (p : Pred) (f : FmtY) : DramForms (execStFix a p f s) := by
  refine issue_dramForms hs ?_
  dsimp only
  (repeat' split) <;> simp [hs]

theorem execFixBarrierComplete_dramForms (p : PartId) : DramForms (execFixBarrierComplete p s) := by
  dsimp only [execFixBarrierComplete]
  (repeat' split) <;> simp [hs]

theorem execFixCommitAdvance_dramForms (p : PartId) : DramForms (execFixCommitAdvance p s) := by
  simp [execFixCommitAdvance, hs]

theorem execStepBoundary_dramForms (p : PartId) : DramForms (execStepBoundary p s) := by simp [execStepBoundary, hs]

theorem execStSeed_dramForms (a : At) (p : Pred) (f : FmtY) : DramForms (execStSeed a p f s) := by
  unfold execStSeed
  refine issue_dramForms hs ?_
  dsimp only
  rw [dramForms_ite]
  split
  · simp [hs]
  · split <;> simp [hs]

theorem execTrMark_dramForms (a : At) (p : Pred) (f : FmtY) : DramForms (execTrMark a p f s) :=
  issue_dramForms hs (by simp [hs])

theorem execTrVal_dramForms (a : At) (p : Pred) (f : FmtY) : DramForms (execTrVal a p f s) :=
  issue_dramForms hs (by simp [hs])

theorem execTrCtr_dramForms (a : At) (p : Pred) (f : FmtY) : DramForms (execTrCtr a p f s) :=
  issue_dramForms hs (by simp [hs])

theorem execTraceRecordWrite_dramForms (c : CellId) : DramForms (execTraceRecordWrite c s) :=
  gated_dramForms hs (traceWrite_dramForms hs c)

theorem execVerdictArrival_dramForms (p : PartId) (tag : Word32) (reduced : BitVec 16) :
    DramForms (execVerdictArrival p tag reduced s) := by simp [execVerdictArrival, hs]

theorem execVerdictTimeout_dramForms (p : PartId) : DramForms (execVerdictTimeout p s) := by
  simp [execVerdictTimeout, hs]

theorem execTwinAckTimeout_dramForms (p : PartId) : DramForms (execTwinAckTimeout p s) := by
  simp [execTwinAckTimeout, hs]

theorem execContextWake_dramForms (c : CellId) (i : SlotId) : DramForms (execContextWake c i s) := by
  simp [execContextWake, hs]

theorem execContextRunStart_dramForms (c : CellId) : DramForms (execContextRunStart c s) := by
  simp [execContextRunStart, hs]

theorem execGraceExpiry_dramForms (c : CellId) : DramForms (execGraceExpiry c s) := by
  simp [execGraceExpiry, startReset_mem, hs]

theorem execEccWriteback_dramForms (n : StackId) (ch : ChanId) : DramForms (execEccWriteback n ch s) := by
  unfold execEccWriteback
  split
  · exact hs
  · exact dramForms_of_ite hs (ProtMem.foldl_wf (fun m w hm => ProtMem.mergeWord_wf hm w) _ hs)

theorem execRegulatorTick_dramForms : DramForms (execRegulatorTick s) := by simp [execRegulatorTick, hs]

theorem execPatrolScrub_dramForms (n : StackId) (ch : ChanId) (fs : List (Fin 64 × BitVec 39)) (ts : List WireTry)
    : DramForms (execPatrolScrub n ch fs ts s) := by
  dsimp only [execPatrolScrub]
  (repeat' split) <;> simp [hs]

theorem execEccWindowEnd_dramForms (n : StackId) (ch : ChanId) : DramForms (execEccWindowEnd n ch s) := by
  simp [execEccWindowEnd, hs]

theorem execStackTempReading_dramForms (n : StackId) (v : Vector (BitVec 16) 4) :
    DramForms (execStackTempReading n v s) := by simp [execStackTempReading, hs]

theorem execStackConnectionFail_dramForms (n : StackId) (w : StackWire) :
    DramForms (execStackConnectionFail n w s) := by simp [execStackConnectionFail, hs]

theorem execPageCmdDone_dramForms : DramForms (execPageCmdDone s) := by
  unfold execPageCmdDone
  obtain ⟨touched, htouched⟩ : ∃ touched, touched = State.sheetsTouched := ⟨_, rfl⟩
  obtain ⟨marked, hmarked⟩ : ∃ marked, marked = State.markPage := ⟨_, rfl⟩
  obtain ⟨count, hcount⟩ : ∃ count, count = cmdCount := ⟨_, rfl⟩
  have ht : ∀ t mark a n, (touched t mark a n).mem = t.mem := htouched ▸ sheetsTouched_mem
  have hm : ∀ t p mark a, (marked t p mark a).mem = t.mem := hmarked ▸ markPage_mem
  rw [← htouched, ← hmarked, ← hcount]
  split
  · exact hs
  · rw [dramForms_next]
    dsimp only
    rwa [foldl_mem fun t i => hm .., ite_mem, foldl_mem fun t i => ht .., ite_self]

theorem execStPatDone_dramForms : DramForms (execStPatDone s) := by
  unfold execStPatDone
  split <;> simp [hs]

theorem execXdBeatReceive_dramForms (j : JoinId) (d : Fin 2) (b : Beat) :
    DramForms (execXdBeatReceive j d b s) := by
  dsimp only [execXdBeatReceive]
  (repeat' split) <;> simp [hs]

theorem execXdErrorWindow_dramForms (j : JoinId) (d : Fin 2) : DramForms (execXdErrorWindow j d s) := by
  simp [execXdErrorWindow, hs]

theorem execXdClockLoss_dramForms (j : JoinId) (d : Fin 2) (g : BitVec 6) (alt : Bool) :
    DramForms (execXdClockLoss j d g alt s) := by simp [execXdClockLoss, hs]

theorem execXdSteer_dramForms (j : JoinId) (d : Fin 2) (g : BitVec 6) (w : BitVec 7) (swt : BitVec 3) :
    DramForms (execXdSteer j d g w swt s) := by simp [execXdSteer, hs]

theorem execXdHalf_dramForms (j : JoinId) (d : Fin 2) (h : Fin 2) (swt : BitVec 3) :
    DramForms (execXdHalf j d h swt s) := by simp [execXdHalf, hs]

theorem execXdDisable_dramForms (j : JoinId) (swt : BitVec 3) : DramForms (execXdDisable j swt s) := by
  simp [execXdDisable, hs]

theorem execXdSwitch_dramForms (j : JoinId) (d : Fin 2) : DramForms (execXdSwitch j d s) := by
  unfold execXdSwitch
  split <;> simp [hs]

theorem execFrameReceive_dramForms (k : PortId) (f : Frame) : DramForms (execFrameReceive k f s) := by
  dsimp only [execFrameReceive]
  (repeat' split) <;> simp [hs]

theorem execLinkReplay_dramForms (r : Replay) : DramForms (execLinkReplay r s) := by
  unfold execLinkReplay
  split <;> simp [hs]

theorem execLaneErrorWindow_dramForms (k : PortId) (e : LaneErrs) : DramForms (execLaneErrorWindow k e s) := by
  simp [execLaneErrorWindow, hs]

theorem execRouterSlot_dramForms (d : FabId) : DramForms (execRouterSlot d s) := by
  unfold execRouterSlot
  extract_lets x pos cs starve s0 a0 a1 back a2 quiet q a3 entered s4 s5
  have h1 : a1.st.mem = s.mem := Slotting.foldl_mem (fun a c => a.route_mem d c) _ a0
  have h2 : a2.st.mem = s.mem := by
    simp only [a2]
    rw [Slotting.foldl_mem fun a f => a.reenter_mem d f, modFab_mem, h1]
  have h3 : a3.st.mem = s.mem := by
    simp only [a3]
    split
    · exact h2
    · rw [Slotting.foldl_mem fun a f => a.inject_mem d f, modFab_mem, h2]
  have h4 : s4.mem = s.mem := by simp [s4, h3]
  simp [s5, h4, hs]

theorem execFrameInject_dramForms (d : FabId) : DramForms (execFrameInject d s) := by
  dsimp only [execFrameInject]
  (repeat' split) <;> simp [hs]

theorem execStarveHoldoffEnd_dramForms (d : FabId) : DramForms (execStarveHoldoffEnd d s) := by
  simp [execStarveHoldoffEnd, hs]

theorem execStreamDeliver_dramForms (d : FabId) (i : Nat) : DramForms (execStreamDeliver d i s) := by
  unfold execStreamDeliver
  split <;> simp [hs]

theorem execRobGap_dramForms (d : FabId) (i : Nat) : DramForms (execRobGap d i s) := by
  dsimp only [execRobGap]
  (repeat' split) <;> simp [hs]

theorem execReqRead_dramForms (d : FabId) : DramForms (execReqRead d s) := by
  unfold execReqRead
  refine gated_dramForms hs ?_
  dsimp only
  split
  · exact hs
  · next h =>
    have h1 := takeFrame_dramWf hs h
    simpa using remoteRead_dramWf h1 ..

theorem execRspCredit_dramForms (d : FabId) : DramForms (execRspCredit d s) := by
  unfold execRspCredit
  split
  · exact hs
  · next h =>
    have h1 := takeFrame_dramWf hs h
    simpa using h1

theorem execDeadEndReturn_dramForms (d : FabId) : DramForms (execDeadEndReturn d s) := by
  dsimp only [execDeadEndReturn]
  (repeat' split) <;> simp [hs]

theorem execSourceSlotTimeout_dramForms (d : FabId) (i : Nat) : DramForms (execSourceSlotTimeout d i s) := by
  unfold execSourceSlotTimeout
  split <;> simp [hs]

theorem execCreditFlush_dramForms (d : FabId) : DramForms (execCreditFlush d s) := by
  dsimp only [execCreditFlush]
  split <;> simp [hs]

theorem execMntMreq_dramForms : DramForms (execMntMreq s) := by
  unfold execMntMreq
  split
  · exact hs
  · next h =>
    have h1 := takeMnt_dramWf hs h
    simpa using h1

theorem execMntMrsp_dramForms : DramForms (execMntMrsp s) := by
  unfold execMntMrsp
  split
  · exact hs
  · next h =>
    have h1 := takeMnt_dramWf hs h
    simpa using h1

theorem execMntMpost_dramForms : DramForms (execMntMpost s) := by
  unfold execMntMpost
  split
  · exact hs
  · next h =>
    have h1 := takeMnt_dramWf hs h
    simpa using h1

theorem execFabricCfgWrite_dramForms (by_ : Requester) (r : FabricCfgReg) (v : Word32) :
    DramForms (execFabricCfgWrite by_ r v s) :=
  dramForms_of_ite (regWrite_dramForms hs (by simp [hs])) (auxWrite_dramForms hs (by simp [hs]))

theorem execRouteDrainTimer_dramForms (i : Fin 2) : DramForms (execRouteDrainTimer i s) := by
  simp [execRouteDrainTimer, hs]

theorem execDarkslideClose_dramForms : DramForms (execDarkslideClose s) := by simp [execDarkslideClose, hs]

theorem execDarkslideForward_dramForms (k : PortId) (f : Frame) : DramForms (execDarkslideForward k f s) := by
  unfold execDarkslideForward
  refine dramForms_of_ite trivial (dramForms_of_ite hs ?_)
  dsimp only
  rw [dramForms_next, ite_mem, islandRetrain_mem, ite_self, modPort_mem]
  split
  · simp [hs]
  · rwa [ite_mem, darkReturn_mem, modPort_mem, modPort_mem, modPort_mem, ite_self]

theorem execDarkslideOpen_dramForms (i : Fin 6) : DramForms (execDarkslideOpen i s) := by
  unfold execDarkslideOpen
  split
  · exact hs
  · exact DramForms.of_mem hs (foldl_mem (fun t k => islandEmpties_mem t k) _ s)

theorem execBypassFail_dramForms (_island : Fin 2) : DramForms (execBypassFail _island s) := by
  simp [execBypassFail, hs]

theorem execPortTrainStage_dramForms (k : PortId) (q : PortPartner) : DramForms (execPortTrainStage k q s) := by
  dsimp only [execPortTrainStage]
  split <;> simp [hs]

theorem execTimeWord_dramForms (k : PortId) (t1 t2 t3 t4 : Word64) (depth : BitVec 7) (locked : Bool) :
    DramForms (execTimeWord k t1 t2 t3 t4 depth locked s) := by simp [execTimeWord, hs]

theorem execTimeWordInsert_dramForms (k : PortId) : DramForms (execTimeWordInsert k s) := by
  simp [execTimeWordInsert, hs]

theorem execTimeSlew_dramForms : DramForms (execTimeSlew s) := by simp [execTimeSlew, hs]

theorem execTimeParentSelect_dramForms : DramForms (execTimeParentSelect s) := by simp [execTimeParentSelect, hs]

theorem execCollArrival_dramForms (d : FabId) : DramForms (execCollArrival d s) :=
  gated_dramForms hs (settled_dramForms (collArrival_dramForms hs d))

theorem execCollReady_dramForms (d : FabId) : DramForms (execCollReady d s) := by
  unfold execCollReady
  split
  · next h => simpa using takeMessage_dramWf hs h
  · next h => exact takeMessage_dramWf hs h
  · exact hs

theorem execCollDataFrame_dramForms (e : FabId) : DramForms (execCollDataFrame e s) :=
  gated_dramForms hs (settled_dramForms (collData_dramForms hs e))

theorem execCollTagFrame_dramForms (e : FabId) : DramForms (execCollTagFrame e s) := by
  unfold execCollTagFrame
  split
  · exact hs
  · next h =>
    have h1 := takeFrame_dramWf hs h
    dsimp only at h1 ⊢
    split <;> simp [h1]

theorem execCollArriveRecord_dramForms : DramForms (execCollArriveRecord s) := by
  unfold execCollArriveRecord
  split
  · next h => simpa using takeMessage_dramWf hs h
  · next h => exact takeMessage_dramWf hs h
  · exact hs

theorem execCollInstanceEnd_dramForms (i : Fin 4096) : DramForms (execCollInstanceEnd i s) :=
  gated_dramForms hs (settled_dramForms (instanceEnd_dramForms hs i))

theorem execSideRecordSend_dramForms (p : PartId) : DramForms (execSideRecordSend p s) :=
  gated_dramForms hs (settled_dramForms (sideSend_dramForms hs p))

theorem execSideRecordReceive_dramForms : DramForms (execSideRecordReceive s) :=
  gated_dramForms hs (settled_dramForms (sideReceive_dramForms hs))

theorem execTableBuildComplete_dramForms (p : PartId) : DramForms (execTableBuildComplete p s) :=
  gated_dramForms hs (settled_dramForms (tableBuild_dramForms hs p))

theorem execXlegRecord_dramForms : DramForms (execXlegRecord s) := by
  unfold execXlegRecord
  split
  · exact hs
  · next h =>
    have h1 := takeFrame_dramWf hs h
    dsimp only at h1 ⊢
    refine dramForms_of_ite (by simp [h1]) ?_
    split <;> simp [h1]

theorem execCollProgressTimeout_dramForms (i : Fin 4096) : DramForms (execCollProgressTimeout i s) := by
  simp [execCollProgressTimeout, hs]

theorem execTwinRestart_dramForms (by_ : Requester) (p : PartId) : DramForms (execTwinRestart by_ p s) :=
  gated_dramForms hs (twinWrite_dramForms hs (by simp [hs]))

theorem execHello_dramForms (p : PartId) : DramForms (execHello p s) := by
  unfold execHello
  split
  · exact hs
  · next m s1 h =>
    have h1 : s1.mem.dram.wf := takeMsg_dramWf hs h
    extract_lets t names learn mine s2
    have h2 : s2.mem.dram.wf := dramWf_of_ite (dramWf_of_ite (restoreReads_dramWf (s := s1.modTwin p learn) h1 p) (by simpa using h1)) h1
    refine dramForms_of_ite ?_ (dramForms_of_ite h2 (dramForms_of_ite h2 ?_))
    · simpa using listLooks_dramWf h1 ..
    · simpa using h2

theorem execPageAck_dramForms (p : PartId) : DramForms (execPageAck p s) := by
  unfold execPageAck
  split
  · exact hs
  · next h =>
    have h1 := takeMsg_dramWf hs h
    dsimp only at h1 ⊢
    split <;> simp [h1]

theorem execResend_dramForms (p : PartId) : DramForms (execResend p s) := by
  unfold execResend
  split
  · exact hs
  · next h =>
    have h1 := takeMsg_dramWf hs h
    dsimp only at h1 ⊢
    split <;> simp [h1]

theorem execManifest_dramForms (p : PartId) : DramForms (execManifest p s) := by
  unfold execManifest
  refine gated_dramForms hs ?_
  split
  · exact hs
  · next h =>
    have h1 := takeMsg_dramWf hs h
    refine dramForms_of_ite ?_ ?_
    · rw [dramForms_next, twinMsg_mem, modTwin_mem]; exact discard_dramWf (setNegative_dramWf h1 ..) ..
    · rw [dramForms_next, twinMsg_mem, twinEvent_mem]; exact setNegative_dramWf h1 ..

theorem execNegDone_dramForms (p : PartId) : DramForms (execNegDone p s) := by
  unfold execNegDone
  split
  · exact hs
  · next h =>
    have h1 := takeMsg_dramWf hs h
    dsimp only at h1 ⊢
    simp [h1]

theorem execBodyAck_dramForms (p : PartId) : DramForms (execBodyAck p s) := by
  unfold execBodyAck
  split
  · exact hs
  · next h =>
    have h1 := takeMsg_dramWf hs h
    dsimp only at h1 ⊢
    simp [h1]

theorem execSeal_dramForms (p : PartId) : DramForms (execSeal p s) := by
  unfold execSeal
  refine gated_dramForms hs ?_
  split
  · exact hs
  · next h =>
    have h1 := takeMsg_dramWf hs h
    dsimp only
    split
    · exact h1
    · rw [dramForms_next, twinMsg_mem, modTwin_mem]; exact twinStore_dramWf h1 ..

theorem execSealAck_dramForms (p : PartId) : DramForms (execSealAck p s) := by
  unfold execSealAck
  split
  · exact hs
  · next h =>
    have h1 := takeMsg_dramWf hs h
    dsimp only at h1 ⊢
    simp [h1]

theorem execProbe_dramForms (p : PartId) : DramForms (execProbe p s) := by
  unfold execProbe
  split
  · exact hs
  · next h =>
    have h1 := takeMsg_dramWf hs h
    dsimp only at h1 ⊢
    simp [h1]

theorem execProbeTimer_dramForms (p : PartId) : DramForms (execProbeTimer p s) := by simp [execProbeTimer, hs]

theorem execTwinPageSend_dramForms (p : PartId) : DramForms (execTwinPageSend p s) := by
  refine gated_dramForms hs ?_
  dsimp only
  (repeat' split) <;> simp [hs]

theorem execTwinClaim_dramForms (p : PartId) : DramForms (execTwinClaim p s) := by
  unfold execTwinClaim
  obtain ⟨read, hread⟩ : ∃ read, read = State.dramBytes := ⟨_, rfl⟩
  obtain ⟨store, hstore⟩ : ∃ store, store = State.twinStore := ⟨_, rfl⟩
  obtain ⟨sees, hsees⟩ : ∃ sees, sees = State.sees := ⟨_, rfl⟩
  have hst {u : State} (hu : u.mem.dram.wf) (a : Nat) (bs : List Byte) : (store u p a bs).mem.dram.wf :=
    hstore ▸ twinStore_dramWf hu ..
  have hse {u : State} (hu : u.mem.dram.wf) (k : Bool) (w : Option At) (a n : Nat) : (sees u p k w a n).mem.dram.wf :=
    hsees ▸ sees_dramWf hu ..
  rw [← hread, ← hstore, ← hsees]
  refine gated_dramForms hs ?_
  extract_lets t
  split
  · exact hs
  · next i c d rest _ =>
    extract_lets s1 b x cnt s2 pg s2' y s3
    have h1 : s1.mem.dram.wf := hs
    have h2 : s2'.mem.dram.wf := hse (dramWf_of_ite h1 (setNegative_dramWf h1 ..)) ..
    have h3 : s3.mem.dram.wf := hst (u := s2'.modTwin p _) h2 _ _
    refine dramForms_of_ite (bodyClaim_dramWf h1 ..) (dramForms_of_ite ?_ ?_)
    · rwa [dramForms_next, twinMsg_mem]
    · rwa [dramForms_next, twinMsg_mem]

theorem execFirstTouchCopy_dramForms (p : PartId) (slot : Nat) : DramForms (execFirstTouchCopy p slot s) := by
  unfold execFirstTouchCopy
  obtain ⟨read, hread⟩ : ∃ read, read = State.dramBytes := ⟨_, rfl⟩
  rw [← hread]
  refine gated_dramForms hs ?_
  dsimp only
  split
  · refine dramForms_of_ite ?_ hs
    rw [dramForms_next, setStreamed_mem, modTwin_mem]
    exact dramPoison_dramWf (twinStore_dramWf (sees_dramWf hs ..) ..) ..
  · exact hs

theorem execRestoreDone_dramForms (p : PartId) (data : RestoreData) : DramForms (execRestoreDone p data s) := by
  unfold execRestoreDone
  refine gated_dramForms hs ?_
  have hend {t : State} (ht : t.mem.dram.wf) (st n : Nat) : DramForms (.next (t.restoreEnd p st n)) := by simpa using ht
  extract_lets t gs held
  clear_value held
  refine dramForms_of_ite hs (dramForms_of_ite (hend hs ..) (dramForms_of_ite hs (dramForms_of_ite ?_ ?_)))
  · simpa using hs
  · split
    · exact restorePagesEnd_dramWf _ _ _ hs
    · exact restoreRecordEnd_dramWf _ _ _ hs
    · exact dramForms_of_ite (hend hs ..) (hend (restoreGroups_dramWf hs ..) ..)

theorem execDoorbell_dramForms (i : Fin 256) (v : Word64) : DramForms (execDoorbell i v s) := by
  simp [execDoorbell, hs]

theorem execMboxGo_dramForms (request : List Byte) : DramForms (execMboxGo request s) := by simp [execMboxGo, hs]

theorem execMboxTake_dramForms : DramForms (execMboxTake s) := by simp [execMboxTake, hs]

theorem execGetInfo_dramForms : DramForms (execGetInfo s) := mboxServe_dramForms hs fun _ => rfl

theorem execLogRead_dramForms : DramForms (execLogRead s) := by
  refine mboxServe_dramForms hs fun _ => ?_
  dsimp only
  (repeat' split) <;> simp

theorem execFruRead_dramForms : DramForms (execFruRead s) := by
  refine mboxServe_dramForms hs fun _ => ?_
  dsimp only
  (repeat' split) <;> simp

theorem execFruWrite_dramForms : DramForms (execFruWrite s) := by
  refine mboxServe_dramForms hs fun _ => ?_
  dsimp only
  (repeat' split) <;> simp

theorem execFwWrite_dramForms : DramForms (execFwWrite s) := by
  refine mboxServe_dramForms hs fun _ => ?_
  dsimp only
  (repeat' split) <;> simp

theorem execFwActivate_dramForms : DramForms (execFwActivate s) := by
  refine mboxServe_dramForms hs fun _ => ?_
  dsimp only
  (repeat' split) <;> simp

theorem execAnchorSet_dramForms : DramForms (execAnchorSet s) := by
  refine mboxServe_dramForms hs fun _ => ?_
  dsimp only
  (repeat' split) <;> simp

theorem execGetNonce_dramForms : DramForms (execGetNonce s) := by
  unfold execGetNonce
  split
  · exact mboxServe_dramForms hs fun _ => by simp
  · simp [hs]

theorem execDebugUnlock_dramForms : DramForms (execDebugUnlock s) := by
  unfold execDebugUnlock
  split
  · exact mboxServe_dramForms hs fun _ => by simp
  · simp [hs]

theorem execDebugLock_dramForms : DramForms (execDebugLock s) := by
  unfold execDebugLock
  split
  · exact mboxServe_dramForms hs fun _ => by simp
  · simp [hs]

theorem execDebugUnlockEnd_dramForms : DramForms (execDebugUnlockEnd s) := by simp [execDebugUnlockEnd, hs]

theorem execMboxReply_dramForms : DramForms (execMboxReply s) := by
  dsimp only [execMboxReply]
  (repeat' split) <;> simp [hs]

theorem execErrorRecordDeliver_dramForms : DramForms (execErrorRecordDeliver s) := by
  unfold execErrorRecordDeliver
  split <;> simp [hs]

theorem execPciePortReset_dramForms (hsp : Bool) : DramForms (execPciePortReset hsp s) := by
  simp [execPciePortReset, hs]

theorem execFunctionLevelReset_dramForms (hsp : Bool) : DramForms (execFunctionLevelReset hsp s) := by
  simp [execFunctionLevelReset, hs]

theorem execTsbRead_dramForms (word : BitVec 10) : DramForms (execTsbRead word s) := by simp [execTsbRead, hs]

theorem execTsbWrite_dramForms (word : BitVec 10) (v : BitVec 16) : DramForms (execTsbWrite word v s) := by
  simp [execTsbWrite, hs]

theorem execEmergWWrite_dramForms (v : BitVec 16) : DramForms (execEmergWWrite v s) := by simp [execEmergWWrite, hs]

theorem execTsbShadowRefresh_dramForms : DramForms (execTsbShadowRefresh s) := by simp [execTsbShadowRefresh, hs]

theorem execSmbusOffsetWrite_dramForms (w : SmbusWrite) (data : List Byte) :
    DramForms (execSmbusOffsetWrite w data s) := by simp [execSmbusOffsetWrite, hs]

theorem execSmbusRead_dramForms (r : SmbusRead) : DramForms (execSmbusRead r s) := by simp [execSmbusRead, hs]

theorem execFruStoreCommit_dramForms : DramForms (execFruStoreCommit s) := by simp [execFruStoreCommit, hs]

theorem execMgmtHeartbeatMiss_dramForms : DramForms (execMgmtHeartbeatMiss s) := by
  simp [execMgmtHeartbeatMiss, startReset_mem, hs]

theorem execMgmtRestart_dramForms : DramForms (execMgmtRestart s) := by
  dsimp only [execMgmtRestart]
  (repeat' split) <;> simp [hs]

theorem execStartupPhaseEnd_dramForms : DramForms (execStartupPhaseEnd s) := by
  dsimp only [execStartupPhaseEnd]
  (repeat' split) <;> simp [hs]

theorem execStackTrained_dramForms (n : StackId) (temp : BitVec 16) : DramForms (execStackTrained n temp s) := by
  simp [execStackTrained, hs]

theorem execInput12vFault_dramForms : DramForms (execInput12vFault s) := by simp [execInput12vFault, hs]

theorem execWatchdogSample_dramForms : DramForms (execWatchdogSample s) := by simp [execWatchdogSample, hs]

theorem execWaitLimit_dramForms (at_ : At) : DramForms (execWaitLimit at_ s) := by
  unfold execWaitLimit
  split <;> simp [startReset_mem, hs]

theorem execStopHoldExpiry_dramForms (at_ : At) : DramForms (execStopHoldExpiry at_ s) := by
  simp [execStopHoldExpiry, startReset_mem, hs]

theorem execAbortHoldExpiry_dramForms (p : PartId) : DramForms (execAbortHoldExpiry p s) := by
  simp [execAbortHoldExpiry, startReset_mem, hs]

theorem execChipResetPhaseEnd_dramForms : DramForms (execChipResetPhaseEnd s) := by
  dsimp only [execChipResetPhaseEnd]
  (repeat' split) <;> simp [hs]

theorem execPowerCycleReq_dramForms : DramForms (execPowerCycleReq s) := by
  unfold execPowerCycleReq
  split <;> simp [hs]

theorem execResetDone_dramForms (i : Nat) : DramForms (execResetDone i s) := by
  unfold execResetDone
  split <;> simp [hs]

theorem execResetEscalation_dramForms (i : Nat) : DramForms (execResetEscalation i s) := by
  dsimp only [execResetEscalation]
  (repeat' split) <;> simp [startReset_mem, hs]

theorem execMeterActivityReport_dramForms (d : DieId) : DramForms (execMeterActivityReport d s) := by
  simp [execMeterActivityReport, hs]

theorem execMeterCalibration_dramForms (inputMv : BitVec 16) (railMa : Vector (BitVec 32) 6) :
    DramForms (execMeterCalibration inputMv railMa s) := by simp [execMeterCalibration, hs]

theorem execMeterSignatureWindow_dramForms : DramForms (execMeterSignatureWindow s) := by
  simp [execMeterSignatureWindow, hs]

theorem execCapLoop_dramForms (inputMv : BitVec 16) : DramForms (execCapLoop inputMv s) := by simp [execCapLoop, hs]

theorem execPointChangeDone_dramForms (d : DieId) : DramForms (execPointChangeDone d s) := by
  dsimp only [execPointChangeDone]
  (repeat' split) <;> simp [hs]

theorem execDroopDetect_dramForms (d : DieId) (mv : BitVec 8) : DramForms (execDroopDetect d mv s) := by
  unfold execDroopDetect
  split <;> simp [hs]

theorem execDroopRelease_dramForms (d : DieId) : DramForms (execDroopRelease d s) := by
  unfold execDroopRelease
  split <;> simp [hs]

theorem execJunctionReading_dramForms (d : DieId) (tempC8 : Vector (BitVec 16) 16) :
    DramForms (execJunctionReading d tempC8 s) := by simp [execJunctionReading, hs]

theorem execAgeingReading_dramForms (d : DieId) (slackPs : Vector (BitVec 16) 64) :
    DramForms (execAgeingReading d slackPs s) := by simp [execAgeingReading, hs]

theorem execAgeingReplan_dramForms (d : DieId) : DramForms (execAgeingReplan d s) := by simp [execAgeingReplan, hs]

theorem execSelftestSliceStart_dramForms (x : TestItem) : DramForms (execSelftestSliceStart x s) := by
  simp [execSelftestSliceStart, hs]

theorem execSelftestSliceEnd_dramForms (d : DieId) (errors : Nat) (eye : LaneEye) :
    DramForms (execSelftestSliceEnd d errors eye s) := by
  unfold execSelftestSliceEnd
  split <;> simp [hs]

theorem execSelftestRotation_dramForms (x : TestItem) : DramForms (execSelftestRotation x s) := by
  dsimp only [execSelftestRotation]
  (repeat' split) <;> simp [hs]

theorem execSelftestPassEnd_dramForms (k : Fin 4) : DramForms (execSelftestPassEnd k s) := by
  simp [execSelftestPassEnd, hs]

theorem execPinCheck_dramForms (r : PinReading) (row col : Byte) : DramForms (execPinCheck r row col s) := by
  dsimp only [execPinCheck]
  (repeat' split) <;> simp [hs]

theorem execTapIdcode_dramForms : DramForms (execTapIdcode s) := by simp [execTapIdcode, hs]

theorem execTapSamplePreload_dramForms (data : List Bool) : DramForms (execTapSamplePreload data s) := by
  simp [execTapSamplePreload, hs]

theorem execTapExtest_dramForms : DramForms (execTapExtest s) := by simp [execTapExtest, hs]

theorem execTapClamp_dramForms : DramForms (execTapClamp s) := by simp [execTapClamp, hs]

theorem execTapHighz_dramForms : DramForms (execTapHighz s) := by simp [execTapHighz, hs]

theorem execTapIjtag_dramForms : DramForms (execTapIjtag s) := by simp [execTapIjtag, hs]

theorem execTapBypass_dramForms : DramForms (execTapBypass s) := by simp [execTapBypass, hs]

theorem execTapReset_dramForms : DramForms (execTapReset s) := by simp [execTapReset, hs]

theorem execIllegalOpcode_dramForms (a : At) (word : Word64) : DramForms (execIllegalOpcode a word s) := by
  unfold execIllegalOpcode
  split <;> simp [hs]

theorem execLaneLockLoss_dramForms (k : PortId) : DramForms (execLaneLockLoss k s) := by simp [execLaneLockLoss, hs]

theorem execPcieLinkUp_dramForms (hsp : Bool) : DramForms (execPcieLinkUp hsp s) := by simp [execPcieLinkUp, hs]

theorem execHelloTimeout_dramForms (p : PartId) : DramForms (execHelloTimeout p s) := by simp [execHelloTimeout, hs]

theorem execBypassSelfTestPass_dramForms : DramForms (execBypassSelfTestPass s) := by
  simp [execBypassSelfTestPass, hs]

end

end Sys2Proof.Machine
end

section
/-!
OBLIGATION O57. Every step keeps the package's stacked memory in its one canonical form (R286, R298, R301).
-/
namespace Sys2Proof.Machine

section
variable {s : State} (hs : s.mem.dram.wf)
include hs

theorem scExit_dramForms (a : At) (p : Pred) (f : FmtS) : DramForms (execScExit a p f s) := by
  refine issue_dramForms hs ?_
  dsimp only
  refine dramForms_of_ite (hold_dramForms hs ..) (dramForms_of_ite (trap_dramForms hs ..) ?_)
  exact endContext_dramWf (by simpa using hs) ..

theorem scWrreg_dramForms (a : At) (p : Pred) (f : FmtSI) : DramForms (execScWrreg a p f s) := by
  refine issue_dramForms hs ?_
  have ht : (s.countIssue a).mem.dram.wf := by simpa using hs
  refine ctxReg_dramForms hs fun o r hr => ?_
  rw [dramForms_next, retire_mem]
  exact dramWf_of_ite (regAccess_dramWf hr ht ..) (by simpa using ht)

theorem faultStopComplete_dramForms (a : At) : DramForms (execFaultStopComplete a s) := by
  unfold execFaultStopComplete
  extract_lets x y s1 src mark
  have h1 : s1.mem.dram.wf := by
    simp only [s1]
    split
    · exact abort_dramWf hs ..
    · exact hs
  exact dramForms_of_ite hs (dramForms_of_ite h1 h1)

theorem contextSwitch_dramForms (c : CellId) : DramForms (execContextSwitch c s) := by
  unfold execContextSwitch
  split
  · exact hs
  · simpa using hs

theorem vatPromotion_dramForms (c : CellId) : DramForms (execVatPromotion c s) := by
  unfold execVatPromotion
  extract_lets x
  split
  · exact hs
  · extract_lets n cur vatBad sums out vat1 vat2 s1
    have h1 : s1.mem.dram.wf := hs
    exact dramWf_of_ite (by simpa using h1) h1

theorem vatRowTransfer_dramForms (c : CellId) : DramForms (execVatRowTransfer c s) := by
  unfold execVatRowTransfer
  extract_lets x test
  split
  · exact hs
  · split
    · exact hs
    · extract_lets t row free done step vat note ev out s1 es bad ws s2 ad rd bad' marks s3
      have hnote (bad : Bool) (w : Option (Nat × BitVec 39)) {u : State} (hu : u.mem.dram.wf) :
          (note bad w u).mem.dram.wf := dramWf_of_ite (by simpa using hu) hu
      have hs1 : s1.mem.dram.wf := hs
      split
      · exact hnote _ _ (by rwa [setStopIf_mem])
      · exact hnote _ _ hs
      · exact hnote _ _ hs

theorem vatApertureAccess_dramForms (by_ : Requester) (c : CellId) (isWrite : Bool) (offset : BitVec 21) (data : Word32) :
    DramForms (execVatApertureAccess by_ c isWrite offset data s) := by
  unfold execVatApertureAccess
  extract_lets x answer src r s1
  have hanswer {u : State} (hu : u.mem.dram.wf) (v : Word64) : (answer u v).mem.dram.wf := by
    simp only [answer]
    split <;> exact hu
  have h1 : s1.mem.dram.wf := by simpa [s1] using hs
  exact dramForms_of_ite (dramForms_of_ite hs (hanswer hs _)) (dramWf_of_ite h1 (hanswer h1 0))

theorem vectorIssue_dramForms (c : CellId) : DramForms (execVectorIssue c s) := by
  dsimp only [execVectorIssue]
  (repeat' split) <;> simp [hs]

theorem vxBeat_dramForms (c : CellId) : DramForms (State.vxBeat c s) := by
  unfold State.vxBeat
  extract_lets x
  split
  · exact hs
  · next r _ =>
    extract_lets at_ m last bad sat acc verdict allSat r' wr v res y regs eng s1 s2 s3 s4
    have h1 : s1.mem.dram.wf := hs
    have h2 : s2.mem.dram.wf := noteTable_dramWf h1 ..
    have h3 : s3.mem.dram.wf := dramWf_of_ite (by simpa using h2) h2
    have h4 : s4.mem.dram.wf := by rwa [setStopIf_mem]
    rwa [dramForms_next, setStopIf_mem]

theorem vxBeatRetire_dramForms (c : CellId) : DramForms (execVxBeatRetire c s) := by
  unfold execVxBeatRetire
  split
  · exact dramForms_of_ite (gated_dramForms hs (vxBeat_dramForms hs c)) (vxBeat_dramForms hs c)
  · exact hs

theorem moverIssue_dramForms (c : CellId) : DramForms (execMoverIssue c s) := by
  unfold execMoverIssue
  extract_lets x
  split
  · next i j m _ _ =>
    extract_lets s1
    have h1 : s1.mem.dram.wf := hs
    split
    · simpa using h1
    · exact dmStart_dramWf (by simpa using h1) ..
  · exact hs

theorem dmTransferComplete_dramForms (c : CellId) (i : Fin 8) : DramForms (execDmTransferComplete c i s) := by
  unfold execDmTransferComplete
  split
  · exact hs
  · extract_lets s1
    have h1 : s1.mem.dram.wf := by
      simp only [s1]
      split
      · exact dramWf_of_ite hs (by simpa using hs)
      · exact hs
    split
    · exact h1
    · exact dramForms_of_ite (dmEnd_dramWf h1 ..) hs

theorem dramBurstServe_dramForms (n : StackId) (b : BurstErrs) (ts : List WireTry) :
    DramForms (execDramBurstServe n b ts s) := by
  unfold execDramBurstServe
  extract_lets meet
  have hmeet {t : State} (ht : t.mem.dram.wf) (d : Nat) : (meet t d).mem.dram.wf := dramWf_of_ite ht (flipBits_dramWf ht ..)
  split
  · exact hmeet hs _
  · exact dramForms_of_ite hs (serve_dramWf (hmeet (by simpa using hs) _) _)

theorem rspData_dramForms (d : FabId) : DramForms (execRspData d s) := by
  unfold execRspData
  split
  · exact hs
  · next f s1 hf =>
    have h1 : s1.mem.dram.wf := takeFrame_dramWf hs hf
    split
    · exact h1
    · dsimp only
      split
      · simpa using h1
      · split <;> simp [h1]

theorem putWrite_dramForms (d : FabId) : DramForms (execPutWrite d s) := by
  unfold execPutWrite
  refine gated_dramForms hs ?_
  dsimp only
  split
  · exact hs
  · next hf => simpa using remoteWrite_dramWf (takeFrame_dramWf hs hf) ..

theorem hspPiece_dramForms (toHost : Bool) : DramForms (execHspPiece toHost s) := by
  unfold execHspPiece
  refine gated_dramForms hs ?_
  extract_lets src s0 s1
  have h1 : s1.mem.dram.wf := dramWf_of_ite (foldl_dramWf (fun t p ht => by simpa using ht) _ hs) hs
  split
  · exact hs
  · split
    · exact h1
    · extract_lets isSheet s2
      have h2 : s2.mem.dram.wf := dramWf_of_ite h1 h1
      split
      · exact sheetServe_dramWf h2 ..
      · exact hspServe_dramWf h2 ..

theorem hspReadCompletion_dramForms (ok : Bool) (data : List Byte) : DramForms (execHspReadCompletion ok data s) := by
  unfold execHspReadCompletion
  split
  · exact hs
  · simp [hs]

/-! ### Resets -/

theorem contextReset_dramForms (a : At) : DramForms (execContextReset a s) := by
  unfold execContextReset
  split <;> simp [hs]

theorem engineReset_dramForms (c : CellId) (e : BitVec 4) : DramForms (execEngineReset c e s) := by
  unfold execEngineReset
  split <;> simp [hs]

theorem partitionReset_dramForms (p : PartId) : DramForms (execPartitionReset p s) := by
  unfold execPartitionReset
  split <;> simp [hs]

theorem chipReset_dramForms : DramForms (execChipReset s) := by
  unfold execChipReset
  split
  · simpa using coreReset_dramWf hs
  · exact hs

theorem auxLoss_dramForms : DramForms (execAuxLoss s) := dramForms_of_ite (coldState_dramWf s false) hs
theorem coldPowerOn_dramForms : DramForms (execColdPowerOn s) := dramForms_of_ite hs (coldState_dramWf s true)

/-! ### Registers -/

theorem registerWrite_dramForms (by_ : Requester) (offset : BitVec 28) (bytes8 : Bool) (v : Word64) :
    DramForms (execRegisterWrite by_ offset bytes8 v s) := by
  have hdenied (a : At) (op : Byte) : (s.regDenied a op).mem.dram.wf := by simpa using hs
  unfold execRegisterWrite
  dsimp only
  split
  · next c i =>
    split
    · exact hdenied _ _
    · next a ha =>
      have hput : (a.entry.put (.ctx c i) v s).mem.dram.wf := regAccess_dramWf ha hs ..
      refine dramForms_of_ite (by simpa using hs) (dramForms_of_ite (hdenied _ _) (dramWf_of_ite hput ?_))
      simpa using hs
  · exact dramForms_of_ite (hostWrite_dramWf hs ..) hs

theorem registerRingJoinFail_dramForms (x : RingFail) : DramForms (execRegisterRingJoinFail x s) := by
  unfold execRegisterRingJoinFail
  extract_lets src t src' u
  have ht : t.mem.dram.wf := hs
  have hu : u.mem.dram.wf := ht
  split
  · exact ht
  · split
    · exact ht
    · split
      · exact ht
      · split
        · split
          · exact registerWrite_dramForms hu ..
          · simpa using hu
        · exact ht

theorem bar0Access_dramForms (req : HostReq) (offset : BitVec 28) (len : Nat) (v : Word64) :
    DramForms (execBar0Access req offset len v s) := by
  have hcomp (w : Option Word64) : (s.completes w).mem.dram.wf := by simpa using hs
  unfold execBar0Access
  dsimp only
  refine dramForms_of_ite hs ?_
  split
  · exact dramWf_of_ite (by simpa using hs) hs
  · exact dramWf_of_ite (dramWf_of_ite hs (hcomp none)) (bar0_dramWf hs ..)
  · exact dramWf_of_ite (dramWf_of_ite hs (hcomp none)) (by simpa using hs)

end

/-- Every command leaves DRAM in form. -/
theorem exec_dramForms (i : Instr) {s : State} (hs : s.mem.dram.wf) : DramForms (exec i s) :=
  match i with
  | .scAdd at_ p f => (intOp_dramForms hs : DramForms (execScAdd at_ p f s))
  | .scSub at_ p f => (intOp_dramForms hs : DramForms (execScSub at_ p f s))
  | .scMul at_ p f => (intOp_dramForms hs : DramForms (execScMul at_ p f s))
  | .scMulhu at_ p f => (intOp_dramForms hs : DramForms (execScMulhu at_ p f s))
  | .scDiv at_ p f => (intOp_dramForms hs : DramForms (execScDiv at_ p f s))
  | .scDivu at_ p f => (intOp_dramForms hs : DramForms (execScDivu at_ p f s))
  | .scRem at_ p f => (intOp_dramForms hs : DramForms (execScRem at_ p f s))
  | .scRemu at_ p f => (intOp_dramForms hs : DramForms (execScRemu at_ p f s))
  | .scAnd at_ p f => (intOp_dramForms hs : DramForms (execScAnd at_ p f s))
  | .scOr at_ p f => (intOp_dramForms hs : DramForms (execScOr at_ p f s))
  | .scXor at_ p f => (intOp_dramForms hs : DramForms (execScXor at_ p f s))
  | .scShl at_ p f => (intOp_dramForms hs : DramForms (execScShl at_ p f s))
  | .scShr at_ p f => (intOp_dramForms hs : DramForms (execScShr at_ p f s))
  | .scSar at_ p f => (intOp_dramForms hs : DramForms (execScSar at_ p f s))
  | .scCmp at_ p f => (finishes_dramForms hs : DramForms (execScCmp at_ p f s))
  | .scPop at_ p f => (finishes_dramForms hs : DramForms (execScPop at_ p f s))
  | .scAddi at_ p f => (immOp_dramForms hs : DramForms (execScAddi at_ p f s))
  | .scAndi at_ p f => (immOp_dramForms hs : DramForms (execScAndi at_ p f s))
  | .scOri at_ p f => (immOp_dramForms hs : DramForms (execScOri at_ p f s))
  | .scXori at_ p f => (immOp_dramForms hs : DramForms (execScXori at_ p f s))
  | .scCmpi at_ p f => (finishes_dramForms hs : DramForms (execScCmpi at_ p f s))
  | .scMovi at_ p f => (immOp_dramForms hs : DramForms (execScMovi at_ p f s))
  | .scLdhi at_ p f => (immOp_dramForms hs : DramForms (execScLdhi at_ p f s))
  | .scShi at_ p f => (immOp_dramForms hs : DramForms (execScShi at_ p f s))
  | .scFadd at_ p f => (fltOp_dramForms hs : DramForms (execScFadd at_ p f s))
  | .scFsub at_ p f => (fltOp_dramForms hs : DramForms (execScFsub at_ p f s))
  | .scFmul at_ p f => (fltOp_dramForms hs : DramForms (execScFmul at_ p f s))
  | .scFfma at_ p f => (fltOp_dramForms hs : DramForms (execScFfma at_ p f s))
  | .scFdiv at_ p f => (fltOp_dramForms hs : DramForms (execScFdiv at_ p f s))
  | .scFsqrt at_ p f => (fltOp_dramForms hs : DramForms (execScFsqrt at_ p f s))
  | .scFrcp at_ p f => (fltOp_dramForms hs : DramForms (execScFrcp at_ p f s))
  | .scFtr at_ p f => (fltOp_dramForms hs : DramForms (execScFtr at_ p f s))
  | .scFcmp at_ p f => (finishes_dramForms hs : DramForms (execScFcmp at_ p f s))
  | .scFcvt at_ p f => execScFcvt_dramForms hs at_ p f
  | .scLd at_ p f => execScLd_dramForms hs at_ p f
  | .scSt at_ p f => (stores_dramForms hs : DramForms (execScSt at_ p f s))
  | .scRdreg at_ p f => execScRdreg_dramForms hs at_ p f
  | .scWrreg at_ p f => scWrreg_dramForms hs at_ p f
  | .scTld at_ p f => execScTld_dramForms hs at_ p f
  | .scTst at_ p f => (stores_dramForms hs : DramForms (execScTst at_ p f s))
  | .scTset at_ p f => execScTset_dramForms hs at_ p f
  | .scTbase at_ p f => execScTbase_dramForms hs at_ p f
  | .scQld at_ p f => execScQld_dramForms hs at_ p f
  | .scQst at_ p f => (stores_dramForms hs : DramForms (execScQst at_ p f s))
  | .scQset at_ p f => execScQset_dramForms hs at_ p f
  | .scQaddr at_ p f => execScQaddr_dramForms hs at_ p f
  | .scBr at_ p f => execScBr_dramForms hs at_ p f
  | .scBri at_ p f => execScBri_dramForms hs at_ p f
  | .scCall at_ p f => execScCall_dramForms hs at_ p f
  | .scNop at_ p f => execScNop_dramForms hs at_ p f
  | .scExit at_ p f => scExit_dramForms hs at_ p f
  | .scTime at_ p f => execScTime_dramForms hs at_ p f
  | .scId at_ p f => execScId_dramForms hs at_ p f
  | .faultStopComplete at_ => faultStopComplete_dramForms hs at_
  | .mxMma at_ p f => (mxDispatch_dramForms hs : DramForms (execMxMma at_ p f s))
  | .mxDrain at_ p f => (mxDispatch_dramForms hs : DramForms (execMxDrain at_ p f s))
  | .mxVsave at_ p f => (mxDispatch_dramForms hs : DramForms (execMxVsave at_ p f s))
  | .mxVload at_ p f => (mxDispatch_dramForms hs : DramForms (execMxVload at_ p f s))
  | .mxVfree at_ p f => (mxDispatch_dramForms hs : DramForms (execMxVfree at_ p f s))
  | .plateIssue c => execPlateIssue_dramForms hs c
  | .stationaryTileLoaded c => execStationaryTileLoaded_dramForms hs c
  | .plateRowCycle c => execPlateRowCycle_dramForms hs c
  | .vatPromotion c => vatPromotion_dramForms hs c
  | .vatRowTransfer c => vatRowTransfer_dramForms hs c
  | .vatClearDone c => execVatClearDone_dramForms hs c
  | .vatApertureAccess by_ c isWrite offset data => vatApertureAccess_dramForms hs by_ c isWrite offset data
  | .vxAdd at_ p f => (vDispatch_dramForms hs : DramForms (execVxAdd at_ p f s))
  | .vxSub at_ p f => (vDispatch_dramForms hs : DramForms (execVxSub at_ p f s))
  | .vxMul at_ p f => (vDispatch_dramForms hs : DramForms (execVxMul at_ p f s))
  | .vxFma at_ p f => (vDispatch_dramForms hs : DramForms (execVxFma at_ p f s))
  | .vxNeg at_ p f => (vDispatch_dramForms hs : DramForms (execVxNeg at_ p f s))
  | .vxAbs at_ p f => (vDispatch_dramForms hs : DramForms (execVxAbs at_ p f s))
  | .vxMin at_ p f => (vDispatch_dramForms hs : DramForms (execVxMin at_ p f s))
  | .vxMax at_ p f => (vDispatch_dramForms hs : DramForms (execVxMax at_ p f s))
  | .vxSel at_ p f => (vDispatch_dramForms hs : DramForms (execVxSel at_ p f s))
  | .vxCmp at_ p f => (vDispatch_dramForms hs : DramForms (execVxCmp at_ p f s))
  | .vxCvt at_ p f => (vDispatch_dramForms hs : DramForms (execVxCvt at_ p f s))
  | .vxDiv at_ p f => (vDispatch_dramForms hs : DramForms (execVxDiv at_ p f s))
  | .vxSqrt at_ p f => (vDispatch_dramForms hs : DramForms (execVxSqrt at_ p f s))
  | .vxRecip at_ p f => (vDispatch_dramForms hs : DramForms (execVxRecip at_ p f s))
  | .vxRsqrt at_ p f => (vDispatch_dramForms hs : DramForms (execVxRsqrt at_ p f s))
  | .vxExp at_ p f => (vDispatch_dramForms hs : DramForms (execVxExp at_ p f s))
  | .vxExp2 at_ p f => (vDispatch_dramForms hs : DramForms (execVxExp2 at_ p f s))
  | .vxLog at_ p f => (vDispatch_dramForms hs : DramForms (execVxLog at_ p f s))
  | .vxLog2 at_ p f => (vDispatch_dramForms hs : DramForms (execVxLog2 at_ p f s))
  | .vxTanh at_ p f => (vDispatch_dramForms hs : DramForms (execVxTanh at_ p f s))
  | .vxSigmoid at_ p f => (vDispatch_dramForms hs : DramForms (execVxSigmoid at_ p f s))
  | .vxErf at_ p f => (vDispatch_dramForms hs : DramForms (execVxErf at_ p f s))
  | .vxSegred at_ p f => (vDispatch_dramForms hs : DramForms (execVxSegred at_ p f s))
  | .vxBcast at_ p f => (vDispatch_dramForms hs : DramForms (execVxBcast at_ p f s))
  | .vxGrain at_ p f => (vDispatch_dramForms hs : DramForms (execVxGrain at_ p f s))
  | .vxGskip at_ p f => (vDispatch_dramForms hs : DramForms (execVxGskip at_ p f s))
  | .vxSumm at_ p f => (vDispatch_dramForms hs : DramForms (execVxSumm at_ p f s))
  | .vxCrc64 at_ p f => (vDispatch_dramForms hs : DramForms (execVxCrc64 at_ p f s))
  | .vxSha256 at_ p f => (vDispatch_dramForms hs : DramForms (execVxSha256 at_ p f s))
  | .vxOptstep at_ p f => (viDispatch_dramForms hs : DramForms (execVxOptstep at_ p f s))
  | .vxRmodeEnter at_ p f => (viDispatch_dramForms hs : DramForms (execVxRmodeEnter at_ p f s))
  | .vxRmodeLeave at_ p f => (viDispatch_dramForms hs : DramForms (execVxRmodeLeave at_ p f s))
  | .vxAddi at_ p f => (viDispatch_dramForms hs : DramForms (execVxAddi at_ p f s))
  | .vxSubi at_ p f => (viDispatch_dramForms hs : DramForms (execVxSubi at_ p f s))
  | .vxMuli at_ p f => (viDispatch_dramForms hs : DramForms (execVxMuli at_ p f s))
  | .vxFmai at_ p f => (viDispatch_dramForms hs : DramForms (execVxFmai at_ p f s))
  | .vxMini at_ p f => (viDispatch_dramForms hs : DramForms (execVxMini at_ p f s))
  | .vxMaxi at_ p f => (viDispatch_dramForms hs : DramForms (execVxMaxi at_ p f s))
  | .vectorIssue c => vectorIssue_dramForms hs c
  | .vxBeatRetire c => vxBeatRetire_dramForms hs c
  | .summaryResult c => execSummaryResult_dramForms hs c
  | .optstepBlock c => execOptstepBlock_dramForms hs c
  | .dmGet at_ p f => (dmDispatch_dramForms hs : DramForms (execDmGet at_ p f s))
  | .dmPut at_ p f => (dmDispatch_dramForms hs : DramForms (execDmPut at_ p f s))
  | .dmCopy at_ p f => (dmDispatch_dramForms hs : DramForms (execDmCopy at_ p f s))
  | .moverIssue c => moverIssue_dramForms hs c
  | .dmTransferComplete c ix => dmTransferComplete_dramForms hs c ix
  | .clAg at_ p f => (clDispatch_dramForms hs : DramForms (execClAg at_ p f s))
  | .clRs at_ p f => (clDispatch_dramForms hs : DramForms (execClRs at_ p f s))
  | .clAr at_ p f => (clDispatch_dramForms hs : DramForms (execClAr at_ p f s))
  | .clA2a at_ p f => (clDispatch_dramForms hs : DramForms (execClA2a at_ p f s))
  | .clBcast at_ p f => (clDispatch_dramForms hs : DramForms (execClBcast at_ p f s))
  | .clBar at_ p f => (clDispatch_dramForms hs : DramForms (execClBar at_ p f s))
  | .clUntag at_ p f => (clDispatch_dramForms hs : DramForms (execClUntag at_ p f s))
  | .collectiveQueueIssue c => execCollectiveQueueIssue_dramForms hs c
  | .syInit at_ p f => execSyInit_dramForms hs at_ p f
  | .sySignal at_ p f => execSySignal_dramForms hs at_ p f
  | .syWait at_ p f => execSyWait_dramForms hs at_ p f
  | .syPoll at_ p f => execSyPoll_dramForms hs at_ p f
  | .syFence at_ p f => execSyFence_dramForms hs at_ p f
  | .syYield at_ p f => execSyYield_dramForms hs at_ p f
  | .syRsignal at_ p f => execSyRsignal_dramForms hs at_ p f
  | .latchSignalArrive c => execLatchSignalArrive_dramForms hs c
  | .latchWaitReturn at_ => execLatchWaitReturn_dramForms hs at_
  | .stOpen at_ p f => execStOpen_dramForms hs at_ p f
  | .stOpenRelease c => execStOpenRelease_dramForms hs c
  | .stStop at_ p f => execStStop_dramForms hs at_ p f
  | .stopBarrierComplete p => execStopBarrierComplete_dramForms hs p
  | .stFix at_ p f => execStFix_dramForms hs at_ p f
  | .fixBarrierComplete p => execFixBarrierComplete_dramForms hs p
  | .fixCommitAdvance p => execFixCommitAdvance_dramForms hs p
  | .stepBoundary p => execStepBoundary_dramForms hs p
  | .stSeed at_ p f => execStSeed_dramForms hs at_ p f
  | .trMark at_ p f => execTrMark_dramForms hs at_ p f
  | .trVal at_ p f => execTrVal_dramForms hs at_ p f
  | .trCtr at_ p f => execTrCtr_dramForms hs at_ p f
  | .traceRecordWrite c => execTraceRecordWrite_dramForms hs c
  | .verdictArrival p tag reduced => execVerdictArrival_dramForms hs p tag reduced
  | .verdictTimeout p => execVerdictTimeout_dramForms hs p
  | .twinAckTimeout p => execTwinAckTimeout_dramForms hs p
  | .ctxStart by_ c ix v => (regWrite_dramForms hs (by simp [hs]) : DramForms (execCtxStart by_ c ix v s))
  | .contextSwitch c => contextSwitch_dramForms hs c
  | .contextWake c ix => execContextWake_dramForms hs c ix
  | .contextRunStart c => execContextRunStart_dramForms hs c
  | .graceExpiry c => execGraceExpiry_dramForms hs c
  | .partApply by_ => (regWrite_dramForms hs (by simp [hs]) : DramForms (execPartApply by_ s))
  | .slotCfgWrite by_ c v => (regWrite_dramForms hs (by simp [hs]) : DramForms (execSlotCfgWrite by_ c v s))
  | .isaCtlWrite by_ c ix v => (regWrite_dramForms hs (by simp [hs]) : DramForms (execIsaCtlWrite by_ c ix v s))
  | .plateCfgWrite by_ c v => (regWrite_dramForms hs (by simp [hs]) : DramForms (execPlateCfgWrite by_ c v s))
  | .plateDbgEnWrite by_ c v => (regWrite_dramForms hs (by simp [hs]) : DramForms (execPlateDbgEnWrite by_ c v s))
  | .grainLaneBaseWrite by_ c ix v =>
    (regWrite_dramForms hs (by simp [hs]) : DramForms (execGrainLaneBaseWrite by_ c ix v s))
  | .ctxCtlWrite by_ c ix wakeTime v =>
    (regWrite_dramForms hs (by simp [hs]) : DramForms (execCtxCtlWrite by_ c ix wakeTime v s))
  | .stepRegWrite by_ p r v => (regWrite_dramForms hs (by simp [hs]) : DramForms (execStepRegWrite by_ p r v s))
  | .cfgApply by_ p => (regWrite_dramForms hs (by simp [hs]) : DramForms (execCfgApply by_ p s))
  | .registerWrite by_ offset bytes8 v => registerWrite_dramForms hs by_ offset bytes8 v
  | .bar0Access req offset len v => bar0Access_dramForms hs req offset len v
  | .dramBurstServe n b tries => dramBurstServe_dramForms hs n b tries
  | .eccWriteback n ch => execEccWriteback_dramForms hs n ch
  | .regulatorTick => execRegulatorTick_dramForms hs
  | .patrolScrub n ch flips tries => execPatrolScrub_dramForms hs n ch flips tries
  | .eccWindowEnd n ch => execEccWindowEnd_dramForms hs n ch
  | .stackTempReading n sensors => execStackTempReading_dramForms hs n sensors
  | .stackConnectionFail n w => execStackConnectionFail_dramForms hs n w
  | .mapoutReqWrite by_ n v => (regWrite_dramForms hs (by simp [hs]) : DramForms (execMapoutReqWrite by_ n v s))
  | .pageMark by_ v => (regWrite_dramForms hs (by simp [hs]) : DramForms (execPageMark by_ v s))
  | .pageUnmark by_ v => (regWrite_dramForms hs (by simp [hs]) : DramForms (execPageUnmark by_ v s))
  | .pageCmdDone => execPageCmdDone_dramForms hs
  | .memBringupWrite by_ v => (regWrite_dramForms hs (by simp [hs]) : DramForms (execMemBringupWrite by_ v s))
  | .memMarginWrite by_ n v => (regWrite_dramForms hs (by simp [hs]) : DramForms (execMemMarginWrite by_ n v s))
  | .stPatGo by_ v => (regWrite_dramForms hs (by simp [hs]) : DramForms (execStPatGo by_ v s))
  | .stPatDone => execStPatDone_dramForms hs
  | .xdBeatReceive j dir beat => execXdBeatReceive_dramForms hs j dir beat
  | .xdErrorWindow j dir => execXdErrorWindow_dramForms hs j dir
  | .xdClockLoss j dir group alternate => execXdClockLoss_dramForms hs j dir group alternate
  | .xdSteer j dir group wire swt => execXdSteer_dramForms hs j dir group wire swt
  | .xdHalf j dir half swt => execXdHalf_dramForms hs j dir half swt
  | .xdDisable j swt => execXdDisable_dramForms hs j swt
  | .xdSwitch j dir => execXdSwitch_dramForms hs j dir
  | .xdForceWrite by_ j v => (regWrite_dramForms hs (by simp [hs]) : DramForms (execXdForceWrite by_ j v s))
  | .frameReceive k f => execFrameReceive_dramForms hs k f
  | .linkReplay r => execLinkReplay_dramForms hs r
  | .laneErrorWindow k errors => execLaneErrorWindow_dramForms hs k errors
  | .routerSlot d => execRouterSlot_dramForms hs d
  | .frameInject d => execFrameInject_dramForms hs d
  | .starveHoldoffEnd d => execStarveHoldoffEnd_dramForms hs d
  | .streamDeliver d ix => execStreamDeliver_dramForms hs d ix
  | .robGap d ix => execRobGap_dramForms hs d ix
  | .reqRead d => execReqRead_dramForms hs d
  | .rspData d => rspData_dramForms hs d
  | .rspCredit d => execRspCredit_dramForms hs d
  | .putWrite d => putWrite_dramForms hs d
  | .deadEndReturn d => execDeadEndReturn_dramForms hs d
  | .sourceSlotTimeout d ix => execSourceSlotTimeout_dramForms hs d ix
  | .creditFlush d => execCreditFlush_dramForms hs d
  | .mntMreq => execMntMreq_dramForms hs
  | .mntMrsp => execMntMrsp_dramForms hs
  | .mntMpost => execMntMpost_dramForms hs
  | .grantWrite by_ d tx ix v => (regWrite_dramForms hs (by simp [hs]) : DramForms (execGrantWrite by_ d tx ix v s))
  | .fabricCfgWrite by_ r v => execFabricCfgWrite_dramForms hs by_ r v
  | .routeSlotWrite by_ ix target w =>
    (regWrite_dramForms hs (by simp [hs]) : DramForms (execRouteSlotWrite by_ ix target w s))
  | .routeSeal by_ ix => (regWrite_dramForms hs (by simp [hs]) : DramForms (execRouteSeal by_ ix s))
  | .routeRetire by_ ix => (regWrite_dramForms hs (by simp [hs]) : DramForms (execRouteRetire by_ ix s))
  | .routeApply by_ ix => (regWrite_dramForms hs (by simp [hs]) : DramForms (execRouteApply by_ ix s))
  | .routeDrainTimer ix => execRouteDrainTimer_dramForms hs ix
  | .darkslideClose => execDarkslideClose_dramForms hs
  | .darkslideForward k f => execDarkslideForward_dramForms hs k f
  | .darkslideOpen pair => execDarkslideOpen_dramForms hs pair
  | .bypassFail island => execBypassFail_dramForms hs island
  | .portTrainStage k partner => execPortTrainStage_dramForms hs k partner
  | .timeWord k t1 t2 t3 t4 depth partnerLocked => execTimeWord_dramForms hs k t1 t2 t3 t4 depth partnerLocked
  | .timeWordInsert k => execTimeWordInsert_dramForms hs k
  | .timeSlew => execTimeSlew_dramForms hs
  | .timeParentSelect => execTimeParentSelect_dramForms hs
  | .collArm by_ ix => (regWrite_dramForms hs (by simp [hs]) : DramForms (execCollArm by_ ix s))
  | .collDisarm by_ ix => (regWrite_dramForms hs (by simp [hs]) : DramForms (execCollDisarm by_ ix s))
  | .collArrival d => execCollArrival_dramForms hs d
  | .collReady d => execCollReady_dramForms hs d
  | .collDataFrame d => execCollDataFrame_dramForms hs d
  | .collTagFrame d => execCollTagFrame_dramForms hs d
  | .collArriveRecord => execCollArriveRecord_dramForms hs
  | .collInstanceEnd ix => execCollInstanceEnd_dramForms hs ix
  | .sideRecordSend p => execSideRecordSend_dramForms hs p
  | .sideRecordReceive => execSideRecordReceive_dramForms hs
  | .tableBuildComplete p => execTableBuildComplete_dramForms hs p
  | .xlegRecord => execXlegRecord_dramForms hs
  | .collProgressTimeout ix => execCollProgressTimeout_dramForms hs ix
  | .colldTagOutClear by_ ix => (regWrite_dramForms hs (by simp [hs]) : DramForms (execColldTagOutClear by_ ix s))
  | .twinArm by_ p => (twinWrite_dramForms hs (by simp [hs]) : DramForms (execTwinArm by_ p s))
  | .twinRestart by_ p => execTwinRestart_dramForms hs by_ p
  | .twinRefix by_ p => (twinWrite_dramForms hs (by simp [hs]) : DramForms (execTwinRefix by_ p s))
  | .hello p => execHello_dramForms hs p
  | .pageAck p => execPageAck_dramForms hs p
  | .resend p => execResend_dramForms hs p
  | .manifest p => execManifest_dramForms hs p
  | .negDone p => execNegDone_dramForms hs p
  | .bodyAck p => execBodyAck_dramForms hs p
  | .seal p => execSeal_dramForms hs p
  | .sealAck p => execSealAck_dramForms hs p
  | .probe p => execProbe_dramForms hs p
  | .probeTimer p => execProbeTimer_dramForms hs p
  | .twinPageSend p => execTwinPageSend_dramForms hs p
  | .twinClaim p => execTwinClaim_dramForms hs p
  | .firstTouchCopy p slot => execFirstTouchCopy_dramForms hs p slot
  | .restorePages by_ p sel => (twinWrite_dramForms hs (by simp [hs]) : DramForms (execRestorePages by_ p sel s))
  | .restoreRecord by_ p sel => (twinWrite_dramForms hs (by simp [hs]) : DramForms (execRestoreRecord by_ p sel s))
  | .restoreTables by_ p => (twinWrite_dramForms hs (by simp [hs]) : DramForms (execRestoreTables by_ p s))
  | .restoreDone p data => execRestoreDone_dramForms hs p data
  | .sheetArm by_ p => (regWrite_dramForms hs (by simp [hs]) : DramForms (execSheetArm by_ p s))
  | .sheetCancel by_ p => (regWrite_dramForms hs (by simp [hs]) : DramForms (execSheetCancel by_ p s))
  | .hspPiece toHost => hspPiece_dramForms hs toHost
  | .hspReadCompletion ok data => hspReadCompletion_dramForms hs ok data
  | .hostRegionWrite by_ ix cfg v =>
    (regWrite_dramForms hs (by simp [hs]) : DramForms (execHostRegionWrite by_ ix cfg v s))
  | .doorbell ix v => execDoorbell_dramForms hs ix v
  | .doorbellCfgWrite by_ ix v => (regWrite_dramForms hs (by simp [hs]) : DramForms (execDoorbellCfgWrite by_ ix v s))
  | .mboxGo request => execMboxGo_dramForms hs request
  | .mboxTake => execMboxTake_dramForms hs
  | .getInfo => execGetInfo_dramForms hs
  | .logRead => execLogRead_dramForms hs
  | .fruRead => execFruRead_dramForms hs
  | .fruWrite => execFruWrite_dramForms hs
  | .fwWrite => execFwWrite_dramForms hs
  | .fwActivate => execFwActivate_dramForms hs
  | .anchorSet => execAnchorSet_dramForms hs
  | .getNonce => execGetNonce_dramForms hs
  | .debugUnlock => execDebugUnlock_dramForms hs
  | .debugLock => execDebugLock_dramForms hs
  | .debugUnlockEnd => execDebugUnlockEnd_dramForms hs
  | .mboxReply => execMboxReply_dramForms hs
  | .errorRecordDeliver => execErrorRecordDeliver_dramForms hs
  | .hcpNotify by_ p => (regWrite_dramForms hs (by simp [hs]) : DramForms (execHcpNotify by_ p s))
  | .pciePortReset hsp => execPciePortReset_dramForms hs hsp
  | .functionLevelReset hsp => execFunctionLevelReset_dramForms hs hsp
  | .spdmGetVersion req => (spdmTake_dramForms hs (by simp) : DramForms (execSpdmGetVersion req s))
  | .spdmGetCapabilities req => (spdmTake_dramForms hs (by simp) : DramForms (execSpdmGetCapabilities req s))
  | .spdmNegotiateAlgorithms req => (spdmTake_dramForms hs (by simp) : DramForms (execSpdmNegotiateAlgorithms req s))
  | .spdmGetDigests req => (spdmTake_dramForms hs (by simp) : DramForms (execSpdmGetDigests req s))
  | .spdmGetCertificate req => (spdmTake_dramForms hs (by simp) : DramForms (execSpdmGetCertificate req s))
  | .spdmChallenge req => (spdmTake_dramForms hs (by simp) : DramForms (execSpdmChallenge req s))
  | .spdmGetMeasurements req => (spdmTake_dramForms hs (by simp) : DramForms (execSpdmGetMeasurements req s))
  | .tsbRead word => execTsbRead_dramForms hs word
  | .tsbWrite word v => execTsbWrite_dramForms hs word v
  | .emergWWrite v => execEmergWWrite_dramForms hs v
  | .tsbShadowRefresh => execTsbShadowRefresh_dramForms hs
  | .smbusOffsetWrite w data => execSmbusOffsetWrite_dramForms hs w data
  | .smbusRead r => execSmbusRead_dramForms hs r
  | .fruStoreCommit => execFruStoreCommit_dramForms hs
  | .mgmtHeartbeatMiss => execMgmtHeartbeatMiss_dramForms hs
  | .mgmtRestart => execMgmtRestart_dramForms hs
  | .coldPowerOn => coldPowerOn_dramForms hs
  | .startupPhaseEnd => execStartupPhaseEnd_dramForms hs
  | .stackTrained n temp => execStackTrained_dramForms hs n temp
  | .input12vFault => execInput12vFault_dramForms hs
  | .auxLoss => auxLoss_dramForms hs
  | .watchdogSample => execWatchdogSample_dramForms hs
  | .waitLimit at_ => execWaitLimit_dramForms hs at_
  | .stopHoldExpiry at_ => execStopHoldExpiry_dramForms hs at_
  | .abortHoldExpiry p => execAbortHoldExpiry_dramForms hs p
  | .resetCmdContext by_ at_ =>
    (auxWrite_dramForms hs (by simp [startReset_mem, hs]) : DramForms (execResetCmdContext by_ at_ s))
  | .resetCmdEngine by_ c e => (auxWrite_dramForms hs (by simp [hs]) : DramForms (execResetCmdEngine by_ c e s))
  | .resetCmdPartition by_ p =>
    (auxWrite_dramForms hs (by simp [startReset_mem, hs]) : DramForms (execResetCmdPartition by_ p s))
  | .resetCmdChip by_ => (auxWrite_dramForms hs (by simp [startReset_mem, hs]) : DramForms (execResetCmdChip by_ s))
  | .resetCmdPowerCycle by_ =>
    (auxWrite_dramForms hs (by simp [startReset_mem, hs]) : DramForms (execResetCmdPowerCycle by_ s))
  | .contextReset at_ => contextReset_dramForms hs at_
  | .engineReset c e => engineReset_dramForms hs c e
  | .partitionReset p => partitionReset_dramForms hs p
  | .chipReset => chipReset_dramForms hs
  | .chipResetPhaseEnd => execChipResetPhaseEnd_dramForms hs
  | .powerCycleReq => execPowerCycleReq_dramForms hs
  | .resetDone ix => execResetDone_dramForms hs ix
  | .resetEscalation ix => execResetEscalation_dramForms hs ix
  | .meterActivityReport d => execMeterActivityReport_dramForms hs d
  | .meterCalibration inputMv railMa => execMeterCalibration_dramForms hs inputMv railMa
  | .meterSignatureWindow => execMeterSignatureWindow_dramForms hs
  | .capLoop inputMv => execCapLoop_dramForms hs inputMv
  | .pointChangeDone d => execPointChangeDone_dramForms hs d
  | .pwrApply by_ => (regWrite_dramForms hs (by simp [hs]) : DramForms (execPwrApply by_ s))
  | .pwrEmergWrite by_ v => (regWrite_dramForms hs (by simp [hs]) : DramForms (execPwrEmergWrite by_ v s))
  | .droopDetect d mv => execDroopDetect_dramForms hs d mv
  | .droopRelease d => execDroopRelease_dramForms hs d
  | .junctionReading d tempC8 => execJunctionReading_dramForms hs d tempC8
  | .ageingReading d slackPs => execAgeingReading_dramForms hs d slackPs
  | .ageingReplan d => execAgeingReplan_dramForms hs d
  | .ageCfgWrite by_ v => (auxWrite_dramForms hs (by simp [hs]) : DramForms (execAgeCfgWrite by_ v s))
  | .selftestSliceStart item => execSelftestSliceStart_dramForms hs item
  | .selftestSliceEnd d errors eye => execSelftestSliceEnd_dramForms hs d errors eye
  | .selftestRotation item => execSelftestRotation_dramForms hs item
  | .selftestPassEnd k => execSelftestPassEnd_dramForms hs k
  | .pinCheck r row col => execPinCheck_dramForms hs r row col
  | .slCtlWrite by_ v => (regWrite_dramForms hs (by simp [hs]) : DramForms (execSlCtlWrite by_ v s))
  | .tapIdcode => execTapIdcode_dramForms hs
  | .tapSamplePreload data => execTapSamplePreload_dramForms hs data
  | .tapExtest => execTapExtest_dramForms hs
  | .tapClamp => execTapClamp_dramForms hs
  | .tapHighz => execTapHighz_dramForms hs
  | .tapIjtag => execTapIjtag_dramForms hs
  | .tapBypass => execTapBypass_dramForms hs
  | .tapReset => execTapReset_dramForms hs
  | .illegalOpcode at_ word => execIllegalOpcode_dramForms hs at_ word
  | .laneLockLoss k => execLaneLockLoss_dramForms hs k
  | .pcieLinkUp hsp => execPcieLinkUp_dramForms hs hsp
  | .helloTimeout p => execHelloTimeout_dramForms hs p
  | .bypassSelfTestPass => execBypassSelfTestPass_dramForms hs
  | .registerRingJoinFail x => registerRingJoinFail_dramForms hs x

/-- Settles O57: a step is a tick or a command, the tick leaves the memory, and every command leaves DRAM in form. -/
theorem memoryKeepsForm : Obligations.MemoryKeepsForm := by
  intro s t hs h
  cases hq : s.pending with
  | nil =>
    rw [step_nil hq] at h
    obtain rfl : idleTick s = t := Host.Outcome.next.inj h
    rwa [State.memForm, idleTick_mem]
  | cons c rest =>
    have hs' : ({ s with pending := rest } : State).mem.dram.wf := hs
    have hf : DramForms (step s) := by
      simp only [step, hq]
      exact exec_dramForms c hs'
    rwa [h] at hf

end Sys2Proof.Machine
end

section
/-!
OBLIGATION O7. Stored bytes read back; the (39,32) code corrects one flipped bit and detects two (R298 to R301).
-/
namespace Sys2Proof.Machine

/-! ### The code (R298 to R300) -/

/-- What a decode delivers: the word received, with the named data bit flipped back. -/
theorem eccDecode_fst (w : BitVec 39) : (eccDecode w).1 =
    match classify (syndrome w) with
    | .fixedData i => bfld (w ^^^ ((1 : BitVec 39) <<< i)) 0 32
    | _ => bfld w 0 32 := by
  unfold eccDecode
  dsimp only
  split <;> simp_all

/-- The data field of a stored word, its other bits disturbed. -/
theorem bfld_eccCode_xor (d : Word32) {e : BitVec 39} (he : bfld e 0 32 = (0 : Word32)) :
    bfld (eccCode d ^^^ e) 0 32 = d := by
  apply BitVec.eq_of_getLsbD_eq
  intro i hi
  have hei : e.getLsbD i = false := by
    have := congrArg (fun v : Word32 => v.getLsbD i) he
    simpa [bfld, hi] using this
  simp only [bfld, eccCode, BitVec.getLsbD_extractLsb', BitVec.getLsbD_xor, BitVec.getLsbD_append, Nat.zero_add, hi, hei,
    decide_true, Bool.true_and, Bool.xor_false, if_true]

/-- A disturbed stored word is read by the disturbance's own syndrome. -/
theorem eccDecode_eccCode_xor_snd (d : Word32) (e : BitVec 39) : (eccDecode (eccCode d ^^^ e)).2 = classify (syndrome e) := by
  rw [eccDecode_snd, syndrome_xor, syndrome_eccCode]
  exact congrArg classify BitVec.zero_xor

/-- A disturbance outside the data that the decode does not lay to a data bit leaves the data. -/
theorem eccDecode_of_check (d : Word32) {e : BitVec 39} {r : WordRead} (hr : classify (syndrome e) = r)
    (he : bfld e 0 32 = (0 : Word32)) (hd : ∀ i, r ≠ .fixedData i) : eccDecode (eccCode d ^^^ e) = (d, r) := by
  have hsnd := (eccDecode_eccCode_xor_snd d e).trans hr
  refine Prod.ext ?_ hsnd
  rw [eccDecode_fst, ← eccDecode_snd, hsnd]
  split
  · next i => exact absurd rfl (hd i)
  · exact bfld_eccCode_xor d he

theorem classify_data : ∀ i < 32, classify (syndrome ((1 : BitVec 39) <<< i)) = .fixedData i := by decide +kernel
theorem classify_check : ∀ i < 39, 32 ≤ i → classify (syndrome ((1 : BitVec 39) <<< i)) = .fixedCheck i ∧
    bfld ((1 : BitVec 39) <<< i) 0 32 = (0 : Word32) := by decide +kernel
/-- The columns have odd weight, so two of them never add to one. -/
theorem classify_double : ∀ j < 39, ∀ i < j,
    (classify (syndrome (((1 : BitVec 39) <<< i) ^^^ ((1 : BitVec 39) <<< j)))).poisoned = true := by decide +kernel

/-- A flipped data bit is named and flipped back. -/
theorem eccDecode_flip_data (d : Word32) {i : Nat} (hi : i < 32) :
    eccDecode (eccCode d ^^^ ((1 : BitVec 39) <<< i)) = (d, .fixedData i) := by
  have hsnd := (eccDecode_eccCode_xor_snd d _).trans (classify_data i hi)
  refine Prod.ext ?_ hsnd
  rw [eccDecode_fst, ← eccDecode_snd, hsnd]
  dsimp only
  rw [BitVec.xor_assoc, BitVec.xor_self]
  exact bfld_eccCode_xor d (by decide)

namespace ProtMem

/-! ### Poison after a write (R301) -/

theorem poisonedWord_eq (m : ProtMem) (w : Nat) : m.poisonedWord w = (m.readWord w).2.poisoned := by
  rw [readWord_snd, poisonedWord]
  split
  · next h => rw [h, syndrome_zero]; rfl
  · rfl

theorem poisonedWord_congr {m m' : ProtMem} {w : Nat} (h : m'.diff w = m.diff w) :
    m'.poisonedWord w = m.poisonedWord w := by rw [poisonedWord, poisonedWord, h]

theorem poisonedWord_mergeWord {m : ProtMem} (h : m.wf) (w v : Nat) :
    (m.mergeWord w).poisonedWord v = m.poisonedWord v := by
  by_cases hv : v = w
  · subst hv
    unfold mergeWord
    split
    · rfl
    · have hdiff (k : BitVec 39) (bs : List Byte) : ((m.putBytes (4 * v) bs).setDiff v k).diff v = k :=
        (Sparse.get_set ((wf_iff _).mp (putBytes_wf h _ _)).2 v v k).trans (if_pos rfl)
      rw [poisonedWord_eq m, poisonedWord_eq, readWord_snd, hdiff]
      cases (m.readWord v).2.poisoned
      · exact congrArg (fun e => (classify e).poisoned) syndrome_zero
      · exact congrArg (fun e => (classify e).poisoned) syndrome_poisonDiff
  · exact poisonedWord_congr (diff_mergeWord_ne h hv)

theorem poisonedWord_mergeEnds {m : ProtMem} (h : m.wf) (a n v : Nat) :
    (m.mergeEnds a n).poisonedWord v = m.poisonedWord v := by
  unfold mergeEnds
  dsimp only
  split <;> split
  · rfl
  · exact poisonedWord_mergeWord h ..
  · exact poisonedWord_mergeWord h ..
  · exact (poisonedWord_mergeWord (mergeWord_wf h _) ..).trans (poisonedWord_mergeWord h ..)

/-- A word that is not wholly written keeps its poison; a whole word written is free of it. -/
theorem poisonedWord_write {m : ProtMem} (h : m.wf) (a : Nat) (bs : List Byte) (v : Nat) : (m.write a bs).poisonedWord v =
    if (a + 3) / 4 ≤ v ∧ v < (a + bs.length) / 4 then false else m.poisonedWord v := by
  have hd := diff_write h a bs v
  split
  · next hv =>
    rw [if_pos hv] at hd
    exact if_pos hd
  · next hv =>
    rw [if_neg hv] at hd
    exact (poisonedWord_congr hd).trans (poisonedWord_mergeEnds h ..)

/-- Bytes written read back. -/
theorem read_write {m : ProtMem} (h : m.wf) (a : Nat) (bs : List Byte) : (m.write a bs).read a bs.length = bs := by
  refine List.ext_getElem (length_read ..) fun i hi hb => ?_
  rw [← List.getD_eq_getElem _ 0 hi, ← List.getD_eq_getElem _ 0 hb, read_getD _ _ _ _ hb, readByte_write h,
    if_pos (by omega), Nat.add_sub_cancel_left]

end ProtMem

/-- Settles O7: bytes and poison after a write word by word, and the code over its linear syndromes. -/
theorem storedWordsAndTheirCode : Obligations.StoredWordsAndTheirCode := by
  refine ⟨fun m a bs h => ⟨ProtMem.write_wf h a bs, fun b hb => ⟨?_, fun _ => ?_⟩, fun ha hn =>
    ⟨ProtMem.read_write h a bs, fun w hlo hhi => ?_⟩⟩, fun d => ⟨?_, fun i hi => eccDecode_flip_data d hi,
      fun i hlo hi => ?_, fun i j hij hj => ?_, ?_⟩⟩
  · rw [ProtMem.readByte_write h, if_neg (by omega)]
  · rw [ProtMem.poisonedWord_write h, if_neg (by omega)]
  · rw [ProtMem.poisonedWord_write h, if_pos (by omega)]
  · have := eccDecode_of_check d (e := 0) (r := .good) (by rw [syndrome_zero]; rfl) (by decide) (by simp)
    rwa [show eccCode d ^^^ (0 : BitVec 39) = eccCode d from BitVec.xor_zero] at this
  · obtain ⟨hr, he⟩ := classify_check i hi hlo
    exact eccDecode_of_check d hr he (by simp)
  · rw [eccDecode_eccCode_xor_snd]
    exact classify_double j hj i hij
  · exact eccDecode_of_check d (e := poisonDiff) (by rw [syndrome_poisonDiff]; rfl) (by decide) (by simp)

end Sys2Proof.Machine
end

section
/-!
SUPPORT. Which request is served, and what moving its burst leaves (R294, R299, R302).
-/
namespace Sys2Proof.Machine

/-! ### Which request is served -/

/-- A stack with no admitted request, and not fenced, has none to serve. -/
theorem nextRequest_none {x : Stack} (hfence : x.fenced = false) (h : ∀ q ∈ x.requests, q.admitted = false) :
    x.nextRequest = none := by
  have hno : x.requests.zipIdx.find? (fun p => x.fenced || (p.1.admitted && x.firstOfBurst p.2 p.1)) = none := by
    refine List.find?_eq_none.mpr fun p hp => ?_
    simp [hfence, h p.1 (List.fst_mem_of_mem_zipIdx hp)]
  rw [Stack.nextRequest, hno]; rfl

/-- An admitted request with no earlier one admitted and none to its burst is served next. -/
theorem nextRequest_some {x : Stack} {i : Nat} {r : MemReq} (hfence : x.fenced = false) (hi : x.requests[i]? = some r)
    (hr : r.admitted = true)
    (hfirst : ∀ j < i, ∀ q, x.requests[j]? = some q → q.admitted = false ∧ q.addr / 256 ≠ r.addr / 256) :
    x.nextRequest = some (i, r) := by
  obtain ⟨hlt, hget⟩ := List.getElem?_eq_some_iff.mp hi
  have hburst : x.firstOfBurst i r = true := by
    simp only [Stack.firstOfBurst, Bool.not_eq_true', List.any_eq_false, beq_iff_eq]
    intro q hq
    obtain ⟨j, hj, rfl⟩ := List.mem_take_iff_getElem.mp hq
    exact (hfirst j (by omega) _ (List.getElem?_eq_getElem (by omega))).2
  have hfind : x.requests.zipIdx.find? (fun p => x.fenced || (p.1.admitted && x.firstOfBurst p.2 p.1)) = some (r, i) := by
    refine List.find?_eq_some_iff_getElem.mpr ⟨by simp [hr, hburst], i, by simpa using hlt, by simp [hget], fun j hj => ?_⟩
    have hq := (hfirst j hj _ (List.getElem?_eq_getElem (by omega))).1
    simp [hfence, hq]
  rw [Stack.nextRequest, hfind]; rfl

/-! ### The request handed over -/

/-- The stack once the request at place i of its queue is served on channel ch, with what the connections do to the
attempts to move its burst. -/
def Stack.hands (x : Stack) (i : Nat) (ch : ChanId) (t : Word64) (w : Option (Nat × List WireTry)) : Stack :=
  { (({ x with requests := x.requests.eraseIdx i, bursts := x.bursts + 1 } : Stack).modCh ch
      (fun c => { c with carried := some t })) with wire := w }

/-- The state in which request r, at place i of the queue of stack n, is served. -/
def State.handed (s : State) (n : StackId) (i : Nat) (r : MemReq) (ts : List WireTry) : State :=
  s.modStack n (fun x => x.hands i (x.channelOf (r.addr % 2 ^ 37)).1 s.time
    (if ts.isEmpty then none else some (r.addr / 256, ts)))

theorem flipBits_nil (s : State) (d : Nat) : s.flipBits d [] = s := rfl

theorem modStack_modStack (s : State) (n : StackId) (f g : Stack → Stack) :
    (s.modStack n f).modStack n g = s.modStack n (fun x => g (f x)) := by
  simp only [State.modStack, vmod, vget_vset_self, vset_vset_self]

/-- A part of every entry that a change of one leaves. -/
theorem vmod_keeps {α β : Type} {n : Nat} (k : α → β) {f : α → α} (h : ∀ x, k (f x) = k x) (v : Vector α n) (i j : Fin n) :
    k (vget (vmod v i f) j) = k (vget v j) := by
  rcases eq_or_ne i j with rfl | hne
  · rw [vget_vmod_self, h]
  · rw [vget_vmod_ne _ _ _ _ hne]

/-- A part of a stack that a change leaves. -/
theorem modStack_keeps {β : Type} (k : Stack → β) {f : Stack → Stack} (h : ∀ x, k (f x) = k x) (s : State)
    (n q : StackId) : k ((s.modStack n f).stack q) = k (s.stack q) := by
  rcases eq_or_ne n q with rfl | hq
  · rw [modStack_stack_self, h]
  · rw [modStack_stack_ne _ _ _ _ hq]

/-- What the burst of a request that nothing holds back does. -/
theorem dramBurstServe_serves {s : State} {n : StackId} {i : Nat} {r : MemReq} (hn : (s.stack n).nextRequest = some (i, r))
    (hloud : (s.stack n).silent = false) (hheld : s.burstHolds r.addr = false)
    (hpath : r.own = true ∨ s.pathBoth (dieOf r.cell) (stackDie n) (r.off / 4096) = true) (line : BitVec 29)
    (ts : List WireTry) :
    exec (.dramBurstServe n ⟨line, []⟩ ts) s = .next ((s.handed n i r ts).serve r) := by
  have hgo : (s.burstHolds r.addr || (!r.own && !s.pathBoth (dieOf r.cell) (stackDie n) (r.off / 4096))) = false := by
    rcases hpath with h | h <;> simp [hheld, h]
  rw [exec_dramBurstServe, execDramBurstServe]
  simp only [hn, hgo]
  rw [if_neg (by decide), if_neg, flipBits_nil, modStack_modStack]
  · rfl
  · rw [modStack_stack_self]
    exact Bool.eq_false_iff.mp hloud

section
variable (s : State) (n : StackId) (i : Nat) (r : MemReq) (ts : List WireTry)

theorem handed_stack_self : (s.handed n i r ts).stack n = (s.stack n).hands i ((s.stack n).channelOf (r.addr % 2 ^ 37)).1
    s.time (if ts.isEmpty then none else some (r.addr / 256, ts)) := modStack_stack_self ..

theorem handed_keeps {β : Type} (k : Stack → β) (h : ∀ x i ch t w, k (Stack.hands x i ch t w) = k x) (q : StackId) :
    k ((s.handed n i r ts).stack q) = k (s.stack q) := modStack_keeps k (fun _ => h ..) s n q

end

/-! ### What map-outs and pages say of an address -/

section
variable {s t : State}

/-- Where a channel's lines lie depends on the map-outs alone. -/
theorem chanOf_congr (h : ∀ k, (t.stack k).mappedOut = (s.stack k).mappedOut) (d : Nat) : t.chanOf d = s.chanOf d := by
  simp only [State.chanOf, Stack.channelOf, Stack.active, Stack.inUse, h]

theorem direct_congr (h : ∀ k, (t.stack k).mappedOut = (s.stack k).mappedOut) (a : Nat) : t.direct a = s.direct a := by
  have hlen (k : StackId) : (t.stack k).length = (s.stack k).length := by simp only [Stack.length, Stack.active, h]
  unfold State.direct
  dsimp only
  split
  · rfl
  · rw [hlen]

theorem unstripe_mod (x : Nat) : unstripe x % 256 = x % 256 := by
  unfold unstripe
  omega

/-- A direct address keeps the place of its view within the burst. -/
theorem direct_mod {a d : Nat} (h : s.direct a = some d) : d % 256 = a % 256 := by
  unfold State.direct at h
  dsimp only at h
  split at h
  · cases h
  · next d' hd =>
    split at h
    · cases h
      split at hd
      · rw [Option.some.inj hd]
      · split at hd
        · next hview =>
          have hbase : stripedBase % 256 = 0 := by decide
          rw [← Option.some.inj hd, unstripe_mod]
          omega
        · cases hd
    · cases h

end

/-! ### A burst of one piece -/

/-- A range inside one burst is one piece. -/
theorem pieces_one {a len : Nat} (h0 : 0 < len) (h : a % 256 + len ≤ 256) : pieces a len = [(a, len)] := by
  have hmin : min len (256 - a % 256) = len := by omega
  rw [pieces, piecesFrom, if_neg (by omega)]
  dsimp only
  rw [hmin, Nat.sub_self]
  cases len / 256 + 1 <;> simp [piecesFrom]

theorem dramNote_one {s : State} {view d len : Nat} (h0 : 0 < len) (h : view % 256 + len ≤ 256)
    (hd : s.direct view = some d) (hloud : (s.stack (stackOf d)).silent = false) (who : Option At) (opt : Bool) :
    s.dramNote who opt view len = s.noteBurst who opt view d := by
  rw [State.dramNote, pieces_one h0 h]
  simp [hd, hloud]

theorem dramWrite_one {s : State} {view d : Nat} {bs : List Byte} (h0 : 0 < bs.length) (h : view % 256 + bs.length ≤ 256)
    (hd : s.direct view = some d) {w : Writer} (hw : s.writeRefused w d bs.length = false) :
    s.dramWrite w view bs = s.writeBurst view d bs := by
  rw [State.dramWrite, pieces_one h0 h]
  simp [hd, hw]

/-- No word of a part of a range is marked where none of the range is. -/
theorem marked_mono {m : ProtMem} {a n b k : Nat} (h : m.marked a n = []) (hb : a ≤ b) (hk : b + k ≤ a + n) :
    m.marked b k = [] := by
  simp only [ProtMem.marked, List.filter_eq_nil_iff, Bool.and_eq_true, decide_eq_true_eq] at h ⊢
  exact fun p hp ⟨hlo, hhi⟩ => h p hp ⟨by omega, by omega⟩

/-! ### A burst that the code and the connections leave as it is (R299, R302) -/

/-- The burst of address d is moved in k + 1 attempts, or fails in 4, and no failed connection or margin disturbs it. -/
structure State.Moves (s : State) (m : ProtMem) (d k : Nat) : Prop where
  loud : (s.stack (stackOf d)).silent = false
  whole : (vget (s.stack (stackOf d)).channels (s.chanOf d)).broken = []
  unmargined : s.margined (stackOf d) (s.chanOf d) = false
  wire : s.wire m d = (k, [])

theorem seen_of_whole {s : State} {d : Nat} (h : (vget (s.stack (stackOf d)).channels (s.chanOf d)).broken = []) :
    s.seen d = s.mem.dram := by
  simp only [State.seen, h]

theorem burstBytes_clean {s : State} {view d len k : Nat} (h : s.Moves s.mem.dram d k) (hk : k < 4)
    (hclean : s.mem.dram.marked d len = []) : s.burstBytes view view d len = (s.mem.dram.read d len, []) := by
  have hne : k ≠ 4 := by omega
  have hpoison : s.mem.dram.poisonIn d len = [] := by rw [ProtMem.poisonIn, hclean]; rfl
  simp [State.burstBytes, h.loud, seen_of_whole h.whole, h.wire, hne, hpoison]

/-- What moving a burst depends on. -/
theorem State.Moves.congr {s t : State} {m : ProtMem} {d k : Nat} (h : s.Moves m d k)
    (hmap : ∀ q, (t.stack q).mappedOut = (s.stack q).mappedOut)
    (hsilent : (t.stack (stackOf d)).silent = (s.stack (stackOf d)).silent)
    (hbroken : ∀ c, (vget (t.stack (stackOf d)).channels c).broken = (vget (s.stack (stackOf d)).channels c).broken)
    (hmargin : (t.stack (stackOf d)).margin = (s.stack (stackOf d)).margin) (hctl : t.mem.memCtl = s.mem.memCtl)
    (hwire : (t.stack (stackOf d)).wire = (s.stack (stackOf d)).wire) : t.Moves m d k where
  loud := hsilent.trans h.loud
  whole := by rw [hbroken, chanOf_congr hmap]; exact h.whole
  unmargined := by
    have := h.unmargined
    simp only [State.margined, hmargin, hctl, chanOf_congr hmap] at this ⊢
    exact this
  wire := by
    have := h.wire
    simp only [State.wire, State.wireTries, hwire] at this ⊢
    exact this

/-! ### What moving a burst leaves -/

theorem modStack_of_eq {s : State} {n : StackId} {f : Stack → Stack} (h : f (s.stack n) = s.stack n) : s.modStack n f = s :=
  congrArg (fun v => { s with stackSet := v }) (vset_vget_eq h)

/-- A stack after k failed attempts of a burst on channel ch, with w still noted for the connections. -/
def Stack.retried (x : Stack) (ch : ChanId) (k : Nat) (w : Option (Nat × List WireTry)) : Stack :=
  { x.modCh ch (fun y => { y with crcCount := y.crcCount + k }) with wire := w }

theorem retried_zero (x : Stack) (ch : ChanId) : x.retried ch 0 x.wire = x :=
  congrArg (fun v => { x with channels := v }) (vset_vget_eq rfl)

theorem retried_channels (x : Stack) (ch : ChanId) (k : Nat) (w : Option (Nat × List WireTry)) :
    (x.retried ch k w).channels = vmod x.channels ch (fun y => { y with crcCount := y.crcCount + k }) := rfl

theorem retried_broken (x : Stack) (ch : ChanId) (k : Nat) (w : Option (Nat × List WireTry)) (c : ChanId) :
    (vget (x.retried ch k w).channels c).broken = (vget x.channels c).broken := by
  rw [retried_channels]
  exact vmod_keeps Channel.broken (by intros; rfl) ..

/-- Failures that a later attempt mends are counted in the channel and recorded. -/
theorem burstCrc_retried {s : State} {n : StackId} {ch : ChanId} (hm : s.margined n ch = false) (view d : Nat)
    (who : Option At) (wr : Bool) {k : Nat} (hk : k < 4) :
    ∃ fs, s.burstCrc n ch view d who wr k =
      (s.modStack n (fun x => x.retried ch k x.wire)).modFaults (fun _ => fs) := by
  rcases Nat.eq_zero_or_pos k with rfl | h0
  · refine ⟨s.faults, ?_⟩
    rw [modStack_of_eq (retried_zero ..)]
    rfl
  · have hmin : min k 3 = k := by omega
    dsimp only [State.burstCrc]
    rw [if_neg (by omega), hm, hmin, if_pos hk]
    exact ⟨_, rfl⟩

/-- A burst that is moved leaves its failed attempts counted, and records of them. -/
theorem crossed_moves {s : State} {m : ProtMem} {d k : Nat} (h : s.Moves m d k) (hk : k < 4) (who : Option At) (wr : Bool)
    (view : Nat) : ∃ fs w, s.crossed who wr view d (k, []) =
      (s.modStack (stackOf d) (fun x => x.retried (s.chanOf d) k w)).modFaults (fun _ => fs) := by
  have hmargin : s.marginBurst (stackOf d) (s.chanOf d) = s := by rw [State.marginBurst, h.unmargined]; rfl
  obtain ⟨fs, hcrc⟩ := burstCrc_retried h.unmargined view d who wr hk
  dsimp only [State.crossed]
  rw [hmargin, hcrc]
  split
  · exact ⟨fs, (s.stack (stackOf d)).wire, rfl⟩
  · refine ⟨fs, none, ?_⟩
    rw [flipBits_nil]
    exact congrArg (State.modFaults · fun _ => fs) (modStack_modStack s _ _ fun x => { x with wire := none })

/-- A burst that is moved is seen as before. -/
theorem crossed_seen {s : State} {d k : Nat} (h : s.Moves s.mem.dram d k) (hk : k < 4) (who : Option At) (wr : Bool)
    (view : Nat) : (s.crossed who wr view d (k, [])).seen d = s.mem.dram := by
  obtain ⟨fs, w, hs1⟩ := crossed_moves h hk who wr view
  refine (seen_of_whole ?_).trans (by rw [hs1]; rfl)
  have hmap := modStack_keeps Stack.mappedOut (f := fun x => x.retried (s.chanOf d) k w) (fun _ => rfl) s (stackOf d)
  have hch : (s.crossed who wr view d (k, [])).chanOf d = s.chanOf d := by rw [hs1]; exact chanOf_congr hmap d
  rw [hch, hs1]
  exact (congrArg (fun x : Stack => (vget x.channels (s.chanOf d)).broken) (modStack_stack_self ..)).trans
    ((retried_broken ..).trans h.whole)

/-- A burst that is read, every word of it a code word, leaves what its attempts leave. -/
theorem noteBurst_clean {s : State} {d k : Nat} (h : s.Moves s.mem.dram d k) (hk : k < 4)
    (hclean : s.mem.dram.marked (d / 256 * 256) 256 = []) (who : Option At) (opt : Bool) (view : Nat) :
    s.noteBurst who opt view d = s.crossed who false view d (k, []) := by
  have hne : k ≠ 4 := by omega
  simp [State.noteBurst, seen_of_whole h.whole, h.wire, hne, crossed_seen h hk, hclean]

/-! ### A write that fails (R302) -/

theorem alertSet_keeps (s : State) (i : Fin 6) : (s.alertSet i).stackSet = s.stackSet ∧ (s.alertSet i).faults = s.faults := by
  unfold State.alertSet State.raiseVector
  (repeat' split) <;> exact ⟨rfl, rfl⟩

theorem startReset_stackSet (s : State) (lvl : ResetLevel) (c : CellId) (slot : SlotId) (e : BitVec 4) (p : PartId)
    (cause : BitVec 4) : (s.startReset lvl c slot e p cause).stackSet = s.stackSet := by
  dsimp only [State.startReset]
  split <;> rfl

/-- With no reset under way, a reset that starts is listed. -/
theorem startReset_listed {s : State} (h : s.faults.resets = []) (lvl : ResetLevel) (c : CellId) (slot : SlotId)
    (e : BitVec 4) (p : PartId) (cause : BitVec 4) :
    ∃ q ∈ (s.startReset lvl c slot e p cause).faults.resets, q.level = lvl := by
  dsimp only [State.startReset]
  rw [h]
  exact ⟨_, List.mem_singleton_self _, rfl⟩

theorem push_resets (f : Faults) (e : ErrRec) : (f.push e).resets = f.resets := by
  dsimp only [Faults.push]
  split <;> rfl

/-- A chip fault leaves the stacks, and lists a chip reset where none was under way. -/
theorem chipFault_lists (u : State) : u.chipFault.stackSet = u.stackSet ∧
    (u.faults.resets = [] → ∃ q ∈ u.chipFault.faults.resets, q.level = .chip) := by
  obtain ⟨hstacks, hfaults⟩ := alertSet_keeps u 1
  rw [State.chipFault, startReset_stackSet, hstacks]
  exact ⟨rfl, fun h => startReset_listed (by rw [hfaults]; exact h) ..⟩

/-- A stack after a write that failed in every attempt. -/
def Stack.writeLost (x : Stack) (ch : ChanId) : Stack :=
  { x.modCh ch (fun y => { y with crcCount := y.crcCount + 3 }) with
    mapoutReq := setBit x.mapoutReq ch.val true, eccCnt := satAdd x.eccCnt 16 16 1 }

/-- What the CRC of a write that fails in every attempt leaves. -/
theorem burstCrc_fails {s : State} {n : StackId} {ch : ChanId} (hm : s.margined n ch = false) (view d : Nat) :
    ∃ e, s.burstCrc n ch view d none true 4 = ((s.modStack n (·.writeLost ch)).report e).chipFault := by
  dsimp only [State.burstCrc]
  rw [if_neg (by decide), if_neg (by decide), if_pos rfl, hm]
  simp only [State.requestMapout, modStack_modStack, Bool.false_eq_true, if_false]
  exact ⟨_, rfl⟩

/-- A write whose burst fails in every attempt requests the map-out of its channel and starts a chip reset. -/
theorem crossed_fails {s : State} {m : ProtMem} {d : Nat} (h : s.Moves m d 4) (view : Nat) :
    (s.crossed none true view d (4, [])).mem = s.mem ∧ (s.crossed none true view d (4, [])).cells = s.cells ∧
    bit ((s.crossed none true view d (4, [])).stack (stackOf d)).mapoutReq (s.chanOf d).val = true ∧
    (s.faults.resets = [] → ∃ q ∈ (s.crossed none true view d (4, [])).faults.resets, q.level = .chip) := by
  have hmargin : s.marginBurst (stackOf d) (s.chanOf d) = s := by rw [State.marginBurst, h.unmargined]; rfl
  obtain ⟨e, hcrc⟩ := burstCrc_fails h.unmargined view d
  obtain ⟨u, hu⟩ : ∃ u, u = (s.modStack (stackOf d) (·.writeLost (s.chanOf d))).report e := ⟨_, rfl⟩
  obtain ⟨hstacks, hlists⟩ := chipFault_lists u
  have hchip (h0 : s.faults.resets = []) : ∃ q ∈ u.chipFault.faults.resets, q.level = .chip :=
    hlists (by rw [hu, State.report, push_resets]; exact h0)
  have hstack : u.chipFault.stack (stackOf d) = (s.stack (stackOf d)).writeLost (s.chanOf d) := by
    rw [State.stack, hstacks, hu]
    exact modStack_stack_self s _ _
  have hbit : bit (u.chipFault.stack (stackOf d)).mapoutReq (s.chanOf d).val = true := by
    rw [hstack]
    exact bit_setBit_self _ _ _ (s.chanOf d).isLt
  have hmem : u.chipFault.mem = s.mem := by rw [chipFault_mem, hu]; rfl
  have hcells : u.chipFault.cells = s.cells := by rw [chipFault_cells, hu]; rfl
  dsimp only [State.crossed]
  rw [hmargin, hcrc, ← hu]
  split
  · exact ⟨hmem, hcells, hbit, hchip⟩
  · rw [flipBits_nil, modStack_stack_self]
    exact ⟨hmem, hcells, hbit, hchip⟩

/-! ### A transfer goes on -/

/-- Of a stack, what its queue has no part in. -/
def Stack.served (x : Stack) : Nat × Vector Channel 32 × Word32 := (x.bursts, x.channels, x.mapoutReq)

/-- Of every stack, what its queue has no part in, and the records and resets. -/
def State.served (s : State) : Vector (Nat × Vector Channel 32 × Word32) 16 × Faults :=
  (s.stackSet.map Stack.served, s.faults)

theorem modStack_served {f : Stack → Stack} (h : ∀ x, (f x).served = x.served) (s : State) (n : StackId) :
    (s.modStack n f).served = s.served := congrArg (·, s.faults) (map_vmod Stack.served s.stackSet n (h _))

theorem modXfer_served (s : State) (c : CellId) (i : Fin 8) (f : DmRun → DmRun) : (s.modXfer c i f).served = s.served := by
  unfold State.modXfer
  split <;> rfl

theorem dmFail_served (s : State) (c : CellId) (i : Fin 8) (code : Byte) (addr : Word64) :
    (s.dmFail c i code addr).served = s.served := by
  rw [State.dmFail, modXfer_served]
  simp only [State.served, State.dropXfer, Vector.map_map]
  rfl

theorem bucket_served {s t : State} {p : PartId} {d : Nat} (h : s.bucket p d = some t) : t.served = s.served := by
  dsimp only [State.bucket] at h
  split_ifs at h <;> cases h <;> rfl

theorem thermal_served {s t : State} {b : Bool} {d : Nat} (h : s.thermal b d = some t) : t.served = s.served := by
  dsimp only [State.thermal] at h
  split_ifs at h <;> cases h
  · rfl
  · exact modStack_served (by intros; rfl) ..

theorem bucketAdmit_served (s : State) (n : StackId) (i : Nat) : (s.bucketAdmit n i).served = s.served := by
  unfold State.bucketAdmit
  split
  · rfl
  · split
    · rfl
    · split
      · rfl
      · next h => exact (modStack_served (by intros; rfl) ..).trans (bucket_served h)

theorem thermAdmit_served (s : State) (n : StackId) (i : Nat) : (s.thermAdmit n i).served = s.served := by
  unfold State.thermAdmit
  split
  · rfl
  · split
    · rfl
    · split
      · rfl
      · next h => exact (modStack_served (by intros; rfl) ..).trans (thermal_served h)

theorem enqueue_served (s : State) (r : MemReq) : (s.enqueue r).served = s.served := by
  rw [State.enqueue, thermAdmit_served, bucketAdmit_served]
  exact modStack_served (by intros; rfl) ..

theorem dmAsk_served (s : State) (c : CellId) (i : Fin 8) (k a n : Nat) (write : Bool) (bs : List Byte) :
    (s.dmAsk c i k a n write bs).served = s.served := by
  dsimp only [State.dmAsk]
  split
  · split
    · exact dmFail_served ..
    · exact enqueue_served ..
  · exact dmFail_served ..

/-- The next request of a transfer changes of a stack its queue alone. -/
theorem dmNext_served (s : State) (c : CellId) (i : Fin 8) : (s.dmNext c i).served = s.served := by
  dsimp only [State.dmNext]
  split
  · rfl
  · split
    · exact modXfer_served ..
    · split
      · exact (dmAsk_served ..).trans (modXfer_served ..)
      · split
        · exact dmFail_served ..
        · exact (dmAsk_served ..).trans (modXfer_served ..)
      · rfl

theorem served_stack {s t : State} (h : t.served = s.served) (n : StackId) :
    (t.stack n).served = (s.stack n).served := by
  have hv := congrArg (vget · n) (Prod.ext_iff.mp h).1
  simp only [State.served, vget_map] at hv
  exact hv

end Sys2Proof.Machine
end

section
/-!
SUPPORT. The burst of a request read, written or lost (R236, R302).
-/
namespace Sys2Proof.Machine

/-! ### Serving -/

/-- The parts of a transfer depend on the routing table alone. -/
theorem part_of_route {s t : State} (h : t.route = s.route) (c : CellId) (m : DmInstr) (k n : Nat) :
    m.part t c k n = m.part s c k n := by
  have hpiece (k : Nat) : m.piece t c k = m.piece s c k := by simp only [DmInstr.piece, sides_of_route h]
  have hfrom : ∀ (fuel k n : Nat), m.partFrom t c fuel k n = m.partFrom s c fuel k n := by
    intro fuel
    induction fuel with
    | zero => intro k n; rfl
    | succ fuel ih => intro k n; simp only [DmInstr.partFrom, hpiece, ih]
  exact hfrom ..

/-- Serving a request mends and fails no connection. -/
theorem hands_broken (x : Stack) (i : Nat) (ch : ChanId) (t : Word64) (w : Option (Nat × List WireTry)) (c : ChanId) :
    (vget (x.hands i ch t w).channels c).broken = (vget x.channels c).broken :=
  vmod_keeps Channel.broken (f := fun y => { y with carried := some t }) (by intros; rfl) x.channels ch c

/-- What refuses a write to a direct address depends on the pages, the steps, the tables and the twins. -/
theorem writeRefused_handed (s : State) (n : StackId) (i : Nat) (r : MemReq) (ts : List WireTry) (w : Writer) (d len : Nat) :
    (s.handed n i r ts).writeRefused w d len = s.writeRefused w d len := by
  have hpage : (s.handed n i r ts).pageAttr d = s.pageAttr d := by
    simp only [State.pageAttr, handed_keeps s n i r ts Stack.pages (fun _ _ _ _ _ => rfl)]
  simp only [State.writeRefused, hpage]
  rfl

/-- The burst of a request handed over is moved as the attempts say. -/
theorem handed_moves {s : State} {n : StackId} {r : MemReq} (hn : stackOf r.addr = n) (hloud : (s.stack n).silent = false)
    (hwhole : (vget (s.stack n).channels (s.chanOf r.addr)).broken = []) (hm : s.margined n (s.chanOf r.addr) = false)
    (i : Nat) {ts : List WireTry} {m : ProtMem} {k : Nat} (hk : m.attempts (r.addr / 256) ts = (k, [])) :
    (s.handed n i r ts).Moves m r.addr k := by
  subst hn
  have hmap := handed_keeps s (stackOf r.addr) i r ts Stack.mappedOut fun _ _ _ _ _ => rfl
  have hch := chanOf_congr (t := s.handed (stackOf r.addr) i r ts) hmap r.addr
  have hbroken : (vget ((s.handed (stackOf r.addr) i r ts).stack (stackOf r.addr)).channels (s.chanOf r.addr)).broken =
      (vget (s.stack (stackOf r.addr)).channels (s.chanOf r.addr)).broken := by
    rw [handed_stack_self, hands_broken]
  refine ⟨?_, ?_, ?_, ?_⟩
  · rw [handed_stack_self]; exact hloud
  · rw [hch, hbroken, hwhole]
  · have hmargin := handed_keeps s (stackOf r.addr) i r ts Stack.margin (fun _ _ _ _ _ => rfl) (stackOf r.addr)
    simp only [State.margined, hch, hmargin] at hm ⊢
    exact hm
  · have htries : (s.handed (stackOf r.addr) i r ts).wireTries r.addr = ts := by
      rw [State.wireTries, handed_stack_self]
      cases ts with
      | nil => rfl
      | cons t ts => exact if_pos rfl
    rw [State.wire, htries]
    cases ts with
    | nil => exact hk
    | cons t ts => exact hk

/-- A read of a transfer for a cell store, every word of its burst a code word: the bytes are stored, the failed attempts
counted, and nothing else but the entry of the transfer and records has changed. -/
theorem serve_read {u : State} {r : MemReq} {m : DmRun} {b : CellId} {a o k : Nat} (hown : r.own = false)
    (hread : r.write = false) (h0 : 0 < r.len) (hfit : r.addr % 256 + r.len ≤ 256) (hd : u.direct r.view = some r.addr)
    (hmoves : u.Moves u.mem.dram r.addr k) (hk : k < 4) (hclean : u.mem.dram.marked (r.addr / 256 * 256) 256 = [])
    (hbeats : u.beatsTaken) (hx : u.xfer r.cell r.xfer = some m) (hstatus : m.status = 0)
    (hsides : m.ins.sides u r.cell r.off = (.dram a, .store b o)) (hpart : m.ins.part u r.cell r.off r.len = [(r.off, r.len)]) :
    ∃ fs w e, u.serve r = ((((u.modStack (stackOf r.addr) (fun x => x.retried (u.chanOf r.addr) k w)).modFaults
      (fun _ => fs)).intoStore b o (u.mem.dram.read r.addr r.len)).setXfer r.cell r.xfer (some e)).dmNext r.cell r.xfer := by
  have hview : r.view % 256 + r.len ≤ 256 := by rw [← direct_mod hd]; exact hfit
  have hmark : u.mem.dram.marked r.addr r.len = [] := marked_mono hclean (by omega) (by omega)
  obtain ⟨fs, w, hcrossed⟩ := crossed_moves hmoves hk (u.requestWho r) false r.view
  have hnote : u.dramNote (u.requestWho r) false r.view r.len =
      (u.modStack (stackOf r.addr) (fun x => x.retried (u.chanOf r.addr) k w)).modFaults (fun _ => fs) := by
    rw [dramNote_one h0 hview hd hmoves.loud, noteBurst_clean hmoves hk hclean, hcrossed]
  obtain ⟨v, hv, hroute, hx', hbeats'⟩ : ∃ v,
      v = (u.modStack (stackOf r.addr) (fun x => x.retried (u.chanOf r.addr) k w)).modFaults (fun _ => fs) ∧
      v.route = u.route ∧ v.xfer r.cell r.xfer = some m ∧ v.beatsTaken := ⟨_, rfl, rfl, hx, hbeats⟩
  have hside : (m.ins.sides v r.cell r.off).2 = .store b o := by rw [sides_of_route hroute, hsides]
  refine ⟨fs, w, { m with moved := m.moved + (u.mem.dram.read r.addr r.len).length }.settle, ?_⟩
  rw [State.serve, if_neg (by simp [hown]), if_neg (by simp [hread])]
  dsimp only
  rw [burstBytes_clean hmoves hk hmark, hnote, ← hv, carryTo_of_beatsTaken hbeats']
  refine congrArg (State.dmNext · r.cell r.xfer) ?_
  rw [State.dmDeliver, hx']
  dsimp only
  rw [part_of_route hroute, ProtMem.length_read, hpart, List.foldl_cons, List.foldl_nil, Nat.sub_self, List.drop_zero,
    List.take_of_length_le (by rw [ProtMem.length_read])]
  exact (dmPut_store hx' hstatus hside _).trans (by rw [ProtMem.length_read])

/-- Where a request's burst is written. -/
structure Writes (u : State) (r : MemReq) : Prop where
  own : r.own = false
  write : r.write = true
  len : r.data.length = r.len
  some_byte : 0 < r.len
  fit : r.addr % 256 + r.len ≤ 256
  words : partWord r.addr r.len = false
  direct : u.direct r.view = some r.addr
  loud : (u.stack (stackOf r.addr)).silent = false
  beats : u.beatsTaken

/-- A write of whole words that is not refused, up to whether its burst is moved. -/
theorem serve_write {u : State} {r : MemReq} (h : Writes u r) (hok : u.writeRefused .other r.addr r.len = false) {k : Nat}
    (hwire : u.wire (u.mem.dram.write r.addr r.data) r.addr = (k, [])) : u.serve r =
      (if k = 4 then u.writeBurst r.view r.addr r.data
       else (u.writeBurst r.view r.addr r.data).dmMoved r.cell r.xfer r.len).dmNext r.cell r.xfer := by
  have hview : r.view % 256 + r.data.length ≤ 256 := by rw [← direct_mod h.direct, h.len]; exact h.fit
  have hmerge : u.mergeRead r.view r.addr r.len = u := by rw [State.mergeRead, if_pos h.words]
  have hmerged : u.merged r.view r.addr r.data = u.mem.dram.write r.addr r.data := by
    simp only [State.merged, h.len, h.words, hmerge, Bool.false_and, Bool.false_eq_true, if_false]
  have hdram : u.dramWrite .other r.view r.data = u.writeBurst r.view r.addr r.data :=
    dramWrite_one (by rw [h.len]; exact h.some_byte) hview h.direct (by rw [h.len]; exact hok)
  have hpoison (t : State) : t.dramPoison r.view [] = t := rfl
  rw [State.serve, if_neg (by simp [h.own]), if_pos h.write]
  refine congrArg (State.dmNext · r.cell r.xfer) ?_
  rw [State.serveWrite, if_neg (by simp [hok])]
  dsimp only
  rw [carryTo_of_beatsTaken h.beats, hmerge, hmerged, hwire, hdram]
  simp [h.loud, hpoison]

/-- The burst of whole words written, its write-back forgotten. -/
def Stack.rewritten (x : Stack) (ch : ChanId) (line : Nat) : Stack :=
  x.modCh ch (fun y => { y with writeBack := y.writeBack.filter (· != line) })

theorem rewritten_broken (x : Stack) (ch : ChanId) (line : Nat) (c : ChanId) :
    (vget (x.rewritten ch line).channels c).broken = (vget x.channels c).broken :=
  vmod_keeps Channel.broken (f := fun y => { y with writeBack := y.writeBack.filter (· != line) }) (by intros; rfl)
    x.channels ch c

/-- A burst of whole words is written, or, where every attempt fails, lost. -/
theorem writeBurst_moves {u : State} {view d : Nat} {bs : List Byte} {k : Nat}
    (h : u.Moves (u.mem.dram.write d bs) d k) (hwords : partWord d bs.length = false) :
    ∃ v, v = u.modStack (stackOf d) (·.rewritten (u.chanOf d) (d / 256)) ∧ v.Moves (u.mem.dram.write d bs) d k ∧
      u.writeBurst view d bs =
        if k = 4 then v.crossed none true view d (k, [])
        else ({ v with mem := { v.mem with dram := u.mem.dram.write d bs } } : State).crossed none true view d (k, []) := by
  have hmerge : u.mergeRead view d bs.length = u := by rw [State.mergeRead, if_pos hwords]
  have hmerged : u.merged view d bs = u.mem.dram.write d bs := by
    simp only [State.merged, hwords, hmerge, Bool.false_and, Bool.false_eq_true, if_false]
  have hv : (u.modStack (stackOf d) (·.rewritten (u.chanOf d) (d / 256))).Moves (u.mem.dram.write d bs) d k := by
    refine h.congr (modStack_keeps Stack.mappedOut (by intros; rfl) u (stackOf d)) ?_ (fun c => ?_) ?_ rfl ?_
    · exact modStack_keeps Stack.silent (by intros; rfl) u (stackOf d) (stackOf d)
    · rw [modStack_stack_self, rewritten_broken]
    · exact modStack_keeps Stack.margin (by intros; rfl) u (stackOf d) (stackOf d)
    · exact modStack_keeps Stack.wire (by intros; rfl) u (stackOf d) (stackOf d)
  refine ⟨_, rfl, hv, ?_⟩
  have hwire := hv.wire
  simp only [State.writeBurst, h.loud, Bool.false_eq_true, if_false, hmerge, hmerged]
  rw [show (u.modStack (stackOf d) fun x => x.modCh (u.chanOf d) fun y =>
    { y with writeBack := y.writeBack.filter (· != d / 256) }) =
      u.modStack (stackOf d) (·.rewritten (u.chanOf d) (d / 256)) from rfl, hwire]

end Sys2Proof.Machine
end

section
/-!
OBLIGATION O31. What DRAM_BURST_SERVE does (R280, R294, R299, R302, R236).
-/
namespace Sys2Proof.Machine

/-! ### What a burst served leaves -/

theorem held_store {s t : State} (h : held t.cells = held s.cells) (c : CellId) : (t.cell c).store = (s.cell c).store :=
  congrArg Prod.fst (held_vget h c)

theorem held_vat {s t : State} (h : held t.cells = held s.cells) (c : CellId) : (t.cell c).vat = (s.cell c).vat :=
  congrArg (·.2.1) (held_vget h c)

theorem dmNext_stack (s : State) (c : CellId) (i : Fin 8) (n : StackId) :
    ((s.dmNext c i).stack n).bursts = (s.stack n).bursts ∧ ((s.dmNext c i).stack n).channels = (s.stack n).channels ∧
    ((s.dmNext c i).stack n).mapoutReq = (s.stack n).mapoutReq := by
  have h := served_stack (dmNext_served s c i) n
  simp only [Stack.served, Prod.mk.injEq] at h
  exact h

theorem modXfer_stack (s : State) (c : CellId) (i : Fin 8) (f : DmRun → DmRun) (n : StackId) :
    (s.modXfer c i f).stack n = s.stack n := by
  unfold State.modXfer
  split <;> rfl

theorem dmNext_faults (s : State) (c : CellId) (i : Fin 8) : (s.dmNext c i).faults = s.faults :=
  congrArg Prod.snd (dmNext_served s c i)

/-- A read that arrives stores the bytes read, at the transfer's place, and counts its failed attempts. -/
theorem serve_read_stores {u : State} {r : MemReq} {m : DmRun} {b : CellId} {a o k : Nat} (hown : r.own = false)
    (hread : r.write = false) (h0 : 0 < r.len) (hfit : r.addr % 256 + r.len ≤ 256) (hd : u.direct r.view = some r.addr)
    (hmoves : u.Moves u.mem.dram r.addr k) (hk : k < 4) (hclean : u.mem.dram.marked (r.addr / 256 * 256) 256 = [])
    (hbeats : u.beatsTaken) (hx : u.xfer r.cell r.xfer = some m) (hstatus : m.status = 0)
    (hsides : m.ins.sides u r.cell r.off = (.dram a, .store b o)) (hpart : m.ins.part u r.cell r.off r.len = [(r.off, r.len)]) :
    ((u.serve r).cell b).store = (u.cell b).store.write o (u.mem.dram.read r.addr r.len) ∧ (u.serve r).mem = u.mem ∧
    (∀ d, d ≠ b → ((u.serve r).cell d).store = (u.cell d).store) ∧ (∀ d, ((u.serve r).cell d).vat = (u.cell d).vat) ∧
    ((u.serve r).stack (stackOf r.addr)).bursts = (u.stack (stackOf r.addr)).bursts ∧
    (vget ((u.serve r).stack (stackOf r.addr)).channels (u.chanOf r.addr)).crcCount =
      (vget (u.stack (stackOf r.addr)).channels (u.chanOf r.addr)).crcCount + k := by
  obtain ⟨fs, w, e, hs⟩ := serve_read hown hread h0 hfit hd hmoves hk hclean hbeats hx hstatus hsides hpart
  obtain ⟨v, hv, hstack, hmem, hcells⟩ : ∃ v,
      v = (u.modStack (stackOf r.addr) (fun x => x.retried (u.chanOf r.addr) k w)).modFaults (fun _ => fs) ∧
      v.stack (stackOf r.addr) = (u.stack (stackOf r.addr)).retried (u.chanOf r.addr) k w ∧ v.mem = u.mem ∧
      v.cells = u.cells := ⟨_, rfl, modStack_stack_self .., rfl, rfl⟩
  have hcell (d : CellId) : v.cell d = u.cell d := congrArg (vget · d) hcells
  rw [hs, ← hv]
  generalize u.mem.dram.read r.addr r.len = bs
  obtain ⟨hbursts, hchannels, -⟩ := dmNext_stack ((v.intoStore b o bs).setXfer r.cell r.xfer (some e)) r.cell r.xfer
    (stackOf r.addr)
  refine ⟨?_, ?_, fun d hd => ?_, fun d => ?_, ?_, ?_⟩
  · rw [held_store (dmNext_held ..), setXfer_store, intoStore_store_self, hcell]
  · rw [dmNext_mem]; exact hmem
  · rw [held_store (dmNext_held ..), setXfer_store, intoStore_store_ne _ hd, hcell]
  · rw [held_vat (dmNext_held ..), setXfer_vat, intoStore_vat, hcell]
  · have hsame := hbursts.trans (congrArg Stack.bursts hstack)
    exact hsame
  · have hchan := hchannels.trans (congrArg Stack.channels hstack)
    rw [hchan, retried_channels]
    exact congrArg Channel.crcCount (vget_vmod_self (u.stack (stackOf r.addr)).channels (u.chanOf r.addr) fun y =>
      { y with crcCount := y.crcCount + k })

/-- A write that is moved writes the request's bytes, and no cell store. -/
theorem serve_write_stores {u : State} {r : MemReq} (h : Writes u r) (hok : u.writeRefused .other r.addr r.len = false)
    {k : Nat} (hmoves : u.Moves (u.mem.dram.write r.addr r.data) r.addr k) (hk : k < 4) :
    (u.serve r).mem.dram = u.mem.dram.write r.addr r.data ∧ (∀ d, ((u.serve r).cell d).store = (u.cell d).store) ∧
    ((u.serve r).stack (stackOf r.addr)).bursts = (u.stack (stackOf r.addr)).bursts := by
  obtain ⟨v, hv, hvmoves, hw⟩ := writeBurst_moves hmoves (by rw [h.len]; exact h.words)
  have hne : k ≠ 4 := by omega
  rw [serve_write h hok hmoves.wire, if_neg hne, hw, if_neg hne]
  generalize u.mem.dram.write r.addr r.data = dram at hvmoves ⊢
  obtain ⟨y, hy⟩ : ∃ y : State, y = { v with mem := { v.mem with dram := dram } } := ⟨_, rfl⟩
  have hymoves : y.Moves dram r.addr k := by
    subst hy
    exact hvmoves.congr (fun _ => rfl) rfl (fun _ => rfl) rfl rfl rfl
  obtain ⟨fs, w, hcrossed⟩ := crossed_moves hymoves hk none true r.view
  rw [← hy, hcrossed]
  refine ⟨?_, fun d => ?_, ?_⟩
  · rw [dmNext_mem, dmMoved_mem]
    exact congrArg (·.mem.dram) hy
  · rw [held_store (dmNext_held ..), held_store (dmMoved_held ..)]
    have hcells : y.cells = u.cells := by rw [hy, hv]; rfl
    exact congrArg (fun w : Vector Cell 64 => (vget w d).store) hcells
  · rw [(dmNext_stack ..).1, State.dmMoved, modXfer_stack]
    have hretried := modStack_keeps Stack.bursts (f := fun x => x.retried (y.chanOf r.addr) k w) (by intros; rfl) y
      (stackOf r.addr) (stackOf r.addr)
    have hrewritten := modStack_keeps Stack.bursts (f := fun x => x.rewritten (u.chanOf r.addr) (r.addr / 256))
      (by intros; rfl) u (stackOf r.addr) (stackOf r.addr)
    rw [← hv] at hrewritten
    rw [hy] at hretried ⊢
    exact hretried.trans hrewritten

/-- A write whose burst fails in every attempt writes nothing, requests its channel's map-out and starts a chip reset. -/
theorem serve_write_lost {u : State} {r : MemReq} (h : Writes u r) (hok : u.writeRefused .other r.addr r.len = false)
    (hmoves : u.Moves (u.mem.dram.write r.addr r.data) r.addr 4) :
    (u.serve r).mem = u.mem ∧ (∀ d, ((u.serve r).cell d).store = (u.cell d).store) ∧
    bit ((u.serve r).stack (stackOf r.addr)).mapoutReq (u.chanOf r.addr).val = true ∧
    (u.faults.resets = [] → ∃ q ∈ (u.serve r).faults.resets, q.level = .chip) := by
  obtain ⟨v, hv, hvmoves, hw⟩ := writeBurst_moves hmoves (by rw [h.len]; exact h.words)
  obtain ⟨hmem, hcells, hbit, hchip⟩ := crossed_fails hvmoves r.view
  rw [serve_write h hok hmoves.wire, if_pos rfl, hw, if_pos rfl]
  obtain ⟨-, -, hreq⟩ := dmNext_stack (v.crossed none true r.view r.addr (4, [])) r.cell r.xfer (stackOf r.addr)
  have hch : v.chanOf r.addr = u.chanOf r.addr := by
    rw [hv]
    exact chanOf_congr (modStack_keeps Stack.mappedOut (by intros; rfl) u _) _
  refine ⟨?_, fun d => ?_, ?_, fun h0 => ?_⟩
  · rw [dmNext_mem, hmem, hv]; rfl
  · rw [held_store (dmNext_held ..)]
    exact congrArg (fun w : Vector Cell 64 => (vget w d).store) (hcells.trans (by rw [hv]; rfl))
  · rw [hreq, ← hch]; exact hbit
  · rw [dmNext_faults]; exact hchip (by rw [hv]; exact h0)

theorem settle_status (r : DmRun) : r.settle.status = r.status := by
  unfold DmRun.settle
  split <;> rfl

/-- A transfer that has failed asks for nothing more. -/
theorem dmNext_failed {s : State} {c : CellId} {i : Fin 8} {r : DmRun} (hx : s.xfer c i = some r) (h : r.status ≠ 0) :
    s.dmNext c i = s.setXfer c i (some r.settle) := by
  unfold State.dmNext
  rw [hx]
  dsimp only
  rw [if_pos (Or.inl h), modXfer_some hx]

/-- A transfer that fails keeps the status it fails with. -/
theorem dmFail_xfer {s : State} {c : CellId} {i : Fin 8} {r : DmRun} (hx : s.xfer c i = some r) (h : r.status = 0)
    (code : Byte) (addr : Word64) : ∃ q, (s.dmFail c i code addr).xfer c i = some q ∧ q.status = code := by
  rw [State.dmFail, modXfer_some (s := s.dropXfer c i) hx, setXfer_xfer_self]
  refine ⟨_, rfl, ?_⟩
  rw [settle_status]
  exact congrArg DmRun.status (if_pos h)

/-- A write refused by now writes nothing and fails its transfer. -/
theorem serve_write_refused {u : State} {r : MemReq} {m : DmRun} (hown : r.own = false) (hwrite : r.write = true)
    (hx : u.xfer r.cell r.xfer = some m) (hstatus : m.status = 0) (href : u.writeRefused .other r.addr r.len = true) :
    (u.serve r).mem = u.mem ∧ (∀ d, ((u.serve r).cell d).store = (u.cell d).store) ∧
    ∃ q, (u.serve r).xfer r.cell r.xfer = some q ∧ q.status = 0x08 := by
  have hserve : u.serve r = (u.dmFail r.cell r.xfer 0x08 (BitVec.ofNat 64 r.view)).dmNext r.cell r.xfer := by
    rw [State.serve, if_neg (by simp [hown]), if_pos hwrite, State.serveWrite, if_pos href]
  rw [hserve]
  refine ⟨by simp, fun d => ?_, ?_⟩
  · rw [held_store (dmNext_held ..), held_store (dmFail_held ..)]
  · obtain ⟨q, hq, hcode⟩ := dmFail_xfer hx hstatus 0x08 (BitVec.ofNat 64 r.view)
    rw [dmNext_failed hq (by rw [hcode]; decide), setXfer_xfer_self]
    exact ⟨_, rfl, (settle_status q).trans hcode⟩

/-! ### The statement -/

/-- A request handed over is counted, and its channel's failed attempts are not. -/
theorem handed_counts (s : State) (n : StackId) (i : Nat) (r : MemReq) (ts : List WireTry) (ch : ChanId) :
    ((s.handed n i r ts).stack n).bursts = (s.stack n).bursts + 1 ∧
    ((s.handed n i r ts).stack n).requests = (s.stack n).requests.eraseIdx i ∧
    (vget ((s.handed n i r ts).stack n).channels ch).crcCount = (vget (s.stack n).channels ch).crcCount := by
  rw [handed_stack_self]
  exact ⟨rfl, rfl, vmod_keeps Channel.crcCount (f := fun c => { c with carried := some s.time }) (by intros; rfl)
    (s.stack n).channels ((s.stack n).channelOf (r.addr % 2 ^ 37)).1 ch⟩

/-- A request for its errors and tokens alone leaves memory and cells. -/
theorem dramBurstServe_own {s : State} {n : StackId} {i : Nat} {r : MemReq} (hnext : (s.stack n).nextRequest = some (i, r))
    (hown : r.own = true) (hheld : s.burstHolds r.addr = false) (line : BitVec 29) (ts : List WireTry) :
    Completes (.dramBurstServe n ⟨line, []⟩ ts) s (fun t => t.mem = s.mem ∧ t.cells = s.cells ∧
      (t.stack n).requests = (s.stack n).requests.eraseIdx i ∧ (t.stack n).bursts = (s.stack n).bursts + 1) := by
  have hleaves (w : Option (Nat × List WireTry)) :
      let t := s.modStack n fun x => x.hands i (x.channelOf (r.addr % 2 ^ 37)).1 s.time w
      (t.serve r).mem = s.mem ∧ (t.serve r).cells = s.cells ∧ ((t.serve r).stack n).requests =
        (s.stack n).requests.eraseIdx i ∧ ((t.serve r).stack n).bursts = (s.stack n).bursts + 1 := by
    dsimp only
    rw [State.serve, if_pos hown, modStack_stack_self]
    exact ⟨rfl, rfl, rfl, rfl⟩
  rw [Completes, exec_dramBurstServe, execDramBurstServe]
  simp only [hnext, hheld, hown, Bool.not_true, Bool.false_and, Bool.or_self, Bool.false_eq_true, if_false]
  refine ⟨_, rfl, ?_⟩
  split
  · exact hleaves (s.stack n).wire
  · rw [flipBits_nil, modStack_modStack]
    exact hleaves (if ts.isEmpty then none else some (r.addr / 256, ts))

theorem partWord_whole {d n : Nat} (hd : d % 4 = 0) (hn : n % 4 = 0) : partWord d n = false := by
  have hend : (d + n) % 4 = 0 := by omega
  simp [partWord, hd, hend]

/-- Settles O31: the request that is next is handed over, and its burst is then moved, lost or refused. The read made for
its errors and tokens alone is the device of log entry 18. -/
theorem memoryBursts : Obligations.MemoryBursts := by
  unfold Obligations.MemoryBursts
  intro s n line i r m
  dsimp only
  refine ⟨fun hnone hfence htrained => ?_, fun htrained hfence hi hr hfirst hx hstatus hn hd hfit hwhole hm hown hheld
    hpath hbeats => ?_, fun bs ts hnext hback => ?_, fun ts hnext hown hheld => dramBurstServe_own hnext hown hheld line ts⟩
  · rw [exec_dramBurstServe, execDramBurstServe]
    have hloud : (s.stack n).silent = false := by simp [Stack.silent, hfence, htrained]
    simp only [nextRequest_none hfence hnone, hloud, flipBits_nil, List.isEmpty_nil, if_true, Bool.false_eq_true, if_false]
  · have hloud : (s.stack n).silent = false := by simp [Stack.silent, hfence, htrained]
    have hexec := dramBurstServe_serves (nextRequest_some hfence hi hr hfirst) hloud hheld (.inr hpath) line
    have hmap (ts : List WireTry) := handed_keeps s n i r ts Stack.mappedOut fun _ _ _ _ _ => rfl
    have hloud' (ts : List WireTry) : ((s.handed n i r ts).stack n).silent = false := by rw [handed_stack_self]; exact hloud
    have hd' (ts : List WireTry) : (s.handed n i r ts).direct r.view = some r.addr := (direct_congr (hmap ts) _).trans hd
    have hch (ts : List WireTry) : (s.handed n i r ts).chanOf r.addr = s.chanOf r.addr := chanOf_congr (hmap ts) _
    have hwrites (ts : List WireTry) (hwrite : r.write = true) (hlen : r.data.length = r.len) (h4 : r.addr % 4 = 0)
        (hl4 : r.len % 4 = 0) (h0 : 0 < r.len) : Writes (s.handed n i r ts) r :=
      ⟨hown, hwrite, hlen, h0, hfit, partWord_whole h4 hl4, hd' ts, hn ▸ hloud' ts, hbeats⟩
    refine ⟨fun a o b ts hread h0 hsides hpart hclean hk hflips => ?_, fun ts hwrite hlen h4 hl4 h0 => ⟨fun hok hk hflips => ?_,
      fun hok hk => ?_, fun href => ?_⟩⟩
    · have hmoves := handed_moves hn hloud hwhole hm i (ts := ts) (m := s.mem.dram) (Prod.ext rfl hflips)
      obtain ⟨hstore, hmem, hother, hvat, hbursts, hcrc⟩ := serve_read_stores (u := s.handed n i r ts) hown hread h0 hfit
        (hd' ts) hmoves hk hclean hbeats hx hstatus ((sides_of_route (s := s) (t := s.handed n i r ts) rfl ..).trans hsides)
        ((part_of_route (s := s) (t := s.handed n i r ts) rfl ..).trans hpart)
      obtain ⟨hcount, -, hcrc0⟩ := handed_counts s n i r ts (s.chanOf r.addr)
      rw [hn] at hbursts hcrc
      rw [hch, hcrc0] at hcrc
      exact ⟨_, hexec ts, hstore, hmem, hother, hvat, hbursts.trans hcount, hcrc⟩
    · have hmoves := handed_moves hn hloud hwhole hm i (ts := ts) (m := s.mem.dram.write r.addr r.data) (Prod.ext rfl hflips)
      obtain ⟨hdram, hstore, hbursts⟩ := serve_write_stores (hwrites ts hwrite hlen h4 hl4 h0)
        ((writeRefused_handed ..).trans hok) hmoves hk
      rw [hn] at hbursts
      exact ⟨_, hexec ts, hdram, hstore, hbursts.trans (handed_counts s n i r ts 0).1⟩
    · have hattempts : (s.mem.dram.write r.addr r.data).attempts (r.addr / 256) ts = (4, []) :=
        Prod.ext hk (if_pos hk)
      have hmoves := handed_moves hn hloud hwhole hm i hattempts
      obtain ⟨hmem, hstore, hbit, hchip⟩ := serve_write_lost (hwrites ts hwrite hlen h4 hl4 h0)
        ((writeRefused_handed ..).trans hok) hmoves
      rw [hn, hch] at hbit
      exact ⟨_, hexec ts, hmem, hstore, hbit, hchip⟩
    · obtain ⟨hmem, hstore, hfailed⟩ := serve_write_refused (u := s.handed n i r ts) hown hwrite hx hstatus
        ((writeRefused_handed ..).trans href)
      exact ⟨_, hexec ts, hmem, hstore, hfailed⟩
  · rw [exec_dramBurstServe, execDramBurstServe]
    simp only [hnext]
    rw [if_pos]
    rcases hback with h | ⟨h1, h2⟩
    · simp [h]
    · simp [h1, h2]

end Sys2Proof.Machine
end

section
/-!
OBLIGATION O33. Memory control and margin registers, pattern runs, page commands (R289, R311, R314, R565).
-/
namespace Sys2Proof.Machine

/-! ### Fields -/

/-- A field written twice holds the later value. -/
theorem setFld_setFld {n : Nat} (w : BitVec n) (lo len v u : Nat) :
    setFld (setFld w lo len v) lo len u = setFld w lo len u := by
  refine BitVec.eq_of_getLsbD_eq fun i hi => ?_
  rw [getLsbD_setFld _ _ _ _ _ hi, getLsbD_setFld _ _ _ _ _ hi, getLsbD_setFld _ _ _ _ _ hi]
  split <;> rfl

theorem bfld_toFin_val {n : Nat} (w : BitVec n) (lo len : Nat) : (bfld w lo len).toFin.val = fld w lo len := by
  simp [bfld, fld]

/-! ### Marking pages (R289) -/

theorem setAttr_attrOf {s : State} (g : StackId × Nat) (v : BitVec 4)
    (h : Sparse.wf (0 : BitVec 4) (s.stack g.1).pages = true) (k : StackId × Nat) :
    (s.setAttr g v).attrOf k = if k = g then v else s.attrOf k := by
  obtain ⟨n, j⟩ := g
  obtain ⟨q, i⟩ := k
  rcases eq_or_ne n q with rfl | hn
  · simp only [State.attrOf, State.setAttr, modStack_stack_self, Prod.mk.injEq, true_and]
    exact Sparse.get_set h j i v
  · have hne : ¬ (q, i) = (n, j) := fun e => hn (Prod.ext_iff.mp e).1.symm
    simp only [State.attrOf, State.setAttr, modStack_stack_ne _ _ _ _ hn, if_neg hne]

theorem setAttr_pages_wf {s : State} (h : ∀ n, Sparse.wf (0 : BitVec 4) (s.stack n).pages = true) (g : StackId × Nat)
    (v : BitVec 4) (n : StackId) : Sparse.wf (0 : BitVec 4) ((s.setAttr g v).stack n).pages = true := by
  rcases eq_or_ne g.1 n with rfl | hn
  · simp only [State.setAttr, modStack_stack_self]
    exact Sparse.set_wf (h _) _ _
  · simp only [State.setAttr, modStack_stack_ne _ _ _ _ hn, h]

/-- A granule with OWNER and PERSIST of v. -/
def State.markGranule (v : Nat) (s : State) (g : StackId × Nat) : State := s.setAttr g (setFld (s.attrOf g) 0 3 v)

/-- Granules marked one after another: those named are marked, the others as before. -/
theorem foldl_markGranule_attrOf (v : Nat) (gs : List (StackId × Nat)) {s : State}
    (h : ∀ n, Sparse.wf (0 : BitVec 4) (s.stack n).pages = true) (k : StackId × Nat) :
    (gs.foldl (State.markGranule v) s).attrOf k = if k ∈ gs then setFld (s.attrOf k) 0 3 v else s.attrOf k := by
  induction gs generalizing s with
  | nil => simp
  | cons g gs ih =>
    rw [List.foldl_cons, ih (s := State.markGranule v s g) (setAttr_pages_wf h g _), State.markGranule, setAttr_attrOf g _ (h _)]
    by_cases hg : k = g
    · subst hg
      by_cases hk : k ∈ gs <;> simp [hk, setFld_setFld]
    · by_cases hk : k ∈ gs <;> simp [hk, hg]

/-- The pages of a command, marked in turn, are its granules marked in turn. -/
theorem foldl_markPage (p : PartId) (mark : Bool) (page : Nat → Nat) (ks : List Nat) (s : State) :
    ks.foldl (fun t i => t.markPage p mark (page i)) s =
      (ks.flatMap fun i => pageGranules (page i)).foldl (State.markGranule (if mark then 2 * p.val + 1 else 0)) s := by
  induction ks generalizing s with
  | nil => rfl
  | cons i ks ih => rw [List.foldl_cons, ih, List.flatMap_cons, List.foldl_append]; rfl

theorem markPage_steps (s : State) (p : PartId) (mark : Bool) (page : Nat) : (s.markPage p mark page).steps = s.steps :=
  foldl_keeps State.steps (by intros; rfl) ..

theorem foldl_markPage_keeps (p : PartId) (mark : Bool) (page : Nat → Nat) (ks : List Nat) (s : State) :
    (ks.foldl (fun t i => t.markPage p mark (page i)) s).mem = s.mem ∧
    (ks.foldl (fun t i => t.markPage p mark (page i)) s).cells = s.cells ∧
    (ks.foldl (fun t i => t.markPage p mark (page i)) s).steps = s.steps :=
  ⟨foldl_keeps State.mem (by intros; exact markPage_mem ..) .., foldl_keeps State.cells (by intros; exact markPage_cells ..) ..,
    foldl_keeps State.steps (by intros; exact markPage_steps ..) ..⟩

/-- A touched sheet changes sheets and the host stream port alone. -/
theorem sheetsTouched_sansSheets (s : State) (unmark : Bool) (a n : Nat) :
    (s.sheetsTouched unmark a n).sansSheets = s.sansSheets := by
  refine foldl_keeps State.sansSheets (fun t p => ?_) ..
  dsimp only
  rw [apply_ite State.sansSheets, sheetFail_sansSheets, ite_self]

theorem keeps_of_sansSheets {s t : State} (h : t.sansSheets = s.sansSheets) :
    t.stackSet = s.stackSet ∧ t.mem = s.mem ∧ t.cells = s.cells ∧ t.steps = s.steps :=
  ⟨(congrArg State.stackSet h :), (congrArg State.mem h :), (congrArg State.cells h :), (congrArg State.steps h :)⟩

/-! ### Writes from outside -/

/-- What a page command written while none runs does. -/
theorem pageCmdOp_idle {s : State} {v : Word64} (hop : fld v 62 2 = 1 ∨ fld v 62 2 = 2) (h : bit s.mem.pageStatus 31 = false) :
    let set := fun (w : Nat) (c : Option Word64) =>
      { s with mem := { s.mem with pageStatus := BitVec.ofNat 32 w, pageCmd := c } }
    let bad := 2 ^ 20 < fld v 21 20 + cmdCount v ∨ ∃ k < cmdCount v, s.pageConflict (cmdPart v) (cmdPage v k) = true
    (s.phase (cmdPart v) ≠ .closed → s.pageCmdOp v = set (2 ^ 21) none) ∧
    (s.phase (cmdPart v) = .closed → bad → s.pageCmdOp v = set (3 * 2 ^ 20) none) ∧
    (s.phase (cmdPart v) = .closed → ¬ bad → s.pageCmdOp v = set (2 ^ 31) (some v)) := by
  have hgo : ¬ (fld v 62 2 = 0 ∨ fld v 62 2 = 3) := by omega
  have hbad : (2 ^ 20 < fld v 21 20 + cmdCount v ||
      (List.range (cmdCount v)).any (fun i => s.pageConflict (cmdPart v) (cmdPage v i))) = true ↔
      (2 ^ 20 < fld v 21 20 + cmdCount v ∨ ∃ k < cmdCount v, s.pageConflict (cmdPart v) (cmdPage v k) = true) := by
    simp
  dsimp only
  refine ⟨fun hc => ?_, fun hc hb => ?_, fun hc hb => ?_⟩
  · have hopen : s.closed (cmdPart v) = false := by simpa [State.closed] using hc
    simp [State.pageCmdOp, hgo, h, hopen, bnat]
  · have hclosed : s.closed (cmdPart v) = true := by simpa [State.closed] using hc
    rw [← hbad] at hb
    simp only [State.pageCmdOp, hgo, h, hclosed, hb]
    simp [bnat]
  · have hclosed : s.closed (cmdPart v) = true := by simpa [State.closed] using hc
    rw [← hbad] at hb
    simp only [State.pageCmdOp, hgo, h, hclosed, hb]
    simp [bnat]

/-- A page command written while one runs is ignored. -/
theorem pageCmdOp_busy {s : State} {v : Word64} (hop : fld v 62 2 = 1 ∨ fld v 62 2 = 2) (h : bit s.mem.pageStatus 31 = true) :
    s.pageCmdOp v = s.regIgnored 4 := by
  have hgo : ¬ (fld v 62 2 = 0 ∨ fld v 62 2 = 3) := by omega
  simp only [State.pageCmdOp, hgo, h, if_false, if_true]

/-- Leaving bring-up mode clears every margin. -/
theorem bringupOp_clear {s : State} {v : Word32} (h : bit v 0 = false) :
    s.bringupOp v = { s with mem := { s.mem with memCtl := 0 }, stackSet := (s.bringupOp v).stackSet } ∧
    ∀ k, (s.bringupOp v).stack k = { s.stack k with margin := 0 } := by
  have hclear : s.bringupOp v = { s with
      mem := { s.mem with memCtl := 0 }, stackSet := s.stackSet.map (fun x => { x with margin := 0 }) } := by
    unfold State.bringupOp
    rw [if_neg (by simp [h])]
  rw [hclear]
  exact ⟨rfl, fun k => vget_map ..⟩

/-- What a pattern run asked for while none runs does. -/
theorem patOp_idle {s : State} {v : Word64} (hgo : bit v 63 = true) (h : bit s.test.patStat 31 = false) {st : StackId}
    (hst : st.val = fld v 57 4) :
    let pat := fun (r : Nat) (p : Option Word64) =>
      { s with test := { s.test with patStat := BitVec.ofNat 32 r, pat := p } }
    (bit s.mem.memCtl 0 = false → s.patOp v = pat (2 ^ 30) none) ∧
    (bit s.mem.memCtl 0 = true → ((s.stack st).fenced = true ∨ bit (s.stack st).mappedOut (fld v 52 5) = true) →
      s.patOp v = pat (3 * 2 ^ 29) none) ∧
    (bit s.mem.memCtl 0 = true → (s.stack st).fenced = false → bit (s.stack st).mappedOut (fld v 52 5) = false →
      s.patOp v = pat (2 ^ 31) (some v)) := by
  have hn : (bfld v 57 4).toFin = st := Fin.ext ((bfld_toFin_val ..).trans hst.symm)
  have hrun : ¬ (bit v 63 = false ∨ bit s.test.patStat 31 = true) := by simp [hgo, h]
  dsimp only
  refine ⟨fun hctl => ?_, fun hctl hbad => ?_, fun hctl hfence hmap => ?_⟩
  · simp only [State.patOp, hrun, hctl, if_false, if_true]
    rfl
  · have hno : ((s.stack st).fenced || bit (s.stack st).mappedOut (fld v 52 5)) = true := by simpa using hbad
    simp only [State.patOp, hrun, hctl, hn, bfld_toFin_val, hno, if_false, if_true]
    rfl
  · simp only [State.patOp, hrun, hctl, hn, bfld_toFin_val, hfence, hmap, if_false]
    rfl

/-- The end of a pattern run changes what it reports and the errors its margin counts. -/
theorem stPatDone_ends {s : State} {p : Word64} (h : s.test.pat = some p) : Completes .stPatDone s (fun t =>
    t.test = { s.test with patStat := BitVec.ofNat 32 (2 ^ 29), pat := none } ∧ t.mem = s.mem ∧ t.cells = s.cells) := by
  rw [Completes, exec_stPatDone, execStPatDone, h]
  dsimp only
  split <;> exact ⟨_, rfl, rfl, rfl, rfl⟩

/-- What PAGE_CMD_DONE does. -/
theorem pageCmdDone_marks {s : State} {v : Word64} (h : s.mem.pageCmd = some v)
    (hwf : ∀ n, Sparse.wf (0 : BitVec 4) (s.stack n).pages = true) : Completes .pageCmdDone s (fun t =>
      t.mem = { s.mem with pageStatus := BitVec.ofNat 32 (2 ^ 20 + cmdCount v % 2 ^ 20), pageCmd := none } ∧
      t.cells = s.cells ∧ t.steps = s.steps ∧ ∀ g, t.attrOf g =
        if g ∈ (List.range (cmdCount v)).flatMap (fun i => pageGranules (cmdPage v i)) then
          setFld (s.attrOf g) 0 3 (if fld v 62 2 = 1 then 2 * (cmdPart v).val + 1 else 0) else s.attrOf g) := by
  obtain ⟨touched, htouched⟩ : ∃ touched, touched = State.sheetsTouched := ⟨_, rfl⟩
  have hsans : ∀ t unmark a n, (touched t unmark a n).sansSheets = t.sansSheets := htouched ▸ sheetsTouched_sansSheets
  obtain ⟨ks, hks⟩ : ∃ ks, ks = List.range (cmdCount v) := ⟨_, rfl⟩
  rw [Completes, exec_pageCmdDone, execPageCmdDone, h, ← htouched]
  dsimp only
  rw [← hks]
  obtain ⟨s0, hs0⟩ : ∃ s0, s0 = (if decide (fld v 62 2 = 1) then s else
      ks.foldl (fun t i => touched t true (cmdPage v i) (2 ^ 21)) s) := ⟨_, rfl⟩
  obtain ⟨hstack, hmem, hcells, hsteps⟩ : s0.stackSet = s.stackSet ∧ s0.mem = s.mem ∧ s0.cells = s.cells ∧
      s0.steps = s.steps := by
    refine keeps_of_sansSheets ?_
    rw [hs0, apply_ite State.sansSheets, foldl_keeps State.sansSheets fun _ _ => hsans .., ite_self]
  rw [← hs0]
  obtain ⟨s1, hs1⟩ : ∃ s1, s1 = ks.foldl (fun t i =>
    t.markPage (cmdPart v) (decide (fld v 62 2 = 1)) (cmdPage v i)) s0 := ⟨_, rfl⟩
  obtain ⟨hmem1, hcells1, hsteps1⟩ : s1.mem = s0.mem ∧ s1.cells = s0.cells ∧ s1.steps = s0.steps := by
    rw [hs1]
    exact foldl_markPage_keeps ..
  have hattr (g : StackId × Nat) : s0.attrOf g = s.attrOf g := by rw [State.attrOf, State.stack, hstack]; rfl
  rw [← hs1]
  refine ⟨_, rfl, by rw [hmem1, hmem], hcells1.trans hcells, hsteps1.trans hsteps, fun g => ?_⟩
  show s1.attrOf g = _
  rw [hs1, foldl_markPage, foldl_markGranule_attrOf _ _ (fun n => by rw [State.stack, hstack]; exact hwf n), hattr]
  simp only [decide_eq_true_eq]

/-- Settles O33: each write and the end of each command by its own rule. That an unmark clears OWNER with PERSIST is
log entry 33; the model, as the statement says, keeps STREAMED, which that entry clears. -/
theorem memoryRegistersAndPages : Obligations.MemoryRegistersAndPages := by
  unfold Obligations.MemoryRegistersAndPages
  refine ⟨fun s b n v w hb hup => ?_, fun s b v0 hb hup => ?_, fun s v hcmd hwf => ?_⟩
  · have hreg := regWrite_outside hb hup
    have hw57 : fld (setBit w 63 true) 57 4 = fld w 57 4 := fld_setBit_ne _ _ _ _ _ (by omega)
    have hw52 : fld (setBit w 63 true) 52 5 = fld w 52 5 := fld_setBit_ne _ _ _ _ _ (by omega)
    have hgo : bit (setBit w 63 true) 63 = true := bit_setBit_self _ _ _ (by omega)
    have hst : fld w 57 4 % 16 = fld (setBit w 63 true) 57 4 := by
      rw [hw57]
      exact Nat.mod_eq_of_lt (Nat.mod_lt _ (by omega))
    intro locked pat st
    simp only [exec_mapoutReqWrite, exec_memBringupWrite, exec_memMarginWrite, exec_stPatGo, execMapoutReqWrite,
      execMemBringupWrite, execMemMarginWrite, execStPatGo, hreg, Host.Outcome.next.injEq]
    refine ⟨rfl, fun h0 hclosed hempty => ?_, fun h0 hbusy => ?_, fun h0 => ?_, fun hctl => ?_, fun hctl => ?_,
      fun hbusy => ?_, fun hidle => ?_, fun p hp => stPatDone_ends hp⟩
    · simp [State.bringupOp, h0, hclosed, hempty]
    · have hno : (s.allClosed && s.allEmpty) = false := by rcases hbusy with h | h <;> simp [h]
      simp only [State.bringupOp, h0, hno, if_true]
      rfl
    · obtain ⟨hctl, hmargin⟩ := bringupOp_clear (s := s) h0
      exact ⟨_, exec_memBringupWrite .. |>.trans (hreg ..), hctl, hmargin⟩
    · simp only [State.marginOp, hctl, if_true]
    · simp only [State.marginOp, hctl]
      rfl
    · simp only [State.patOp, hbusy, or_true, if_true]
    · have hpat := patOp_idle hgo hidle (st := st) hst
      rwa [hw52] at hpat
  · have hreg := regWrite_outside hb hup
    have hcmd (v : Word64) (hop : fld v 62 2 = 1 ∨ fld v 62 2 = 2) (h : bit s.mem.pageStatus 31 = true) :
        ∃ t, s.pageCmdOp v = t ∧ t = { s with faults := t.faults } := by
      rw [pageCmdOp_busy hop h]
      exact ⟨_, rfl, rfl⟩
    have hmark : fld (setFld v0 62 2 1) 62 2 = 1 := fld_setFld_self _ _ _ _ (by omega)
    have hunmark : fld (setFld v0 62 2 2) 62 2 = 2 := fld_setFld_self _ _ _ _ (by omega)
    intro set
    simp only [Completes, exec_pageMark, exec_pageUnmark, execPageMark, execPageUnmark, hreg, Host.Outcome.next.injEq]
    exact ⟨⟨hcmd _ (.inl hmark), pageCmdOp_idle (.inl hmark)⟩, hcmd _ (.inr hunmark), pageCmdOp_idle (.inr hunmark)⟩
  · obtain ⟨t, hexec, hmem, hcells, hsteps, hattr⟩ := pageCmdDone_marks hcmd hwf
    refine ⟨t, hexec, hmem, hcells, hsteps, fun k hk g hg => ?_, fun g hg => ?_⟩
    · rw [hattr, if_pos (List.mem_flatMap.mpr ⟨k, List.mem_range.mpr hk, hg⟩)]
    · rw [hattr, if_neg fun hin => ?_]
      obtain ⟨k, hk, hgk⟩ := List.mem_flatMap.mp hin
      exact hg k (List.mem_range.mp hk) hgk

end Sys2Proof.Machine
end

section
/-!
OBLIGATION O51. Loss and return of supplies, the phases of a start, the training of a stack (R286, R310, R537, R551, R552,
R593, R594, Table 17-13).
-/
namespace Sys2Proof.Machine

/-! ### Start-up phases (Table 17-13) -/

/-- A new phase number changes the status and, by the vector it raises, the host's port. -/
theorem setPhaseNo_host (s : State) (n : Nat) : ∃ h, s.setPhaseNo n =
    { s with start := { s.start with status := setFld s.start.status 0 3 n }, host := h } := by
  unfold State.setPhaseNo
  dsimp only
  split
  · exact ⟨_, rfl⟩
  · rw [raiseVector_eq]
    exact ⟨_, rfl⟩

/-- Merging keeps the levels. -/
theorem mergeInto_level {f : Reset → Bool} {lvl : ResetLevel} : ∀ {l : List Reset}, (∃ r ∈ l, r.level = lvl) →
    ∃ r ∈ mergeInto f l, r.level = lvl
  | r :: l, ⟨q, hq, hl⟩ => by
    rw [mergeInto]
    rcases List.mem_cons.mp hq with rfl | hq
    · split
      · exact ⟨_, List.mem_cons_self, hl⟩
      · exact ⟨_, List.mem_cons_self, hl⟩
    · split
      · exact ⟨q, List.mem_cons_of_mem _ hq, hl⟩
      · obtain ⟨p, hp, hpl⟩ := mergeInto_level ⟨q, hq, hl⟩
        exact ⟨p, List.mem_cons_of_mem _ hp, hpl⟩

/-- A power cycle asked for is listed: none but a power cycle covers it. -/
theorem startReset_powerCycle (s : State) (c : CellId) (i : SlotId) (e : BitVec 4) (p : PartId) (cause : BitVec 4) :
    ∃ r ∈ (s.startReset .powerCycle c i e p cause).faults.resets, r.level = .powerCycle := by
  dsimp only [State.startReset]
  split
  · next h =>
    obtain ⟨r, hr, hcovers⟩ := List.any_eq_true.mp h
    refine mergeInto_level ⟨r, hr, ?_⟩
    simp only [State.coveredBy, Bool.and_eq_true, decide_eq_true_eq] at hcovers
    obtain ⟨hcode, -⟩ := hcovers
    revert hcode
    cases r.level <;> simp [ResetLevel.code]
  · exact ⟨_, List.mem_append_right _ (List.mem_singleton_self _), rfl⟩

theorem startReset_start (s : State) (lvl : ResetLevel) (c : CellId) (i : SlotId) (e : BitVec 4) (p : PartId)
    (cause : BitVec 4) : (s.startReset lvl c i e p cause).start = s.start := by
  dsimp only [State.startReset]
  split <;> rfl

theorem startReset_xds (s : State) (lvl : ResetLevel) (c : CellId) (i : SlotId) (e : BitVec 4) (p : PartId)
    (cause : BitVec 4) : (s.startReset lvl c i e p cause).xds = s.xds := by
  dsimp only [State.startReset]
  split <;> rfl

theorem chipFault_keeps (s : State) : s.chipFault.start = s.start ∧ s.chipFault.xds = s.xds := by
  obtain ⟨tr, pend, msix, halert, -⟩ := alertSet_signalled s 1
  rw [State.chipFault, startReset_start, startReset_xds, halert]
  exact ⟨rfl, rfl⟩

/-- Isolation leaves start-up and which joins are trained. -/
theorem xdIsolated_keeps (s : State) (j : JoinId) (d : Fin 2) : (s.xdIsolated j d).start = s.start ∧
    ∀ k, ((s.xdIsolated j d).xd k).trained = (s.xd k).trained := by
  unfold State.xdIsolated
  split
  · exact ⟨rfl, fun _ => rfl⟩
  · obtain ⟨hstart, hxds⟩ := chipFault_keeps (s.xdEvent j d 7 .chip 5 0 0x7F 0 s.time)
    refine ⟨hstart, fun k => ?_⟩
    have htrained : ((s.xdEvent j d 7 .chip 5 0 0x7F 0 s.time).xd k).trained = (s.xd k).trained :=
      vmod_keeps Xd.trained (by intros; rfl) s.xds j k
    rw [State.xd, hxds]
    exact htrained

/-- Full training leaves start-up and trains every join. -/
theorem trainJoinsFull_trains (s : State) : s.trainJoinsFull.start = s.start ∧
    ∀ k, (s.trainJoinsFull.xd k).trained = true := by
  obtain ⟨s1, hs1, hstart1⟩ : ∃ s1, s1 = (allFin 8).foldl (fun t j => (t.trainDir j 0).trainDir j 1) s ∧
      s1.start = s.start := ⟨_, rfl, foldl_keeps State.start (by intros; rfl) ..⟩
  rw [State.trainJoinsFull, ← hs1]
  obtain ⟨hstart, htrained⟩ := xdIsolated_keeps (s1.trainWith (fun _ w => w))
    (((allFin 8).find? (fun j => (s1.xd j).off)).getD 0) 0
  refine ⟨hstart.trans hstart1, fun k => (htrained k).trans ?_⟩
  simp [State.trainWith, State.xd, vget]

/-- What holding dies does to start-up. -/
theorem holdDies_good {s : State} {good : DieId → Bool} (h0 : s.start.held = 0) (h : ∀ d, good d = true) :
    (s.holdDies good).start.held = 0 := by
  refine BitVec.eq_of_getLsbD_eq fun i hi => ?_
  have hbit := holdDies_held s good ⟨i, hi⟩
  rw [h, h0] at hbit
  simpa [bit] using hbit

theorem holdDies_bad {s : State} {good : DieId → Bool} (h : ∃ d, good d = false) : (s.holdDies good).start.held ≠ 0 := by
  intro h0
  obtain ⟨d, hd⟩ := h
  have hbit := holdDies_held s good d
  rw [h0, hd] at hbit
  simp [bit] at hbit

theorem loadFuses_freeCtr (s : State) : s.loadFuses.freeCtr = s.freeCtr := by rw [State.loadFuses]

/-- The dies held after their reports, those whose report does not verify (R546). -/
theorem dieReports_held {s : State} (h0 : s.start.held = 0) :
    ((∀ d, dieGood d s.freeCtr = true) → s.loadFuses.dieReports.start.held = 0) ∧
    ((∃ d, dieGood d s.freeCtr = false) → s.loadFuses.dieReports.start.held ≠ 0) := by
  rw [State.dieReports, loadFuses_freeCtr]
  exact ⟨holdDies_good (s := s.loadFuses) (good := fun d => dieGood d s.freeCtr) h0,
    holdDies_bad (s := s.loadFuses) (good := fun d => dieGood d s.freeCtr)⟩

/-- The dies held after logic self-test, those that fail it (R481). -/
theorem logicTest_held {s : State} (h0 : s.start.held = 0) :
    ((∀ d : DieId, Config.logicGood d.val s.freeCtr = true) → s.logicTest.start.held = 0) ∧
    ((∃ d : DieId, Config.logicGood d.val s.freeCtr = false) → s.logicTest.start.held ≠ 0) := by
  rw [State.logicTest]
  exact ⟨holdDies_good (good := fun d => Config.logicGood d.val s.freeCtr) h0,
    holdDies_bad (good := fun d => Config.logicGood d.val s.freeCtr)⟩

theorem dieReports_status (s : State) : s.loadFuses.dieReports.start.status = s.start.status := rfl

theorem logicTest_status (s : State) : s.logicTest.start.status = s.start.status := rfl

/-- A phase that ends with no die held goes on. -/
theorem startGoes_on {s : State} (h : s.start.held = 0) (n : Nat) (hn : n < 8) :
    fld (s.startGoes n).start.status 0 3 = n ∧ (s.startGoes n).cells = s.cells ∧ (s.startGoes n).mem = s.mem ∧
    (s.startGoes n).stackSet = s.stackSet ∧ (s.startGoes n).xds = s.xds := by
  obtain ⟨hphase, hcells, hmem, -⟩ := setPhaseNo_eq s n hn
  obtain ⟨host, hhost⟩ := setPhaseNo_host s n
  rw [State.startGoes, if_pos h]
  exact ⟨hphase, hcells, hmem, by rw [hhost], by rw [hhost]⟩

/-- A phase that ends with a die held stays, and a power cycle is asked for. -/
theorem startGoes_cycles {s : State} (h : s.start.held ≠ 0) (n : Nat) :
    (s.startGoes n).start = s.start ∧ (s.startGoes n).cells = s.cells ∧ (s.startGoes n).mem = s.mem ∧
    ∃ r ∈ (s.startGoes n).faults.resets, r.level = .powerCycle := by
  refine ⟨?_, startGoes_cells .., startGoes_mem .., ?_⟩
  · rw [State.startGoes, if_neg h, startReset_start]
  · rw [State.startGoes, if_neg h]
    exact startReset_powerCycle ..

/-- Start-up does not end its phase while AUX is absent, a chip reset runs, a die is held, or, after the first phase, the
management core does not run. -/
theorem startupPhaseEnd_stays {s : State} (h : (s.start.aux = false ∨ s.faults.chipPhase.isSome = true ∨ s.start.held ≠ 0) ∨
    (fld s.start.status 0 3 ≠ 1 ∧ s.mgmt.running = false)) : exec .startupPhaseEnd s = .next s := by
  rw [exec_startupPhaseEnd, execStartupPhaseEnd]
  split
  · rfl
  · next h1 => rw [if_pos (h.resolve_left h1)]

section
variable {s : State} (haux : s.start.aux = true) (hchip : s.faults.chipPhase = none) (hheld : s.start.held = 0)
include haux hchip hheld

/-- The first phase ends with a bank that verifies running, or the management core does not run. -/
theorem startup_first (hph : fld s.start.status 0 3 = 1) :
    (∀ i, s.mgmt.bootBank = some i → exec .startupPhaseEnd s = .next (({ s with
      mgmt := { s.mgmt with running := true, active := i, nextBank := none },
      start := { s.start with coreOn := true } } : State).loadRails.setPhaseNo 2)) ∧
    (s.mgmt.bootBank = none → exec .startupPhaseEnd s = .next { s with mgmt := { s.mgmt with running := false } }) := by
  rw [exec_startupPhaseEnd, execStartupPhaseEnd, if_neg (by simp [haux, hchip, hheld]), if_neg (by simp [hph]), hph]
  constructor
  · intro i hboot
    rw [hboot]
    rfl
  · intro hboot
    rw [hboot]
    rfl

variable (hrun : s.mgmt.running = true)
include hrun

theorem startup_second (hph : fld s.start.status 0 3 = 2) :
    exec .startupPhaseEnd s = .next (s.loadFuses.dieReports.startGoes 3) := by
  rw [exec_startupPhaseEnd, execStartupPhaseEnd, if_neg (by simp [haux, hchip, hheld]), if_neg (by simp [hrun]), hph]
  rfl

theorem startup_third (hph : fld s.start.status 0 3 = 3) :
    exec .startupPhaseEnd s = .next (s.logicTest.trainJoinsFull.startGoes 4) := by
  rw [exec_startupPhaseEnd, execStartupPhaseEnd, if_neg (by simp [haux, hchip, hheld]), if_neg (by simp [hrun]), hph]
  rfl

theorem startup_fourth (hph : fld s.start.status 0 3 = 4) : exec .startupPhaseEnd s = .next (s.setPhaseNo 5) := by
  rw [exec_startupPhaseEnd, execStartupPhaseEnd, if_neg (by simp [haux, hchip, hheld]), if_neg (by simp [hrun]), hph]
  rfl

/-- The memory phase ends once every stack is trained or fenced and no enabled port trains. -/
theorem startup_fifth (hph : fld s.start.status 0 3 = 5) : exec .startupPhaseEnd s =
    if s.memReady = true ∧ (∀ k, (s.port k).training = false) then
      .next (({ s with route := { s.route with fullTrained := true } } : State).setPhaseNo 6) else .next s := by
  have hports : (s.ports.toList.all fun x => !x.training) = true ↔ ∀ k, (s.port k).training = false := by
    simp [State.port, vget, Fin.forall_iff]
  rw [exec_startupPhaseEnd, execStartupPhaseEnd, if_neg (by simp [haux, hchip, hheld]), if_neg (by simp [hrun]), hph]
  simp only [Bool.and_eq_true, hports]

end

theorem startup_last {s : State} (hph : 6 ≤ fld s.start.status 0 3) : exec .startupPhaseEnd s = .next s := by
  rw [exec_startupPhaseEnd, execStartupPhaseEnd]
  split
  · rfl
  · split
    · rfl
    · split
      · omega
      · omega
      · omega
      · omega
      · omega
      · rfl

/-! ### Supplies (R593 to R595) -/

/-- With no reset under way, a chip fault lists a chip reset and raises its alert. -/
theorem chipFault_signalled {s : State} (h : s.faults.resets = []) : ∃ f tr pend msix,
    s.chipFault = s.signalled f tr pend msix ∧ bit tr.alert 1 = true ∧
    f.resets = [⟨.chip, 0, 0, 0, 0, 9, s.time, false, 0⟩] := by
  obtain ⟨tr, pend, msix, halert, hbit⟩ := alertSet_signalled s 1
  have hreset := startReset_alone (s := s.signalled s.faults tr pend msix) h .chip 0 0 0 0 9
  rw [State.chipFault, halert, hreset]
  exact ⟨_, tr, pend, msix, rfl, hbit, rfl⟩

/-- Loss of 12 V. -/
theorem input12vFault_resets {s : State} (haux : s.start.aux = true) (hresets : s.faults.resets = []) :
    Completes .input12vFault s (fun t => t.start.v12 = false ∧
      t.start.coreOn = false ∧ (∀ n, (t.stack n).lost = true) ∧ bit t.tray.alert 1 = true ∧ t.cells = s.cells ∧
      t.faults.resets = [⟨.chip, 0, 0, 0, 0, 9, s.time, false, 0⟩]) := by
  rw [Completes, exec_input12vFault, execInput12vFault, if_neg (by simp [haux])]
  refine ⟨_, rfl, ?_⟩
  obtain ⟨f, tr, pend, msix, hfault, hbit, hf⟩ := chipFault_signalled (s := { s with
    start := { s.start with v12 := false, coreOn := false }, power := { s.power with rails := Rails.off },
    stackSet := s.stackSet.map (fun (x : Stack) => { x with lost := true }) }) hresets
  rw [hfault]
  exact ⟨rfl, rfl, fun n => congrArg Stack.lost (vget_map ..), hbit, rfl, hf⟩

/-! ### Training of a stack (R286, R310, R552) -/

/-- Whether stacks are being trained. -/
def State.trainsStacks (s : State) : Prop :=
  s.faults.chipPhase = some 5 ∨ (s.faults.chipPhase = none ∧ fld s.start.status 0 3 = 5)

/-- A stack once it has been trained with its sensor at temp. -/
def Stack.trains (y : Stack) (ctr : Nat) (temp : BitVec 16) : Stack :=
  { y.trainChannels ctr with
    trained := true, lost := false
    therm := if y.fenced then setFld (setFld (setBit y.therm 31 false) 16 2 (levelOf temp.toInt)) 0 16 temp.toNat
      else y.therm }

/-- The status of start-up once stack n reports. -/
def State.noteTrained (s1 : State) (n : StackId) : State :=
  let s2 := if (s1.stack n).trained then
      { s1 with start := { s1.start with status := setBit s1.start.status (32 + n.val) true } } else s1
  if s2.memReady then { s2 with start := { s2.start with status := setBit s2.start.status 8 true } } else s2

theorem noteTrained_keeps (s : State) (n : StackId) : (s.noteTrained n).mem = s.mem ∧
    (s.noteTrained n).stackSet = s.stackSet ∧ (s.noteTrained n).cells = s.cells := by
  dsimp only [State.noteTrained]
  split <;> split <;> exact ⟨rfl, rfl, rfl⟩

theorem noteTrained_status {s : State} {n : StackId} (h : (s.stack n).trained = true) :
    bit (s.noteTrained n).start.status (32 + n.val) = true := by
  have hself : bit (setBit s.start.status (32 + n.val) true) (32 + n.val) = true := bit_setBit_self _ _ _ (by omega)
  dsimp only [State.noteTrained]
  rw [if_pos h]
  split
  · exact (bit_setBit_ne _ _ _ _ (by omega)).trans hself
  · exact hself

theorem trains_fenced {y : Stack} {ctr : Nat} {temp : BitVec 16} : (y.trains ctr temp).fenced = false := by
  show bit (if y.fenced = true then _ else y.therm) 31 = false
  split
  · rw [bit_setFld_ne _ _ _ _ _ (by omega), bit_setFld_ne _ _ _ _ _ (by omega)]
    exact bit_setBit_self _ _ _ (by omega)
  · next h => exact Bool.eq_false_iff.mpr h

/-- The memory of a stack that has lost its contents reads zero, and what else is stored stays. -/
theorem zeroStack_get {s : State} (n : StackId) (h : Sparse.wf 0 s.mem.dram.bytes = true) (a : Nat) :
    Sparse.get 0 (s.zeroStack n).mem.dram.bytes a = if stackOf a = n then 0 else Sparse.get 0 s.mem.dram.bytes a := by
  split
  · next ha =>
    refine Sparse.get_of_forall_ne fun e he hk => ?_
    have hne := (List.mem_filter.mp he).2
    rw [hk, ha] at hne
    simp at hne
  · next ha => exact Sparse.get_filter (fun v => by simpa using ha) h

theorem stackTrained_waits {s : State} (h : ¬ s.trainsStacks) (n : StackId) (temp : BitVec 16) :
    exec (.stackTrained n temp) s = .next s := by
  rw [exec_stackTrained, execStackTrained]
  cases hchip : s.faults.chipPhase <;> simp_all [State.trainsStacks]

/-- The package with what stack n has lost read as zero. -/
def State.lostZeroed (s : State) (n : StackId) : State :=
  if (s.stack n).lost || (s.stack n).fenced then s.zeroStack n else s

/-- The package once stack n has been trained. -/
def State.trainStack (s : State) (n : StackId) (temp : BitVec 16) : State :=
  ({ s.lostZeroed n with freeCtr := (s.lostZeroed n).freeCtr + 32 }).modStack n (·.trains (s.lostZeroed n).freeCtr temp)

theorem lostZeroed_keeps (s : State) (n : StackId) :
    (s.lostZeroed n).stackSet = s.stackSet ∧ (s.lostZeroed n).cells = s.cells := by
  unfold State.lostZeroed
  split <;> exact ⟨rfl, rfl⟩

theorem trainStack_self (s : State) (n : StackId) (temp : BitVec 16) :
    (s.trainStack n temp).stack n = (s.stack n).trains (s.lostZeroed n).freeCtr temp := by
  rw [State.trainStack, modStack_stack_self]
  exact congrArg (fun v => Stack.trains (vget v n) _ temp) (lostZeroed_keeps s n).1

theorem trainStack_ne (s : State) {n m : StackId} (h : m ≠ n) (temp : BitVec 16) :
    (s.trainStack n temp).stack m = s.stack m := by
  rw [State.trainStack, modStack_stack_ne _ _ _ _ h.symm]
  exact congrArg (vget · m) (lostZeroed_keeps s n).1

theorem trainStack_cells (s : State) (n : StackId) (temp : BitVec 16) : (s.trainStack n temp).cells = s.cells :=
  (lostZeroed_keeps s n).2

theorem trainStack_mem (s : State) (n : StackId) (temp : BitVec 16) :
    (s.trainStack n temp).mem = (s.lostZeroed n).mem := rfl

/-- In the memory phase a stack is trained where it is not fenced, or has cooled. -/
theorem stackTrained_phase {s : State} (h : s.trainsStacks) (n : StackId) (temp : BitVec 16) :
    exec (.stackTrained n temp) s = .next (State.noteTrained
      (if (s.stack n).fenced && decide (760 ≤ temp.toInt) then s else s.trainStack n temp) n) := by
  rw [exec_stackTrained, execStackTrained]
  rcases h with h | ⟨h, hph⟩
  · simp only [h]
    rfl
  · simp only [h, hph]
    rfl

/-- A stack that trains: its lost contents read zero, and other stacks and their bytes stay. -/
theorem stackTrained_trains {s : State} {n : StackId} {temp : BitVec 16} (htrains : s.trainsStacks)
    (hcool : (s.stack n).fenced = false ∨ temp.toInt < 760) : Completes (.stackTrained n temp) s (fun t =>
      (t.stack n).trained = true ∧ (t.stack n).lost = false ∧ (t.stack n).fenced = false ∧
      bit t.start.status (32 + n.val) = true ∧ t.cells = s.cells ∧ (∀ m, m ≠ n → t.stack m = s.stack m) ∧
      ((s.stack n).lost = false → (s.stack n).fenced = false → t.mem = s.mem) ∧
      (Sparse.wf 0 s.mem.dram.bytes = true → ∀ a,
        (stackOf a ≠ n → Sparse.get 0 t.mem.dram.bytes a = Sparse.get 0 s.mem.dram.bytes a) ∧
        (stackOf a = n → ((s.stack n).lost = true ∨ (s.stack n).fenced = true) →
          Sparse.get 0 t.mem.dram.bytes a = 0))) := by
  obtain ⟨hmem, hstacks, hcells⟩ := noteTrained_keeps (s.trainStack n temp) n
  have hexec := stackTrained_phase htrains n temp
  rw [if_neg (by rcases hcool with h | h <;> simp [h])] at hexec
  have hself := trainStack_self s n temp
  have hstack (m : StackId) : ((s.trainStack n temp).noteTrained n).stack m = (s.trainStack n temp).stack m :=
    congrArg (vget · m) hstacks
  refine ⟨_, hexec, ?_, ?_, ?_, noteTrained_status (by rw [hself]; rfl), hcells.trans (trainStack_cells ..),
    fun m hm => (hstack m).trans (trainStack_ne s hm temp), fun hlost hfence => ?_, fun hwf a => ⟨fun ha => ?_, fun ha hgone => ?_⟩⟩
  · rw [hstack, hself]; rfl
  · rw [hstack, hself]; rfl
  · rw [hstack, hself, trains_fenced]
  · rw [hmem, trainStack_mem, State.lostZeroed, if_neg (by simp [hlost, hfence])]
  · rw [hmem, trainStack_mem, State.lostZeroed]
    split
    · rw [zeroStack_get n hwf, if_neg ha]
    · rfl
  · rw [hmem, trainStack_mem, State.lostZeroed, if_pos (by simpa using hgone), zeroStack_get n hwf, if_pos ha]


/-- Settles O51: supplies, the phases of a start one by one, and the training of a stack. What survives and what a held die
does is log entry 47, the training of stacks log entry 48. -/
theorem suppliesAndStart : Obligations.SuppliesAndStart := by
  unfold Obligations.SuppliesAndStart
  refine ⟨fun s => ⟨fun haux => ?_, fun haux => ?_, input12vFault_resets, fun haux hchip => ⟨fun hstay => ?_,
    fun hheld => ⟨fun i hph hboot => ?_, (startup_first haux hchip hheld ·|>.2)⟩, fun hheld hrun =>
      ⟨fun hph hgood => ?_, fun hph hbad => ?_, fun hph hgood => ?_, fun hph hbad => ?_, fun hph => ?_,
        fun hph hready hports => ?_, fun hph hwaits => ?_⟩, startup_last⟩⟩,
    fun s n temp => ⟨(stackTrained_waits · n temp), fun htrains hfence hhot => ?_, stackTrained_trains⟩⟩
  · rw [Completes, exec_auxLoss, execAuxLoss, exec_coldPowerOn, execColdPowerOn, if_pos haux, if_pos haux]
    exact ⟨⟨_, rfl, rfl, rfl, fun c => Vector.getElem_replicate .., rfl, rfl, rfl, rfl, rfl, rfl, rfl, rfl,
      show fld (0 : Word64) 0 3 = 0 by decide⟩, rfl⟩
  · have hno : ¬ s.start.aux = true := by simp [haux]
    rw [Completes, exec_auxLoss, execAuxLoss, exec_coldPowerOn, execColdPowerOn, exec_input12vFault, execInput12vFault,
      if_neg hno, if_neg hno, if_pos haux]
    exact ⟨⟨_, rfl, rfl, rfl, fun c => Vector.getElem_replicate .., rfl, rfl, rfl, rfl, rfl, rfl, rfl, rfl,
      show fld (0x201 : Word64) 0 3 = 1 by decide⟩, rfl, rfl, startupPhaseEnd_stays (.inl (.inl haux))⟩
  · refine startupPhaseEnd_stays ?_
    rcases hstay with h | h
    · exact .inl (.inr (.inr h))
    · exact .inr h
  · obtain ⟨host, hhost⟩ := setPhaseNo_host (({ s with
      mgmt := { s.mgmt with running := true, active := i, nextBank := none },
      start := { s.start with coreOn := true } } : State).loadRails) 2
    obtain ⟨hphase, hcells, hmem, -⟩ := setPhaseNo_eq (({ s with
      mgmt := { s.mgmt with running := true, active := i, nextBank := none },
      start := { s.start with coreOn := true } } : State).loadRails) 2 (by omega)
    refine ⟨_, (startup_first haux hchip hheld hph).1 i hboot, hphase, hcells.trans (loadRails_cells _),
      hmem.trans (loadRails_mem _), ?_⟩
    rw [hhost]
    exact ⟨rfl, rfl, rfl⟩
  · obtain ⟨hphase, hcells, hmem, hstacks, -⟩ := startGoes_on ((dieReports_held hheld).1 hgood) 3 (by omega)
    refine ⟨_, startup_second haux hchip hheld hrun hph, hphase, by rw [hcells]; simp, by rw [hmem]; simp, fun n => ?_⟩
    rw [State.stack, hstacks]
    simp [State.dieReports, State.holdDies, State.loadFuses, vget]
  · obtain ⟨hstart, hcells, hmem, hcycle⟩ := startGoes_cycles ((dieReports_held hheld).2 hbad) 3
    exact ⟨_, startup_second haux hchip hheld hrun hph, by rw [hstart, dieReports_status], by rw [hcells]; simp,
      by rw [hmem]; simp, by rw [hstart]; exact (dieReports_held hheld).2 hbad, hcycle⟩
  · obtain ⟨hstart, htrained⟩ := trainJoinsFull_trains s.logicTest
    obtain ⟨hphase, hcells, hmem, -, hxds⟩ := startGoes_on (s := s.logicTest.trainJoinsFull)
      (by rw [hstart]; exact (logicTest_held hheld).1 hgood) 4 (by omega)
    refine ⟨_, startup_third haux hchip hheld hrun hph, hphase, by rw [hcells]; simp, by rw [hmem]; simp, fun j => ?_⟩
    rw [State.xd, hxds]
    exact htrained j
  · obtain ⟨hstart, -⟩ := trainJoinsFull_trains s.logicTest
    have hheld' : s.logicTest.trainJoinsFull.start.held ≠ 0 := by rw [hstart]; exact (logicTest_held hheld).2 hbad
    obtain ⟨hstart', hcells, hmem, hcycle⟩ := startGoes_cycles hheld' 4
    exact ⟨_, startup_third haux hchip hheld hrun hph, by rw [hstart', hstart, logicTest_status], by rw [hcells]; simp,
      by rw [hmem]; simp, by rw [hstart']; exact hheld', hcycle⟩
  · obtain ⟨hphase, hcells, hmem, -⟩ := setPhaseNo_eq s 5 (by omega)
    exact ⟨_, startup_fourth haux hchip hheld hrun hph, hphase, hcells, hmem, trivial⟩
  · obtain ⟨host, hhost⟩ := setPhaseNo_host ({ s with route := { s.route with fullTrained := true } } : State) 6
    obtain ⟨hphase, hcells, hmem, -⟩ := setPhaseNo_eq ({ s with route := { s.route with fullTrained := true } } : State) 6
      (by omega)
    refine ⟨_, (startup_fifth haux hchip hheld hrun hph).trans (if_pos ⟨hready, hports⟩), hphase, hcells, hmem, ?_⟩
    rw [hhost]
  · rw [startup_fifth haux hchip hheld hrun hph, if_neg]
    rintro ⟨hready, hports⟩
    rcases hwaits with h | h
    · simp [h] at hready
    · exact h hports
  · obtain ⟨hmem, hstacks, hcells⟩ := noteTrained_keeps s n
    have hexec := stackTrained_phase htrains n temp
    rw [if_pos (by simp [hfence, hhot])] at hexec
    exact ⟨_, hexec, hmem, hstacks, hcells⟩

end Sys2Proof.Machine
end

section
/-!
SUPPORT. Words written back and words scrubbed (R300, R301, R305).
-/
namespace Sys2Proof.Machine

/-! ### Entries of a sparse store -/

/-- In canonical form, what is listed is what reads other than the default. -/
theorem Sparse.mem_iff {β : Type} [DecidableEq β] {d : β} {k : Nat} {v : β} : ∀ {m : Sparse β} {lo : Nat},
    Sparse.wfFrom d lo m → ((k, v) ∈ m ↔ Sparse.get d m k = v ∧ v ≠ d)
  | [], _, _ => by
    simp only [List.not_mem_nil, Sparse.get, false_iff, not_and, not_not]
    exact Eq.symm
  | (a, w) :: rest, lo, h => by
    simp only [Sparse.wfFrom, Bool.and_eq_true, decide_eq_true_eq] at h
    obtain ⟨⟨-, hw⟩, hrest⟩ := h
    have ih := Sparse.mem_iff (k := k) (v := v) hrest
    rw [List.mem_cons, ih, Prod.mk.injEq, Sparse.get]
    by_cases hk : k = a
    · subst hk
      rw [Sparse.get_lt hrest (by omega)]
      grind
    · by_cases hlt : k < a
      · rw [Sparse.get_lt hrest (by omega)]
        grind
      · grind

namespace ProtMem

/-- The words listed of a range are those with a difference. -/
theorem mem_marked {m : ProtMem} (h : m.wf) (a n w : Nat) (e : BitVec 39) :
    (w, e) ∈ m.marked a n ↔ (m.diff w = e ∧ e ≠ 0) ∧ a < 4 * w + 4 ∧ 4 * w < a + n := by
  rw [marked, List.mem_filter, Sparse.mem_iff ((wf_iff m).mp h).2]
  simp [diff]

/-! ### Words written back (R301) -/

/-- A word that a read corrects is merged into a code word. -/
theorem diff_mergeWord_self {m : ProtMem} (h : m.wf) {w : Nat} (hw : m.poisonedWord w = false) : (m.mergeWord w).diff w = 0 := by
  rcases mergeWord_merged h w with h0 | hmark
  · exact h0
  · have hpoison := poisonedWord_mergeWord h w w
    rw [hw, poisonedWord_eq, readWord_snd, hmark, syndrome_poisonDiff] at hpoison
    cases hpoison

/-- Words that reads correct, merged in turn: they are code words, and every byte reads as before. -/
theorem foldl_mergeWord {ws : List Nat} : ∀ {m : ProtMem}, m.wf → (∀ w ∈ ws, m.poisonedWord w = false) →
    (∀ b, (ws.foldl mergeWord m).readByte b = m.readByte b) ∧
    ∀ v, (ws.foldl mergeWord m).diff v = if v ∈ ws then 0 else m.diff v := by
  induction ws with
  | nil => exact fun _ _ => ⟨fun _ => rfl, fun _ => rfl⟩
  | cons w ws ih =>
    intro m h hws
    obtain ⟨hread, hdiff⟩ := ih (mergeWord_wf h w) fun v hv => by
      rw [poisonedWord_mergeWord h]
      exact hws v (List.mem_cons_of_mem _ hv)
    refine ⟨fun b => (hread b).trans (readByte_mergeWord h w b), fun v => (hdiff v).trans ?_⟩
    by_cases hv : v = w
    · subst hv
      simp [diff_mergeWord_self h (hws v List.mem_cons_self)]
    · simp [hv, diff_mergeWord_ne h hv]

/-- The correctable words of a burst. -/
theorem mem_correctable {m : ProtMem} (h : m.wf) (line w : Nat) : w ∈ m.correctable (256 * line) ↔
    m.diff w ≠ 0 ∧ (64 * line ≤ w ∧ w < 64 * line + 64) ∧ m.poisonedWord w = false := by
  simp only [correctable, List.mem_map, List.mem_filter, Prod.exists, mem_marked h,
    Bool.not_eq_true', poisonedWord]
  constructor
  · rintro ⟨v, e, ⟨⟨⟨rfl, he⟩, h1, h2⟩, hgood⟩, rfl⟩
    exact ⟨he, by omega, by rw [if_neg he, hgood]⟩
  · rintro ⟨he, hrange, hgood⟩
    rw [if_neg he] at hgood
    exact ⟨w, m.diff w, ⟨⟨⟨rfl, he⟩, by omega, by omega⟩, hgood⟩, rfl⟩

/-- The correctable words of a burst written back. -/
theorem correct_burst {m : ProtMem} (h : m.wf) (line : Nat) :
    (∀ b, ((m.correctable (256 * line)).foldl mergeWord m).readByte b = m.readByte b) ∧
    ∀ w, ((m.correctable (256 * line)).foldl mergeWord m).diff w =
      if 64 * line ≤ w ∧ w < 64 * line + 64 ∧ m.poisonedWord w = false then 0 else m.diff w := by
  obtain ⟨hread, hdiff⟩ := foldl_mergeWord (ws := m.correctable (256 * line)) h fun w hw =>
    ((mem_correctable h line w).mp hw).2.2
  refine ⟨hread, fun w => (hdiff w).trans ?_⟩
  simp only [mem_correctable h]
  by_cases h0 : m.diff w = 0
  · simp [h0]
  · simp only [ne_eq, h0, not_false_eq_true, true_and, and_assoc]

/-- The uncorrectable words of a burst. -/
def badWords (m : ProtMem) (d : Nat) : List Nat :=
  ((m.marked d 256).filter (fun p => decide (classify (syndrome p.2) = .bad))).map (·.1)

theorem mem_badWords {m : ProtMem} (h : m.wf) {d : Nat} (hd : d % 256 = 0) (w : Nat) :
    w ∈ m.badWords d ↔ d / 4 ≤ w ∧ w < d / 4 + 64 ∧ classify (syndrome (m.diff w)) = .bad := by
  simp only [badWords, List.mem_map, List.mem_filter, Prod.exists, mem_marked h, decide_eq_true_eq]
  constructor
  · rintro ⟨v, e, ⟨⟨⟨rfl, he⟩, h1, h2⟩, hbad⟩, rfl⟩
    exact ⟨by omega, by omega, hbad⟩
  · rintro ⟨h1, h2, hbad⟩
    refine ⟨w, m.diff w, ⟨⟨⟨rfl, fun h0 => ?_⟩, by omega, by omega⟩, hbad⟩, rfl⟩
    rw [h0, syndrome_zero] at hbad
    cases hbad

end ProtMem

/-- ECC_WRITEBACK of a stack that is not fenced. -/
theorem eccWriteback_corrects {s : State} {n : StackId} {ch : ChanId} {line : Nat} {rest : List Nat}
    (hback : (vget (s.stack n).channels ch).writeBack = line :: rest) (hfence : (s.stack n).fenced = false)
    (hwf : s.mem.dram.wf = true) : Completes (.eccWriteback n ch) s (fun t =>
      t = { s.modStack n (fun x => x.modCh ch fun z => { z with writeBack := rest }) with
        mem := { s.mem with dram := t.mem.dram } } ∧
      (∀ b, t.mem.dram.readByte b = s.mem.dram.readByte b) ∧
      (∀ w, t.mem.dram.diff w =
        if 64 * line ≤ w ∧ w < 64 * line + 64 ∧ s.mem.dram.poisonedWord w = false then 0 else s.mem.dram.diff w)) := by
  have hgo : ¬ (s.stack n).fenced = true := by simp [hfence]
  rw [Completes, exec_eccWriteback, execEccWriteback, hback]
  dsimp only
  rw [if_neg hgo]
  exact ⟨_, rfl, rfl, ProtMem.correct_burst hwf line⟩

/-! ### Scrub (R300, R305) -/

/-- Of every channel, how many bursts of it have been scrubbed. -/
def State.places (s : State) : Vector (Vector Nat 32) 16 := s.stackSet.map (fun x => x.channels.map Channel.scrub)

theorem modStack_places {f : Stack → Stack} (h : ∀ x, (f x).channels.map Channel.scrub = x.channels.map Channel.scrub)
    (s : State) (n : StackId) : (s.modStack n f).places = s.places :=
  map_vmod (fun x : Stack => x.channels.map Channel.scrub) s.stackSet n (h _)

theorem modCh_places {f : Channel → Channel} (h : ∀ y, (f y).scrub = y.scrub) (x : Stack) (ch : ChanId) :
    (x.modCh ch f).channels.map Channel.scrub = x.channels.map Channel.scrub := map_vmod Channel.scrub x.channels ch (h _)

theorem places_at {s t : State} (h : t.places = s.places) (n : StackId) (ch : ChanId) :
    (vget (t.stack n).channels ch).scrub = (vget (s.stack n).channels ch).scrub := by
  have hn := congrArg (fun v => vget (vget v n) ch) h
  simp only [State.places, vget_map] at hn
  exact hn

theorem startReset_places (s : State) (lvl : ResetLevel) (c : CellId) (i : SlotId) (e : BitVec 4) (p : PartId)
    (cause : BitVec 4) : (s.startReset lvl c i e p cause).places = s.places :=
  congrArg (Vector.map fun x : Stack => x.channels.map Channel.scrub) (startReset_stackSet ..)

theorem persistPoison_places (s : State) (p : PartId) (addr : Nat) (who : Option At) (atRetire : Bool) :
    (s.persistPoison p addr who atRetire).places = s.places := by
  dsimp only [State.persistPoison]
  split
  · rfl
  · split
    · exact startReset_places ..
    · exact startReset_places ..
    · rfl
    · rfl
    · rfl

/-- A word of a scrubbed burst that a read cannot correct becomes a poison mark. -/
theorem scrubMark_marks (s : State) (n : StackId) (ch : ChanId) (w : Nat) (syn : BitVec 7) :
    (s.scrubMark n ch w syn).mem = { s.mem with dram := s.mem.dram.poison w } ∧
    (s.scrubMark n ch w syn).places = s.places := by
  have hplaces (r : ErrRec) (m : MemCtl) : State.places { (s.report r).modStack n (fun x =>
      { x with eccCnt := satAdd x.eccCnt 16 16 1 }) with mem := m } = s.places :=
    modStack_places (by intros; rfl) (s.report r) n
  dsimp only [State.scrubMark]
  split
  · exact ⟨persistPoison_mem .., (persistPoison_places ..).trans (hplaces ..)⟩
  · exact ⟨rfl, hplaces ..⟩

theorem countCe_places (s : State) (n : StackId) (ch : ChanId) (addr : Nat) (syn : Word32) :
    (s.countCe n ch addr syn).places = s.places := by
  have hcount := modStack_places (f := fun x => { x.modCh ch (fun y => { y with windowCe := y.windowCe + 1 }) with
    eccCnt := satAdd x.eccCnt 32 32 1 }) (fun x => modCh_places (f := fun y => { y with windowCe := y.windowCe + 1 })
      (by intros; rfl) x ch) s n
  dsimp only [State.countCe]
  split
  · exact (modStack_places (fun x => modCh_places (by intros; rfl) x ch) ..).trans hcount
  · exact hcount

/-- Any other word of it that is not a code word is counted, or queued to be written back. -/
theorem noteWord_counts {s : State} (hctl : bit s.mem.memCtl 0 = false) {m : BitVec 39} (hm : classify (syndrome m) ≠ .bad)
    (who : Option At) (opt pend : Bool) (view d : Nat) :
    (s.noteWord who opt pend view d m).mem = s.mem ∧ (s.noteWord who opt pend view d m).places = s.places := by
  have hmargin : ¬ s.margined (stackOf d) (s.chanOf d) = true := by simp [State.margined, hctl]
  have hcount : (s.modStack (stackOf d) fun x => { x with eccCnt := satAdd x.eccCnt 0 16 1 }).places = s.places :=
    modStack_places (by intros; rfl) ..
  dsimp only [State.noteWord]
  rw [if_neg hmargin]
  split
  · exact ⟨rfl, rfl⟩
  · split
    · exact ⟨persistPoison_mem .., (persistPoison_places ..).trans hcount⟩
    · exact ⟨rfl, hcount⟩
  · next h => exact absurd h hm
  · split
    · exact ⟨rfl, rfl⟩
    · refine ⟨countCe_mem .., (modStack_places (fun x => ?_) ..).trans (countCe_places ..)⟩
      refine modCh_places (fun y => ?_) x _
      split <;> rfl

/-- What scrub does with one word listed of its burst. -/
def State.scrubWord (n : StackId) (ch : ChanId) (pend : Bool) (t : State) (p : Nat × BitVec 39) : State :=
  if classify (syndrome p.2) = .bad then t.scrubMark n ch p.1 (syndrome p.2)
  else t.noteWord none false pend (4 * p.1) (4 * p.1) p.2

/-- The words listed, in turn: the uncorrectable ones become poison marks. -/
theorem foldl_scrubWord (n : StackId) (ch : ChanId) (pend : Bool) (l : List (Nat × BitVec 39)) {s : State}
    (hctl : bit s.mem.memCtl 0 = false) : (l.foldl (State.scrubWord n ch pend) s).mem = { s.mem with
      dram := s.mem.dram.poisonAll ((l.filter fun p => decide (classify (syndrome p.2) = .bad)).map (·.1)) } ∧
    (l.foldl (State.scrubWord n ch pend) s).places = s.places := by
  induction l generalizing s with
  | nil => exact ⟨rfl, rfl⟩
  | cons p l ih =>
    rw [List.foldl_cons]
    by_cases hbad : classify (syndrome p.2) = .bad
    · obtain ⟨hmem, hplaces⟩ := scrubMark_marks s n ch p.1 (syndrome p.2)
      obtain ⟨hmem', hplaces'⟩ := ih (s := s.scrubMark n ch p.1 (syndrome p.2)) (by rw [hmem]; exact hctl)
      rw [State.scrubWord, if_pos hbad, hmem', hplaces', hplaces, hmem, List.filter_cons_of_pos (by simpa using hbad)]
      exact ⟨rfl, rfl⟩
    · obtain ⟨hmem, hplaces⟩ := noteWord_counts hctl hbad none false pend (4 * p.1) (4 * p.1)
      obtain ⟨hmem', hplaces'⟩ := ih (s := s.noteWord none false pend (4 * p.1) (4 * p.1) p.2) (by rw [hmem]; exact hctl)
      rw [State.scrubWord, if_neg hbad, hmem', hplaces', hplaces, hmem, List.filter_cons_of_neg (by simpa using hbad)]
      exact ⟨rfl, rfl⟩

/-- A scrub read whose burst is moved at once. -/
theorem scrubBurst_marks {s : State} {n : StackId} {ch : ChanId} {d : Nat} (hmoves : s.Moves s.mem.dram d 0)
    (hctl : bit s.mem.memCtl 0 = false) :
    (s.scrubBurst n ch d).mem = { s.mem with dram := s.mem.dram.poisonAll (s.mem.dram.badWords d) } ∧
    (s.scrubBurst n ch d).places = s.places := by
  obtain ⟨fs, w, hs1⟩ := crossed_moves hmoves (by omega) none false d
  have hmem : (s.crossed none false d d (0, [])).mem = s.mem := by rw [hs1]; rfl
  have hplaces : (s.crossed none false d d (0, [])).places = s.places := by
    rw [hs1]
    exact modStack_places (f := fun x => x.retried (s.chanOf d) 0 w) (fun x => modCh_places
      (f := fun y => { y with crcCount := y.crcCount + 0 }) (by intros; rfl) x (s.chanOf d)) s (stackOf d)
  obtain ⟨hmem', hplaces'⟩ := foldl_scrubWord n ch (s.pendingBack d) (s.mem.dram.marked d 256)
    (s := s.crossed none false d d (0, [])) (by rw [hmem]; exact hctl)
  have hscrub : s.scrubBurst n ch d =
      (s.mem.dram.marked d 256).foldl (State.scrubWord n ch (s.pendingBack d)) (s.crossed none false d d (0, [])) := by
    rw [State.scrubBurst, seen_of_whole hmoves.whole, hmoves.wire]
    dsimp only
    rw [if_neg (by decide), crossed_seen hmoves (by omega)]
    rfl
  rw [hscrub, hmem', hplaces', hplaces, hmem]
  exact ⟨rfl, rfl⟩

/-- PATROL_SCRUB of an enabled, trained stack whose connections work. -/
theorem patrolScrub_marks {s : State} {n : StackId} {ch : ChanId} {d : Nat} (hscrubs : s.scrubs n = true)
    (haddr : s.scrubAddr n ch (vget (s.stack n).channels ch).scrub = some d) (hd : d % 256 = 0) (hwf : s.mem.dram.wf = true)
    (hwire : (s.stack n).wire = none) (hbroken : (vget (s.stack n).channels ch).broken = []) (hch : ch = s.chanOf d)
    (hn : stackOf d = n) : Completes (.patrolScrub n ch [] []) s (fun t =>
      t.mem.dram.bytes = s.mem.dram.bytes ∧
      (vget (t.stack n).channels ch).scrub = (vget (s.stack n).channels ch).scrub + 1 ∧ t.cells = s.cells ∧
      ∀ w, t.mem.dram.diff w = if d / 4 ≤ w ∧ w < d / 4 + 64 ∧
        classify (syndrome (s.mem.dram.diff w)) = .bad then poisonDiff else s.mem.dram.diff w) := by
  subst hch hn
  simp only [State.scrubs, Bool.and_eq_true, Bool.not_eq_true'] at hscrubs
  obtain ⟨⟨⟨hon, hfence⟩, htrained⟩, hctl⟩ := hscrubs
  have hgo : ¬ s.scrubs (stackOf d) = false := by simp [State.scrubs, hon, hfence, htrained, hctl]
  have hmoves : s.Moves s.mem.dram d 0 :=
    ⟨by simp [Stack.silent, hfence, htrained], hbroken, by simp [State.margined, hctl],
      by simp [State.wire, State.wireTries, hwire]⟩
  obtain ⟨hmem, hplaces⟩ := scrubBurst_marks (n := stackOf d) (ch := s.chanOf d) hmoves hctl
  have hexec : exec (.patrolScrub (stackOf d) (s.chanOf d) [] []) s = .next ((s.scrubBurst (stackOf d) (s.chanOf d) d).modStack
      (stackOf d) (fun x => x.modCh (s.chanOf d) (fun y => { y with scrub := y.scrub + 1 }))) := by
    have hsame : (s.flipBits d []).modStack (stackOf d) (fun x =>
        { x with wire := if ([] : List WireTry).isEmpty then x.wire else some (d / 256, []) }) = s :=
      modStack_of_eq (s := s) (f := fun x =>
        { x with wire := if ([] : List WireTry).isEmpty then x.wire else some (d / 256, []) }) rfl
    rw [exec_patrolScrub, execPatrolScrub, if_neg hgo, haddr]
    exact congrArg (fun t : State => (.next ((t.scrubBurst (stackOf d) (s.chanOf d) d).modStack (stackOf d) (fun x =>
      x.modCh (s.chanOf d) (fun y => { y with scrub := y.scrub + 1 }))) : Res)) hsame
  refine ⟨_, hexec, ?_, ?_, by simp, fun w => ?_⟩
  · rw [modStack_mem, hmem]
    exact ProtMem.bytes_poisonAll ..
  · rw [modStack_stack_self]
    refine (congrArg Channel.scrub (vget_vmod_self _ (s.chanOf d) fun y => { y with scrub := y.scrub + 1 })).trans ?_
    exact congrArg (· + 1) (places_at hplaces ..)
  · rw [modStack_mem, hmem]
    refine (ProtMem.diff_poisonAll hwf _ w).trans ?_
    simp only [ProtMem.mem_badWords hwf hd]

end Sys2Proof.Machine
end

section
/-!
SUPPORT. What a tick of the regulators leaves and adds (R294, R308).
-/
namespace Sys2Proof.Machine

/-! ### What a tick leaves (R294) -/

/-- What a queued request asks for. -/
def MemReq.asks (r : MemReq) : Nat × Nat × Bool × List Byte := (r.addr, r.len, r.write, r.data)

/-- What no regulator changes: memory, cells, steps, records, and what is asked for. -/
def State.unregulated (s : State) : MemCtl × Vector Cell 64 × Vector Step 4 × Faults ×
    Vector (List (Nat × Nat × Bool × List Byte)) 16 :=
  (s.mem, s.cells, s.steps, s.faults, s.stackSet.map fun x => x.requests.map MemReq.asks)

theorem modPart_unregulated (s : State) (p : PartId) (f : Part → Part) : (s.modPart p f).unregulated = s.unregulated := rfl

theorem modStack_unregulated {f : Stack → Stack} (h : ∀ x, (f x).requests.map MemReq.asks = x.requests.map MemReq.asks)
    (s : State) (n : StackId) : (s.modStack n f).unregulated = s.unregulated :=
  congrArg (fun v => (s.mem, s.cells, s.steps, s.faults, v))
    (map_vmod (fun x : Stack => x.requests.map MemReq.asks) s.stackSet n (h _))

theorem map_lmod {α β : Type} (k : α → β) {f : α → α} (h : ∀ a, k (f a) = k a) (l : List α) (i : Nat) :
    (lmod l i f).map k = l.map k := by
  refine List.ext_getElem (by simp [lmod]) fun j h1 h2 => ?_
  simp only [lmod, List.getElem_map, List.getElem_modify]
  split
  · exact h _
  · rfl

theorem bucket_unregulated {s t : State} {p : PartId} {d : Nat} (h : s.bucket p d = some t) :
    t.unregulated = s.unregulated := by
  dsimp only [State.bucket] at h
  split_ifs at h <;> cases h <;> rfl

theorem thermal_unregulated {s t : State} {b : Bool} {d : Nat} (h : s.thermal b d = some t) :
    t.unregulated = s.unregulated := by
  dsimp only [State.thermal] at h
  split_ifs at h <;> cases h
  · rfl
  · exact modStack_unregulated (by intros; rfl) ..

theorem bucketAdmit_unregulated (s : State) (n : StackId) (i : Nat) :
    (s.bucketAdmit n i).unregulated = s.unregulated := by
  unfold State.bucketAdmit
  split
  · rfl
  · split
    · rfl
    · split
      · rfl
      · next h =>
        exact (modStack_unregulated (fun x => map_lmod MemReq.asks (by intros; rfl) x.requests i) ..).trans
          (bucket_unregulated h)

theorem thermAdmit_unregulated (s : State) (n : StackId) (i : Nat) :
    (s.thermAdmit n i).unregulated = s.unregulated := by
  unfold State.thermAdmit
  split
  · rfl
  · split
    · rfl
    · split
      · rfl
      · next h =>
        exact (modStack_unregulated (fun x => map_lmod MemReq.asks (by intros; rfl) x.requests i) ..).trans
          (thermal_unregulated h)

theorem fillBuckets_unregulated (s : State) (n : StackId) : (s.fillBuckets n).unregulated = s.unregulated := by
  have hfill : State.unregulated ((allFin 4).foldl (fun t p => t.modPart p (fun x =>
      let w := vget x.stack n
      { x with tokens := vmod x.tokens n (fun k => min (k + (fld w 0 20 : Nat)) (bucketDepth w : Nat)) })) s) = s.unregulated :=
    foldl_keeps State.unregulated (by intros; rfl) ..
  dsimp only [State.fillBuckets]
  split
  · exact (modStack_unregulated (by intros; rfl) ..).trans hfill
  · exact hfill

theorem tickStack_unregulated (s : State) (n : StackId) : (s.tickStack n).unregulated = s.unregulated :=
  (foldl_keeps State.unregulated (fun _ _ => (thermAdmit_unregulated ..).trans (bucketAdmit_unregulated ..)) ..).trans
    (fillBuckets_unregulated ..)

theorem countHeld_unregulated (s : State) : s.countHeld.unregulated = s.unregulated :=
  foldl_keeps State.unregulated (by intros; rfl) ..

theorem regulatorTick_unregulated (s : State) :
    ((allFin 16).foldl State.tickStack s.countHeld).unregulated = s.unregulated :=
  (foldl_keeps State.unregulated tickStack_unregulated ..).trans (countHeld_unregulated s)

theorem unregulated_requests {s t : State} (h : t.unregulated = s.unregulated) (n : StackId) :
    (t.stack n).requests.map MemReq.asks = (s.stack n).requests.map MemReq.asks := by
  have hn := congrArg (fun u => vget u.2.2.2.2 n) h
  simp only [State.unregulated, vget_map] at hn
  exact hn

theorem unregulated_empty {s t : State} (h : t.unregulated = s.unregulated) (h0 : ∀ n, (s.stack n).requests = [])
    (n : StackId) : (t.stack n).requests = [] := by
  have hn := unregulated_requests h n
  rw [h0, List.map_nil] at hn
  exact List.map_eq_nil_iff.mp hn

/-! ### A tick with no request queued -/

/-- One change of many partitions, each once. -/
theorem foldl_modPart_part (f : PartId → Part → Part) (q : PartId) : ∀ (l : List PartId) (s : State), l.Nodup →
    (l.foldl (fun t p => t.modPart p (f p)) s).part q = if q ∈ l then f q (s.part q) else s.part q
  | [], _, _ => rfl
  | p :: l, s, h => by
    obtain ⟨hp, hl⟩ := List.nodup_cons.mp h
    rw [List.foldl_cons, foldl_modPart_part f q l _ hl]
    by_cases e : q = p
    · subst e
      rw [if_neg hp, if_pos List.mem_cons_self, modPart_part_self]
    · rw [modPart_part_ne _ _ _ _ (Ne.symm e)]
      simp [e]

/-- A partition at a tick of stack n. -/
def Part.filled (n : StackId) (x : Part) : Part :=
  { x with tokens := vmod x.tokens n (fun k =>
      min (k + (fld (vget x.stack n) 0 20 : Nat)) (bucketDepth (vget x.stack n) : Nat)) }

theorem fillBuckets_part (s : State) (n : StackId) (p : PartId) : (s.fillBuckets n).part p = (s.part p).filled n := by
  have hfill := (foldl_modPart_part (fun _ => Part.filled n) p (allFin 4) s (List.nodup_finRange 4)).trans
    (if_pos (List.mem_finRange p))
  unfold State.fillBuckets
  dsimp only
  split
  · exact hfill
  · exact hfill

/-- A stack with no request queued has its buckets filled. -/
theorem tickStack_empty {s : State} {n : StackId} (h : (s.stack n).requests = []) : s.tickStack n = s.fillBuckets n := by
  rw [State.tickStack, h]
  rfl

theorem foldl_tickStack_empty (l : List StackId) {s : State} (h : ∀ n, (s.stack n).requests = []) :
    l.foldl State.tickStack s = l.foldl State.fillBuckets s := by
  induction l generalizing s with
  | nil => rfl
  | cons k l ih =>
    rw [List.foldl_cons, List.foldl_cons, tickStack_empty (h k)]
    exact ih (unregulated_empty (fillBuckets_unregulated s k) h)

/-- Ticks of several stacks, each once. -/
theorem foldl_fillBuckets_part (p : PartId) : ∀ (l : List StackId) (s : State), l.Nodup →
    ((l.foldl State.fillBuckets s).part p).held = (s.part p).held ∧
    ((l.foldl State.fillBuckets s).part p).waited = (s.part p).waited ∧
    ∀ n, vget ((l.foldl State.fillBuckets s).part p).tokens n = if n ∈ l then
      min (vget (s.part p).tokens n + (fld (vget (s.part p).stack n) 0 20 : Nat)) (bucketDepth (vget (s.part p).stack n) : Nat)
      else vget (s.part p).tokens n
  | [], _, _ => ⟨rfl, rfl, fun _ => rfl⟩
  | k :: l, s, h => by
    obtain ⟨hk, hl⟩ := List.nodup_cons.mp h
    obtain ⟨hheld, hwaited, htokens⟩ := foldl_fillBuckets_part p l (s.fillBuckets k) hl
    rw [fillBuckets_part] at hheld hwaited htokens
    rw [List.foldl_cons]
    refine ⟨hheld, hwaited, fun n => (htokens n).trans ?_⟩
    by_cases e : n = k
    · subst e
      rw [if_neg hk, if_pos List.mem_cons_self, Part.filled, vget_vmod_self]
    · have hother : vget ((s.part p).filled k).tokens n = vget (s.part p).tokens n := vget_vmod_ne _ _ _ _ (Ne.symm e)
      rw [hother]
      simp [e, Part.filled]

/-- A partition whose tick ends, with or without a request still queued. -/
def Part.ticked (queued : Bool) (x : Part) : Part :=
  { x with held := if x.waited || queued then x.held + 1 else x.held, waited := false }

/-- Whether a request of a partition waits in some stack. -/
def State.waitsAt (s : State) (p : PartId) : Bool :=
  s.stackSet.toList.any (fun x => x.requests.any (fun r => r.part == p && !r.admitted))

theorem countHeld_part (s : State) (p : PartId) : s.countHeld.part p = (s.part p).ticked (s.waitsAt p) := by
  have hfold : ∀ (l : List PartId) (t : State), t.stackSet = s.stackSet →
      l.foldl (fun t p => t.modPart p (Part.ticked (t.waitsAt p))) t =
        l.foldl (fun t p => t.modPart p (Part.ticked (s.waitsAt p))) t := by
    intro l
    induction l with
    | nil => exact fun _ _ => rfl
    | cons q l ih =>
      intro t ht
      have hq : t.waitsAt q = s.waitsAt q := by rw [State.waitsAt, ht]; rfl
      rw [List.foldl_cons, List.foldl_cons, hq]
      exact ih _ ht
  have hcount : s.countHeld = (allFin 4).foldl (fun t p => t.modPart p (Part.ticked (s.waitsAt p))) s := hfold _ s rfl
  rw [hcount]
  exact (foldl_modPart_part (fun q => Part.ticked (s.waitsAt q)) p (allFin 4) s (List.nodup_finRange 4)).trans
    (if_pos (List.mem_finRange p))

theorem waitsAt_empty {s : State} (h : ∀ n, (s.stack n).requests = []) (p : PartId) : s.waitsAt p = false := by
  rw [State.waitsAt, List.any_eq_false]
  intro x hx
  obtain ⟨i, hi, rfl⟩ := List.getElem_of_mem hx
  have hempty : (s.stackSet.toList[i]).requests = [] := h ⟨i, by simpa using hi⟩
  rw [hempty]
  simp

/-- REGULATOR_TICK. -/
theorem regulatorTick_ticks (s : State) : Completes .regulatorTick s (fun t =>
    t.mem = s.mem ∧ t.cells = s.cells ∧ t.steps = s.steps ∧ t.faults = s.faults ∧
    (∀ n, (t.stack n).requests.map (fun r => (r.addr, r.len, r.write, r.data)) =
      (s.stack n).requests.map (fun r => (r.addr, r.len, r.write, r.data))) ∧
    ((∀ n, (s.stack n).requests = []) → ∀ p n,
      vget (t.part p).tokens n = min (vget (s.part p).tokens n + (fld (vget (s.part p).stack n) 0 20 : Nat))
        (max (fld (vget (s.part p).stack n) 40 12) 1 * 4096 : Nat) ∧
      (t.part p).held = (s.part p).held + (if (s.part p).waited then 1 else 0) ∧ (t.part p).waited = false)) := by
  have hkept := regulatorTick_unregulated s
  have hrequests := unregulated_requests hkept
  simp only [State.unregulated, Prod.mk.injEq] at hkept
  obtain ⟨hmem, hcells, hsteps, hfaults, -⟩ := hkept
  refine ⟨_, exec_regulatorTick s, hmem, hcells, hsteps, hfaults, hrequests, fun hempty p n => ?_⟩
  obtain ⟨hheld, hwaited, htokens⟩ := foldl_fillBuckets_part p (allFin 16) s.countHeld (List.nodup_finRange 16)
  rw [countHeld_part, waitsAt_empty hempty] at hheld hwaited htokens
  rw [foldl_tickStack_empty _ (unregulated_empty (countHeld_unregulated s) hempty)]
  refine ⟨(htokens n).trans (if_pos (List.mem_finRange n)), hheld.trans ?_, hwaited⟩
  cases h : (s.part p).waited <;> simp [Part.ticked, h]

end Sys2Proof.Machine
end

section
/-!
OBLIGATION O32. Write-backs, scrub, regulators, temperature and failed connections (R279, R294, R300, R301, R304, R305,
R307 to R309).
-/
namespace Sys2Proof.Machine

/-! ### Temperature (R307 to R309) -/

theorem foldl_max_le {T : Int} : ∀ (l : List (BitVec 16)) (b : Int), b ≤ T → (∀ x ∈ l, x.toInt ≤ T) →
    l.foldl (fun a x => max a x.toInt) b ≤ T
  | [], _, ha, _ => ha
  | x :: l, _, ha, hl => foldl_max_le l _ (max_le ha (hl x List.mem_cons_self)) fun y hy => hl y (List.mem_cons_of_mem _ hy)

theorem le_foldl_max : ∀ (l : List (BitVec 16)) (a : Int), a ≤ l.foldl (fun a x => max a x.toInt) a ∧
    ∀ x ∈ l, x.toInt ≤ l.foldl (fun a x => max a x.toInt) a
  | [], _ => ⟨le_rfl, fun _ hx => absurd hx List.not_mem_nil⟩
  | y :: l, a => by
    obtain ⟨hstart, hall⟩ := le_foldl_max l (max a y.toInt)
    refine ⟨(le_max_left ..).trans hstart, fun x hx => ?_⟩
    rcases List.mem_cons.mp hx with rfl | hx
    · exact (le_max_right ..).trans hstart
    · exact hall x hx

/-- The highest sensor. -/
theorem hottest_eq {v : Vector (BitVec 16) 4} {T : Int} (hle : ∀ i : Fin 4, (vget v i).toInt ≤ T)
    (hat : ∃ i : Fin 4, (vget v i).toInt = T) : hottest v = T := by
  obtain ⟨i, hi⟩ := hat
  have hmem : vget v i ∈ v.toList := by simp [vget]
  have hlow : (-32768 : Int) ≤ T := by
    have := BitVec.le_toInt (vget v i)
    omega
  refine le_antisymm (foldl_max_le v.toList _ hlow fun x hx => ?_) (hi ▸ (le_foldl_max v.toList (-32768)).2 _ hmem)
  obtain ⟨j, hj, rfl⟩ := List.getElem_of_mem hx
  exact hle ⟨j, by simpa using hj⟩

/-- What a reading T that puts stack n at level k leaves. -/
def State.ReadsHeat (s : State) (n : StackId) (T : Int) (k : Nat) (t : State) : Prop :=
  fld (t.stack n).therm 16 2 = k ∧ fld (t.stack n).therm 0 16 = (BitVec.ofInt 16 T).toNat ∧
  bit (t.stack n).therm 31 = (bit (s.stack n).therm 31 || decide (k = 3 ∧ fld (s.stack n).therm 16 2 ≠ 3)) ∧
  t.cells = s.cells ∧ t.mem = s.mem ∧
  (k = 3 → fld (s.stack n).therm 16 2 ≠ 3 → s.faults.resets = [] → ∃ q ∈ t.faults.resets, q.level = .chip)

/-- A stack that a reading puts at level l. -/
def Stack.heated (y : Stack) (T : Int) (l c : Nat) (fills : Bool) : Stack :=
  { y with
    therm := setFld (setFld y.therm 0 16 (BitVec.ofInt 16 T).toNat) 16 2 l, cooler := c
    thermTok := if fills then 65536 else y.thermTok }

theorem heated_therm (y : Stack) (T : Int) {l : Nat} (hl : l < 4) (c : Nat) (fills : Bool) :
    fld (y.heated T l c fills).therm 16 2 = l ∧ fld (y.heated T l c fills).therm 0 16 = (BitVec.ofInt 16 T).toNat ∧
    bit (y.heated T l c fills).therm 31 = bit y.therm 31 := by
  have hself : fld (setFld y.therm 0 16 (BitVec.ofInt 16 T).toNat) 0 16 = (BitVec.ofInt 16 T).toNat :=
    (fld_setFld_self _ _ _ _ (by omega)).trans (Nat.mod_eq_of_lt (BitVec.isLt _))
  refine ⟨(fld_setFld_self _ _ _ _ (by omega)).trans (Nat.mod_eq_of_lt hl), ?_, ?_⟩
  · exact (fld_setFld_ne _ _ _ _ _ _ (by omega)).trans hself
  · exact (bit_setFld_ne _ _ _ _ _ (by omega)).trans (bit_setFld_ne _ _ _ _ _ (by omega))

/-- What a fence leaves: the stack fenced, and a chip reset listed where none was under way. -/
theorem fence_leaves (u : State) (n : StackId) :
    ((u.fence n).stack n).therm = setBit (u.stack n).therm 31 true ∧
    (u.faults.resets = [] → ∃ q ∈ (u.fence n).faults.resets, q.level = .chip) := by
  obtain ⟨e, he⟩ : ∃ e, u.fence n = ((u.modStack n fun x => { x with therm := setBit x.therm 31 true }).report e).chipFault :=
    ⟨_, rfl⟩
  obtain ⟨hstacks, hlists⟩ := chipFault_lists ((u.modStack n fun x => { x with therm := setBit x.therm 31 true }).report e)
  rw [he]
  refine ⟨?_, fun h => hlists (by rw [State.report, push_resets]; exact h)⟩
  rw [State.stack, hstacks]
  exact congrArg Stack.therm (modStack_stack_self u n _)

section
variable {s : State} {n : StackId} {T : Int}

/-- A level that is not newly the critical one is only noted. -/
theorem readsHeat_noted {k : Nat} (hk : k < 4) (h3 : k = 3 → fld (s.stack n).therm 16 2 = 3) (c : Nat) (fills : Bool) :
    s.ReadsHeat n T k (s.modStack n (·.heated T k c fills)) := by
  obtain ⟨hlevel, htemp, hbit⟩ := heated_therm (s.stack n) T hk c fills
  have hno : decide (k = 3 ∧ fld (s.stack n).therm 16 2 ≠ 3) = false :=
    decide_eq_false fun ⟨h, hne⟩ => hne (h3 h)
  rw [State.ReadsHeat, modStack_stack_self, hno, Bool.or_false]
  exact ⟨hlevel, htemp, hbit, rfl, rfl, fun h hne => absurd (h3 h) hne⟩

/-- Critical level, newly entered, fences the stack and starts a chip reset (R309). -/
theorem readsHeat_fenced (h : fld (s.stack n).therm 16 2 ≠ 3) (c : Nat) (fills : Bool) :
    s.ReadsHeat n T 3 (((s.modStack n (·.heated T 3 c fills)).alertSet 3).fence n) := by
  obtain ⟨hlevel, htemp, hbit⟩ := heated_therm (s.stack n) T (l := 3) (by omega) c fills
  obtain ⟨u, hu⟩ : ∃ u, u = (s.modStack n (·.heated T 3 c fills)).alertSet 3 := ⟨_, rfl⟩
  obtain ⟨hstacks, hfaults⟩ := alertSet_keeps (s.modStack n (·.heated T 3 c fills)) 3
  rw [← hu] at hstacks hfaults
  have hstack : u.stack n = (s.stack n).heated T 3 c fills :=
    (congrArg (vget · n) hstacks).trans (modStack_stack_self ..)
  obtain ⟨hfenced, hresets⟩ := fence_leaves u n
  have hyes : decide (3 = 3 ∧ fld (s.stack n).therm 16 2 ≠ 3) = true := decide_eq_true ⟨rfl, h⟩
  rw [← hu, State.ReadsHeat, hfenced, hstack, hyes, Bool.or_true]
  refine ⟨(fld_setBit_ne _ _ _ _ _ (by omega)).trans hlevel, (fld_setBit_ne _ _ _ _ _ (by omega)).trans htemp,
    bit_setBit_self _ _ _ (by omega), ?_, ?_, fun _ _ h0 => hresets (by rw [hfaults]; exact h0)⟩
  · rw [fence_cells, hu, alertSet_cells]; rfl
  · rw [fence_mem, hu, alertSet_mem]; rfl

/-- A reading at a stack at critical level. -/
theorem stackTemp_critical (h : fld (s.stack n).therm 16 2 = 3) : s.ReadsHeat n T 3 (s.stackTemp n T) := by
  rw [State.stackTemp]
  dsimp only
  rw [if_pos h]
  exact readsHeat_noted (by omega) (fun _ => h) 0 _

/-- A reading that puts a stack higher. -/
theorem stackTemp_rises {k : Nat} (h : fld (s.stack n).therm 16 2 < k) (hk : levelOf T = k) :
    s.ReadsHeat n T k (s.stackTemp n T) := by
  have hk4 : k < 4 := by rw [← hk]; unfold levelOf; split_ifs <;> omega
  rw [State.stackTemp]
  dsimp only
  rw [if_neg (by omega), hk, if_pos h]
  split
  · next h3 =>
    subst h3
    exact readsHeat_fenced (by omega) 0 _
  · next h3 => exact readsHeat_noted hk4 (fun e => absurd e h3) 0 _

/-- A reading that leaves a stack where it is. -/
theorem stackTemp_stays {k : Nat} (h : fld (s.stack n).therm 16 2 = k) (hk : k < 3) (hlow : levelOf T ≤ k)
    (hleave : leavesLevel k T = false) : s.ReadsHeat n T k (s.stackTemp n T) := by
  rw [State.stackTemp]
  dsimp only
  rw [h, if_neg (by omega), if_neg (by omega), if_neg (by simp [hleave])]
  exact readsHeat_noted (by omega) (fun e => by omega) 0 _

/-- A reading below the level of a stack: it is left after the tenth in a row. -/
theorem stackTemp_cools {k : Nat} (h : fld (s.stack n).therm 16 2 = k) (hk : k < 3) (hlow : levelOf T ≤ k)
    (hleave : leavesLevel k T = true) :
    s.ReadsHeat n T (if 9 ≤ (s.stack n).cooler then k - 1 else k) (s.stackTemp n T) := by
  by_cases hc : 9 ≤ (s.stack n).cooler
  · rw [if_pos hc, State.stackTemp]
    dsimp only
    rw [h, if_neg (by omega), if_neg (by omega), if_pos hleave, if_pos (by omega)]
    exact readsHeat_noted (by omega) (fun e => by omega) 0 _
  · rw [if_neg hc, State.stackTemp]
    dsimp only
    rw [h, if_neg (by omega), if_neg (by omega), if_pos hleave, if_neg (by omega)]
    exact readsHeat_noted (by omega) (fun e => by omega) _ _

end

/-! ### Levels entered (Table 9-9) -/

theorem levelOf_three {T : Int} (h : 840 < T) : levelOf T = 3 := if_pos h

theorem levelOf_two {T : Int} (hlo : 760 ≤ T) (hhi : T ≤ 840) : levelOf T = 2 := by
  rw [levelOf, if_neg (by omega), if_pos hlo]

theorem levelOf_one {T : Int} (hlo : 680 ≤ T) (hhi : T < 760) : levelOf T = 1 := by
  rw [levelOf, if_neg (by omega), if_neg (by omega), if_pos hlo]

theorem levelOf_le_two {T : Int} (h : T ≤ 840) : levelOf T ≤ 2 := by
  rw [levelOf, if_neg (by omega)]
  split_ifs <;> omega

theorem levelOf_le_one {T : Int} (h : T < 760) : levelOf T ≤ 1 := by
  rw [levelOf, if_neg (by omega), if_neg (by omega)]
  split_ifs <;> omega

theorem levelOf_le_zero {T : Int} (h : T < 680) : levelOf T ≤ 0 := by
  rw [levelOf, if_neg (by omega), if_neg (by omega), if_neg (by omega)]

/-! ### Connections (R279, R559, R560) -/

section
variable {s : State} {n : StackId} {ch : ChanId} {i : Fin 318}

/-- A connection withdrawn before, or broken, does not fail again. -/
theorem connFails_again (h : i ∈ (vget (s.stack n).channels ch).failed ∨ i ∈ (vget (s.stack n).channels ch).broken) :
    s.connFails n ch i = s := by
  rw [State.connFails]
  dsimp only
  rw [if_pos (by simpa using h)]

variable (hfailed : i ∉ (vget (s.stack n).channels ch).failed) (hbroken : i ∉ (vget (s.stack n).channels ch).broken)
include hfailed hbroken

theorem connFails_unused (h : s.heldConns n ch = []) (hactive : s.connActive n ch i = false) :
    s.connFails n ch i = s.modStack n (fun x => x.modCh ch (fun z => { z with failed := z.failed ++ [i] })) := by
  rw [State.connFails]
  dsimp only
  rw [if_neg (by simp [hfailed, hbroken]), h, List.find?_nil, List.find?_nil, hactive]
  rfl

theorem connFails_spare (h : s.heldConns n ch = []) (hactive : s.connActive n ch i = true) {m : Fin 318}
    (hm : s.freeConn n ch = some m) : s.connFails n ch i = s.connCommit n ch i m := by
  rw [State.connFails]
  dsimp only
  rw [if_neg (by simp [hfailed, hbroken]), h, List.find?_nil, List.find?_nil, hactive, hm]
  rfl

theorem connFails_broken (h : s.heldConns n ch = []) (hactive : s.connActive n ch i = true)
    (hm : s.freeConn n ch = none) : s.connFails n ch i =
      (s.modStack n (fun x => x.modCh ch (fun z => { z with broken := z.broken ++ [i] }))).requestMapout n ch := by
  rw [State.connFails]
  dsimp only
  rw [if_neg (by simp [hfailed, hbroken]), h, List.find?_nil, List.find?_nil, hactive, hm]
  rfl

/-- A connection in rotation leaves its signal on the spare that carries it. -/
theorem connFails_rotated {m : Fin 318} (h : (i, m) ∈ s.heldConns n ch) (huniq : ∀ r ∈ s.heldConns n ch, r.1 = i → r.2 = m) :
    s.connFails n ch i = (s.connCommit n ch i m).endRotations (· == .conn n ch i) := by
  obtain ⟨r, hr⟩ : ∃ r, (s.heldConns n ch).find? (fun r => r.1 == i) = some r :=
    Option.isSome_iff_exists.mp (List.find?_isSome.mpr ⟨_, h, beq_self_eq_true i⟩)
  have hm : r.2 = m := huniq r (List.mem_of_find?_eq_some hr) (by simpa using List.find?_some hr)
  rw [State.connFails]
  dsimp only
  rw [if_neg (by simp [hfailed, hbroken]), hr, ← hm]

omit hbroken in
/-- With no rotation, a connection carries a signal where it is one of the 314 or a spare in place of one. -/
theorem connActive_idle (h : s.heldConns n ch = []) : s.connActive n ch i = true ↔
    i.val < 314 ∨ i ∈ (vget (s.stack n).channels ch).committed := by
  simp [State.connActive, h, hfailed]

end

/-- The first entry of a rising list that passes. -/
theorem find?_rising {k : Nat} {p : Fin k → Bool} {l : List (Fin k)} (hl : l.Pairwise (· < ·)) {m : Fin k} (hm : m ∈ l)
    (hp : p m = true) (hmin : ∀ j ∈ l, p j = true → m ≤ j) : l.find? p = some m := by
  obtain ⟨j, hj⟩ := Option.isSome_iff_exists.mp (List.find?_isSome.mpr ⟨m, hm, hp⟩)
  obtain ⟨hpj, as, bs, hsplit, has⟩ := List.find?_eq_some_iff_append.mp hj
  have hmj : m ≤ j := hmin j (List.mem_of_find?_eq_some hj) hpj
  rw [hsplit] at hm hl
  rcases List.mem_append.mp hm with hm | hm
  · have := has m hm
    simp [hp] at this
  · rcases List.mem_cons.mp hm with rfl | hm
    · exact hj
    · have hlt : j < m := (List.pairwise_cons.mp (List.pairwise_append.mp hl).2.1).1 m hm
      exact absurd hmj (not_le.mpr hlt)

section
variable {s : State} {n : StackId} {ch : ChanId}

/-- A spare connection that is neither committed nor failed. -/
def Channel.spare (y : Channel) (m : Fin 318) : Prop := 314 ≤ m.val ∧ m ∉ y.committed ∧ m ∉ y.failed

theorem mem_spares (m : Fin 318) : m ∈ ([314, 315, 316, 317] : List (Fin 318)) ↔ 314 ≤ m.val := by
  simp only [List.mem_cons, List.not_mem_nil, or_false, Fin.ext_iff]
  have h4 : (314 : Fin 318).val = 314 ∧ (315 : Fin 318).val = 315 ∧ (316 : Fin 318).val = 316 ∧ (317 : Fin 318).val = 317 := by
    decide
  omega

theorem freeConn_first (h : s.heldConns n ch = []) {m : Fin 318} (hm : (vget (s.stack n).channels ch).spare m)
    (hmin : ∀ k, (vget (s.stack n).channels ch).spare k → m.val ≤ k.val) : s.freeConn n ch = some m := by
  obtain ⟨h314, hcommitted, hfailed⟩ := hm
  rw [State.freeConn, h]
  refine find?_rising (by decide) ((mem_spares m).mpr h314) (by simp [hcommitted, hfailed]) fun k hk hfree => ?_
  exact hmin k ⟨(mem_spares k).mp hk, by simpa using hfree⟩

theorem freeConn_none (h : s.heldConns n ch = []) (hnone : ∀ m, ¬ (vget (s.stack n).channels ch).spare m) :
    s.freeConn n ch = none := by
  rw [State.freeConn, h, List.find?_eq_none]
  intro k hk hfree
  exact hnone k ⟨(mem_spares k).mp hk, by simpa using hfree⟩

end

/-- Settles O32: write-backs, scrub, windows, regulators, temperature and connections, each by its own rule. Which spare is
taken and what a rotation's failure does is log entry 32; the tick that HELD counts is log entry 18. -/
theorem scrubRegulatorsAndTemperature : Obligations.ScrubRegulatorsAndTemperature := by
  unfold Obligations.ScrubRegulatorsAndTemperature
  refine ⟨fun s n ch => ⟨fun line rest => eccWriteback_corrects, fun hback => ?_, fun d => patrolScrub_marks, fun hoff fs ts => ?_,
    rfl⟩, regulatorTick_ticks, fun s n v T hle hat => ?_, fun s n ch i => ⟨fun h => ?_, fun hfailed hbroken =>
      ⟨fun hidle => ⟨fun h314 hcommitted => ?_, fun hcarries => ⟨fun m hm hmin => ?_, fun hnone => ?_⟩⟩, fun m hm huniq => ?_⟩⟩⟩
  · rw [exec_eccWriteback, execEccWriteback, hback]
  · rw [exec_patrolScrub, execPatrolScrub, if_pos hoff]
  · have hexec : exec (.stackTempReading n v) s = .next (s.stackTemp n T) := by
      rw [exec_stackTempReading, execStackTempReading, hottest_eq hle hat]
    have hgoes (k : Nat) (hk : s.ReadsHeat n T k (s.stackTemp n T)) :
        Completes (.stackTempReading n v) s (s.ReadsHeat n T k) := ⟨_, hexec, hk⟩
    intro x lvl goes
    refine ⟨fun h => hgoes 3 (stackTemp_critical h), fun h hT => hgoes 3 (stackTemp_rises h (levelOf_three hT)),
      fun h hlo hhi => hgoes 2 (stackTemp_rises h (levelOf_two hlo hhi)),
      fun h hlo hhi => hgoes 1 (stackTemp_rises (lt_of_eq_of_lt h (by decide)) (levelOf_one hlo hhi)),
      fun h hT => hgoes 0 (stackTemp_stays h (by decide) (levelOf_le_zero hT) rfl),
      fun h hlo hhi => hgoes 1 (stackTemp_stays h (by decide) (levelOf_le_one hhi) (decide_eq_false (by omega))),
      fun h hT => hgoes _ (stackTemp_cools h (by decide) (levelOf_le_one (by omega)) (decide_eq_true hT)),
      fun h hlo hhi => hgoes 2 (stackTemp_stays h (by decide) (levelOf_le_two hhi) (decide_eq_false (by omega))),
      fun h hT => hgoes _ (stackTemp_cools h (by decide) (levelOf_le_two (by omega)) (decide_eq_true hT))⟩
  · rw [exec_stackConnectionFail, execStackConnectionFail, connFails_again h]
  · have hno : s.connActive n ch i = false := by
      rw [← Bool.not_eq_true, connActive_idle hfailed hidle, not_or]
      exact ⟨not_lt.mpr h314, hcommitted⟩
    rw [exec_stackConnectionFail, execStackConnectionFail, connFails_unused hfailed hbroken hidle hno]
  · rw [exec_stackConnectionFail, execStackConnectionFail, connFails_spare hfailed hbroken hidle
      ((connActive_idle hfailed hidle).mpr hcarries) (freeConn_first hidle hm hmin)]
    rfl
  · rw [exec_stackConnectionFail, execStackConnectionFail, connFails_broken hfailed hbroken hidle
      ((connActive_idle hfailed hidle).mpr hcarries) (freeConn_none hidle hnone)]
    rfl
  · refine ⟨(s.connCommit n ch i m).endRotations (· == .conn n ch i), ?_, rfl, fun r hr hi => ?_⟩
    · rw [exec_stackConnectionFail, execStackConnectionFail, connFails_rotated hfailed hbroken hm huniq]
    · have hkept := (List.mem_filter.mp hr).2
      rw [hi] at hkept
      simp at hkept

end Sys2Proof.Machine
end
